-- ==== Sys2Proof/Word.lean ====
section
/-!
DEFINITION. The word and byte types and their plainest arithmetic.
-/
namespace Sys2Proof

/-- A 32-bit word: a register, a bus word, a Felwen register. -/
abbrev Word := BitVec 32
/-- A byte of a memory. -/
abbrev Byte := BitVec 8

/-- Bits `hi:lo` of a natural number. -/
def bits (v hi lo : Nat) : Nat := (v >>> lo) % 2 ^ (hi + 1 - lo)

/-- `v` with bits `hi:lo` replaced by the low bits of `x`. -/
def setBits (v hi lo x : Nat) : Nat :=
  v - (bits v hi lo) * 2 ^ lo + (x % 2 ^ (hi + 1 - lo)) * 2 ^ lo

/-- The two's complement reading of the low `n` bits of `v`. -/
def sext (n v : Nat) : Int :=
  let u := v % 2 ^ n
  if u < 2 ^ (n - 1) then (u : Int) else (u : Int) - (2 ^ n : Nat)

/-- The low `n` bits of an integer. -/
def wrapInt (n : Nat) (x : Int) : Nat := (x % (2 ^ n : Nat)).toNat

/-- `x` held between `lo` and `hi`. -/
def clampInt (lo hi x : Int) : Int := if x < lo then lo else if hi < x then hi else x

/-- Saturating add for a count that holds at `top`. -/
def addHold (top x n : Nat) : Nat := if x + n < top then x + n else top

/-- Rounded-up division of naturals. -/
def ceilDiv (a b : Nat) : Nat := (a + b - 1) / b

/-- The least multiple of `g` that is `≥ t`. -/
def nextGrid (g t : Nat) : Nat := ceilDiv t g * g

/-- Rounded-down division of integers by a positive natural. -/
def floorDiv (a : Int) (b : Nat) : Int := Int.fdiv a b

/-- Rounded-up division of integers by a positive natural. -/
def ceilDivI (a : Int) (b : Nat) : Int := -(Int.fdiv (-a) b)

/-- A one-bit number from a Boolean. -/
def b2n (b : Bool) : Nat := if b then 1 else 0

end Sys2Proof
end

