-- ==== Sys2Proof/Syntax.lean ====
section
/-!
DEFINITION. The commands of the block: one constructor for each row of the opcode table, with what the outside world or
an analog function decides at that step as operands (log entry 1).
-/
namespace Sys2Proof.Machine

/-! ## What operands name -/

/-- What a scrubber finds in a word (R197, R924). -/
inductive Scrub where
  | clean
  | single
  | multi
  deriving DecidableEq, Repr

/-- The other memories that the line-store scrubber covers: SHD's of a head, the replay buffer, the BC state RAM; the
word index for SHD (R403, R924). -/
inductive ScrubMem where
  | shd (h : Fin 6) (w : Nat)
  | replay
  | bc
  deriving DecidableEq, Repr

/-- A check of the video front end that reports (R391-R394): the level check of field f with its D and its eight codes,
the dark check of field f, the duplicate compare on sample k of field f. -/
inductive VadcCheck where
  | level (f d : Nat) (codes : List Nat)
  | dark (f : Nat)
  | dup (f k : Nat)
  deriving DecidableEq, Repr

/-- A monitor sample of ILL that fails (R463), with the segment or the row it names. -/
inductive IllFound where
  | sinkOpen (seg : Fin 16)
  | stringShort (seg : Fin 16)
  | sinkLeak (seg : Fin 16)
  | rowOpen (row : Fin 4)
  | rowStuck (row : Fin 4)
  | boostLow
  | boostHigh
  deriving DecidableEq, Repr

/-- Which mark CASCADE_MARK sends (R475, R476). -/
inductive CasMark where
  | on (f : Nat)
  | off (f : Nat)
  | apply
  deriving DecidableEq, Repr

/-- What power-on reset finds of the NV work it cuts: the word writes made, and which copies of its slot the work had found to hold
an uncorrectable word (R148, R942). -/
structure NvCut where
  writes : Nat
  badA : Bool
  badB : Bool
  deriving DecidableEq, Repr

/-- A line of a head, with the signal that the sensor gives in each of its fields (R358-R361). -/
structure LineSignal where
  head : Fin 6
  wave : List (List Int)
  deriving DecidableEq, Repr

/-- The on-time of a boost period, and where V(BCS) ended it when it did (R449). -/
structure BoostTime where
  on : Nat
  cut : Option Nat
  deriving DecidableEq, Repr

/-- The converter of an urgent run, and the aux samples of the run at which the reference was low (R494, R515). -/
structure UrgentRun where
  conv : Fin 2
  low : List Nat
  deriving DecidableEq, Repr

/-- The 64 aux samples over which a monitor check held, and whether it is the short check (R489, R490). -/
structure ExcSeen where
  short : Bool
  vals : List Nat
  deriving DecidableEq, Repr

/-- An operand place that carries nothing: what the row works on came with the signal of the line, and State holds it. -/
abbrev NoData := Unit

/-- What drives an output: an entry of the edge list, or the clock of a PIXEL-mode output in cycle j of field f
(R332-R335). -/
inductive TpgEdge where
  | entry (e : Nat)
  | rise (p f j : Nat)
  | fall (p f j : Nat)
  /-- The output returns to its idle level after the field's clocks (R334). -/
  | idle (p f : Nat)
  deriving DecidableEq, Repr

/-- What the aux converters measure (R479): the pins, the internal nodes by the supply or sensor they follow, and REFIO. -/
inductive AuxNode where
  | pin (p : Fin 16)
  | vbias
  | agnd
  | dieConv
  | dieLane
  | vdd
  | vdda
  | vddio18
  | vddio33
  | vddl
  | vttl
  | testRef
  | refio
  deriving DecidableEq, Repr

/-- Voltages in nV at one sample instant; a node that is not listed stands at its nominal value (log entry 101). -/
abbrev AuxVolts := List (AuxNode × Int)

/-- The word of one lane in one word time (R755); `tail` holds the 1 to 7 bytes that end a burst, `bad` what is no word. -/
inductive LaneWord where
  | data (b : List Byte)
  | idle
  | ts (b : List Byte)
  | lm (b : List Byte)
  | tail (b : List Byte)
  | bad
  deriving DecidableEq, Repr

/-- What a lane carries in one word time: eight ten-bit symbols at L0, `a` highest, one scrambled block above, its header in bits
1:0 in order of transmission (R756, R759). -/
inductive LineWord where
  | syms (l : List (BitVec 10))
  | block (b : BitVec 66)
  deriving DecidableEq, Repr

/-- Where a lane's coding stands: the running disparity, and the last 58 payload bits on the line, the latest lowest (R756,
R761). -/
structure LineCode where
  rd : Bool := false
  scr : BitVec 58 := 0
  deriving DecidableEq, Repr

/-- What the lanes of the link carried in some word slots in a row, after deskew: each lane's coding before the first, and for
each slot the words of lanes 0 to W - 1 (R765). -/
structure RxLines where
  code : List LineCode
  slots : List (List LineWord)
  deriving DecidableEq, Repr

/-- A filtered quadrature transition (R620). -/
inductive Quad where
  | aLeads
  | bLeads
  | illegal
  deriving DecidableEq, Repr

/-- A change of the two encoder pins, with the beats that their new levels held at the filter (R620). -/
structure QuadStep where
  quad : Quad
  held : Nat
  deriving DecidableEq, Repr

/-- A rising edge of an axis's index pin, with the beats that the level held at the filter (R620, R622). -/
structure IndexEdge where
  axis : Fin 2
  held : Nat
  deriving DecidableEq, Repr

/-- The planner's jerk for an MI (R589). -/
inductive Jerk where
  | up
  | zero
  | down
  deriving DecidableEq, Repr

/-- What a supply's window comparator reports (R923). -/
inductive Window where
  | under
  | above
  | inside
  deriving DecidableEq, Repr

/-- How a command ended, as the array gave it: correctable words met, uncorrectable words in copies A and B (or in the
entry), and whether the read-back matched (R939, R942). -/
structure NvEnd where
  corr : Nat
  badA : Bool
  badB : Bool
  verify : Bool
  deriving DecidableEq, Repr

end Sys2Proof.Machine

namespace Sys2Proof

/-- Who makes an access: the control port, or a core's store or load (R30). -/
inductive Agent where
  | port
  | core (c : Fin 8)
  deriving DecidableEq, Repr

/-- The commit registers (R231). -/
inductive CommitReg where
  | head (h : Fin 6)
  | axis (a : Fin 2)
  | ctx (c : Fin 16)
  deriving DecidableEq, Repr

/-- The registers of AUX_CFG_WRITE (R518). -/
inductive AuxReg where
  | cfg
  | exc0
  | exc1
  | vex
  | bias
  deriving DecidableEq, Repr

/-- What the line-store scrubber reads: byte `x` of the line store, with the length of the pass when the word ends one, or
a word of another memory (R924, R925). -/
inductive ScrubPlace where
  | line (x : Nat) (pass : Option Nat)
  | other (k : Machine.ScrubMem) (idx : Nat)
  deriving DecidableEq, Repr

/-- A register field of a Felwen word (R244). -/
abbrev Rn := BitVec 4

/-- The commands.  In the instructions of a core, `c` is the core and the other operands are the fields of the word that
reaches execution at its PC (log entry 12). -/
inductive Instr where
  /-- POWER_ON_RESET_ASSERT (R146). -/
  | powerOnResetAssert (supply : Fin 6) (cut : Machine.NvCut)
  /-- POWER_ON_RESET_RELEASE (R112). -/
  | powerOnResetRelease
  /-- REFSRC_SELECT (R67). -/
  | refsrcSelect (refclk : Bool)
  /-- LOCK_FIRST (R78). -/
  | lockFirst
  /-- WARM_RESET_PIN (R120). -/
  | warmResetPin
  /-- RESETN_RELEASE (R120). -/
  | resetnRelease
  /-- SYS_RST_WARM (R122). -/
  | sysRstWarm
  /-- WARM_RESET_END (R122). -/
  | warmResetEnd
  /-- SELFTEST_DONE (R116). -/
  | selftestDone (pass : Bool)
  /-- MONITOR_WINDOW_END (R98). -/
  | monitorWindowEnd (count : Nat)
  /-- PLL_LOCK_LOSS (R71). -/
  | pllLockLoss
  /-- REF_OK_LOSS (R98). -/
  | refOkLoss
  /-- RELOCK (R102). -/
  | relock
  /-- SYS_TIME_WRAP (R83). -/
  | sysTimeWrap
  /-- SYS_TIME_LO_READ (R82). -/
  | sysTimeLoRead
  /-- HEAD_GATE (R93). -/
  | headGate (h : Fin 6)
  /-- HEAD_STOP (R93). -/
  | headStop (h : Fin 6)
  /-- HEAD_UNGATE (R95). -/
  | headUngate (h : Fin 6)
  /-- AUX_GATE (R520). -/
  | auxGate (on : Bool)
  /-- BC_GATE (R97). -/
  | bcGate (on : Bool)
  /-- WR1 (R851). -/
  | wr1 (addr : Word) (words : List Word)
  /-- RD1 (R851). -/
  | rd1 (addr : Word)
  /-- ST1 (R863). -/
  | st1
  /-- WR4 (R851). -/
  | wr4 (addr : Word) (words : List Word)
  /-- WR4F (R851). -/
  | wr4f (addr : Word) (words : List Word)
  /-- RD4 (R851). -/
  | rd4 (addr : Word)
  /-- RD4F (R851). -/
  | rd4f (addr : Word)
  /-- ST4 (R863). -/
  | st4
  /-- COMMAND_INVALID (R853). -/
  | commandInvalid (code : Byte)
  /-- CSN_RISE (R855). -/
  | csnRise (part : Bool)
  /-- PORT_WRITE_APPLY (R856). -/
  | portWriteApply
  /-- PORT_READ_ISSUE (R859). -/
  | portReadIssue (ticks : Nat)
  /-- SYS_HOSTDB_WRITE (R874). -/
  | sysHostdbWrite (c : Fin 8)
  /-- REGISTER_WRITE (R15). -/
  | registerWrite (agent : Agent) (addr : Nat) (v : Word)
  /-- BOOT_READY (R149). -/
  | bootReady (beats : Nat)
  /-- BOOT_WIN_WRITE (R160). -/
  | bootWinWrite (v : Word)
  /-- BOOT_CAL_START (R177). -/
  | bootCalStart
  /-- SIG_CHECK_DONE (R170). -/
  | sigCheckDone
  /-- BIST_DONE (R178). -/
  | bistDone (pass : Bool) (beats : Nat)
  /-- BOOT_HANDOFF (R182). -/
  | bootHandoff
  /-- BOOT_LOAD_TIMEOUT (R163). -/
  | bootLoadTimeout
  /-- LANE_BOOT_DETECT (R164). -/
  | laneBootDetect
  /-- LANE_BOOT_TIMEOUT (R166). -/
  | laneBootTimeout
  /-- LANE_BOOT_REARM (R166). -/
  | laneBootRearm
  /-- BOOT_RESTART (R188). -/
  | bootRestart
  /-- FUSE_ARM (R173). -/
  | fuseArm
  /-- FUSE_BIT (R175). -/
  | fuseBit (bit : BitVec 9) (io33 : Bool)
  /-- FUSE_BLOW_DONE (R173). -/
  | fuseBlowDone
  /-- CMD_HALT (R236). -/
  | cmdHalt (c : Fin 8)
  /-- CMD_RESUME (R238). -/
  | cmdResume (c : Fin 8)
  /-- CMD_PAIRRST (R239). -/
  | cmdPairrst (c : Fin 8)
  /-- EVENT_PULSE (R210). -/
  | eventPulse (c : Fin 8) (line : Fin 32)
  /-- EVT_EN_WRITE (R217). -/
  | evtEnWrite (c : Fin 8) (v : Word)
  /-- DOORBELL (R222). -/
  | doorbell (c : Fin 8) (ringer : Agent)
  /-- COMMIT_GO (R228). -/
  | commitGo (r : CommitReg)
  /-- COMMIT_APPLY (R228). -/
  | commitApply (r : CommitReg)
  /-- STORE_DRAIN (R223). -/
  | storeDrain (c : Fin 8)
  /-- CORE_SCRUB (R197). -/
  | coreScrub (addr : Nat) (found : Machine.Scrub) (pass : Option Nat)
  /-- LOCKSTEP_MISMATCH (R193). -/
  | lockstepMismatch (c : Fin 8)
  /-- ILLEGAL_INSTRUCTION (R248). -/
  | illegalInstruction (c : Fin 8) (w : Word)
  /-- FETCH_FAULT (R272). -/
  | fetchFault (c : Fin 8)
  /-- ADD (R253). -/
  | add (c : Fin 8) (rd ra rb : Rn)
  /-- SUB (R253). -/
  | sub (c : Fin 8) (rd ra rb : Rn)
  /-- AND (R253). -/
  | and (c : Fin 8) (rd ra rb : Rn)
  /-- OR (R253). -/
  | or (c : Fin 8) (rd ra rb : Rn)
  /-- XOR (R253). -/
  | xor (c : Fin 8) (rd ra rb : Rn)
  /-- ANDN (R253). -/
  | andn (c : Fin 8) (rd ra rb : Rn)
  /-- NOR (R253). -/
  | nor (c : Fin 8) (rd ra rb : Rn)
  /-- SLL (R253). -/
  | sll (c : Fin 8) (rd ra rb : Rn)
  /-- SRL (R253). -/
  | srl (c : Fin 8) (rd ra rb : Rn)
  /-- SRA (R253). -/
  | sra (c : Fin 8) (rd ra rb : Rn)
  /-- SLT (R253). -/
  | slt (c : Fin 8) (rd ra rb : Rn)
  /-- SLTU (R253). -/
  | sltu (c : Fin 8) (rd ra rb : Rn)
  /-- MIN (R253). -/
  | min (c : Fin 8) (rd ra rb : Rn)
  /-- MAX (R253). -/
  | max (c : Fin 8) (rd ra rb : Rn)
  /-- MINU (R253). -/
  | minu (c : Fin 8) (rd ra rb : Rn)
  /-- MAXU (R253). -/
  | maxu (c : Fin 8) (rd ra rb : Rn)
  /-- ADDI (R253). -/
  | addi (c : Fin 8) (rd ra : Rn) (imm : BitVec 18)
  /-- SLTI (R253). -/
  | slti (c : Fin 8) (rd ra : Rn) (imm : BitVec 18)
  /-- SLTIU (R253). -/
  | sltiu (c : Fin 8) (rd ra : Rn) (imm : BitVec 18)
  /-- ANDI (R253). -/
  | andi (c : Fin 8) (rd ra : Rn) (imm : BitVec 18)
  /-- ORI (R253). -/
  | ori (c : Fin 8) (rd ra : Rn) (imm : BitVec 18)
  /-- XORI (R253). -/
  | xori (c : Fin 8) (rd ra : Rn) (imm : BitVec 18)
  /-- LUI (R253). -/
  | lui (c : Fin 8) (rd : Rn) (imm : BitVec 16)
  /-- SLLI (R254). -/
  | slli (c : Fin 8) (rd ra : Rn) (sh : BitVec 5)
  /-- SRLI (R254). -/
  | srli (c : Fin 8) (rd ra : Rn) (sh : BitVec 5)
  /-- SRAI (R254). -/
  | srai (c : Fin 8) (rd ra : Rn) (sh : BitVec 5)
  /-- EXTU (R254). -/
  | extu (c : Fin 8) (rd ra : Rn) (w1 pos : BitVec 5)
  /-- EXTS (R254). -/
  | exts (c : Fin 8) (rd ra : Rn) (w1 pos : BitVec 5)
  /-- INS (R254). -/
  | ins (c : Fin 8) (rd ra : Rn) (w1 pos : BitVec 5)
  /-- MUL (R256). -/
  | mul (c : Fin 8) (rd ra rb : Rn)
  /-- MULH (R256). -/
  | mulh (c : Fin 8) (rd ra rb : Rn)
  /-- MULHU (R256). -/
  | mulhu (c : Fin 8) (rd ra rb : Rn)
  /-- DIV (R257). -/
  | div (c : Fin 8) (rd ra rb : Rn)
  /-- DIVU (R257). -/
  | divu (c : Fin 8) (rd ra rb : Rn)
  /-- REM (R257). -/
  | rem (c : Fin 8) (rd ra rb : Rn)
  /-- REMU (R257). -/
  | remu (c : Fin 8) (rd ra rb : Rn)
  /-- LDB (R260). -/
  | ldb (c : Fin 8) (rd ra : Rn) (imm : BitVec 18)
  /-- LDBU (R260). -/
  | ldbu (c : Fin 8) (rd ra : Rn) (imm : BitVec 18)
  /-- LDH (R260). -/
  | ldh (c : Fin 8) (rd ra : Rn) (imm : BitVec 18)
  /-- LDHU (R260). -/
  | ldhu (c : Fin 8) (rd ra : Rn) (imm : BitVec 18)
  /-- LDW (R260). -/
  | ldw (c : Fin 8) (rd ra : Rn) (imm : BitVec 18)
  /-- STB (R260). -/
  | stb (c : Fin 8) (rs ra : Rn) (imm : BitVec 18)
  /-- STH (R260). -/
  | sth (c : Fin 8) (rs ra : Rn) (imm : BitVec 18)
  /-- STW (R260). -/
  | stw (c : Fin 8) (rs ra : Rn) (imm : BitVec 18)
  /-- BEQ (R266). -/
  | beq (c : Fin 8) (ra rb : Rn) (off : BitVec 18)
  /-- BNE (R266). -/
  | bne (c : Fin 8) (ra rb : Rn) (off : BitVec 18)
  /-- BLT (R266). -/
  | blt (c : Fin 8) (ra rb : Rn) (off : BitVec 18)
  /-- BGE (R266). -/
  | bge (c : Fin 8) (ra rb : Rn) (off : BitVec 18)
  /-- BLTU (R266). -/
  | bltu (c : Fin 8) (ra rb : Rn) (off : BitVec 18)
  /-- BGEU (R266). -/
  | bgeu (c : Fin 8) (ra rb : Rn) (off : BitVec 18)
  /-- BEQI (R267). -/
  | beqi (c : Fin 8) (ra : Rn) (imm : BitVec 8) (off : BitVec 14)
  /-- BNEI (R267). -/
  | bnei (c : Fin 8) (ra : Rn) (imm : BitVec 8) (off : BitVec 14)
  /-- BLTI (R267). -/
  | blti (c : Fin 8) (ra : Rn) (imm : BitVec 8) (off : BitVec 14)
  /-- BGEI (R267). -/
  | bgei (c : Fin 8) (ra : Rn) (imm : BitVec 8) (off : BitVec 14)
  /-- BLTUI (R267). -/
  | bltui (c : Fin 8) (ra : Rn) (imm : BitVec 8) (off : BitVec 14)
  /-- BGEUI (R267). -/
  | bgeui (c : Fin 8) (ra : Rn) (imm : BitVec 8) (off : BitVec 14)
  /-- JMP (R268). -/
  | jmp (c : Fin 8) (off : BitVec 26)
  /-- CALL (R268). -/
  | call (c : Fin 8) (off : BitVec 26)
  /-- JR (R268). -/
  | jr (c : Fin 8) (ra : Rn)
  /-- CALLR (R268). -/
  | callr (c : Fin 8) (ra : Rn)
  /-- HALT (R300). -/
  | halt (c : Fin 8)
  /-- TIME (R298). -/
  | time (c : Fin 8) (rd rb : Rn)
  /-- FENCE (R299). -/
  | fence (c : Fin 8)
  /-- RAISE (R293). -/
  | raise (c : Fin 8) (ra : Rn)
  /-- WAIT (R215). -/
  | wait (c : Fin 8) (rd : Rn) (deadline : Option Rn)
  /-- WAIT_DEADLINE (R282). -/
  | waitDeadline (c : Fin 8)
  /-- COMMIT (R287). -/
  | commit (c : Fin 8) (k : BitVec 18)
  /-- FIRE (R290). -/
  | fire (c : Fin 8) (s : BitVec 18)
  /-- POSEV (R314). -/
  | posev (c : Fin 8) (rd ra : Rn) (a : Fin 2)
  /-- STEPRD (R317). -/
  | steprd (c : Fin 8) (rd rb : Rn) (a : Fin 2)
  /-- LNRD (R318). -/
  | lnrd (c : Fin 8) (rd : Rn) (a : Fin 2)
  /-- EMIT (R305). -/
  | emit (c : Fin 8) (rd ra rb : Rn)
  /-- SWAP (R301). -/
  | swap (c : Fin 8) (rd ra rb : Rn)
  /-- CAS (R301). -/
  | cas (c : Fin 8) (rd ra rb : Rn)
  /-- FADD (R301). -/
  | fadd (c : Fin 8) (rd ra rb : Rn)
  /-- FAND (R301). -/
  | fand (c : Fin 8) (rd ra rb : Rn)
  /-- FOR (R301). -/
  | fOr (c : Fin 8) (rd ra rb : Rn)
  /-- FXOR (R301). -/
  | fxor (c : Fin 8) (rd ra rb : Rn)
  /-- LINE_TRIGGER (R325). -/
  | lineTrigger (h : Fin 6) (pos : Int)
  /-- TPG_TIMER (R356). -/
  | tpgTimer (h : Fin 6)
  /-- TPG_SHOT (R338). -/
  | tpgShot (h : Fin 6)
  /-- TPG_CLRCNT (R338). -/
  | tpgClrcnt (h : Fin 6)
  /-- TPG_RUN (R355). -/
  | tpgRun (h : Fin 6) (on : Bool)
  /-- LINE_SYNC (R327). -/
  | lineSync (l : Machine.LineSignal)
  /-- PATTERN_END (R351). -/
  | patternEnd (h : Fin 6)
  /-- LINE_DONE (R25). -/
  | lineDone (h : Fin 6) (fields : Machine.NoData)
  /-- EXPOSURE_START (R440). -/
  | exposureStart (h : Fin 6) (f : Nat) (low : Bool)
  /-- EXPOSURE_END (R452). -/
  | exposureEnd (h : Fin 6) (f : Nat) (least : Option Nat)
  /-- VADC_SWEEP (R382). -/
  | vadcSweep (h : Fin 6)
  /-- SWEEP_DONE (R383). -/
  | sweepDone (h : Fin 6) (samples : Machine.NoData)
  /-- VADC_CAL (R385). -/
  | vadcCal (h : Fin 6)
  /-- VADC_CAL_DONE (R387). -/
  | vadcCalDone (h : Fin 6) (pass : Bool) (factors : List Int)
  /-- VADC_CHECK_REPORT (R396). -/
  | vadcCheckReport (h : Fin 6) (check : Machine.VadcCheck)
  /-- SHD_PDATA_WRITE (R416). -/
  | shdPdataWrite (h : Fin 6) (v : Word)
  /-- SHD_PDATA_READ (R415). -/
  | shdPdataRead (h : Fin 6)
  /-- SHD_BLEN_WRITE (R417). -/
  | shdBlenWrite (h : Fin 6) (bank : Fin 2) (v : Word)
  /-- SHD_REF_GO (R419). -/
  | shdRefGo (h : Fin 6) (white : Bool) (tbank : Fin 2) (k : BitVec 4)
  /-- SHD_REF_DONE (R424). -/
  | shdRefDone (h : Fin 6)
  /-- ILL_EN (R451). -/
  | illEn (h : Fin 6) (on : Bool)
  /-- ILL_SWAP (R438). -/
  | illSwap (h : Fin 6)
  /-- FRAME_SWAP (R439). -/
  | frameSwap (h : Fin 6)
  /-- ILL_SWCAN (R443). -/
  | illSwcan (h : Fin 6)
  /-- ILL_FRMW_WRITE (R437). -/
  | illFrmwWrite (h : Fin 6) (x : Fin 64) (v : Word)
  /-- ILL_SHAPE (R455). -/
  | illShape (h : Fin 6)
  /-- SHAPE_DONE (R455). -/
  | shapeDone (h : Fin 6)
  /-- ILL_STEST (R464). -/
  | illStest (h : Fin 6)
  /-- SHORT_TEST_DONE (R465). -/
  | shortTestDone (h : Fin 6) (pairs : BitVec 19)
  /-- ILL_CASGO (R477). -/
  | illCasgo (h : Fin 6)
  /-- CASCADE_DATA_SEND (R477). -/
  | cascadeDataSend (h : Fin 6)
  /-- CASCADE_MARK (R475). -/
  | cascadeMark (h : Fin 6) (k : Machine.CasMark)
  /-- BOOST_PERIOD (R449). -/
  | boostPeriod (h : Fin 6) (near cool : Bool) (time : Machine.BoostTime)
  /-- ILL_MONITOR_SAMPLE (R463). -/
  | illMonitorSample (h : Fin 6) (found : Machine.IllFound)
  /-- AUX_CAL (R495). -/
  | auxCal
  /-- AUX_CAL_DONE (R496). -/
  | auxCalDone (pass : Bool)
  /-- AUX_LOOP_START (R510). -/
  | auxLoopStart (conv : Fin 2)
  /-- AUX_SEQ_EVENT (R510). -/
  | auxSeqEvent (conv : Fin 2)
  /-- AUX_RESULT (R506). -/
  | auxResult (conv : Fin 2) (samples : List Machine.AuxVolts) (low : List Nat)
  /-- XCHECK_LATE (R532). -/
  | xcheckLate
  /-- AUX_URGENT (R514). -/
  | auxUrgent (conv : Fin 2) (e : Fin 32)
  /-- URGENT_RUN_START (R515). -/
  | urgentRunStart (run : Machine.UrgentRun)
  /-- AUX_ENT_LOW_WRITE (R517). -/
  | auxEntLowWrite (conv : Fin 2) (e : Fin 32) (v : Word)
  /-- AUX_ENT_HIGH_WRITE (R517). -/
  | auxEntHighWrite (conv : Fin 2) (e : Fin 32) (v : Word)
  /-- AUX_CFG_WRITE (R518). -/
  | auxCfgWrite (r : AuxReg) (v : Word)
  /-- AUX_CLRSKIP (R513). -/
  | auxClrskip (conv : Fin 2)
  /-- EXCITATION_FAULT (R490). -/
  | excitationFault (src : Fin 3) (seen : Machine.ExcSeen)
  /-- AUX_EXCSTAT_CLEAR (R490). -/
  | auxExcstatClear (v : Word)
  /-- TRG_PATTERN_FIRE (R540). -/
  | trgPatternFire (u : Fin 8) (hist : List (BitVec 16 × Nat))
  /-- TRG_TIMEOUT_FIRE (R544). -/
  | trgTimeoutFire (u : Fin 8)
  /-- TRG_SWT (R546). -/
  | trgSwt (v : Word)
  /-- TRG_ARM (R548). -/
  | trgArm
  /-- TRG_ABORT (R551). -/
  | trgAbort
  /-- TRG_EN (R556). -/
  | trgEn (on : Bool)
  /-- TRG_AUTO_TIMEOUT (R554). -/
  | trgAutoTimeout
  /-- TRG_RING_EN (R565). -/
  | trgRingEn (h : Fin 6) (on : Bool)
  /-- TRG_RING_RELEASE (R572). -/
  | trgRingRelease (h : Fin 6) (n : Nat)
  /-- MSYNC_EDGE (R438). -/
  | msyncEdge
  /-- MOTION_INTERVAL (R589). -/
  | motionInterval (j0 j1 : Machine.Jerk)
  /-- STEP_PULSE (R586). -/
  | stepPulse (a : Fin 2)
  /-- HAL_LINE_TRIGGER (R604). -/
  | halLineTrigger (h : Fin 6)
  /-- HAL_STOPNOW (R632). -/
  | halStopnow (a : Fin 2)
  /-- HAL_HOLD (R631). -/
  | halHold (a : Fin 2) (on : Bool)
  /-- HAL_EN (R595). -/
  | halEn (a : Fin 2) (on : Bool)
  /-- HAL_MEN_DIR_WRITE (R138). -/
  | halMenDirWrite (a : Fin 2) (men dir : Bool)
  /-- HAL_POSSET (R635). -/
  | halPosset (a : Fin 2) (v : Word)
  /-- HAL_HEAD_WRITE (R601). -/
  | halHeadWrite (h : Fin 6) (phase : Bool) (v : Word)
  /-- ENCODER_COUNT (R620). -/
  | encoderCount (a : Fin 2) (q : Machine.QuadStep)
  /-- ENCODER_INDEX (R622). -/
  | encoderIndex (edge : Machine.IndexEdge)
  /-- MFLT_FAULT (R628). -/
  | mfltFault (a : Fin 2)
  /-- REEF_CLRCNT (R651). -/
  | reefClrcnt
  /-- BC_KEYREQ (R729). -/
  | bcKeyreq (v : Word)
  /-- BC_CTX_EN (R721). -/
  | bcCtxEn (c : Fin 16) (on : Bool)
  /-- BC_CTX_RESTART (R739). -/
  | bcCtxRestart (c : Fin 16)
  /-- BC_CTX_WP_WRITE (R738). -/
  | bcCtxWpWrite (c : Fin 16) (v : Word)
  /-- BC_ENCODE_PICTURE_START (R722). -/
  | bcEncodePictureStart
  /-- BC_DECODE_PICTURE_START (R722). -/
  | bcDecodePictureStart
  /-- BC_PICTURE_DONE (R742). -/
  | bcPictureDone (coded : Option (List (List Bool)))
  /-- BC_OUTPUT_RESUME (R733). -/
  | bcOutputResume
  /-- BC_SELF_CHECK (R737). -/
  | bcSelfCheck
  /-- BC_CHECK_TIMER (R735). -/
  | bcCheckTimer
  /-- BC_CAP_WINDOW (R734). -/
  | bcCapWindow
  /-- LN_EN (R774). -/
  | lnEn (on : Bool)
  /-- LN_RETRAIN (R798). -/
  | lnRetrain
  /-- LN_CLRERR (R790). -/
  | lnClrerr (l : Fin 4)
  /-- LN_BSLIP (R763). -/
  | lnBslip (l : Fin 4)
  /-- LN_TEST_WRITE (R794). -/
  | lnTestWrite (l : Fin 4) (v : Word)
  /-- LINK_ATTEMPT (R781). -/
  | linkAttempt
  /-- TRAINING_SET_RECEIVED (R773). -/
  | trainingSetReceived (l : Fin 4) (code : Machine.LineCode) (words : List Machine.LineWord) (skew : Nat)
  /-- TRAINING_TIMEOUT (R774). -/
  | trainingTimeout
  /-- LANE_PLL_LOCK (R774). -/
  | lanePllLock
  /-- BLOCK_LOCK (R762). -/
  | blockLock (l : Fin 4) (inverted : Bool)
  /-- LINK_LOSS (R780). -/
  | linkLoss (why : Fin 3)
  /-- FOM_REFRESH (R787). -/
  | fomRefresh (l : Fin 4) (offsets : Nat)
  /-- LANE_MARKER (R769). -/
  | laneMarker
  /-- SIGNAL_DETECT (R969). -/
  | signalDetect (l : Fin 4) (on : Bool)
  /-- LREFCLK_LOSS (R802). -/
  | lrefclkLoss
  /-- IMG_SEND (R820). -/
  | imgSend
  /-- CTL_SEND (R821). -/
  | ctlSend
  /-- RDREQ_SEND (R826). -/
  | rdreqSend
  /-- REPLAY (R817). -/
  | replay
  /-- REPLAY_TIMEOUT (R817). -/
  | replayTimeout
  /-- SESSION_OFFER (R832). -/
  | sessionOffer
  /-- RX_OPEN (R833). -/
  | rxOpen (lines : Machine.RxLines)
  /-- RX_CLOSE (R838). -/
  | rxClose (lines : Machine.RxLines)
  /-- RX_MSG (R841). -/
  | rxMsg (lines : Machine.RxLines)
  /-- RX_WR (R841). -/
  | rxWr (lines : Machine.RxLines)
  /-- RX_RD (R841). -/
  | rxRd (lines : Machine.RxLines)
  /-- RX_CPL (R828). -/
  | rxCpl (lines : Machine.RxLines)
  /-- RX_LINK (R815). -/
  | rxLink (lines : Machine.RxLines)
  /-- RX_CREDIT (R809). -/
  | rxCredit (lines : Machine.RxLines)
  /-- ST_RDQ_WRITE (R824). -/
  | stRdqWrite (v : Word) (full : Bool)
  /-- READ_TIMEOUT (R829). -/
  | readTimeout (tag : Fin 64)
  /-- QUARANTINE_EXIT (R830). -/
  | quarantineExit (tag : Fin 64)
  /-- ST_RXRP_WRITE (R843). -/
  | stRxrpWrite (v : Word)
  /-- ST_CLOSE (R838). -/
  | stClose
  /-- ST_EN (R847). -/
  | stEn (on : Bool)
  /-- ST_IMGRUN (R846). -/
  | stImgrun (on : Bool)
  /-- SESSION_RETRY_EXPIRE (R837). -/
  | sessionRetryExpire
  /-- FAULT_NOTICE_REPEAT (R845). -/
  | faultNoticeRepeat
  /-- BWL_EN (R894). -/
  | bwlEn (on : Bool)
  /-- BWL_REFORM (R915). -/
  | bwlReform
  /-- BWL_FRAME_RECEIVE (R892). -/
  | bwlFrameReceive (start : BitVec 10) (syms : List (BitVec 10))
  /-- BWL_FRAME_RETURN (R895); `lost` older frames than this one never came back. -/
  | bwlFrameReturn (lost : Nat) (start : BitVec 10) (syms : List (BitVec 10))
  /-- BWL_EVENT_DELIVER (R909). -/
  | bwlEventDeliver
  /-- BWL_LOST (R913). -/
  | bwlLost
  /-- FAULT_DETECT (R917). -/
  | faultDetect (code : BitVec 16)
  /-- SHR_CLEAR (R927). -/
  | shrClear (v : Word)
  /-- SHR_INJ (R933). -/
  | shrInj (kind : BitVec 4) (target : BitVec 3)
  /-- SUPPLY_WINDOW_FAULT (R923). -/
  | supplyWindowFault (supply : Fin 6) (mv : Nat)
  /-- THERMAL_CONVERSION (R928). -/
  | thermalConversion (temps : List Int)
  /-- THERMAL_SHUTDOWN (R930). -/
  | thermalShutdown
  /-- LINE_STORE_SCRUB (R924). -/
  | lineStoreScrub (place : ScrubPlace) (found : Machine.Scrub)
  /-- NV_READ (R948). -/
  | nvRead (slot : BitVec 7)
  /-- NV_COMMIT (R939). -/
  | nvCommit (slot : BitVec 7)
  /-- NV_ERASE (R940). -/
  | nvErase (slot : BitVec 7)
  /-- NV_LOGREAD (R948). -/
  | nvLogread (slot : BitVec 7)
  /-- NV_DONE (R948). -/
  | nvDone (beats : Nat) (e : Machine.NvEnd)
  /-- NV_LOG_ENTRY (R946). -/
  | nvLogEntry (beats : Nat)
  /-- NV_LOG_SEARCH_DONE (R944). -/
  | nvLogSearchDone (beats corr : Nat) (bad : List Nat)
  /-- SUPPLY_GOOD (R113). -/
  | supplyGood (supply : Fin 6)
  /-- REFERENCE_RETURN (R98). -/
  | referenceReturn
  /-- LREFCLK_RETURN (R802). -/
  | lrefclkReturn
  /-- CDR_LOCK (R774). -/
  | cdrLock (l : Fin 4) (on : Bool)
  /-- BLOCK_LOSS (R762). -/
  | blockLoss (l : Fin 4)
  /-- PRBS_LOCK (R795). -/
  | prbsLock (l : Fin 4) (on : Bool)
  /-- REFRDY (R493). -/
  | refrdy
  /-- TPG_EDGE (R335). -/
  | tpgEdge (h : Fin 6) (e : Machine.TpgEdge)
  /-- ROW_CLOSE (R428). -/
  | rowClose (h : Fin 6) (f : Nat)
  /-- WITNESS_MEAN (R458). -/
  | witnessMean (h : Fin 6) (row mean : Machine.NoData)
  deriving DecidableEq, Repr

end Sys2Proof
end

