-- ==== Sys2Proof/Decode.lean ====
section
/-!
DEFINITION. The decoder of the opcode table's bits (the table gives none) and of Felwen instruction words, with their
encoder, from the formats and opcode maps of chapters 07 and 08.
-/
namespace Sys2Proof

/-- The command that a word spells by the bits of spec/opcode_table.json: no row of the table gives bits. -/
def decodeTableWord (_nbits _w : Nat) : Option Instr := none

/-! ## Fields of a word (R243) -/

def wOp (w : Word) : Nat := (w.extractLsb' 26 6).toNat
def wRd (w : Word) : Rn := w.extractLsb' 22 4
def wRa (w : Word) : Rn := w.extractLsb' 18 4
def wRb (w : Word) : Rn := w.extractLsb' 14 4
def wMid (w : Word) : BitVec 8 := w.extractLsb' 6 8
def wFn (w : Word) : Nat := (w.extractLsb' 0 6).toNat
def wImm18 (w : Word) : BitVec 18 := w.extractLsb' 0 18

/-- The R-format words of OP 0x00 by fn (R253). -/
def decodeAlu (c : Fin 8) (rd ra rb : Rn) : Nat → Option Instr
  | 0x01 => some (.add c rd ra rb)
  | 0x02 => some (.sub c rd ra rb)
  | 0x03 => some (.and c rd ra rb)
  | 0x04 => some (.or c rd ra rb)
  | 0x05 => some (.xor c rd ra rb)
  | 0x06 => some (.andn c rd ra rb)
  | 0x07 => some (.nor c rd ra rb)
  | 0x08 => some (.sll c rd ra rb)
  | 0x09 => some (.srl c rd ra rb)
  | 0x0A => some (.sra c rd ra rb)
  | 0x0C => some (.slt c rd ra rb)
  | 0x0D => some (.sltu c rd ra rb)
  | 0x10 => some (.min c rd ra rb)
  | 0x11 => some (.max c rd ra rb)
  | 0x12 => some (.minu c rd ra rb)
  | 0x13 => some (.maxu c rd ra rb)
  | _ => none

/-- The R-format words of OP 0x01 by fn (R256, R257). -/
def decodeMulDiv (c : Fin 8) (rd ra rb : Rn) : Nat → Option Instr
  | 0x01 => some (.mul c rd ra rb)
  | 0x02 => some (.mulh c rd ra rb)
  | 0x03 => some (.mulhu c rd ra rb)
  | 0x08 => some (.div c rd ra rb)
  | 0x09 => some (.divu c rd ra rb)
  | 0x0A => some (.rem c rd ra rb)
  | 0x0B => some (.remu c rd ra rb)
  | _ => none

/-- The R-format words of OP 0x02 (R268); rd and rb are 0 (R246). -/
def decodeJreg (c : Fin 8) (rd ra rb : Rn) (fn : Nat) : Option Instr :=
  if rd = 0 && rb = 0 then
    if fn = 1 then some (.jr c ra) else if fn = 2 then some (.callr c ra) else none
  else none

/-- The words of OP 0x38 (R277). -/
def decodeSys (c : Fin 8) (rd ra rb : Rn) (fn : Nat) : Option Instr :=
  if fn = 1 then (if rd = 0 && ra = 0 && rb = 0 then some (.halt c) else none)
  else if fn = 2 then (if ra = 0 && rb != rd then some (.time c rd rb) else none)
  else if fn = 3 then (if rd = 0 && ra = 0 && rb = 0 then some (.fence c) else none)
  else if fn = 4 then (if rd = 0 && rb = 0 then some (.raise c ra) else none)
  else none

/-- The words of OP 0x3C, legal only on C6 (R277, R313). -/
def decodeHaly (c : Fin 8) (rd ra rb : Rn) (fn : Nat) : Option Instr :=
  if c != 6 then none
  else if fn = 2 || fn = 3 then (if rb = 0 then some (.posev c rd ra (Fin.ofNat 2 fn)) else none)
  else if fn = 4 || fn = 5 then (if ra = 0 && rb != rd then some (.steprd c rd rb (Fin.ofNat 2 fn)) else none)
  else if fn = 6 || fn = 7 then (if ra = 0 && rb = 0 then some (.lnrd c rd (Fin.ofNat 2 fn)) else none)
  else none

/-- The words of OP 0x3E (R277, R301). -/
def decodeAtom (c : Fin 8) (rd ra rb : Rn) : Nat → Option Instr
  | 0x01 => some (.swap c rd ra rb)
  | 0x02 => some (.cas c rd ra rb)
  | 0x03 => some (.fadd c rd ra rb)
  | 0x04 => some (.fand c rd ra rb)
  | 0x05 => some (.fOr c rd ra rb)
  | 0x06 => some (.fxor c rd ra rb)
  | _ => none

/-- The R-format opcodes: bits 13:6 are 0 (R246, R277). -/
def decodeR (c : Fin 8) (w : Word) : Option Instr :=
  let rd := wRd w
  let ra := wRa w
  let rb := wRb w
  let fn := wFn w
  if wMid w != 0 then none
  else match wOp w with
  | 0x00 => decodeAlu c rd ra rb fn
  | 0x01 => decodeMulDiv c rd ra rb fn
  | 0x02 => decodeJreg c rd ra rb fn
  | 0x38 => decodeSys c rd ra rb fn
  | 0x3C => decodeHaly c rd ra rb fn
  | 0x3D => if fn = 1 then some (.emit c rd ra rb) else none
  | 0x3E => decodeAtom c rd ra rb fn
  | _ => none

/-- COMMIT's k (R289). -/
def commitK (k : Nat) : Bool := k < 6 || k = 8 || k = 9 || (16 ≤ k && k < 32)

/-- POS, and WIDTH - 1, of a bit-field word; bits 17:10 are 0 and POS + WIDTH is at most 32 (R246, R254). -/
def decodeField (w : Word) (mk : BitVec 5 → BitVec 5 → Instr) : Option Instr :=
  let w1 : BitVec 5 := w.extractLsb' 5 5
  let pos : BitVec 5 := w.extractLsb' 0 5
  if w.extractLsb' 10 8 = (0 : BitVec 8) && pos.toNat + w1.toNat + 1 ≤ 32 then some (mk w1 pos) else none

/-- SH of an immediate shift; bits 17:5 are 0 (R246, R254). -/
def decodeShift (w : Word) (mk : BitVec 5 → Instr) : Option Instr :=
  if w.extractLsb' 5 13 = (0 : BitVec 13) then some (mk (w.extractLsb' 0 5)) else none

/-- WAIT (R278). -/
def decodeWait (c : Fin 8) (rd ra : Rn) (imm : BitVec 18) : Option Instr :=
  if imm = 0 && ra = 0 then some (.wait c rd none)
  else if imm = 1 then some (.wait c rd (some ra))
  else none

/-- The instruction that a word is on core `c`, `none` for an illegal word (R246, R247, R273-R278, R313). -/
def decodeWord (c : Fin 8) (w : Word) : Option Instr :=
  let rd := wRd w
  let ra := wRa w
  let imm := wImm18 w
  match wOp w with
  | 0x04 => some (.addi c rd ra imm)
  | 0x05 => some (.slti c rd ra imm)
  | 0x06 => some (.sltiu c rd ra imm)
  | 0x07 => some (.andi c rd ra imm)
  | 0x08 => some (.ori c rd ra imm)
  | 0x09 => some (.xori c rd ra imm)
  | 0x0A => decodeShift w (.slli c rd ra)
  | 0x0B => decodeShift w (.srli c rd ra)
  | 0x0C => decodeShift w (.srai c rd ra)
  | 0x0D => if w.extractLsb' 16 6 = (0 : BitVec 6) then some (.lui c rd (w.extractLsb' 0 16)) else none
  | 0x0E => decodeField w (.extu c rd ra)
  | 0x0F => decodeField w (.exts c rd ra)
  | 0x10 => decodeField w (.ins c rd ra)
  | 0x14 => some (.ldb c rd ra imm)
  | 0x15 => some (.ldbu c rd ra imm)
  | 0x16 => some (.ldh c rd ra imm)
  | 0x17 => some (.ldhu c rd ra imm)
  | 0x18 => some (.ldw c rd ra imm)
  | 0x1C => some (.stb c rd ra imm)
  | 0x1D => some (.sth c rd ra imm)
  | 0x1E => some (.stw c rd ra imm)
  | 0x20 => some (.beq c rd ra imm)
  | 0x21 => some (.bne c rd ra imm)
  | 0x22 => some (.blt c rd ra imm)
  | 0x23 => some (.bge c rd ra imm)
  | 0x24 => some (.bltu c rd ra imm)
  | 0x25 => some (.bgeu c rd ra imm)
  | 0x28 => some (.beqi c rd (w.extractLsb' 14 8) (w.extractLsb' 0 14))
  | 0x29 => some (.bnei c rd (w.extractLsb' 14 8) (w.extractLsb' 0 14))
  | 0x2A => some (.blti c rd (w.extractLsb' 14 8) (w.extractLsb' 0 14))
  | 0x2B => some (.bgei c rd (w.extractLsb' 14 8) (w.extractLsb' 0 14))
  | 0x2C => some (.bltui c rd (w.extractLsb' 14 8) (w.extractLsb' 0 14))
  | 0x2D => some (.bgeui c rd (w.extractLsb' 14 8) (w.extractLsb' 0 14))
  | 0x30 => some (.jmp c (w.extractLsb' 0 26))
  | 0x31 => some (.call c (w.extractLsb' 0 26))
  | 0x39 => decodeWait c rd ra imm
  | 0x3A => if rd = 0 && ra = 0 && commitK imm.toNat then some (.commit c imm) else none
  | 0x3B => if rd = 0 && ra = 0 && imm.toNat < 16 then some (.fire c imm) else none
  | _ => decodeR c w

/-! ## The encoder -/

/-- The formats of R243. -/
def fmtR (op : BitVec 6) (rd ra rb : Rn) (fn : BitVec 6) : Word := op ++ rd ++ ra ++ rb ++ (0 : BitVec 8) ++ fn
def fmtI (op : BitVec 6) (rd ra : Rn) (imm : BitVec 18) : Word := op ++ rd ++ ra ++ imm
def fmtU (op : BitVec 6) (rd : Rn) (imm : BitVec 16) : Word := op ++ rd ++ (0 : BitVec 6) ++ imm
def fmtBI (op : BitVec 6) (ra : Rn) (imm : BitVec 8) (off : BitVec 14) : Word := op ++ ra ++ imm ++ off
def fmtJ (op : BitVec 6) (off : BitVec 26) : Word := op ++ off
/-- imm18 of the shifts and of the bit fields (R254). -/
def immSh (sh : BitVec 5) : BitVec 18 := (0 : BitVec 13) ++ sh
def immField (w1 pos : BitVec 5) : BitVec 18 := (0 : BitVec 8) ++ w1 ++ pos

/-- A HALY fn for axis `a` (R277). -/
def halyFn (base : Nat) (a : Fin 2) : BitVec 6 := BitVec.ofNat 6 (base + a.val)

/-- The core that executes a Felwen instruction, and its word; `none` for the other commands. -/
def encode : Instr → Option (Fin 8 × Word)
  | .add c rd ra rb => some (c, fmtR 0x00 rd ra rb 0x01)
  | .sub c rd ra rb => some (c, fmtR 0x00 rd ra rb 0x02)
  | .and c rd ra rb => some (c, fmtR 0x00 rd ra rb 0x03)
  | .or c rd ra rb => some (c, fmtR 0x00 rd ra rb 0x04)
  | .xor c rd ra rb => some (c, fmtR 0x00 rd ra rb 0x05)
  | .andn c rd ra rb => some (c, fmtR 0x00 rd ra rb 0x06)
  | .nor c rd ra rb => some (c, fmtR 0x00 rd ra rb 0x07)
  | .sll c rd ra rb => some (c, fmtR 0x00 rd ra rb 0x08)
  | .srl c rd ra rb => some (c, fmtR 0x00 rd ra rb 0x09)
  | .sra c rd ra rb => some (c, fmtR 0x00 rd ra rb 0x0A)
  | .slt c rd ra rb => some (c, fmtR 0x00 rd ra rb 0x0C)
  | .sltu c rd ra rb => some (c, fmtR 0x00 rd ra rb 0x0D)
  | .min c rd ra rb => some (c, fmtR 0x00 rd ra rb 0x10)
  | .max c rd ra rb => some (c, fmtR 0x00 rd ra rb 0x11)
  | .minu c rd ra rb => some (c, fmtR 0x00 rd ra rb 0x12)
  | .maxu c rd ra rb => some (c, fmtR 0x00 rd ra rb 0x13)
  | .mul c rd ra rb => some (c, fmtR 0x01 rd ra rb 0x01)
  | .mulh c rd ra rb => some (c, fmtR 0x01 rd ra rb 0x02)
  | .mulhu c rd ra rb => some (c, fmtR 0x01 rd ra rb 0x03)
  | .div c rd ra rb => some (c, fmtR 0x01 rd ra rb 0x08)
  | .divu c rd ra rb => some (c, fmtR 0x01 rd ra rb 0x09)
  | .rem c rd ra rb => some (c, fmtR 0x01 rd ra rb 0x0A)
  | .remu c rd ra rb => some (c, fmtR 0x01 rd ra rb 0x0B)
  | .jr c ra => some (c, fmtR 0x02 0 ra 0 0x01)
  | .callr c ra => some (c, fmtR 0x02 0 ra 0 0x02)
  | .addi c x y imm => some (c, fmtI 0x04 x y imm)
  | .slti c x y imm => some (c, fmtI 0x05 x y imm)
  | .sltiu c x y imm => some (c, fmtI 0x06 x y imm)
  | .andi c x y imm => some (c, fmtI 0x07 x y imm)
  | .ori c x y imm => some (c, fmtI 0x08 x y imm)
  | .xori c x y imm => some (c, fmtI 0x09 x y imm)
  | .ldb c x y imm => some (c, fmtI 0x14 x y imm)
  | .ldbu c x y imm => some (c, fmtI 0x15 x y imm)
  | .ldh c x y imm => some (c, fmtI 0x16 x y imm)
  | .ldhu c x y imm => some (c, fmtI 0x17 x y imm)
  | .ldw c x y imm => some (c, fmtI 0x18 x y imm)
  | .stb c x y imm => some (c, fmtI 0x1C x y imm)
  | .sth c x y imm => some (c, fmtI 0x1D x y imm)
  | .stw c x y imm => some (c, fmtI 0x1E x y imm)
  | .beq c x y imm => some (c, fmtI 0x20 x y imm)
  | .bne c x y imm => some (c, fmtI 0x21 x y imm)
  | .blt c x y imm => some (c, fmtI 0x22 x y imm)
  | .bge c x y imm => some (c, fmtI 0x23 x y imm)
  | .bltu c x y imm => some (c, fmtI 0x24 x y imm)
  | .bgeu c x y imm => some (c, fmtI 0x25 x y imm)
  | .slli c rd ra sh => some (c, fmtI 0x0A rd ra (immSh sh))
  | .srli c rd ra sh => some (c, fmtI 0x0B rd ra (immSh sh))
  | .srai c rd ra sh => some (c, fmtI 0x0C rd ra (immSh sh))
  | .lui c rd imm => some (c, fmtU 0x0D rd imm)
  | .extu c rd ra w1 pos => some (c, fmtI 0x0E rd ra (immField w1 pos))
  | .exts c rd ra w1 pos => some (c, fmtI 0x0F rd ra (immField w1 pos))
  | .ins c rd ra w1 pos => some (c, fmtI 0x10 rd ra (immField w1 pos))
  | .beqi c ra imm off => some (c, fmtBI 0x28 ra imm off)
  | .bnei c ra imm off => some (c, fmtBI 0x29 ra imm off)
  | .blti c ra imm off => some (c, fmtBI 0x2A ra imm off)
  | .bgei c ra imm off => some (c, fmtBI 0x2B ra imm off)
  | .bltui c ra imm off => some (c, fmtBI 0x2C ra imm off)
  | .bgeui c ra imm off => some (c, fmtBI 0x2D ra imm off)
  | .jmp c off => some (c, fmtJ 0x30 off)
  | .call c off => some (c, fmtJ 0x31 off)
  | .halt c => some (c, fmtR 0x38 0 0 0 0x01)
  | .time c rd rb => some (c, fmtR 0x38 rd 0 rb 0x02)
  | .fence c => some (c, fmtR 0x38 0 0 0 0x03)
  | .raise c ra => some (c, fmtR 0x38 0 ra 0 0x04)
  | .wait c rd none => some (c, fmtI 0x39 rd 0 0)
  | .wait c rd (some ra) => some (c, fmtI 0x39 rd ra 1)
  | .commit c k => some (c, fmtI 0x3A 0 0 k)
  | .fire c s => some (c, fmtI 0x3B 0 0 s)
  | .posev c rd ra a => some (c, fmtR 0x3C rd ra 0 (halyFn 2 a))
  | .steprd c rd rb a => some (c, fmtR 0x3C rd 0 rb (halyFn 4 a))
  | .lnrd c rd a => some (c, fmtR 0x3C rd 0 0 (halyFn 6 a))
  | .emit c rd ra rb => some (c, fmtR 0x3D rd ra rb 0x01)
  | .swap c rd ra rb => some (c, fmtR 0x3E rd ra rb 0x01)
  | .cas c rd ra rb => some (c, fmtR 0x3E rd ra rb 0x02)
  | .fadd c rd ra rb => some (c, fmtR 0x3E rd ra rb 0x03)
  | .fand c rd ra rb => some (c, fmtR 0x3E rd ra rb 0x04)
  | .fOr c rd ra rb => some (c, fmtR 0x3E rd ra rb 0x05)
  | .fxor c rd ra rb => some (c, fmtR 0x3E rd ra rb 0x06)
  | _ => none

end Sys2Proof
end

