-- ==== Sys2Proof/Machine/Blocks1.lean ====
section
/-!
DEFINITION. Plain data of the clock, reset, output, core, head, trigger and transport blocks: what the spec gives
them beside the registers of the map, which stand in `Mach.regs`.
-/
namespace Sys2Proof.Machine

/-- A sparse store: addresses strictly rising, no entry equal to the default it is read with. -/
abbrev Sparse (w : Nat) := List (Nat × BitVec w)

/-- What the current tick and the current beat have already seen: the model's own record, by which accesses of one tick keep
their order (R31, R204, R309) and a W1C flag that is set in the beat of its clear stays set (R16). -/
structure BeatSt where
  /-- One more than the number of the tick in which an agent last accessed, 0 before. -/
  turnAt : Nat := 0
  /-- That agent: 0 the control port, 1 + n core Cn. -/
  turnBy : Nat := 0
  /-- One more than the beat in which the hardware last set a W1C flag, 0 before. -/
  flagAt : Nat := 0
  /-- The flags set in that beat: register address and mask. -/
  flags : List (Nat × Nat) := []
  deriving DecidableEq, Repr

/-- The clock block beside its registers (ch. 03). -/
structure ClkSt where
  /-- The clock gate is open: beats reach the functions (R73, R99). -/
  running : Bool := true
  /-- LOCK has set once since power-on reset (R78). -/
  lockedOnce : Bool := true
  /-- The PLL's reference is chosen (R67). -/
  refChosen : Bool := true
  deriving DecidableEq, Repr

/-- Supplies and resets (ch. 04). -/
structure PwrSt where
  /-- Bit i: supply i is good (R111); 0 VDD, 1 VDDA, 2 VDDIO18, 3 VDDIO33, 4 VDDL, 5 VTTL. -/
  good : BitVec 6 := 0x3F
  /-- Count at which all six supplies were last all good, 0 when that was before LOCK first set (R112). -/
  goodAt : Nat := 0
  /-- They have been good since before LOCK first set. -/
  goodPre : Bool := false
  /-- Bit i: supply i is outside its class 3 window (R923). -/
  outWin : BitVec 6 := 0
  /-- Power-on reset is asserted (R112). -/
  por : Bool := false
  /-- The RESETN pin reads deasserted. -/
  resetn : Bool := true
  /-- A warm reset from RESETN is asserted. -/
  pinRst : Bool := false
  /-- Power-on reset extended by RESETN (R114). -/
  porExt : Bool := false
  /-- End beat of a SYS_RST warm reset (R122). -/
  softEnd : Option Nat := none
  /-- A warm reset arrived while the clock was stopped: the digital reset waits for the clock (R132). -/
  digPend : Bool := false
  /-- Thermal shutdown holds (R930). -/
  thermal : Bool := false
  /-- Beat at which the running self-test ends (R115). -/
  selfTest : Option Nat := some 90000
  /-- CLK_STAT.LOST has set while a reset was asserted: CLKLOST is due in the first tick after it (R1011). -/
  lostDue : Bool := false
  /-- VDDIO33 is in its recommended range (R174). -/
  io33 : Bool := true
  /-- The last self-test failed (R116): ARMED cannot set until the next power-on reset. -/
  stFailed : Bool := false
  deriving DecidableEq, Repr

/-- Levels of the device's outputs and the keepers (R134, R138). -/
structure Outs where
  /-- FAULTN asserted (low). -/
  faultn : Bool := true
  men : BitVec 2 := 0
  dir : BitVec 2 := 0
  /-- Keepers holding MEN and DIR (R138). -/
  keepMen : BitVec 2 := 0
  keepDir : BitVec 2 := 0
  /-- With KEEP_EN 0, MEN and DIR stay low until the first write after a release point (R138). -/
  lowMen : BitVec 2 := 0
  lowDir : BitVec 2 := 0
  tsw : BitVec 8 := 0
  /-- Per head: PH0-PH7 in bits 7:0, SH in bit 8. -/
  ph : Vector (BitVec 9) 6 := Vector.replicate 6 0
  /-- BWL_CKOP/N forwards the unit's reference (R888). -/
  bwlCk : Bool := true
  /-- REFIO is driven (R483). -/
  refio : Bool := false
  deriving DecidableEq, Repr

/-- What waits in a core's store buffer (R223, R279). -/
inductive SbEntry where
  | store (addr data : Word)
  | fire (s : Nat)
  | raise (v : Word)
  deriving DecidableEq, Repr

/-- A pair of Felwen cores beside its control registers (ch. 06). -/
structure CoreSt where
  w : Vector Word 16 := Vector.replicate 16 0
  pc : Word := 0
  sb : List SbEntry := []
  /-- Destination of the WAIT in progress. -/
  waitRd : Nat := 0
  /-- Beat at which the WAIT's deadline expires (R282). -/
  waitUntil : Option Nat := none
  /-- The tick, as its number plus one, in which a WAIT's deadline last expired and no instruction has issued since (R283). -/
  lateAt : Option Nat := none
  /-- The tick, as its number plus one, to which the next two fields belong. -/
  evAt : Nat := 0
  /-- Lines that pulse in that tick (R212), and overflow bits that their pulses have set (R213). -/
  evSet : BitVec 32 := 0
  evOvf : BitVec 32 := 0
  /-- Times the pair has been started (R182, R239): the model's own count. -/
  starts : Nat := 0
  deriving DecidableEq, Repr

/-- A line between its sync and its LINE_DONE. -/
structure LineCtx where
  sync : Nat
  /-- The head's active set at the sync (R360). -/
  set : Sparse 32
  /-- Scheduled position (R604), 0 when the source is not HAL. -/
  pos : Int
  late : Bool
  lateDelay : Nat
  trans : Bool
  /-- TPG drops counted since the previous line start (R353). -/
  drops : Nat
  cseq : Option Nat
  slot : Option Nat
  /-- Sweep line index (R383). -/
  sweep : Option Nat
  /-- Line of a reference run (R420). -/
  refRun : Bool
  frame : Bool
  lampoff : Bool
  /-- The line's pattern still runs (R351). -/
  active : Bool
  /-- LINE_DONE has come. -/
  done : Bool
  /-- Its capture was discarded by the safe state (R53): its samples are not checked (R398). -/
  gone : Bool := false
  /-- The signal that the sensor gives for the line: per field V_IN in nV, beat by beat (R365; log entry 8). -/
  wave : List (List Int) := []
  /-- Number by which the line's open values are told from others' (log entry 96). -/
  seed : Nat := 0
  /-- The front end was disconnected for a calibration when the line began (R388). -/
  cut : Bool := false
  /-- Beat up to which the line's pixels have been written (R24). -/
  wrote : Nat := 0
  /-- Fields whose witness mean has been handed on (R427). -/
  wit : Nat := 0
  deriving DecidableEq, Repr

/-- A trigger on its way to a line sync (R325, R352). -/
structure Await where
  sync : Nat
  /-- Position that its source hands over. -/
  pos : Int
  /-- Delay in beats of a line that was held; `none` for one that was not (R352). -/
  late : Option Nat := none
  /-- It came from the head's timer (R356). -/
  timer : Bool := false
  deriving DecidableEq, Repr

structure TpgSt where
  /-- The trigger whose line sync is awaited. -/
  await : Option Await := none
  /-- The held trigger, with the sync that R325 would have given. -/
  held : Option Await := none
  /-- Lines started whose LINE_DONE or last check report has not come, oldest first. -/
  lines : List LineCtx := []
  drops : Nat := 0
  /-- Line syncs of the last lines started, newest first, four kept (R52). -/
  starts : List Nat := []
  /-- Beat of the last trigger (R354). -/
  lastTrig : Option Nat := none
  transNext : Bool := false
  /-- The gated head has stopped, and the beat in which it did (R93). -/
  stopped : Bool := false
  stopAt : Nat := 0
  timerDue : Option Nat := none
  deriving DecidableEq, Repr

structure VadcSt where
  /-- End beat of the calibration in progress (R387). -/
  calEnd : Option Nat := none
  /-- A calibration was abandoned by gating: VADC_CAL pulses when the head is enabled (R390). -/
  calPulse : Bool := false
  /-- Lines of the sweep still to start (R383). -/
  sweepNext : Option Nat := none
  /-- Sweep lines completed. -/
  sweepDone : Nat := 0
  /-- Beat of an injection whose failing test slot awaits the next line (R933). -/
  inject : Option Nat := none
  deriving DecidableEq, Repr

structure ShdSt where
  /-- Coefficient banks, keyed bank*65600 + plane*16400 + entry: GAIN 31:16, BLACK 15:0 (R401). -/
  coef : Sparse 32 := []
  /-- Tone LUTs, keyed bank*4096 + entry (R401). -/
  lut : Sparse 8 := []
  /-- Accumulator, keyed plane*16400 + entry (R420). -/
  acc : Sparse 32 := []
  /-- Lines still to accumulate in the started reference run; `none` when none has started (R420). -/
  runLeft : Option Nat := none
  /-- Lines of the started run whose line sync is still to come. -/
  runToStart : Nat := 0
  /-- The run is requested and waits for its first line sync (R419). -/
  runWait : Bool := false
  /-- KIND, TBANK and K taken with GO, WTARGET taken when the run starts (R418). -/
  runKind : Nat := 0
  runBank : Nat := 0
  runK : Nat := 0
  wtarget : Nat := 0
  refClip : Nat := 0
  /-- The active set of the run's lines (R419, R423). -/
  runSet : Sparse 32 := []
  /-- The clock stopped during the run: its abort is due in the first tick after the clock returns (R423). -/
  lost : Bool := false
  /-- Uncorrectable 64-bit words (R403, R407): coefficient entries 2w, 2w + 1 as word w below 65,600, LUT entries
  8w-8w+7 as word 65,600 + w, accumulator entries 2w, 2w + 1 as word 66,624 + w. -/
  bad : List Nat := []
  deriving DecidableEq, Repr

/-- A frame on LCAS (R467, R468). -/
inductive CasFrame where
  | data (slots : List (BitVec 48))
  | alloff
  | apply
  | on (row : Nat)
  | off
  deriving DecidableEq, Repr

/-- A frame on LCAS from beat `start`: `cells` cells of `tb` beats each, fewer than the frame has when it is cut (R143, R926). -/
structure CasAt where
  frame : CasFrame
  start : Nat
  tb : Nat
  cells : Nat
  deriving DecidableEq, Repr

structure IllSt where
  /-- Row whose switch is closed (R428). -/
  rowClosed : Option Nat := none
  /-- Latched intensity words and K of the window in progress (R440, R445). -/
  words : List Nat := []
  kLatched : Nat := 0x4000
  /-- Row of the open window, and its field. -/
  window : Option Nat := none
  winF : Nat := 0
  /-- Boost running (R430) and its target row (R450). -/
  boost : Bool := false
  target : Nat := 0
  /-- Switching stopped by KIND 7 (R463). -/
  boostHigh : Bool := false
  /-- Switch on-time of the last boost period, in beats (R449). -/
  onTime : Nat := 0
  /-- A swapped frame has not been latched by any window yet (R441). -/
  frameNew : Bool := false
  /-- End beat of the short test and of shaping (R464, R455). -/
  stEnd : Option Nat := none
  shEnd : Option Nat := none
  /-- Beat of the write that armed the swap (R438). -/
  armAt : Nat := 0
  /-- EN = 1 written during the short test (R464). -/
  enHeld : Bool := false
  /-- Lamp kept dark by heat from the last line sync (R461). -/
  dark : Bool := false
  /-- Cascade frames in progress and still to start, by their start (R475-R478). -/
  cas : List CasAt := []
  /-- Shares taken by the write of CASGO, until their DATA frame starts (R477). -/
  casReq : Option (List (BitVec 48)) := none
  /-- End of the DATA frame in progress. -/
  casEnd : Option Nat := none
  /-- Aims of the last aligned frames sent, newest first; true marks an ON frame (R475). -/
  casMarks : List (Nat × Bool) := []
  /-- ILL_FLT was latched by a KIND 0x1 failure of the window in progress (R463). -/
  fltWin : Bool := false
  deriving DecidableEq, Repr

structure HeadSt where
  tpg : TpgSt := {}
  vadc : VadcSt := {}
  shd : ShdSt := {}
  ill : IllSt := {}
  deriving DecidableEq, Repr

/-- One level's crossing detector of an analog trigger unit (R543). -/
structure CrossSt where
  tentUp : Option Nat := none
  tentDn : Option Nat := none
  deriving DecidableEq, Repr

/-- An analog trigger unit (R541-R544). -/
structure UnitSt where
  /-- Last result (VAL, time); `none` is the unknown state (R542). -/
  last : Option (Int × Nat) := none
  c1 : CrossSt := {}
  c2 : CrossSt := {}
  /-- Time of the confirmed up crossing of L1 whose pulse is in progress. -/
  up1 : Option Nat := none
  /-- A confirmed up crossing of L2 fell in the pulse. -/
  saw2 : Bool := false
  /-- The pulse can still time out (R544). -/
  armed : Bool := false
  /-- Beat in which EN was last set (R539). -/
  since : Nat := 0
  deriving DecidableEq, Repr

/-- A line committed in a ring and not yet released. -/
structure RingLine where
  cseq : Nat
  slot : Nat
  /-- Pixels per field, FMT, and ROW of each field. -/
  n : Nat
  fmt : Nat
  rows : List Nat
  deriving DecidableEq, Repr

/-- A head's page context (R558-R563, R579). -/
structure HeadPage where
  pageno : Nat
  auto : Bool
  startSrc : Nat
  startTime : Nat
  posRule : Bool
  startPos : Int
  endmode : Bool
  edgeOld : Bool := false
  overlap : Bool := false
  long : Bool := false
  abort : Bool := false
  edge : Option Nat := none
  edgeFrac : Nat := 0
  first : Option Nat := none
  preshort : Nat := 0
  /-- L; F - 1 of an empty page may be -1. -/
  last : Option Int := none
  endSrc : Nat := 0xFF
  endTime : Nat := 0
  endPos : Int := 0
  endFrac : Nat := 0
  /-- The end decision has fallen. -/
  ended : Bool := false
  /-- An end firing whose edge line E' is still to come: its target. -/
  endTarget : Option Int := none
  closed : Bool := false
  deriving DecidableEq, Repr

/-- A line sync remembered for the edge rules (R561). -/
structure SyncRec where
  cseq : Nat
  pos : Int
  time : Nat
  deriving DecidableEq, Repr

structure RingSt where
  lines : List RingLine := []
  /-- Newest first; 64 of R561 and one more for Q of the line before. -/
  syncs : List SyncRec := []
  pages : List HeadPage := []
  /-- CSEQ of the last committed line. -/
  lastC : Option Nat := none
  /-- CSEQs taken without a committed line since the previous commit (R577, R583). -/
  gap : Nat := 0
  /-- Slot of the next line to commit (R568). -/
  wslot : Nat := 0
  /-- Lines that the history release took last: the tick, as its number plus one, and the lines (R572). -/
  freed : Nat × List RingLine := (0, [])
  deriving DecidableEq, Repr

structure TrgSt where
  units : Vector UnitSt 8 := Vector.replicate 8 {}
  rings : Vector RingSt 6 := Vector.replicate 6 {}
  /-- Held start: event time and source (R549). -/
  held : Option (Nat × Nat) := none
  armedSince : Nat := 0
  /-- Beat in which a start last opened a page, and beat, event time and source of the start last counted in IGN (R553). -/
  openAt : Option Nat := none
  ignAt : Option (Nat × Nat × Nat) := none
  /-- One more than the tick in which each software trigger last fired, 0 before (R546). -/
  swtAt : Vector Nat 16 := Vector.replicate 16 0
  deriving DecidableEq, Repr

/-- Level of the synchronised inputs (R90). -/
structure PinsIn where
  din : BitVec 16 := 0
  msync : Bool := false
  blankn : Bool := true
  deriving DecidableEq, Repr

/-- An axis of Halyard beside its registers (ch. 15). -/
structure AxisSt where
  /-- 2^-60 step at the end of the current MI, 2^-60 step/us, 2^-60 step/us^2 (R589). -/
  p : Int := 0
  v : Int := 0
  a : Int := 0
  /-- (boundary, p there), newest first; 16,384 are kept (R590).  A fault adds the beat at which it stops p, a POSSET two entries
  of its beat: p after it, and before (R625, R635). -/
  hist : List (Nat × Int) := []
  /-- The MI boundary last taken (R588). -/
  miAt : Option Nat := none
  /-- Commanded count C (R585) and what POSSET added to the observed count (R635). -/
  c : Int := 0
  obsOff : Int := 0
  /-- Steps due and not yet risen: the crossing beat, and whether forward (R585, R586). -/
  due : List (Nat × Bool) := []
  /-- Last rising edge of STEP (R586). -/
  lastRise : Option Nat := none
  /-- Programmed width of that pulse, in beats (R142). -/
  riseW : Nat := 0
  /-- Direction that DIR shows, `none` before any motion, and the tick of its last change (R587). -/
  dirFwd : Option Bool := none
  dirAt : Nat := 0
  /-- LPS and ORG loaded by the last LSRST commit; the schedule runs (R603, R633). -/
  lps : Nat := 0
  org : Int := 0
  schedOn : Bool := false
  /-- Next due line of each head and of the reference schedule (R603, R604). -/
  next : Vector Nat 6 := Vector.replicate 6 0
  nextRef : Nat := 0
  /-- VLINE of the last commit (R606). -/
  vline : Nat := 0x40000000
  /-- EN has gone to 1: RUN at the next MI boundary (R595). -/
  starting : Bool := false
  /-- The stop in progress ends in OFF (R633), and the CAUSE it will record. -/
  offAfter : Bool := false
  why : Nat := 0
  /-- MIs of the reversal dwell left (R600). -/
  dwell : Option Nat := none
  /-- Sign of the last motion. -/
  moved : Int := 0
  /-- Target of the back-up move, 2^-60 step (R615). -/
  backTo : Int := 0
  /-- Reef level that Halyard acts on, and the one last seen (R600). -/
  lvl : Nat := 0
  lvlSeen : Nat := 0
  /-- After the safe state: no start before a new plan is committed (R634). -/
  needPlan : Bool := false
  /-- Beats of the two last changes of C, and of the last change of ENCCNT (R623). -/
  cTimes : List Nat := []
  encTime : Nat := 0
  /-- An illegal transition since the last check (R623). -/
  qerr : Bool := false
  /-- Armed position event (R314). -/
  posev : Option Int := none
  deriving DecidableEq, Repr

/-- Reef beside its registers (ch. 16). -/
structure ReefSt where
  /-- Register values that act, and writes that do not act yet: beat, address, value (ch. 16 section 4). -/
  eff : Sparse 32 := []
  wrote : List (Nat × Nat × BitVec 32) := []
  /-- X_last of the ring and the credit input (R647). -/
  xRing : Option Nat := none
  xCred : Option Nat := none
  lastRaise : Nat := 0
  lastFall : Nat := 0
  /-- First boundary of the calm that runs (R650). -/
  calm : Option Nat := none
  /-- Starved beats in each of the last 1,024 motion intervals, newest first (R643). -/
  starved : List Nat := []
  /-- FORCE or EN = 0 acted at the last boundary (R657). -/
  forced : Bool := true
  deriving DecidableEq, Repr

end Sys2Proof.Machine
end

