-- ==== Sys2Proof/Machine/Sparse.lean ====
section
/-!
DEFINITION. Sparse stores in one canonical form: addresses strictly rising and no entry equal to what an unlisted
address reads as, so that equal stores are equal lists.
-/
namespace Sys2Proof.Machine

/-- What address `a` holds, `d a` when it is not listed. Log entry 6. -/
def Sparse.get {w : Nat} (d : Nat → BitVec w) : Sparse w → Nat → BitVec w
  | [], a => d a
  | (k, v) :: t, a => if a = k then v else Sparse.get d t a

/-- Drops whatever is listed at `a`. -/
def Sparse.erase {w : Nat} (m : Sparse w) (a : Nat) : Sparse w := m.filter (fun c => c.1 != a)

/-- Lists `v` at `a` before the first greater address. -/
def Sparse.insert {w : Nat} : Sparse w → Nat → BitVec w → Sparse w
  | [], a, v => [(a, v)]
  | (k, x) :: t, a, v => if a < k then (a, v) :: (k, x) :: t else (k, x) :: Sparse.insert t a v

/-- Writes `v` at `a`; a value equal to the default removes the entry. -/
def Sparse.set {w : Nat} (d : Nat → BitVec w) (m : Sparse w) (a : Nat) (v : BitVec w) : Sparse w :=
  if v = d a then Sparse.erase m a else Sparse.insert (Sparse.erase m a) a v

/-- Drops the entries whose address satisfies `p`: they read as the default again. -/
def Sparse.clear {w : Nat} (p : Nat → Bool) (m : Sparse w) : Sparse w :=
  m.filter (fun c => !p c.1)

/-- Every address listed is above `lo`, in rising order, and holds no default. -/
def Sparse.wfFrom {w : Nat} (d : Nat → BitVec w) : Option Nat → Sparse w → Bool
  | _, [] => true
  | lo, (k, v) :: t =>
    (match lo with | none => true | some l => l < k) && v ≠ d k && Sparse.wfFrom d (some k) t

/-- The canonical form. -/
def Sparse.wf {w : Nat} (d : Nat → BitVec w) (m : Sparse w) : Bool := Sparse.wfFrom d none m

/-- Copies the entries of `src` whose address satisfies `p` over those of `dst`. -/
def Sparse.copy {w : Nat} (d : Nat → BitVec w) (p : Nat → Bool) (src dst : Sparse w) : Sparse w :=
  (src.filter (fun c => p c.1)).foldr (fun c m => Sparse.set d m c.1 c.2) (Sparse.clear p dst)

end Sys2Proof.Machine
end

