-- ==== Sys2Proof/Config.lean ====
section
/-!
DEFINITION. What an implementation fixes and the free values: constants with no body, of which nothing can be proved
but that they are what they are (log entries 2 and 3).
-/
namespace Sys2Proof.Config

/-- A value the spec leaves open: the k-th one taken (log entry 2). -/
opaque freeValue : Nat → BitVec 64

/-- SYS_UID, programmed at the factory, different on every die (21 R878). Log entry 3. -/
opaque uid : BitVec 64

/-- A thermocouple curve's temperature in 1/16 degree before its clamp: the curve, words P0-P6 of its set, y, VREF in mV, the
gain and the cold-junction temperature; for a resistance curve, which of the units within one of the exact temperature it is, or
the temperature where the curve gives none (13 R523-R525; log entry 10). -/
opaque curveTemp : Nat → List Nat → Int → Nat → Nat → Int → Int

/-- Die temperature in 1/16 degree from factory trim: the channel and the average A (13 R527; log entry 10). -/
opaque dieTemp : Nat → Int → Int

/-- The error of the code that follows a saturated sample, before its bound of 64: the line's number, the field and the sample
(10 R370; log entry 96). -/
opaque pgaRecovery : Nat → Nat → Nat → Int

/-- The code of a sample taken while the front end is disconnected from its pins (10 R388; log entry 96). -/
opaque openCode : Nat → Nat → Nat → BitVec 14

/-- The code of an aux sample whose reference stands at 0 V or below: the format, the gain and V_D (13 R501; log entry 101). -/
opaque auxNoRef : Bool → Nat → Int → Int

/-- The running disparity (bit 58) and the scrambler's bits from which a lane's transmitter starts in a state of the link: the
beat of entry and the lane (19 R761; log entry 105). -/
opaque laneSeed : Nat → Nat → BitVec 59

end Sys2Proof.Config
end

