-- ==== Sys2Proof/Machine/Blocks2.lean ====
section
/-!
DEFINITION. Plain data of the auxiliary, codec, lane, stream, Bowline, Shroud, NV, port and boot blocks beside the
registers of the map.
-/
namespace Sys2Proof.Machine

/-- A run of an entry in progress (13 R508): the beat of its switch slot, that of the switch slot in which it last went on
(R516), and the beat after its last slot. -/
structure AuxRun where
  ent : Nat
  lo : BitVec 32
  hi : BitVec 32
  sw : Nat
  base : Nat
  stop : Nat
  deriving DecidableEq, Repr

/-- A result on its way (R506): its entry and record, the switch slot of its run, the nodes its selectors took there, the
beats of its sample slots, and the start of the loop it belongs to. -/
structure AuxPend where
  ent : Nat
  lo : BitVec 32
  hi : BitVec 32
  sw : Nat
  pos : Option AuxNode
  neg : Option AuxNode
  slots : List Nat
  urg : Bool
  loop : Nat
  deriving DecidableEq, Repr

/-- A steered connection of IEX0 (R487): its pin, the switch slot that makes it, the beat after its last sample slot, the run
it serves, and whether its switch slot has acted. -/
structure Steer where
  pin : Nat
  since : Nat
  until' : Nat
  sw : Nat
  acted : Bool := false
  deriving DecidableEq, Repr

/-- One aux converter and its sequencer (ch. 13). -/
structure AuxSeq where
  /-- Loop in progress: its start and the next entry to consider. -/
  loop : Option (Nat × Nat) := none
  /-- The loop in progress has already reported its end. -/
  told : Bool := false
  run : Option AuxRun := none
  /-- First beat at which the converter has no slot taken. -/
  free : Nat := 0
  /-- Results on their way, by their last sample. -/
  land : List AuxPend := []
  /-- Ended loops whose last result is still to land: start and length in aux samples. -/
  ended : List (Nat × Nat) := []
  /-- A start is held (R511). -/
  held : Bool := false
  /-- Next start of a continuous or timed sequencer; starts that events have scheduled (R510). -/
  nextStart : Option Nat := none
  evDue : List Nat := []
  /-- Urgent request: its entry and beat; and the urgent run's end (R514, R515). -/
  urg : Option (Nat × Nat) := none
  urgEnd : Option (Nat × Nat) := none
  /-- RUN = 1 written during a calibration (R497). -/
  runHeld : Bool := false
  /-- Steered connections made and planned, in their order (R487). -/
  steer : List Steer := []
  /-- Beat of each entry's last event of R518. -/
  stale : Vector Nat 32 := Vector.replicate 32 0
  /-- y and the last sample instant of each entry's latest result (R531). -/
  y : Vector Int 32 := Vector.replicate 32 0
  t : Vector Nat 32 := Vector.replicate 32 0
  deriving DecidableEq, Repr

/-- AUX beside its registers (ch. 13). -/
structure AuxSt where
  seq : Vector AuxSeq 2 := Vector.replicate 2 {}
  calEnd : Option Nat := none
  /-- A calibration was abandoned by gating: AUX_LOOP pulses when AUX_EN is set (R499). -/
  calPulse : Bool := false
  /-- Beats at which REFRDY last cleared and REFSEL last changed, and the ended stretches in which it read 0 that a sample still to land may have met
(R493, R494). -/
  refClr : Nat := 0
  refAt : Nat := 0
  refLows : List (Nat × Nat) := []
  /-- Beat from which XLATE's count runs, while it does (R532). -/
  xSince : Option Nat := none
  /-- Beats at which IEX0, IEX1 and VEX last switched on or changed level or pin (R489). -/
  exSince : Vector Nat 3 := Vector.replicate 3 0
  /-- Pins that VEX and VBIAS are kept off (R488). -/
  cutVex : Bool := false
  cutBias : BitVec 16 := 0
  /-- Stretches of blanking from step edges that a sample still to land may meet: first aux sample and end (R509). -/
  blank : List (Nat × Nat) := []
  deriving DecidableEq, Repr

/-- The fields of a STREAM unit (17 R676). -/
structure StreamHdr where
  ctx : Nat
  depth : Nat
  npl : Nat
  prow : Nat
  w : Nat
  band : Nat
  deriving DecidableEq, Repr

/-- A coded unit still in an encode context's output ring (18 R733): its ring offset and length, the ST entry that
carries it (`none` once discarded), and whether a self-check still reads it. -/
structure BcUnit where
  ofs : Nat
  len : Nat
  entry : Option Nat
  check : Bool
  deriving DecidableEq, Repr

/-- A row selected for the self-check (R735, R736). -/
structure BcCheck where
  ctx : Nat
  row : Nat
  /-- Ring offset and length of its ROW unit. -/
  ofs : Nat
  len : Nat
  linked : Bool
  /-- CRC-32C of the encoder's reconstruction of the row. -/
  crc : BitVec 32
  /-- Half of the picture area that holds the reference, and its line count. -/
  refHalf : Nat
  refH : Nat
  w : Nat
  /-- The context's set as the row was coded. -/
  set : Sparse 32
  deriving DecidableEq, Repr

/-- A unit the encoder has still to write: its bytes, and the check that reads it (R733, R736). -/
structure BcOut where
  bytes : List Byte
  check : Option BcCheck
  deriving DecidableEq, Repr

/-- A picture in progress on the encode engine. -/
structure BcPic where
  ctx : Nat
  /-- The set it is coded under (R750). -/
  set : Sparse 32
  key : Bool
  req : Bool
  picno : Nat
  head : Nat
  pageno : Nat
  /-- CSEQ of its first line; lines of its page before it. -/
  first : Nat
  y0 : Nat
  w : Nat
  /-- Bytes written from its PIC start code. -/
  bytes : Nat
  /-- Its rows are coded: H, LASTP and ABORT of its END, and the units still to write. -/
  coded : Option (Nat × Bool × Bool)
  out : List BcOut
  /-- It outgrew its half of the picture area (R731). -/
  grew : Bool
  deriving DecidableEq, Repr

/-- A codec context beside its registers (ch. 18). -/
structure BcCtx where
  /-- PICNO of the last picture. -/
  picno : Nat := 0
  /-- Causes of R730 pending, bit c - 1 for cause c. -/
  why : Nat := 0
  /-- Reference: half of the picture area and H_ref; `none` when there is none. -/
  ref : Option (Nat × Nat) := none
  refW : Nat := 0
  /-- Half that the next picture uses. -/
  half : Nat := 0
  units : List BcUnit := []
  /-- Pictures coded since EN was last set (R735). -/
  n : Nat := 0
  /-- Page under way, its PAGENO and the lines of it already coded; the last page completed. -/
  page : Option (Nat × Nat) := none
  lastPage : Option Nat := none
  /-- Final quantiser and bytes of the context's last row (R727). -/
  q : Option (Nat × Nat) := none
  /-- EN has cleared and the context finishes (R732). -/
  closing : Bool := false
  /-- Decode: the last STREAM, and what is skipped to: the next STREAM (R739, R744) or PIC. -/
  seq : Option StreamHdr := none
  wantStream : Bool := true
  wantPic : Bool := false
  /-- No picture of the group yet (R678). -/
  first : Bool := true
  /-- Lines of the reference page in earlier pictures, the paired page, and the pages paired before (R740). -/
  cmpY : Nat := 0
  cmpPage : Option Nat := none
  cmpSeen : List Nat := []
  deriving DecidableEq, Repr

structure BcSt where
  ctx : Vector BcCtx 16 := Vector.replicate 16 {}
  /-- Picture on the encode engine; context on the decode engine. -/
  enc : Option BcPic := none
  dec : Option Nat := none
  /-- Context last served by each engine (R722, R723). -/
  encLast : Option Nat := none
  decLast : Option Nat := none
  checks : List BcCheck := []
  /-- The next completed row is checked as well; that extra row is taken and no check has completed since (R735). -/
  checkNext : Bool := false
  extraDone : Bool := false
  /-- Counted beats of encoding since the last completed check, up to `encFrom`, from which the engine encodes (R47, R735). -/
  encTime : Nat := 0
  encFrom : Option Nat := none
  /-- Since when the codec stands still under BC_EN = 0 (R97). -/
  stopAt : Option Nat := none
  /-- Start of the window of R734; a backlog exceeded CAPHI in it; a backlog exceeded CAPLO in it; last rise. -/
  capFrom : Nat := 0
  capHi : Bool := false
  capBusy : Bool := false
  capRise : Nat := 0
  deriving DecidableEq, Repr

/-- A link lane beside its registers (ch. 19). -/
structure LaneSt where
  /-- Consecutive valid training sets (R773). -/
  run : Nat := 0
  /-- REQTOG last sent and PRECMD, POSTCMD, PRESET of the request in force (R785). -/
  reqTog : Bool := false
  preCmd : Nat := 0
  postCmd : Nat := 0
  preset : Nat := 0
  /-- Statuses and ACKTOG sent (R784). -/
  preStat : Nat := 0
  postStat : Nat := 0
  ackTog : Bool := false
  /-- Search of R785: where it stands (0 ended), the requests made, the best preset and FOM, whether this pass kept a
  change, and what is awaited (0 nothing, 1 the echo, 2 the refresh in progress, 3 the refresh that counts). -/
  phase : Nat := 0
  reqs : Nat := 0
  bestPreset : Nat := 1
  bestFom : Nat := 0
  kept : Bool := false
  wait : Nat := 0
  /-- Bit position of a manual-lock lane (R763). -/
  slip : Nat := 0
  /-- The receive elastic buffer: at most 16 entries of 66 bits, the oldest first (R85). -/
  rxq : List (BitVec 66) := []
  deriving DecidableEq, Repr

/-- A burst on the ACTIVE link: the slot of its word 0, counted from entry to ACTIVE, and its bytes of the link stream (R765). -/
structure Burst where
  slot : Nat
  bytes : List Byte
  /-- The beat of its hand-over. -/
  since : Nat
  deriving DecidableEq, Repr

/-- A burst being received: its bytes that no frame has taken, whether it has ended, and whether an error ended it (R770). -/
structure RxBurst where
  bytes : List Byte
  ended : Bool := false
  broken : Bool := false
  deriving DecidableEq, Repr

/-- The lanes beside their registers (ch. 19). -/
structure LnSt where
  lane : Vector LaneSt 4 := Vector.replicate 4 {}
  /-- LN_CTL as taken at the last entry to DETECT (R792). -/
  cfg : BitVec 32 := 0x00400F30
  /-- The end's ceiling (R778). -/
  ceil : Nat := 3
  /-- Beat of entry to the state, of the last attempt's start, and to which every lane idles (R780, R781). -/
  entered : Nat := 0
  attempt : Option Nat := none
  idleTo : Nat := 0
  /-- The next attempt is the first after a loss or an enable (R781). -/
  fresh : Bool := true
  fellBack : Bool := false
  /-- The partner's MAXRATE and MASK of the last valid CONFIG set on lane 0, and how many agreed in a row (R775). -/
  peer : Nat × Nat := (0, 0)
  peerRun : Nat := 0
  /-- Valid sets with ACK and equal RATE and WIDTH in a row on lane 0; the beat from which own sets carry ACK. -/
  ackRun : Nat := 0
  ackFrom : Option Nat := none
  rate : Nat := 0
  width : Nat := 1
  pllLock : Bool := true
  /-- LREFCLKP/N is present (R802). -/
  ref : Bool := true
  /-- Markers sent since entry to ACTIVE (R769). -/
  lmcnt : Nat := 0
  /-- Bursts handed over since entry to ACTIVE, newest first, of which the last 16 are kept (R765; log entry 40). -/
  bursts : List Burst := []
  /-- Bursts received, oldest first; the rest of the last one is discarded; the beat in which the die last read the lanes'
buffers (R85, R770). -/
  rxIn : List RxBurst := []
  rxDrop : Bool := false
  rxAt : Nat := 0
  /-- LN_STATE is owed in the first tick after the clock returns (R801). -/
  evDue : Bool := false
  /-- Beat since which a link lane has had no signal or no CDR lock (R779). -/
  gone : Option Nat := none
  deriving DecidableEq, Repr

/-- An entry queued in ST (20 R820, R821). -/
structure StEntry where
  id : Nat
  ctl : Bool
  stream : Nat
  /-- Control-port byte addresses and lengths of its bytes. -/
  segs : List (Nat × Nat)
  len : Nat
  last : Bool
  coded : Bool
  eseq : Nat := 0
  pos : Nat := 0
  started : Bool := false
  /-- TYPE, A and B of its template. -/
  ty : Nat := 1
  a : Nat := 0
  b : Nat := 0
  deriving DecidableEq, Repr

/-- A frame: sent, held for replay, or received (R803). -/
structure Frame where
  ty : Nat
  flags : Nat
  seq : Nat
  ack : Nat
  a : Nat
  b : Nat
  payload : List Byte
  deriving DecidableEq, Repr

/-- A sequenced frame in the replay buffer (R817); `owe` says it has still to consume its cost after a resume (R836). -/
structure StHeld where
  f : Frame
  ctl : Bool
  owe : Bool
  deriving DecidableEq, Repr

/-- A read tag (R823-R830): 0 FREE, 1 OUTST, 2 QUAR. -/
structure RdTag where
  st : Nat := 0
  host : Nat := 0
  dest : Nat := 0
  len : Nat := 0
  got : Nat := 0
  /-- Beat of its RDREQ's first transmission, its timeout in beats, the beat it entered quarantine. -/
  sent : Option Nat := none
  time : Nat := 0
  quarAt : Nat := 0
  deriving DecidableEq, Repr

/-- Acceptance order of a stream's entries (R822). -/
structure StAcc where
  id : Nat
  stream : Nat
  done : Bool
  lost : Bool
  deriving DecidableEq, Repr

/-- ST beside its registers (ch. 20). -/
structure StSt where
  queue : List StEntry := []
  ledger : List StAcc := []
  nextId : Nat := 0
  held : List StHeld := []
  /-- HCPL frames of the boot ROM that wait for credits (R843). -/
  hcpl : List Frame := []
  txSeq : Nat := 0
  rxSeq : Nat := 0
  /-- Last credit-return values applied (R809) and the count of credits freed here. -/
  crImg : Nat := 0
  crCtl : Nat := 0
  crRet : Nat := 0
  /-- Records in the receive ring: the count of ring bytes at each one's end, and its cost (R841, R843). -/
  recs : List (Nat × Nat) := []
  linW : Nat := 0
  linR : Nat := 0
  tags : Vector RdTag 64 := Vector.replicate 64 {}
  /-- Tags whose RDREQ waits, oldest first. -/
  rdreq : List Nat := []
  /-- Beat at which the session was suspended (R836). -/
  suspendAt : Nat := 0
  resumed : Bool := false
  eseq : Vector Nat 16 := Vector.replicate 16 0
  /-- Stream last served (R819). -/
  rr : Nat := 15
  /-- Replay rounds since ACKSEQ last advanced; a round is due; beat from which the timer of R817 runs. -/
  rounds : Nat := 0
  replay : Bool := false
  ackAt : Nat := 0
  /-- Beat of the last NAK sent, while no frame has been accepted since (R815). -/
  nakAt : Option Nat := none
  offerAt : Option Nat := none
  /-- Beat of the last FAULT frame of the record, and whether one is owed (R845). -/
  noticeAt : Option Nat := none
  noticeDue : Bool := false
  /-- Streams of which no coded unit is sent before a STREAM unit (R839). -/
  codedHold : Vector Bool 16 := Vector.replicate 16 true
  /-- img_starved, the beat from which its count runs, and the beats counted before (R643, R812). -/
  starved : Bool := false
  starveFrom : Nat := 0
  starveAcc : Nat := 0
  /-- A ctl frame is ready and sendable (R812). -/
  ctlOk : Bool := false
  /-- Frames sent, newest first, of which the last 16 are kept (log entry 40). -/
  tx : List Frame := []
  deriving DecidableEq, Repr

/-- A Bowline event on its way (R907-R909): channel, origin unit and event time. -/
structure BwlEvent where
  ch : Nat
  origin : Nat
  time : Nat
  deriving DecidableEq, Repr

/-- An axis as the last frame gave it (R902): STOPD in 1/65,536 step and STATE. -/
structure BwlAxis where
  p1 : Int := 0
  stopd : Nat := 0
  state : Nat := 0
  deriving DecidableEq, Repr

/-- Bowline beside its registers (ch. 22). -/
structure BwlSt where
  /-- EN has taken effect and the ring runs; otherwise BWL_TOP idles. -/
  on : Bool := false
  /-- A follower that took no number (R894). -/
  mute : Bool := false
  /-- A follower has taken its number since EN was set. -/
  known : Bool := false
  /-- D_rt of the consecutive valid returns, newest first (R895). -/
  rets : List Nat := []
  /-- Boundaries of the frames sent and not yet returned valid, oldest first, and whether each came back not valid
  (R914). -/
  out : List (Nat × Bool) := []
  /-- Frame last sent or forwarded: bytes 1-88 (R891). -/
  tx : List Byte := []
  /-- Its symbols, the beat at which its K28.5 leaves the pins, and the running disparity after it (R890, R892). -/
  txSyms : List (BitVec 10) := []
  txAt : Nat := 0
  txRd : Bool := false
  /-- Own events that wait for a slot, and whether DELAYED has counted each; events to be re-sent with AGE 1
  (R908, R909). -/
  wait : List (BwlEvent × Bool) := []
  again : List BwlEvent := []
  /-- Events to deliver: boundary and event (R909). -/
  due : List (Nat × BwlEvent) := []
  /-- Beat of the K28.5 last received. -/
  lastK : Nat := 0
  ax : Vector BwlAxis 2 := Vector.replicate 2 {}
  /-- LEVEL of the last frame (R906). -/
  level : Nat := 0
  /-- Fields of the last returned frame the master acts on: STOP, NOTREADY, QMIN0/1, REEFREQ (R904, R906). -/
  stop : Nat := 0
  notReady : Nat := 0
  qmin : Vector (Option Int) 2 := Vector.replicate 2 none
  reefReq : Nat := 0
  /-- Fields of a returned frame that act at the next MI boundary (R904). -/
  pend : Option (Nat × Nat × Option Int × Option Int × Nat) := none
  /-- P_k: the HOPSUM last forwarded (R898). -/
  hopSum : Nat := 0
  deriving DecidableEq, Repr

/-- Shroud beside its registers (ch. 23). -/
structure ShrSt where
  /-- Classes that have appeared in the record (R918). -/
  mask : List Nat := []
  /-- Secondary codes counted but kept distinct: every code in the record (R918). -/
  codes : List Nat := []
  /-- Tick of the latch and the beats of the codes latched in it (R56). -/
  latchTick : Option Nat := none
  /-- Beat of the latch (R926). -/
  latchAt : Nat := 0
  /-- Injection counts as a test mode from GO until the record is cleared (R933). -/
  injActive : Bool := false
  /-- An injected fault not yet detected: KIND and TARGET. -/
  inject : Option (Nat × Nat) := none
  /-- Consecutive conversions at 110, 125 and below 105 degrees (R928). -/
  hold110 : Nat := 0
  hold125 : Nat := 0
  hold105 : Nat := 0
  /-- Thermal shutdown waits for the NV block (R929): the class 4 detection beat. -/
  shutdownWait : Option Nat := none
  /-- Next NOTICE number (R844). -/
  notice : Nat := 0
  deriving DecidableEq, Repr

/-- A firmware command in progress (R939, R948): its operands and the payload it takes. -/
structure NvCmd where
  cmd : Nat
  slot : Nat
  len : Nat
  tag : Nat
  payload : List Byte
  /-- The beat it started and SYS_TIME there. -/
  start : Nat
  deriving DecidableEq, Repr

/-- A log entry in progress (R943): its bytes and start beat. -/
structure NvEntry where
  kind : Nat
  bytes : List Byte
  start : Nat
  deriving DecidableEq, Repr

/-- NV beside its registers and its array (ch. 23). -/
structure NvSt where
  cmd : Option NvCmd := none
  entry : Option NvEntry := none
  /-- Pending entries: the record's, the power-on one, and a RAISE with SAFE = 0: code, core, time (R946). -/
  recDue : Bool := false
  ponDue : Bool := false
  fwDue : Option (Nat × Nat × Nat) := none
  /-- Release beat from which the search of R944 runs; `none` once it is complete. -/
  search : Option Nat := some 0
  /-- The log holds an entry. -/
  hasLog : Bool := false
  /-- Index and LSEQ of the newest entry, and BOOTNO, which LOGHEAD, LOGSEQ and BOOTNO show (R944). -/
  logIdx : Nat := 0
  logSeq : Nat := 0
  bootNo : Nat := 0
  /-- A warm reset waits for the write in progress (R130, R949). -/
  resetDue : Bool := false
  deriving DecidableEq, Repr

/-- A word in the control port's write buffer: address, data, first beat at which it may take effect (R88, R856). -/
structure PortWrite where
  addr : Nat
  data : BitVec 32
  ready : Nat
  deriving DecidableEq, Repr

/-- A read transaction of the control port (R857-R862). -/
structure PortRead where
  /-- Address of the word that the next read names; whether it advances. -/
  addr : Nat
  inc : Bool
  /-- Beat of the reference edge of a read not yet issued. -/
  edge : Option Nat
  /-- Status, word and first beat at which a status byte may show an issued read. -/
  got : Option (Nat × BitVec 32 × Nat)
  deriving DecidableEq, Repr

/-- The control port beside its registers (ch. 21). -/
structure PortSt where
  wbuf : List PortWrite := []
  /-- CSN is asserted. -/
  sel : Bool := false
  /-- SCLK is ignored until CSN rises (R853, R131). -/
  deaf : Bool := false
  /-- The transaction is one of four lines; it is a status command (R851). -/
  wide : Bool := false
  stat : Bool := false
  /-- First beat after the tick in which the last write took effect (R856, R869). -/
  free : Nat := 0
  /-- Write transaction in progress: its next address and step. -/
  wr : Option (Nat × Nat) := none
  rd : Option PortRead := none
  /-- Address and reference edge of reads whose transaction ended before they were issued (R859, R862). -/
  orphans : List (Nat × Nat) := []
  /-- What the port has driven in this transaction, newest first: status byte and word. -/
  sent : List (Nat × BitVec 32) := []
  deriving DecidableEq, Repr

/-- The boot ROM and the fuse programmer beside their registers (ch. 05). -/
structure BootSt where
  /-- Beat at which the current pass to READY began; a restart is in progress. -/
  began : Nat := 0
  /-- The pass zeroes the memories again at a RESTART (R188). -/
  restart : Bool := false
  /-- End of step 2, until the memories read as it leaves them (R149). -/
  zeroDue : Option Nat := none
  /-- A RESTART written during CHECKING is held. -/
  held : Bool := false
  /-- Words of the image, newest first. -/
  img : List (BitVec 32) := []
  /-- Beat of the last word accepted, and the tick in which the boot was claimed (R159, R163). -/
  lastWord : Nat := 0
  claimed : Nat := 0
  /-- Beat at which CHECKING began. -/
  checkAt : Nat := 0
  /-- The march test of the core memories has met an uncorrectable word (R178). -/
  coreBad : Bool := false
  bistDone : Bool := false
  sigDone : Bool := false
  calBegun : Bool := false
  /-- Calibrations still to pass: heads, then the aux converters. -/
  calHeads : List (Fin 6) := []
  calAux : Bool := false
  /-- Beats since which VREF_EN and AREF_EN have been set without a break (R180). -/
  vSince : Option Nat := none
  aSince : Option Nat := none
  /-- Beat of the arming write; the bit being blown and its BIT write's beat (R173). -/
  arm : Option Nat := none
  blow : Option (Nat × Nat) := none
  /-- The lane path is armed; beat of the first training sequence it detected; beat of a training timeout (R164, R166). -/
  laneArmed : Bool := false
  laneFrom : Option Nat := none
  laneFail : Option Nat := none
  /-- Lane 0 has completed its training since that sequence (R166). -/
  laneUp : Bool := false
  deriving DecidableEq, Repr

end Sys2Proof.Machine
end

