-- ==== Sys2Proof/Machine/RegMap.lean ====
section
/-!
DEFINITION. The register map of the control-port address space (21 R881, R882): one row per register or bank
of registers, with the mask of each access code (R15-R18), the reset value and the shadow mark (R226), and one
named field per field of the chapters' tables.
-/
namespace Sys2Proof.Machine

/-- A register, or a bank of registers at `base + s1*i + s2*j` for `i < n1`, `j < n2`.
The masks hold the bits of each access code of R15; bits of no mask are RO or reserved (R18). -/
structure RegRow where
  base : Nat
  s1 : Nat
  n1 : Nat
  s2 : Nat
  n2 : Nat
  rw : Nat
  w1c : Nat
  sc : Nat
  wo : Nat
  reset : Nat
  shadow : Bool
  deriving DecidableEq, Repr

/-- A field of a register: the register's control-port address, the field's bits, and whether it holds W1C flags (R15). -/
structure Fld where
  addr : Nat
  hi : Nat
  lo : Nat
  w1c : Bool
  deriving DecidableEq, Repr

/-- Rows of the SYS registers (21 R882). -/
def regsSys : List RegRow := [
  ⟨0x0, 0x4, 1, 0x4, 1, 0x0, 0x0, 0x0, 0x0, 0x6324800, false⟩ /- SYS_ID -/,
  ⟨0x4, 0x4, 1, 0x4, 1, 0x0, 0x0, 0x0, 0x0, 0x100A0, false⟩ /- SYS_REV -/,
  ⟨0x8, 0x4, 1, 0x4, 1, 0x0, 0x0, 0x0, 0x0, 0x0, false⟩ /- SYS_UID_LO -/,
  ⟨0xC, 0x4, 1, 0x4, 1, 0x0, 0x0, 0x0, 0x0, 0x0, false⟩ /- SYS_UID_HI -/,
  ⟨0x10, 0x4, 1, 0x4, 1, 0x0, 0x0, 0x0, 0x0, 0x0, false⟩ /- SYS_TIME_LO -/,
  ⟨0x14, 0x4, 1, 0x4, 1, 0x0, 0x0, 0x0, 0x0, 0x0, false⟩ /- SYS_TIME_HI -/,
  ⟨0x20, 0x4, 1, 0x4, 1, 0x0, 0x0, 0x0, 0xFF, 0x0, false⟩ /- SYS_RST -/,
  ⟨0x24, 0x4, 1, 0x4, 1, 0x1, 0x0, 0x0, 0x0, 0x1, false⟩ /- SYS_RST_CFG -/,
  ⟨0x28, 0x4, 1, 0x4, 1, 0x0, 0x7, 0x0, 0x0, 0x1, false⟩ /- SYS_RST_CAUSE -/,
  ⟨0x30, 0x4, 1, 0x4, 1, 0x0, 0xFF07, 0x0, 0x0, 0x0, false⟩ /- SYS_IRQ_STAT -/,
  ⟨0x34, 0x4, 1, 0x4, 1, 0xFF07, 0x0, 0x0, 0x0, 0x7, false⟩ /- SYS_IRQ_EN -/,
  ⟨0x38, 0x4, 1, 0x4, 1, 0x0, 0x0, 0x0, 0xFFFFFFFF, 0x0, false⟩ /- SYS_HOSTDB -/,
  ⟨0x40, 0x4, 1, 0x4, 1, 0x0, 0xF80, 0x0, 0x0, 0x100003, false⟩ /- SYS_CP_STAT -/,
  ⟨0x44, 0x4, 1, 0x4, 1, 0x0, 0x0, 0x0, 0x0, 0x0, false⟩ /- SYS_CP_ERRADDR -/]

/-- Rows of the CLK registers (21 R882). -/
def regsClk : List RegRow := [
  ⟨0x10000, 0x4, 1, 0x4, 1, 0x0, 0x8, 0x0, 0x0, 0x0, false⟩ /- CLK_STAT -/,
  ⟨0x10004, 0x4, 1, 0x4, 1, 0xFF, 0x0, 0x0, 0x0, 0xFF, false⟩ /- CLK_GATE -/,
  ⟨0x10008, 0x4, 1, 0x4, 1, 0x0, 0x0, 0x0, 0x0, 0x0, false⟩ /- CLK_LOSS_TIME_LO -/,
  ⟨0x1000C, 0x4, 1, 0x4, 1, 0x0, 0x0, 0x0, 0x0, 0x0, false⟩ /- CLK_LOSS_TIME_HI -/]

/-- Rows of the BOOT registers (21 R882). -/
def regsBoot : List RegRow := [
  ⟨0x20000, 0x4, 1, 0x4, 1, 0x0, 0x0, 0x1, 0x0, 0x0, false⟩ /- BOOT_CTL -/,
  ⟨0x20004, 0x4, 1, 0x4, 1, 0x0, 0x180, 0x0, 0x0, 0x0, false⟩ /- BOOT_STATUS -/,
  ⟨0x20008, 0x4, 1, 0x4, 1, 0x0, 0x0, 0x0, 0x0, 0x0, false⟩ /- BOOT_COUNT -/,
  ⟨0x2000C, 0x4, 1, 0x4, 1, 0x0, 0x0, 0x0, 0x0, 0x0, false⟩ /- BOOT_IMG_VER -/,
  ⟨0x20010, 0x4, 1, 0x4, 1, 0x0, 0x0, 0x0, 0x0, 0x0, false⟩ /- BOOT_FUSE_CFG -/,
  ⟨0x20014, 0x4, 1, 0x4, 1, 0x0, 0x0, 0x0, 0xFF0001FF, 0x0, false⟩ /- BOOT_FUSE_PGM -/,
  ⟨0x20020, 0x4, 8, 0x4, 1, 0x0, 0x0, 0x0, 0x0, 0x0, false⟩ /- BOOT_KEYHASH -/,
  ⟨0x20040, 0x4, 1, 0x4, 1, 0x3, 0x0, 0x0, 0x0, 0x0, false⟩ /- BOOT_ANA -/,
  ⟨0x28000, 0x4, 8192, 0x4, 1, 0x0, 0x0, 0x0, 0xFFFFFFFF, 0x0, false⟩ /- BOOT_WIN -/]

/-- Rows of the HEAD registers (21 R882). -/
def regsHead0 : List RegRow := [
  ⟨0x100000, 0x10000, 6, 0x4, 1, 0x1, 0x0, 0x180, 0x0, 0x0, false⟩ /- H_TPG_CTL -/,
  ⟨0x100004, 0x10000, 6, 0x4, 1, 0x0, 0x2, 0x1, 0x0, 0x0, false⟩ /- H_COMMIT -/,
  ⟨0x100008, 0x10000, 6, 0x4, 1, 0x0, 0x0, 0x0, 0x0, 0x91, false⟩ /- H_TPG_STAT -/,
  ⟨0x10000C, 0x10000, 6, 0x4, 1, 0x0, 0x0, 0x0, 0x0, 0x0, false⟩ /- H_TPG_CNT -/,
  ⟨0x100010, 0x10000, 6, 0x4, 1, 0x3F007FFF, 0x0, 0x0, 0x0, 0x40, true⟩ /- H_TPG_LINE -/,
  ⟨0x100014, 0x10000, 6, 0x4, 1, 0xC03FFFFF, 0x0, 0x0, 0x0, 0x0, true⟩ /- H_TPG_SYNC -/,
  ⟨0x100018, 0x10000, 6, 0x4, 1, 0x1FF03, 0x0, 0x0, 0x0, 0x0, true⟩ /- H_TPG_FIELDS -/,
  ⟨0x100040, 0x10000, 6, 0x10, 4, 0x3FFFFF, 0x0, 0x0, 0x0, 0x0, true⟩ /- H_TPG_FLD_EXPS -/,
  ⟨0x100044, 0x10000, 6, 0x10, 4, 0x33FFFFF, 0x0, 0x0, 0x0, 0x0, true⟩ /- H_TPG_FLD_EXPE -/,
  ⟨0x100048, 0x10000, 6, 0x10, 4, 0x3FFFF, 0x0, 0x0, 0x0, 0x0, true⟩ /- H_TPG_FLD_RD -/,
  ⟨0x100080, 0x10000, 6, 0x4, 8, 0xFFF0F, 0x0, 0x0, 0x0, 0x0, true⟩ /- H_TPG_PHCFG -/,
  ⟨0x1000A0, 0x10000, 6, 0x4, 1, 0x0, 0x0, 0x0, 0x0, 0x0, false⟩ /- H_TPG_PLEN -/,
  ⟨0x100100, 0x10000, 6, 0x4, 64, 0x8FBFFFFF, 0x0, 0x0, 0x0, 0x0, true⟩ /- H_TPG_EDGE -/,
  ⟨0x100400, 0x10000, 6, 0x4, 1, 0xFF37, 0x0, 0x0, 0x0, 0x0, true⟩ /- H_AFE_CFG -/,
  ⟨0x100404, 0x10000, 6, 0x4, 1, 0x3FF, 0x0, 0x0, 0x0, 0x0, true⟩ /- H_AFE_OFS -/,
  ⟨0x100500, 0x10000, 6, 0x4, 1, 0x0, 0x0, 0x3, 0x0, 0x0, false⟩ /- H_VADC_CTL -/,
  ⟨0x100504, 0x10000, 6, 0x4, 1, 0x0, 0x80E0, 0x0, 0x0, 0x0, false⟩ /- H_VADC_STAT -/,
  ⟨0x100508, 0x10000, 6, 0x4, 1, 0x1FF, 0x0, 0x0, 0x0, 0x1FF, true⟩ /- H_VADC_CHK -/,
  ⟨0x10050C, 0x10000, 6, 0x4, 1, 0x3FFF3FFF, 0x0, 0x0, 0x0, 0x3FFF0000, true⟩ /- H_VADC_DKWIN -/,
  ⟨0x100510, 0x10000, 6, 0x4, 1, 0x0, 0x0, 0x0, 0x0, 0x0, false⟩ /- H_VADC_OVR -/,
  ⟨0x100520, 0x10000, 6, 0x4, 4, 0x0, 0x0, 0x0, 0x0, 0x0, false⟩ /- H_VADC_DARK -/,
  ⟨0x100540, 0x10000, 6, 0x4, 8, 0x0, 0x0, 0x0, 0x0, 0x0, false⟩ /- H_VADC_TST -/,
  ⟨0x100580, 0x10000, 6, 0x4, 16, 0x0, 0x0, 0x0, 0x0, 0x0, false⟩ /- H_VADC_SWP -/,
  ⟨0x1005C0, 0x10000, 6, 0x4, 16, 0x0, 0x0, 0x0, 0x0, 0x0, false⟩ /- H_VADC_FACT -/,
  ⟨0x100600, 0x10000, 6, 0x4, 1, 0xF, 0x0, 0x0, 0x0, 0x1, true⟩ /- H_SHD_CFG -/,
  ⟨0x100604, 0x10000, 6, 0x4, 1, 0x0, 0x100, 0x0, 0x0, 0x1, false⟩ /- H_SHD_STAT -/,
  ⟨0x100608, 0x10000, 6, 0x4, 1, 0xF30, 0x0, 0x1, 0x0, 0x0, false⟩ /- H_SHD_REF -/,
  ⟨0x10060C, 0x10000, 6, 0x4, 1, 0xFFFF, 0x0, 0x0, 0x0, 0xEA60, false⟩ /- H_SHD_REFTGT -/,
  ⟨0x100610, 0x10000, 6, 0x4, 1, 0x1E7FFF, 0x0, 0x0, 0x0, 0x0, false⟩ /- H_SHD_PADDR -/,
  ⟨0x100614, 0x10000, 6, 0x4, 1, 0x0, 0x0, 0x0, 0xFFFFFFFF, 0x0, false⟩ /- H_SHD_PDATA -/]

/-- Rows of the HEAD registers (21 R882). -/
def regsHead1 : List RegRow := [
  ⟨0x100618, 0x10000, 6, 0x4, 2, 0x7FFF, 0x0, 0x0, 0x0, 0x0, false⟩ /- H_SHD_BLEN -/,
  ⟨0x100620, 0x10000, 6, 0x4, 1, 0x0, 0x0, 0x0, 0x0, 0x0, false⟩ /- H_SHD_CLIP -/,
  ⟨0x100624, 0x10000, 6, 0x4, 1, 0x0, 0x0, 0x0, 0x0, 0x0, false⟩ /- H_SHD_RUNRES -/,
  ⟨0x100628, 0x10000, 6, 0x4, 1, 0x0, 0x0, 0x0, 0x0, 0x0, false⟩ /- H_SHD_GRANGE -/,
  ⟨0x10062C, 0x10000, 6, 0x4, 1, 0x0, 0x0, 0x0, 0x0, 0x0, false⟩ /- H_SHD_REFCLIP -/,
  ⟨0x100630, 0x10000, 6, 0x4, 4, 0x0, 0x0, 0x0, 0x0, 0x0, false⟩ /- H_SHD_WIT -/,
  ⟨0x100700, 0x10000, 6, 0x4, 64, 0x0, 0x0, 0x0, 0x0, 0x0, false⟩ /- H_SHD_WPROF -/,
  ⟨0x100800, 0x10000, 6, 0x4, 1, 0x3F01, 0x0, 0xF8, 0x0, 0x0, false⟩ /- H_ILL_CTL -/,
  ⟨0x100804, 0x10000, 6, 0x4, 1, 0x0, 0x1F8003, 0x0, 0x0, 0x0, false⟩ /- H_ILL_STAT -/,
  ⟨0x100808, 0x10000, 6, 0x4, 1, 0xFF3F3117, 0x0, 0x0, 0x0, 0x2D281000, true⟩ /- H_ILL_CFG -/,
  ⟨0x100810, 0x10000, 6, 0x4, 4, 0x3FF03FF, 0x0, 0x0, 0x0, 0xF00000, true⟩ /- H_ILL_ROW -/,
  ⟨0x100820, 0x10000, 6, 0x4, 4, 0xFFFFFFFF, 0x0, 0x0, 0x0, 0x0, true⟩ /- H_ILL_KT -/,
  ⟨0x100830, 0x10000, 6, 0x4, 4, 0xFF01FFFF, 0x0, 0x0, 0x0, 0x0, true⟩ /- H_ILL_KL -/,
  ⟨0x100840, 0x10000, 6, 0x4, 1, 0xFFFFFFFF, 0x0, 0x0, 0x0, 0x80002000, true⟩ /- H_ILL_KLIM -/,
  ⟨0x100844, 0x10000, 6, 0x4, 1, 0xBF00BF00, 0x0, 0x0, 0x0, 0x0, true⟩ /- H_ILL_SENS -/,
  ⟨0x100848, 0x10000, 6, 0x4, 1, 0xFF0F00FF, 0x0, 0x0, 0x0, 0x5A020046, true⟩ /- H_ILL_DRT -/,
  ⟨0x100850, 0x10000, 6, 0x4, 4, 0x0, 0x0, 0x0, 0x0, 0x4000, false⟩ /- H_ILL_K -/,
  ⟨0x100860, 0x10000, 6, 0x4, 4, 0x0, 0x0, 0x0, 0x0, 0xF0, false⟩ /- H_ILL_VSET -/,
  ⟨0x100870, 0x10000, 6, 0x4, 1, 0x0, 0x0, 0x0, 0x0, 0x0, false⟩ /- H_ILL_FLT -/,
  ⟨0x100874, 0x10000, 6, 0x4, 1, 0x0, 0x0, 0x0, 0x0, 0x0, false⟩ /- H_ILL_SHORT -/,
  ⟨0x100878, 0x10000, 6, 0x4, 1, 0x0, 0x0, 0x0, 0x0, 0x0, false⟩ /- H_ILL_SHCLIP -/,
  ⟨0x100900, 0x10000, 6, 0x4, 64, 0xFFF, 0x0, 0x0, 0x0, 0x0, false⟩ /- H_ILL_FRMW -/,
  ⟨0x100A00, 0x10000, 6, 0x4, 64, 0x0, 0x0, 0x0, 0x0, 0x0, false⟩ /- H_ILL_FRMA -/,
  ⟨0x100B00, 0x10000, 6, 0x8, 32, 0xFFFFFFFF, 0x0, 0x0, 0x0, 0x0, false⟩ /- H_ILL_CASL -/,
  ⟨0x100B04, 0x10000, 6, 0x8, 32, 0xFFFF, 0x0, 0x0, 0x0, 0x0, false⟩ /- H_ILL_CASH -/]

/-- Rows of the AUX registers (21 R882). -/
def regsAux : List RegRow := [
  ⟨0x200000, 0x4, 1, 0x4, 1, 0x0, 0x0, 0x1, 0x0, 0x0, false⟩ /- AUX_CTL -/,
  ⟨0x200004, 0x4, 1, 0x4, 1, 0x0, 0x1F9, 0x0, 0x0, 0x0, false⟩ /- AUX_STAT -/,
  ⟨0x200008, 0x4, 1, 0x4, 1, 0xE7FF001F, 0x0, 0x0, 0x0, 0x4E20000, false⟩ /- AUX_CFG -/,
  ⟨0x200010, 0x4, 1, 0x4, 1, 0xE00F0FFF, 0x0, 0x0, 0x0, 0xA, false⟩ /- AUX_EXC0 -/,
  ⟨0x200014, 0x4, 1, 0x4, 1, 0x800F0FFF, 0x0, 0x0, 0x0, 0xA, false⟩ /- AUX_EXC1 -/,
  ⟨0x200018, 0x4, 1, 0x4, 1, 0x80010FFF, 0x0, 0x0, 0x0, 0x5, false⟩ /- AUX_VEX -/,
  ⟨0x20001C, 0x4, 1, 0x4, 1, 0xFFFF, 0x0, 0x0, 0x0, 0x0, false⟩ /- AUX_BIAS -/,
  ⟨0x200020, 0x4, 1, 0x4, 1, 0x0, 0x3F, 0x0, 0x0, 0x0, false⟩ /- AUX_EXCSTAT -/,
  ⟨0x200024, 0x4, 1, 0x4, 1, 0xE00103FF, 0x0, 0x0, 0x0, 0x0, false⟩ /- AUX_BLK -/,
  ⟨0x200028, 0x4, 1, 0x4, 1, 0x801F1FFF, 0x0, 0x0, 0x0, 0x0, false⟩ /- AUX_XCHK -/,
  ⟨0x20002C, 0x4, 1, 0x4, 1, 0x0, 0x0, 0x0, 0x0, 0x0, false⟩ /- AUX_XDIFF -/,
  ⟨0x200040, 0x20, 2, 0x4, 1, 0xFFFFFFFF, 0x0, 0x0, 0x0, 0x0, false⟩ /- AUX_SEQ -/,
  ⟨0x200044, 0x20, 2, 0x4, 1, 0xFFFFF, 0x0, 0x0, 0x0, 0x1, false⟩ /- AUX_PER -/,
  ⟨0x200048, 0x20, 2, 0x4, 1, 0x1F, 0x0, 0x80000000, 0x0, 0x0, false⟩ /- AUX_URG -/,
  ⟨0x20004C, 0x20, 2, 0x4, 1, 0x0, 0x3C0, 0x20, 0x0, 0x0, false⟩ /- AUX_SSTAT -/,
  ⟨0x200050, 0x20, 2, 0x4, 1, 0x0, 0x0, 0x0, 0x0, 0x0, false⟩ /- AUX_LOOPT -/,
  ⟨0x200054, 0x20, 2, 0x4, 1, 0x0, 0x0, 0x0, 0x0, 0x0, false⟩ /- AUX_HALF -/,
  ⟨0x200100, 0x8, 16, 0x4, 1, 0xFF000000, 0x0, 0x0, 0x0, 0x0, false⟩ /- AUX_TSW_CFG -/,
  ⟨0x200104, 0x8, 16, 0x4, 1, 0xFFFFFFFF, 0x0, 0x0, 0x0, 0x0, false⟩ /- AUX_TSW_THR -/,
  ⟨0x200200, 0x20, 8, 0x4, 8, 0xFFFFFFFF, 0x0, 0x0, 0x0, 0x0, false⟩ /- AUX_LIN -/,
  ⟨0x201000, 0x200, 2, 0x8, 32, 0xFFFF83FF, 0x0, 0x0, 0x0, 0x0, false⟩ /- AUX_ENTL -/,
  ⟨0x201004, 0x200, 2, 0x8, 32, 0xFFFF8FFF, 0x0, 0x0, 0x0, 0x0, false⟩ /- AUX_ENTH -/,
  ⟨0x201400, 0x80, 2, 0x4, 32, 0xFFFFFFFF, 0x0, 0x0, 0x0, 0x40000000, false⟩ /- AUX_COR -/,
  ⟨0x201800, 0x80, 2, 0x4, 32, 0x0, 0x0, 0x0, 0x0, 0x80000000, false⟩ /- AUX_RES -/]

/-- Rows of the TRG registers (21 R882). -/
def regsTrg0 : List RegRow := [
  ⟨0x210000, 0x4, 1, 0x4, 1, 0x1F1F3D, 0x0, 0xC0, 0x0, 0x0, false⟩ /- TRG_CTL -/,
  ⟨0x210004, 0x4, 1, 0x4, 1, 0x0, 0x0, 0x0, 0x0, 0x0, false⟩ /- TRG_STAT -/,
  ⟨0x210008, 0x4, 1, 0x4, 1, 0xFFFFFFFF, 0x0, 0x0, 0x0, 0x0, false⟩ /- TRG_AUTOT -/,
  ⟨0x21000C, 0x4, 1, 0x4, 1, 0x0, 0x0, 0x0, 0xFFFF, 0x0, false⟩ /- TRG_SWT -/,
  ⟨0x210010, 0x4, 1, 0x4, 1, 0x0, 0x0, 0x0, 0x0, 0x0, false⟩ /- TRG_CNT -/,
  ⟨0x210014, 0x4, 1, 0x4, 1, 0x0, 0x0, 0x0, 0x0, 0x0, false⟩ /- TRG_PAGENO -/,
  ⟨0x210100, 0x20, 8, 0x4, 1, 0xFF1FFFFF, 0x0, 0x0, 0x0, 0x0, false⟩ /- TRG_U_CFG -/,
  ⟨0x210104, 0x20, 8, 0x4, 1, 0xFFFFFFFF, 0x0, 0x0, 0x0, 0x0, false⟩ /- TRG_U_LVL -/,
  ⟨0x210108, 0x20, 8, 0x4, 1, 0xFFFFFFFF, 0x0, 0x0, 0x0, 0x0, false⟩ /- TRG_U_WMIN -/,
  ⟨0x21010C, 0x20, 8, 0x4, 1, 0xFFFFFFFF, 0x0, 0x0, 0x0, 0x0, false⟩ /- TRG_U_WMAX -/,
  ⟨0x210110, 0x20, 8, 0x4, 1, 0x0, 0x0, 0x0, 0x0, 0x0, false⟩ /- TRG_U_TLO -/,
  ⟨0x210114, 0x20, 8, 0x4, 1, 0x0, 0x0, 0x0, 0x0, 0x0, false⟩ /- TRG_U_THI -/,
  ⟨0x210118, 0x20, 8, 0x4, 1, 0x0, 0x0, 0x0, 0x0, 0x0, false⟩ /- TRG_U_CNT -/,
  ⟨0x210400, 0x80, 6, 0x4, 1, 0x1, 0x0, 0x0, 0x0, 0x0, false⟩ /- TRG_R_CTL -/,
  ⟨0x210404, 0x80, 6, 0x4, 1, 0x3FFFFFF, 0x0, 0x0, 0x0, 0x0, false⟩ /- TRG_R_BASE -/,
  ⟨0x210408, 0x80, 6, 0x4, 1, 0x3FFFFFF, 0x0, 0x0, 0x0, 0x0, false⟩ /- TRG_R_SLOT -/,
  ⟨0x21040C, 0x80, 6, 0x4, 1, 0xFFFF, 0x0, 0x0, 0x0, 0x0, false⟩ /- TRG_R_NSLOT -/,
  ⟨0x210410, 0x80, 6, 0x4, 1, 0xFFFFFFFF, 0x0, 0x0, 0x0, 0x0, false⟩ /- TRG_R_PRE -/,
  ⟨0x210414, 0x80, 6, 0x4, 1, 0xFFFFFFFF, 0x0, 0x0, 0x0, 0x0, false⟩ /- TRG_R_POST -/,
  ⟨0x210418, 0x80, 6, 0x4, 1, 0xFFFF, 0x0, 0x0, 0x0, 0x0, false⟩ /- TRG_R_MARGIN -/,
  ⟨0x21041C, 0x80, 6, 0x4, 1, 0xFFFFFFFF, 0x0, 0x0, 0x0, 0xFFFFFFFF, false⟩ /- TRG_R_MAXL -/,
  ⟨0x210420, 0x80, 6, 0x4, 1, 0xFFFFFFFF, 0x0, 0x0, 0x0, 0x0, false⟩ /- TRG_R_OFS -/,
  ⟨0x210424, 0x80, 6, 0x4, 1, 0xFFFFFFFF, 0x0, 0x0, 0x0, 0x0, false⟩ /- TRG_R_WM -/,
  ⟨0x210428, 0x80, 6, 0x4, 1, 0x3FFFFFF, 0x0, 0x0, 0x0, 0x0, false⟩ /- TRG_R_PRBASE -/,
  ⟨0x21042C, 0x80, 6, 0x4, 1, 0x0, 0x0, 0x0, 0xFFFF, 0x0, false⟩ /- TRG_R_REL -/,
  ⟨0x210430, 0x80, 6, 0x4, 1, 0x0, 0x0, 0x0, 0x0, 0x0, false⟩ /- TRG_R_WCNT -/,
  ⟨0x210434, 0x80, 6, 0x4, 1, 0x0, 0x0, 0x0, 0x0, 0x0, false⟩ /- TRG_R_RCNT -/,
  ⟨0x210438, 0x80, 6, 0x4, 1, 0x0, 0x0, 0x0, 0x0, 0x0, false⟩ /- TRG_R_FILL -/,
  ⟨0x21043C, 0x80, 6, 0x4, 1, 0x0, 0xC, 0x0, 0x0, 0x0, false⟩ /- TRG_R_STAT -/,
  ⟨0x210440, 0x80, 6, 0x4, 1, 0x0, 0x0, 0x0, 0x0, 0x0, false⟩ /- TRG_R_DISC -/]

/-- Rows of the TRG registers (21 R882). -/
def regsTrg1 : List RegRow := [
  ⟨0x210444, 0x80, 6, 0x4, 1, 0x0, 0x0, 0x0, 0x0, 0x0, false⟩ /- TRG_R_CSEQ -/]

/-- Rows of the HAL registers (21 R882). -/
def regsHal0 : List RegRow := [
  ⟨0x220010, 0x4, 6, 0x4, 1, 0x80000001, 0x0, 0x0, 0x0, 0x0, false⟩ /- HAL_HEAD -/,
  ⟨0x220030, 0x4, 6, 0x4, 1, 0xFFFFFFFF, 0x0, 0x0, 0x0, 0x0, false⟩ /- HAL_PH -/,
  ⟨0x220050, 0x4, 6, 0x4, 1, 0x0, 0x0, 0x0, 0x0, 0x0, false⟩ /- HAL_MARG -/,
  ⟨0x220100, 0x100, 2, 0x4, 1, 0x3F, 0x0, 0x100, 0x0, 0x0, false⟩ /- HAL_AX_CTL -/,
  ⟨0x220104, 0x100, 2, 0x4, 1, 0x0, 0x2, 0x1, 0x0, 0x0, false⟩ /- HAL_AX_COMMIT -/,
  ⟨0x220108, 0x100, 2, 0x4, 1, 0x0, 0x0, 0x0, 0x0, 0x0, false⟩ /- HAL_AX_STAT -/,
  ⟨0x22010C, 0x100, 2, 0x4, 1, 0x0, 0xFF, 0x0, 0x0, 0x0, false⟩ /- HAL_AX_FLT -/,
  ⟨0x220110, 0x100, 2, 0x4, 1, 0x7, 0x0, 0x0, 0x0, 0x0, true⟩ /- HAL_AX_MODE -/,
  ⟨0x220114, 0x100, 2, 0x4, 1, 0xFFFFFFFF, 0x0, 0x0, 0x0, 0x0, true⟩ /- HAL_AX_VT -/,
  ⟨0x220118, 0x100, 2, 0x4, 1, 0xFFFFFFFF, 0x0, 0x0, 0x0, 0x0, true⟩ /- HAL_AX_PT -/,
  ⟨0x22011C, 0x100, 2, 0x4, 1, 0xFFFFFFFF, 0x0, 0x0, 0x0, 0x40000000, true⟩ /- HAL_AX_VMAX -/,
  ⟨0x220120, 0x100, 2, 0x4, 1, 0xFFFFFFFF, 0x0, 0x0, 0x0, 0x0, true⟩ /- HAL_AX_AMAX -/,
  ⟨0x220124, 0x100, 2, 0x4, 1, 0xFFFFFFFF, 0x0, 0x0, 0x0, 0x0, true⟩ /- HAL_AX_DMAX -/,
  ⟨0x220128, 0x100, 2, 0x4, 1, 0xFFFFFFFF, 0x0, 0x0, 0x0, 0x0, true⟩ /- HAL_AX_JMAX -/,
  ⟨0x22012C, 0x100, 2, 0x4, 1, 0xFFFFFFFF, 0x0, 0x0, 0x0, 0x0, true⟩ /- HAL_AX_VBACK -/,
  ⟨0x220130, 0x100, 2, 0x4, 1, 0xFFFFFFFF, 0x0, 0x0, 0x0, 0x0, true⟩ /- HAL_AX_LPS -/,
  ⟨0x220134, 0x100, 2, 0x4, 1, 0xFFFFFFFF, 0x0, 0x0, 0x0, 0x0, true⟩ /- HAL_AX_ORG -/,
  ⟨0x220138, 0x100, 2, 0x4, 1, 0xFFFFFFFF, 0x0, 0x0, 0x0, 0x0, true⟩ /- HAL_AX_MECH -/,
  ⟨0x22013C, 0x100, 2, 0x4, 1, 0xFFFFFFFF, 0x0, 0x0, 0x0, 0xFA0, true⟩ /- HAL_AX_SLIP -/,
  ⟨0x220140, 0x100, 2, 0x4, 1, 0xFFFFFFFF, 0x0, 0x0, 0x0, 0x2EE0000, true⟩ /- HAL_AX_STEPT -/,
  ⟨0x220144, 0x100, 2, 0x4, 1, 0xFFFFFFFF, 0x0, 0x0, 0x0, 0x0, true⟩ /- HAL_AX_ENC -/,
  ⟨0x220148, 0x100, 2, 0x4, 1, 0xFFFF00FF, 0x0, 0x0, 0x0, 0x0, true⟩ /- HAL_AX_EFLT -/,
  ⟨0x220150, 0x100, 2, 0x4, 1, 0x0, 0x0, 0x0, 0x0, 0x0, false⟩ /- HAL_AX_POSLO -/,
  ⟨0x220154, 0x100, 2, 0x4, 1, 0x0, 0x0, 0x0, 0x0, 0x0, false⟩ /- HAL_AX_POSHI -/,
  ⟨0x220158, 0x100, 2, 0x4, 1, 0x0, 0x0, 0x0, 0x0, 0x0, false⟩ /- HAL_AX_VEL -/,
  ⟨0x22015C, 0x100, 2, 0x4, 1, 0x0, 0x0, 0x0, 0x0, 0x0, false⟩ /- HAL_AX_CMD -/,
  ⟨0x220160, 0x100, 2, 0x4, 1, 0x0, 0x0, 0x0, 0x0, 0x0, false⟩ /- HAL_AX_OBS -/,
  ⟨0x220164, 0x100, 2, 0x4, 1, 0x0, 0x0, 0x0, 0x0, 0x0, false⟩ /- HAL_AX_ENCCNT -/,
  ⟨0x220168, 0x100, 2, 0x4, 1, 0x0, 0x0, 0x0, 0x0, 0x0, false⟩ /- HAL_AX_IDXCNT -/,
  ⟨0x22016C, 0x100, 2, 0x4, 1, 0x0, 0x0, 0x0, 0x0, 0x0, false⟩ /- HAL_AX_STOPD -/]

/-- Rows of the HAL registers (21 R882). -/
def regsHal1 : List RegRow := [
  ⟨0x220170, 0x100, 2, 0x4, 1, 0x0, 0x0, 0x0, 0x0, 0x0, false⟩ /- HAL_AX_LNEXT -/,
  ⟨0x220174, 0x100, 2, 0x4, 1, 0x0, 0x0, 0x0, 0xFFFFFFFF, 0x0, false⟩ /- HAL_AX_POSSET -/]

/-- Rows of the REEF registers (21 R882). -/
def regsReef : List RegRow := [
  ⟨0x230000, 0x4, 1, 0x4, 1, 0x3F0FFFF3, 0x0, 0x4, 0x0, 0x804F000, false⟩ /- REEF_CTL -/,
  ⟨0x230004, 0x4, 1, 0x4, 1, 0x0, 0x0, 0x0, 0x0, 0x0, false⟩ /- REEF_STAT -/,
  ⟨0x230008, 0x4, 1, 0x4, 1, 0xFF3F, 0x0, 0x0, 0x0, 0xFF3F, false⟩ /- REEF_INEN -/,
  ⟨0x23000C, 0x4, 1, 0x4, 1, 0xFFFF, 0x0, 0x0, 0x0, 0xC080, false⟩ /- REEF_RINGWM -/,
  ⟨0x230010, 0x4, 1, 0x4, 1, 0xFFFF, 0x0, 0x0, 0x0, 0x4008, false⟩ /- REEF_CREDWM -/,
  ⟨0x230014, 0x4, 1, 0x4, 1, 0x0, 0x0, 0x0, 0x0, 0x0, false⟩ /- REEF_PRESS -/,
  ⟨0x230018, 0x4, 1, 0x4, 1, 0x0, 0x0, 0x0, 0x0, 0x0, false⟩ /- REEF_CNT -/,
  ⟨0x23001C, 0x4, 1, 0x4, 1, 0x0, 0x0, 0x0, 0x0, 0x0, false⟩ /- REEF_TCHG_LO -/,
  ⟨0x230020, 0x4, 1, 0x4, 1, 0x0, 0x0, 0x0, 0x0, 0x0, false⟩ /- REEF_TCHG_HI -/]

/-- Rows of the BC registers (21 R882). -/
def regsBc : List RegRow := [
  ⟨0x240000, 0x4, 1, 0x4, 1, 0x0, 0x0, 0x0, 0x0, 0x0, false⟩ /- BC_STAT -/,
  ⟨0x240004, 0x4, 1, 0x4, 1, 0x0, 0x0, 0xFFFF, 0x0, 0x0, false⟩ /- BC_KEYREQ -/,
  ⟨0x240008, 0x4, 1, 0x4, 1, 0x0, 0xFFFF, 0x0, 0x0, 0x0, false⟩ /- BC_PICPEND -/,
  ⟨0x24000C, 0x4, 1, 0x4, 1, 0x0, 0xFFFF, 0x0, 0x0, 0x0, false⟩ /- BC_ERRPEND -/,
  ⟨0x240010, 0x4, 1, 0x4, 1, 0x0, 0x80000000, 0x0, 0x0, 0x0, false⟩ /- BC_CHK -/,
  ⟨0x240014, 0x4, 1, 0x4, 1, 0x0, 0x0, 0x0, 0x0, 0x0, false⟩ /- BC_CHKCNT -/,
  ⟨0x240018, 0x4, 1, 0x4, 1, 0xFFFF, 0x0, 0x0, 0x0, 0x802, false⟩ /- BC_CAP -/,
  ⟨0x24001C, 0x4, 1, 0x4, 1, 0x0, 0x0, 0x0, 0x0, 0x0, false⟩ /- BC_SWCNT -/,
  ⟨0x241000, 0x100, 16, 0x4, 1, 0x1, 0x0, 0x2, 0x0, 0x0, false⟩ /- BC_CTX_CTL -/,
  ⟨0x241004, 0x100, 16, 0x4, 1, 0x0, 0x2, 0x1, 0x0, 0x0, false⟩ /- BC_CTX_COMMIT -/,
  ⟨0x241008, 0x100, 16, 0x4, 1, 0x0, 0x380, 0x0, 0x0, 0x0, false⟩ /- BC_CTX_STAT -/,
  ⟨0x241010, 0x100, 16, 0x4, 1, 0xFFFEFFC0, 0x0, 0x0, 0x0, 0x0, true⟩ /- BC_CTX_CFG -/,
  ⟨0x241014, 0x100, 16, 0x4, 1, 0xFEFFFFF8, 0x0, 0x0, 0x0, 0xFD0, true⟩ /- BC_CTX_RATE -/,
  ⟨0x241018, 0x100, 16, 0x4, 1, 0xFFFFFFFF, 0x0, 0x0, 0x0, 0x0, true⟩ /- BC_CTX_LIMIT -/,
  ⟨0x24101C, 0x100, 16, 0x4, 1, 0xFFFF, 0x0, 0x0, 0x0, 0x0, true⟩ /- BC_CTX_PGROWS -/,
  ⟨0x241020, 0x100, 16, 0x4, 1, 0xFFFFFFFF, 0x0, 0x0, 0x0, 0x0, true⟩ /- BC_CTX_REFBASE -/,
  ⟨0x241024, 0x100, 16, 0x4, 1, 0xFFFFFFFF, 0x0, 0x0, 0x0, 0x0, true⟩ /- BC_CTX_REFSIZE -/,
  ⟨0x241028, 0x100, 16, 0x4, 1, 0xFFFFFFFF, 0x0, 0x0, 0x0, 0x0, true⟩ /- BC_CTX_IOBASE -/,
  ⟨0x24102C, 0x100, 16, 0x4, 1, 0xFFFFFFFF, 0x0, 0x0, 0x0, 0x0, true⟩ /- BC_CTX_IOSIZE -/,
  ⟨0x241030, 0x100, 16, 0x4, 1, 0xFFFFFFFF, 0x0, 0x0, 0x0, 0x0, false⟩ /- BC_CTX_WP -/,
  ⟨0x241034, 0x100, 16, 0x4, 1, 0x0, 0x0, 0x0, 0x0, 0x0, false⟩ /- BC_CTX_RP -/,
  ⟨0x241038, 0x100, 16, 0x4, 1, 0xFCFFFFFF, 0x0, 0x0, 0x0, 0x0, true⟩ /- BC_CTX_CMP -/,
  ⟨0x24103C, 0x100, 16, 0x4, 1, 0xFFFFFFFF, 0x0, 0x0, 0x0, 0x0, true⟩ /- BC_CTX_MAPBASE -/,
  ⟨0x241040, 0x100, 16, 0x4, 1, 0x0, 0x0, 0x0, 0x0, 0x0, false⟩ /- BC_CTX_PIC -/,
  ⟨0x241044, 0x100, 16, 0x4, 1, 0x0, 0x0, 0x0, 0x0, 0x0, false⟩ /- BC_CTX_BYTES -/,
  ⟨0x241048, 0x100, 16, 0x4, 1, 0x0, 0x0, 0x0, 0x0, 0x0, false⟩ /- BC_CTX_H -/,
  ⟨0x24104C, 0x100, 16, 0x4, 1, 0x0, 0x0, 0x0, 0x0, 0x0, false⟩ /- BC_CTX_PROG -/,
  ⟨0x241050, 0x100, 16, 0x4, 1, 0x0, 0x0, 0x0, 0x0, 0x0, false⟩ /- BC_CTX_ERR -/,
  ⟨0x241054, 0x100, 16, 0x4, 1, 0x0, 0x0, 0x0, 0x0, 0x0, false⟩ /- BC_CTX_CNT -/,
  ⟨0x241058, 0x100, 16, 0x4, 1, 0x0, 0x0, 0x0, 0x0, 0x0, false⟩ /- BC_CTX_CMPRES -/]

/-- Rows of the LN registers (21 R882). -/
def regsLn : List RegRow := [
  ⟨0x300000, 0x4, 1, 0x4, 1, 0xFF1FF3, 0x0, 0x1000000, 0x0, 0x400F30, false⟩ /- LN_CTL -/,
  ⟨0x300004, 0x4, 1, 0x4, 1, 0x0, 0x1000000, 0x0, 0x0, 0x0, false⟩ /- LN_STAT -/,
  ⟨0x300008, 0x4, 1, 0x4, 1, 0x0, 0x0, 0x0, 0x0, 0x0, false⟩ /- LN_CNT -/,
  ⟨0x300100, 0x40, 4, 0x4, 1, 0x16F1, 0x0, 0x6, 0x0, 0x0, false⟩ /- LNL_CTL -/,
  ⟨0x300104, 0x40, 4, 0x4, 1, 0x0, 0x410, 0x0, 0x0, 0x0, false⟩ /- LNL_STAT -/,
  ⟨0x300108, 0x40, 4, 0x4, 1, 0x0, 0x0, 0x0, 0x0, 0x0, false⟩ /- LNL_FOM -/,
  ⟨0x30010C, 0x40, 4, 0x4, 1, 0x0, 0x0, 0x0, 0x0, 0x0, false⟩ /- LNL_TXEQ -/,
  ⟨0x300110, 0x40, 4, 0x4, 3, 0x1F0F, 0x0, 0x0, 0x0, 0x0, false⟩ /- LNL_EQT -/,
  ⟨0x30011C, 0x40, 4, 0x4, 1, 0x0, 0x0, 0x0, 0x0, 0x0, false⟩ /- LNL_ERR -/,
  ⟨0x300120, 0x40, 4, 0x4, 1, 0x0, 0x0, 0x0, 0x0, 0x0, false⟩ /- LNL_SKEW -/]

/-- Rows of the ST registers (21 R882). -/
def regsSt : List RegRow := [
  ⟨0x310000, 0x4, 1, 0x4, 1, 0x7, 0x0, 0x8, 0x0, 0x2, false⟩ /- ST_CTL -/,
  ⟨0x310004, 0x4, 1, 0x4, 1, 0x0, 0xF0, 0x0, 0x0, 0x0, false⟩ /- ST_STAT -/,
  ⟨0x310008, 0x4, 1, 0x4, 1, 0x0, 0x0, 0x0, 0x0, 0x0, false⟩ /- ST_SID -/,
  ⟨0x31000C, 0x4, 1, 0x4, 1, 0xFF, 0x0, 0x0, 0x0, 0x19, false⟩ /- ST_RETRY -/,
  ⟨0x310010, 0x4, 1, 0x4, 1, 0x3FFF, 0x0, 0x0, 0x0, 0xC8, false⟩ /- ST_RDTO -/,
  ⟨0x310014, 0x4, 1, 0x4, 1, 0x3FF, 0x0, 0x0, 0x0, 0x14, false⟩ /- ST_RPLYT -/,
  ⟨0x310018, 0x4, 1, 0x4, 1, 0x0, 0x0, 0x0, 0x0, 0x0, false⟩ /- ST_ADV -/,
  ⟨0x31001C, 0x4, 1, 0x4, 1, 0x0, 0x0, 0x0, 0x0, 0x0, false⟩ /- ST_CRDIMG -/,
  ⟨0x310020, 0x4, 1, 0x4, 1, 0x0, 0x0, 0x0, 0x0, 0x0, false⟩ /- ST_CRDCTL -/,
  ⟨0x310024, 0x4, 1, 0x4, 1, 0x0, 0x0, 0x0, 0x0, 0x0, false⟩ /- ST_RPLY -/,
  ⟨0x310028, 0x4, 1, 0x4, 1, 0x0, 0x0, 0x0, 0x0, 0x40, false⟩ /- ST_TAGS -/,
  ⟨0x31002C, 0x4, 1, 0x4, 1, 0x0, 0x0, 0x0, 0xFFFFFFFF, 0x0, false⟩ /- ST_RDQ -/,
  ⟨0x310030, 0x4, 1, 0x4, 1, 0xFFFFFFFF, 0x0, 0x0, 0x0, 0x0, false⟩ /- ST_RXBASE -/,
  ⟨0x310034, 0x4, 1, 0x4, 1, 0xFFFFFFFF, 0x0, 0x0, 0x0, 0x0, false⟩ /- ST_RXSIZE -/,
  ⟨0x310038, 0x4, 1, 0x4, 1, 0x0, 0x0, 0x0, 0x0, 0x0, false⟩ /- ST_RXWP -/,
  ⟨0x31003C, 0x4, 1, 0x4, 1, 0xFFFFFFFF, 0x0, 0x0, 0x0, 0x0, false⟩ /- ST_RXRP -/,
  ⟨0x310040, 0x4, 1, 0x4, 1, 0x7F, 0x0, 0x0, 0x0, 0x10, false⟩ /- ST_RXADV -/,
  ⟨0x310044, 0x4, 1, 0x4, 1, 0x0, 0x0, 0x0, 0x0, 0x0, false⟩ /- ST_LATE -/,
  ⟨0x310048, 0x4, 1, 0x4, 1, 0x0, 0x0, 0x0, 0x0, 0x0, false⟩ /- ST_BADCPL -/,
  ⟨0x31004C, 0x4, 1, 0x4, 1, 0x0, 0x0, 0x0, 0x0, 0x0, false⟩ /- ST_ERRS -/,
  ⟨0x310050, 0x4, 1, 0x4, 1, 0x0, 0x0, 0x0, 0x0, 0x0, false⟩ /- ST_RPLCNT -/,
  ⟨0x310054, 0x4, 1, 0x4, 1, 0x0, 0x0, 0x0, 0x0, 0x0, false⟩ /- ST_PROTERR -/,
  ⟨0x310060, 0x4, 8, 0x4, 1, 0x0, 0x0, 0x0, 0x0, 0x0, false⟩ /- ST_EMITS -/,
  ⟨0x310100, 0x10, 16, 0x4, 1, 0x0, 0x0, 0x0, 0x0, 0x0, false⟩ /- ST_ACC -/,
  ⟨0x310104, 0x10, 16, 0x4, 1, 0x0, 0x0, 0x0, 0x0, 0x0, false⟩ /- ST_DONE -/,
  ⟨0x310108, 0x10, 16, 0x4, 1, 0x0, 0x0, 0x0, 0x0, 0x0, false⟩ /- ST_LOST -/]

/-- Rows of the BWL registers (21 R882). -/
def regsBwl : List RegRow := [
  ⟨0x320000, 0x4, 1, 0x4, 1, 0xFFFF0007, 0x0, 0x8, 0x0, 0x0, false⟩ /- BWL_CTL -/,
  ⟨0x320004, 0x4, 1, 0x4, 1, 0x0, 0x7800, 0x0, 0x0, 0x0, false⟩ /- BWL_STAT -/,
  ⟨0x320008, 0x4, 1, 0x4, 1, 0x0, 0x0, 0x0, 0x0, 0x0, false⟩ /- BWL_RTT -/,
  ⟨0x32000C, 0x4, 1, 0x4, 1, 0x0, 0x0, 0x0, 0x0, 0x0, false⟩ /- BWL_OFS -/,
  ⟨0x320010, 0x4, 1, 0x4, 1, 0x0, 0x0, 0x0, 0x0, 0x0, false⟩ /- BWL_EVCNT -/,
  ⟨0x320020, 0x4, 8, 0x4, 1, 0x8000001F, 0x0, 0x0, 0x0, 0x0, false⟩ /- BWL_TX -/,
  ⟨0x320040, 0x4, 8, 0x4, 1, 0xF03, 0x0, 0x0, 0x0, 0x0, false⟩ /- BWL_RX -/]

/-- Rows of the SHR registers (21 R882). -/
def regsShr : List RegRow := [
  ⟨0x330000, 0x4, 1, 0x4, 1, 0x33, 0x0, 0x0, 0x0, 0x30, false⟩ /- SHR_CTL -/,
  ⟨0x330004, 0x4, 1, 0x4, 1, 0x0, 0x10000, 0x0, 0x0, 0x0, false⟩ /- SHR_STATUS -/,
  ⟨0x330008, 0x4, 1, 0x4, 1, 0xFFFFFFFF, 0x0, 0x0, 0x0, 0x0, false⟩ /- SHR_HANDLER -/,
  ⟨0x33000C, 0x4, 1, 0x4, 1, 0x0, 0x0, 0x0, 0xFFFFFFFF, 0x0, false⟩ /- SHR_CLEAR -/,
  ⟨0x330010, 0x4, 1, 0x4, 1, 0x0, 0x0, 0x0, 0x0, 0x0, false⟩ /- SHR_REC -/,
  ⟨0x330014, 0x4, 1, 0x4, 1, 0x0, 0x0, 0x0, 0x0, 0x0, false⟩ /- SHR_REC_INFO -/,
  ⟨0x330018, 0x4, 1, 0x4, 1, 0x0, 0x0, 0x0, 0x0, 0x0, false⟩ /- SHR_DET_LO -/,
  ⟨0x33001C, 0x4, 1, 0x4, 1, 0x0, 0x0, 0x0, 0x0, 0x0, false⟩ /- SHR_DET_HI -/,
  ⟨0x330020, 0x4, 1, 0x4, 1, 0x0, 0x0, 0x0, 0x0, 0x0, false⟩ /- SHR_SUS_LO -/,
  ⟨0x330024, 0x4, 1, 0x4, 1, 0x0, 0x0, 0x0, 0x0, 0x0, false⟩ /- SHR_SUS_HI -/,
  ⟨0x330040, 0x4, 8, 0x4, 1, 0x0, 0x0, 0x0, 0x0, 0x0, false⟩ /- SHR_SEC -/,
  ⟨0x330060, 0x4, 1, 0x4, 1, 0x0, 0x0, 0x0, 0x0, 0x0, false⟩ /- SHR_CE -/,
  ⟨0x330064, 0x4, 1, 0x4, 1, 0x0, 0x0, 0x0, 0x0, 0x0, false⟩ /- SHR_CEADDR -/,
  ⟨0x330068, 0x4, 1, 0x4, 1, 0x0, 0x0, 0x0, 0x0, 0x0, false⟩ /- SHR_C13 -/,
  ⟨0x33006C, 0x4, 1, 0x4, 1, 0x0, 0x0, 0x0, 0x0, 0x0, false⟩ /- SHR_FWLOG -/,
  ⟨0x330070, 0x4, 1, 0x4, 1, 0x0, 0x0, 0x0, 0x0, 0x0, false⟩ /- SHR_TEMP -/,
  ⟨0x330074, 0x4, 1, 0x4, 1, 0x70F, 0x0, 0x80000000, 0x0, 0x0, false⟩ /- SHR_INJ -/,
  ⟨0x330080, 0x4, 1, 0x4, 1, 0x0, 0x0, 0x0, 0x0, 0x0, false⟩ /- SHR_SCRUB -/]

/-- Rows of the NV registers (21 R882). -/
def regsNv : List RegRow := [
  ⟨0x340000, 0x4, 1, 0x4, 1, 0x7F00F0, 0x0, 0x1, 0x0, 0x0, false⟩ /- NV_CTL -/,
  ⟨0x340004, 0x4, 1, 0x4, 1, 0x0, 0x100, 0x0, 0x0, 0x0, false⟩ /- NV_STAT -/,
  ⟨0x340008, 0x4, 1, 0x4, 1, 0x3FF, 0x0, 0x0, 0x0, 0x0, false⟩ /- NV_LEN -/,
  ⟨0x34000C, 0x4, 1, 0x4, 1, 0xFF, 0x0, 0x0, 0x0, 0x0, false⟩ /- NV_TAG -/,
  ⟨0x340010, 0x4, 1, 0x4, 1, 0x0, 0x0, 0x0, 0x0, 0x0, false⟩ /- NV_GEN -/,
  ⟨0x340014, 0x4, 1, 0x4, 1, 0x0, 0x0, 0x0, 0x0, 0x0, false⟩ /- NV_WHEN_LO -/,
  ⟨0x340018, 0x4, 1, 0x4, 1, 0x0, 0x0, 0x0, 0x0, 0x0, false⟩ /- NV_WHEN_HI -/,
  ⟨0x34001C, 0x4, 1, 0x4, 1, 0x0, 0x0, 0x0, 0x0, 0x0, false⟩ /- NV_LOGHEAD -/,
  ⟨0x340020, 0x4, 1, 0x4, 1, 0x0, 0x0, 0x0, 0x0, 0x0, false⟩ /- NV_LOGSEQ -/,
  ⟨0x340024, 0x4, 1, 0x4, 1, 0x0, 0x0, 0x0, 0x0, 0x0, false⟩ /- NV_BOOTNO -/,
  ⟨0x340028, 0x4, 1, 0x4, 1, 0x0, 0x0, 0x0, 0x0, 0x0, false⟩ /- NV_CNT -/,
  ⟨0x341000, 0x4, 256, 0x4, 1, 0xFFFFFFFF, 0x0, 0x0, 0x0, 0x0, false⟩ /- NV_BUF -/]

/-- Rows of the CORE registers (21 R882). -/
def regsCore : List RegRow := [
  ⟨0x40C000, 0x10000, 8, 0x4, 1, 0x0, 0x0, 0x0, 0xFF, 0x0, false⟩ /- C_CTL -/,
  ⟨0x40C004, 0x10000, 8, 0x4, 1, 0x0, 0x0, 0x0, 0x0, 0x100, false⟩ /- C_STAT -/,
  ⟨0x40C008, 0x10000, 8, 0x4, 1, 0x0, 0x0, 0x0, 0x0, 0x0, false⟩ /- C_PC -/,
  ⟨0x40C00C, 0x10000, 8, 0x4, 1, 0xFFFFFFFF, 0x0, 0x0, 0x0, 0x0, false⟩ /- C_START -/,
  ⟨0x40C010, 0x10000, 8, 0x4, 1, 0xFFFFFFFF, 0x0, 0x0, 0x0, 0x0, false⟩ /- C_EVT_EN -/,
  ⟨0x40C014, 0x10000, 8, 0x4, 1, 0x0, 0xFFFFFFFF, 0x0, 0x0, 0x0, false⟩ /- C_EVT_PEND -/,
  ⟨0x40C018, 0x10000, 8, 0x4, 1, 0x0, 0xFFFFFFFF, 0x0, 0x0, 0x0, false⟩ /- C_EVT_OVF -/,
  ⟨0x40C01C, 0x10000, 8, 0x4, 1, 0x0, 0x0, 0x0, 0xFFFFFFFF, 0x0, false⟩ /- C_DB -/,
  ⟨0x40C020, 0x10000, 8, 0x4, 1, 0x0, 0x1FF, 0x0, 0x0, 0x0, false⟩ /- C_DB_PEND -/,
  ⟨0x40C024, 0x10000, 8, 0x4, 1, 0x0, 0x0, 0x0, 0x0, 0x0, false⟩ /- C_FAULT_ADDR -/,
  ⟨0x40C040, 0x10000, 8, 0x4, 16, 0x0, 0x0, 0x0, 0x0, 0x0, false⟩ /- C_WREG -/]

/-- Every register of the map (R882). -/
def regTable : List RegRow :=
  regsSys ++ regsClk ++ regsBoot ++ regsHead0 ++ regsHead1 ++ regsAux ++ regsTrg0 ++ regsTrg1 ++ regsHal0 ++ regsHal1 ++ regsReef ++ regsBc ++ regsLn ++ regsSt ++ regsBwl ++ regsShr ++ regsNv ++ regsCore

namespace F
/-- SYS_ID (ch. 21 R876). -/
def SYS_ID_reg : Nat := 0x0
def SYS_ID_PART : Fld := ⟨SYS_ID_reg, 31, 16, false⟩
def SYS_ID_MFR : Fld := ⟨SYS_ID_reg, 15, 8, false⟩
def SYS_ID_UNIT : Fld := ⟨SYS_ID_reg, 2, 0, false⟩
/-- SYS_REV (ch. 21 R877). -/
def SYS_REV_reg : Nat := 0x4
def SYS_REV_ROMVER : Fld := ⟨SYS_REV_reg, 31, 16, false⟩
def SYS_REV_REV : Fld := ⟨SYS_REV_reg, 7, 0, false⟩
/-- SYS_UID_LO (ch. 21 R878). -/
def SYS_UID_LO_reg : Nat := 0x8
def SYS_UID_LO_UID : Fld := ⟨SYS_UID_LO_reg, 31, 0, false⟩
/-- SYS_UID_HI (ch. 21 R878). -/
def SYS_UID_HI_reg : Nat := 0xC
def SYS_UID_HI_UID : Fld := ⟨SYS_UID_HI_reg, 31, 0, false⟩
/-- SYS_TIME_LO (ch. 21 R879). -/
def SYS_TIME_LO_reg : Nat := 0x10
def SYS_TIME_LO_TIME : Fld := ⟨SYS_TIME_LO_reg, 31, 0, false⟩
/-- SYS_TIME_HI (ch. 21 R879). -/
def SYS_TIME_HI_reg : Nat := 0x14
def SYS_TIME_HI_WRAPS : Fld := ⟨SYS_TIME_HI_reg, 31, 16, false⟩
def SYS_TIME_HI_TIME : Fld := ⟨SYS_TIME_HI_reg, 15, 0, false⟩
/-- SYS_RST (ch. 04 R124). -/
def SYS_RST_reg : Nat := 0x20
def SYS_RST_WARM : Fld := ⟨SYS_RST_reg, 7, 0, false⟩
/-- SYS_RST_CFG (ch. 04 R125). -/
def SYS_RST_CFG_reg : Nat := 0x24
def SYS_RST_CFG_KEEP_EN : Fld := ⟨SYS_RST_CFG_reg, 0, 0, false⟩
/-- SYS_RST_CAUSE (ch. 04 R126). -/
def SYS_RST_CAUSE_reg : Nat := 0x28
def SYS_RST_CAUSE_SOFT : Fld := ⟨SYS_RST_CAUSE_reg, 2, 2, true⟩
def SYS_RST_CAUSE_PIN : Fld := ⟨SYS_RST_CAUSE_reg, 1, 1, true⟩
def SYS_RST_CAUSE_POR : Fld := ⟨SYS_RST_CAUSE_reg, 0, 0, true⟩
/-- SYS_IRQ_STAT (ch. 21 R871). -/
def SYS_IRQ_STAT_reg : Nat := 0x30
def SYS_IRQ_STAT_HOSTDB : Fld := ⟨SYS_IRQ_STAT_reg, 15, 8, true⟩
def SYS_IRQ_STAT_CLKLOST : Fld := ⟨SYS_IRQ_STAT_reg, 2, 2, true⟩
def SYS_IRQ_STAT_FAULT : Fld := ⟨SYS_IRQ_STAT_reg, 1, 1, true⟩
def SYS_IRQ_STAT_BOOT : Fld := ⟨SYS_IRQ_STAT_reg, 0, 0, true⟩
/-- SYS_IRQ_EN (ch. 21 R872). -/
def SYS_IRQ_EN_reg : Nat := 0x34
def SYS_IRQ_EN_HOSTDB : Fld := ⟨SYS_IRQ_EN_reg, 15, 8, false⟩
def SYS_IRQ_EN_EN : Fld := ⟨SYS_IRQ_EN_reg, 2, 0, false⟩
/-- SYS_HOSTDB (ch. 21 R874). -/
def SYS_HOSTDB_reg : Nat := 0x38
def SYS_HOSTDB_DB : Fld := ⟨SYS_HOSTDB_reg, 31, 0, false⟩
/-- SYS_CP_STAT (ch. 21 R880). -/
def SYS_CP_STAT_reg : Nat := 0x40
def SYS_CP_STAT_WBFREE : Fld := ⟨SYS_CP_STAT_reg, 20, 16, false⟩
def SYS_CP_STAT_ECCERR : Fld := ⟨SYS_CP_STAT_reg, 11, 11, true⟩
def SYS_CP_STAT_ABORT : Fld := ⟨SYS_CP_STAT_reg, 10, 10, true⟩
def SYS_CP_STAT_CMDERR : Fld := ⟨SYS_CP_STAT_reg, 9, 9, true⟩
def SYS_CP_STAT_ADERR : Fld := ⟨SYS_CP_STAT_reg, 8, 8, true⟩
def SYS_CP_STAT_WDROP : Fld := ⟨SYS_CP_STAT_reg, 7, 7, true⟩
def SYS_CP_STAT_PHASE : Fld := ⟨SYS_CP_STAT_reg, 6, 4, false⟩
def SYS_CP_STAT_IRQ : Fld := ⟨SYS_CP_STAT_reg, 2, 2, false⟩
def SYS_CP_STAT_FAULT : Fld := ⟨SYS_CP_STAT_reg, 1, 1, false⟩
def SYS_CP_STAT_CLKUP : Fld := ⟨SYS_CP_STAT_reg, 0, 0, false⟩
/-- SYS_CP_ERRADDR (ch. 21 R865). -/
def SYS_CP_ERRADDR_reg : Nat := 0x44
def SYS_CP_ERRADDR_ADDR : Fld := ⟨SYS_CP_ERRADDR_reg, 31, 0, false⟩
/-- CLK_STAT (ch. 03 R91). -/
def CLK_STAT_reg : Nat := 0x10000
def CLK_STAT_RELOCK_CNT : Fld := ⟨CLK_STAT_reg, 15, 8, false⟩
def CLK_STAT_LOST : Fld := ⟨CLK_STAT_reg, 3, 3, true⟩
def CLK_STAT_REFSRC : Fld := ⟨CLK_STAT_reg, 2, 2, false⟩
def CLK_STAT_REF_OK : Fld := ⟨CLK_STAT_reg, 1, 1, false⟩
def CLK_STAT_LOCK : Fld := ⟨CLK_STAT_reg, 0, 0, false⟩
/-- CLK_GATE (ch. 03 R92). -/
def CLK_GATE_reg : Nat := 0x10004
def CLK_GATE_BC_EN : Fld := ⟨CLK_GATE_reg, 7, 7, false⟩
def CLK_GATE_AUX_EN : Fld := ⟨CLK_GATE_reg, 6, 6, false⟩
def CLK_GATE_HEAD_EN : Fld := ⟨CLK_GATE_reg, 5, 0, false⟩
/-- CLK_LOSS_TIME_LO (ch. 03 R99). -/
def CLK_LOSS_TIME_LO_reg : Nat := 0x10008
def CLK_LOSS_TIME_LO_TIME : Fld := ⟨CLK_LOSS_TIME_LO_reg, 31, 0, false⟩
/-- CLK_LOSS_TIME_HI (ch. 03 R99). -/
def CLK_LOSS_TIME_HI_reg : Nat := 0x1000C
def CLK_LOSS_TIME_HI_TIME : Fld := ⟨CLK_LOSS_TIME_HI_reg, 15, 0, false⟩
/-- BOOT_CTL (ch. 05 R188). -/
def BOOT_CTL_reg : Nat := 0x20000
def BOOT_CTL_RESTART : Fld := ⟨BOOT_CTL_reg, 0, 0, false⟩
/-- BOOT_STATUS (ch. 05 R191). -/
def BOOT_STATUS_reg : Nat := 0x20004
def BOOT_STATUS_ERR : Fld := ⟨BOOT_STATUS_reg, 23, 16, false⟩
def BOOT_STATUS_PATH : Fld := ⟨BOOT_STATUS_reg, 12, 12, false⟩
def BOOT_STATUS_KEYCHK : Fld := ⟨BOOT_STATUS_reg, 11, 11, false⟩
def BOOT_STATUS_SIGOK : Fld := ⟨BOOT_STATUS_reg, 10, 10, false⟩
def BOOT_STATUS_CRCOK : Fld := ⟨BOOT_STATUS_reg, 9, 9, false⟩
def BOOT_STATUS_OVERRUN : Fld := ⟨BOOT_STATUS_reg, 8, 8, true⟩
def BOOT_STATUS_REFUSED : Fld := ⟨BOOT_STATUS_reg, 7, 7, true⟩
def BOOT_STATUS_PHASE : Fld := ⟨BOOT_STATUS_reg, 2, 0, false⟩
/-- BOOT_COUNT (ch. 05 R189). -/
def BOOT_COUNT_reg : Nat := 0x20008
def BOOT_COUNT_COUNT : Fld := ⟨BOOT_COUNT_reg, 31, 0, false⟩
/-- BOOT_IMG_VER (ch. 05 R190). -/
def BOOT_IMG_VER_reg : Nat := 0x2000C
def BOOT_IMG_VER_VER : Fld := ⟨BOOT_IMG_VER_reg, 31, 0, false⟩
/-- BOOT_FUSE_CFG (ch. 05 R171). -/
def BOOT_FUSE_CFG_reg : Nat := 0x20010
def BOOT_FUSE_CFG_LANE_BOOT_DIS : Fld := ⟨BOOT_FUSE_CFG_reg, 2, 2, false⟩
def BOOT_FUSE_CFG_SIGN_REQ : Fld := ⟨BOOT_FUSE_CFG_reg, 1, 1, false⟩
def BOOT_FUSE_CFG_HASH_SET : Fld := ⟨BOOT_FUSE_CFG_reg, 0, 0, false⟩
/-- BOOT_FUSE_PGM (ch. 05 R173). -/
def BOOT_FUSE_PGM_reg : Nat := 0x20014
def BOOT_FUSE_PGM_KEY : Fld := ⟨BOOT_FUSE_PGM_reg, 31, 24, false⟩
def BOOT_FUSE_PGM_REJ : Fld := ⟨BOOT_FUSE_PGM_reg, 17, 17, false⟩
def BOOT_FUSE_PGM_BUSY : Fld := ⟨BOOT_FUSE_PGM_reg, 16, 16, false⟩
def BOOT_FUSE_PGM_BIT : Fld := ⟨BOOT_FUSE_PGM_reg, 8, 0, false⟩
/-- BOOT_KEYHASH (ch. 05 R171). -/
def BOOT_KEYHASH_reg (i : Nat) : Nat := 0x20020 + 0x4 * i
def BOOT_KEYHASH_HASH (i : Nat) : Fld := ⟨BOOT_KEYHASH_reg i, 31, 0, false⟩
/-- BOOT_ANA (ch. 05 R180). -/
def BOOT_ANA_reg : Nat := 0x20040
def BOOT_ANA_AREF_EN : Fld := ⟨BOOT_ANA_reg, 1, 1, false⟩
def BOOT_ANA_VREF_EN : Fld := ⟨BOOT_ANA_reg, 0, 0, false⟩
/-- BOOT_WIN (ch. 05 R160). -/
def BOOT_WIN_reg (i : Nat) : Nat := 0x28000 + 0x4 * i
def BOOT_WIN_DATA (i : Nat) : Fld := ⟨BOOT_WIN_reg i, 31, 0, false⟩
/-- H_TPG_CTL (ch. 09 R338). -/
def H_TPG_CTL_reg (i : Nat) : Nat := 0x100000 + 0x10000 * i
def H_TPG_CTL_CLRCNT (i : Nat) : Fld := ⟨H_TPG_CTL_reg i, 8, 8, false⟩
def H_TPG_CTL_SHOT (i : Nat) : Fld := ⟨H_TPG_CTL_reg i, 7, 7, false⟩
def H_TPG_CTL_RUN (i : Nat) : Fld := ⟨H_TPG_CTL_reg i, 0, 0, false⟩
/-- H_COMMIT (ch. 06 R227). -/
def H_COMMIT_reg (i : Nat) : Nat := 0x100004 + 0x10000 * i
def H_COMMIT_MISSED (i : Nat) : Fld := ⟨H_COMMIT_reg i, 1, 1, true⟩
def H_COMMIT_GO (i : Nat) : Fld := ⟨H_COMMIT_reg i, 0, 0, false⟩
/-- H_TPG_STAT (ch. 09 R345). -/
def H_TPG_STAT_reg (i : Nat) : Nat := 0x100008 + 0x10000 * i
def H_TPG_STAT_PATERR (i : Nat) : Fld := ⟨H_TPG_STAT_reg i, 7, 4, false⟩
def H_TPG_STAT_HELD (i : Nat) : Fld := ⟨H_TPG_STAT_reg i, 2, 2, false⟩
def H_TPG_STAT_BUSY (i : Nat) : Fld := ⟨H_TPG_STAT_reg i, 1, 1, false⟩
def H_TPG_STAT_IDLE (i : Nat) : Fld := ⟨H_TPG_STAT_reg i, 0, 0, false⟩
/-- H_TPG_CNT (ch. 09 R346). -/
def H_TPG_CNT_reg (i : Nat) : Nat := 0x10000C + 0x10000 * i
def H_TPG_CNT_DROP (i : Nat) : Fld := ⟨H_TPG_CNT_reg i, 31, 16, false⟩
def H_TPG_CNT_LATE (i : Nat) : Fld := ⟨H_TPG_CNT_reg i, 15, 0, false⟩
/-- H_TPG_LINE (ch. 09 R339). -/
def H_TPG_LINE_reg (i : Nat) : Nat := 0x100010 + 0x10000 * i
def H_TPG_LINE_DARK (i : Nat) : Fld := ⟨H_TPG_LINE_reg i, 29, 24, false⟩
def H_TPG_LINE_NPIX (i : Nat) : Fld := ⟨H_TPG_LINE_reg i, 14, 0, false⟩
/-- H_TPG_SYNC (ch. 09 R340). -/
def H_TPG_SYNC_reg (i : Nat) : Nat := 0x100014 + 0x10000 * i
def H_TPG_SYNC_SRC (i : Nat) : Fld := ⟨H_TPG_SYNC_reg i, 31, 30, false⟩
def H_TPG_SYNC_PERIOD (i : Nat) : Fld := ⟨H_TPG_SYNC_reg i, 21, 0, false⟩
/-- H_TPG_FIELDS (ch. 09 R341). -/
def H_TPG_FIELDS_reg (i : Nat) : Nat := 0x100018 + 0x10000 * i
def H_TPG_FIELDS_IDLE_SH (i : Nat) : Fld := ⟨H_TPG_FIELDS_reg i, 16, 16, false⟩
def H_TPG_FIELDS_IDLE (i : Nat) : Fld := ⟨H_TPG_FIELDS_reg i, 15, 8, false⟩
def H_TPG_FIELDS_NFLD (i : Nat) : Fld := ⟨H_TPG_FIELDS_reg i, 1, 0, false⟩
/-- H_TPG_FLD_EXPS (ch. 09 R342). -/
def H_TPG_FLD_EXPS_reg (i j : Nat) : Nat := 0x100040 + 0x10000 * i + 0x10 * j
def H_TPG_FLD_EXPS_EXPS (i j : Nat) : Fld := ⟨H_TPG_FLD_EXPS_reg i j, 21, 0, false⟩
/-- H_TPG_FLD_EXPE (ch. 09 R342). -/
def H_TPG_FLD_EXPE_reg (i j : Nat) : Nat := 0x100044 + 0x10000 * i + 0x10 * j
def H_TPG_FLD_EXPE_ROW (i j : Nat) : Fld := ⟨H_TPG_FLD_EXPE_reg i j, 25, 24, false⟩
def H_TPG_FLD_EXPE_EXPE (i j : Nat) : Fld := ⟨H_TPG_FLD_EXPE_reg i j, 21, 0, false⟩
/-- H_TPG_FLD_RD (ch. 09 R342). -/
def H_TPG_FLD_RD_reg (i j : Nat) : Nat := 0x100048 + 0x10000 * i + 0x10 * j
def H_TPG_FLD_RD_RD (i j : Nat) : Fld := ⟨H_TPG_FLD_RD_reg i j, 17, 0, false⟩
/-- H_TPG_PHCFG (ch. 09 R343). -/
def H_TPG_PHCFG_reg (i j : Nat) : Nat := 0x100080 + 0x10000 * i + 0x4 * j
def H_TPG_PHCFG_PRE (i j : Nat) : Fld := ⟨H_TPG_PHCFG_reg i j, 19, 16, false⟩
def H_TPG_PHCFG_FALL (i j : Nat) : Fld := ⟨H_TPG_PHCFG_reg i j, 15, 12, false⟩
def H_TPG_PHCFG_RISE (i j : Nat) : Fld := ⟨H_TPG_PHCFG_reg i j, 11, 8, false⟩
def H_TPG_PHCFG_DRIVE (i j : Nat) : Fld := ⟨H_TPG_PHCFG_reg i j, 3, 2, false⟩
def H_TPG_PHCFG_MODE (i j : Nat) : Fld := ⟨H_TPG_PHCFG_reg i j, 1, 0, false⟩
/-- H_TPG_PLEN (ch. 09 R347). -/
def H_TPG_PLEN_reg (i : Nat) : Nat := 0x1000A0 + 0x10000 * i
def H_TPG_PLEN_P (i : Nat) : Fld := ⟨H_TPG_PLEN_reg i, 22, 0, false⟩
/-- H_TPG_EDGE (ch. 09 R344). -/
def H_TPG_EDGE_reg (i j : Nat) : Nat := 0x100100 + 0x10000 * i + 0x4 * j
def H_TPG_EDGE_EN (i j : Nat) : Fld := ⟨H_TPG_EDGE_reg i j, 31, 31, false⟩
def H_TPG_EDGE_OUT (i j : Nat) : Fld := ⟨H_TPG_EDGE_reg i j, 27, 24, false⟩
def H_TPG_EDGE_LEVEL (i j : Nat) : Fld := ⟨H_TPG_EDGE_reg i j, 23, 23, false⟩
def H_TPG_EDGE_OFFSET (i j : Nat) : Fld := ⟨H_TPG_EDGE_reg i j, 21, 0, false⟩
/-- H_AFE_CFG (ch. 10 R373). -/
def H_AFE_CFG_reg (i : Nat) : Nat := 0x100400 + 0x10000 * i
def H_AFE_CFG_SIGPOS (i : Nat) : Fld := ⟨H_AFE_CFG_reg i, 15, 12, false⟩
def H_AFE_CFG_RSTPOS (i : Nat) : Fld := ⟨H_AFE_CFG_reg i, 11, 8, false⟩
def H_AFE_CFG_POL (i : Nat) : Fld := ⟨H_AFE_CFG_reg i, 5, 5, false⟩
def H_AFE_CFG_MODE (i : Nat) : Fld := ⟨H_AFE_CFG_reg i, 4, 4, false⟩
def H_AFE_CFG_GAIN (i : Nat) : Fld := ⟨H_AFE_CFG_reg i, 2, 0, false⟩
/-- H_AFE_OFS (ch. 10 R375). -/
def H_AFE_OFS_reg (i : Nat) : Nat := 0x100404 + 0x10000 * i
def H_AFE_OFS_OFS (i : Nat) : Fld := ⟨H_AFE_OFS_reg i, 9, 0, false⟩
/-- H_VADC_CTL (ch. 10 R376). -/
def H_VADC_CTL_reg (i : Nat) : Nat := 0x100500 + 0x10000 * i
def H_VADC_CTL_SWEEP (i : Nat) : Fld := ⟨H_VADC_CTL_reg i, 1, 1, false⟩
def H_VADC_CTL_CAL (i : Nat) : Fld := ⟨H_VADC_CTL_reg i, 0, 0, false⟩
/-- H_VADC_STAT (ch. 10 R377). -/
def H_VADC_STAT_reg (i : Nat) : Nat := 0x100504 + 0x10000 * i
def H_VADC_STAT_SWPABT (i : Nat) : Fld := ⟨H_VADC_STAT_reg i, 15, 15, true⟩
def H_VADC_STAT_CALSTALE (i : Nat) : Fld := ⟨H_VADC_STAT_reg i, 14, 14, false⟩
def H_VADC_STAT_CALVALID (i : Nat) : Fld := ⟨H_VADC_STAT_reg i, 13, 13, false⟩
def H_VADC_STAT_CALST (i : Nat) : Fld := ⟨H_VADC_STAT_reg i, 12, 10, false⟩
def H_VADC_STAT_DUPFAIL (i : Nat) : Fld := ⟨H_VADC_STAT_reg i, 7, 7, true⟩
def H_VADC_STAT_DKFAIL (i : Nat) : Fld := ⟨H_VADC_STAT_reg i, 6, 6, true⟩
def H_VADC_STAT_LVLFAIL (i : Nat) : Fld := ⟨H_VADC_STAT_reg i, 5, 5, true⟩
def H_VADC_STAT_FAILFLD (i : Nat) : Fld := ⟨H_VADC_STAT_reg i, 1, 0, false⟩
/-- H_VADC_CHK (ch. 10 R378). -/
def H_VADC_CHK_reg (i : Nat) : Nat := 0x100508 + 0x10000 * i
def H_VADC_CHK_TOL (i : Nat) : Fld := ⟨H_VADC_CHK_reg i, 8, 0, false⟩
/-- H_VADC_DKWIN (ch. 10 R379). -/
def H_VADC_DKWIN_reg (i : Nat) : Nat := 0x10050C + 0x10000 * i
def H_VADC_DKWIN_DKHI (i : Nat) : Fld := ⟨H_VADC_DKWIN_reg i, 29, 16, false⟩
def H_VADC_DKWIN_DKLO (i : Nat) : Fld := ⟨H_VADC_DKWIN_reg i, 13, 0, false⟩
/-- H_VADC_OVR (ch. 10 R372). -/
def H_VADC_OVR_reg (i : Nat) : Nat := 0x100510 + 0x10000 * i
def H_VADC_OVR_OVR (i : Nat) : Fld := ⟨H_VADC_OVR_reg i, 15, 0, false⟩
/-- H_VADC_DARK (ch. 10 R380). -/
def H_VADC_DARK_reg (i j : Nat) : Nat := 0x100520 + 0x10000 * i + 0x4 * j
def H_VADC_DARK_M (i j : Nat) : Fld := ⟨H_VADC_DARK_reg i j, 18, 16, false⟩
def H_VADC_DARK_DMEAN (i j : Nat) : Fld := ⟨H_VADC_DARK_reg i j, 13, 0, false⟩
/-- H_VADC_TST (ch. 10 R380). -/
def H_VADC_TST_reg (i j : Nat) : Nat := 0x100540 + 0x10000 * i + 0x4 * j
def H_VADC_TST_DEV (i j : Nat) : Fld := ⟨H_VADC_TST_reg i j, 31, 16, false⟩
def H_VADC_TST_SKIP (i j : Nat) : Fld := ⟨H_VADC_TST_reg i j, 15, 15, false⟩
def H_VADC_TST_CODE (i j : Nat) : Fld := ⟨H_VADC_TST_reg i j, 13, 0, false⟩
/-- H_VADC_SWP (ch. 10 R380). -/
def H_VADC_SWP_reg (i j : Nat) : Nat := 0x100580 + 0x10000 * i + 0x4 * j
def H_VADC_SWP_SUM (i j : Nat) : Fld := ⟨H_VADC_SWP_reg i j, 31, 0, false⟩
/-- H_VADC_FACT (ch. 10 R380). -/
def H_VADC_FACT_reg (i j : Nat) : Nat := 0x1005C0 + 0x10000 * i + 0x4 * j
def H_VADC_FACT_FACT (i j : Nat) : Fld := ⟨H_VADC_FACT_reg i j, 31, 0, false⟩
/-- H_SHD_CFG (ch. 11 R412). -/
def H_SHD_CFG_reg (i : Nat) : Nat := 0x100600 + 0x10000 * i
def H_SHD_CFG_FMT (i : Nat) : Fld := ⟨H_SHD_CFG_reg i, 3, 2, false⟩
def H_SHD_CFG_BANK (i : Nat) : Fld := ⟨H_SHD_CFG_reg i, 1, 1, false⟩
def H_SHD_CFG_BYPASS (i : Nat) : Fld := ⟨H_SHD_CFG_reg i, 0, 0, false⟩
/-- H_SHD_STAT (ch. 11 R414). -/
def H_SHD_STAT_reg (i : Nat) : Nat := 0x100604 + 0x10000 * i
def H_SHD_STAT_REFST (i : Nat) : Fld := ⟨H_SHD_STAT_reg i, 15, 13, false⟩
def H_SHD_STAT_REFWHY (i : Nat) : Fld := ⟨H_SHD_STAT_reg i, 12, 10, false⟩
def H_SHD_STAT_PDROP (i : Nat) : Fld := ⟨H_SHD_STAT_reg i, 8, 8, true⟩
def H_SHD_STAT_ACTBANK (i : Nat) : Fld := ⟨H_SHD_STAT_reg i, 1, 1, false⟩
def H_SHD_STAT_ACTBYP (i : Nat) : Fld := ⟨H_SHD_STAT_reg i, 0, 0, false⟩
/-- H_SHD_REF (ch. 11 R418). -/
def H_SHD_REF_reg (i : Nat) : Nat := 0x100608 + 0x10000 * i
def H_SHD_REF_K (i : Nat) : Fld := ⟨H_SHD_REF_reg i, 11, 8, false⟩
def H_SHD_REF_TBANK (i : Nat) : Fld := ⟨H_SHD_REF_reg i, 5, 5, false⟩
def H_SHD_REF_KIND (i : Nat) : Fld := ⟨H_SHD_REF_reg i, 4, 4, false⟩
def H_SHD_REF_GO (i : Nat) : Fld := ⟨H_SHD_REF_reg i, 0, 0, false⟩
/-- H_SHD_REFTGT (ch. 11 R418). -/
def H_SHD_REFTGT_reg (i : Nat) : Nat := 0x10060C + 0x10000 * i
def H_SHD_REFTGT_WTARGET (i : Nat) : Fld := ⟨H_SHD_REFTGT_reg i, 15, 0, false⟩
/-- H_SHD_PADDR (ch. 11 R415). -/
def H_SHD_PADDR_reg (i : Nat) : Nat := 0x100610 + 0x10000 * i
def H_SHD_PADDR_BANK (i : Nat) : Fld := ⟨H_SHD_PADDR_reg i, 20, 20, false⟩
def H_SHD_PADDR_PLANE (i : Nat) : Fld := ⟨H_SHD_PADDR_reg i, 19, 18, false⟩
def H_SHD_PADDR_AREA (i : Nat) : Fld := ⟨H_SHD_PADDR_reg i, 17, 17, false⟩
def H_SHD_PADDR_INDEX (i : Nat) : Fld := ⟨H_SHD_PADDR_reg i, 14, 0, false⟩
/-- H_SHD_PDATA (ch. 11 R415). -/
def H_SHD_PDATA_reg (i : Nat) : Nat := 0x100614 + 0x10000 * i
def H_SHD_PDATA_DATA (i : Nat) : Fld := ⟨H_SHD_PDATA_reg i, 31, 0, false⟩
/-- H_SHD_BLEN (ch. 11 R417). -/
def H_SHD_BLEN_reg (i j : Nat) : Nat := 0x100618 + 0x10000 * i + 0x4 * j
def H_SHD_BLEN_LEN (i j : Nat) : Fld := ⟨H_SHD_BLEN_reg i j, 14, 0, false⟩
/-- H_SHD_CLIP (ch. 11 R406). -/
def H_SHD_CLIP_reg (i : Nat) : Nat := 0x100620 + 0x10000 * i
def H_SHD_CLIP_HI (i : Nat) : Fld := ⟨H_SHD_CLIP_reg i, 31, 16, false⟩
def H_SHD_CLIP_LO (i : Nat) : Fld := ⟨H_SHD_CLIP_reg i, 15, 0, false⟩
/-- H_SHD_RUNRES (ch. 11 R421). -/
def H_SHD_RUNRES_reg (i : Nat) : Nat := 0x100624 + 0x10000 * i
def H_SHD_RUNRES_GSAT (i : Nat) : Fld := ⟨H_SHD_RUNRES_reg i, 31, 16, false⟩
def H_SHD_RUNRES_GZERO (i : Nat) : Fld := ⟨H_SHD_RUNRES_reg i, 15, 0, false⟩
/-- H_SHD_GRANGE (ch. 11 R421). -/
def H_SHD_GRANGE_reg (i : Nat) : Nat := 0x100628 + 0x10000 * i
def H_SHD_GRANGE_GMAX (i : Nat) : Fld := ⟨H_SHD_GRANGE_reg i, 31, 16, false⟩
def H_SHD_GRANGE_GMIN (i : Nat) : Fld := ⟨H_SHD_GRANGE_reg i, 15, 0, false⟩
/-- H_SHD_REFCLIP (ch. 11 R422). -/
def H_SHD_REFCLIP_reg (i : Nat) : Nat := 0x10062C + 0x10000 * i
def H_SHD_REFCLIP_N (i : Nat) : Fld := ⟨H_SHD_REFCLIP_reg i, 31, 0, false⟩
/-- H_SHD_WIT (ch. 11 R427). -/
def H_SHD_WIT_reg (i j : Nat) : Nat := 0x100630 + 0x10000 * i + 0x4 * j
def H_SHD_WIT_MEAN (i j : Nat) : Fld := ⟨H_SHD_WIT_reg i j, 31, 0, false⟩
/-- H_SHD_WPROF (ch. 11 R426). -/
def H_SHD_WPROF_reg (i j : Nat) : Nat := 0x100700 + 0x10000 * i + 0x4 * j
def H_SHD_WPROF_W (i j : Nat) : Fld := ⟨H_SHD_WPROF_reg i j, 31, 0, false⟩
/-- H_ILL_CTL (ch. 12 R432). -/
def H_ILL_CTL_reg (i : Nat) : Nat := 0x100800 + 0x10000 * i
def H_ILL_CTL_SHMODE (i : Nat) : Fld := ⟨H_ILL_CTL_reg i, 13, 13, false⟩
def H_ILL_CTL_CASN (i : Nat) : Fld := ⟨H_ILL_CTL_reg i, 12, 8, false⟩
def H_ILL_CTL_CASGO (i : Nat) : Fld := ⟨H_ILL_CTL_reg i, 7, 7, false⟩
def H_ILL_CTL_STEST (i : Nat) : Fld := ⟨H_ILL_CTL_reg i, 6, 6, false⟩
def H_ILL_CTL_SHAPE (i : Nat) : Fld := ⟨H_ILL_CTL_reg i, 5, 5, false⟩
def H_ILL_CTL_SWAP (i : Nat) : Fld := ⟨H_ILL_CTL_reg i, 4, 4, false⟩
def H_ILL_CTL_SWCAN (i : Nat) : Fld := ⟨H_ILL_CTL_reg i, 3, 3, false⟩
def H_ILL_CTL_EN (i : Nat) : Fld := ⟨H_ILL_CTL_reg i, 0, 0, false⟩
/-- H_ILL_STAT (ch. 12 R433). -/
def H_ILL_STAT_reg (i : Nat) : Nat := 0x100804 + 0x10000 * i
def H_ILL_STAT_REEFREQ (i : Nat) : Fld := ⟨H_ILL_STAT_reg i, 31, 28, false⟩
def H_ILL_STAT_HOTCUT (i : Nat) : Fld := ⟨H_ILL_STAT_reg i, 27, 27, false⟩
def H_ILL_STAT_TSTALE (i : Nat) : Fld := ⟨H_ILL_STAT_reg i, 26, 26, false⟩
def H_ILL_STAT_BRDY (i : Nat) : Fld := ⟨H_ILL_STAT_reg i, 25, 25, false⟩
def H_ILL_STAT_STBUSY (i : Nat) : Fld := ⟨H_ILL_STAT_reg i, 24, 24, false⟩
def H_ILL_STAT_CASLATE (i : Nat) : Fld := ⟨H_ILL_STAT_reg i, 20, 20, true⟩
def H_ILL_STAT_STREF (i : Nat) : Fld := ⟨H_ILL_STAT_reg i, 19, 19, true⟩
def H_ILL_STAT_SHREF (i : Nat) : Fld := ⟨H_ILL_STAT_reg i, 18, 18, true⟩
def H_ILL_STAT_FDROP (i : Nat) : Fld := ⟨H_ILL_STAT_reg i, 17, 17, true⟩
def H_ILL_STAT_KLIM (i : Nat) : Fld := ⟨H_ILL_STAT_reg i, 16, 16, true⟩
def H_ILL_STAT_BLOW (i : Nat) : Fld := ⟨H_ILL_STAT_reg i, 15, 15, true⟩
def H_ILL_STAT_STDONE (i : Nat) : Fld := ⟨H_ILL_STAT_reg i, 1, 1, true⟩
def H_ILL_STAT_SHDONE (i : Nat) : Fld := ⟨H_ILL_STAT_reg i, 0, 0, true⟩
/-- H_ILL_CFG (ch. 12 R434). -/
def H_ILL_CFG_reg (i : Nat) : Nat := 0x100808 + 0x10000 * i
def H_ILL_CFG_HR (i : Nat) : Fld := ⟨H_ILL_CFG_reg i, 31, 24, false⟩
def H_ILL_CFG_SHV (i : Nat) : Fld := ⟨H_ILL_CFG_reg i, 21, 16, false⟩
def H_ILL_CFG_CASTB (i : Nat) : Fld := ⟨H_ILL_CFG_reg i, 13, 12, false⟩
def H_ILL_CFG_CASEN (i : Nat) : Fld := ⟨H_ILL_CFG_reg i, 8, 8, false⟩
def H_ILL_CFG_SWSRC (i : Nat) : Fld := ⟨H_ILL_CFG_reg i, 4, 4, false⟩
def H_ILL_CFG_SPREAD (i : Nat) : Fld := ⟨H_ILL_CFG_reg i, 2, 0, false⟩
/-- H_ILL_ROW (ch. 12 R435). -/
def H_ILL_ROW_reg (i j : Nat) : Nat := 0x100810 + 0x10000 * i + 0x4 * j
def H_ILL_ROW_VINIT (i j : Nat) : Fld := ⟨H_ILL_ROW_reg i j, 25, 16, false⟩
def H_ILL_ROW_KMODE (i j : Nat) : Fld := ⟨H_ILL_ROW_reg i j, 9, 8, false⟩
def H_ILL_ROW_CUR (i j : Nat) : Fld := ⟨H_ILL_ROW_reg i j, 7, 0, false⟩
/-- H_ILL_KT (ch. 12 R457). -/
def H_ILL_KT_reg (i j : Nat) : Nat := 0x100820 + 0x10000 * i + 0x4 * j
def H_ILL_KT_ALPHA (i j : Nat) : Fld := ⟨H_ILL_KT_reg i j, 31, 16, false⟩
def H_ILL_KT_T0 (i j : Nat) : Fld := ⟨H_ILL_KT_reg i j, 15, 0, false⟩
/-- H_ILL_KL (ch. 12 R458). -/
def H_ILL_KL_reg (i j : Nat) : Nat := 0x100830 + 0x10000 * i + 0x4 * j
def H_ILL_KL_LGAIN (i j : Nat) : Fld := ⟨H_ILL_KL_reg i j, 31, 24, false⟩
def H_ILL_KL_WREF (i j : Nat) : Fld := ⟨H_ILL_KL_reg i j, 16, 0, false⟩
/-- H_ILL_KLIM (ch. 12 R436). -/
def H_ILL_KLIM_reg (i : Nat) : Nat := 0x100840 + 0x10000 * i
def H_ILL_KLIM_KMAX (i : Nat) : Fld := ⟨H_ILL_KLIM_reg i, 31, 16, false⟩
def H_ILL_KLIM_KMIN (i : Nat) : Fld := ⟨H_ILL_KLIM_reg i, 15, 0, false⟩
/-- H_ILL_SENS (ch. 12 R457). -/
def H_ILL_SENS_reg (i : Nat) : Nat := 0x100844 + 0x10000 * i
def H_ILL_SENS_HEN (i : Nat) : Fld := ⟨H_ILL_SENS_reg i, 31, 31, false⟩
def H_ILL_SENS_HCONV (i : Nat) : Fld := ⟨H_ILL_SENS_reg i, 29, 29, false⟩
def H_ILL_SENS_HENT (i : Nat) : Fld := ⟨H_ILL_SENS_reg i, 28, 24, false⟩
def H_ILL_SENS_TEN (i : Nat) : Fld := ⟨H_ILL_SENS_reg i, 15, 15, false⟩
def H_ILL_SENS_TCONV (i : Nat) : Fld := ⟨H_ILL_SENS_reg i, 13, 13, false⟩
def H_ILL_SENS_TENT (i : Nat) : Fld := ⟨H_ILL_SENS_reg i, 12, 8, false⟩
/-- H_ILL_DRT (ch. 12 R460). -/
def H_ILL_DRT_reg (i : Nat) : Nat := 0x100848 + 0x10000 * i
def H_ILL_DRT_DCUT (i : Nat) : Fld := ⟨H_ILL_DRT_reg i, 31, 24, false⟩
def H_ILL_DRT_DSTEP (i : Nat) : Fld := ⟨H_ILL_DRT_reg i, 19, 16, false⟩
def H_ILL_DRT_DSTART (i : Nat) : Fld := ⟨H_ILL_DRT_reg i, 7, 0, false⟩
/-- H_ILL_K (ch. 12 R456). -/
def H_ILL_K_reg (i j : Nat) : Nat := 0x100850 + 0x10000 * i + 0x4 * j
def H_ILL_K_K (i j : Nat) : Fld := ⟨H_ILL_K_reg i j, 15, 0, false⟩
/-- H_ILL_VSET (ch. 12 R451). -/
def H_ILL_VSET_reg (i j : Nat) : Nat := 0x100860 + 0x10000 * i + 0x4 * j
def H_ILL_VSET_V (i j : Nat) : Fld := ⟨H_ILL_VSET_reg i j, 9, 0, false⟩
/-- H_ILL_FLT (ch. 12 R463). -/
def H_ILL_FLT_reg (i : Nat) : Nat := 0x100870 + 0x10000 * i
def H_ILL_FLT_VALID (i : Nat) : Fld := ⟨H_ILL_FLT_reg i, 31, 31, false⟩
def H_ILL_FLT_KIND (i : Nat) : Fld := ⟨H_ILL_FLT_reg i, 26, 24, false⟩
def H_ILL_FLT_ROW (i : Nat) : Fld := ⟨H_ILL_FLT_reg i, 21, 20, false⟩
def H_ILL_FLT_SEG (i : Nat) : Fld := ⟨H_ILL_FLT_reg i, 19, 16, false⟩
/-- H_ILL_SHORT (ch. 12 R465). -/
def H_ILL_SHORT_reg (i : Nat) : Nat := 0x100874 + 0x10000 * i
def H_ILL_SHORT_PAIRS (i : Nat) : Fld := ⟨H_ILL_SHORT_reg i, 18, 0, false⟩
/-- H_ILL_SHCLIP (ch. 12 R455). -/
def H_ILL_SHCLIP_reg (i : Nat) : Nat := 0x100878 + 0x10000 * i
def H_ILL_SHCLIP_N (i : Nat) : Fld := ⟨H_ILL_SHCLIP_reg i, 6, 0, false⟩
/-- H_ILL_FRMW (ch. 12 R437). -/
def H_ILL_FRMW_reg (i j : Nat) : Nat := 0x100900 + 0x10000 * i + 0x4 * j
def H_ILL_FRMW_I (i j : Nat) : Fld := ⟨H_ILL_FRMW_reg i j, 11, 0, false⟩
/-- H_ILL_FRMA (ch. 12 R437). -/
def H_ILL_FRMA_reg (i j : Nat) : Nat := 0x100A00 + 0x10000 * i + 0x4 * j
def H_ILL_FRMA_I (i j : Nat) : Fld := ⟨H_ILL_FRMA_reg i j, 11, 0, false⟩
/-- H_ILL_CASL (ch. 12 R477). -/
def H_ILL_CASL_reg (i j : Nat) : Nat := 0x100B00 + 0x10000 * i + 0x8 * j
def H_ILL_CASL_SHARE (i j : Nat) : Fld := ⟨H_ILL_CASL_reg i j, 31, 0, false⟩
/-- H_ILL_CASH (ch. 12 R477). -/
def H_ILL_CASH_reg (i j : Nat) : Nat := 0x100B04 + 0x10000 * i + 0x8 * j
def H_ILL_CASH_SHARE (i j : Nat) : Fld := ⟨H_ILL_CASH_reg i j, 15, 0, false⟩
/-- AUX_CTL (ch. 13 R495). -/
def AUX_CTL_reg : Nat := 0x200000
def AUX_CTL_CAL : Fld := ⟨AUX_CTL_reg, 0, 0, false⟩
/-- AUX_STAT (ch. 13 R500). -/
def AUX_STAT_reg : Nat := 0x200004
def AUX_STAT_CALST : Fld := ⟨AUX_STAT_reg, 31, 29, false⟩
def AUX_STAT_REFRDY : Fld := ⟨AUX_STAT_reg, 28, 28, false⟩
def AUX_STAT_XARMED : Fld := ⟨AUX_STAT_reg, 27, 27, false⟩
def AUX_STAT_XCONF : Fld := ⟨AUX_STAT_reg, 8, 8, true⟩
def AUX_STAT_RUNSHORT : Fld := ⟨AUX_STAT_reg, 7, 7, true⟩
def AUX_STAT_CURVERR : Fld := ⟨AUX_STAT_reg, 6, 6, true⟩
def AUX_STAT_XOLD : Fld := ⟨AUX_STAT_reg, 5, 5, true⟩
def AUX_STAT_XLATE : Fld := ⟨AUX_STAT_reg, 4, 4, true⟩
def AUX_STAT_XFAIL : Fld := ⟨AUX_STAT_reg, 3, 3, true⟩
def AUX_STAT_CALDONE : Fld := ⟨AUX_STAT_reg, 0, 0, true⟩
/-- AUX_CFG (ch. 13 R483). -/
def AUX_CFG_reg : Nat := 0x200008
def AUX_CFG_REFSEL : Fld := ⟨AUX_CFG_reg, 31, 30, false⟩
def AUX_CFG_REFOUT : Fld := ⟨AUX_CFG_reg, 29, 29, false⟩
def AUX_CFG_REFMV : Fld := ⟨AUX_CFG_reg, 26, 16, false⟩
def AUX_CFG_COMEN : Fld := ⟨AUX_CFG_reg, 4, 4, false⟩
def AUX_CFG_COM : Fld := ⟨AUX_CFG_reg, 3, 0, false⟩
/-- AUX_EXC0 (ch. 13 R484). -/
def AUX_EXC0_reg : Nat := 0x200010
def AUX_EXC0_EN : Fld := ⟨AUX_EXC0_reg, 31, 31, false⟩
def AUX_EXC0_STEEREN : Fld := ⟨AUX_EXC0_reg, 30, 30, false⟩
def AUX_EXC0_STEERC : Fld := ⟨AUX_EXC0_reg, 29, 29, false⟩
def AUX_EXC0_LEVEL : Fld := ⟨AUX_EXC0_reg, 19, 16, false⟩
def AUX_EXC0_PIN : Fld := ⟨AUX_EXC0_reg, 11, 8, false⟩
def AUX_EXC0_SHV : Fld := ⟨AUX_EXC0_reg, 7, 0, false⟩
/-- AUX_EXC1 (ch. 13 R484). -/
def AUX_EXC1_reg : Nat := 0x200014
def AUX_EXC1_EN : Fld := ⟨AUX_EXC1_reg, 31, 31, false⟩
def AUX_EXC1_LEVEL : Fld := ⟨AUX_EXC1_reg, 19, 16, false⟩
def AUX_EXC1_PIN : Fld := ⟨AUX_EXC1_reg, 11, 8, false⟩
def AUX_EXC1_SHV : Fld := ⟨AUX_EXC1_reg, 7, 0, false⟩
/-- AUX_VEX (ch. 13 R486). -/
def AUX_VEX_reg : Nat := 0x200018
def AUX_VEX_EN : Fld := ⟨AUX_VEX_reg, 31, 31, false⟩
def AUX_VEX_LVL : Fld := ⟨AUX_VEX_reg, 16, 16, false⟩
def AUX_VEX_PIN : Fld := ⟨AUX_VEX_reg, 11, 8, false⟩
def AUX_VEX_OPENI : Fld := ⟨AUX_VEX_reg, 7, 0, false⟩
/-- AUX_BIAS (ch. 13 R486). -/
def AUX_BIAS_reg : Nat := 0x20001C
def AUX_BIAS_MASK : Fld := ⟨AUX_BIAS_reg, 15, 0, false⟩
/-- AUX_EXCSTAT (ch. 13 R490). -/
def AUX_EXCSTAT_reg : Nat := 0x200020
def AUX_EXCSTAT_FAULTS : Fld := ⟨AUX_EXCSTAT_reg, 5, 0, true⟩
/-- AUX_BLK (ch. 13 R509). -/
def AUX_BLK_reg : Nat := 0x200024
def AUX_BLK_BEN : Fld := ⟨AUX_BLK_reg, 31, 31, false⟩
def AUX_BLK_AX1 : Fld := ⟨AUX_BLK_reg, 30, 30, false⟩
def AUX_BLK_AX0 : Fld := ⟨AUX_BLK_reg, 29, 29, false⟩
def AUX_BLK_PINEN : Fld := ⟨AUX_BLK_reg, 16, 16, false⟩
def AUX_BLK_BLKW : Fld := ⟨AUX_BLK_reg, 9, 0, false⟩
/-- AUX_XCHK (ch. 13 R529). -/
def AUX_XCHK_reg : Nat := 0x200028
def AUX_XCHK_XEN : Fld := ⟨AUX_XCHK_reg, 31, 31, false⟩
def AUX_XCHK_XB : Fld := ⟨AUX_XCHK_reg, 20, 16, false⟩
def AUX_XCHK_XA : Fld := ⟨AUX_XCHK_reg, 12, 8, false⟩
def AUX_XCHK_XTOL : Fld := ⟨AUX_XCHK_reg, 7, 0, false⟩
/-- AUX_XDIFF (ch. 13 R529). -/
def AUX_XDIFF_reg : Nat := 0x20002C
def AUX_XDIFF_DIFF : Fld := ⟨AUX_XDIFF_reg, 15, 0, false⟩
/-- AUX_SEQ (ch. 13 R510). -/
def AUX_SEQ_reg (i : Nat) : Nat := 0x200040 + 0x20 * i
def AUX_SEQ_RUN (i : Nat) : Fld := ⟨AUX_SEQ_reg i, 31, 31, false⟩
def AUX_SEQ_START (i : Nat) : Fld := ⟨AUX_SEQ_reg i, 30, 29, false⟩
def AUX_SEQ_LAST (i : Nat) : Fld := ⟨AUX_SEQ_reg i, 28, 24, false⟩
def AUX_SEQ_EVSRC (i : Nat) : Fld := ⟨AUX_SEQ_reg i, 23, 21, false⟩
def AUX_SEQ_EVEDGE (i : Nat) : Fld := ⟨AUX_SEQ_reg i, 20, 20, false⟩
def AUX_SEQ_EVDIN (i : Nat) : Fld := ⟨AUX_SEQ_reg i, 19, 16, false⟩
def AUX_SEQ_EVDLY (i : Nat) : Fld := ⟨AUX_SEQ_reg i, 15, 0, false⟩
/-- AUX_PER (ch. 13 R510). -/
def AUX_PER_reg (i : Nat) : Nat := 0x200044 + 0x20 * i
def AUX_PER_PERIOD (i : Nat) : Fld := ⟨AUX_PER_reg i, 19, 0, false⟩
/-- AUX_URG (ch. 13 R514). -/
def AUX_URG_reg (i : Nat) : Nat := 0x200048 + 0x20 * i
def AUX_URG_GO (i : Nat) : Fld := ⟨AUX_URG_reg i, 31, 31, false⟩
def AUX_URG_ENT (i : Nat) : Fld := ⟨AUX_URG_reg i, 4, 0, false⟩
/-- AUX_SSTAT (ch. 13 R513). -/
def AUX_SSTAT_reg (i : Nat) : Nat := 0x20004C + 0x20 * i
def AUX_SSTAT_SKIP (i : Nat) : Fld := ⟨AUX_SSTAT_reg i, 31, 16, false⟩
def AUX_SSTAT_ENT (i : Nat) : Fld := ⟨AUX_SSTAT_reg i, 15, 11, false⟩
def AUX_SSTAT_BUSY (i : Nat) : Fld := ⟨AUX_SSTAT_reg i, 10, 10, false⟩
def AUX_SSTAT_URGMISS (i : Nat) : Fld := ⟨AUX_SSTAT_reg i, 9, 9, true⟩
def AUX_SSTAT_URGREF (i : Nat) : Fld := ⟨AUX_SSTAT_reg i, 8, 8, true⟩
def AUX_SSTAT_URGDONE (i : Nat) : Fld := ⟨AUX_SSTAT_reg i, 7, 7, true⟩
def AUX_SSTAT_LOOPDONE (i : Nat) : Fld := ⟨AUX_SSTAT_reg i, 6, 6, true⟩
def AUX_SSTAT_CLRSKIP (i : Nat) : Fld := ⟨AUX_SSTAT_reg i, 5, 5, false⟩
/-- AUX_LOOPT (ch. 13 R512). -/
def AUX_LOOPT_reg (i : Nat) : Nat := 0x200050 + 0x20 * i
def AUX_LOOPT_MAX (i : Nat) : Fld := ⟨AUX_LOOPT_reg i, 31, 16, false⟩
def AUX_LOOPT_LEN (i : Nat) : Fld := ⟨AUX_LOOPT_reg i, 15, 0, false⟩
/-- AUX_HALF (ch. 13 R517). -/
def AUX_HALF_reg (i : Nat) : Nat := 0x200054 + 0x20 * i
def AUX_HALF_HALF (i : Nat) : Fld := ⟨AUX_HALF_reg i, 31, 0, false⟩
/-- AUX_TSW_CFG (ch. 13 R534). -/
def AUX_TSW_CFG_reg (i : Nat) : Nat := 0x200100 + 0x8 * i
def AUX_TSW_CFG_EN (i : Nat) : Fld := ⟨AUX_TSW_CFG_reg i, 31, 31, false⟩
def AUX_TSW_CFG_INV (i : Nat) : Fld := ⟨AUX_TSW_CFG_reg i, 30, 30, false⟩
def AUX_TSW_CFG_CONV (i : Nat) : Fld := ⟨AUX_TSW_CFG_reg i, 29, 29, false⟩
def AUX_TSW_CFG_ENT (i : Nat) : Fld := ⟨AUX_TSW_CFG_reg i, 28, 24, false⟩
def AUX_TSW_CFG_STATE (i : Nat) : Fld := ⟨AUX_TSW_CFG_reg i, 0, 0, false⟩
/-- AUX_TSW_THR (ch. 13 R534). -/
def AUX_TSW_THR_reg (i : Nat) : Nat := 0x200104 + 0x8 * i
def AUX_TSW_THR_HI (i : Nat) : Fld := ⟨AUX_TSW_THR_reg i, 31, 16, false⟩
def AUX_TSW_THR_LO (i : Nat) : Fld := ⟨AUX_TSW_THR_reg i, 15, 0, false⟩
/-- AUX_LIN (ch. 13 R528). -/
def AUX_LIN_reg (i j : Nat) : Nat := 0x200200 + 0x20 * i + 0x4 * j
def AUX_LIN_W (i j : Nat) : Fld := ⟨AUX_LIN_reg i j, 31, 0, false⟩
/-- AUX_ENTL (ch. 13 R507). -/
def AUX_ENTL_reg (i j : Nat) : Nat := 0x201000 + 0x200 * i + 0x8 * j
def AUX_ENTL_EN (i j : Nat) : Fld := ⟨AUX_ENTL_reg i j, 31, 31, false⟩
def AUX_ENTL_URGONLY (i j : Nat) : Fld := ⟨AUX_ENTL_reg i j, 30, 30, false⟩
def AUX_ENTL_BLANK (i j : Nat) : Fld := ⟨AUX_ENTL_reg i j, 29, 29, false⟩
def AUX_ENTL_STEER (i j : Nat) : Fld := ⟨AUX_ENTL_reg i j, 28, 28, false⟩
def AUX_ENTL_CURVE (i j : Nat) : Fld := ⟨AUX_ENTL_reg i j, 27, 24, false⟩
def AUX_ENTL_LSET (i j : Nat) : Fld := ⟨AUX_ENTL_reg i j, 23, 21, false⟩
def AUX_ENTL_SIGNED (i j : Nat) : Fld := ⟨AUX_ENTL_reg i j, 20, 20, false⟩
def AUX_ENTL_ALIGN (i j : Nat) : Fld := ⟨AUX_ENTL_reg i j, 19, 19, false⟩
def AUX_ENTL_GAIN (i j : Nat) : Fld := ⟨AUX_ENTL_reg i j, 18, 16, false⟩
def AUX_ENTL_RMODE (i j : Nat) : Fld := ⟨AUX_ENTL_reg i j, 15, 15, false⟩
def AUX_ENTL_NSEL (i j : Nat) : Fld := ⟨AUX_ENTL_reg i j, 9, 5, false⟩
def AUX_ENTL_PSEL (i j : Nat) : Fld := ⟨AUX_ENTL_reg i j, 4, 0, false⟩
/-- AUX_ENTH (ch. 13 R507). -/
def AUX_ENTH_reg (i j : Nat) : Nat := 0x201004 + 0x200 * i + 0x8 * j
def AUX_ENTH_SETTLE (i j : Nat) : Fld := ⟨AUX_ENTH_reg i j, 31, 22, false⟩
def AUX_ENTH_AVG (i j : Nat) : Fld := ⟨AUX_ENTH_reg i j, 21, 19, false⟩
def AUX_ENTH_REP (i j : Nat) : Fld := ⟨AUX_ENTH_reg i j, 18, 15, false⟩
def AUX_ENTH_DELAY (i j : Nat) : Fld := ⟨AUX_ENTH_reg i j, 11, 0, false⟩
/-- AUX_COR (ch. 13 R503). -/
def AUX_COR_reg (i j : Nat) : Nat := 0x201400 + 0x80 * i + 0x4 * j
def AUX_COR_GC (i j : Nat) : Fld := ⟨AUX_COR_reg i j, 31, 16, false⟩
def AUX_COR_OFFS (i j : Nat) : Fld := ⟨AUX_COR_reg i j, 15, 0, false⟩
/-- AUX_RES (ch. 13 R505). -/
def AUX_RES_reg (i j : Nat) : Nat := 0x201800 + 0x80 * i + 0x4 * j
def AUX_RES_STALE (i j : Nat) : Fld := ⟨AUX_RES_reg i j, 31, 31, false⟩
def AUX_RES_CLIP (i j : Nat) : Fld := ⟨AUX_RES_reg i j, 30, 30, false⟩
def AUX_RES_URG (i j : Nat) : Fld := ⟨AUX_RES_reg i j, 29, 29, false⟩
def AUX_RES_SEQ (i j : Nat) : Fld := ⟨AUX_RES_reg i j, 27, 24, false⟩
def AUX_RES_VAL (i j : Nat) : Fld := ⟨AUX_RES_reg i j, 15, 0, false⟩
/-- TRG_CTL (ch. 14 R548). -/
def TRG_CTL_reg : Nat := 0x210000
def TRG_CTL_PESRC : Fld := ⟨TRG_CTL_reg, 20, 16, false⟩
def TRG_CTL_PSSRC : Fld := ⟨TRG_CTL_reg, 12, 8, false⟩
def TRG_CTL_ABORT : Fld := ⟨TRG_CTL_reg, 7, 7, false⟩
def TRG_CTL_ARM : Fld := ⟨TRG_CTL_reg, 6, 6, false⟩
def TRG_CTL_ENDMODE : Fld := ⟨TRG_CTL_reg, 5, 5, false⟩
def TRG_CTL_POSMODE : Fld := ⟨TRG_CTL_reg, 4, 4, false⟩
def TRG_CTL_AUTO : Fld := ⟨TRG_CTL_reg, 3, 3, false⟩
def TRG_CTL_AUTOARM : Fld := ⟨TRG_CTL_reg, 2, 2, false⟩
def TRG_CTL_EN : Fld := ⟨TRG_CTL_reg, 0, 0, false⟩
/-- TRG_STAT (ch. 14 R548). -/
def TRG_STAT_reg : Nat := 0x210004
def TRG_STAT_CLOSING : Fld := ⟨TRG_STAT_reg, 5, 5, false⟩
def TRG_STAT_HELD : Fld := ⟨TRG_STAT_reg, 4, 4, false⟩
def TRG_STAT_STATE : Fld := ⟨TRG_STAT_reg, 1, 0, false⟩
/-- TRG_AUTOT (ch. 14 R554). -/
def TRG_AUTOT_reg : Nat := 0x210008
def TRG_AUTOT_TICKS : Fld := ⟨TRG_AUTOT_reg, 31, 0, false⟩
/-- TRG_SWT (ch. 14 R546). -/
def TRG_SWT_reg : Nat := 0x21000C
def TRG_SWT_SWT : Fld := ⟨TRG_SWT_reg, 15, 0, false⟩
/-- TRG_CNT (ch. 14 R549). -/
def TRG_CNT_reg : Nat := 0x210010
def TRG_CNT_AUTOS : Fld := ⟨TRG_CNT_reg, 31, 16, false⟩
def TRG_CNT_IGN : Fld := ⟨TRG_CNT_reg, 15, 0, false⟩
/-- TRG_PAGENO (ch. 14 R555). -/
def TRG_PAGENO_reg : Nat := 0x210014
def TRG_PAGENO_PAGENO : Fld := ⟨TRG_PAGENO_reg, 15, 0, false⟩
/-- TRG_U_CFG (ch. 14 R547). -/
def TRG_U_CFG_reg (i : Nat) : Nat := 0x210100 + 0x20 * i
def TRG_U_CFG_EN (i : Nat) : Fld := ⟨TRG_U_CFG_reg i, 31, 31, false⟩
def TRG_U_CFG_KIND (i : Nat) : Fld := ⟨TRG_U_CFG_reg i, 30, 28, false⟩
def TRG_U_CFG_POL (i : Nat) : Fld := ⟨TRG_U_CFG_reg i, 27, 27, false⟩
def TRG_U_CFG_SENSE (i : Nat) : Fld := ⟨TRG_U_CFG_reg i, 26, 26, false⟩
def TRG_U_CFG_LEAVE (i : Nat) : Fld := ⟨TRG_U_CFG_reg i, 25, 25, false⟩
def TRG_U_CFG_CONV (i : Nat) : Fld := ⟨TRG_U_CFG_reg i, 24, 24, false⟩
def TRG_U_CFG_ENT (i : Nat) : Fld := ⟨TRG_U_CFG_reg i, 20, 16, false⟩
def TRG_U_CFG_HYST (i : Nat) : Fld := ⟨TRG_U_CFG_reg i, 15, 0, false⟩
/-- TRG_U_LVL (ch. 14 R540). -/
def TRG_U_LVL_reg (i : Nat) : Nat := 0x210104 + 0x20 * i
def TRG_U_LVL_L2 (i : Nat) : Fld := ⟨TRG_U_LVL_reg i, 31, 16, false⟩
def TRG_U_LVL_L1 (i : Nat) : Fld := ⟨TRG_U_LVL_reg i, 15, 0, false⟩
/-- TRG_U_WMIN (ch. 14 R540). -/
def TRG_U_WMIN_reg (i : Nat) : Nat := 0x210108 + 0x20 * i
def TRG_U_WMIN_WMIN (i : Nat) : Fld := ⟨TRG_U_WMIN_reg i, 31, 0, false⟩
/-- TRG_U_WMAX (ch. 14 R544). -/
def TRG_U_WMAX_reg (i : Nat) : Nat := 0x21010C + 0x20 * i
def TRG_U_WMAX_WMAX (i : Nat) : Fld := ⟨TRG_U_WMAX_reg i, 31, 0, false⟩
/-- TRG_U_TLO (ch. 14 R544). -/
def TRG_U_TLO_reg (i : Nat) : Nat := 0x210110 + 0x20 * i
def TRG_U_TLO_T (i : Nat) : Fld := ⟨TRG_U_TLO_reg i, 31, 0, false⟩
/-- TRG_U_THI (ch. 14 R544). -/
def TRG_U_THI_reg (i : Nat) : Nat := 0x210114 + 0x20 * i
def TRG_U_THI_T (i : Nat) : Fld := ⟨TRG_U_THI_reg i, 15, 0, false⟩
/-- TRG_U_CNT (ch. 14 R544). -/
def TRG_U_CNT_reg (i : Nat) : Nat := 0x210118 + 0x20 * i
def TRG_U_CNT_N (i : Nat) : Fld := ⟨TRG_U_CNT_reg i, 31, 0, false⟩
/-- TRG_R_CTL (ch. 14 R565). -/
def TRG_R_CTL_reg (i : Nat) : Nat := 0x210400 + 0x80 * i
def TRG_R_CTL_EN (i : Nat) : Fld := ⟨TRG_R_CTL_reg i, 0, 0, false⟩
/-- TRG_R_BASE (ch. 14 R564). -/
def TRG_R_BASE_reg (i : Nat) : Nat := 0x210404 + 0x80 * i
def TRG_R_BASE_BASE (i : Nat) : Fld := ⟨TRG_R_BASE_reg i, 25, 0, false⟩
/-- TRG_R_SLOT (ch. 14 R564). -/
def TRG_R_SLOT_reg (i : Nat) : Nat := 0x210408 + 0x80 * i
def TRG_R_SLOT_SLOT (i : Nat) : Fld := ⟨TRG_R_SLOT_reg i, 25, 0, false⟩
/-- TRG_R_NSLOT (ch. 14 R564). -/
def TRG_R_NSLOT_reg (i : Nat) : Nat := 0x21040C + 0x80 * i
def TRG_R_NSLOT_NSLOT (i : Nat) : Fld := ⟨TRG_R_NSLOT_reg i, 15, 0, false⟩
/-- TRG_R_PRE (ch. 14 R564). -/
def TRG_R_PRE_reg (i : Nat) : Nat := 0x210410 + 0x80 * i
def TRG_R_PRE_HIST (i : Nat) : Fld := ⟨TRG_R_PRE_reg i, 31, 16, false⟩
def TRG_R_PRE_PRE (i : Nat) : Fld := ⟨TRG_R_PRE_reg i, 15, 0, false⟩
/-- TRG_R_POST (ch. 14 R564). -/
def TRG_R_POST_reg (i : Nat) : Nat := 0x210414 + 0x80 * i
def TRG_R_POST_POST (i : Nat) : Fld := ⟨TRG_R_POST_reg i, 31, 0, false⟩
/-- TRG_R_MARGIN (ch. 14 R564). -/
def TRG_R_MARGIN_reg (i : Nat) : Nat := 0x210418 + 0x80 * i
def TRG_R_MARGIN_MARGIN (i : Nat) : Fld := ⟨TRG_R_MARGIN_reg i, 15, 0, false⟩
/-- TRG_R_MAXL (ch. 14 R564). -/
def TRG_R_MAXL_reg (i : Nat) : Nat := 0x21041C + 0x80 * i
def TRG_R_MAXL_MAXL (i : Nat) : Fld := ⟨TRG_R_MAXL_reg i, 31, 0, false⟩
/-- TRG_R_OFS (ch. 14 R564). -/
def TRG_R_OFS_reg (i : Nat) : Nat := 0x210420 + 0x80 * i
def TRG_R_OFS_OFS (i : Nat) : Fld := ⟨TRG_R_OFS_reg i, 31, 0, false⟩
/-- TRG_R_WM (ch. 14 R573). -/
def TRG_R_WM_reg (i : Nat) : Nat := 0x210424 + 0x80 * i
def TRG_R_WM_HIWM (i : Nat) : Fld := ⟨TRG_R_WM_reg i, 31, 16, false⟩
def TRG_R_WM_LOWM (i : Nat) : Fld := ⟨TRG_R_WM_reg i, 15, 0, false⟩
/-- TRG_R_PRBASE (ch. 14 R564). -/
def TRG_R_PRBASE_reg (i : Nat) : Nat := 0x210428 + 0x80 * i
def TRG_R_PRBASE_PRBASE (i : Nat) : Fld := ⟨TRG_R_PRBASE_reg i, 25, 0, false⟩
/-- TRG_R_REL (ch. 14 R572). -/
def TRG_R_REL_reg (i : Nat) : Nat := 0x21042C + 0x80 * i
def TRG_R_REL_N (i : Nat) : Fld := ⟨TRG_R_REL_reg i, 15, 0, false⟩
/-- TRG_R_WCNT (ch. 14 R569). -/
def TRG_R_WCNT_reg (i : Nat) : Nat := 0x210430 + 0x80 * i
def TRG_R_WCNT_N (i : Nat) : Fld := ⟨TRG_R_WCNT_reg i, 31, 0, false⟩
/-- TRG_R_RCNT (ch. 14 R572). -/
def TRG_R_RCNT_reg (i : Nat) : Nat := 0x210434 + 0x80 * i
def TRG_R_RCNT_N (i : Nat) : Fld := ⟨TRG_R_RCNT_reg i, 31, 0, false⟩
/-- TRG_R_FILL (ch. 14 R569). -/
def TRG_R_FILL_reg (i : Nat) : Nat := 0x210438 + 0x80 * i
def TRG_R_FILL_FREE (i : Nat) : Fld := ⟨TRG_R_FILL_reg i, 31, 16, false⟩
def TRG_R_FILL_FILL (i : Nat) : Fld := ⟨TRG_R_FILL_reg i, 15, 0, false⟩
/-- TRG_R_STAT (ch. 14 R566). -/
def TRG_R_STAT_reg (i : Nat) : Nat := 0x21043C + 0x80 * i
def TRG_R_STAT_RERR (i : Nat) : Fld := ⟨TRG_R_STAT_reg i, 11, 8, false⟩
def TRG_R_STAT_RELERR (i : Nat) : Fld := ⟨TRG_R_STAT_reg i, 3, 3, true⟩
def TRG_R_STAT_WDROP (i : Nat) : Fld := ⟨TRG_R_STAT_reg i, 2, 2, true⟩
def TRG_R_STAT_INPAGE (i : Nat) : Fld := ⟨TRG_R_STAT_reg i, 1, 1, false⟩
def TRG_R_STAT_CAPT (i : Nat) : Fld := ⟨TRG_R_STAT_reg i, 0, 0, false⟩
/-- TRG_R_DISC (ch. 14 R570). -/
def TRG_R_DISC_reg (i : Nat) : Nat := 0x210440 + 0x80 * i
def TRG_R_DISC_SIZE (i : Nat) : Fld := ⟨TRG_R_DISC_reg i, 31, 16, false⟩
def TRG_R_DISC_FULL (i : Nat) : Fld := ⟨TRG_R_DISC_reg i, 15, 0, false⟩
/-- TRG_R_CSEQ (ch. 14 R567). -/
def TRG_R_CSEQ_reg (i : Nat) : Nat := 0x210444 + 0x80 * i
def TRG_R_CSEQ_CSEQ (i : Nat) : Fld := ⟨TRG_R_CSEQ_reg i, 31, 0, false⟩
/-- HAL_HEAD (ch. 15 R601). -/
def HAL_HEAD_reg (i : Nat) : Nat := 0x220010 + 0x4 * i
def HAL_HEAD_EN (i : Nat) : Fld := ⟨HAL_HEAD_reg i, 31, 31, false⟩
def HAL_HEAD_AXIS (i : Nat) : Fld := ⟨HAL_HEAD_reg i, 0, 0, false⟩
/-- HAL_PH (ch. 15 R601). -/
def HAL_PH_reg (i : Nat) : Nat := 0x220030 + 0x4 * i
def HAL_PH_PH (i : Nat) : Fld := ⟨HAL_PH_reg i, 31, 0, false⟩
/-- HAL_MARG (ch. 15 R612). -/
def HAL_MARG_reg (i : Nat) : Nat := 0x220050 + 0x4 * i
def HAL_MARG_LSTOP (i : Nat) : Fld := ⟨HAL_MARG_reg i, 31, 16, false⟩
def HAL_MARG_MARG (i : Nat) : Fld := ⟨HAL_MARG_reg i, 15, 0, false⟩
/-- HAL_AX_CTL (ch. 15 R591). -/
def HAL_AX_CTL_reg (i : Nat) : Nat := 0x220100 + 0x100 * i
def HAL_AX_CTL_STOPNOW (i : Nat) : Fld := ⟨HAL_AX_CTL_reg i, 8, 8, false⟩
def HAL_AX_CTL_ENCINV (i : Nat) : Fld := ⟨HAL_AX_CTL_reg i, 5, 5, false⟩
def HAL_AX_CTL_ENC (i : Nat) : Fld := ⟨HAL_AX_CTL_reg i, 4, 4, false⟩
def HAL_AX_CTL_HOLD (i : Nat) : Fld := ⟨HAL_AX_CTL_reg i, 3, 3, false⟩
def HAL_AX_CTL_EN (i : Nat) : Fld := ⟨HAL_AX_CTL_reg i, 2, 2, false⟩
def HAL_AX_CTL_DIR (i : Nat) : Fld := ⟨HAL_AX_CTL_reg i, 1, 1, false⟩
def HAL_AX_CTL_MEN (i : Nat) : Fld := ⟨HAL_AX_CTL_reg i, 0, 0, false⟩
/-- HAL_AX_COMMIT (ch. 06 R227). -/
def HAL_AX_COMMIT_reg (i : Nat) : Nat := 0x220104 + 0x100 * i
def HAL_AX_COMMIT_MISSED (i : Nat) : Fld := ⟨HAL_AX_COMMIT_reg i, 1, 1, true⟩
def HAL_AX_COMMIT_GO (i : Nat) : Fld := ⟨HAL_AX_COMMIT_reg i, 0, 0, false⟩
/-- HAL_AX_STAT (ch. 15 R593). -/
def HAL_AX_STAT_reg (i : Nat) : Nat := 0x220108 + 0x100 * i
def HAL_AX_STAT_CAUSE (i : Nat) : Fld := ⟨HAL_AX_STAT_reg i, 6, 4, false⟩
def HAL_AX_STAT_STATE (i : Nat) : Fld := ⟨HAL_AX_STAT_reg i, 2, 0, false⟩
/-- HAL_AX_FLT (ch. 15 R594). -/
def HAL_AX_FLT_reg (i : Nat) : Nat := 0x22010C + 0x100 * i
def HAL_AX_FLT_QCNT (i : Nat) : Fld := ⟨HAL_AX_FLT_reg i, 31, 16, false⟩
def HAL_AX_FLT_FLAGS (i : Nat) : Fld := ⟨HAL_AX_FLT_reg i, 7, 0, true⟩
/-- HAL_AX_MODE (ch. 15 R592). -/
def HAL_AX_MODE_reg (i : Nat) : Nat := 0x220110 + 0x100 * i
def HAL_AX_MODE_LSRST (i : Nat) : Fld := ⟨HAL_AX_MODE_reg i, 2, 2, false⟩
def HAL_AX_MODE_REEFEN (i : Nat) : Fld := ⟨HAL_AX_MODE_reg i, 1, 1, false⟩
def HAL_AX_MODE_MODE (i : Nat) : Fld := ⟨HAL_AX_MODE_reg i, 0, 0, false⟩
/-- HAL_AX_VT (ch. 15 R596). -/
def HAL_AX_VT_reg (i : Nat) : Nat := 0x220114 + 0x100 * i
def HAL_AX_VT_VT (i : Nat) : Fld := ⟨HAL_AX_VT_reg i, 31, 0, false⟩
/-- HAL_AX_PT (ch. 15 R596). -/
def HAL_AX_PT_reg (i : Nat) : Nat := 0x220118 + 0x100 * i
def HAL_AX_PT_PT (i : Nat) : Fld := ⟨HAL_AX_PT_reg i, 31, 0, false⟩
/-- HAL_AX_VMAX (ch. 15 R596). -/
def HAL_AX_VMAX_reg (i : Nat) : Nat := 0x22011C + 0x100 * i
def HAL_AX_VMAX_VMAX (i : Nat) : Fld := ⟨HAL_AX_VMAX_reg i, 31, 0, false⟩
/-- HAL_AX_AMAX (ch. 15 R597). -/
def HAL_AX_AMAX_reg (i : Nat) : Nat := 0x220120 + 0x100 * i
def HAL_AX_AMAX_AMAX (i : Nat) : Fld := ⟨HAL_AX_AMAX_reg i, 31, 0, false⟩
/-- HAL_AX_DMAX (ch. 15 R597). -/
def HAL_AX_DMAX_reg (i : Nat) : Nat := 0x220124 + 0x100 * i
def HAL_AX_DMAX_DMAX (i : Nat) : Fld := ⟨HAL_AX_DMAX_reg i, 31, 0, false⟩
/-- HAL_AX_JMAX (ch. 15 R597). -/
def HAL_AX_JMAX_reg (i : Nat) : Nat := 0x220128 + 0x100 * i
def HAL_AX_JMAX_JMAX (i : Nat) : Fld := ⟨HAL_AX_JMAX_reg i, 31, 0, false⟩
/-- HAL_AX_VBACK (ch. 15 R616). -/
def HAL_AX_VBACK_reg (i : Nat) : Nat := 0x22012C + 0x100 * i
def HAL_AX_VBACK_VBACK (i : Nat) : Fld := ⟨HAL_AX_VBACK_reg i, 31, 0, false⟩
/-- HAL_AX_LPS (ch. 15 R601). -/
def HAL_AX_LPS_reg (i : Nat) : Nat := 0x220130 + 0x100 * i
def HAL_AX_LPS_LPS (i : Nat) : Fld := ⟨HAL_AX_LPS_reg i, 31, 0, false⟩
/-- HAL_AX_ORG (ch. 15 R601). -/
def HAL_AX_ORG_reg (i : Nat) : Nat := 0x220134 + 0x100 * i
def HAL_AX_ORG_ORG (i : Nat) : Fld := ⟨HAL_AX_ORG_reg i, 31, 0, false⟩
/-- HAL_AX_MECH (ch. 15 R616). -/
def HAL_AX_MECH_reg (i : Nat) : Nat := 0x220138 + 0x100 * i
def HAL_AX_MECH_BKL (i : Nat) : Fld := ⟨HAL_AX_MECH_reg i, 31, 24, false⟩
def HAL_AX_MECH_SETL (i : Nat) : Fld := ⟨HAL_AX_MECH_reg i, 23, 16, false⟩
def HAL_AX_MECH_GUARD (i : Nat) : Fld := ⟨HAL_AX_MECH_reg i, 15, 8, false⟩
def HAL_AX_MECH_RSTH (i : Nat) : Fld := ⟨HAL_AX_MECH_reg i, 7, 0, false⟩
/-- HAL_AX_SLIP (ch. 15 R626). -/
def HAL_AX_SLIP_reg (i : Nat) : Nat := 0x22013C + 0x100 * i
def HAL_AX_SLIP_SLIPW (i : Nat) : Fld := ⟨HAL_AX_SLIP_reg i, 31, 16, false⟩
def HAL_AX_SLIP_STALLT (i : Nat) : Fld := ⟨HAL_AX_SLIP_reg i, 15, 0, false⟩
/-- HAL_AX_STEPT (ch. 15 R586). -/
def HAL_AX_STEPT_reg (i : Nat) : Nat := 0x220140 + 0x100 * i
def HAL_AX_STEPT_STEPW (i : Nat) : Fld := ⟨HAL_AX_STEPT_reg i, 31, 16, false⟩
def HAL_AX_STEPT_DIRSU (i : Nat) : Fld := ⟨HAL_AX_STEPT_reg i, 15, 0, false⟩
/-- HAL_AX_ENC (ch. 15 R621). -/
def HAL_AX_ENC_reg (i : Nat) : Nat := 0x220144 + 0x100 * i
def HAL_AX_ENC_ESCALE (i : Nat) : Fld := ⟨HAL_AX_ENC_reg i, 31, 0, false⟩
/-- HAL_AX_EFLT (ch. 15 R620). -/
def HAL_AX_EFLT_reg (i : Nat) : Nat := 0x220148 + 0x100 * i
def HAL_AX_EFLT_REVDW (i : Nat) : Fld := ⟨HAL_AX_EFLT_reg i, 31, 16, false⟩
def HAL_AX_EFLT_EFLT (i : Nat) : Fld := ⟨HAL_AX_EFLT_reg i, 7, 0, false⟩
/-- HAL_AX_POSLO (ch. 15 R590). -/
def HAL_AX_POSLO_reg (i : Nat) : Nat := 0x220150 + 0x100 * i
def HAL_AX_POSLO_P (i : Nat) : Fld := ⟨HAL_AX_POSLO_reg i, 31, 0, false⟩
/-- HAL_AX_POSHI (ch. 15 R590). -/
def HAL_AX_POSHI_reg (i : Nat) : Nat := 0x220154 + 0x100 * i
def HAL_AX_POSHI_P (i : Nat) : Fld := ⟨HAL_AX_POSHI_reg i, 31, 0, false⟩
/-- HAL_AX_VEL (ch. 15 R589). -/
def HAL_AX_VEL_reg (i : Nat) : Nat := 0x220158 + 0x100 * i
def HAL_AX_VEL_V (i : Nat) : Fld := ⟨HAL_AX_VEL_reg i, 31, 0, false⟩
/-- HAL_AX_CMD (ch. 15 R585). -/
def HAL_AX_CMD_reg (i : Nat) : Nat := 0x22015C + 0x100 * i
def HAL_AX_CMD_C (i : Nat) : Fld := ⟨HAL_AX_CMD_reg i, 31, 0, false⟩
/-- HAL_AX_OBS (ch. 15 R621). -/
def HAL_AX_OBS_reg (i : Nat) : Nat := 0x220160 + 0x100 * i
def HAL_AX_OBS_OBS (i : Nat) : Fld := ⟨HAL_AX_OBS_reg i, 31, 0, false⟩
/-- HAL_AX_ENCCNT (ch. 15 R620). -/
def HAL_AX_ENCCNT_reg (i : Nat) : Nat := 0x220164 + 0x100 * i
def HAL_AX_ENCCNT_N (i : Nat) : Fld := ⟨HAL_AX_ENCCNT_reg i, 31, 0, false⟩
/-- HAL_AX_IDXCNT (ch. 15 R622). -/
def HAL_AX_IDXCNT_reg (i : Nat) : Nat := 0x220168 + 0x100 * i
def HAL_AX_IDXCNT_N (i : Nat) : Fld := ⟨HAL_AX_IDXCNT_reg i, 31, 0, false⟩
/-- HAL_AX_STOPD (ch. 15 R607). -/
def HAL_AX_STOPD_reg (i : Nat) : Nat := 0x22016C + 0x100 * i
def HAL_AX_STOPD_D (i : Nat) : Fld := ⟨HAL_AX_STOPD_reg i, 31, 0, false⟩
/-- HAL_AX_LNEXT (ch. 15 R318). -/
def HAL_AX_LNEXT_reg (i : Nat) : Nat := 0x220170 + 0x100 * i
def HAL_AX_LNEXT_N (i : Nat) : Fld := ⟨HAL_AX_LNEXT_reg i, 31, 0, false⟩
/-- HAL_AX_POSSET (ch. 15 R635). -/
def HAL_AX_POSSET_reg (i : Nat) : Nat := 0x220174 + 0x100 * i
def HAL_AX_POSSET_P (i : Nat) : Fld := ⟨HAL_AX_POSSET_reg i, 31, 0, false⟩
/-- REEF_CTL (ch. 16 R651). -/
def REEF_CTL_reg : Nat := 0x230000
def REEF_CTL_RHOLD : Fld := ⟨REEF_CTL_reg, 29, 24, false⟩
def REEF_CTL_DIEL : Fld := ⟨REEF_CTL_reg, 19, 16, false⟩
def REEF_CTL_MAXL : Fld := ⟨REEF_CTL_reg, 15, 12, false⟩
def REEF_CTL_MINL : Fld := ⟨REEF_CTL_reg, 11, 8, false⟩
def REEF_CTL_FORCEL : Fld := ⟨REEF_CTL_reg, 7, 4, false⟩
def REEF_CTL_CLRCNT : Fld := ⟨REEF_CTL_reg, 2, 2, false⟩
def REEF_CTL_FORCE : Fld := ⟨REEF_CTL_reg, 1, 1, false⟩
def REEF_CTL_EN : Fld := ⟨REEF_CTL_reg, 0, 0, false⟩
/-- REEF_STAT (ch. 16 R652). -/
def REEF_STAT_reg : Nat := 0x230004
def REEF_STAT_DWELL : Fld := ⟨REEF_STAT_reg, 18, 18, false⟩
def REEF_STAT_DIEW : Fld := ⟨REEF_STAT_reg, 17, 17, false⟩
def REEF_STAT_CAUSE : Fld := ⟨REEF_STAT_reg, 11, 8, false⟩
def REEF_STAT_FLOOR : Fld := ⟨REEF_STAT_reg, 7, 4, false⟩
def REEF_STAT_LEVEL : Fld := ⟨REEF_STAT_reg, 3, 0, false⟩
/-- REEF_INEN (ch. 16 R653). -/
def REEF_INEN_reg : Nat := 0x230008
def REEF_INEN_LAMP : Fld := ⟨REEF_INEN_reg, 15, 10, false⟩
def REEF_INEN_CODEC : Fld := ⟨REEF_INEN_reg, 9, 9, false⟩
def REEF_INEN_CRED : Fld := ⟨REEF_INEN_reg, 8, 8, false⟩
def REEF_INEN_RING : Fld := ⟨REEF_INEN_reg, 5, 0, false⟩
/-- REEF_RINGWM (ch. 16 R654). -/
def REEF_RINGWM_reg : Nat := 0x23000C
def REEF_RINGWM_HI : Fld := ⟨REEF_RINGWM_reg, 15, 8, false⟩
def REEF_RINGWM_LO : Fld := ⟨REEF_RINGWM_reg, 7, 0, false⟩
/-- REEF_CREDWM (ch. 16 R654). -/
def REEF_CREDWM_reg : Nat := 0x230010
def REEF_CREDWM_HI : Fld := ⟨REEF_CREDWM_reg, 15, 8, false⟩
def REEF_CREDWM_LO : Fld := ⟨REEF_CREDWM_reg, 7, 0, false⟩
/-- REEF_PRESS (ch. 16 R654). -/
def REEF_PRESS_reg : Nat := 0x230014
def REEF_PRESS_DIE : Fld := ⟨REEF_PRESS_reg, 31, 28, false⟩
def REEF_PRESS_CODEC : Fld := ⟨REEF_PRESS_reg, 27, 24, false⟩
def REEF_PRESS_LAMP : Fld := ⟨REEF_PRESS_reg, 23, 20, false⟩
def REEF_PRESS_XRHEAD : Fld := ⟨REEF_PRESS_reg, 18, 16, false⟩
def REEF_PRESS_XC : Fld := ⟨REEF_PRESS_reg, 15, 8, false⟩
def REEF_PRESS_XR : Fld := ⟨REEF_PRESS_reg, 7, 0, false⟩
/-- REEF_CNT (ch. 16 R651). -/
def REEF_CNT_reg : Nat := 0x230018
def REEF_CNT_LOWERS : Fld := ⟨REEF_CNT_reg, 31, 16, false⟩
def REEF_CNT_RAISES : Fld := ⟨REEF_CNT_reg, 15, 0, false⟩
/-- REEF_TCHG_LO (ch. 16 R651). -/
def REEF_TCHG_LO_reg : Nat := 0x23001C
def REEF_TCHG_LO_T : Fld := ⟨REEF_TCHG_LO_reg, 31, 0, false⟩
/-- REEF_TCHG_HI (ch. 16 R651). -/
def REEF_TCHG_HI_reg : Nat := 0x230020
def REEF_TCHG_HI_T : Fld := ⟨REEF_TCHG_HI_reg, 15, 0, false⟩
/-- BC_STAT (ch. 18 R718). -/
def BC_STAT_reg : Nat := 0x240000
def BC_STAT_CHKBUSY : Fld := ⟨BC_STAT_reg, 13, 13, false⟩
def BC_STAT_DECBUSY : Fld := ⟨BC_STAT_reg, 12, 12, false⟩
def BC_STAT_DECCTX : Fld := ⟨BC_STAT_reg, 11, 8, false⟩
def BC_STAT_ENCBUSY : Fld := ⟨BC_STAT_reg, 4, 4, false⟩
def BC_STAT_ENCCTX : Fld := ⟨BC_STAT_reg, 3, 0, false⟩
/-- BC_KEYREQ (ch. 18 R729). -/
def BC_KEYREQ_reg : Nat := 0x240004
def BC_KEYREQ_REQ : Fld := ⟨BC_KEYREQ_reg, 15, 0, false⟩
/-- BC_PICPEND (ch. 18 R742). -/
def BC_PICPEND_reg : Nat := 0x240008
def BC_PICPEND_PEND : Fld := ⟨BC_PICPEND_reg, 15, 0, true⟩
/-- BC_ERRPEND (ch. 18 R718). -/
def BC_ERRPEND_reg : Nat := 0x24000C
def BC_ERRPEND_PEND : Fld := ⟨BC_ERRPEND_reg, 15, 0, true⟩
/-- BC_CHK (ch. 18 R737). -/
def BC_CHK_reg : Nat := 0x240010
def BC_CHK_CHKFAIL : Fld := ⟨BC_CHK_reg, 31, 31, true⟩
def BC_CHK_CTX : Fld := ⟨BC_CHK_reg, 27, 24, false⟩
def BC_CHK_ROW : Fld := ⟨BC_CHK_reg, 15, 0, false⟩
/-- BC_CHKCNT (ch. 18 R737). -/
def BC_CHKCNT_reg : Nat := 0x240014
def BC_CHKCNT_N : Fld := ⟨BC_CHKCNT_reg, 31, 0, false⟩
/-- BC_CAP (ch. 18 R734). -/
def BC_CAP_reg : Nat := 0x240018
def BC_CAP_CODECREQ : Fld := ⟨BC_CAP_reg, 27, 24, false⟩
def BC_CAP_CAPHI : Fld := ⟨BC_CAP_reg, 15, 8, false⟩
def BC_CAP_CAPLO : Fld := ⟨BC_CAP_reg, 7, 0, false⟩
/-- BC_SWCNT (ch. 18 R723). -/
def BC_SWCNT_reg : Nat := 0x24001C
def BC_SWCNT_N : Fld := ⟨BC_SWCNT_reg, 31, 0, false⟩
/-- BC_CTX_CTL (ch. 18 R721). -/
def BC_CTX_CTL_reg (i : Nat) : Nat := 0x241000 + 0x100 * i
def BC_CTX_CTL_RESTART (i : Nat) : Fld := ⟨BC_CTX_CTL_reg i, 1, 1, false⟩
def BC_CTX_CTL_EN (i : Nat) : Fld := ⟨BC_CTX_CTL_reg i, 0, 0, false⟩
/-- BC_CTX_COMMIT (ch. 06 R227). -/
def BC_CTX_COMMIT_reg (i : Nat) : Nat := 0x241004 + 0x100 * i
def BC_CTX_COMMIT_MISSED (i : Nat) : Fld := ⟨BC_CTX_COMMIT_reg i, 1, 1, true⟩
def BC_CTX_COMMIT_GO (i : Nat) : Fld := ⟨BC_CTX_COMMIT_reg i, 0, 0, false⟩
/-- BC_CTX_STAT (ch. 18 R719). -/
def BC_CTX_STAT_reg (i : Nat) : Nat := 0x241008 + 0x100 * i
def BC_CTX_STAT_ERR (i : Nat) : Fld := ⟨BC_CTX_STAT_reg i, 27, 24, false⟩
def BC_CTX_STAT_CFGERR (i : Nat) : Fld := ⟨BC_CTX_STAT_reg i, 23, 20, false⟩
def BC_CTX_STAT_KEYWHY (i : Nat) : Fld := ⟨BC_CTX_STAT_reg i, 19, 17, false⟩
def BC_CTX_STAT_KEYNEXT (i : Nat) : Fld := ⟨BC_CTX_STAT_reg i, 16, 16, false⟩
def BC_CTX_STAT_CMPW (i : Nat) : Fld := ⟨BC_CTX_STAT_reg i, 9, 9, true⟩
def BC_CTX_STAT_REFOVF (i : Nat) : Fld := ⟨BC_CTX_STAT_reg i, 8, 8, true⟩
def BC_CTX_STAT_CAPOVR (i : Nat) : Fld := ⟨BC_CTX_STAT_reg i, 7, 7, true⟩
def BC_CTX_STAT_WAITIN (i : Nat) : Fld := ⟨BC_CTX_STAT_reg i, 6, 6, false⟩
def BC_CTX_STAT_OSTALL (i : Nat) : Fld := ⟨BC_CTX_STAT_reg i, 5, 5, false⟩
def BC_CTX_STAT_STATE (i : Nat) : Fld := ⟨BC_CTX_STAT_reg i, 2, 0, false⟩
/-- BC_CTX_CFG (ch. 18 R720). -/
def BC_CTX_CFG_reg (i : Nat) : Nat := 0x241010 + 0x100 * i
def BC_CTX_CFG_DIR (i : Nat) : Fld := ⟨BC_CTX_CFG_reg i, 31, 31, false⟩
def BC_CTX_CFG_DMODE (i : Nat) : Fld := ⟨BC_CTX_CFG_reg i, 30, 30, false⟩
def BC_CTX_CFG_HEAD (i : Nat) : Fld := ⟨BC_CTX_CFG_reg i, 29, 27, false⟩
def BC_CTX_CFG_DEPTH (i : Nat) : Fld := ⟨BC_CTX_CFG_reg i, 26, 26, false⟩
def BC_CTX_CFG_NPL (i : Nat) : Fld := ⟨BC_CTX_CFG_reg i, 25, 25, false⟩
def BC_CTX_CFG_HSCALE (i : Nat) : Fld := ⟨BC_CTX_CFG_reg i, 24, 24, false⟩
def BC_CTX_CFG_PROW (i : Nat) : Fld := ⟨BC_CTX_CFG_reg i, 23, 18, false⟩
def BC_CTX_CFG_RMODE (i : Nat) : Fld := ⟨BC_CTX_CFG_reg i, 17, 17, false⟩
def BC_CTX_CFG_STREAM (i : Nat) : Fld := ⟨BC_CTX_CFG_reg i, 15, 12, false⟩
def BC_CTX_CFG_SRCH (i : Nat) : Fld := ⟨BC_CTX_CFG_reg i, 11, 6, false⟩
/-- BC_CTX_RATE (ch. 18 R718). -/
def BC_CTX_RATE_reg (i : Nat) : Nat := 0x241014 + 0x100 * i
def BC_CTX_RATE_BAND (i : Nat) : Fld := ⟨BC_CTX_RATE_reg i, 31, 25, false⟩
def BC_CTX_RATE_QP0 (i : Nat) : Fld := ⟨BC_CTX_RATE_reg i, 23, 18, false⟩
def BC_CTX_RATE_QMIN (i : Nat) : Fld := ⟨BC_CTX_RATE_reg i, 17, 12, false⟩
def BC_CTX_RATE_QMAX (i : Nat) : Fld := ⟨BC_CTX_RATE_reg i, 11, 6, false⟩
def BC_CTX_RATE_QSTEP (i : Nat) : Fld := ⟨BC_CTX_RATE_reg i, 5, 3, false⟩
/-- BC_CTX_LIMIT (ch. 18 R726). -/
def BC_CTX_LIMIT_reg (i : Nat) : Nat := 0x241018 + 0x100 * i
def BC_CTX_LIMIT_LIM (i : Nat) : Fld := ⟨BC_CTX_LIMIT_reg i, 31, 0, false⟩
/-- BC_CTX_PGROWS (ch. 18 R718). -/
def BC_CTX_PGROWS_reg (i : Nat) : Nat := 0x24101C + 0x100 * i
def BC_CTX_PGROWS_RCAP (i : Nat) : Fld := ⟨BC_CTX_PGROWS_reg i, 15, 0, false⟩
/-- BC_CTX_REFBASE (ch. 18 R731). -/
def BC_CTX_REFBASE_reg (i : Nat) : Nat := 0x241020 + 0x100 * i
def BC_CTX_REFBASE_OFS (i : Nat) : Fld := ⟨BC_CTX_REFBASE_reg i, 31, 0, false⟩
/-- BC_CTX_REFSIZE (ch. 18 R731). -/
def BC_CTX_REFSIZE_reg (i : Nat) : Nat := 0x241024 + 0x100 * i
def BC_CTX_REFSIZE_SIZE (i : Nat) : Fld := ⟨BC_CTX_REFSIZE_reg i, 31, 0, false⟩
/-- BC_CTX_IOBASE (ch. 18 R732). -/
def BC_CTX_IOBASE_reg (i : Nat) : Nat := 0x241028 + 0x100 * i
def BC_CTX_IOBASE_OFS (i : Nat) : Fld := ⟨BC_CTX_IOBASE_reg i, 31, 0, false⟩
/-- BC_CTX_IOSIZE (ch. 18 R732). -/
def BC_CTX_IOSIZE_reg (i : Nat) : Nat := 0x24102C + 0x100 * i
def BC_CTX_IOSIZE_SIZE (i : Nat) : Fld := ⟨BC_CTX_IOSIZE_reg i, 31, 0, false⟩
/-- BC_CTX_WP (ch. 18 R738). -/
def BC_CTX_WP_reg (i : Nat) : Nat := 0x241030 + 0x100 * i
def BC_CTX_WP_WP (i : Nat) : Fld := ⟨BC_CTX_WP_reg i, 31, 0, false⟩
/-- BC_CTX_RP (ch. 18 R732). -/
def BC_CTX_RP_reg (i : Nat) : Nat := 0x241034 + 0x100 * i
def BC_CTX_RP_RP (i : Nat) : Fld := ⟨BC_CTX_RP_reg i, 31, 0, false⟩
/-- BC_CTX_CMP (ch. 18 R743). -/
def BC_CTX_CMP_reg (i : Nat) : Nat := 0x241038 + 0x100 * i
def BC_CTX_CMP_CMPEN (i : Nat) : Fld := ⟨BC_CTX_CMP_reg i, 31, 31, false⟩
def BC_CTX_CMP_CMPHEAD (i : Nat) : Fld := ⟨BC_CTX_CMP_reg i, 30, 28, false⟩
def BC_CTX_CMP_CMPS (i : Nat) : Fld := ⟨BC_CTX_CMP_reg i, 27, 26, false⟩
def BC_CTX_CMP_CMPTHR (i : Nat) : Fld := ⟨BC_CTX_CMP_reg i, 23, 0, false⟩
/-- BC_CTX_MAPBASE (ch. 18 R743). -/
def BC_CTX_MAPBASE_reg (i : Nat) : Nat := 0x24103C + 0x100 * i
def BC_CTX_MAPBASE_OFS (i : Nat) : Fld := ⟨BC_CTX_MAPBASE_reg i, 31, 0, false⟩
/-- BC_CTX_PIC (ch. 18 R742). -/
def BC_CTX_PIC_reg (i : Nat) : Nat := 0x241040 + 0x100 * i
def BC_CTX_PIC_PICNO (i : Nat) : Fld := ⟨BC_CTX_PIC_reg i, 31, 16, false⟩
def BC_CTX_PIC_TYPE (i : Nat) : Fld := ⟨BC_CTX_PIC_reg i, 15, 15, false⟩
def BC_CTX_PIC_REQ (i : Nat) : Fld := ⟨BC_CTX_PIC_reg i, 14, 14, false⟩
def BC_CTX_PIC_LASTP (i : Nat) : Fld := ⟨BC_CTX_PIC_reg i, 13, 13, false⟩
def BC_CTX_PIC_ABORT (i : Nat) : Fld := ⟨BC_CTX_PIC_reg i, 12, 12, false⟩
def BC_CTX_PIC_CONC (i : Nat) : Fld := ⟨BC_CTX_PIC_reg i, 11, 0, false⟩
/-- BC_CTX_BYTES (ch. 18 R742). -/
def BC_CTX_BYTES_reg (i : Nat) : Nat := 0x241044 + 0x100 * i
def BC_CTX_BYTES_N (i : Nat) : Fld := ⟨BC_CTX_BYTES_reg i, 31, 0, false⟩
/-- BC_CTX_H (ch. 18 R742). -/
def BC_CTX_H_reg (i : Nat) : Nat := 0x241048 + 0x100 * i
def BC_CTX_H_H (i : Nat) : Fld := ⟨BC_CTX_H_reg i, 31, 0, false⟩
/-- BC_CTX_PROG (ch. 18 R718). -/
def BC_CTX_PROG_reg (i : Nat) : Nat := 0x24104C + 0x100 * i
def BC_CTX_PROG_LINE (i : Nat) : Fld := ⟨BC_CTX_PROG_reg i, 31, 0, false⟩
/-- BC_CTX_ERR (ch. 18 R741). -/
def BC_CTX_ERR_reg (i : Nat) : Nat := 0x241050 + 0x100 * i
def BC_CTX_ERR_PICNO (i : Nat) : Fld := ⟨BC_CTX_ERR_reg i, 31, 16, false⟩
def BC_CTX_ERR_ROW (i : Nat) : Fld := ⟨BC_CTX_ERR_reg i, 15, 0, false⟩
/-- BC_CTX_CNT (ch. 18 R718). -/
def BC_CTX_CNT_reg (i : Nat) : Nat := 0x241054 + 0x100 * i
def BC_CTX_CNT_FILL (i : Nat) : Fld := ⟨BC_CTX_CNT_reg i, 31, 16, false⟩
def BC_CTX_CNT_ERRS (i : Nat) : Fld := ⟨BC_CTX_CNT_reg i, 15, 0, false⟩
/-- BC_CTX_CMPRES (ch. 18 R743). -/
def BC_CTX_CMPRES_reg (i : Nat) : Nat := 0x241058 + 0x100 * i
def BC_CTX_CMPRES_N (i : Nat) : Fld := ⟨BC_CTX_CMPRES_reg i, 31, 0, false⟩
/-- LN_CTL (ch. 19 R788). -/
def LN_CTL_reg : Nat := 0x300000
def LN_CTL_RETRAIN : Fld := ⟨LN_CTL_reg, 24, 24, false⟩
def LN_CTL_FOMMIN : Fld := ⟨LN_CTL_reg, 23, 16, false⟩
def LN_CTL_EQMODE : Fld := ⟨LN_CTL_reg, 12, 12, false⟩
def LN_CTL_LANEMASK : Fld := ⟨LN_CTL_reg, 11, 8, false⟩
def LN_CTL_TESTRATE : Fld := ⟨LN_CTL_reg, 7, 6, false⟩
def LN_CTL_MAXRATE : Fld := ⟨LN_CTL_reg, 5, 4, false⟩
def LN_CTL_INIT : Fld := ⟨LN_CTL_reg, 1, 1, false⟩
def LN_CTL_EN : Fld := ⟨LN_CTL_reg, 0, 0, false⟩
/-- LN_STAT (ch. 19 R789). -/
def LN_STAT_reg : Nat := 0x300004
def LN_STAT_LOSS : Fld := ⟨LN_STAT_reg, 24, 24, true⟩
def LN_STAT_SIGDET : Fld := ⟨LN_STAT_reg, 19, 16, false⟩
def LN_STAT_WIDTH : Fld := ⟨LN_STAT_reg, 10, 8, false⟩
def LN_STAT_RATE : Fld := ⟨LN_STAT_reg, 5, 4, false⟩
def LN_STAT_STATE : Fld := ⟨LN_STAT_reg, 3, 0, false⟩
/-- LN_CNT (ch. 19 R789). -/
def LN_CNT_reg : Nat := 0x300008
def LN_CNT_LOSSES : Fld := ⟨LN_CNT_reg, 31, 16, false⟩
def LN_CNT_TRAINS : Fld := ⟨LN_CNT_reg, 15, 0, false⟩
/-- LNL_CTL (ch. 19 R790). -/
def LNL_CTL_reg (i : Nat) : Nat := 0x300100 + 0x40 * i
def LNL_CTL_TXPOL (i : Nat) : Fld := ⟨LNL_CTL_reg i, 12, 12, false⟩
def LNL_CTL_LOOP (i : Nat) : Fld := ⟨LNL_CTL_reg i, 10, 9, false⟩
def LNL_CTL_PRBSCHK (i : Nat) : Fld := ⟨LNL_CTL_reg i, 7, 6, false⟩
def LNL_CTL_PRBSGEN (i : Nat) : Fld := ⟨LNL_CTL_reg i, 5, 4, false⟩
def LNL_CTL_CLRERR (i : Nat) : Fld := ⟨LNL_CTL_reg i, 2, 2, false⟩
def LNL_CTL_BSLIP (i : Nat) : Fld := ⟨LNL_CTL_reg i, 1, 1, false⟩
def LNL_CTL_LOCKMODE (i : Nat) : Fld := ⟨LNL_CTL_reg i, 0, 0, false⟩
/-- LNL_STAT (ch. 19 R791). -/
def LNL_STAT_reg (i : Nat) : Nat := 0x300104 + 0x40 * i
def LNL_STAT_LOOPREF (i : Nat) : Fld := ⟨LNL_STAT_reg i, 10, 10, true⟩
def LNL_STAT_RXINV (i : Nat) : Fld := ⟨LNL_STAT_reg i, 9, 9, false⟩
def LNL_STAT_PRBSLOCK (i : Nat) : Fld := ⟨LNL_STAT_reg i, 8, 8, false⟩
def LNL_STAT_HDRERR (i : Nat) : Fld := ⟨LNL_STAT_reg i, 4, 4, true⟩
def LNL_STAT_BLOCK (i : Nat) : Fld := ⟨LNL_STAT_reg i, 3, 3, false⟩
def LNL_STAT_CDR (i : Nat) : Fld := ⟨LNL_STAT_reg i, 2, 2, false⟩
def LNL_STAT_SIGDET (i : Nat) : Fld := ⟨LNL_STAT_reg i, 1, 1, false⟩
def LNL_STAT_INLINK (i : Nat) : Fld := ⟨LNL_STAT_reg i, 0, 0, false⟩
/-- LNL_FOM (ch. 19 R787). -/
def LNL_FOM_reg (i : Nat) : Nat := 0x300108 + 0x40 * i
def LNL_FOM_FOM (i : Nat) : Fld := ⟨LNL_FOM_reg i, 7, 0, false⟩
/-- LNL_TXEQ (ch. 19 R786). -/
def LNL_TXEQ_reg (i : Nat) : Nat := 0x30010C + 0x40 * i
def LNL_TXEQ_MAIN (i : Nat) : Fld := ⟨LNL_TXEQ_reg i, 21, 16, false⟩
def LNL_TXEQ_POST (i : Nat) : Fld := ⟨LNL_TXEQ_reg i, 12, 8, false⟩
def LNL_TXEQ_PRE (i : Nat) : Fld := ⟨LNL_TXEQ_reg i, 3, 0, false⟩
/-- LNL_EQT (ch. 19 R786). -/
def LNL_EQT_reg (i j : Nat) : Nat := 0x300110 + 0x40 * i + 0x4 * j
def LNL_EQT_POST (i j : Nat) : Fld := ⟨LNL_EQT_reg i j, 12, 8, false⟩
def LNL_EQT_PRE (i j : Nat) : Fld := ⟨LNL_EQT_reg i j, 3, 0, false⟩
/-- LNL_ERR (ch. 19 R764). -/
def LNL_ERR_reg (i : Nat) : Nat := 0x30011C + 0x40 * i
def LNL_ERR_N (i : Nat) : Fld := ⟨LNL_ERR_reg i, 31, 0, false⟩
/-- LNL_SKEW (ch. 19 R770). -/
def LNL_SKEW_reg (i : Nat) : Nat := 0x300120 + 0x40 * i
def LNL_SKEW_SKEW (i : Nat) : Fld := ⟨LNL_SKEW_reg i, 3, 0, false⟩
/-- ST_CTL (ch. 20 R847). -/
def ST_CTL_reg : Nat := 0x310000
def ST_CTL_CLOSE : Fld := ⟨ST_CTL_reg, 3, 3, false⟩
def ST_CTL_IMGRUN : Fld := ⟨ST_CTL_reg, 2, 2, false⟩
def ST_CTL_RESUMEEN : Fld := ⟨ST_CTL_reg, 1, 1, false⟩
def ST_CTL_EN : Fld := ⟨ST_CTL_reg, 0, 0, false⟩
/-- ST_STAT (ch. 20 R848). -/
def ST_STAT_reg : Nat := 0x310004
def ST_STAT_CLOSEWHY : Fld := ⟨ST_STAT_reg, 15, 8, false⟩
def ST_STAT_TMPLERR : Fld := ⟨ST_STAT_reg, 7, 7, true⟩
def ST_STAT_RXDROP : Fld := ⟨ST_STAT_reg, 6, 6, true⟩
def ST_STAT_RDQDROP : Fld := ⟨ST_STAT_reg, 5, 5, true⟩
def ST_STAT_PROTERR : Fld := ⟨ST_STAT_reg, 4, 4, true⟩
def ST_STAT_SESS : Fld := ⟨ST_STAT_reg, 2, 0, false⟩
/-- ST_SID (ch. 20 R831). -/
def ST_SID_reg : Nat := 0x310008
def ST_SID_SID : Fld := ⟨ST_SID_reg, 31, 0, false⟩
/-- ST_RETRY (ch. 20 R837). -/
def ST_RETRY_reg : Nat := 0x31000C
def ST_RETRY_T : Fld := ⟨ST_RETRY_reg, 7, 0, false⟩
/-- ST_RDTO (ch. 20 R829). -/
def ST_RDTO_reg : Nat := 0x310010
def ST_RDTO_T : Fld := ⟨ST_RDTO_reg, 13, 0, false⟩
/-- ST_RPLYT (ch. 20 R817). -/
def ST_RPLYT_reg : Nat := 0x310014
def ST_RPLYT_T : Fld := ⟨ST_RPLYT_reg, 9, 0, false⟩
/-- ST_ADV (ch. 20 R809). -/
def ST_ADV_reg : Nat := 0x310018
def ST_ADV_CTL : Fld := ⟨ST_ADV_reg, 28, 16, false⟩
def ST_ADV_IMG : Fld := ⟨ST_ADV_reg, 12, 0, false⟩
/-- ST_CRDIMG (ch. 20 R809). -/
def ST_CRDIMG_reg : Nat := 0x31001C
def ST_CRDIMG_OUTST : Fld := ⟨ST_CRDIMG_reg, 28, 16, false⟩
def ST_CRDIMG_AVAIL : Fld := ⟨ST_CRDIMG_reg, 12, 0, false⟩
/-- ST_CRDCTL (ch. 20 R809). -/
def ST_CRDCTL_reg : Nat := 0x310020
def ST_CRDCTL_OUTST : Fld := ⟨ST_CRDCTL_reg, 28, 16, false⟩
def ST_CRDCTL_AVAIL : Fld := ⟨ST_CRDCTL_reg, 12, 0, false⟩
/-- ST_RPLY (ch. 20 R816). -/
def ST_RPLY_reg : Nat := 0x310024
def ST_RPLY_N : Fld := ⟨ST_RPLY_reg, 18, 0, false⟩
/-- ST_TAGS (ch. 20 R825). -/
def ST_TAGS_reg : Nat := 0x310028
def ST_TAGS_QUAR : Fld := ⟨ST_TAGS_reg, 22, 16, false⟩
def ST_TAGS_OUTST : Fld := ⟨ST_TAGS_reg, 14, 8, false⟩
def ST_TAGS_FREE : Fld := ⟨ST_TAGS_reg, 6, 0, false⟩
/-- ST_RDQ (ch. 20 R824). -/
def ST_RDQ_reg : Nat := 0x31002C
def ST_RDQ_ADDR : Fld := ⟨ST_RDQ_reg, 31, 0, false⟩
/-- ST_RXBASE (ch. 20 R840). -/
def ST_RXBASE_reg : Nat := 0x310030
def ST_RXBASE_OFS : Fld := ⟨ST_RXBASE_reg, 31, 0, false⟩
/-- ST_RXSIZE (ch. 20 R840). -/
def ST_RXSIZE_reg : Nat := 0x310034
def ST_RXSIZE_SIZE : Fld := ⟨ST_RXSIZE_reg, 31, 0, false⟩
/-- ST_RXWP (ch. 20 R840). -/
def ST_RXWP_reg : Nat := 0x310038
def ST_RXWP_OFS : Fld := ⟨ST_RXWP_reg, 31, 0, false⟩
/-- ST_RXRP (ch. 20 R843). -/
def ST_RXRP_reg : Nat := 0x31003C
def ST_RXRP_OFS : Fld := ⟨ST_RXRP_reg, 31, 0, false⟩
/-- ST_RXADV (ch. 20 R843). -/
def ST_RXADV_reg : Nat := 0x310040
def ST_RXADV_ADV : Fld := ⟨ST_RXADV_reg, 6, 0, false⟩
/-- ST_LATE (ch. 20 R830). -/
def ST_LATE_reg : Nat := 0x310044
def ST_LATE_N : Fld := ⟨ST_LATE_reg, 31, 0, false⟩
/-- ST_BADCPL (ch. 20 R828). -/
def ST_BADCPL_reg : Nat := 0x310048
def ST_BADCPL_N : Fld := ⟨ST_BADCPL_reg, 31, 0, false⟩
/-- ST_ERRS (ch. 20 R805). -/
def ST_ERRS_reg : Nat := 0x31004C
def ST_ERRS_LOSSES : Fld := ⟨ST_ERRS_reg, 31, 16, false⟩
def ST_ERRS_FCRC : Fld := ⟨ST_ERRS_reg, 15, 0, false⟩
/-- ST_RPLCNT (ch. 20 R817). -/
def ST_RPLCNT_reg : Nat := 0x310050
def ST_RPLCNT_NAKS : Fld := ⟨ST_RPLCNT_reg, 31, 16, false⟩
def ST_RPLCNT_ROUNDS : Fld := ⟨ST_RPLCNT_reg, 15, 0, false⟩
/-- ST_PROTERR (ch. 20 R805). -/
def ST_PROTERR_reg : Nat := 0x310054
def ST_PROTERR_N : Fld := ⟨ST_PROTERR_reg, 31, 0, false⟩
/-- ST_EMITS (ch. 20 R311). -/
def ST_EMITS_reg (i : Nat) : Nat := 0x310060 + 0x4 * i
def ST_EMITS_N (i : Nat) : Fld := ⟨ST_EMITS_reg i, 31, 0, false⟩
/-- ST_ACC (ch. 20 R822). -/
def ST_ACC_reg (i : Nat) : Nat := 0x310100 + 0x10 * i
def ST_ACC_N (i : Nat) : Fld := ⟨ST_ACC_reg i, 31, 0, false⟩
/-- ST_DONE (ch. 20 R822). -/
def ST_DONE_reg (i : Nat) : Nat := 0x310104 + 0x10 * i
def ST_DONE_N (i : Nat) : Fld := ⟨ST_DONE_reg i, 31, 0, false⟩
/-- ST_LOST (ch. 20 R838). -/
def ST_LOST_reg (i : Nat) : Nat := 0x310108 + 0x10 * i
def ST_LOST_N (i : Nat) : Fld := ⟨ST_LOST_reg i, 31, 0, false⟩
/-- BWL_CTL (ch. 22 R894). -/
def BWL_CTL_reg : Nat := 0x320000
def BWL_CTL_HOPLEN : Fld := ⟨BWL_CTL_reg, 31, 16, false⟩
def BWL_CTL_REFORM : Fld := ⟨BWL_CTL_reg, 3, 3, false⟩
def BWL_CTL_MIRROR : Fld := ⟨BWL_CTL_reg, 2, 2, false⟩
def BWL_CTL_ROLE : Fld := ⟨BWL_CTL_reg, 1, 1, false⟩
def BWL_CTL_EN : Fld := ⟨BWL_CTL_reg, 0, 0, false⟩
/-- BWL_STAT (ch. 22 R911). -/
def BWL_STAT_reg : Nat := 0x320004
def BWL_STAT_FAULT : Fld := ⟨BWL_STAT_reg, 31, 24, false⟩
def BWL_STAT_SEEN : Fld := ⟨BWL_STAT_reg, 23, 16, false⟩
def BWL_STAT_EPOCHKEEP : Fld := ⟨BWL_STAT_reg, 15, 15, false⟩
def BWL_STAT_RINGERR : Fld := ⟨BWL_STAT_reg, 14, 14, true⟩
def BWL_STAT_EPOCHERR : Fld := ⟨BWL_STAT_reg, 13, 13, true⟩
def BWL_STAT_CHKERR : Fld := ⟨BWL_STAT_reg, 12, 12, true⟩
def BWL_STAT_LOST : Fld := ⟨BWL_STAT_reg, 11, 11, true⟩
def BWL_STAT_UNIT : Fld := ⟨BWL_STAT_reg, 10, 8, false⟩
def BWL_STAT_NM1 : Fld := ⟨BWL_STAT_reg, 6, 4, false⟩
def BWL_STAT_STATE : Fld := ⟨BWL_STAT_reg, 2, 0, false⟩
/-- BWL_RTT (ch. 22 R896). -/
def BWL_RTT_reg : Nat := 0x320008
def BWL_RTT_DCABLE : Fld := ⟨BWL_RTT_reg, 31, 16, false⟩
def BWL_RTT_DRT : Fld := ⟨BWL_RTT_reg, 15, 0, false⟩
/-- BWL_OFS (ch. 22 R897). -/
def BWL_OFS_reg : Nat := 0x32000C
def BWL_OFS_TOTLEN : Fld := ⟨BWL_OFS_reg, 31, 16, false⟩
def BWL_OFS_OK : Fld := ⟨BWL_OFS_reg, 15, 0, false⟩
/-- BWL_EVCNT (ch. 22 R908). -/
def BWL_EVCNT_reg : Nat := 0x320010
def BWL_EVCNT_DELAYED : Fld := ⟨BWL_EVCNT_reg, 31, 16, false⟩
def BWL_EVCNT_SENT : Fld := ⟨BWL_EVCNT_reg, 15, 0, false⟩
/-- BWL_TX (ch. 22 R908). -/
def BWL_TX_reg (i : Nat) : Nat := 0x320020 + 0x4 * i
def BWL_TX_EN (i : Nat) : Fld := ⟨BWL_TX_reg i, 31, 31, false⟩
def BWL_TX_SRC (i : Nat) : Fld := ⟨BWL_TX_reg i, 4, 0, false⟩
/-- BWL_RX (ch. 22 R910). -/
def BWL_RX_reg (i : Nat) : Nat := 0x320040 + 0x4 * i
def BWL_RX_SWT (i : Nat) : Fld := ⟨BWL_RX_reg i, 11, 8, false⟩
def BWL_RX_ACT (i : Nat) : Fld := ⟨BWL_RX_reg i, 1, 0, false⟩
/-- SHR_CTL (ch. 23 R37). -/
def SHR_CTL_reg : Nat := 0x330000
def SHR_CTL_SCRUBCM : Fld := ⟨SHR_CTL_reg, 5, 5, false⟩
def SHR_CTL_SCRUBLS : Fld := ⟨SHR_CTL_reg, 4, 4, false⟩
def SHR_CTL_PROFILE : Fld := ⟨SHR_CTL_reg, 1, 0, false⟩
/-- SHR_STATUS (ch. 23 R934). -/
def SHR_STATUS_reg : Nat := 0x330004
def SHR_STATUS_CLRREF : Fld := ⟨SHR_STATUS_reg, 16, 16, true⟩
def SHR_STATUS_SAFE : Fld := ⟨SHR_STATUS_reg, 13, 13, false⟩
def SHR_STATUS_HELD : Fld := ⟨SHR_STATUS_reg, 12, 12, false⟩
def SHR_STATUS_SELFTEST : Fld := ⟨SHR_STATUS_reg, 9, 8, false⟩
def SHR_STATUS_COND : Fld := ⟨SHR_STATUS_reg, 5, 1, false⟩
def SHR_STATUS_ARMED : Fld := ⟨SHR_STATUS_reg, 0, 0, false⟩
/-- SHR_HANDLER (ch. 23 R39). -/
def SHR_HANDLER_reg : Nat := 0x330008
def SHR_HANDLER_ADDR : Fld := ⟨SHR_HANDLER_reg, 31, 0, false⟩
/-- SHR_CLEAR (ch. 23 R927). -/
def SHR_CLEAR_reg : Nat := 0x33000C
def SHR_CLEAR_KEY : Fld := ⟨SHR_CLEAR_reg, 31, 0, false⟩
/-- SHR_REC (ch. 23 R918). -/
def SHR_REC_reg : Nat := 0x330010
def SHR_REC_NSEC : Fld := ⟨SHR_REC_reg, 31, 24, false⟩
def SHR_REC_CLASS : Fld := ⟨SHR_REC_reg, 23, 16, false⟩
def SHR_REC_PRIMARY : Fld := ⟨SHR_REC_reg, 15, 0, false⟩
/-- SHR_REC_INFO (ch. 23 R918). -/
def SHR_REC_INFO_reg : Nat := 0x330014
def SHR_REC_INFO_HELD : Fld := ⟨SHR_REC_INFO_reg, 31, 31, false⟩
def SHR_REC_INFO_CORE : Fld := ⟨SHR_REC_INFO_reg, 18, 16, false⟩
def SHR_REC_INFO_NOTICE : Fld := ⟨SHR_REC_INFO_reg, 15, 0, false⟩
/-- SHR_DET_LO (ch. 23 R918). -/
def SHR_DET_LO_reg : Nat := 0x330018
def SHR_DET_LO_T : Fld := ⟨SHR_DET_LO_reg, 31, 0, false⟩
/-- SHR_DET_HI (ch. 23 R918). -/
def SHR_DET_HI_reg : Nat := 0x33001C
def SHR_DET_HI_T : Fld := ⟨SHR_DET_HI_reg, 15, 0, false⟩
/-- SHR_SUS_LO (ch. 23 R919). -/
def SHR_SUS_LO_reg : Nat := 0x330020
def SHR_SUS_LO_T : Fld := ⟨SHR_SUS_LO_reg, 31, 0, false⟩
/-- SHR_SUS_HI (ch. 23 R919). -/
def SHR_SUS_HI_reg : Nat := 0x330024
def SHR_SUS_HI_T : Fld := ⟨SHR_SUS_HI_reg, 15, 0, false⟩
/-- SHR_SEC (ch. 23 R920). -/
def SHR_SEC_reg (i : Nat) : Nat := 0x330040 + 0x4 * i
def SHR_SEC_CODES (i : Nat) : Fld := ⟨SHR_SEC_reg i, 31, 0, false⟩
/-- SHR_CE (ch. 23 R924). -/
def SHR_CE_reg : Nat := 0x330060
def SHR_CE_N : Fld := ⟨SHR_CE_reg, 31, 0, false⟩
/-- SHR_CEADDR (ch. 23 R924). -/
def SHR_CEADDR_reg : Nat := 0x330064
def SHR_CEADDR_MEM : Fld := ⟨SHR_CEADDR_reg, 31, 24, false⟩
def SHR_CEADDR_IDX : Fld := ⟨SHR_CEADDR_reg, 23, 0, false⟩
/-- SHR_C13 (ch. 23 R925). -/
def SHR_C13_reg : Nat := 0x330068
def SHR_C13_N : Fld := ⟨SHR_C13_reg, 31, 0, false⟩
/-- SHR_FWLOG (ch. 23 R925). -/
def SHR_FWLOG_reg : Nat := 0x33006C
def SHR_FWLOG_NOTLOGGED : Fld := ⟨SHR_FWLOG_reg, 31, 16, false⟩
def SHR_FWLOG_RAISES : Fld := ⟨SHR_FWLOG_reg, 15, 0, false⟩
/-- SHR_TEMP (ch. 23 R928). -/
def SHR_TEMP_reg : Nat := 0x330070
def SHR_TEMP_WARN : Fld := ⟨SHR_TEMP_reg, 24, 24, false⟩
def SHR_TEMP_SENSOR : Fld := ⟨SHR_TEMP_reg, 18, 16, false⟩
def SHR_TEMP_TEMP : Fld := ⟨SHR_TEMP_reg, 15, 0, false⟩
/-- SHR_INJ (ch. 23 R933). -/
def SHR_INJ_reg : Nat := 0x330074
def SHR_INJ_GO : Fld := ⟨SHR_INJ_reg, 31, 31, false⟩
def SHR_INJ_TARGET : Fld := ⟨SHR_INJ_reg, 10, 8, false⟩
def SHR_INJ_KIND : Fld := ⟨SHR_INJ_reg, 3, 0, false⟩
/-- SHR_SCRUB (ch. 23 R924). -/
def SHR_SCRUB_reg : Nat := 0x330080
def SHR_SCRUB_CORE : Fld := ⟨SHR_SCRUB_reg, 31, 16, false⟩
def SHR_SCRUB_LS : Fld := ⟨SHR_SCRUB_reg, 15, 0, false⟩
/-- NV_CTL (ch. 23 R948). -/
def NV_CTL_reg : Nat := 0x340000
def NV_CTL_SLOT : Fld := ⟨NV_CTL_reg, 22, 16, false⟩
def NV_CTL_CMD : Fld := ⟨NV_CTL_reg, 7, 4, false⟩
def NV_CTL_GO : Fld := ⟨NV_CTL_reg, 0, 0, false⟩
/-- NV_STAT (ch. 23 R947). -/
def NV_STAT_reg : Nat := 0x340004
def NV_STAT_CUR : Fld := ⟨NV_STAT_reg, 12, 12, false⟩
def NV_STAT_REFUSED : Fld := ⟨NV_STAT_reg, 8, 8, true⟩
def NV_STAT_RESULT : Fld := ⟨NV_STAT_reg, 6, 4, false⟩
def NV_STAT_READY : Fld := ⟨NV_STAT_reg, 1, 1, false⟩
def NV_STAT_BUSY : Fld := ⟨NV_STAT_reg, 0, 0, false⟩
/-- NV_LEN (ch. 23 R948). -/
def NV_LEN_reg : Nat := 0x340008
def NV_LEN_LEN : Fld := ⟨NV_LEN_reg, 9, 0, false⟩
/-- NV_TAG (ch. 23 R948). -/
def NV_TAG_reg : Nat := 0x34000C
def NV_TAG_TAG : Fld := ⟨NV_TAG_reg, 7, 0, false⟩
/-- NV_GEN (ch. 23 R948). -/
def NV_GEN_reg : Nat := 0x340010
def NV_GEN_GEN : Fld := ⟨NV_GEN_reg, 31, 0, false⟩
/-- NV_WHEN_LO (ch. 23 R948). -/
def NV_WHEN_LO_reg : Nat := 0x340014
def NV_WHEN_LO_W : Fld := ⟨NV_WHEN_LO_reg, 31, 0, false⟩
/-- NV_WHEN_HI (ch. 23 R948). -/
def NV_WHEN_HI_reg : Nat := 0x340018
def NV_WHEN_HI_W : Fld := ⟨NV_WHEN_HI_reg, 31, 0, false⟩
/-- NV_LOGHEAD (ch. 23 R944). -/
def NV_LOGHEAD_reg : Nat := 0x34001C
def NV_LOGHEAD_IDX : Fld := ⟨NV_LOGHEAD_reg, 6, 0, false⟩
/-- NV_LOGSEQ (ch. 23 R944). -/
def NV_LOGSEQ_reg : Nat := 0x340020
def NV_LOGSEQ_LSEQ : Fld := ⟨NV_LOGSEQ_reg, 31, 0, false⟩
/-- NV_BOOTNO (ch. 23 R944). -/
def NV_BOOTNO_reg : Nat := 0x340024
def NV_BOOTNO_N : Fld := ⟨NV_BOOTNO_reg, 31, 0, false⟩
/-- NV_CNT (ch. 23 R938). -/
def NV_CNT_reg : Nat := 0x340028
def NV_CNT_INVALID : Fld := ⟨NV_CNT_reg, 31, 16, false⟩
def NV_CNT_CORR : Fld := ⟨NV_CNT_reg, 15, 0, false⟩
/-- NV_BUF (ch. 23 R948). -/
def NV_BUF_reg (i : Nat) : Nat := 0x341000 + 0x4 * i
def NV_BUF_W (i : Nat) : Fld := ⟨NV_BUF_reg i, 31, 0, false⟩
/-- C_CTL (ch. 06 R207). -/
def C_CTL_reg (i : Nat) : Nat := 0x40C000 + 0x10000 * i
def C_CTL_CMD (i : Nat) : Fld := ⟨C_CTL_reg i, 7, 0, false⟩
/-- C_STAT (ch. 06 R208). -/
def C_STAT_reg (i : Nat) : Nat := 0x40C004 + 0x10000 * i
def C_STAT_CAUSE (i : Nat) : Fld := ⟨C_STAT_reg i, 11, 8, false⟩
def C_STAT_STATE (i : Nat) : Fld := ⟨C_STAT_reg i, 1, 0, false⟩
/-- C_PC (ch. 06 R206). -/
def C_PC_reg (i : Nat) : Nat := 0x40C008 + 0x10000 * i
def C_PC_PC (i : Nat) : Fld := ⟨C_PC_reg i, 31, 0, false⟩
/-- C_START (ch. 06 R206). -/
def C_START_reg (i : Nat) : Nat := 0x40C00C + 0x10000 * i
def C_START_ADDR (i : Nat) : Fld := ⟨C_START_reg i, 31, 0, false⟩
/-- C_EVT_EN (ch. 06 R206). -/
def C_EVT_EN_reg (i : Nat) : Nat := 0x40C010 + 0x10000 * i
def C_EVT_EN_EN (i : Nat) : Fld := ⟨C_EVT_EN_reg i, 31, 0, false⟩
/-- C_EVT_PEND (ch. 06 R206). -/
def C_EVT_PEND_reg (i : Nat) : Nat := 0x40C014 + 0x10000 * i
def C_EVT_PEND_PEND (i : Nat) : Fld := ⟨C_EVT_PEND_reg i, 31, 0, true⟩
/-- C_EVT_OVF (ch. 06 R206). -/
def C_EVT_OVF_reg (i : Nat) : Nat := 0x40C018 + 0x10000 * i
def C_EVT_OVF_OVF (i : Nat) : Fld := ⟨C_EVT_OVF_reg i, 31, 0, true⟩
/-- C_DB (ch. 06 R222). -/
def C_DB_reg (i : Nat) : Nat := 0x40C01C + 0x10000 * i
def C_DB_DB (i : Nat) : Fld := ⟨C_DB_reg i, 31, 0, false⟩
/-- C_DB_PEND (ch. 06 R222). -/
def C_DB_PEND_reg (i : Nat) : Nat := 0x40C020 + 0x10000 * i
def C_DB_PEND_PEND (i : Nat) : Fld := ⟨C_DB_PEND_reg i, 8, 0, true⟩
/-- C_FAULT_ADDR (ch. 06 R206). -/
def C_FAULT_ADDR_reg (i : Nat) : Nat := 0x40C024 + 0x10000 * i
def C_FAULT_ADDR_ADDR (i : Nat) : Fld := ⟨C_FAULT_ADDR_reg i, 31, 0, false⟩
/-- C_WREG (ch. 06 R206). -/
def C_WREG_reg (i j : Nat) : Nat := 0x40C040 + 0x10000 * i + 0x4 * j
def C_WREG_W (i j : Nat) : Fld := ⟨C_WREG_reg i j, 31, 0, false⟩
end F
end Sys2Proof.Machine
end

