-- ==== Sys2Proof/Machine/State.lean ====
section
/-!
DEFINITION. The state of the RNV-632 as plain data, the reasons a step can stop, and the state after reset.
-/
namespace Sys2Proof.Machine

/-- What a reset of the device works on: every register, memory, counter and pin (R127), apart from the fuses and
the NV array, which no reset touches. -/
structure Mach where
  /-- Registers of the map, keyed by control-port address; an unlisted one holds its reset value (R117). -/
  regs : Sparse 32 := []
  /-- Pending sets of the commit registers (R228), keyed as `regs`. -/
  pendSet : Sparse 32 := []
  /-- Active sets (R228). -/
  actSet : Sparse 32 := []
  /-- Commit registers whose GO reads 1, with the tick in which the snapshot was taken (R228). -/
  commits : List (Nat × Nat) := []
  /-- Core memories and line store, by control-port address (R203, R881). -/
  mem : List Host.Cell := []
  /-- Word addresses (multiples of 4; of 8 in the line store) with an uncorrectable error, and with one bit in error. -/
  eccBad : List Nat := []
  eccOne : List Nat := []
  sysTime : BitVec 48 := 0
  wraps : BitVec 16 := 0
  /-- Free values taken so far: the model's own counter (log entry 2). -/
  freeCtr : Nat := 0
  beat : BeatSt := {}
  clk : ClkSt := {}
  pwr : PwrSt := {}
  pins : PinsIn := {}
  out : Outs := {}
  cores : Vector CoreSt 8 := Vector.replicate 8 {}
  heads : Vector HeadSt 6 := Vector.replicate 6 {}
  aux : AuxSt := {}
  trg : TrgSt := {}
  axes : Vector AxisSt 2 := Vector.replicate 2 {}
  reef : ReefSt := {}
  bc : BcSt := {}
  ln : LnSt := {}
  st : StSt := {}
  bwl : BwlSt := {}
  shr : ShrSt := {}
  nv : NvSt := {}
  port : PortSt := {}
  boot : BootSt := {}
  deriving DecidableEq, Repr

/-- The state of the block: what resets work on, what they leave alone, and the commands that wait. -/
structure State where
  /-- Commands waiting, first in, first out (the model's own; log entry 1). -/
  pending : List Instr := []
  /-- Fuse bits 0-258 (05 R171-R176): 0-255 KEYHASH, 256 HASH_SET, 257 SIGN_REQ, 258 LANE_BOOT_DIS. -/
  fuses : BitVec 259 := 0
  /-- NV array bytes, 256 KiB (23 R935). -/
  nvArr : List Host.Cell := []
  m : Mach := {}
  deriving DecidableEq, Repr

/-- The block never stops with a fault: what the hardware detects is recorded in its state (Shroud's record, a
core's halt cause, an error flag).  No command raises one. -/
inductive Fault where
  deriving DecidableEq, Repr

/-- Reasons a command has no meaning. -/
inductive Refusal where
  /-- Raised by an arm of `exec` whose command has no meaning yet; safe. -/
  | notModelled (mnemonic : String)
  deriving DecidableEq, Repr

/-- The device in the first tick after power-on reset is released (R112, R115, R117): supplies good, LOCK and REF_OK set
and SYS_TIME at 0 (R78, R91), the self-test and the boot ROM started with both reference buffers on (R180) and C7 running
it (R208); every other register at its reset value (log entry 4). Log entry 57. -/
def State.reset : State :=
  { m := { regs := [(0x10000, 3), (0x20040, 3), (0x47C004, 1)], boot := { zeroDue := some 16388, vSince := some 0, aSince := some 0 } } }

end Sys2Proof.Machine
end

