-- ==== Sys2Proof/Machine/Ops.lean ====
section
/-!
DEFINITION. The named operations over registers, memory, time, outputs and event lines, through which every meaning
reads and writes the state.
-/
namespace Sys2Proof.Machine

/-! ## Registers -/

/-- Whether a row of the map holds control-port address `a`. -/
def RegRow.holds (r : RegRow) (a : Nat) : Bool :=
  let o := a - r.base
  r.base ≤ a && o / r.s1 < r.n1 && (o % r.s1) / r.s2 < r.n2 && (o % r.s1) % r.s2 = 0

/-- The row of the register at `a`, if `a` names one (R882). -/
def findReg (a : Nat) : Option RegRow := regTable.find? (fun r => r.holds a)

/-- The reset value of the register at `a` (R117). -/
def regReset (a : Nat) : BitVec 32 :=
  match findReg a with
  | some r => BitVec.ofNat 32 r.reset
  | none => 0

/-- Whether the register at `a` belongs to a shadow set (R226). -/
def isShadow (a : Nat) : Bool :=
  match findReg a with
  | some r => r.shadow
  | none => false

/-- The word a register holds. -/
def Mach.reg (m : Mach) (a : Nat) : Word := Sparse.get regReset m.regs a

/-- Sets the word a register holds, whatever its access codes. -/
def Mach.setReg (m : Mach) (a : Nat) (v : Word) : Mach :=
  { m with regs := Sparse.set regReset m.regs a v }

/-- The value of a field. -/
def Mach.get (m : Mach) (f : Fld) : Nat := bits (m.reg f.addr).toNat f.hi f.lo

/-- Whether a field is not 0. -/
def Mach.is (m : Mach) (f : Fld) : Bool := m.get f != 0

/-- The extended count T of R83. -/
def Mach.now (m : Mach) : Nat := m.wraps.toNat * 2 ^ 48 + m.sysTime.toNat

/-- The hardware sets the W1C flags `mask` of the register at `a` in this beat (R16). -/
def BeatSt.mark (x : BeatSt) (t a mask : Nat) : BeatSt :=
  { x with flagAt := t + 1, flags := (a, mask) :: (if x.flagAt = t + 1 then x.flags else []) }

/-- The flags of the register at `a` that the hardware has set in beat `t`. -/
def BeatSt.marked (x : BeatSt) (t a : Nat) : Nat :=
  if x.flagAt = t + 1 then (x.flags.filter (fun (p : Nat × Nat) => p.1 = a)).foldl (fun n p => n ||| p.2) 0 else 0

/-- Notes flags of a W1C field that are set in this beat. -/
def Mach.noteFlags (m : Mach) (f : Fld) (v : Nat) : Mach :=
  if f.w1c && v % 2 ^ (f.hi + 1 - f.lo) != 0 then
    { m with beat := m.beat.mark m.now f.addr (v % 2 ^ (f.hi + 1 - f.lo) * 2 ^ f.lo) }
  else m

/-- Sets a field by the hardware's hand. -/
def Mach.put (m : Mach) (f : Fld) (v : Nat) : Mach :=
  (m.setReg f.addr (BitVec.ofNat 32 (setBits (m.reg f.addr).toNat f.hi f.lo v))).noteFlags f v

/-- Sets one bit of a field that holds flags. -/
def Mach.putBit (m : Mach) (f : Fld) (i : Nat) : Mach :=
  (m.setReg f.addr (BitVec.ofNat 32 (setBits (m.reg f.addr).toNat f.hi f.lo (m.get f ||| 2 ^ i)))).noteFlags f (2 ^ i)

/-- Clears the bits of `mask` in a field that holds flags. -/
def Mach.clear (m : Mach) (f : Fld) (mask : Nat) : Mach :=
  m.setReg f.addr (BitVec.ofNat 32 (setBits (m.reg f.addr).toNat f.hi f.lo (m.get f - (m.get f &&& mask))))

/-- Counts a field up by `n`, holding at its greatest value. -/
def Mach.countHold (m : Mach) (f : Fld) (n : Nat) : Mach :=
  m.put f (addHold (2 ^ (f.hi + 1 - f.lo) - 1) (m.get f) n)

/-- Counts a field up by `n`, modulo its width. -/
def Mach.countMod (m : Mach) (f : Fld) (n : Nat) : Mach := m.put f (m.get f + n)

/-- A shadowed field of the active set (R228). -/
def Mach.act (m : Mach) (f : Fld) : Nat := bits (Sparse.get regReset m.actSet f.addr).toNat f.hi f.lo

/-- A field of a set that a line keeps (R360). -/
def setGet (s : Sparse 32) (f : Fld) : Nat := bits (Sparse.get regReset s f.addr).toNat f.hi f.lo

/-- The plain effect of a write by the access codes of R15: RW bits take the value, W1C bits written 1 clear, SC bits
written 1 read 1; RO, WO and reserved bits stay (R18).  Flags that the hardware sets in the same beat, `set`, stay (R16). -/
def RegRow.apply (r : RegRow) (old v set : Nat) : Nat :=
  let kept := old &&& (2 ^ 32 - 1 - r.rw)
  let kept := kept - (kept &&& v &&& r.w1c &&& (2 ^ 32 - 1 - set % 2 ^ 32))
  (kept ||| (v &&& r.rw)) ||| (v &&& r.sc)

/-- A write to a register without behaviour of its own (R15). -/
def Mach.plainWrite (m : Mach) (a : Nat) (v : Word) : Mach :=
  match findReg a with
  | some r => m.setReg a (BitVec.ofNat 32 (r.apply (m.reg a).toNat v.toNat (m.beat.marked m.now a)))
  | none => m

/-! ## Time -/

/-- Sets T. -/
def Mach.setNow (m : Mach) (t : Nat) : Mach :=
  { m with sysTime := BitVec.ofNat 48 (t % 2 ^ 48), wraps := BitVec.ofNat 16 (t / 2 ^ 48) }

/-- The clock runs on to beat `t`, or not at all when `t` is past (log entry 5). -/
def Mach.runTo (m : Mach) (t : Nat) : Mach := if m.clk.running && m.now < t then m.setNow t else m

/-- The clock runs on to the first beat of a tick, where what steps on ticks acts (R74-R76). Log entry 69. -/
def Mach.atTick (m : Mach) : Mach := m.runTo (nextGrid 4 m.now)

/-- The tick in which what happens in this beat shows to what steps on ticks (R76, R210), as its number plus one. -/
def Mach.tickNo (m : Mach) : Nat := ceilDiv m.now 4 + 1

/-- The turn of an agent, 0 the control port and 1 + n core Cn, to access: in a tick the control port comes first and the
cores follow in ascending number, each once; an agent that is past its turn acts in the next tick (R31, R204, R232, R309).
Log entry 69. -/
def Mach.turn (m : Mach) (r : Nat) : Mach :=
  if !m.clk.running then m
  else
    let m := m.atTick
    let m := if m.beat.turnAt = m.now / 4 + 1 && r ≤ m.beat.turnBy then m.runTo (m.now + 4) else m
    { m with beat := { m.beat with turnAt := m.now / 4 + 1, turnBy := r } }

/-- A due beat that moves with the count, by `d` beats. Log entry 70. -/
def moved (d : Int) (t : Nat) : Nat := (t + d).toNat
def movedO (d : Int) (t : Option Nat) : Option Nat := t.map (fun (x : Nat) => moved d x)

/-- An agent's place in the order of a tick (R31). -/
def agentRank : Agent → Nat
  | .port => 0
  | .core c => c.val + 1

/-- SYS_TIME of T. -/
def sysOf (t : Nat) : Nat := t % 2 ^ 48

/-- `round(a / b)` for `b > 0`, halves away from zero (log entry 8). -/
def roundDiv (a : Int) (b : Nat) : Int :=
  if 0 ≤ a then floorDiv (2 * a + b) (2 * b) else -(floorDiv (2 * (-a) + b) (2 * b))

/-- Takes a free value of `w` bits (log entry 2). Log entry 53. -/
def Mach.fresh (m : Mach) (w : Nat) : Nat × Mach :=
  ((Config.freeValue m.freeCtr).toNat % 2 ^ w, { m with freeCtr := m.freeCtr + 1 })

/-- A reset is asserted (R112, R118). -/
def Mach.inReset (m : Mach) : Bool := m.pwr.por || m.pwr.porExt || m.pwr.pinRst || m.pwr.softEnd.isSome

/-- The outputs follow their blocks: no reset drives them, at once or through the clock's return (R132, R134, R141). -/
def Mach.outsUp (m : Mach) : Bool := !m.inReset && !m.pwr.thermal && !m.pwr.digPend

/-- The blocks other than those R930 leaves out of thermal shutdown receive beats and are out of reset. -/
def Mach.live (m : Mach) : Bool := m.clk.running && !m.inReset && !m.pwr.thermal

/-- Applies a step when a Boolean holds. -/
def Mach.when (m : Mach) (b : Bool) (f : Mach → Mach) : Mach := if b then f m else m

/-- Acts only while the blocks run. -/
def Mach.ifLive (m : Mach) (f : Mach → Mach) : Mach := if m.live then f m else m

/-! ## Memory -/

/-- A byte of memory; one that nothing has written reads 0 (log entry 6). -/
def Mach.byte (m : Mach) (a : Nat) : Byte := Sparse.get (fun _ => 0) m.mem a

def Mach.setByte (m : Mach) (a : Nat) (v : Byte) : Mach :=
  { m with mem := Sparse.set (fun _ => 0) m.mem a v }

/-- `n` bytes from `a` upward, little-endian, as a number. -/
def Mach.load (m : Mach) (a : Nat) : Nat → Nat
  | 0 => 0
  | n + 1 => (m.byte a).toNat + 256 * m.load (a + 1) n

/-- Stores the low `n` bytes of `v` from `a` upward, little-endian. -/
def Mach.storeN (m : Mach) (a : Nat) : Nat → Nat → Mach
  | 0, _ => m
  | n + 1, v => (m.setByte a (BitVec.ofNat 8 v)).storeN (a + 1) n (v / 256)

/-- Stores a list of bytes from `a` upward. -/
def Mach.storeBytes (m : Mach) (a : Nat) : List Byte → Mach
  | [] => m
  | b :: t => (m.setByte a b).storeBytes (a + 1) t

/-- Reads `n` bytes from `a` upward. -/
def Mach.loadBytes (m : Mach) (a : Nat) : Nat → List Byte
  | 0 => []
  | n + 1 => m.byte a :: m.loadBytes (a + 1) n

/-- `n` little-endian bytes of a number. -/
def leBytes : Nat → Nat → List Byte
  | 0, _ => []
  | n + 1, v => BitVec.ofNat 8 v :: leBytes n (v / 256)

/-- The number that little-endian bytes spell. -/
def leNat : List Byte → Nat
  | [] => 0
  | b :: t => b.toNat + 256 * leNat t

/-- `n` big-endian bytes of a number. -/
def beBytes (n v : Nat) : List Byte := (leBytes n v).reverse

/-- The number that big-endian bytes spell. -/
def beNat (l : List Byte) : Nat := leNat l.reverse

def lineBase : Nat := 0x8000000
def lineSize : Nat := 0x3000000
def mbxBase : Nat := 0x480000
def imemBase (n : Nat) : Nat := 0x400000 + 0x10000 * n
def dmemBase (n : Nat) : Nat := 0x408000 + 0x10000 * n

/-- A byte address of the line store window (R881). -/
def inLine (a : Nat) : Bool := lineBase ≤ a && a < lineBase + lineSize
/-- A byte address of the mailbox, an IMEM or a DMEM (R203). -/
def inCoreMem (a : Nat) : Bool :=
  (mbxBase ≤ a && a < mbxBase + 0x4000) ||
  (0x400000 ≤ a && a < 0x480000 && (a - 0x400000) % 0x10000 < 0xC000)

/-- The ECC word that holds byte `a`: 64 bits in the line store, 32 in a core memory (R196, R924). -/
def eccWord (a : Nat) : Nat := if inLine a then a / 8 * 8 else a / 4 * 4

def Mach.isBad (m : Mach) (a : Nat) : Bool := m.eccBad.contains (eccWord a)

/-- The memory code of R920 for byte `a`. -/
def memCode (a : Nat) : Nat :=
  if inLine a then 0x20
  else if mbxBase ≤ a then 0x10
  else
    let n := (a - 0x400000) / 0x10000
    if (a - 0x400000) % 0x10000 < 0x8000 then n else 8 + n

/-- The word of byte `a` goes uncorrectable; the march test of the boot finds it while that test runs (R177, R178; log entry 95). -/
def Mach.spoil (m : Mach) (a : Nat) : Mach :=
  if m.isBad a then m
  else
    let b := m.boot
    let found := inCoreMem a && m.get F.BOOT_STATUS_PHASE = 3 && m.now ≤ b.checkAt + 131072
    { m with eccBad := eccWord a :: m.eccBad, eccOne := m.eccOne.filter (· != eccWord a),
             boot := { b with coreBad := b.coreBad || found } }

/-- The boot ROM has zeroed the core memories once its step 2 has ended (R149, R188). -/
def Mach.bootZero (m : Mach) : Mach :=
  match m.boot.zeroDue with
  | some t =>
    if t ≤ m.now && m.clk.running then
      { m with mem := Sparse.clear inCoreMem m.mem, eccBad := m.eccBad.filter (fun a => !inCoreMem a),
               eccOne := m.eccOne.filter (fun a => !inCoreMem a), boot := { m.boot with zeroDue := none } }
    else m
  | none => m

/-- Corrects a one-bit error met by an access and counts class 12 (R48, R196, R925). -/
def Mach.touch (m : Mach) (a : Nat) : Mach :=
  if m.eccOne.contains (eccWord a) then
    let m := { m with eccOne := m.eccOne.filter (· != eccWord a) }
    let m := m.countMod F.SHR_CE_N 1
    (m.put F.SHR_CEADDR_MEM (memCode a)).put F.SHR_CEADDR_IDX
      (if inLine a then (a - lineBase) / 8
       else if mbxBase ≤ a then (a - mbxBase) / 4
       else ((a - 0x400000) % 0x10000 % 0x8000) / 4)
  else m

/-! ## Checks -/

/-- One step of CRC-32C over a byte (R155). -/
def crc32cByte (c : BitVec 32) (b : Byte) : BitVec 32 :=
  let x := c ^^^ (b.zeroExtend 32)
  let f (x : BitVec 32) : BitVec 32 := if x.getLsbD 0 then (x >>> 1) ^^^ 0x82F63B78 else x >>> 1
  f (f (f (f (f (f (f (f x)))))))

/-- CRC-32C of R155. -/
def crc32c (l : List Byte) : BitVec 32 := (l.foldl crc32cByte 0xFFFFFFFF) ^^^ 0xFFFFFFFF

/-- One step of the CRC-8 of R469. -/
def crc8Byte (c : BitVec 8) (b : Byte) : BitVec 8 :=
  let f (x : BitVec 8) : BitVec 8 := if x.getLsbD 7 then (x <<< 1) ^^^ 0x07 else x <<< 1
  f (f (f (f (f (f (f (f (c ^^^ b))))))))

/-- The CRC-8 of R469. -/
def crc8 (l : List Byte) : BitVec 8 := l.foldl crc8Byte 0

/-! ## Blocks by index -/

def Mach.core (m : Mach) (c : Fin 8) : CoreSt := m.cores[c]
def Mach.setCore (m : Mach) (c : Fin 8) (x : CoreSt) : Mach := { m with cores := m.cores.set c x }
def Mach.head (m : Mach) (h : Fin 6) : HeadSt := m.heads[h]
def Mach.setHead (m : Mach) (h : Fin 6) (x : HeadSt) : Mach := { m with heads := m.heads.set h x }
def Mach.setTpg (m : Mach) (h : Fin 6) (x : TpgSt) : Mach := m.setHead h { m.head h with tpg := x }
def Mach.setVadc (m : Mach) (h : Fin 6) (x : VadcSt) : Mach := m.setHead h { m.head h with vadc := x }
def Mach.setShd (m : Mach) (h : Fin 6) (x : ShdSt) : Mach := m.setHead h { m.head h with shd := x }
def Mach.setIll (m : Mach) (h : Fin 6) (x : IllSt) : Mach := m.setHead h { m.head h with ill := x }
def Mach.ring (m : Mach) (h : Fin 6) : RingSt := m.trg.rings[h]
def Mach.setRing (m : Mach) (h : Fin 6) (x : RingSt) : Mach :=
  { m with trg := { m.trg with rings := m.trg.rings.set h x } }
def Mach.axis (m : Mach) (a : Fin 2) : AxisSt := m.axes[a]
def Mach.setAxis (m : Mach) (a : Fin 2) (x : AxisSt) : Mach := { m with axes := m.axes.set a x }

def allHeads : List (Fin 6) := [0, 1, 2, 3, 4, 5]
def allCores : List (Fin 8) := [0, 1, 2, 3, 4, 5, 6, 7]
def allAxes : List (Fin 2) := [0, 1]

/-- Applies `f` for each index in turn. -/
def Mach.each {α : Type} (m : Mach) (l : List α) (f : α → Mach → Mach) : Mach :=
  l.foldl (fun m x => f x m) m

/-- The line core of a head (R22). -/
def coreOf (h : Fin 6) : Fin 8 := ⟨h.val, by omega⟩

/-! ## Cores and event lines -/

/-- W0 reads 0 and discards writes (R198). -/
def CoreSt.readW (x : CoreSt) (r : Fin 16) : Word := if r = 0 then 0 else x.w[r]
def CoreSt.writeW (x : CoreSt) (r : Fin 16) (v : Word) : CoreSt :=
  if r = 0 then x else { x with w := x.w.set r v }

def Mach.rW (m : Mach) (c : Fin 8) (r : Fin 16) : Word := (m.core c).readW r
def Mach.wW (m : Mach) (c : Fin 8) (r : Fin 16) (v : Word) : Mach := m.setCore c ((m.core c).writeW r v)
def Mach.setPc (m : Mach) (c : Fin 8) (v : Word) : Mach := m.setCore c { m.core c with pc := v }

/-- SHR_HANDLER holds an address inside C7's IMEM that is a multiple of 4 (R39). -/
def Mach.handlerOk (m : Mach) : Bool :=
  let h := m.get F.SHR_HANDLER_ADDR
  h < 0x8000 && h % 4 = 0

/-- The lowest line both enabled and pending (R215). -/
def lowestBit (v : Nat) : Nat → Nat → Option Nat
  | _, 0 => none
  | i, n + 1 => if v.testBit i then some i else lowestBit v (i + 1) n

def Mach.readyLine (m : Mach) (c : Fin 8) : Option Nat :=
  lowestBit (m.get (F.C_EVT_EN_EN c) &&& m.get (F.C_EVT_PEND_PEND c)) 0 32

/-- The record of a core's event lines, as tick `k` meets it. -/
def CoreSt.inTick (x : CoreSt) (k : Nat) : CoreSt :=
  if x.evAt = k then x else { x with evAt := k, evSet := 0, evOvf := 0 }

/-- The pending bits of `mask` clear.  A bit whose line pulses in the same tick stays (R212), and its pulse has met no
pending bit, so that the overflow it may have set goes (R213). -/
def Mach.clearPend (m : Mach) (c : Fin 8) (mask : Nat) : Mach :=
  let x := (m.core c).inTick m.tickNo
  let stay := x.evSet.toNat
  let m := m.clear (F.C_EVT_PEND_PEND c) (mask &&& (2 ^ 32 - 1 - stay))
  let gone := m.get (F.C_EVT_OVF_OVF c) &&& mask &&& x.evOvf.toNat
  if gone = 0 then m
  else (m.clear (F.C_EVT_OVF_OVF c) gone).setCore c { x with evOvf := x.evOvf &&& ~~~(BitVec.ofNat 32 mask) }

/-- A WAIT of core `c` at its PC has taken line `e` (R215, R219, R285). -/
def Mach.waitTake (m : Mach) (c : Fin 8) (e : Nat) : Mach :=
  let x := m.core c
  let rd : Fin 16 := Fin.ofNat 16 x.waitRd
  let next := x.pc + 4
  let m := m.put (F.C_STAT_STATE c) 1
  if c = 7 && e = 0 && m.handlerOk then
    m.setCore c { ((x.writeW rd 0).writeW 15 next) with
                    pc := BitVec.ofNat 32 (m.get F.SHR_HANDLER_ADDR), waitUntil := none, lateAt := none }
  else
    m.setCore c { x.writeW rd (BitVec.ofNat 32 e) with pc := next, waitUntil := none, lateAt := none }

/-- A WAIT that waits completes on line `e`: it clears the pending bit in the tick after the one in which the bit set, so that
it meets no pulse of that tick (R216). -/
def Mach.waitWoken (m : Mach) (c : Fin 8) (e : Nat) : Mach :=
  (m.clear (F.C_EVT_PEND_PEND c) (2 ^ e)).waitTake c e

/-- A waiting core takes an enabled pending line (R216, R217), and so does one whose deadline expires in the same tick
(R283); nothing moves while the clock is stopped (R103). -/
def Mach.wake (m : Mach) (c : Fin 8) : Mach :=
  let x := m.core c
  let late := m.get (F.C_STAT_STATE c) = 1 && x.lateAt = some m.tickNo
  if m.clk.running && (m.get (F.C_STAT_STATE c) = 2 || late) then
    match m.readyLine c with
    | some e => (if late then m.setCore c { x with pc := x.pc - 4 } else m).waitWoken c e
    | none => m
  else m

/-- A source pulses line `e` of core `c` for one tick (R210, R213, R216): what pulses the same line again in that tick
adds nothing. -/
def Mach.pulse (m : Mach) (c : Fin 8) (e : Nat) : Mach :=
  let x := (m.core c).inTick m.tickNo
  if m.inReset || m.pwr.thermal || x.evSet.getLsbD e then m
  else
    let bit : BitVec 32 := 1#32 <<< e
    let again := (m.get (F.C_EVT_PEND_PEND c)).testBit e
    let ovf := again && !(m.get (F.C_EVT_OVF_OVF c)).testBit e
    let m := m.setCore c { x with evSet := x.evSet ||| bit, evOvf := if ovf then x.evOvf ||| bit else x.evOvf }
    (m.putBit (if again then F.C_EVT_OVF_OVF c else F.C_EVT_PEND_PEND c) e).wake c

/-- A head pulses a line of its line core, unless the gated head has stopped (R94). -/
def Mach.pulseHead (m : Mach) (h : Fin 6) (e : Nat) : Mach :=
  if (m.head h).tpg.stopped then m else m.pulse (coreOf h) e

/-- Sets a field that the hardware shows, and pulses a line when it sets from 0. -/
def Mach.raiseIrq (m : Mach) (f : Fld) : Mach := m.put f 1

/-- IRQN is asserted (R134, R873): deasserted in thermal shutdown, unless a bit is both set and enabled. -/
def Mach.irqn (m : Mach) : Bool :=
  m.outsUp && ((m.reg F.SYS_IRQ_STAT_reg &&& m.reg F.SYS_IRQ_EN_reg) != 0)

/-- Sets the sixteen shared bits of a head's outputs (R335, R357). -/
def Mach.setPh (m : Mach) (h : Fin 6) (v : BitVec 9) : Mach :=
  { m with out := { m.out with ph := m.out.ph.set h v } }

/-- A test mode, lane loopback or PRBS generator is active (R37 condition 5, R933). -/
def Mach.testMode (m : Mach) : Bool :=
  m.shr.injActive || [0, 1, 2, 3].any (fun l => m.is (F.LNL_CTL_LOOP l) || m.is (F.LNL_CTL_PRBSGEN l) || m.is (F.LNL_CTL_PRBSCHK l))

/-- Bit c - 1 of SHR_STATUS.COND for condition c of R37 (R38, R39, R96). -/
def Mach.cond (m : Mach) : Nat :=
  b2n (m.get F.SHR_CTL_PROFILE = 1) +
  2 * b2n (m.is F.SHR_CTL_SCRUBLS && m.is F.SHR_CTL_SCRUBCM) +
  4 * b2n (m.handlerOk && (m.get (F.C_EVT_EN_EN 7)).testBit 0 &&
           (m.get (F.C_STAT_STATE 7) = 1 || m.get (F.C_STAT_STATE 7) = 2)) +
  8 * b2n (m.is F.AUX_STAT_XARMED && m.is F.CLK_GATE_AUX_EN) +
  16 * b2n (!m.testMode)

/-- SHR_STATUS.ARMED (R38, R116). Log entry 67. -/
def Mach.armed (m : Mach) : Bool := m.cond = 31 && !m.pwr.stFailed

end Sys2Proof.Machine
end

