-- ==== Sys2Proof/Machine/Crypto.lean ====
section
/-!
DEFINITION. SHA-256 and the verification of an ECDSA P-256 signature, which the boot ROM uses (05 R157, R170, R171; the
algorithms themselves are taken from their public standards, log entry 72).
-/
namespace Sys2Proof.Machine

/-! ## SHA-256 -/

/-- The greatest number below `2 ^ n`, above `r`, whose `k`-th power is not above `x`, one bit at a time from the top. -/
def rootFrom (k x : Nat) : Nat → Nat → Nat
  | 0, r => r
  | n + 1, r => rootFrom k x n (if (r + 2 ^ n) ^ k ≤ x then r + 2 ^ n else r)

/-- The first `n` primes. -/
def primes (n : Nat) : List Nat :=
  ((List.range 312).filter (fun p => 1 < p && (List.range 18).all (fun d => d < 2 || p ≤ d || p % d != 0))).take n

/-- The first 32 bits after the point of the `k`-th root of a prime. -/
def rootBits (k p : Nat) : BitVec 32 := BitVec.ofNat 32 (rootFrom k (p * 2 ^ (32 * k)) 37 0)

/-- The round constants: cube roots of the first 64 primes. -/
def shaK : List (BitVec 32) := (primes 64).map (rootBits 3)

/-- Working variables of SHA-256. -/
structure Sha where
  a : BitVec 32
  b : BitVec 32
  c : BitVec 32
  d : BitVec 32
  e : BitVec 32
  f : BitVec 32
  g : BitVec 32
  h : BitVec 32
  deriving DecidableEq, Repr

/-- They start from the square roots of the first eight primes. -/
def shaStart : Sha :=
  let r (i : Nat) : BitVec 32 := rootBits 2 ((primes 8).getD i 0)
  { a := r 0, b := r 1, c := r 2, d := r 3, e := r 4, f := r 5, g := r 6, h := r 7 }

def ror (x : BitVec 32) (n : Nat) : BitVec 32 := x.rotateRight n

/-- The message schedule, newest word first: `n` words still to make. -/
def shaSchedule : Nat → List (BitVec 32) → List (BitVec 32)
  | 0, w => w
  | n + 1, w =>
    let g (i : Nat) : BitVec 32 := w.getD i 0
    let s0 := ror (g 14) 7 ^^^ ror (g 14) 18 ^^^ (g 14 >>> 3)
    let s1 := ror (g 1) 17 ^^^ ror (g 1) 19 ^^^ (g 1 >>> 10)
    shaSchedule n ((g 15 + s0 + g 6 + s1) :: w)

def shaRound (x : Sha) (kw : BitVec 32 × BitVec 32) : Sha :=
  let s1 := ror x.e 6 ^^^ ror x.e 11 ^^^ ror x.e 25
  let ch := (x.e &&& x.f) ^^^ (~~~x.e &&& x.g)
  let t1 := x.h + s1 + ch + kw.1 + kw.2
  let s0 := ror x.a 2 ^^^ ror x.a 13 ^^^ ror x.a 22
  let mj := (x.a &&& x.b) ^^^ (x.a &&& x.c) ^^^ (x.b &&& x.c)
  { a := t1 + s0 + mj, b := x.a, c := x.b, d := x.c, e := x.d + t1, f := x.e, g := x.f, h := x.g }

def shaBlock (x : Sha) (words : List (BitVec 32)) : Sha :=
  let w := (shaSchedule 48 words.reverse).reverse
  let y := (shaK.zip w).foldl shaRound x
  { a := x.a + y.a, b := x.b + y.b, c := x.c + y.c, d := x.d + y.d, e := x.e + y.e, f := x.f + y.f, g := x.g + y.g, h := x.h + y.h }

/-- Big-endian words of a byte list whose length is a multiple of 4. -/
def beWords : Nat → List Byte → List (BitVec 32)
  | 0, _ => []
  | n + 1, l => BitVec.ofNat 32 (beNat (l.take 4)) :: beWords n (l.drop 4)

def shaBlocks : Nat → Sha → List (BitVec 32) → Sha
  | 0, x, _ => x
  | n + 1, x, w => shaBlocks n (shaBlock x (w.take 16)) (w.drop 16)

/-- SHA-256 of a message, as 32 bytes. Log entry 72. -/
def sha256 (msg : List Byte) : List Byte :=
  let n := msg.length
  let zeros := (119 - n % 64) % 64
  let padded := msg ++ [0x80] ++ List.replicate zeros (0 : Byte) ++ beBytes 8 (8 * n)
  let w := beWords (padded.length / 4) padded
  let x := shaBlocks (w.length / 16) shaStart w
  [x.a, x.b, x.c, x.d, x.e, x.f, x.g, x.h].flatMap (fun (v : BitVec 32) => beBytes 4 v.toNat)

/-! ## P-256 -/

/-- Log entry 72. -/
def p256P : Nat := 0xFFFFFFFF00000001000000000000000000000000FFFFFFFFFFFFFFFFFFFFFFFF
/-- Log entry 72. -/
def p256B : Nat := 0x5AC635D8AA3A93E7B3EBBD55769886BC651D06B0CC53B0F63BCE3C3E27D2604B
/-- Log entry 72. -/
def p256N : Nat := 0xFFFFFFFF00000000FFFFFFFFFFFFFFFFBCE6FAADA7179E84F3B9CAC2FC632551
/-- Log entry 72. -/
def p256G : Nat × Nat :=
  (0x6B17D1F2E12C4247F8BCE6E563A440F277037D812DEB33A0F4A13945D898C296,
   0x4FE342E2FE1A7F9B8EE7EB4A7C0F9E162BCE33576B315ECECBB6406837BF51F5)

/-- `b ^ e` modulo `q`, over the low `k` bits of `e`. -/
def powMod (q : Nat) : Nat → Nat → Nat → Nat
  | 0, _, _ => 1
  | k + 1, b, e =>
    let r := powMod q k (b * b % q) (e / 2)
    if e % 2 = 1 then r * b % q else r

/-- Inverse modulo a prime of 256 bits. -/
def invMod (q x : Nat) : Nat := powMod q 256 (x % q) (q - 2)

/-- A point of the curve; `none` is the point at infinity. -/
abbrev EcPoint := Option (Nat × Nat)

def ecAdd : EcPoint → EcPoint → EcPoint
  | none, q => q
  | p, none => p
  | some (x1, y1), some (x2, y2) =>
    let q := p256P
    if x1 = x2 && (y1 + y2) % q = 0 then none
    else
      let num := if x1 = x2 then 3 * x1 * x1 + (q - 3) else y2 + q - y1
      let den := if x1 = x2 then 2 * y1 else x2 + q - x1
      let s := num % q * invMod q (den % q) % q
      let x3 := (s * s + 2 * q - x1 - x2) % q
      some (x3, (s * (x1 + q - x3) + q - y1) % q)

/-- `k * p`, over the low `n` bits of `k`. -/
def ecMul : Nat → Nat → EcPoint → EcPoint
  | 0, _, _ => none
  | n + 1, k, p =>
    let r := ecMul n (k / 2) (ecAdd p p)
    if k % 2 = 1 then ecAdd r p else r

def onCurve (x y : Nat) : Bool :=
  x < p256P && y < p256P && y * y % p256P = (x * x * x + (p256P - 3) * x + p256B) % p256P

/-- ECDSA over P-256: `pub` is X then Y, `sig` r then s, all big-endian; `digest` 32 bytes. Log entry 72. -/
def ecdsaOk (pub sig digest : List Byte) : Bool :=
  let x := beNat (pub.take 32)
  let y := beNat (pub.drop 32)
  let r := beNat (sig.take 32)
  let s := beNat (sig.drop 32)
  let n := p256N
  if !onCurve x y || r = 0 || n ≤ r || s = 0 || n ≤ s then false
  else
    let w := invMod n s
    let u1 := beNat digest % n * w % n
    let u2 := r * w % n
    match ecAdd (ecMul 256 u1 (some p256G)) (ecMul 256 u2 (some (x, y))) with
    | none => false
    | some (px, _) => px % n = r

end Sys2Proof.Machine
end

