-- ==== Sys2Proof/Machine/Jbc.lean ====
section
/-!
DEFINITION. The Jaleranos band coding bitstream: units, bits, headers, the row decoder and its arithmetic (ch. 17).
-/
namespace Sys2Proof.Machine

/-! ## Units (R666-R670) -/

/-- Offset of the first start code at or after the front of a byte list. -/
def startCode : List Byte → Option Nat
  | a :: b :: c :: t =>
    if a = 0 && b = 0 && c = 1 then some 0 else (startCode (b :: c :: t)).map (· + 1)
  | _ => none

/-- A unit found in a byte list: bytes skipped before it, its code byte, its payload as written (the zero bytes of R668
left out), the bytes it takes from its start code up to the next one, and whether the next start code is there. -/
structure JbcUnit where
  skipped : Nat
  code : Nat
  raw : List Byte
  len : Nat
  closed : Bool
  deriving DecidableEq, Repr

/-- A byte list without its trailing zero bytes. -/
def dropZeros (l : List Byte) : List Byte := (l.reverse.dropWhile (· = 0)).reverse

/-- The first unit of a byte list (R666, R668). -/
def nextUnit (l : List Byte) : Option JbcUnit :=
  match startCode l with
  | none => none
  | some k =>
    match (l.drop (k + 3)) with
    | [] => none
    | code :: rest =>
      let stop := startCode rest
      let body := match stop with | some n => rest.take n | none => rest
      some { skipped := k, code := code.toNat, raw := dropZeros body,
             len := 4 + (if stop.isSome then body.length else (dropZeros body).length), closed := stop.isSome }

/-- The payload with emulation prevention removed, up to the first place where the written payload holds 00 00 followed
by 00, 01 or 02, and whether there is such a place (R669, R670; log entry 50). `z` counts the zero bytes just passed. -/
def unescape (z : Nat) : List Byte → List Byte × Bool
  | [] => ([], false)
  | b :: t =>
    if 2 ≤ z && b = 3 then unescape 0 t
    else if 2 ≤ z && b.toNat < 3 then ([], true)
    else
      let r := unescape (if b = 0 then z + 1 else 0) t
      (b :: r.1, r.2)

/-- Emulation prevention as the encoder writes it (R669). -/
def escape (z : Nat) : List Byte → List Byte
  | [] => []
  | b :: t =>
    if 2 ≤ z && b.toNat ≤ 3 then 3 :: b :: escape (if b = 0 then 1 else 0) t
    else b :: escape (if b = 0 then z + 1 else 0) t

/-- The bytes of a unit. -/
def unitBytes (code : Nat) (payload : List Byte) : List Byte := [0, 0, 1, BitVec.ofNat 8 code] ++ escape 0 payload

/-! ## Bits (R671-R675) -/

/-- Bits of a byte from the most significant. -/
def byteBits (b : Byte) : List Bool := (List.range 8).map (fun i => b.getLsbD (7 - i))

def bitsOf (l : List Byte) : List Bool := l.flatMap byteBits

/-- The number that bits spell, most significant first. -/
def bitNat (l : List Bool) : Nat := l.foldl (fun (n : Nat) (b : Bool) => 2 * n + b2n b) 0

/-- `n` bits of a number, most significant first. -/
def natBits (n v : Nat) : List Bool := (List.range n).map (fun i => v.testBit (n - 1 - i))

/-- Bytes of a bit list whose length is a multiple of 8. -/
def packBits : List Bool → List Byte
  | a :: b :: c :: d :: e :: f :: g :: h :: t => BitVec.ofNat 8 (bitNat [a, b, c, d, e, f, g, h]) :: packBits t
  | _ => []

/-- A payload from its bits, trailing bits added (R675). -/
def payloadOf (l : List Bool) : List Byte :=
  let n := l.length + 1
  packBits (l ++ true :: List.replicate (nextGrid 8 n - n) false)

/-- What is left of a payload is exactly trailing bits (R675). -/
def isTrailing : List Bool → Bool
  | true :: t => t.length < 8 && t.all (fun b => !b)
  | _ => false

/-- Reads a payload by `f`: the first error is the one that stands first in it, and a payload broken at some place is
error 1 there (R709). -/
def readPayload {α : Type} (f : List Byte → Except Nat α) (pl : List Byte × Bool) : Except Nat α :=
  match f pl.1 with
  | .ok x => if pl.2 then .error 1 else .ok x
  | .error e => .error (if pl.2 && e = 7 then 1 else e)

/-- u(n); the error code is that of R709. -/
def rdU (n : Nat) (l : List Bool) : Except Nat (Nat × List Bool) :=
  if l.length < n then .error 7 else .ok (bitNat (l.take n), l.drop n)

/-- Leading 0 bits, at most 17 counted. -/
def leadZeros : Nat → List Bool → Nat
  | 0, _ => 0
  | n + 1, false :: t => 1 + leadZeros n t
  | _ + 1, _ => 0

/-- ue (R672, R674). -/
def rdUe (l : List Bool) : Except Nat (Nat × List Bool) :=
  let n := leadZeros 17 l
  if 16 < n then .error 4
  else if l.length < 2 * n + 1 then .error 7
  else .ok (2 ^ n - 1 + bitNat ((l.drop (n + 1)).take n), l.drop (2 * n + 1))

/-- The signed value of a ue value (R673). -/
def seOf (k : Nat) : Int := if k % 2 = 1 then ((k + 1) / 2 : Nat) else -((k / 2 : Nat) : Int)

/-- se (R673). -/
def rdSe (l : List Bool) : Except Nat (Int × List Bool) := do
  let (k, l) ← rdUe l
  return (seOf k, l)

/-! ## Blocks (R693-R702) -/

/-- Scan index of each position, row by row (R693). -/
def scanTable : List Nat :=
  [0, 1, 5, 6, 14, 15, 27, 28, 2, 4, 7, 13, 16, 26, 29, 42, 3, 8, 12, 17, 25, 30, 41, 43, 9, 11, 18, 24, 31, 40, 44, 53] ++
  [10, 19, 23, 32, 39, 45, 52, 54, 20, 22, 33, 38, 46, 51, 55, 60, 21, 34, 37, 47, 50, 56, 59, 61, 35, 36, 48, 49, 57, 58, 62, 63]

/-- Position 8v + u of a scan index (R693). -/
def scanPos (s : Nat) : Nat := scanTable.idxOf s

/-- The run-level tokens of a block from scan index `s` (R696, R697). -/
def rdTokens : Nat → Nat → List Int → List Bool → Except Nat (List Int × List Bool)
  | 0, _, c, l => .ok (c, l)
  | fuel + 1, s, c, l => do
    let (k, l) ← rdUe l
    if k = 0 then return (c, l)
    let s := s + (k - 1)
    if 63 < s then throw 5
    let (m, l) ← rdUe l
    let (neg, l) ← rdU 1 l
    if 32767 < m + 1 then throw 5
    let v : Int := if neg = 1 then -((m + 1 : Nat) : Int) else ((m + 1 : Nat) : Int)
    let c := c.set (scanPos s) v
    if s = 63 then return (c, l)
    rdTokens fuel (s + 1) c l

/-- Q(q) (R699). -/
def quantScale (q : Nat) : Nat := ([32, 35, 38, 41, 45, 49, 54, 59].getD (q % 8) 0) * 2 ^ (q / 8)

/-- S of R700. -/
def scaleS (k : Nat) : Nat := [181, 195, 158, 195, 181, 195, 158, 195].getD k 0

/-- T[k][i] of R701, at 8k + i. -/
def basisT : List Int :=
  [8, 8, 8, 8, 8, 8, 8, 8, 10, 9, 6, 2, -2, -6, -9, -10, 12, 5, -5, -12, -12, -5, 5, 12, 9, -2, -10, -6, 6, 10, 2, -9] ++
  [8, -8, -8, 8, 8, -8, -8, 8, 6, -10, 2, 9, -9, -2, 10, -6, 5, -12, 12, -5, -5, 12, -12, 5, 2, -6, 9, -10, 10, -9, 6, -2]

/-- d[v][u] of a block (R700). -/
def dequant (q : Nat) (c : List Int) : List Int :=
  (List.range 64).map (fun i => c.getD i 0 * (quantScale q * scaleS (i / 8) * scaleS (i % 8) : Nat))

/-- The residual of a block, at 8y + x (R702). -/
def residual (q : Nat) (c : List Int) : List Int :=
  let d := dequant q c
  (List.range 64).map (fun i =>
    let sum := (List.range 64).foldl (fun (a : Int) (k : Nat) =>
      a + basisT.getD (8 * (k / 8) + i / 8) 0 * basisT.getD (8 * (k % 8) + i % 8) 0 * d.getD k 0) 0
    floorDiv (sum + 2 ^ 28) (2 ^ 29))

/-! ## Macroblocks and rows (R684-R692, R703, R704) -/

/-- A macroblock as decoded: an intra one or not, its vector, and the residual of each block (empty where there is none). -/
structure Mb where
  intra : Bool
  vx : Int
  vy : Int
  res : List (List Int)
  deriving DecidableEq, Repr

/-- Row state (R686), and what the row has shown so far. -/
structure RowSt where
  q : Int
  mvx : Int := 0
  mvy : Int := 0
  dc : List Int := [0, 0, 0]
  /-- Largest vector component; a CBP bit; a macroblock other than SKIP; a PRED block with a CBP bit and no coefficient. -/
  vmax : Nat := 0
  cbp : Bool := false
  notSkip : Bool := false
  empty : Bool := false
  /-- DQP of the macroblock under way, when it carries one; DQP and payload bits left of each macroblock, newest first. -/
  dq : Option Int := none
  steps : List (Option Int × Nat) := []
  deriving DecidableEq, Repr

/-- Parameters of a stream that rows need (R676). -/
structure JbcPar where
  depth : Nat
  planes : Nat
  w : Nat
  deriving DecidableEq, Repr

def JbcPar.bits (p : JbcPar) : Nat := if p.depth = 1 then 12 else 8
def JbcPar.nmb (p : JbcPar) : Nat := ceilDiv p.w 16

/-- The blocks of a macroblock in block order (R691, R694, R695). -/
def rdBlocks (intra : Bool) (cbp : Nat) (nblk : Nat) : Nat → Nat → RowSt → List (List Int) → List Bool →
    Except Nat (RowSt × List (List Int) × List Bool)
  | 0, _, s, acc, l => .ok (s, acc.reverse, l)
  | n + 1, b, s, acc, l => do
    let on := cbp.testBit (nblk - 1 - b)
    let p := b / 4
    let zero : List Int := List.replicate 64 0
    if intra then
      let (d, l) ← rdSe l
      let dc := s.dc.getD p 0 + d
      if dc < -32767 || 32767 < dc then throw 5
      let s := { s with dc := s.dc.set p dc }
      let (c, l) ← (if on then rdTokens 64 1 (zero.set 0 dc) l else .ok (zero.set 0 dc, l))
      rdBlocks intra cbp nblk n (b + 1) s (residual s.q.toNat c :: acc) l
    else if on then
      let (c, l) ← rdTokens 65 0 zero l
      rdBlocks intra cbp nblk n (b + 1) { s with empty := s.empty || c.all (· = 0) } (residual s.q.toNat c :: acc) l
    else rdBlocks intra cbp nblk n (b + 1) s ([] :: acc) l

/-- DQP (R690). -/
def rdDqp (s : RowSt) (l : List Bool) : Except Nat (RowSt × List Bool) := do
  let (d, l) ← rdSe l
  let q := s.q + d
  if q < 0 || 63 < q then throw 5
  return ({ s with q := q, dq := some d }, l)

/-- One macroblock (R687-R692). -/
def rdMb (linked : Bool) (par : JbcPar) (s : RowSt) (l : List Bool) : Except Nat (RowSt × Mb × List Bool) := do
  let n := 4 * par.planes
  let (kind, l) ← (if linked then rdUe l else .ok (2, l))
  if 2 < kind then throw 5
  if kind = 0 then
    return ({ s with vmax := max s.vmax (max s.mvx.natAbs s.mvy.natAbs) },
            { intra := false, vx := s.mvx, vy := s.mvy, res := List.replicate n [] }, l)
  let s := { s with notSkip := true }
  if kind = 1 then
    let (dx, l) ← rdSe l
    let (dy, l) ← rdSe l
    let vx := s.mvx + dx
    let vy := s.mvy + dy
    if vx < -32 || 32 < vx || vy < -32 || 32 < vy then throw 5
    let s := { s with mvx := vx, mvy := vy, vmax := max s.vmax (max vx.natAbs vy.natAbs) }
    let (cbp, l) ← rdU n l
    let (s, l) ← (if cbp = 0 then .ok (s, l) else rdDqp s l)
    let (s, res, l) ← rdBlocks false cbp n n 0 { s with cbp := s.cbp || cbp != 0 } [] l
    return (s, { intra := false, vx := vx, vy := vy, res := res }, l)
  let (cbp, l) ← rdU n l
  let (s, l) ← rdDqp s l
  let (s, res, l) ← rdBlocks true cbp n n 0 { s with cbp := s.cbp || cbp != 0 } [] l
  return (s, { intra := true, vx := 0, vy := 0, res := res }, l)

/-- The macroblocks of a row (R684). -/
def rdMbs (linked : Bool) (par : JbcPar) : Nat → RowSt → List Mb → List Bool → Except Nat (RowSt × List Mb)
  | 0, s, acc, l => if isTrailing l then .ok (s, acc.reverse) else .error 7
  | n + 1, s, acc, l => do
    let (s, mb, l) ← rdMb linked par { s with dq := none } l
    rdMbs linked par n { s with steps := (s.dq, l.length) :: s.steps } (mb :: acc) l

/-- Sample (y, x) of a macroblock's plane p, at picture line Y and column X (R703, R704). -/
def mbSample (par : JbcPar) (ref : Nat → Int → Int → Int) (mb : Mb) (p y x : Nat) (Y X : Int) : Nat :=
  let res := mb.res.getD (4 * p + 2 * (y / 8) + x / 8) []
  let pred : Int := if mb.intra then 2 ^ (par.bits - 1) else ref p (Y + mb.vy) (X + mb.vx)
  (clampInt 0 (2 ^ par.bits - 1) (pred + res.getD (8 * (y % 8) + x % 8) 0)).toNat

/-- Lines of a row: planes, then 16 lines of W samples; `y0` is the row's first picture line. -/
def rowLines (par : JbcPar) (ref : Nat → Int → Int → Int) (y0 : Nat) (mbs : List Mb) : List (List (List Nat)) :=
  (List.range par.planes).map (fun p =>
    (List.range 16).map (fun y =>
      ((mbs.zipIdx.flatMap (fun (x : Mb × Nat) =>
        (List.range 16).map (fun i => mbSample par ref x.1 p y i (y0 + y : Nat) (16 * x.2 + i : Nat)))).take par.w)))

/-- A row as decoded: its starting quantiser, the bits of its payload, its state at the end and its lines. -/
structure RowOut where
  qp : Nat
  size : Nat
  st : RowSt
  lines : List (List (List Nat))
  deriving DecidableEq, Repr

/-- Decodes a ROW payload at place `r` (R684-R686). -/
def decodeRow (linked : Bool) (par : JbcPar) (ref : Nat → Int → Int → Int) (r : Nat) (payload : List Byte) :
    Except Nat RowOut := do
  let (rowno, l) ← rdU 16 (bitsOf payload)
  if rowno != r % 65536 then throw 6
  let (qp, l) ← rdU 6 l
  let (s, mbs) ← rdMbs linked par par.nmb { q := qp } [] l
  return { qp := qp, size := 8 * payload.length, st := s, lines := rowLines par ref (16 * r) mbs }

/-- A row payload as the encoder writes it: ROWNO, QP and the macroblocks' bits. -/
def rowPayload (r qp : Nat) (mb : List Bool) : List Byte := payloadOf (natBits 16 r ++ natBits 6 qp ++ mb)

/-! ## Headers -/

def StreamHdr.par (h : StreamHdr) : JbcPar := { depth := h.depth, planes := if h.npl = 1 then 3 else 1, w := h.w }

/-- PROW{p} of the three packed in CFG's field and in STREAM, PROW0 first. -/
def prowOf (prow p : Nat) : Nat := bits prow (5 - 2 * p) (4 - 2 * p)

def prowsDiffer (prow : Nat) : Bool :=
  prowOf prow 0 != prowOf prow 1 && prowOf prow 0 != prowOf prow 2 && prowOf prow 1 != prowOf prow 2

def StreamHdr.payload (h : StreamHdr) : List Byte :=
  payloadOf (natBits 4 1 ++ natBits 4 h.ctx ++ natBits 1 h.depth ++ natBits 1 h.npl ++ natBits 2 0 ++
    natBits 6 h.prow ++ natBits 15 h.w ++ natBits 7 h.band)

/-- The end of a header: trailing bits and nothing else. -/
def rdEnd (l : List Bool) : Except Nat PUnit := if isTrailing l then .ok ⟨⟩ else .error 7

/-- A header field that breaks its rule is an error where it stands (R709). -/
def ruleOf (ok : Bool) : Except Nat PUnit := if ok then .ok ⟨⟩ else .error 3

def decodeStream (payload : List Byte) : Except Nat StreamHdr := do
  let (ver, l) ← rdU 4 (bitsOf payload)
  ruleOf (ver = 1)
  let (ctx, l) ← rdU 4 l
  let (depth, l) ← rdU 1 l
  let (npl, l) ← rdU 1 l
  let (z, l) ← rdU 2 l
  ruleOf (z = 0)
  let (prow, l) ← rdU 6 l
  ruleOf (if npl = 0 then prow % 16 = 0 else prowsDiffer prow)
  let (w, l) ← rdU 15 l
  ruleOf (64 ≤ w && w ≤ 16400)
  let (band, l) ← rdU 7 l
  ruleOf (band ≤ 64)
  rdEnd l
  return { ctx := ctx, depth := depth, npl := npl, prow := prow, w := w, band := band }

/-- PIC (R680); `ptype` is 0 for a key picture. -/
structure PicHdr where
  picno : Nat
  ptype : Nat
  req : Nat
  head : Nat
  pageno : Nat
  first : Nat
  deriving DecidableEq, Repr

def PicHdr.payload (h : PicHdr) : List Byte :=
  payloadOf (natBits 16 h.picno ++ natBits 1 h.ptype ++ natBits 1 h.req ++ natBits 3 h.head ++ natBits 3 0 ++
    natBits 16 h.pageno ++ natBits 32 h.first)

def decodePic (payload : List Byte) : Except Nat PicHdr := do
  let (picno, l) ← rdU 16 (bitsOf payload)
  let (ptype, l) ← rdU 1 l
  let (req, l) ← rdU 1 l
  ruleOf (!(ptype = 1 && req = 1))
  let (head, l) ← rdU 3 l
  ruleOf (head ≤ 5)
  let (z, l) ← rdU 3 l
  ruleOf (z = 0)
  let (pageno, l) ← rdU 16 l
  let (first, l) ← rdU 32 l
  rdEnd l
  return { picno := picno, ptype := ptype, req := req, head := head, pageno := pageno, first := first }

/-- END (R705). -/
structure EndHdr where
  h : Nat
  lastp : Nat
  abort : Nat
  rcrc : Nat
  deriving DecidableEq, Repr

def EndHdr.payload (e : EndHdr) : List Byte :=
  payloadOf (natBits 20 (e.h - 1) ++ natBits 1 e.lastp ++ natBits 1 e.abort ++ natBits 2 0 ++ natBits 32 e.rcrc)

def decodeEnd (payload : List Byte) : Except Nat EndHdr := do
  let (hm1, l) ← rdU 20 (bitsOf payload)
  let (lastp, l) ← rdU 1 l
  let (abort, l) ← rdU 1 l
  let (z, l) ← rdU 2 l
  ruleOf (z = 0)
  let (rcrc, l) ← rdU 32 l
  rdEnd l
  return { h := hm1 + 1, lastp := lastp, abort := abort, rcrc := rcrc }

/-- R706 for `rows` ROW units. -/
def EndHdr.fits (e : EndHdr) (band rows : Nat) : Bool :=
  rows = ceilDiv e.h 16 &&
  (if band = 0 then e.lastp = 1 else e.h ≤ 16 * band && (e.h = 16 * band || e.lastp = 1 || e.abort = 1))

/-! ## Pictures -/

/-- A picture: planes, lines, samples. -/
abbrev Picture := List (List (List Nat))

/-- Rows put one under another. -/
def stackRows (planes : Nat) (rows : List Picture) : Picture :=
  (List.range planes).map (fun p => rows.flatMap (fun r => r.getD p []))

/-- A picture cut to `h` lines. -/
def cropLines (h : Nat) (pic : Picture) : Picture := pic.map (fun pl => pl.take h)

/-- Bytes of R707. -/
def sampleBytes (pic : Picture) : List Byte := pic.flatMap (fun pl => pl.flatMap (fun ln => ln.flatMap (fun s => leBytes 2 s)))

/-- RCRC of R707. -/
def pictureCrc (pic : Picture) : BitVec 32 := crc32c (sampleBytes pic)

/-- Bytes of the picture area: P planes of W x H samples of B bytes (18 R721). -/
def areaBytes (b : Nat) (pic : Picture) : List Byte := pic.flatMap (fun pl => pl.flatMap (fun ln => ln.flatMap (fun s => leBytes b s)))

/-- A concealed row at picture line y0: the reference's samples, or the line above (18 R745). -/
def concealRow (par : JbcPar) (linked : Bool) (ref : Nat → Int → Int → Int) (y0 : Nat) (prev : Option Picture) : Picture :=
  (List.range par.planes).map (fun p =>
    let above : List Nat := match prev with
      | some r => (r.getD p []).getLastD []
      | none => List.replicate par.w (2 ^ (par.bits - 1))
    (List.range 16).map (fun y =>
      if linked then (List.range par.w).map (fun x => (ref p (y0 + y : Nat) (x : Nat)).toNat) else above))

end Sys2Proof.Machine
end

