-- ==== Sys2Proof/Machine/Code.lean ====
section
/-!
DEFINITION. The coding of the stream lanes: words, 8b/10b at L0, 66-bit blocks and the scrambler at L1-L3, and the words of a
burst over lanes and slots (ch. 19 section 2; ch. 03 R85).
-/
namespace Sys2Proof.Machine

/-! ## 8b/10b (R756); the code is known from outside the spec (log entry 104) -/

/-- The six-bit codes of the low five bits of a byte under negative disparity, `abcdei` from bit 5 down.
Log entry 104. -/
def sixes : List Nat :=
  [0b100111, 0b011101, 0b101101, 0b110001, 0b110101, 0b101001, 0b011001, 0b111000,
   0b111001, 0b100101, 0b010101, 0b110100, 0b001101, 0b101100, 0b011100, 0b010111,
   0b011011, 0b100011, 0b010011, 0b110010, 0b001011, 0b101010, 0b011010, 0b111010,
   0b110011, 0b100110, 0b010110, 0b110110, 0b001110, 0b101110, 0b011110, 0b101011]

/-- The four-bit codes of the high three bits under negative disparity, `fghj` from bit 3 down. Log entry 104. -/
def fours : List Nat := [0b1011, 0b1001, 0b0101, 0b1100, 0b1101, 0b1010, 0b0110, 0b1110]

/-- Ones among the low `n` bits. -/
def ones (v : Nat) : Nat → Nat
  | 0 => 0
  | n + 1 => b2n (v.testBit n) + ones v n

/-- A half code of `n` bits under the running disparity, and the disparity after it; `flip` marks the balanced code that still
has two forms. -/
def halfCode (n : Nat) (flip : Nat) (code : Nat) (rd : Bool) : Nat × Bool :=
  let even := 2 * ones code n = n
  (if rd && (!even || code = flip) then 2 ^ n - 1 - code else code, if even then rd else !rd)

/-- The symbol of a data byte: its ten bits, `a` first as bit 9, and the disparity after it. Log entry 104. -/
def dataSym (b : Nat) (rd : Bool) : Nat × Bool :=
  let x := b % 32
  let y := b / 32 % 8
  let (six, r1) := halfCode 6 0b111000 (sixes.getD x 0) rd
  -- D.x.7 takes its other form after a run that five equal bits would make
  let alt := y = 7 && (if r1 then [11, 13, 14].contains x else [17, 18, 20].contains x)
  let (four, r2) := halfCode 4 0b1100 (if alt then 0b0111 else fours.getD y 0) r1
  (six * 16 + four, r2)

/-- The K symbols of R756. -/
inductive KSym where
  | k281
  | k283
  | k285
  | k237
  deriving DecidableEq, Repr

/-- The code of a K symbol under negative disparity. -/
def KSym.code : KSym → Nat
  | .k281 => 0b0011111001
  | .k283 => 0b0011110011
  | .k285 => 0b0011111010
  | .k237 => 0b1110101000

def kSyms : List KSym := [.k281, .k283, .k285, .k237]

/-- Log entry 104. -/
def kSym (k : KSym) (rd : Bool) : Nat × Bool :=
  (if rd then 1023 - k.code else k.code, if ones k.code 10 = 5 then rd else !rd)

/-- What a ten-bit group stands for. -/
inductive Sym where
  | data (b : Byte)
  | ctl (k : KSym)
  /-- Outside the code, or against the disparity (R756). -/
  | bad
  deriving DecidableEq, Repr

/-- Reads a ten-bit group under the running disparity: what it stands for, and the disparity after it, which a bad group with
more ones or zeros sets (R756). -/
def readSym (g : Nat) (rd : Bool) : Sym × Bool :=
  match kSyms.find? (fun k => (kSym k rd).1 = g) with
  | some k => (.ctl k, (kSym k rd).2)
  | none =>
    match (List.range 256).find? (fun b => (dataSym b rd).1 = g) with
    | some b => (.data (BitVec.ofNat 8 b), (dataSym b rd).2)
    | none => (.bad, if ones g 10 = 5 then rd else decide (5 < ones g 10))

def readSyms : List (BitVec 10) → Bool → List Sym
  | [], _ => []
  | g :: t, rd => let (s, rd) := readSym g.toNat rd; s :: readSyms t rd

/-! ## Words (R755, R756, R759, R760) -/

/-- The data bytes at the front of some symbols. -/
def dataRun : List Sym → List Byte
  | .data b :: t => b :: dataRun t
  | _ => []

/-- The word of eight symbols at L0: PAD symbols fill up a burst's last word (R756, R766). -/
def symWord (l : List Sym) : LaneWord :=
  match l with
  | .ctl .k285 :: t => if (dataRun t).length = 7 then .idle else .bad
  | .ctl .k281 :: t => if (dataRun t).length = 7 then .ts (dataRun t) else .bad
  | .ctl .k283 :: t => if (dataRun t).length = 7 then .lm (dataRun t) else .bad
  | _ =>
    let d := dataRun l
    if l.length != 8 then .bad
    else if d.length = 8 then .data d
    else if d.length != 0 && (l.drop d.length).all (· = .ctl .k237) then .tail d
    else .bad

/-- A word as symbols of L0, with the disparity after it. -/
def wordSyms (w : LaneWord) (rd : Bool) : List (BitVec 10) × Bool :=
  let put (s : List (BitVec 10) × Bool) (c : Nat × Bool) : List (BitVec 10) × Bool := (s.1 ++ [BitVec.ofNat 10 c.1], c.2)
  let ks (k : KSym) (s : List (BitVec 10) × Bool) := put s (kSym k s.2)
  let ds (l : List Byte) (s : List (BitVec 10) × Bool) := l.foldl (fun s b => put s (dataSym b.toNat s.2)) s
  match w with
  | .data b => ds b ([], rd)
  | .idle => ds (List.replicate 7 0) (ks .k285 ([], rd))
  | .ts b => ds b (ks .k281 ([], rd))
  | .lm b => ds b (ks .k283 ([], rd))
  | .tail b => (List.replicate (8 - b.length) ()).foldl (fun s _ => ks .k237 s) (ds b ([], rd))
  | .bad => ([], rd)

/-- A word as an entry of 66 bits: the sync header in bits 1:0, in order of transmission, and the payload, byte 0 lowest, above
it (R85, R759, R760).  An invalid word is an entry with an invalid header. -/
def wordEntry (w : LaneWord) : BitVec 66 :=
  let ctl (ty : Nat) (b : List Byte) : BitVec 66 := BitVec.ofNat 66 (1 + 4 * (ty + 256 * leNat b))
  match w with
  | .data b => BitVec.ofNat 66 (2 + 4 * leNat b)
  | .idle => ctl 0x96 []
  | .ts b => ctl 0x99 b
  | .lm b => ctl 0xA5 b
  | .tail b => ctl (0xC0 + b.length) b
  | .bad => 0

/-- The word of an entry: any other type, and a header of equal bits, is a header error (R759, R760). -/
def entryWord (e : BitVec 66) : LaneWord :=
  let v := e.toNat / 4
  let b := leBytes 7 (v / 256)
  let ty := v % 256
  if e.toNat % 4 = 2 then .data (leBytes 8 v)
  else if e.toNat % 4 != 1 then .bad
  else if ty = 0x96 then .idle
  else if ty = 0x99 then .ts b
  else if ty = 0xA5 then .lm b
  else if 0xC1 ≤ ty && ty ≤ 0xC7 then .tail (b.take (ty - 0xC0))
  else .bad

/-! ## The scrambler (R761) -/

/-- The bits of a payload in order of transmission through x^58 + x^39 + 1: `s` holds the last 58 scrambled bits, the latest
lowest.  The scrambled bits are what is sent, and what the receiver's register takes in. -/
def scramble (s : BitVec 58) : List Bool → List Bool × BitVec 58
  | [] => ([], s)
  | d :: t =>
    let x := d != (s.getLsbD 38 != s.getLsbD 57)
    let (l, s) := scramble ((s <<< 1) ||| (if x then 1 else 0)) t
    (x :: l, s)

def descramble (s : BitVec 58) : List Bool → List Bool × BitVec 58
  | [] => ([], s)
  | x :: t =>
    let d := x != (s.getLsbD 38 != s.getLsbD 57)
    let (l, s) := descramble ((s <<< 1) ||| (if x then 1 else 0)) t
    (d :: l, s)

/-- Bits of a number from bit 0 up, and back. -/
def bitsUp (n v : Nat) : List Bool := (List.range n).map v.testBit
def fromBits : List Bool → Nat
  | [] => 0
  | b :: t => b2n b + 2 * fromBits t

/-- A block on the line: its header as it is, its payload scrambled (R759, R761). -/
def scrambleEntry (e : BitVec 66) (s : BitVec 58) : BitVec 66 × BitVec 58 :=
  let (l, s) := scramble s (bitsUp 64 (e.toNat / 4))
  (BitVec.ofNat 66 (e.toNat % 4 + 4 * fromBits l), s)

def descrambleEntry (e : BitVec 66) (s : BitVec 58) : BitVec 66 × BitVec 58 :=
  let (l, s) := descramble s (bitsUp 64 (e.toNat / 4))
  (BitVec.ofNat 66 (e.toNat % 4 + 4 * fromBits l), s)

/-! ## Lanes on the line -/

/-- Inverts what a lane carries (R758). -/
def LineWord.invert : LineWord → LineWord
  | .syms l => .syms (l.map (fun g => ~~~g))
  | .block b => .block (~~~b)

/-- The word of what a lane carried at rate `rate`, and how many errors it holds: each code violation at L0, each invalid or
header-error block above (R756, R760, R764). -/
def readLine (rate : Nat) (w : LineWord) (c : LineCode) : LaneWord × Nat × LineCode :=
  match w with
  | .syms l =>
    let s := readSyms l c.rd
    let rd := l.foldl (fun rd g => (readSym g.toNat rd).2) c.rd
    let n := (s.filter (· = .bad)).length
    if rate = 0 then (symWord s, if n = 0 && symWord s = .bad then 1 else n, { c with rd := rd }) else (.bad, 1, c)
  | .block b =>
    let (e, s) := descrambleEntry b c.scr
    let w := entryWord e
    if rate = 0 then (.bad, 1, c) else (w, b2n (w = .bad), { c with scr := s })

/-- What a lane sends for a word at rate `rate` (R756, R759, R761). -/
def sendLine (rate : Nat) (w : LaneWord) (c : LineCode) : LineWord × LineCode :=
  if rate = 0 then
    let (l, rd) := wordSyms w c.rd
    (.syms l, { c with rd := rd })
  else
    let (e, s) := scrambleEntry (wordEntry w) c.scr
    (.block e, { c with scr := s })

/-- What a lane sends for some words in a row. -/
def sendLines (rate : Nat) : List LaneWord → LineCode → List LineWord
  | [], _ => []
  | w :: t, c => let (x, c) := sendLine rate w c; x :: sendLines rate t c

/-- The words of some lines in a row, and the errors among them. -/
def readLines (rate : Nat) : List LineWord → LineCode → List LaneWord × Nat
  | [], _ => ([], 0)
  | x :: t, c =>
    let (w, n, c) := readLine rate x c
    let (l, k) := readLines rate t c
    (w :: l, n + k)

/-! ## Bursts, striping and markers (R765-R769) -/

/-- Beats, times 100, of one word at a rate (R751). -/
def wordCenti (rate : Nat) : Nat := if rate = 0 then 19200 else if rate = 1 then 3840 else if rate = 2 then 1920 else 768

/-- The words of a burst: eight bytes each, and what is left as its last (R766). -/
def burstWords : Nat → List Byte → List LaneWord
  | 0, _ => []
  | n + 1, l =>
    if l = [] then []
    else if l.length < 8 then [.tail l]
    else .data (l.take 8) :: burstWords n (l.drop 8)

def Burst.words (b : Burst) : List LaneWord := burstWords b.bytes.length b.bytes

/-- A slot that carries the lanes' markers: one of every 16,384 when W > 1 (R769). -/
def markerSlot (w s : Nat) : Bool := 1 < w && s != 0 && s % 16384 = 0

/-- The slot, `k` slots on from `s` but for those of markers. -/
def slotAfter (w s k : Nat) : Nat :=
  if w ≤ 1 then s + k
  else
    let j := s - s / 16384 + k
    j + (j - 1) / 16383

/-- The slot in which word `i` of a burst travels, on lane `i mod W` (R765, R769). -/
def Burst.slotOf (b : Burst) (w i : Nat) : Nat := slotAfter w b.slot (i / max 1 w)

/-- The last slot of a burst. -/
def Burst.lastSlot (b : Burst) (w : Nat) : Nat := b.slotOf w (b.words.length - 1)

/-- The word of lane `l` in slot `s` of the ACTIVE link (R765-R769). Log entry 40. -/
def LnSt.wordAt (x : LnSt) (l : Fin 4) (s : Nat) : LaneWord :=
  if x.width ≤ l.val then .idle
  else if markerSlot x.width s then .lm (leBytes 1 l ++ leBytes 2 (s / 16384 - 1) ++ [0, 0, 0, 0])
  else
    let at' (b : Burst) : Option LaneWord :=
      if b.slot ≤ s then
        let i := ((s - s / 16384 * b2n (1 < x.width)) - (b.slot - b.slot / 16384 * b2n (1 < x.width))) * x.width + l
        b.words[i]?
      else none
    (x.bursts.findSome? at').getD .idle

/-- The slot in progress, by the lanes' nominal word time (log entry 105). -/
def Mach.slotNow (m : Mach) : Nat := (m.now - m.ln.entered) * 100 / wordCenti m.ln.rate

/-- ST hands the lanes a frame (R765-R768): in the burst in progress while that has not ended, when the device goes on with it
and it stays within 8,192 words, else as a burst of its own, after a slot of IDLE. Log entry 40. Log entry 105. -/
def Mach.handOver (m : Mach) (f : List Byte) : Mach :=
  let ln := m.ln
  let n := m.slotNow + 1
  let fresh (m : Mach) (s : Nat) : Mach :=
    { m with ln := { m.ln with bursts := ({ slot := if markerSlot ln.width s then s + 1 else s, bytes := f, since := m.now } :: m.ln.bursts).take 16 } }
  match ln.bursts with
  | b :: t =>
    let e := b.lastSlot ln.width
    if n ≤ e && (b.bytes.length + f.length) ≤ 8 * 8192 then
      let (v, m) := m.fresh 1
      if v = 1 then { m with ln := { m.ln with bursts := { b with bytes := b.bytes ++ f } :: t } } else fresh m (e + 2)
    else fresh m (max n (e + 2))
  | [] => fresh m n

/-- The beat in which slot `s` begins. -/
def Mach.slotBeat (m : Mach) (s : Nat) : Nat := m.ln.entered + ceilDiv (s * wordCenti m.ln.rate) 100

/-- The transmit elastic buffer of a lane (R85): the words of its bursts that the die has written, one entry a tick from the
hand-over of their burst on and never more than 16, and that the lane has not sent. -/
def Mach.txQueue (m : Mach) (l : Fin 4) : List (BitVec 66) :=
  let w := max 1 m.ln.width
  let due := m.ln.bursts.reverse.flatMap (fun b =>
    (b.words.zipIdx.filter (fun p => p.2 % w = l && p.2 / w ≤ (m.now - b.since) / 4)).filterMap (fun p =>
      if m.slotNow < b.slotOf w p.2 then some (p.1, b.slotOf w p.2) else none))
  (due.take 16).map (fun p => wordEntry p.1)

/-! ## The receive elastic buffer (R85) -/

/-- A lane puts a word into its receive elastic buffer of 16 entries. -/
def LaneSt.arrive (x : LaneSt) (w : LaneWord) : LaneSt :=
  if x.rxq.length < 16 then { x with rxq := x.rxq ++ [wordEntry w] } else x

/-- The die reads one entry. -/
def LaneSt.leave (x : LaneSt) : LaneWord × LaneSt :=
  match x.rxq with
  | e :: t => (entryWord e, { x with rxq := t })
  | [] => (.idle, x)

/-! ## PRBS (R795) -/

/-- `n` bits of a sequence whose next bit is the sum of bits `a - 1` and `b - 1` of the register `s` of `a` bits, latest lowest. -/
def prbsBits (a b : Nat) : Nat → Nat → List Bool
  | 0, _ => []
  | n + 1, s =>
    let x := s.testBit (a - 1) != s.testBit (b - 1)
    x :: prbsBits a b n (s * 2 % 2 ^ a + b2n x)

/-- The first `n` bits that a generator sends from its enabling on: PRBS9 or PRBS31, seeded with all ones (R795). -/
def prbsOut (gen n : Nat) : List Bool :=
  if gen = 1 then prbsBits 9 5 n (2 ^ 9 - 1) else if gen = 2 then prbsBits 31 28 n (2 ^ 31 - 1) else []

end Sys2Proof.Machine
end

