-- ==== Sys2Proof/Machine/Stream.lean ====
section
/-!
DEFINITION. Frames, credits, replay, reads, sessions and the receive ring of ST (ch. 20; EMIT of 08 R305-R312).
-/
namespace Sys2Proof.Machine

/-! ## Bytes -/

/-- Writes bytes and heals the ECC words that they cover whole (R196, R866). -/
def Mach.putBytes (m : Mach) (a : Nat) (l : List Byte) : Mach :=
  let covered (w : Nat) : Bool := a ≤ w && w + (if inLine w then 8 else 4) ≤ a + l.length
  { (m.storeBytes a l) with eccBad := m.eccBad.filter (fun w => !covered w),
                            eccOne := m.eccOne.filter (fun w => !covered w) }

/-- Reads the bytes at some addresses as an engine of the device does: one-bit errors are corrected and counted, an
uncorrectable word's bytes are free values, and the first such address is told (R924, log entry 11). -/
def Mach.fetchBytes (m : Mach) : List Nat → List Byte × Option Nat × Mach
  | [] => ([], none, m)
  | a :: t =>
    if m.isBad a then
      let (v, m) := m.fresh 8
      let (l, _, m) := m.fetchBytes t
      (BitVec.ofNat 8 v :: l, some a, m)
    else
      let b := m.byte a
      let (l, bad, m) := (m.touch a).fetchBytes t
      (b :: l, bad, m)

/-- Address of byte `i` of some segments. -/
def segAddr : List (Nat × Nat) → Nat → Nat
  | [], _ => 0
  | (a, n) :: t, i => if i < n then a + i else segAddr t (i - n)

/-- Addresses of `n` bytes of some segments from byte `i`. -/
def segAddrs (segs : List (Nat × Nat)) (i n : Nat) : List Nat := (List.range n).map (fun k => segAddr segs (i + k))

/-! ## Frames (R803-R807) -/

def lenP (n : Nat) : Nat := nextGrid 4 n

/-- Cost in credits (R807). -/
def frameCost (n : Nat) : Nat := ceilDiv (20 + lenP n) 256

def Frame.cost (f : Frame) : Nat := frameCost f.payload.length
def Frame.size (f : Frame) : Nat := 20 + lenP f.payload.length

/-- Bytes 0-15 of a frame (R803). -/
def Frame.header (f : Frame) : List Byte :=
  let b := leBytes 1 f.ty ++ leBytes 1 f.flags ++ leBytes 2 f.payload.length ++ leBytes 2 f.seq ++ leBytes 2 f.ack ++
    leBytes 4 f.a ++ leBytes 3 f.b
  b ++ [crc8 b]

/-- `l` with zeros up to a multiple of `g` bytes. -/
def padTo (g : Nat) (l : List Byte) : List Byte := l ++ List.replicate (nextGrid g l.length - l.length) 0

/-- The bytes of a frame on the link stream (R803). -/
def Frame.bytes (f : Frame) : List Byte :=
  let b := f.header ++ padTo 4 f.payload
  b ++ leBytes 4 (crc32c b).toNat

/-- What a receiver makes of one frame's bytes (R804). -/
inductive RxParse where
  /-- HCHK fails, LEN exceeds 4,096 or the burst ends inside the frame: a framing loss. -/
  | framing
  /-- FCRC fails. -/
  | badCrc
  /-- Both checks pass; `pad` says that every padding byte is 0. -/
  | good (f : Frame) (pad : Bool)
  deriving DecidableEq, Repr

/-- Reads a frame (R803, R804). -/
def parseFrame (raw : List Byte) : RxParse :=
  let h := raw.take 16
  let n := leNat ((h.drop 2).take 2)
  if raw.length < 20 || crc8 (h.take 15) != leNat (h.drop 15) || 4096 < n || raw.length != 20 + lenP n then .framing
  else if (crc32c (raw.take (16 + lenP n))).toNat != leNat (raw.drop (16 + lenP n)) then .badCrc
  else
    .good { ty := leNat (h.take 1), flags := leNat ((h.drop 1).take 1), seq := leNat ((h.drop 4).take 2),
            ack := leNat ((h.drop 6).take 2), a := leNat ((h.drop 8).take 4), b := leNat ((h.drop 12).take 3),
            payload := (raw.drop 16).take n }
          (((raw.drop (16 + n)).take (lenP n - n)).all (· = 0))

/-- TYPEs that a host may send (R806). -/
def hostTypes : List Nat := [0x11, 0x12, 0x13, 0x14, 0x30, 0x31, 0x39, 0x3C]

/-- A frame breaks R805: a TYPE it may not receive, a reserved field not 0, or LEN against its type's rule. -/
def Frame.broken (f : Frame) (pad : Bool) : Bool :=
  let n := f.payload.length
  !hostTypes.contains f.ty || !pad || (0x20 ≤ f.ty && f.seq != 0) ||
  (f.ty != 0x11 && f.flags != 0) || (f.ty = 0x11 && 7 < f.flags) ||
  (f.ty = 0x12 && (f.b != 0 || n % 4 != 0 || n = 0)) ||
  (f.ty = 0x13 && (n != 0 || f.b % 4 != 0 || f.b = 0 || 4096 < f.b)) ||
  (f.ty = 0x14 && 65536 ≤ f.a) ||
  (f.ty = 0x30 && (1 < f.a || f.b != 0 || n != 0)) ||
  (f.ty = 0x31 && (2 ^ 24 ≤ f.a || n != 0)) ||
  (f.ty = 0x39 && (f.a != 0 || f.b != 0 || n != 16 || leNat (f.payload.drop 15) != 0 ||
    1 < leNat ((f.payload.drop 14).take 1))) ||
  (f.ty = 0x3C && n != 0)

/-! ## Status -/

def Mach.sess (m : Mach) : Nat := m.get F.ST_STAT_SESS
def Mach.linkUp (m : Mach) : Bool := m.get F.LN_STAT_STATE = 7
def Mach.stOn (m : Mach) : Bool := m.is F.ST_CTL_EN
/-- ST holds a session, open or suspended (log entry 41). -/
def Mach.hasSess (m : Mach) : Bool := m.sess = 2 || m.sess = 3

def Mach.availOf (m : Mach) (ctl : Bool) : Nat := if ctl then m.get F.ST_CRDCTL_AVAIL else m.get F.ST_CRDIMG_AVAIL
def Mach.advOf (m : Mach) (ctl : Bool) : Nat := if ctl then m.get F.ST_ADV_CTL else m.get F.ST_ADV_IMG

/-- Sets AVAIL of a class, and OUTST = ADV - AVAIL (R811). -/
def Mach.setAvail (m : Mach) (ctl : Bool) (v : Nat) : Mach :=
  if ctl then (m.put F.ST_CRDCTL_AVAIL v).put F.ST_CRDCTL_OUTST (m.advOf true - v)
  else (m.put F.ST_CRDIMG_AVAIL v).put F.ST_CRDIMG_OUTST (m.advOf false - v)

/-- Bytes in the replay buffer (R811, R817). -/
def StSt.heldBytes (x : StSt) : Nat := x.held.foldl (fun (n : Nat) (h : StHeld) => n + h.f.size) 0

/-- Stores the replay buffer and ST_RPLY. -/
def Mach.setHeld (m : Mach) (l : List StHeld) : Mach :=
  let m := { m with st := { m.st with held := l } }
  m.put F.ST_RPLY_N m.st.heldBytes

def StSt.countTags (x : StSt) (k : Nat) : Nat := (x.tags.toList.filter (fun t => t.st = k)).length

/-- Stores a tag and the counts of ST_TAGS. -/
def Mach.setTag (m : Mach) (i : Fin 64) (t : RdTag) : Mach :=
  let m := { m with st := { m.st with tags := m.st.tags.set i t } }
  ((m.put F.ST_TAGS_FREE (m.st.countTags 0)).put F.ST_TAGS_OUTST (m.st.countTags 1)).put F.ST_TAGS_QUAR (m.st.countTags 2)

/-- Stream whose image entry comes next (R819), and the entry. -/
def StSt.imgPick (x : StSt) : Option StEntry :=
  ((List.range 16).map (fun k => (x.rr + 1 + k) % 16)).findSome? (fun s => x.queue.find? (fun e => !e.ctl && e.stream = s))

/-- Payload bytes of an entry (R820, R821). -/
def StEntry.body (e : StEntry) : Nat := if e.ctl then e.len - 16 else e.len

/-- Payload of an entry's next frame. -/
def StEntry.nextLen (e : StEntry) : Nat := min 4096 (e.body - e.pos)

/-- Credits and replay space for a new frame of `n` payload bytes (R808, R817). -/
def Mach.sendable (m : Mach) (ctl : Bool) (n : Nat) : Bool :=
  frameCost n ≤ m.availOf ctl && m.st.heldBytes + 20 + lenP n ≤ 262144

/-- Payload lengths of the ctl frames that are ready, first of each kind (R812). -/
def StSt.ctlReady (x : StSt) : List Nat :=
  (match x.hcpl with | f :: _ => [f.payload.length] | [] => []) ++
  (match x.queue.find? (fun e => e.ctl) with | some e => [e.nextLen] | none => []) ++
  (if x.rdreq.isEmpty then [] else [16])

def Mach.ctlCan (m : Mach) : Bool := m.sess = 2 && m.stOn && m.st.ctlReady.any (fun n => m.sendable true n)

/-- img_starved (R812). -/
def Mach.imgStarved (m : Mach) : Bool :=
  m.sess = 2 && m.stOn && m.is F.ST_CTL_IMGRUN &&
  (match m.st.imgPick with
   | some e => m.availOf false < frameCost e.nextLen
   | none => false)

/-- After any change in ST: img_starved, its count, and ST_CREDIT (R643, R812). -/
def Mach.stSync (m : Mach) : Mach :=
  let s := m.imgStarved
  let c := m.ctlCan
  let x := m.st
  let pulse : Bool := s != x.starved || (c != x.ctlOk && !x.ctlReady.isEmpty)
  let x := if s != x.starved then
      { x with starved := s, starveFrom := m.now, starveAcc := if x.starved then x.starveAcc + (m.now - x.starveFrom) else x.starveAcc }
    else x
  let m := { m with st := { x with ctlOk := c } }
  if pulse then m.pulse 7 13 else m

/-- Starved beats of the motion interval that ends now; the count starts again (R643). -/
def Mach.starveTake (m : Mach) : Nat × Mach :=
  let x := m.st
  (x.starveAcc + (if x.starved then m.now - x.starveFrom else 0),
   { m with st := { x with starveAcc := 0, starveFrom := m.now } })

/-! ## Sending -/

/-- A frame leaves: it joins the link stream that the lanes carry (R765; log entry 40). -/
def Mach.txFrame (m : Mach) (f : Frame) : Mach :=
  ({ m with st := { m.st with tx := (f :: m.st.tx).take 16 } }).handOver f.bytes

/-- ACKSEQ of a frame sent now (R813). -/
def Mach.ackSeq (m : Mach) : Nat := if m.sess = 2 then m.st.rxSeq else 0

/-- Sends an unsequenced frame. -/
def Mach.txPlain (m : Mach) (ty a b : Nat) (payload : List Byte) : Mach :=
  m.txFrame { ty := ty, flags := 0, seq := 0, ack := m.ackSeq, a := a, b := b, payload := payload }

/-- LINK with an acknowledgement or a NAK (R815, R816). -/
def Mach.txAck (m : Mach) : Mach := m.txPlain 0x30 0 0 []
/-- Log entry 38. -/
def Mach.txNak (m : Mach) : Mach :=
  if m.sess != 2 then m
  else if m.st.nakAt.any (fun t => m.now < t + 60000) then m
  else
    let m := m.txPlain 0x30 1 0 []
    { m with st := { m.st with nakAt := some m.now } }

/-- CREDIT with the count of credits freed here (R809, R843). -/
def Mach.txCredit (m : Mach) : Mach := if m.sess = 2 then m.txPlain 0x31 0 m.st.crRet [] else m

/-- A new sequenced frame enters the replay buffer and leaves (R808, R814, R817). -/
def Mach.txNew (m : Mach) (ctl : Bool) (ty flags a b : Nat) (payload : List Byte) : Mach :=
  let f : Frame := { ty := ty, flags := flags, seq := m.st.txSeq, ack := m.ackSeq, a := a, b := b, payload := payload }
  let m := m.setAvail ctl (m.availOf ctl - f.cost)
  let m := { m with st := { m.st with txSeq := (m.st.txSeq + 1) % 65536,
                                      ackAt := if m.st.held.isEmpty then m.now else m.st.ackAt } }
  (m.setHeld (m.st.held ++ [{ f := f, ctl := ctl, owe := false }])).txFrame f

/-- A new sequenced frame may leave: the session is open, the link is up, and no replay comes first (R817, R819). -/
def Mach.mayTx (m : Mach) : Bool :=
  m.live && m.sess = 2 && m.stOn && m.linkUp && !m.st.replay && !m.st.held.any (·.owe)

/-! ## Entries -/

/-- Counts the done entries at the front of each stream's acceptance order (R822). -/
def Mach.ledgerStep (m : Mach) : List StAcc → List StAcc → Mach
  | [], keep => { m with st := { m.st with ledger := keep.reverse } }
  | e :: t, keep =>
    if e.done && !keep.any (fun k => k.stream = e.stream) then
      let m := m.countMod (F.ST_DONE_N e.stream) 1
      let m := if e.lost then m.countMod (F.ST_LOST_N e.stream) 1 else m
      m.ledgerStep t keep
    else m.ledgerStep t (e :: keep)

/-! ### Output rings of the codec (R733) -/

def allCtx : List (Fin 16) := List.finRange 16

def Mach.bcCtx (m : Mach) (c : Fin 16) : BcCtx := m.bc.ctx[c]
def Mach.setBcCtx (m : Mach) (c : Fin 16) (x : BcCtx) : Mach := { m with bc := { m.bc with ctx := m.bc.ctx.set c x } }

/-- A context decodes under its active set (R711). -/
def Mach.bcDec (m : Mach) (c : Fin 16) : Bool := m.act (F.BC_CTX_CFG_DIR c) = 1

/-- ST still holds the unit's range, or the self-check still needs it (R733). -/
def Mach.unitHeld (m : Mach) (u : BcUnit) : Bool :=
  u.check || (match u.entry with | some id => m.st.queue.any (fun e => e.id = id) | none => false)

/-- Frees the units at the front of an encode context's ring that nothing needs; RP follows (R733). -/
def Mach.bcReap (m : Mach) (c : Fin 16) : Mach :=
  let x := m.bcCtx c
  let keep := x.units.dropWhile (fun u => !m.unitHeld u)
  if keep.length = x.units.length || m.bcDec c then m
  else
    let m := m.setBcCtx c { x with units := keep }
    m.put (F.BC_CTX_RP_RP c) (match keep with | u :: _ => u.ofs | [] => m.get (F.BC_CTX_WP_WP c))

/-- An entry is done, sent or lost (R822); the ring bytes that it held become free (R733). -/
def Mach.entryDone (m : Mach) (id : Nat) (lost : Bool) : Mach :=
  let m := { m with st := { m.st with queue := m.st.queue.filter (fun e => e.id != id) } }
  let m := m.each allCtx (fun c m => m.bcReap c)
  m.ledgerStep (m.st.ledger.map (fun (e : StAcc) => if e.id = id then { e with done := true, lost := lost } else e)) []

/-- Accepts an entry (R310, R311). -/
def Mach.accept (m : Mach) (ctl : Bool) (stream : Nat) (segs : List (Nat × Nat)) (len : Nat) (last coded : Bool) :
    Nat × Mach :=
  let x := m.st
  let s : Fin 16 := Fin.ofNat 16 stream
  let e : StEntry := { id := x.nextId, ctl := ctl, stream := stream, segs := segs, len := len, last := last, coded := coded,
                       eseq := x.eseq[s] }
  let x := { x with queue := x.queue ++ [e], nextId := x.nextId + 1,
                    ledger := x.ledger ++ [{ id := x.nextId, stream := stream, done := false, lost := false }],
                    eseq := if ctl then x.eseq else x.eseq.set s ((x.eseq[s] + 1) % 2 ^ 32) }
  (e.id, ({ m with st := x }).countMod (F.ST_ACC_N stream) 1)

/-- EMIT's status and effect (R305-R311); of several statuses the highest is given (log entry 42). -/
def Mach.emit (m : Mach) (core : Fin 8) (addr desc : Nat) : Nat × Mach :=
  let len := desc % 2 ^ 24
  let ctl := desc.testBit 28
  let lo := if ctl then 0x20000000 else 0x48000000
  let size := if ctl then 0x4000 else lineSize
  if bits desc 30 29 != 0 || len = 0 || len % 4 != 0 || addr % 4 != 0 || addr < lo || lo + size < addr + len then (3, m)
  else if !m.stOn || !m.hasSess || (!ctl && !m.is F.ST_CTL_IMGRUN) then (2, m)
  else if 64 ≤ (m.st.queue.filter (fun e => !e.coded)).length then (1, m)
  else
    let port := if ctl then addr - 0x20000000 + mbxBase else addr - 0x40000000
    let (_, m) := m.accept ctl (bits desc 27 24) [(port, len)] len (desc.testBit 31) false
    (0, (m.countMod (F.ST_EMITS_N core) 1).stSync)

/-- BC hands a unit's bytes over (R733, R839): the entry that carries it, if it is not discarded. Log entry 37. -/
def Mach.bcHand (m : Mach) (stream : Nat) (segs : List (Nat × Nat)) (len : Nat) (isStream : Bool) : Option Nat × Mach :=
  let s : Fin 16 := Fin.ofNat 16 stream
  if !m.hasSess || (m.st.codedHold[s] && !isStream) then
    let (id, m) := m.accept false stream segs len false true
    (none, m.entryDone id true)
  else
    let m := { m with st := { m.st with codedHold := m.st.codedHold.set s false } }
    let (v, m) := m.fresh 1
    let (id, m) := m.accept false stream segs len (v = 1) true
    (some id, m.stSync)

/-- Flags of an entry's next frame of `n` bytes (R803, R820). -/
def StEntry.flags (e : StEntry) (n : Nat) : Nat :=
  b2n (!e.started) + 2 * b2n (e.body ≤ e.pos + n) + 4 * b2n e.last + 8 * b2n e.coded + 16 * e.stream

/-- An entry after a frame of `n` bytes. -/
def Mach.entryAfter (m : Mach) (e : StEntry) (n : Nat) : Mach :=
  if e.body ≤ e.pos + n then m.entryDone e.id false
  else { m with st := { m.st with queue := m.st.queue.map (fun (q : StEntry) =>
    if q.id = e.id then { e with started := true, pos := e.pos + n } else q) } }

/-- IMG_SEND (R808, R819, R820): the address of an uncorrectable word met, if any. -/
def Mach.imgSend (m : Mach) : Option Nat × Mach :=
  match m.st.imgPick with
  | some e =>
    if m.mayTx && m.is F.ST_CTL_IMGRUN && !m.ctlCan && m.sendable false e.nextLen then
      let n := e.nextLen
      let (data, bad, m) := m.fetchBytes (segAddrs e.segs e.pos n)
      let m := m.txNew false 0x01 (e.flags n) e.eseq e.pos data
      let m := { m with st := { m.st with rr := e.stream } }
      (bad, (m.entryAfter e n).stSync)
    else (none, m)
  | none => (none, m)

/-- The template of a ctl-class entry (R821). -/
def Mach.template (m : Mach) (e : StEntry) : StEntry × Option Nat × Mach :=
  if e.started then (e, none, m)
  else
    let (t, bad, m) := m.fetchBytes (segAddrs e.segs 0 (min 16 e.len))
    let ty := leNat (t.take 1)
    let ok := ty = 2 || ty = 3
    let m := if ok then m else m.put F.ST_STAT_TMPLERR 1
    ({ e with ty := if ok then ty else 2, a := leNat ((t.drop 8).take 4), b := leNat ((t.drop 12).take 3) }, bad, m)

/-- CTL_SEND (R808, R819, R821, R843). -/
def Mach.ctlSend (m : Mach) : Option Nat × Mach :=
  if !m.mayTx then (none, m)
  else
    match m.st.hcpl with
    | f :: t =>
      if m.sendable true f.payload.length then
        let m := { m with st := { m.st with hcpl := t } }
        (none, (m.txNew true f.ty f.flags f.a f.b f.payload).stSync)
      else (none, m)
    | [] =>
      match m.st.queue.find? (fun e => e.ctl) with
      | some e =>
        if m.sendable true e.nextLen then
          let (e, bad0, m) := m.template e
          let n := e.nextLen
          let (data, bad, m) := m.fetchBytes (segAddrs e.segs (16 + e.pos) n)
          let m := m.txNew true e.ty (e.flags n) e.a e.b data
          (match bad0 with | some a => some a | none => bad, (m.entryAfter e n).stSync)
        else (none, m)
      | none => (none, m)

/-- RDREQ_SEND (R826, R829). -/
def Mach.rdreqSend (m : Mach) : Mach :=
  match m.st.rdreq with
  | k :: t =>
    if m.mayTx && m.sendable true 16 then
      let i : Fin 64 := Fin.ofNat 64 k
      let g := m.st.tags[i]
      let m := { m with st := { m.st with rdreq := t } }
      let m := m.txNew true 0x04 0 k 0 (leBytes 8 g.host ++ leBytes 4 g.len ++ leBytes 4 0)
      (m.setTag i { g with sent := some m.now, time := 3000 * m.get F.ST_RDTO_T }).stSync
    else m
  | [] => m

/-! ## Acknowledgement and replay (R813-R817) -/

/-- Distance from a to b, modulo 65,536. -/
def seqDist (a b : Nat) : Nat := (b + 65536 - a % 65536) % 65536

/-- Frames before ACKSEQ leave the replay buffer (R813, R817). -/
def Mach.takeAck (m : Mach) (ack : Nat) : Mach :=
  match m.st.held with
  | [] => m
  | h :: _ =>
    let n := seqDist h.f.seq ack
    if n = 0 || m.st.held.length < n then m
    else
      let m := m.setHeld (m.st.held.drop n)
      { m with st := { m.st with rounds := 0, ackAt := m.now, replay := m.st.replay && !m.st.held.isEmpty } }

/-- A NAK or the timer asks for a round; true when four have passed in a row and the link is lost instead (R817). -/
def Mach.askRound (m : Mach) : Bool × Mach :=
  if m.st.held.isEmpty || m.sess != 2 then (false, m)
  else if 4 ≤ m.st.rounds then (true, m)
  else
    let m := m.countHold F.ST_RPLCNT_ROUNDS 1
    (false, { m with st := { m.st with rounds := m.st.rounds + 1, replay := true, ackAt := m.now } })

/-- Resends held frames in order while those that owe their cost can pay it (R817, R836). -/
def Mach.resend (m : Mach) : List StHeld → List StHeld → Mach
  | [], done =>
    let m := m.setHeld done.reverse
    { m with st := { m.st with replay := false } }
  | h :: t, done =>
    if h.owe && m.availOf h.ctl < h.f.cost then m.setHeld (done.reverse ++ h :: t)
    else
      let m := if h.owe then m.setAvail h.ctl (m.availOf h.ctl - h.f.cost) else m
      let f := { h.f with ack := m.ackSeq }
      (m.txFrame f).resend t ({ f := f, ctl := h.ctl, owe := false } :: done)

/-- REPLAY (R817, R836). -/
def Mach.replayGo (m : Mach) : Mach :=
  if m.live && m.sess = 2 && m.linkUp && (m.st.replay || m.st.held.any (·.owe)) then (m.resend m.st.held []).stSync else m

/-- REPLAY_TIMEOUT (R817). -/
def Mach.replayTimeout (m : Mach) : Bool × Mach :=
  if m.live && m.sess = 2 && m.linkUp && !m.st.held.isEmpty && !m.st.replay then
    (m.runTo (m.st.ackAt + 3000 * m.get F.ST_RPLYT_T)).askRound
  else (false, m)

/-! ## The receive ring (R841-R843) -/

def Mach.rxSize (m : Mach) : Nat := m.get F.ST_RXSIZE_SIZE / 16 * 16

/-- Places one record's bytes at RXWP and pulses ST_RX. -/
def Mach.ringWrite (m : Mach) (bytes : List Byte) (len cost : Nat) : Mach :=
  let pos := m.get F.ST_RXWP_OFS
  let m := m.putBytes (mbxBase + (m.get F.ST_RXBASE_OFS + pos) % 0x4000) bytes
  let x := m.st
  let m := { m with st := { x with linW := x.linW + len, recs := x.recs ++ [(x.linW + len, cost)] } }
  (m.put F.ST_RXWP_OFS ((pos + len) % max 16 m.rxSize)).pulse 7 12

/-- A header of one of ST's own records: TYPE, A and B placed as in a frame. -/
def ownHeader (ty a b : Nat) : List Byte :=
  ({ ty := ty, flags := 0, seq := 0, ack := 0, a := a, b := b, payload := [] } : Frame).header

/-- Puts a record in the ring, after a WRAP record where it would not fit; false when it finds no room.
Log entry 39. -/
def Mach.ringPut (m : Mach) (bytes : List Byte) (cost reserve : Nat) : Bool × Mach :=
  let size := m.rxSize
  let need := bytes.length
  let rest := size - m.get F.ST_RXWP_OFS
  let wrap := if rest < need then rest else 0
  if size < 16 || size - 16 < m.st.linW - m.st.linR + wrap + need + reserve then (false, m)
  else
    let m := if wrap = 0 then m else (m.ringWrite (ownHeader 0x80 0 0) wrap 0).put F.ST_RXWP_OFS 0
    (true, m.ringWrite bytes need cost)

/-- One of ST's own records (R842). Log entry 39. -/
def Mach.ownRecord (m : Mach) (ty a b : Nat) : Mach :=
  let (ok, m) := m.ringPut (ownHeader ty a b) 0 0
  if ok then m else m.put F.ST_STAT_RXDROP 1

/-- A frame record (R841). Log entry 39. -/
def Mach.frameRecord (m : Mach) (f : Frame) : Mach :=
  let (ok, m) := m.ringPut (padTo 16 (f.header ++ f.payload)) f.cost 2048
  if ok then m else m.put F.ST_STAT_RXDROP 1

/-- A write of ST_RXRP (R843). -/
def Mach.rxrpWrite (m : Mach) (v : Nat) : Mach :=
  let size := max 16 m.rxSize
  let old := m.get F.ST_RXRP_OFS
  let step := min ((v % size + size - old % size) % size) (m.st.linW - m.st.linR)
  let x := m.st
  let lin := x.linR + step
  let freed := (x.recs.filter (fun r => r.1 ≤ lin)).foldl (fun (n : Nat) (r : Nat × Nat) => n + r.2) 0
  let m := m.put F.ST_RXRP_OFS v
  let m := { m with st := { x with linR := lin, recs := x.recs.filter (fun r => lin < r.1), crRet := (x.crRet + freed) % 2 ^ 24 } }
  if freed = 0 then m else m.txCredit

/-- Credits held by records in the ring. -/
def StSt.ringHeld (x : StSt) : Nat := x.recs.foldl (fun (n : Nat) (r : Nat × Nat) => n + r.2) 0

/-! ## Fault notices (R844, R845) -/

/-- The FAULT frame's payload (R844). -/
def Mach.noticeBytes (m : Mach) : List Byte :=
  leBytes 2 (m.get F.SHR_REC_PRIMARY) ++ leBytes 1 (m.get F.SHR_REC_CLASS) ++ leBytes 1 (m.get F.SHR_REC_NSEC) ++
  leBytes 2 (m.get F.SHR_REC_INFO_NOTICE) ++ leBytes 2 0 ++
  leBytes 8 (m.get F.SHR_DET_LO_T + 2 ^ 32 * m.get F.SHR_DET_HI_T) ++
  leBytes 8 (m.get F.SHR_SUS_LO_T + 2 ^ 32 * m.get F.SHR_SUS_HI_T) ++
  leBytes 4 (m.reg F.SYS_ID_reg).toNat ++ leBytes 4 0

/-- Sends the notice now, or owes it until a session opens (R51, R100, R845). -/
def Mach.notice (m : Mach) : Mach :=
  if m.sess = 2 && m.linkUp then
    let m := m.txPlain 0x08 0 0 m.noticeBytes
    { m with st := { m.st with noticeAt := some m.now, noticeDue := false } }
  else { m with st := { m.st with noticeDue := true } }

/-- The FAULT frame of this tick shows what the tick's later codes made of the record (R51, R56). -/
def Mach.noticeFix (m : Mach) : Mach :=
  if m.st.noticeAt.any (fun t => t / 4 = m.now / 4) then
    match m.st.tx with
    | f :: t => if f.ty = 0x08 then { m with st := { m.st with tx := { f with payload := m.noticeBytes } :: t } } else m
    | [] => m
  else m

/-- FAULT_NOTICE_REPEAT (R845). -/
def Mach.noticeRepeat (m : Mach) : Mach :=
  match m.st.noticeAt with
  | some t =>
    if m.live && m.is F.SHR_STATUS_HELD && m.sess = 2 && m.linkUp then (m.runTo (t + 30000000)).notice else m
  | none => m

/-! ## Sessions (R831-R840) -/

/-- SESS changes; a SESSION record tells it (R838, R841; log entry 43). -/
def Mach.setSess (m : Mach) (s why : Nat) : Mach := (m.put F.ST_STAT_SESS s).ownRecord 0x81 s why

/-- Ends every read with STATUS 0xFE and frees every tag (R838). -/
def Mach.endReads (m : Mach) : Mach :=
  m.each (List.finRange 64) (fun i m =>
    let g := m.st.tags[i]
    if g.st = 0 then m
    else
      let m := if g.st = 1 then m.ownRecord 0x82 (i.val + 0xFE * 256) g.got else m
      m.setTag i {})

/-- A session closes (R838, R839). -/
def Mach.closeSess (m : Mach) (why : Nat) : Mach :=
  if !m.hasSess then m
  else
    let m := if m.linkUp then m.txPlain 0x3C (m.get F.ST_SID_SID) why [] else m
    let m := m.setHeld []
    let m := m.each (m.st.queue.map (·.id)) (fun id m => m.entryDone id true)
    let m := { m with st := { m.st with hcpl := [], rdreq := [], replay := false, rounds := 0, nakAt := none, resumed := false,
                                        offerAt := none, codedHold := Vector.replicate 16 true } }
    let m := m.endReads
    let m := (m.put F.ST_STAT_CLOSEWHY why).put F.ST_SID_SID 0
    (m.setSess 0 why).stSync.pulse 7 13

/-- ST hears of a link loss (R780, R836, R837). Log entry 43. -/
def Mach.stLinkLost (m : Mach) : Mach :=
  let m := { m with st := { m.st with offerAt := none } }
  if m.sess = 2 then
    if m.is F.ST_CTL_RESUMEEN then
      ({ m with st := { m.st with suspendAt := m.now } }.setSess 3 0).stSync
    else m.closeSess 1
  else if m.sess = 1 then m.put F.ST_STAT_SESS 0
  else m

/-- The device offers sessions (R832). -/
def Mach.offering (m : Mach) : Bool := m.stOn && m.linkUp && m.sess != 2

def Mach.retryOf (m : Mach) : Nat := max 1 (m.get F.ST_RETRY_T)

/-- SESSION_OFFER (R831, R832). -/
def Mach.offer (m : Mach) : Mach :=
  if m.live && m.offering then
    let m := match m.st.offerAt with | some t => m.runTo (t + 300000) | none => m
    let sus := m.sess = 3
    let boot := m.get F.BOOT_STATUS_PHASE != 4
    let adv := if boot then 16 else m.get F.ST_RXADV_ADV
    let m := m.txPlain 0x38 0 0 (leBytes 4 (m.reg F.SYS_ID_reg).toNat ++ leBytes 4 (if sus then m.get F.ST_SID_SID else 0) ++
      leBytes 2 (if sus then m.st.rxSeq else 0) ++ leBytes 2 adv ++ leBytes 2 (adv - m.st.ringHeld) ++
      leBytes 1 m.retryOf ++ leBytes 1 (b2n boot + 16))
    let m := { m with st := { m.st with offerAt := some m.now } }
    if m.sess = 0 then m.put F.ST_STAT_SESS 1 else m
  else m

/-- After a session opens or resumes: the record, ST_CREDIT, and a notice that is owed (R835, R841, R845).
Log entry 43. -/
def Mach.opened (m : Mach) : Mach :=
  let m := (m.setSess 2 0).pulse 7 13
  let m := { m with st := { m.st with offerAt := none } }
  let m := if m.is F.SHR_STATUS_HELD && m.st.noticeDue then m.notice else m
  m.stSync

/-- A new session (R835). -/
def Mach.newSession (m : Mach) (sid advI advC freeI freeC : Nat) : Mach :=
  let m := ((m.put F.ST_SID_SID sid).put F.ST_ADV_IMG advI).put F.ST_ADV_CTL advC
  let m := (m.setAvail false freeI).setAvail true freeC
  let m := { m with st := { m.st with txSeq := 0, rxSeq := 0, crImg := 0, crCtl := 0, crRet := 0, rounds := 0, nakAt := none,
                                      replay := false, resumed := false, eseq := Vector.replicate 16 0 } }
  let m := m.txPlain 0x3A sid 0 []
  let m := m.each (List.finRange 16) (fun c m =>
    if m.act (F.BC_CTX_CFG_DIR c) = 0 then
      { (m.put (F.BC_CTX_STAT_KEYNEXT c) 1) with
          bc := { m.bc with ctx := m.bc.ctx.set c { m.bc.ctx[c] with why := m.bc.ctx[c].why ||| 16 } } }
    else m)
  m.opened

/-- A suspended session resumes (R836). -/
def Mach.resume (m : Mach) (advI advC freeI freeC next : Nat) : Mach :=
  let m := m.takeAck next
  let m := (m.put F.ST_ADV_IMG advI).put F.ST_ADV_CTL advC
  let m := (m.setAvail false freeI).setAvail true freeC
  let m := m.setHeld (m.st.held.map (fun (h : StHeld) => { h with owe := true }))
  let m := { m with st := { m.st with crImg := 0, crCtl := 0, crRet := 0, rounds := 0, replay := !m.st.held.isEmpty,
                                      ackAt := m.now, nakAt := none, resumed := true } }
  (m.txPlain 0x3A (m.get F.ST_SID_SID) 1 []).opened

/-- An OPEN frame (R833); one in the tick in which the retry timer expires is handled after the close (R837). -/
def Mach.rxOpen (m : Mach) (p : List Byte) : Mach :=
  let m := if m.sess = 3 && (m.st.suspendAt + 30000000 * m.retryOf) / 4 ≤ m.now / 4 then m.closeSess 1 else m
  let sid := leNat (p.take 4)
  let h (i : Nat) : Nat := leNat ((p.drop i).take 2)
  let advI := h 4
  let advC := h 6
  if m.sess = 2 then
    if sid = m.get F.ST_SID_SID then m.txPlain 0x3A sid (b2n m.st.resumed) [] else m
  else if !m.offering then m
  else if sid = 0 || advI = 0 || 4096 < advI || advC = 0 || 4096 < advC || advI < h 8 || advC < h 10 then m.txPlain 0x3B sid 2 []
  else if leNat ((p.drop 14).take 1) = 0 then
    let m := if m.sess = 3 then m.closeSess 5 else m
    m.newSession sid advI advC (h 8) (h 10)
  else if m.sess = 3 && sid = m.get F.ST_SID_SID then m.resume advI advC (h 8) (h 10) (h 12)
  else m.txPlain 0x3B sid 1 []

/-- SESSION_RETRY_EXPIRE (R836, R837). -/
def Mach.retryExpire (m : Mach) : Mach :=
  if m.live && m.sess = 3 then (m.runTo (m.st.suspendAt + 30000000 * m.retryOf)).closeSess 1 else m

/-- Writes of ST_CTL.EN, IMGRUN and CLOSE (R838, R846, R847). -/
def Mach.stEn (m : Mach) (on : Bool) : Mach :=
  if on then m.put F.ST_CTL_EN 1
  else
    let m := m.put F.ST_CTL_EN 0
    if m.hasSess then m.closeSess 4 else ({ m with st := { m.st with offerAt := none } }).put F.ST_STAT_SESS 0

def Mach.stImgrun (m : Mach) (on : Bool) : Mach := (m.put F.ST_CTL_IMGRUN (b2n on)).stSync

def Mach.stClose (m : Mach) : Mach := m.closeSess 3

/-! ## Reception -/

def Mach.protErr (m : Mach) : Mach := (m.put F.ST_STAT_PROTERR 1).countMod F.ST_PROTERR_N 1

/-- Adds the credits that a CREDIT frame returns (R809, R810). Log entry 91. -/
def Mach.addCredits (m : Mach) (ctl : Bool) (v : Nat) : Mach :=
  let last := if ctl then m.st.crCtl else m.st.crImg
  let d := (v + 2 ^ 24 - last) % 2 ^ 24
  if d = 0 || 2 ^ 23 < d then m
  else
    let m := { m with st := if ctl then { m.st with crCtl := v } else { m.st with crImg := v } }
    let sum := m.availOf ctl + d
    if m.advOf ctl < sum then (m.setAvail ctl (m.advOf ctl)).protErr else m.setAvail ctl sum

/-- A CREDIT frame (R809). -/
def Mach.rxCredit (m : Mach) (f : Frame) : Mach :=
  if m.sess = 2 then ((m.addCredits false f.a).addCredits true f.b).stSync else m

/-- Bad words on the link: a framing loss or an FCRC failure (R804, R815; class 13 of R44). -/
def Mach.rxBad (m : Mach) (framing : Bool) : Mach :=
  let m := if framing then m.countHold F.ST_ERRS_LOSSES 1 else (m.countHold F.ST_ERRS_FCRC 1).countMod F.SHR_C13_N 1
  m.txNak

/-- ST receives words: the lanes carry them and ST runs (R801). -/
def Mach.rxUp (m : Mach) : Bool := m.live && m.linkUp && m.stOn

/-- A frame whose checks of R804 pass is received (R805, R814, R815): a frame to act on, when it is one.
Log entry 38. -/
def Mach.rxFrame (m : Mach) (f : Frame) (pad : Bool) : Option Frame × Mach :=
  let bad := f.broken pad
  let m := if m.sess = 2 && !bad then (m.takeAck f.ack).stSync else m
  if 0x11 ≤ f.ty && f.ty ≤ 0x14 then
    if m.sess != 2 then (none, m)
    else
      let d := seqDist f.seq m.st.rxSeq
      if d = 0 then
        let m := { m with st := { m.st with rxSeq := (m.st.rxSeq + 1) % 65536, nakAt := none } }
        let m := m.txAck
        if bad then (none, m.protErr) else (some f, m)
      else if d ≤ 32768 then (none, m.txAck)
      else (none, m.txNak)
  else if bad then (none, m.protErr)
  else (some f, m)

/-- The rest of the burst being received is discarded (R770, R804). -/
def Mach.dropBurst (m : Mach) (b : RxBurst) (t : List RxBurst) : Mach :=
  { m with ln := { m.ln with rxIn := t, rxDrop := m.ln.rxDrop || !b.ended } }

/-- Takes the bytes of a frame off the burst being received. -/
def Mach.cutBurst (m : Mach) (b : RxBurst) (t : List RxBurst) (n : Nat) : Mach :=
  { m with ln := { m.ln with rxIn := { b with bytes := b.bytes.drop n } :: t } }

/-- The next frame of the bursts received, when it is of type `ty`; what is no frame is dealt with on the way (R770, R804, R805).
`n` bounds the frames looked at. -/
def Mach.rxNext (m : Mach) (ty : Nat) : Nat → Option Frame × Mach
  | 0 => (none, m)
  | n + 1 =>
    match m.ln.rxIn with
    | [] => (none, m)
    | b :: t =>
      let size := 20 + lenP (leNat ((b.bytes.drop 2).take 2))
      let whole := 20 ≤ b.bytes.length && (4116 < size || size ≤ b.bytes.length)
      if b.bytes = [] && !b.broken then
        if b.ended then ({ m with ln := { m.ln with rxIn := t } }).rxNext ty n else (none, m)
      else if !whole then
        -- a burst that ends inside a frame, or by an error
        if b.ended then ((m.dropBurst b t).rxBad true).rxNext ty n else (none, m)
      else
        match parseFrame (b.bytes.take size) with
        | .framing => ((m.dropBurst b t).rxBad true).rxNext ty n
        | .badCrc => ((m.cutBurst b t size).rxBad false).rxNext ty n
        | .good f pad =>
          if f.ty = ty then (m.cutBurst b t size).rxFrame f pad
          else if hostTypes.contains f.ty then (none, m)
          else ((m.cutBurst b t size).rxFrame f pad).2.rxNext ty n

/-- A CPL frame (R827-R830). Log entry 45. -/
def Mach.rxCpl (m : Mach) (f : Frame) : Mach :=
  let k := f.a % 256
  let status := bits f.a 15 8
  let n := f.payload.length
  if 64 ≤ k then m.countMod F.ST_BADCPL_N 1
  else
    let i : Fin 64 := Fin.ofNat 64 k
    let g := m.st.tags[i]
    if g.st = 2 then m.countMod F.ST_LATE_N 1
    else if g.st = 0 then m.countMod F.ST_BADCPL_N 1
    else
      let broken : Bool := if status = 0 then n = 0 || f.b != g.got || g.len < g.got + n else n != 0
      if broken then ((m.protErr).setTag i {}).ownRecord 0x82 (k + 0xFF * 256) g.got
      else
        let m := m.putBytes (g.dest + g.got) f.payload
        if status != 0 || g.got + n = g.len then (m.setTag i {}).ownRecord 0x82 (k + status * 256) (g.got + n)
        else m.setTag i { g with got := g.got + n }

/-! ## Reads (R823-R830) -/

/-- Port address of a core address in the mailbox or the line store window that holds `n` bytes there. -/
def stDest (a n : Nat) : Option Nat :=
  if 0x20000000 ≤ a && a + n ≤ 0x20004000 then some (a - 0x20000000 + mbxBase)
  else if 0x48000000 ≤ a && a + n ≤ 0x4B000000 then some (a - 0x40000000)
  else none

/-- Tags that count as free when a descriptor is taken (R825). Log entry 44. -/
def Mach.freeTags (m : Mach) : List (Fin 64) :=
  (List.finRange 64).filter (fun i =>
    let g := m.st.tags[i]
    g.st = 0 || (g.st = 2 && g.quarAt + 2 * g.time < (m.now / 4 + 1) * 4))

/-- A write of ST_RDQ; `full` says that eight descriptors wait (R823, R824; log entry 44). -/
def Mach.rdqWrite (m : Mach) (addr : Nat) (full : Bool) : Option Nat × Mach :=
  if full then (none, m.put F.ST_STAT_RDQDROP 1)
  else if addr < 0x20000000 || 0x20004000 < addr + 24 || addr % 8 != 0 then (none, m)
  else
    let at' := addr - 0x20000000 + mbxBase
    let (d, bad, m) := m.fetchBytes ((List.range 16).map (at' + ·))
    let len := leNat ((d.drop 8).take 4)
    let answer (res k : Nat) (m : Mach) : Mach := m.putBytes (at' + 16) (leBytes 4 (k + res * 2 ^ 28 + 2 ^ 31))
    match stDest (leNat (d.drop 12)) len with
    | none => (bad, answer 3 0 m)
    | some dest =>
      if len = 0 || 4096 < len then (bad, answer 3 0 m)
      else if !m.hasSess || !m.stOn then (bad, answer 2 0 m)
      else
        let free := m.freeTags
        if free.isEmpty then (bad, answer 1 0 m)
        else
          let (v, m) := m.fresh 6
          let i := free.getD (v % free.length) 0
          let m := m.setTag i { st := 1, host := leNat (d.take 8), dest := dest, len := len }
          let m := { m with st := { m.st with rdreq := m.st.rdreq ++ [i.val] } }
          (bad, (answer 0 i.val m).stSync)

/-- READ_TIMEOUT of a tag (R829). Log entry 105. -/
def Mach.readTimeout (m : Mach) (i : Fin 64) : Mach :=
  let g := m.st.tags[i]
  match g.sent with
  | some t =>
    if m.live && g.st = 1 then
      -- a completion in the tick of expiry comes first
      let m := m.runTo ((t + g.time) / 4 * 4 + 4)
      let m := m.setTag i { g with st := 2, quarAt := t + g.time }
      (m.ownRecord 0x83 i g.got).pulse 7 14
    else m
  | none => m

/-- QUARANTINE_EXIT of a tag (R830). -/
def Mach.quarExit (m : Mach) (i : Fin 64) : Mach :=
  let g := m.st.tags[i]
  if m.live && g.st = 2 then (m.runTo (g.quarAt + 2 * g.time)).setTag i {} else m

/-! ## Boot session (05 R165, R186, R843) -/

/-- Credits of a frame that the boot ROM has dealt with return at once. Log entry 66. -/
def Mach.bootFreed (m : Mach) (f : Frame) : Mach :=
  ({ m with st := { m.st with crRet := (m.st.crRet + f.cost) % 2 ^ 24 } }).txCredit

/-- The boot ROM answers a request with HCPL (R806, R843). Log entry 66. -/
def Mach.bootAnswer (m : Mach) (f : Frame) (status : Nat) (data : List Byte) : Mach :=
  let h : Frame := { ty := 0x03, flags := 3, seq := 0, ack := 0, a := f.seq + 65536 * status, b := 0, payload := data }
  ({ m with st := { m.st with hcpl := m.st.hcpl ++ [h] } }).stSync

end Sys2Proof.Machine
end

