-- ==== Sys2Proof/Machine/Pixel.lean ====
section
/-!
DEFINITION. The path of a pixel from the held voltages to the line store: the converter (ch. 10), the shading correction and the
output formats (ch. 11), and the writes of the lines in capture (01 R24, 14 R567).
-/
namespace Sys2Proof.Machine

/-! ## The converter (R365-R370) -/

/-- Sample instant of sample k of field f (R329). -/
def LineCtx.sampleAt (l : LineCtx) (h : Fin 6) (f k : Nat) : Nat :=
  l.sync + 16 * (setGet l.set (F.H_TPG_FLD_RD_RD h f) + k)

def LineCtx.npix (l : LineCtx) (h : Fin 6) : Nat := setGet l.set (F.H_TPG_LINE_NPIX h)
def LineCtx.darkN (l : LineCtx) (h : Fin 6) : Nat := setGet l.set (F.H_TPG_LINE_DARK h)
/-- F - 1. -/
def LineCtx.nfld (l : LineCtx) (h : Fin 6) : Nat := setGet l.set (F.H_TPG_FIELDS_NFLD h)
def LineCtx.row (l : LineCtx) (h : Fin 6) (f : Nat) : Nat := setGet l.set (F.H_TPG_FLD_EXPE_ROW h f)

/-- V_IN in nV in beat `b` of a field, counted from 32 beats before its first sample instant; a beat the signal does not give is
0 V (log entry 8). -/
def LineCtx.vin (l : LineCtx) (f b : Nat) : Int := (l.wave.getD f []).getD b 0

/-- V_CDS of sample k of field f, in nV: the signal hold at s - 16 + SIGPOS, the reset hold at s - 32 + RSTPOS; sweep line p holds
at SIGPOS = p (R365, R366, R383). -/
def LineCtx.vcds (l : LineCtx) (h : Fin 6) (f k : Nat) : Int :=
  let sig := l.vin f (16 * k + 16 + l.sweep.getD (setGet l.set (F.H_AFE_CFG_SIGPOS h)))
  let rst := l.vin f (16 * k + setGet l.set (F.H_AFE_CFG_RSTPOS h))
  let v := if setGet l.set (F.H_AFE_CFG_MODE h) = 1 then sig else sig - rst
  if setGet l.set (F.H_AFE_CFG_POL h) = 1 then -v else v

/-- The factor of the PGA for GAIN; the reserved values act as ×1 (R373, R374). -/
def pgaGain (g : Nat) : Nat := if g ≤ 5 then 2 ^ g else 1

/-- G × V_CDS of a sample, in nV. -/
def LineCtx.amplified (l : LineCtx) (h : Fin 6) (f k : Nat) : Int :=
  pgaGain (setGet l.set (F.H_AFE_CFG_GAIN h)) * l.vcds h f k

/-- The PGA saturates on a sample (R370). -/
def LineCtx.saturates (l : LineCtx) (h : Fin 6) (f k : Nat) : Bool :=
  let v := l.amplified h f k
  decide (v < -500000000) || decide (1500000000 < v)

/-- Raw code of G × V_CDS in nV under OFS, before its clamp (R367). -/
def rawExact (ofs : Nat) (v : Int) : Int := roundDiv (16384 * v) 1000000000 + 8 * sext 10 ofs

/-- The raw code and the clamp flag (R367, R369). -/
def rawCode (ofs : Nat) (v : Int) : Nat × Bool :=
  let x := rawExact ofs v
  let c := clampInt 0 16383 x
  (c.toNat, c != x)

/-- Raw code and clamp flag of sample k of field f.  After a sample that saturates the PGA the code is off by at most 64, unflagged
(R370); a line that began with the front end disconnected gives open codes (R388, log entry 96). -/
def LineCtx.code (l : LineCtx) (h : Fin 6) (f k : Nat) : Nat × Bool :=
  if l.cut then ((Config.openCode l.seed f k).toNat, false)
  else
    let (c, flag) := rawCode (setGet l.set (F.H_AFE_OFS_OFS h)) (l.amplified h f k)
    if 0 < k && l.saturates h f (k - 1) then
      ((clampInt 0 16383 (c + clampInt (-64) 64 (Config.pgaRecovery l.seed f k))).toNat, flag)
    else (c, flag)

/-- Codes of the image and witness samples of a field, in readout order (R371). -/
def LineCtx.codes (l : LineCtx) (h : Fin 6) (f : Nat) : List (Nat × Bool) :=
  (List.range (l.npix h + 16)).map (fun i => l.code h f (l.darkN h + i))

/-- Beat of the last of a line's reports: the digital compare of its last test slot (R395). -/
def LineCtx.lastReport (l : LineCtx) (h : Fin 6) : Nat :=
  l.sampleAt h (l.nfld h) (l.darkN h + l.npix h + 23) + 208

/-! ## Coefficient memory (R401-R403) -/

/-- Key of a coefficient entry. -/
def shdKey (bank plane i : Nat) : Nat := bank * 65600 + plane * 16400 + i

/-- A coefficient entry at reset: GAIN ×1.0, BLACK 0 (R402). -/
def shdCoefReset (_ : Nat) : BitVec 32 := 0x40000000

/-- LUT entry j at reset: j >> 4 (R402). -/
def shdLutReset (k : Nat) : BitVec 8 := BitVec.ofNat 8 (k % 4096 / 16)

def ShdSt.coefAt (x : ShdSt) (bank plane i : Nat) : Word := Sparse.get shdCoefReset x.coef (shdKey bank plane i)
def ShdSt.lutAt (x : ShdSt) (bank j : Nat) : Byte := Sparse.get shdLutReset x.lut (bank * 4096 + j)
def ShdSt.accAt (x : ShdSt) (plane i : Nat) : Nat := (Sparse.get (fun _ => 0) x.acc (plane * 16400 + i)).toNat

def ShdSt.setCoef (x : ShdSt) (bank plane i : Nat) (v : Word) : ShdSt :=
  { x with coef := Sparse.set shdCoefReset x.coef (shdKey bank plane i) v }
def ShdSt.setLut (x : ShdSt) (bank j : Nat) (v : Byte) : ShdSt :=
  { x with lut := Sparse.set shdLutReset x.lut (bank * 4096 + j) v }
def ShdSt.setAcc (x : ShdSt) (plane i n : Nat) : ShdSt :=
  { x with acc := Sparse.set (fun _ => 0) x.acc (plane * 16400 + i) (BitVec.ofNat 32 n) }

/-- Word index of `ShdSt.bad` for a coefficient, a LUT entry and an accumulator entry. -/
def shdCoefWord (bank plane i : Nat) : Nat := shdKey bank plane i / 2
def shdLutWord (bank j : Nat) : Nat := 65600 + (bank * 4096 + j) / 8
def shdAccWord (plane i : Nat) : Nat := 66624 + (plane * 16400 + i) / 2

/-- An entry's word is uncorrectable. -/
def ShdSt.coefBad (x : ShdSt) (bank plane i : Nat) : Bool := x.bad.contains (shdCoefWord bank plane i)
def ShdSt.lutBad (x : ShdSt) (bank j : Nat) : Bool := x.bad.contains (shdLutWord bank j)
def ShdSt.accBad (x : ShdSt) (plane i : Nat) : Bool := x.bad.contains (shdAccWord plane i)

/-- BLACK of an entry, signed (R401). -/
def coefBlack (w : Word) : Int := sext 16 (bits w.toNat 15 0)
/-- GAIN of an entry, unsigned 2.14 (R401). -/
def coefGain (w : Word) : Nat := bits w.toNat 31 16

/-! ## The correction (R404-R407) -/

/-- `p >> 14` of R405. -/
def shdProduct (w : Word) (r : Int) : Int := floorDiv ((r - coefBlack w) * coefGain w + 8192) (2 ^ 14)

/-- A corrected pixel: the output word, and whether it was clamped below or above (R405, R406). -/
structure ShdPix where
  out : Nat
  lo : Bool
  hi : Bool
  deriving DecidableEq, Repr

/-- R405: `none` for BYPASS. -/
def shdCorrect (w : Option Word) (c : Nat) : ShdPix :=
  match w with
  | none => { out := 4 * c, lo := false, hi := false }
  | some w =>
    let p := shdProduct w (4 * c)
    { out := (clampInt 0 65535 p).toNat, lo := decide (p < 0), hi := decide (65535 < p) }

/-! ## Output formats (R408-R411) -/

/-- The value stored for an output word under FMT (R408). -/
def storedValue (fmt : Nat) (lut : Nat → Byte) (o : Nat) : Nat :=
  if fmt = 1 then o / 16 else if fmt = 2 then (lut (o / 16)).toNat else o

/-- Two 12-bit pixels in three bytes (R409). -/
def pack12 : List Nat → List Byte
  | [] => []
  | [a] => [BitVec.ofNat 8 a, BitVec.ofNat 8 (a / 256), 0]
  | a :: b :: t =>
    BitVec.ofNat 8 a :: BitVec.ofNat 8 (a / 256 + 16 * (b % 16)) :: BitVec.ofNat 8 (b / 16) :: pack12 t

/-- Pads to a multiple of 8 bytes (R410). -/
def pad8 (l : List Byte) : List Byte := l ++ List.replicate (ceilDiv l.length 8 * 8 - l.length) 0

/-- The stored bytes of a field whose pixels have these values (R408-R411). -/
def fieldData (fmt : Nat) (px : List Nat) : List Byte :=
  pad8 (if fmt = 1 then pack12 px else if fmt = 2 then px.map (BitVec.ofNat 8) else px.flatMap (leBytes 2))

/-- Field size in bytes for `n` pixels under FMT (R410, R411). -/
def fieldBytes (fmt n : Nat) : Nat :=
  if fmt = 1 then ceilDiv (3 * ceilDiv n 2) 8 * 8
  else if fmt = 2 then ceilDiv n 8 * 8
  else ceilDiv (2 * n) 8 * 8

/-- What the correction makes of one field. -/
structure FieldOut where
  raw : List Nat
  data : List Byte
  lo : Nat
  hi : Nat
  ovr : Nat
  /-- An uncorrectable word was read (R407). -/
  bad : Bool
  /-- One of them was a coefficient word. -/
  badCoef : Bool
  deriving DecidableEq, Repr

/-- Field f of a line under its set, from its codes: a pixel that an uncorrectable word serves is stored as 0 (R405-R411). -/
def shdField (x : ShdSt) (set : Sparse 32) (h : Fin 6) (f : Nat) (codes : List (Nat × Bool)) : FieldOut :=
  let n := codes.length
  let bank := setGet set (F.H_SHD_CFG_BANK h)
  let byp : Bool := setGet set (F.H_SHD_CFG_BYPASS h) = 1
  let plane := setGet set (F.H_TPG_FLD_EXPE_ROW h f)
  let fmt := setGet set (F.H_SHD_CFG_FMT h)
  let badC (i : Nat) : Bool := !byp && x.coefBad bank plane i
  let px := (List.range n).map (fun i =>
    (i, shdCorrect (if byp then none else some (x.coefAt bank plane i)) (codes.getD i (0, false)).1))
  let badL (p : Nat × ShdPix) : Bool := fmt = 2 && !badC p.1 && x.lutBad bank (p.2.out / 16)
  { raw := codes.map (·.1)
    data := fieldData fmt (px.map (fun p => if badC p.1 || badL p then 0 else storedValue fmt (x.lutAt bank) p.2.out))
    lo := (px.filter (·.2.lo)).length
    hi := (px.filter (·.2.hi)).length
    ovr := (codes.filter (·.2)).length
    bad := px.any (fun p => badC p.1 || badL p)
    badCoef := (List.range n).any badC }

/-- Field f of a line in capture. -/
def LineCtx.field (l : LineCtx) (h : Fin 6) (x : ShdSt) (f : Nat) : FieldOut := shdField x l.set h f (l.codes h f)

/-- Mean of r - BLACK over the witness pixels of a field (R427). -/
def shdWitness (x : ShdSt) (set : Sparse 32) (h : Fin 6) (f : Nat) (codes : List (Nat × Bool)) : Int :=
  let npix := setGet set (F.H_TPG_LINE_NPIX h)
  let byp : Bool := setGet set (F.H_SHD_CFG_BYPASS h) = 1
  let plane := setGet set (F.H_TPG_FLD_EXPE_ROW h f)
  let sum := (List.range 16).foldl (fun (a : Int) i =>
    let c := (codes.getD (npix + i) (0, false)).1
    let b : Int := if byp then 0 else coefBlack (x.coefAt (setGet set (F.H_SHD_CFG_BANK h)) plane (npix + i))
    a + (4 * (c : Int) - b)) 0
  floorDiv sum 16

/-- A witness pixel of a field is served by an uncorrectable coefficient word (R407). -/
def ShdSt.witnessBad (x : ShdSt) (set : Sparse 32) (h : Fin 6) (f : Nat) : Bool :=
  setGet set (F.H_SHD_CFG_BYPASS h) = 0 && (List.range 16).any (fun i =>
    x.coefBad (setGet set (F.H_SHD_CFG_BANK h)) (setGet set (F.H_TPG_FLD_EXPE_ROW h f)) (setGet set (F.H_TPG_LINE_NPIX h) + i))

/-! ## Writes into the line store (R24, R567) -/

/-- Pixels of field f that have been written by beat t: each 256 beats after its sample instant (R24).
Log entry 97. -/
def LineCtx.pixelsBy (l : LineCtx) (h : Fin 6) (f t : Nat) : Nat :=
  let first := l.sampleAt h f (l.darkN h) + 256
  if t < first then 0 else min (l.npix h + 16) ((t - first) / 16 + 1)

/-- Byte of its field's data at which the write of pixel k begins, and the byte after the last that the first k pixels fill; the
padding comes with the field's last pixel (R409, R410; log entry 97). -/
def pixelByte (fmt k : Nat) : Nat := if fmt = 1 then 3 * (k / 2) + k % 2 else if fmt = 2 then k else 2 * k
/-- Log entry 97. -/
def pixelEnd (fmt n k : Nat) : Nat :=
  if n ≤ k then fieldBytes fmt n else if fmt = 1 then 3 * (k / 2) + 2 * (k % 2) else if fmt = 2 then k else 2 * k

/-- The part of field data that pixels j to k - 1 bring, and where in the field it begins. -/
def fieldPart (fmt n j k : Nat) (px : List Byte) : Nat × List Byte :=
  let a := pixelByte fmt j
  (a, (px.take (pixelEnd fmt n k)).drop a)

/-- Stores pixel data: whole words are encoded, so a word is sound again once its last byte is written (R567). -/
def Mach.putPixels (m : Mach) (a : Nat) (l : List Byte) : Mach :=
  let whole (w : Nat) : Bool := a < w + 8 && w + 8 ≤ a + l.length
  { (m.storeBytes a l) with eccBad := m.eccBad.filter (fun w => !whole w), eccOne := m.eccOne.filter (fun w => !whole w) }

/-- Line-store address of a slot of a head's ring. -/
def Mach.slotAddr (m : Mach) (h : Fin 6) (slot : Nat) : Nat :=
  lineBase + m.get (F.TRG_R_BASE_BASE h) + slot * m.get (F.TRG_R_SLOT_SLOT h)

/-- Writes the pixels of a line in capture that are due and not yet written (R24, R567, R568). -/
def Mach.linePixels (m : Mach) (h : Fin 6) (l : LineCtx) : Mach :=
  match l.slot with
  | none => m
  | some slot =>
    let fmt := setGet l.set (F.H_SHD_CFG_FMT h)
    let n := l.npix h + 16
    let a := m.slotAddr h slot + 64
    (List.range (l.nfld h + 1)).foldl (fun m f =>
      let j := l.pixelsBy h f l.wrote
      let k := l.pixelsBy h f m.now
      if j < k then
        let p := fieldPart fmt n j k (l.field h (m.head h).shd f).data
        m.putPixels (a + f * fieldBytes fmt n + p.1) p.2
      else m) m

/-- Brings the line store up to this beat for one head. -/
def Mach.catchHead (m : Mach) (h : Fin 6) : Mach :=
  let due (l : LineCtx) : Bool := !l.done && !l.gone
  match (m.head h).tpg.lines.filter due with
  | [] => m
  | ls =>
    let m := ls.foldl (fun m l => m.linePixels h l) m
    let t := (m.head h).tpg
    m.setTpg h { t with lines := t.lines.map (fun (l : LineCtx) => if due l then { l with wrote := m.now } else l) }

/-- Brings the line store up to this beat: the model writes a captured pixel when something looks at it, not in its own beat. -/
def Mach.catchUp (m : Mach) : Mach := allHeads.foldl (fun m h => m.catchHead h) m

end Sys2Proof.Machine
end

