-- ==== Sys2Proof/Machine/Pos.lean ====
section
/-!
DEFINITION. Halyard's positions: the position of an axis at a beat and the beat of a crossing (15 R589, R590).
-/
namespace Sys2Proof.Machine

/-- 2^-60 step to 1/65,536 step, toward minus infinity (R590). -/
def pos16 (p : Int) : Int := floorDiv p (2 ^ 44)

/-- P at beat `b` in multiples of `unit` · 2^-60 step, toward minus infinity: `nxt` is p at the end of the
newest segment kept, which lasts `len` beats; a segment that a fault cuts short is shorter than an MI (R590, R625). -/
def posIn (unit : Nat) (nxt : Int) (len : Nat) : List (Nat × Int) → Nat → Int
  | [], _ => floorDiv nxt unit
  | (b0, p0) :: rest, b =>
    let here := floorDiv (p0 * len + (nxt - p0) * (min (b - b0) len : Nat)) (len * unit)
    match rest with
    | [] => here
    | (b1, _) :: _ => if b0 ≤ b then here else posIn unit p0 (max 1 (min 3000 (b0 - b1))) rest b

/-- The commanded position of axis `a` at beat `b` (R590). -/
def Mach.posAt (m : Mach) (a : Fin 2) (b : Nat) : Int := posIn (2 ^ 44) (m.axis a).p 3000 (m.axis a).hist b

/-- P at the last MI boundary, in 1/65,536 step; an entry off the grid is a fault's or a POSSET's (R588, R625, R635). -/
def Mach.boundaryP (m : Mach) (a : Fin 2) : Int :=
  match (m.axis a).hist.find? (fun e => e.1 % 3000 = 0 && e.1 ≤ m.now) with
  | some e => pos16 e.2
  | none => m.posAt a m.now

/-- The beat at which p crosses `X` (2^-60 step) in the segment of `len` beats that began at `b0` (R590). -/
def crossBeat (len b0 : Nat) (p0 p1 X : Int) : Nat :=
  if p0 = p1 then b0
  else if p0 < p1 then b0 + (ceilDivI (len * (X - p0)) (p1 - p0).toNat).toNat
  else b0 + (ceilDivI (len * (p0 - X)) (p0 - p1).toNat).toNat

end Sys2Proof.Machine
end

