-- ==== Sys2Proof/Machine/Trg.lean ====
section
/-!
DEFINITION. Rings, page records and the page machine of TRG (ch. 14).
-/
namespace Sys2Proof.Machine

/-! ## Ring counts -/

/-- Lines in capture that hold a reserved slot (R568, R570). Log entry 54. -/
def Mach.capt (m : Mach) (h : Fin 6) : Nat := ((m.head h).tpg.lines.filter (fun l => l.slot.isSome && !l.done)).length

def Mach.ringOn (m : Mach) (h : Fin 6) : Bool := m.is (F.TRG_R_CTL_EN h)

/-- FILL = WCNT - RCNT (R570). -/
def Mach.fill (m : Mach) (h : Fin 6) : Nat :=
  (m.get (F.TRG_R_WCNT_N h) + 2 ^ 32 - m.get (F.TRG_R_RCNT_N h)) % 2 ^ 32

/-- FREE = NSLOT - FILL - CAPT (R570). -/
def Mach.ringFree (m : Mach) (h : Fin 6) : Nat := m.get (F.TRG_R_NSLOT_NSLOT h) - m.fill h - m.capt h

/-- A line between F and L of a page, or after F of a page whose L is not fixed (R571). -/
def HeadPage.covers (p : HeadPage) (cseq : Nat) : Bool :=
  match p.first, p.last with
  | some f, some l => f ≤ cseq && decide ((cseq : Int) ≤ l)
  | some f, none => f ≤ cseq
  | none, _ => false

def RingSt.pageLine (r : RingSt) (cseq : Nat) : Bool := r.pages.any (fun p => p.covers cseq)

/-- The oldest unreleased line belongs to a page (R566). -/
def RingSt.inPage (r : RingSt) : Bool :=
  match r.lines with
  | l :: _ => r.pageLine l.cseq
  | [] => false

/-- Releases the `n` oldest lines and pulses RING_LO when FILL falls below LOWM (R572, R575). -/
def Mach.release (m : Mach) (h : Fin 6) (n : Nat) : Mach :=
  let f0 := m.fill h
  let r := m.ring h
  let m := m.setRing h { r with lines := r.lines.drop n }
  let m := m.countMod (F.TRG_R_RCNT_N h) n
  let low := m.get (F.TRG_R_WM_LOWM h)
  if low ≤ f0 && m.fill h < low then m.pulseHead h 10 else m

/-- A line that the hardware releases is noted for the rest of the tick (R572). -/
def Mach.noteFreed (m : Mach) (h : Fin 6) (l : RingLine) : Mach :=
  let r := m.ring h
  m.setRing h { r with freed := (m.tickNo, (if r.freed.1 = m.tickNo then r.freed.2 else []) ++ [l]) }

/-- The history release of R571, at most `n` lines; `need` says a line sync needs a slot, and `late` that it has taken one. -/
def Mach.releaseHistory (m : Mach) (h : Fin 6) (need late : Bool) : Nat → Mach
  | 0 => m
  | n + 1 =>
    let r := m.ring h
    let hist := (r.lines.filter (fun l => !r.pageLine l.cseq)).length
    let full := m.get (F.TRG_R_NSLOT_NSLOT h) ≤ m.fill h + m.capt h
    let beyond := m.get (F.TRG_R_NSLOT_NSLOT h) < m.fill h + m.capt h
    match r.lines with
    | [] => m
    | l :: _ =>
      if !r.pageLine l.cseq && (hist > m.get (F.TRG_R_PRE_HIST h) || (need && full) || (late && beyond)) then
        ((m.release h 1).noteFreed h l).releaseHistory h need late n
      else m

/-- Lines that the hardware released in this tick come back, so that a firmware release of the tick applies first (R572). -/
def Mach.unfree (m : Mach) (h : Fin 6) : Mach :=
  let r := m.ring h
  if r.freed.1 = m.tickNo then
    let n := r.freed.2.length
    (m.put (F.TRG_R_RCNT_N h) (m.get (F.TRG_R_RCNT_N h) + (2 ^ 32 - n))).setRing h
      { r with lines := r.freed.2 ++ r.lines, freed := (0, []) }
  else m

/-! ## Page records -/

/-- PFLAGS of R579. -/
def HeadPage.flags (p : HeadPage) : Nat :=
  b2n p.auto + 2 * b2n p.long + 4 * b2n p.abort + 8 * b2n p.edgeOld + 16 * b2n p.overlap +
  32 * b2n p.posRule + 64 * b2n p.endmode

/-- A CSEQ field reads 0xFFFF_FFFF until it is fixed (R579). -/
def cseqField (o : Option Int) : Nat :=
  match o with
  | some n => wrapInt 32 n
  | none => 0xFFFFFFFF

/-- The 64 bytes of a page record (R579). -/
def HeadPage.record (p : HeadPage) (h : Fin 6) : List Byte :=
  let b := leBytes 2 p.pageno ++ leBytes 1 h ++ leBytes 1 (b2n p.closed) ++ leBytes 2 p.flags ++
    leBytes 1 p.startSrc ++ leBytes 1 p.endSrc ++ leBytes 8 (sysOf p.startTime) ++ leBytes 8 (wrapInt 64 p.startPos) ++
    leBytes 4 (cseqField (p.first.map (fun (n : Nat) => (n : Int)))) ++ leBytes 4 (cseqField (p.edge.map (fun (n : Nat) => (n : Int)))) ++ leBytes 2 p.edgeFrac ++ leBytes 2 p.preshort ++
    leBytes 4 (cseqField p.last) ++ leBytes 8 (sysOf p.endTime) ++ leBytes 8 (wrapInt 64 p.endPos) ++
    leBytes 2 p.endFrac ++ leBytes 2 0
  b ++ leBytes 4 (crc32c b).toNat

/-- Writes page p's record at PRBASE + 64 (p mod 4) (R579, R580). -/
def Mach.writeRecord (m : Mach) (h : Fin 6) (p : HeadPage) : Mach :=
  m.storeBytes (lineBase + m.get (F.TRG_R_PRBASE_PRBASE h) + 64 * (p.pageno % 4)) (p.record h)

/-- Replaces a head's page of the same number. -/
def Mach.setPage (m : Mach) (h : Fin 6) (p : HeadPage) : Mach :=
  let r := m.ring h
  m.setRing h { r with pages := r.pages.map (fun q => if q.pageno = p.pageno then p else q) }

/-! ## Edge lines -/

/-- The key Q of a line under the rule the head uses (R558). -/
def SyncRec.key (s : SyncRec) (posRule : Bool) : Int := if posRule then s.pos else s.time

/-- Where an edge target falls among the syncs kept (R558, R560, R561). -/
inductive EdgeAt where
  | future
  | at (cseq : Nat) (frac : Int) (old : Bool)
  deriving DecidableEq, Repr

/-- Part of a spacing by which the edge precedes its line (R560). -/
def edgeFracOf (q qPrev target : Int) : Int :=
  if q ≤ qPrev then 0 else floorDiv (65536 * (q - target)) (q - qPrev).toNat

/-- First of the oldest-first syncs whose key is at or after the target; `prev` is the line before. -/
def findEdgeIn (posRule : Bool) (target : Int) (prev : Option SyncRec) : List SyncRec → EdgeAt
  | [] => .future
  | s :: t =>
    if target ≤ s.key posRule then
      match prev with
      | some q => .at s.cseq (edgeFracOf (s.key posRule) (q.key posRule) target) false
      | none => .at s.cseq 0 false
    else findEdgeIn posRule target (some s) t

/-- E of R558 with the limit of 64 syncs of R561; `syncs` is newest first. -/
def findEdge (posRule : Bool) (target : Int) (syncs : List SyncRec) : EdgeAt :=
  match syncs.reverse with
  | s0 :: s1 :: t =>
    if syncs.length = 65 then
      if target ≤ s0.key posRule then
        .at s1.cseq (edgeFracOf (s1.key posRule) (s0.key posRule) target) true
      else findEdgeIn posRule target (some s0) (s1 :: t)
    else findEdgeIn posRule target none (s0 :: s1 :: t)
  | l => findEdgeIn posRule target none l

/-- A fraction that R560 does not hold to 16 bits is a free value (log entry 7). -/
def Mach.frac16 (m : Mach) (f : Int) : Nat × Mach :=
  if f < 65536 then (f.toNat, m) else m.fresh 16

/-- The oldest line still in the ring: committed, in capture, or the next to come (R562). -/
def Mach.oldestLine (m : Mach) (h : Fin 6) : Nat :=
  match (m.ring h).lines with
  | l :: _ => l.cseq
  | [] =>
    match (m.head h).tpg.lines.filterMap (fun l => if l.done then none else l.cseq) with
    | c :: _ => c
    | [] => m.get (F.TRG_R_CSEQ_CSEQ h)

/-- Last committed line of the head, if any line has been committed since its ring was enabled. -/
def Mach.lastCommitted (m : Mach) (h : Fin 6) : Option Nat := (m.ring h).lastC

/-- Last line of the head's pages before page `no`; `none` while one that has not closed is without it (R562). -/
def RingSt.prevLast (r : RingSt) (no : Nat) : Option Int :=
  let before := r.pages.takeWhile (fun q => q.pageno != no)
  if before.any (fun q => q.last.isNone && !q.closed) then none
  else some (before.foldl (fun x q => max x (q.last.getD (-1))) (-1))

/-- L of R563 for an uncapped value, with the cap of MAXL. -/
def capLast (p : HeadPage) (l : Int) (maxl : Nat) : HeadPage :=
  match p.first with
  | some f =>
    if (f : Int) + maxl - 1 < l then { p with last := some ((f : Int) + maxl - 1), long := true }
    else { p with last := some l }
  | none => { p with last := some l }

/-- Every page line of the page has been committed (R551, R580). Log entry 88. -/
def HeadPage.through (p : HeadPage) (lastC : Option Nat) : Bool :=
  match p.last with
  | none => false
  | some l => (match p.first with | some f => decide (l < (f : Int)) | none => true) ||
      (match lastC with | some c => decide (l ≤ (c : Int)) | none => false)

/-- Closes a page whose L has been committed (R580). -/
def Mach.tryClose (m : Mach) (h : Fin 6) (p : HeadPage) : Mach :=
  if p.through (m.lastCommitted h) && !p.closed && (p.ended || !p.endmode) then
    let p := { p with closed := true }
    ((m.setPage h p).writeRecord h p).pulseHead h 11
  else m

/-- Fixes E and F, and L in count mode (R562, R563); F waits until the L of the page before is fixed. Log entry 88.
Log entry 103. -/
def Mach.fixEdge (m : Mach) (h : Fin 6) (p : HeadPage) (e : Nat) (frac : Int) (old : Bool) : Mach :=
  match (m.ring h).prevLast p.pageno with
  | none => m
  | some pl =>
    let (fr, m) := m.frac16 frac
    let want : Int := (e : Int) - m.get (F.TRG_R_PRE_PRE h)
    let f : Int := max want (max (m.oldestLine h : Int) (pl + 1))
    let p := { p with edge := some e, edgeFrac := fr, edgeOld := p.edgeOld || old, overlap := (e : Int) ≤ pl,
                      first := some f.toNat, preshort := (f - want).toNat % 65536 }
    let p := if p.endmode then p else capLast p ((e : Int) + m.get (F.TRG_R_POST_POST h) - 1) (m.get (F.TRG_R_MAXL_MAXL h))
    (((m.setPage h p).writeRecord h p).pulseHead h 11).tryClose h p

/-! ## The page machine -/

/-- TRG_STAT.STATE. -/
def Mach.pageState (m : Mach) : Nat := m.get F.TRG_STAT_STATE

/-- R557: the head takes the position rule. -/
def Mach.posRule (m : Mach) (h : Fin 6) : Bool :=
  m.is F.TRG_CTL_POSMODE && m.is (F.HAL_HEAD_EN h) && m.act (F.H_TPG_SYNC_SRC h) = 0

/-- The axis that schedules a head. -/
def Mach.axisOf (m : Mach) (h : Fin 6) : Fin 2 := Fin.ofNat 2 (m.get (F.HAL_HEAD_AXIS h))

/-- Position of R557 at an event time: it, and EDGEOLD. -/
def Mach.eventPos (m : Mach) (h : Fin 6) (t : Nat) : Int × Bool :=
  if m.posRule h then
    if t + 2 ^ 25 < m.now then (m.posAt (m.axisOf h) m.now, true) else (m.posAt (m.axisOf h) t, false)
  else (0, false)

/-- OFS as a signed count, scaled to the rule (R558). -/
def Mach.ofsOf (m : Mach) (h : Fin 6) (posRule : Bool) : Int :=
  let o := sext 32 (m.get (F.TRG_R_OFS_OFS h))
  if posRule then 256 * o else o

/-- Opens the page on one ring (R555-R563, R580). -/
def Mach.openRing (m : Mach) (h : Fin 6) (no evTime src : Nat) (auto : Bool) : Mach :=
  if !m.ringOn h then m
  else
    let rule := m.posRule h
    let (pos, old) := m.eventPos h evTime
    let r := m.ring h
    let top : Int := r.pages.foldl (fun x q => max x (q.last.getD (-1))) (-1)
    let p : HeadPage := { pageno := no, auto := auto, startSrc := if auto then 0xFF else src, startTime := evTime,
                          posRule := rule, startPos := pos, endmode := m.is F.TRG_CTL_ENDMODE,
                          edgeOld := old }
    let keep := r.pages.filter (fun q => !q.closed || (match q.last, r.lines with
      | some l, x :: _ => decide ((x.cseq : Int) ≤ l)
      | _, _ => false) || q.last = some top)
    let m := (m.setRing h { r with pages := keep ++ [p] }).writeRecord h p
    let target : Int := (if rule then pos else evTime) + m.ofsOf h rule
    match findEdge rule target (m.ring h).syncs with
    | .future => m
    | .at e f o => m.fixEdge h p e f o

/-- An accepted start opens a page (R555). -/
def Mach.openPage (m : Mach) (evTime src : Nat) (auto : Bool) : Mach :=
  let m := m.countMod F.TRG_PAGENO_PAGENO 1
  let m := m.put F.TRG_STAT_STATE 3
  let m := if auto then m.countHold F.TRG_CNT_AUTOS 1 else m
  let no := m.get F.TRG_PAGENO_PAGENO
  (m.each allHeads (fun h m => m.openRing h no evTime src auto)).pulse 6 11

/-- How an end decision came (R551, R563). -/
inductive EndWhy where
  | count
  | firing (time src : Nat)
  | maxl
  | abort
  deriving DecidableEq, Repr

/-- The end decision on one page of a ring, or its abort after that (R557, R561, R563, R580). Log entry 88. -/
def Mach.endRingPage (m : Mach) (h : Fin 6) (p : HeadPage) (why : EndWhy) : Mach :=
  let t := match why with | .firing t _ => t | _ => m.now
  let at' := if p.posRule then m.eventPos h t else (0, false)
  let p := if p.ended then p else
    { p with ended := true, endTime := t, endSrc := (match why with | .firing _ s => s | _ => 0xFF),
             endPos := at'.1, edgeOld := p.edgeOld || at'.2 }
  match why with
  | .abort =>
    if p.closed then (m.setPage h p).writeRecord h p
    else
      let l : Option Int := p.first.map (fun f => match m.lastCommitted h with
        | some c => max (c : Int) ((f : Int) - 1)
        | none => (f : Int) - 1)
      let p := { p with abort := true, last := l, endTarget := none, closed := true }
      ((m.setPage h p).writeRecord h p).pulseHead h 11
  | _ =>
    if p.endmode && p.last.isNone then
      let maxl := m.get (F.TRG_R_MAXL_MAXL h)
      let full := match p.first, m.lastCommitted h with
        | some f, some c => decide (f + maxl ≤ c + 1)
        | _, _ => false
      if full then
        -- the MAXL-th page line has been committed, so no later E' can move L
        let p := { p with last := p.first.map (fun f => (f : Int) + maxl - 1), long := true }
        ((m.setPage h p).writeRecord h p).tryClose h p
      else
        let target : Int := (if p.posRule then p.endPos else t) + m.ofsOf h p.posRule
        match findEdge p.posRule target (m.ring h).syncs with
        | .future =>
          let p := { p with endTarget := some target }
          (m.setPage h p).writeRecord h p
        | .at e f o =>
          let (fr, m) := m.frac16 f
          let p := capLast { p with endFrac := fr, edgeOld := p.edgeOld || o } ((e : Int) + m.get (F.TRG_R_MARGIN_MARGIN h)) maxl
          ((m.setPage h p).writeRecord h p).tryClose h p
    else ((m.setPage h p).writeRecord h p).tryClose h p

/-- The end decision on one ring (R563). -/
def Mach.endRing (m : Mach) (h : Fin 6) (why : EndWhy) : Mach :=
  match (m.ring h).pages.getLast? with
  | none => m
  | some p => if p.ended then m else m.endRingPage h p why

/-- Every page of a ring that is not yet over ends with ABORT (R576, R582). Log entry 88. -/
def Mach.abortRing (m : Mach) (h : Fin 6) : Mach :=
  m.each ((m.ring h).pages.filter (fun p => !p.closed || !p.ended)) (fun p m => m.endRingPage h p .abort)

/-- The end decision of the open page (R552). -/
def Mach.endPage (m : Mach) (why : EndWhy) : Mach :=
  let m := m.each allHeads (fun h m => if m.ringOn h then m.endRing h why else m)
  let m := m.pulse 6 12
  let held := m.trg.held
  let m := { m with trg := { m.trg with held := none } }
  if m.is F.TRG_CTL_AUTOARM && m.is F.TRG_CTL_EN then
    let m := (m.put F.TRG_STAT_STATE 2)
    let m := { m with trg := { m.trg with armedSince := m.now } }
    match held with
    | some (t, s) =>
      let m := m.openPage t s false
      -- a start that was counted in this beat comes after the end decision, and is held (R553)
      match m.trg.ignAt with
      | some (b, t, s) =>
        if b = m.now then
          { m.put F.TRG_CNT_IGN (m.get F.TRG_CNT_IGN - 1) with trg := { m.trg with held := some (t, s), ignAt := none } }
        else m
      | none => m
    | none => m
  else
    -- a start counted in this beat comes after the end decision, and finds the machine IDLE
    let m := match m.trg.ignAt with
      | some (b, _) => if b = m.now then { m.put F.TRG_CNT_IGN (m.get F.TRG_CNT_IGN - 1) with trg := { m.trg with ignAt := none } } else m
      | none => m
    m.put F.TRG_STAT_STATE 1

/-- ABORT, EN clearing or the safe state on an open page (R551, R556, R582). -/
def Mach.abortPage (m : Mach) : Mach := if m.pageState = 3 then m.endPage .abort else m

/-- Every enabled ring has committed its last line of the open page (R551). -/
def Mach.allLast (m : Mach) : Bool :=
  let last := (allHeads.filter m.ringOn).filterMap (fun h => (m.ring h).pages.getLast?.map (fun p => (h, p)))
  !last.isEmpty && last.all (fun (h, p) => p.through (m.lastCommitted h))

/-- Some ring has committed its MAXL-th page line (R551). -/
def Mach.someMaxl (m : Mach) : Bool :=
  allHeads.any (fun h => m.ringOn h && (match (m.ring h).pages.getLast? with
    | some p => !p.ended && (match p.first, m.lastCommitted h with
        | some f, some c => f + m.get (F.TRG_R_MAXL_MAXL h) ≤ c + 1
        | _, _ => false)
    | none => false))

/-- An open page whose lines have been committed ends (R551). Log entry 88. -/
def Mach.countEnd (m : Mach) : Mach :=
  if m.pageState = 3 && !m.is F.TRG_CTL_ENDMODE && m.allLast then m.endPage .count
  else if m.pageState = 3 && m.someMaxl then m.endPage .maxl else m

/-- A trigger source fires: `src` as PSSRC codes it (R549, R550, R553). -/
def Mach.fireSource (m : Mach) (src evTime : Nat) : Mach :=
  let isEnd := m.get F.TRG_CTL_PESRC = src
  let isStart := m.get F.TRG_CTL_PSSRC = src
  -- in one beat ends come before starts: an end finds the page of a start of its own beat not yet open (R553)
  if m.pageState = 3 && m.is F.TRG_CTL_ENDMODE && isEnd then
    if m.trg.openAt = some m.now && !isStart then m else m.endPage (.firing evTime src)
  else if isStart then
    if m.pageState = 2 then
      ({ m with trg := { m.trg with openAt := some m.now } }.openPage evTime src false).countEnd
    else if m.pageState = 3 then
      if m.trg.held.isSome then
        { m.countHold F.TRG_CNT_IGN 1 with trg := { m.trg with ignAt := some (m.now, evTime, src) } }
      else { m with trg := { m.trg with held := some (evTime, src) } }
    else m
  else m

/-- Enters ARMED. -/
def Mach.armPage (m : Mach) : Mach :=
  let m := m.put F.TRG_STAT_STATE 2
  { m with trg := { m.trg with armedSince := m.now } }

/-! ## Lines into rings -/

/-- DATALEN of a line under a set (R567). -/
def dataLen (set : Sparse 32) (h : Fin 6) : Nat :=
  (setGet set (F.H_TPG_FIELDS_NFLD h) + 1) * fieldBytes (setGet set (F.H_SHD_CFG_FMT h)) (setGet set (F.H_TPG_LINE_NPIX h) + 16)

/-- What the ring does at a line sync (R561, R568): the CSEQ taken, the slot reserved, and any edge line fixed. -/
def Mach.ringSync (m : Mach) (h : Fin 6) (set : Sparse 32) (pos : Int) : Option Nat × Option Nat × Mach :=
  if !m.ringOn h then (none, none, m)
  else
    let c := m.get (F.TRG_R_CSEQ_CSEQ h)
    let m := m.put (F.TRG_R_CSEQ_CSEQ h) (c + 1)
    let r := m.ring h
    let m := m.setRing h { r with syncs := ({ cseq := c, pos := pos, time := m.now } :: r.syncs).take 65 }
    let big : Bool := m.get (F.TRG_R_SLOT_SLOT h) < 64 + dataLen set h
    let m := m.releaseHistory h (!big) false (m.ring h).lines.length
    let (slot, m) :=
      if big then (none, m.countHold (F.TRG_R_DISC_SIZE h) 1)
      else if m.ringFree h = 0 then (none, m.countHold (F.TRG_R_DISC_FULL h) 1)
      else (some (((m.ring h).wslot + m.capt h) % m.get (F.TRG_R_NSLOT_NSLOT h)), m)
    let m := m.each ((m.ring h).pages) (fun p m =>
      let rule := p.posRule
      if p.edge.isNone && !p.closed then
        match findEdge rule ((if rule then p.startPos else p.startTime) + m.ofsOf h rule) (m.ring h).syncs with
        | .future => m
        | .at e f o => m.fixEdge h p e f o
      else
        match p.endTarget with
        | some t =>
          match findEdge rule t (m.ring h).syncs with
          | .future => m
          | .at e f _ =>
            let (fr, m) := m.frac16 f
            let q := capLast { p with endFrac := fr, endTarget := none } ((e : Int) + m.get (F.TRG_R_MARGIN_MARGIN h)) (m.get (F.TRG_R_MAXL_MAXL h))
            ((m.setPage h q).writeRecord h q).tryClose h q
        | none => m)
    (some c, slot, m.countEnd)

/-- Commits a line in its ring: WCNT, RING_HI, pages and history (R551, R569-R575, R580). -/
def Mach.ringCommit (m : Mach) (h : Fin 6) (c slot : Nat) (set : Sparse 32) : Mach :=
  let f0 := m.fill h
  let r := m.ring h
  let l : RingLine := { cseq := c, slot := slot, n := setGet set (F.H_TPG_LINE_NPIX h) + 16, fmt := setGet set (F.H_SHD_CFG_FMT h),
                        rows := (List.range (setGet set (F.H_TPG_FIELDS_NFLD h) + 1)).map (fun f => setGet set (F.H_TPG_FLD_EXPE_ROW h f)) }
  let m := m.setRing h { r with lines := r.lines ++ [l], gap := 0, lastC := some c,
                                wslot := (slot + 1) % m.get (F.TRG_R_NSLOT_NSLOT h) }
  let m := m.countMod (F.TRG_R_WCNT_N h) 1
  let hi := m.get (F.TRG_R_WM_HIWM h)
  let m := if f0 ≤ hi && hi < m.fill h then m.pulseHead h 9 else m
  let m := m.each (m.ring h).pages (fun p m => m.tryClose h p)
  let m := m.countEnd
  m.releaseHistory h false false (m.ring h).lines.length

/-! ## Commands of the page machine and the rings -/

/-- A source that BWL_TX{c} may select fires: each enabled channel of a running Bowline that selects it has an event to
place (R908, R912). -/
def Mach.bwlSource (m : Mach) (src evTime : Nat) : Mach :=
  if m.is F.BWL_CTL_EN && !m.bwl.mute then
    let chans := (List.range 8).filter (fun c => m.is (F.BWL_TX_EN c) && m.get (F.BWL_TX_SRC c) = src)
    let evs := chans.map (fun (c : Nat) => (({ ch := c, origin := 0, time := sysOf evTime } : BwlEvent), false))
    { m with bwl := { m.bwl with wait := m.bwl.wait ++ evs } }
  else m

/-- Software trigger `s` fires with event time `evTime`: one firing of each in a tick (R546, R291). -/
def Mach.fireSwt (m : Mach) (s : Fin 16) (evTime : Nat) (own : Bool) : Mach :=
  let tick := m.now / 4 + 1
  if m.trg.swtAt[s] = tick then m
  else
    let m := { m with trg := { m.trg with swtAt := m.trg.swtAt.set s tick } }
    let m := if own then m.bwlSource (16 + s) evTime else m
    m.fireSource (16 + s) evTime

/-- A write of TRG_SWT, or a FIRE that takes effect (R546). -/
def Mach.trgSwt (m : Mach) (v : Nat) : Mach :=
  m.each ((List.finRange 16).filter (fun (s : Fin 16) => v.testBit s)) (fun s m => m.fireSwt s (m.now / 4 * 4) true)

/-- A write of TRG_CTL: fields, then EN, ABORT and ARM (R548, R549, R551, R556). -/
def Mach.trgEn (m : Mach) (on : Bool) : Mach :=
  let was := m.is F.TRG_CTL_EN
  if on then
    let m := m.put F.TRG_CTL_EN 1
    -- IDLE in the beat after EN is set (R549)
    if was then m else (m.runTo (m.now + 1)).put F.TRG_STAT_STATE 1
  else
    let m := { m with trg := { m.trg with held := none } }
    let m := m.put F.TRG_CTL_EN 0
    (m.abortPage).put F.TRG_STAT_STATE 0

def Mach.trgAbort (m : Mach) : Mach := m.abortPage

def Mach.trgArm (m : Mach) : Mach := if m.pageState = 1 then m.armPage else m

/-- The auto timeout expires (R554). -/
def Mach.trgAuto (m : Mach) : Mach :=
  if m.is F.TRG_CTL_AUTO && m.pageState = 2 then
    let due := m.trg.armedSince + 4 * m.get F.TRG_AUTOT_TICKS
    let m := m.runTo due
    (m.openPage due 0xFF true).countEnd
  else m

/-- First failed condition of R565, 0 when none. -/
def Mach.ringCheck (m : Mach) (h : Fin 6) : Nat :=
  let base := m.get (F.TRG_R_BASE_BASE h)
  let slot := m.get (F.TRG_R_SLOT_SLOT h)
  let n := m.get (F.TRG_R_NSLOT_NSLOT h)
  let pr := m.get (F.TRG_R_PRBASE_PRBASE h)
  let others := allHeads.filter (fun k => k != h && m.ringOn k)
  let top (k : Fin 6) : Nat := m.get (F.TRG_R_BASE_BASE k) + m.get (F.TRG_R_SLOT_SLOT k) * m.get (F.TRG_R_NSLOT_NSLOT k)
  let apart (a b c d : Nat) : Bool := b ≤ c || d ≤ a
  if base % 64 != 0 || slot % 64 != 0 || pr % 64 != 0 then 1
  else if n < 2 then 2
  else if lineSize < base + slot * n then 3
  else if lineSize < pr + 256 || !(apart pr (pr + 256) base (base + slot * n)) ||
          others.any (fun k => !(apart pr (pr + 256) (m.get (F.TRG_R_BASE_BASE k)) (top k))) then 4
  else if others.any (fun k => !(apart base (base + slot * n) (m.get (F.TRG_R_BASE_BASE k)) (top k))) then 5
  else 0

/-- Discards the lines in capture of a ring; the pixels written so far stand (R24, R53, R576, R583). -/
def Mach.dropCapture (m : Mach) (h : Fin 6) : Mach :=
  let m := m.catchHead h
  let t := (m.head h).tpg
  let n := (t.lines.filter (fun l => !l.done && l.cseq.isSome)).length
  let r := m.ring h
  let m := m.setRing h { r with gap := r.gap + n }
  m.setTpg h { t with lines := t.lines.map (fun l => if l.done then l else { l with cseq := none, slot := none }) }

/-- A write of TRG_R{n}_CTL.EN (R565, R576, R664). -/
def Mach.trgRingEn (m : Mach) (h : Fin 6) (on : Bool) : Mach :=
  let was := m.ringOn h
  if on then
    if was then m
    else
      let e := m.ringCheck h
      let m := m.put (F.TRG_R_STAT_RERR h) e
      if e = 0 then
        let m := m.put (F.TRG_R_CTL_EN h) 1
        let m := ((m.put (F.TRG_R_WCNT_N h) 0).put (F.TRG_R_RCNT_N h) 0).put (F.TRG_R_CSEQ_CSEQ h) 0
        m.setRing h {}
      else m
  else if was then
    let m := m.dropCapture h
    ((m.abortRing h).put (F.TRG_R_CTL_EN h) 0).countEnd
  else m

/-- A write of N to TRG_R{n}_REL; the hardware's own release of the tick comes after it (R571, R572). -/
def Mach.trgRelease (m : Mach) (h : Fin 6) (n : Nat) : Mach :=
  let m := m.unfree h
  let m := if n ≤ m.fill h then m.release h n else m.put (F.TRG_R_STAT_RELERR h) 1
  m.releaseHistory h false true (m.ring h).lines.length

end Sys2Proof.Machine
end

