-- ==== Sys2Proof/Machine/Bc.lean ====
section
/-!
DEFINITION. Codec contexts and engines: scheduling, rate control, key pictures, the output ring, the self-check, decode
contexts and compare-inspection (ch. 18).
-/
namespace Sys2Proof.Machine

def Mach.bcState (m : Mach) (c : Fin 16) : Nat := m.get (F.BC_CTX_STAT_STATE c)
def Mach.bcEn (m : Mach) (c : Fin 16) : Bool := m.is (F.BC_CTX_CTL_EN c)

/-- Stores the pending causes of a key picture, and KEYNEXT (R729, R730). -/
def Mach.setWhy (m : Mach) (c : Fin 16) (why : Nat) : Mach :=
  (m.setBcCtx c { m.bcCtx c with why := why }).put (F.BC_CTX_STAT_KEYNEXT c) (b2n (why != 0))

/-- Adds cause `k` of R730. -/
def Mach.keyCause (m : Mach) (c : Fin 16) (k : Nat) : Mach := m.setWhy c ((m.bcCtx c).why ||| 2 ^ (k - 1))

/-- k of R714 and R735, for BAND = 0 the value given. -/
def bandOf (s : Sparse 32) (c : Fin 16) (whole : Nat) : Nat :=
  let k := setGet s (F.BC_CTX_RATE_BAND c)
  if k = 0 then whole else k

def bcPar (s : Sparse 32) (c : Fin 16) (w : Nat) : JbcPar :=
  { depth := setGet s (F.BC_CTX_CFG_DEPTH c), planes := if setGet s (F.BC_CTX_CFG_NPL c) = 1 then 3 else 1, w := w }

/-! ## Configuration (R721) -/

/-- First failing code of R721, 0 when none. Log entry 106. -/
def Mach.bcCheckCfg (m : Mach) (c : Fin 16) : Nat :=
  let g (f : Fld) : Nat := m.act f
  let refb := g (F.BC_CTX_REFBASE_OFS c)
  let refs := g (F.BC_CTX_REFSIZE_SIZE c)
  let iob := g (F.BC_CTX_IOBASE_OFS c)
  let ios := g (F.BC_CTX_IOSIZE_SIZE c)
  let mapb := g (F.BC_CTX_MAPBASE_OFS c)
  let band := g (F.BC_CTX_RATE_BAND c)
  let planes := if g (F.BC_CTX_CFG_NPL c) = 1 then 3 else 1
  let b := g (F.BC_CTX_CFG_DEPTH c) + 1
  if refb % 64 != 0 || iob % 64 != 0 || mapb % 64 != 0 || lineSize < refb + refs || lineSize < iob + ios || lineSize ≤ mapb then 1
  else if ios < 4096 then 2
  else if planes = 3 && !prowsDiffer (g (F.BC_CTX_CFG_PROW c)) then 3
  else if 64 < band then 4
  else if refs != 0 && refs < 2 * planes * 16400 * 16 * (if band = 0 then 1 else band) * b then 5
  else if !m.bcDec c && allCtx.any (fun d => d != c && m.bcEn d && !m.bcDec d && g (F.BC_CTX_CFG_STREAM d) = g (F.BC_CTX_CFG_STREAM c))
    then 6
  else 0

/-- Checks a context and shows the outcome (R721). -/
def Mach.bcApplyCheck (m : Mach) (c : Fin 16) : Mach :=
  let e := m.bcCheckCfg c
  let m := m.put (F.BC_CTX_STAT_CFGERR c) e
  if e = 0 then (if m.bcEn c then m.put (F.BC_CTX_STAT_STATE c) 1 else m.put (F.BC_CTX_STAT_STATE c) 0)
  else ((m.put (F.BC_CTX_STAT_STATE c) 4).putBit F.BC_ERRPEND_PEND c).pulse 7 9

/-- A picture of the context is in progress. -/
def Mach.bcBusy (m : Mach) (c : Fin 16) : Bool := m.bc.enc.any (fun p => p.ctx = c.val) || m.bc.dec = some c.val

/-! ## Output ring (R733) -/

def Mach.bcUsed (m : Mach) (c : Fin 16) : Nat := (m.bcCtx c).units.foldl (fun (n : Nat) (u : BcUnit) => n + u.len) 0

def Mach.bcFree (m : Mach) (c : Fin 16) (s : Sparse 32) : Nat := setGet s (F.BC_CTX_IOSIZE_SIZE c) - m.bcUsed c

/-- Segments of `n` ring bytes from offset `ofs`. -/
def ringSegs (base size ofs n : Nat) : List (Nat × Nat) :=
  let n1 := min n (size - ofs)
  if n1 = n then [(lineBase + base + ofs, n)] else [(lineBase + base + ofs, n1), (lineBase + base, n - n1)]

/-- Writes one unit into the output ring and hands its range to ST (R733). -/
def Mach.bcWrite (m : Mach) (c : Fin 16) (s : Sparse 32) (bytes : List Byte) (isStream : Bool) (check : Option BcCheck) : Mach :=
  let base := setGet s (F.BC_CTX_IOBASE_OFS c)
  let size := setGet s (F.BC_CTX_IOSIZE_SIZE c)
  let ofs := m.get (F.BC_CTX_WP_WP c)
  let n := bytes.length
  let segs := ringSegs base size ofs n
  let m := m.each segs.zipIdx (fun (x : (Nat × Nat) × Nat) m =>
    m.putBytes x.1.1 ((bytes.drop (if x.2 = 0 then 0 else n - x.1.2)).take x.1.2))
  let m := m.put (F.BC_CTX_WP_WP c) ((ofs + n) % max 1 size)
  let (id, m) := m.bcHand (setGet s (F.BC_CTX_CFG_STREAM c)) segs n isStream
  let x := m.bcCtx c
  let m := m.setBcCtx c { x with units := x.units ++ [{ ofs := ofs, len := n, entry := id, check := check.isSome }] }
  match check with
  | some k => { m.put F.BC_STAT_CHKBUSY 1 with bc := { m.bc with checks := m.bc.checks ++ [{ k with ofs := ofs, len := n }] } }
  | none => m.bcReap c

/-! ## The codec's enables (R97, R747) -/

/-- Under BC_EN = 0 the codec stands still once no picture is in progress. -/
def Mach.bcRest (m : Mach) : Mach :=
  if m.is F.CLK_GATE_BC_EN || m.bc.enc.isSome || m.bc.dec.isSome || m.bc.stopAt.isSome then m
  else { m with bc := { m.bc with stopAt := some m.now } }

/-- Log entry 107. -/
def Mach.bcStopped (m : Mach) : Bool := m.bc.stopAt.isSome

/-- Counted beats of encoding since the last completed check (R47, R735). -/
def Mach.encSpent (m : Mach) : Nat := m.bc.encTime + (match m.bc.encFrom with | some t => m.now - t | none => 0)

/-! ## Pages and source lines (R713-R717) -/

def headFin (h : Nat) : Fin 6 := Fin.ofNat 6 h

/-- Lines of the page from `y0` on, once L is fixed. -/
def HeadPage.remain (p : HeadPage) (y0 : Nat) : Option Nat :=
  match p.first, p.last with
  | some f, some l => some (l + 1 - ((f : Int) + y0)).toNat
  | _, _ => none

/-- The first page with lines after page `last` of a head's pages. -/
def pageAfter (pages : List HeadPage) (last : Option Nat) : Option (HeadPage × Nat) :=
  let rest := match last with
    | some n => if pages.any (fun (p : HeadPage) => p.pageno == n) then (pages.dropWhile (fun (p : HeadPage) => p.pageno != n)).drop 1 else pages
    | none => pages
  (rest.find? (fun (p : HeadPage) => p.first.isSome && p.remain 0 != some 0)).map (fun (p : HeadPage) => (p, 0))

/-- The page a context codes next and the lines of it already coded (R713, R714). A page that ended with its last coded
picture leaves no line and gives no further picture. -/
def Mach.bcPage (m : Mach) (c : Fin 16) (head : Fin 6) : Option (HeadPage × Nat) :=
  let x := m.bcCtx c
  let pages := (m.ring head).pages
  match x.page with
  | some (no, y0) =>
    match pages.find? (fun (p : HeadPage) => p.pageno == no) with
    | some p => if p.remain y0 = some 0 then pageAfter pages (some no) else some (p, y0)
    | none => pageAfter pages x.lastPage
  | none => pageAfter pages x.lastPage

/-- H of the picture that starts at line `y0` of the page, as far as it is known (R714). -/
def HeadPage.picLines (p : HeadPage) (y0 band : Nat) : Option Nat :=
  if band = 0 then p.remain y0
  else some (match p.remain y0 with | some n => min n (16 * band) | none => 16 * band)

/-- Lines of the head committed up to CSEQ `c`. -/
def Mach.upTo (m : Mach) (head : Fin 6) (c : Nat) : Bool := match (m.ring head).lastC with | some x => c ≤ x | none => false

/-- A picture can start (R715). -/
def Mach.bcCanStart (m : Mach) (c : Fin 16) : Bool :=
  let s := m.actSet
  let head := headFin (setGet s (F.BC_CTX_CFG_HEAD c))
  let band := setGet s (F.BC_CTX_RATE_BAND c)
  match m.bcPage c head with
  | some (p, y0) =>
    let f := p.first.getD 0
    let need := match p.remain y0 with
      | some n => min n (16 * max 1 band)
      | none => 16 * max 1 band
    need != 0 && (p.closed || m.upTo head (f + y0 + need - 1))
  | none => false

/-- The committed line of a CSEQ that the ring still holds. -/
def Mach.ringLine (m : Mach) (head : Fin 6) (c : Nat) : Option RingLine := (m.ring head).lines.find? (fun l => l.cseq = c)

/-- Substitutions that a line brings, and whether it was cropped or padded (R717). -/
def Mach.lineFill (m : Mach) (head : Fin 6) (c w : Nat) (prows : List Nat) : Nat × Bool :=
  match m.ringLine head c with
  | none => (1, false)
  | some l => (b2n (prows.any (fun p => !l.rows.contains p)) + b2n (l.n != w), l.n != w)

/-! ## Reconstructions in the picture area -/

/-- Sample of a reconstructed picture in half `half` (R703; 18 R721). -/
def Mach.areaSample (m : Mach) (s : Sparse 32) (c : Fin 16) (par : JbcPar) (half h : Nat) (p : Nat) (y x : Int) : Int :=
  let b := par.depth + 1
  let y := (clampInt 0 ((h : Int) - 1) y).toNat
  let x := (clampInt 0 ((par.w : Int) - 1) x).toNat
  let a := lineBase + setGet s (F.BC_CTX_REFBASE_OFS c) + half * (setGet s (F.BC_CTX_REFSIZE_SIZE c) / 2) + ((p * h + y) * par.w + x) * b
  (m.load a b : Nat)

/-- Stores a picture in a half as far as the half reaches; true when it outgrows it (R731). -/
def Mach.areaStore (m : Mach) (s : Sparse 32) (c : Fin 16) (par : JbcPar) (half : Nat) (pic : Picture) : Bool × Mach :=
  let size := setGet s (F.BC_CTX_REFSIZE_SIZE c) / 2
  let bytes := areaBytes (par.depth + 1) pic
  (size < bytes.length, m.putBytes (lineBase + setGet s (F.BC_CTX_REFBASE_OFS c) + half * size) (bytes.take size))

/-! ## Encoding -/

/-- Contexts in the cyclic order of R722. -/
def ctxOrder (last : Option Nat) : List (Fin 16) :=
  (List.range 16).map (fun k => Fin.ofNat 16 (match last with | some l => l + 1 + k | none => k))

/-- A change of context costs 1,575 ticks and counts (R723, Q-05). -/
def Mach.bcSwitch (m : Mach) (c : Fin 16) (last : Option Nat) : Mach :=
  if last = some c.val then m else (m.countMod F.BC_SWCNT_N 1).runTo (m.now + 6300)

/-- Encode contexts that qualify, the next first (R722). -/
def Mach.encNext (m : Mach) : Option (Fin 16) :=
  (ctxOrder m.bc.encLast).find? (fun c =>
    m.bcEn c && !m.bcDec c && m.bcState c = 1 && !(m.bcCtx c).closing && m.bcCanStart c && 4096 ≤ m.bcFree c m.actSet)

/-- BC_ENCODE_PICTURE_START (R716, R722, R723, R729, R730, R733). Log entry 53. Log entry 106. -/
def Mach.encStart (m : Mach) : Mach :=
  if !m.live || !m.is F.CLK_GATE_BC_EN || m.bc.enc.isSome then m
  else
    let m := m.each allCtx (fun c m => if m.bcDec c then m else m.bcReap c)
    match m.encNext with
    | none => m
    | some c =>
      let m := m.bcSwitch c m.bc.encLast
      let s := m.actSet
      let head := headFin (setGet s (F.BC_CTX_CFG_HEAD c))
      match m.bcPage c head with
      | none => m
      | some (p, y0) =>
        let first := p.first.getD 0 + y0
        let w := match m.ringLine head first with | some l => l.n | none => m.act (F.H_TPG_LINE_NPIX head) + 16
        let x := m.bcCtx c
        let why := x.why ||| (if x.ref.isNone && x.n != 0 || setGet s (F.BC_CTX_REFSIZE_SIZE c) = 0 then 8 else 0) |||
          (if x.ref.isSome && x.refW != w then 64 else 0)
        let key := why != 0
        let req := why.testBit 1
        let (no, m) := if key then m.fresh 16 else ((x.picno + 1) % 65536, m)
        let m := if key then m.put (F.BC_CTX_STAT_KEYWHY c) ((lowestBit why 0 7).getD 0 + 1) else m
        let m := (m.setWhy c 0).put F.BC_KEYREQ_REQ (setBits (m.get F.BC_KEYREQ_REQ) c c 0)
        let m := ((m.put F.BC_STAT_ENCCTX c).put F.BC_STAT_ENCBUSY 1).put (F.BC_CTX_STAT_STATE c) 2
        let m := m.put (F.BC_CTX_PROG_LINE c) first
        let hdr : StreamHdr := { ctx := c, depth := setGet s (F.BC_CTX_CFG_DEPTH c), npl := setGet s (F.BC_CTX_CFG_NPL c),
                                 prow := if setGet s (F.BC_CTX_CFG_NPL c) = 1 then setGet s (F.BC_CTX_CFG_PROW c)
                                         else setGet s (F.BC_CTX_CFG_PROW c) / 16 * 16,
                                 w := w, band := setGet s (F.BC_CTX_RATE_BAND c) }
        let m := if key then m.bcWrite c s (unitBytes 0xB0 hdr.payload) true none else m
        let ph : PicHdr := { picno := no, ptype := b2n (!key), req := b2n req, head := head, pageno := p.pageno, first := first % 2 ^ 32 }
        let pb := unitBytes 0xB1 ph.payload
        let m := m.bcWrite c s pb false none
        let pic : BcPic := { ctx := c, set := s, key := key, req := req, picno := no, head := head, pageno := p.pageno, first := first,
                             y0 := y0, w := w, bytes := pb.length, coded := none, out := [], grew := false }
        { m with bc := { m.bc with enc := some pic, encLast := some c.val, encFrom := some m.now } }

/-- State of rate control within a picture (R725-R727). -/
structure RateSt where
  /-- B_r, and the last row's quantiser at its end and bytes. -/
  b : Nat
  last : Option (Nat × Nat)
  fallback : Bool
  deriving DecidableEq, Repr

/-- T of R727 at Reef level `lvl`. -/
def rowTarget (s : Sparse 32) (c : Fin 16) (lvl : Nat) : Nat :=
  let t := setGet s (F.BC_CTX_LIMIT_LIM c)
  if setGet s (F.BC_CTX_CFG_HSCALE c) = 0 then t else t * 16 / (16 - lvl)

/-- Row r's starting quantiser (R725-R727). -/
def rowQp (s : Sparse 32) (c : Fin 16) (key : Bool) (lvl r : Nat) (x : RateSt) : Nat :=
  let qp0 := setGet s (F.BC_CTX_RATE_QP0 c)
  let qmin := setGet s (F.BC_CTX_RATE_QMIN c)
  let qmax := setGet s (F.BC_CTX_RATE_QMAX c)
  if setGet s (F.BC_CTX_CFG_RMODE c) = 0 then
    if x.fallback then 63
    else if r = 0 then qp0
    else
      let q := (x.last.getD (qp0, 0)).1
      let mm := bandOf s c (max 1 (setGet s (F.BC_CTX_PGROWS_RCAP c)))
      if setGet s (F.BC_CTX_LIMIT_LIM c) * r < x.b * mm then min qmax (q + max 1 (setGet s (F.BC_CTX_RATE_QSTEP c)))
      else max qp0 (q - 1)
  else if r = 0 && key then qp0
  else
    match x.last with
    | none => qp0
    | some (q, used) =>
      let t := rowTarget s c lvl
      let q := if 9 * t < 8 * used then q + 1 else if 8 * used < 7 * t then q - 1 else q
      min qmax (max qmin q)

/-- DQP of each macroblock of a row is the step that R728 has pending, and q stays within QMIN-QMAX: `t` is the row
target, `nmb` the row's macroblocks, `size` its payload bits, `k` the macroblocks passed, `pend` the pending step
(log entry 52). U counts the start code, the code byte and the payload bits so far. -/
def stepsKept (qmin qmax : Int) (t nmb size : Nat) : Nat → Int → Int → List (Option Int × Nat) → Bool
  | _, _, _, [] => true
  | k, pend, q, (d, left) :: rest =>
    let step := if qmin ≤ q + pend && q + pend ≤ qmax then pend else 0
    let used := (32 + size - left) * nmb
    let kept := match d with | some v => v = step | none => true
    let pend := if d.isSome then 0 else pend
    let pend := if (k + 1) % 16 != 0 then pend
      else if 9 * t * (k + 1) < used then 1 else if used < 7 * t * (k + 1) then -1 else pend
    kept && stepsKept qmin qmax t nmb size (k + 1) pend (q + d.getD 0) rest

/-- The encoder keeps its rules in a row that it has coded (R698, R724-R728; log entry 52). -/
def rowAllowed (s : Sparse 32) (c : Fin 16) (key fallback : Bool) (lvl nmb : Nat) (o : RowOut) : Bool :=
  o.st.vmax ≤ setGet s (F.BC_CTX_CFG_SRCH c) && !o.st.empty &&
  (if setGet s (F.BC_CTX_CFG_RMODE c) = 0 then
     o.st.steps.all (fun (x : Option Int × Nat) => x.1.getD 0 = 0) && (!fallback || (if key then !o.st.cbp else !o.st.notSkip))
   else stepsKept (setGet s (F.BC_CTX_RATE_QMIN c)) (setGet s (F.BC_CTX_RATE_QMAX c)) (rowTarget s c lvl) nmb o.size 0 0 o.qp
     o.st.steps.reverse)

/-- Codes the rows whose macroblock bits are given: their units and reconstructions, and the rate state; `none` where
the encoder would not write such a row. -/
def codeRows (s : Sparse 32) (c : Fin 16) (key : Bool) (lvl : Nat) (par : JbcPar) (ref : Nat → Int → Int → Int) (r : Nat)
    (x : RateSt) : List (List Bool) → Option (List (List Byte × Picture) × RateSt)
  | [] => some ([], x)
  | mb :: t =>
    let qp := rowQp s c key lvl r x
    let payload := rowPayload r qp mb
    match decodeRow (!key) par ref r payload with
    | .error _ => none
    | .ok o =>
      if !rowAllowed s c key x.fallback lvl par.nmb o then none
      else
        let u := unitBytes 0xB2 payload
        let b := x.b + u.length
        let x := { b := b, last := some (o.st.q.toNat, u.length),
                   fallback := x.fallback || (setGet s (F.BC_CTX_CFG_RMODE c) = 0 && setGet s (F.BC_CTX_LIMIT_LIM c) ≤ b) }
        (codeRows s c key lvl par ref (r + 1) x t).map (fun (y : List (List Byte × Picture) × RateSt) => ((u, o.lines) :: y.1, y.2))

/-- Rows that the self-check reads in a picture of R rows (R735). -/
def checkedRows (rows n mm : Nat) (extra : Bool) : List Nat :=
  let l := (List.range rows).filter (fun r => r % mm = n % mm)
  let l := if l.isEmpty then [rows - 1] else l
  if extra && !l.contains 0 then 0 :: l else l

/-- EN is set on a context that has no picture in progress (R721, R730 cause 1, R739). -/
def Mach.bcOpen (m : Mach) (c : Fin 16) : Mach :=
  let m := m.setBcCtx c { m.bcCtx c with n := 0, closing := false, wantStream := true, wantPic := false, seq := none, ref := none,
                                         page := none, cmpY := 0, cmpPage := none, q := none }
  (if m.bcDec c then m else m.keyCause c 1).bcApplyCheck c

/-- A context that closes is OFF, or starts again when EN has been set meanwhile (R732). -/
def Mach.bcOff (m : Mach) (c : Fin 16) : Mach :=
  let m := (m.setBcCtx c { m.bcCtx c with closing := false }).put (F.BC_CTX_STAT_STATE c) 0
  m.when (m.bcEn c) (fun m => m.bcOpen c)

/-- A context ends its stream with SEND (R679, R732). -/
def Mach.bcSend (m : Mach) (c : Fin 16) (s : Sparse 32) : Mach := (m.bcWrite c s [0, 0, 1, 0xB4] false none).bcOff c

/-- The picture's END is written: reference, registers, PICPEND and BC_PIC (R714, R730-R732, R742). -/
def Mach.encFinish (m : Mach) (p : BcPic) (h : Nat) (lastp abort : Bool) : Mach :=
  let c : Fin 16 := Fin.ofNat 16 p.ctx
  let x := m.bcCtx c
  let noRef := p.grew || setGet p.set (F.BC_CTX_REFSIZE_SIZE c) = 0
  let m := m.setBcCtx c { x with picno := p.picno, n := x.n + 1, ref := if noRef then none else some (x.half, h), refW := p.w,
                                 half := 1 - x.half,
                                 page := if lastp || abort then none else some (p.pageno, p.y0 + h),
                                 lastPage := if lastp || abort then some p.pageno else x.lastPage }
  let m := m.when p.grew (fun m => m.put (F.BC_CTX_STAT_REFOVF c) 1)
  let m := m.when noRef (fun m => m.keyCause c 4)
  let m := (((m.put (F.BC_CTX_PIC_PICNO c) p.picno).put (F.BC_CTX_PIC_TYPE c) (b2n (!p.key))).put (F.BC_CTX_PIC_REQ c) (b2n p.req))
  let m := ((m.put (F.BC_CTX_PIC_LASTP c) (b2n lastp)).put (F.BC_CTX_PIC_ABORT c) (b2n abort)).put (F.BC_CTX_PIC_CONC c) 0
  let m := (m.put (F.BC_CTX_BYTES_N c) p.bytes).put (F.BC_CTX_H_H c) h
  let m := ((m.put (F.BC_CTX_STAT_OSTALL c) 0).put F.BC_STAT_ENCBUSY 0).put (F.BC_CTX_STAT_STATE c) 1
  let m := { m with bc := { m.bc with enc := none, encTime := m.encSpent, encFrom := none } }
  let m := (m.putBit F.BC_PICPEND_PEND c).pulse 7 7
  (m.when (m.bcCtx c).closing (fun m => m.bcSend c p.set)).bcRest

/-- Writes the units that wait while at least 4,096 bytes are free; OSTALL otherwise (R733). Log entry 90. -/
def Mach.encFlush (m : Mach) : Nat → Mach
  | 0 => m
  | fuel + 1 =>
    match m.bc.enc with
    | none => m
    | some p =>
      match p.coded with
      | none => m
      | some (h, lastp, abort) =>
        let c : Fin 16 := Fin.ofNat 16 p.ctx
        match p.out with
        | [] => m.encFinish p h lastp abort
        | u :: t =>
          let m := m.bcReap c
          if m.bcFree c p.set < max 4096 u.bytes.length then m.put (F.BC_CTX_STAT_OSTALL c) 1
          else
            let m := m.bcWrite c p.set u.bytes false u.check
            let m := { m with bc := { m.bc with enc := some { p with out := t, bytes := p.bytes + u.bytes.length } } }
            (m.put (F.BC_CTX_STAT_OSTALL c) 0).encFlush fuel

/-- BC_PICTURE_DONE of the encode engine: `rows` are the macroblock bits of its rows, as the encoder chose them
(R714-R717, R724-R728, R735, R736). -/
def Mach.encDone (m : Mach) (rows : List (List Bool)) : Mach :=
  match m.bc.enc with
  | none => m
  | some p =>
    if !m.live || p.coded.isSome then m
    else
      let c : Fin 16 := Fin.ofNat 16 p.ctx
      let s := p.set
      let head := headFin p.head
      match (m.ring head).pages.find? (fun q => q.pageno = p.pageno) with
      | none => m
      | some pg =>
        match pg.picLines p.y0 (setGet s (F.BC_CTX_RATE_BAND c)) with
        | none => m
        | some h =>
          let x := m.bcCtx c
          let par := bcPar s c p.w
          let (half, refH) := x.ref.getD (0, 1)
          let ref := m.areaSample s c par half refH
          let lvl := if m.is F.BWL_CTL_EN && m.get F.BWL_CTL_ROLE = 0 && m.get F.BWL_STAT_STATE = 4 then m.bwl.level else m.get F.REEF_STAT_LEVEL
          if h = 0 || (!pg.closed && !m.upTo head (p.first + h - 1)) || rows.length != ceilDiv h 16 then m
          else
            match codeRows s c p.key lvl par ref 0 { b := p.bytes, last := x.q, fallback := false } rows with
            | none => m
            | some (l, rate) =>
              let lastp := pg.last = some ((p.first : Int) + h - 1)
              let abort := pg.abort && lastp
              let pic := cropLines h (stackRows par.planes (l.map (·.2)))
              let e : EndHdr := { h := h, lastp := b2n lastp, abort := b2n abort, rcrc := (pictureCrc pic).toNat }
              let extra := m.bc.checkNext || (6000000000 ≤ m.encSpent && !m.bc.extraDone)
              let chk := checkedRows rows.length x.n (bandOf s c 64) extra
              let outs := l.zipIdx.map (fun (y : (List Byte × Picture) × Nat) =>
                ({ bytes := y.1.1, check := if chk.contains y.2 then
                    some { ctx := c, row := y.2, ofs := 0, len := 0, linked := !p.key, crc := pictureCrc y.1.2, refHalf := half,
                           refH := refH, w := p.w, set := s } else none } : BcOut))
              let prows := (List.range par.planes).map (fun i => prowOf (setGet s (F.BC_CTX_CFG_PROW c)) i)
              let fills := (List.range h).map (fun i => m.lineFill head (p.first + i) p.w prows)
              let m := m.countHold (F.BC_CTX_CNT_FILL c) (fills.foldl (fun (n : Nat) (f : Nat × Bool) => n + f.1) 0)
              let m := if fills.any (·.2) then m.keyCause c 7 else m
              let m := if rate.fallback then m.put (F.BC_CTX_STAT_CAPOVR c) 1 else m
              let m := m.setBcCtx c { m.bcCtx c with q := rate.last }
              let (grew, m) := if setGet s (F.BC_CTX_REFSIZE_SIZE c) = 0 then (false, m) else m.areaStore s c par x.half pic
              let m := m.put (F.BC_CTX_PROG_LINE c) (p.first + h)
              let out := outs ++ [{ bytes := unitBytes 0xB3 e.payload, check := none }]
              let m := { m with bc := { m.bc with checkNext := false
                                                  extraDone := m.bc.extraDone || extra
                                                  enc := some { p with coded := some (h, lastp, abort), grew := grew, out := out } } }
              m.encFlush (rows.length + 3)

/-- BC_OUTPUT_RESUME (R733). -/
def Mach.encResume (m : Mach) : Mach :=
  match m.bc.enc with
  | some p => if m.live && m.is (F.BC_CTX_STAT_OSTALL p.ctx) then m.encFlush (p.out.length + 2) else m
  | none => m

/-! ## The self-check (R735-R737) -/

/-- BC_SELF_CHECK: true when the check fails on a context, which it names. Log entry 78. -/
def Mach.selfCheck (m : Mach) : Option Nat × Mach :=
  match m.bc.checks with
  | [] => (none, m)
  | k :: t =>
    if !m.live then (none, m)
    else
      let c : Fin 16 := Fin.ofNat 16 k.ctx
      let segs := ringSegs (setGet k.set (F.BC_CTX_IOBASE_OFS c)) (setGet k.set (F.BC_CTX_IOSIZE_SIZE c)) k.ofs k.len
      let bytes := (segAddrs segs 0 k.len).map m.byte
      let par := bcPar k.set c k.w
      let good := match readPayload (decodeRow k.linked par (m.areaSample k.set c par k.refHalf k.refH) k.row)
          (unescape 0 (bytes.drop 4)) with
        | .ok o => bytes.take 4 = [0, 0, 1, 0xB2] && pictureCrc o.lines = k.crc
        | .error _ => false
      let x := m.bcCtx c
      let m := m.setBcCtx c { x with units := x.units.map (fun (u : BcUnit) => if u.ofs = k.ofs then { u with check := false } else u) }
      let m := { m.put F.BC_STAT_CHKBUSY (b2n (!t.isEmpty)) with bc := { m.bc with checks := t, extraDone := false, encTime := 0,
                                                                                   encFrom := m.bc.encFrom.map (fun _ => m.now) } }
      let m := m.bcReap c
      let m := ((m.put F.BC_CHK_CTX c).put F.BC_CHK_ROW k.row).countMod F.BC_CHKCNT_N 1
      let m := if good then m else m.put F.BC_CHK_CHKFAIL 1
      (if good then none else some c.val, m.pulse 7 10)

/-- BC_CHECK_TIMER: while a picture is coded the clock runs to the end of the 2 s (R735). Log entry 52. -/
def Mach.checkTimer (m : Mach) : Mach :=
  match m.bc.encFrom with
  | some t =>
    let m := m.runTo (t + (6000000000 - m.bc.encTime))
    if m.bc.extraDone then m else { m with bc := { m.bc with checkNext := true } }
  | none => m

/-! ## The request to Reef (R734) -/

/-- Backlog of an encode context (R734). -/
def Mach.backlog (m : Mach) (c : Fin 16) : Nat :=
  let head := headFin (m.act (F.BC_CTX_CFG_HEAD c))
  let band := m.act (F.BC_CTX_RATE_BAND c)
  let x := m.bcCtx c
  let rows := match m.bcPage c head with
    | none => 0
    | some (p0, y0) =>
      ((m.ring head).pages.dropWhile (fun p => p.pageno != p0.pageno)).foldl (fun (n : Nat) (p : HeadPage) =>
        match p.first with
        | none => n
        | some f =>
          let y := if p.pageno = p0.pageno then y0 else 0
          let top := match p.last, (m.ring head).lastC with
            | some l, some k => (min l k + 1).toNat
            | none, some k => k + 1
            | _, none => 0
          let lines := top - (f + y)
          n + (if p.closed then ceilDiv lines 16 else lines / 16)) 0
  if m.bcEn c && !m.bcDec c && !x.closing then rows - max 1 band else 0

/-- At a motion interval boundary: what the window of R734 has seen. -/
def Mach.capSample (m : Mach) : Mach :=
  if m.bcStopped then m else
  let hi := allCtx.any (fun c => m.get F.BC_CAP_CAPHI < m.backlog c)
  let busy := allCtx.any (fun c => m.get F.BC_CAP_CAPLO < m.backlog c)
  { m with bc := { m.bc with capHi := m.bc.capHi || hi, capBusy := m.bc.capBusy || busy } }

/-- BC_CAP_WINDOW (R734). Log entry 107. -/
def Mach.capWindow (m : Mach) : Mach :=
  if !m.live || m.bcStopped then m
  else
    let m := (m.runTo (m.bc.capFrom + 3072000)).capSample
    let r := m.get F.BC_CAP_CODECREQ
    let x := m.bc
    let m := if x.capHi then
        let m := m.put F.BC_CAP_CODECREQ (min 15 (r + 1))
        { m with bc := { m.bc with capRise := m.now } }
      else if !x.capBusy && x.capRise + 192000000 ≤ m.now then m.put F.BC_CAP_CODECREQ (r - 1)
      else m
    { m with bc := { m.bc with capFrom := m.now, capHi := false, capBusy := false } }

/-! ## Writes and commits -/

/-- BC_KEYREQ (R729). -/
def Mach.bcKeyreq (m : Mach) (v : Nat) : Mach :=
  m.each (allCtx.filter (fun (c : Fin 16) => v.testBit c.val)) (fun c m => (m.putBit F.BC_KEYREQ_REQ c).keyCause c 2)

/-- BC_CTX_EN (R721, R730, R732, R739). A context that still finishes starts again after its SEND. Log entry 90.
Log entry 106. -/
def Mach.bcCtxEn (m : Mach) (c : Fin 16) (on : Bool) : Mach :=
  let was := m.bcEn c
  let m := m.put (F.BC_CTX_CTL_EN c) (b2n on)
  if on && !was then (if (m.bcCtx c).closing then m else m.bcOpen c)
  else if !on && was then
    if m.bcState c = 4 then m.bcOff c
    else if m.bcBusy c || m.bcStopped then m.setBcCtx c { m.bcCtx c with closing := true }
    else if m.bcDec c then m.bcOff c
    else m.bcSend c m.actSet
  else m

/-- BC_CTX_RESTART (R739, R746). -/
def Mach.bcRestart (m : Mach) (c : Fin 16) : Mach :=
  if m.bcDec c && m.bcEn c then
    let m := m.setBcCtx c { m.bcCtx c with wantStream := true, wantPic := false }
    if m.bcState c = 3 then m.put (F.BC_CTX_STAT_STATE c) 1 else m
  else m

/-- BC_CTX_WP_WRITE: WP is written for decode contexts only (R738). -/
def Mach.bcWp (m : Mach) (c : Fin 16) (v : Nat) : Mach :=
  if m.bcDec c then (m.put (F.BC_CTX_WP_WP c) v).put (F.BC_CTX_STAT_WAITIN c) 0 else m

def bcCommit (c : Fin 16) : Nat := 0x241004 + 0x100 * c.val

/-- Registers of the context's shadow set. -/
def ofCtx (c : Fin 16) (a : Nat) : Bool := 0x241000 + 0x100 * c.val ≤ a && a < 0x241100 + 0x100 * c.val

/-- COMMIT_APPLY on a context (R228, R231, R712, R721, R730 cause 3, R746). -/
def Mach.bcApply (m : Mach) (c : Fin 16) : Mach :=
  match m.commits.find? (fun x => x.1 = bcCommit c) with
  | none => m
  | some (_, t) =>
    if m.bcBusy c || m.bcStopped || !m.live then m
    else
      let m := m.runTo (t + 4)
      let old := m.actSet
      let m := { m with actSet := Sparse.copy regReset (ofCtx c) m.pendSet m.actSet,
                        commits := m.commits.filter (fun x => x.1 != bcCommit c) }
      let m := (m.put (F.BC_CTX_COMMIT_GO c) 0).pulse 7 8
      let differs (f : Fld) : Bool := setGet old f != m.act f
      let new := differs (F.BC_CTX_CFG_DIR c) || differs (F.BC_CTX_CFG_HEAD c) || differs (F.BC_CTX_CFG_DEPTH c) ||
        differs (F.BC_CTX_CFG_NPL c) || differs (F.BC_CTX_CFG_PROW c) || differs (F.BC_CTX_RATE_BAND c)
      let m := if new && !m.bcDec c then m.keyCause c 3 else m
      let m := if new then m.setBcCtx c { m.bcCtx c with ref := none } else m
      let m := if m.bcDec c && m.bcState c = 3 then
          m.setBcCtx c { m.bcCtx c with wantStream := true, wantPic := false } else m
      m.bcApplyCheck c

/-- Commits whose first boundary has passed: an idle context has one every tick (R228, R712). Log entry 106. -/
def Mach.bcCommits (m : Mach) : Mach :=
  m.each allCtx (fun c m => m.when (m.commits.any (fun x => x.1 = bcCommit c && x.2 + 4 ≤ m.now)) (fun m => m.bcApply c))

/-- BC_GATE: what a codec that stands still owes, it does when its enables come back; its counts went on hold (R97, R747).
Log entry 107. -/
def Mach.bcGate (m : Mach) (on : Bool) : Mach :=
  let m := m.put F.CLK_GATE_BC_EN (b2n on)
  match m.bc.stopAt with
  | none => m.bcRest
  | some t =>
    if !on then m
    else
      let m := { m with bc := { m.bc with stopAt := none, capFrom := m.bc.capFrom + (m.now - t), capRise := m.bc.capRise + (m.now - t) } }
      m.each allCtx (fun c m => m.when ((m.bcCtx c).closing && !m.bcBusy c) (fun m =>
        if m.bcDec c then m.bcOff c else m.bcSend c m.actSet))

/-! ## Decoding (R738-R746) -/

/-- What decoding from an input ring has come to. -/
structure DecRun where
  /-- Bytes taken from RP. -/
  used : Nat
  cx : BcCtx
  /-- Errors: code, PICNO and row. -/
  errs : List (Nat × Nat × Nat)
  /-- The picture in progress: its header, rows, which of them are concealed, and its bytes so far. -/
  pic : Option PicHdr
  rows : List Picture
  conc : List Nat
  bytes : Nat
  /-- Bytes, context and errors as they were before the picture's PIC. -/
  save : Option (Nat × BcCtx × List (Nat × Nat × Nat))
  /-- Mode S has stopped. -/
  stop : Bool
  /-- The picture is complete. -/
  fin : Option EndHdr

/-- A stream error: mode S ends the picture and stops; mode C goes on with `go` (R744, R746). -/
def DecRun.fail (x : DecRun) (modeS : Bool) (code : Nat) (go : DecRun → DecRun) : DecRun :=
  let x := { x with errs := x.errs ++ [(code, (x.pic.map (·.picno)).getD x.cx.picno, x.rows.length)] }
  if modeS then { x with stop := true, pic := none, save := none } else go x

/-- Mode C after an error in STREAM or in the order of units: skip to the next STREAM. -/
def DecRun.toStream (x : DecRun) : DecRun :=
  { x with pic := none, save := none, cx := { x.cx with wantStream := true, wantPic := false, ref := none } }

def DecRun.toPic (x : DecRun) : DecRun :=
  { x with pic := none, save := none, cx := { x.cx with wantPic := true, ref := none } }

/-- A STREAM unit. -/
def DecRun.onStream (x : DecRun) (modeS : Bool) (pl : List Byte × Bool) : DecRun :=
  match readPayload decodeStream pl with
  | .error e => x.fail modeS e DecRun.toStream
  | .ok h => { x with cx := { x.cx with seq := some h, wantStream := false, wantPic := false, first := true } }

/-- A PIC unit (R678, R680, R681, R683). -/
def DecRun.onPic (x : DecRun) (modeS : Bool) (pl : List Byte × Bool) (len : Nat) (before : Nat × BcCtx) : DecRun :=
  match readPayload decodePic pl with
  | .error e => x.fail modeS e DecRun.toPic
  | .ok h =>
    if (h.ptype = 0) != x.cx.first then x.fail modeS 3 DecRun.toPic
    else if h.ptype = 1 && (x.cx.ref.isNone || h.picno != (x.cx.picno + 1) % 65536) then
      x.fail modeS 8 DecRun.toStream
    else { x with pic := some h, rows := [], conc := [], bytes := len, save := some (before.1, before.2, x.errs),
                  cx := { x.cx with wantPic := false, first := false } }

/-- A ROW unit of the picture in progress; `ref` reads its reference (R684, R744, R745). -/
def DecRun.onRow (x : DecRun) (modeS : Bool) (h : PicHdr) (par : JbcPar) (ref : Nat → Int → Int → Int)
    (pl : List Byte × Bool) (len : Nat) : DecRun :=
  let r := x.rows.length
  match readPayload (decodeRow (h.ptype = 1) par ref r) pl with
  | .ok o => { x with rows := x.rows ++ [o.lines], bytes := x.bytes + len }
  | .error e => x.fail modeS e (fun x =>
      { x with rows := x.rows ++ [concealRow par (h.ptype = 1) ref (16 * r) x.rows.getLast?], conc := x.conc ++ [r], bytes := x.bytes + len })

/-- An END unit (R705-R708, R744). -/
def DecRun.onEnd (x : DecRun) (modeS : Bool) (par : JbcPar) (band : Nat) (pl : List Byte × Bool) (len : Nat) : DecRun :=
  let n := x.rows.length
  let x := { x with bytes := x.bytes + len }
  match readPayload decodeEnd pl with
  | .error e => x.fail modeS e (fun x => { x with fin := some { h := 16 * n, lastp := 0, abort := 0, rcrc := 0 } })
  | .ok e =>
    if !e.fits band n then x.fail modeS 9 (fun x => { x with fin := some { e with h := 16 * n } })
    else if (pictureCrc (cropLines e.h (stackRows par.planes x.rows))).toNat != e.rcrc then
      x.fail modeS 10 (fun x => { x with fin := some e })
    else { x with fin := some e }

/-- A unit has all its bytes: the next start code follows, or its length is fixed and complete (log entry 51). -/
def JbcUnit.whole (u : JbcUnit) : Bool :=
  u.closed || u.code = 0xB4 ||
  (let pl := unescape 0 u.raw
   !pl.2 && ((u.code = 0xB0 && pl.1.length = 6) || (u.code = 0xB1 && pl.1.length = 10) || (u.code = 0xB3 && pl.1.length = 8)))

/-- One unit (R667, R677-R679, R739, R744). -/
def DecRun.unit (x : DecRun) (m : Mach) (c : Fin 16) (modeS : Bool) (u : JbcUnit) : DecRun :=
  let before := (x.used + u.skipped, x.cx)
  let x := { x with used := x.used + u.skipped + u.len }
  let pl := unescape 0 u.raw
  if x.cx.wantStream then (if u.code = 0xB0 then x.onStream modeS pl else x)
  else
    match x.cx.seq with
    -- only a new stream may follow SEND (R679)
    | none => if u.code = 0xB0 then x.onStream modeS pl else x.fail modeS 2 DecRun.toStream
    | some s =>
      let par := s.par
      if x.cx.wantPic then
        if u.code = 0xB1 then x.onPic modeS pl u.len before
        else if u.code = 0xB0 then x.onStream modeS pl
        else x
      else
        match x.pic with
        | none =>
          -- a STREAM or SEND straight after a STREAM leaves its group without a picture (R677)
          if u.code = 0xB0 && x.cx.first then x.fail modeS 2 (fun x => x.toStream.onStream modeS pl)
          else if u.code = 0xB4 && x.cx.first then x.fail modeS 2 DecRun.toStream
          else if u.code = 0xB0 then x.onStream modeS pl
          else if u.code = 0xB1 then x.onPic modeS pl u.len before
          else if u.code = 0xB4 then { x with cx := { x.cx with seq := none, ref := none } }
          else x.fail modeS 2 DecRun.toStream
        | some h =>
          let (half, refH) := x.cx.ref.getD (0, 1)
          if u.code = 0xB2 then x.onRow modeS h par (m.areaSample m.actSet c par half refH) pl u.len
          else if u.code = 0xB3 then x.onEnd modeS par s.band pl u.len
          else if u.code = 0xB0 then (x.fail modeS 2 (fun x => x.toStream.onStream modeS pl))
          else x.fail modeS 2 DecRun.toStream

/-- Takes units until a picture is complete, mode S stops, or whole units run out. Log entry 51. Log entry 106. -/
def decLoop (m : Mach) (c : Fin 16) (modeS : Bool) : Nat → List Byte → DecRun → DecRun
  | 0, _, x => x
  | fuel + 1, l, x =>
    match nextUnit l with
    | none => x
    | some u =>
      if !u.whole then x
      else
        let x := x.unit m c modeS u
        if x.stop || x.fin.isSome then x else decLoop m c modeS fuel (l.drop (u.skipped + u.len)) x

/-- Bytes waiting in a decode context's input ring. -/
def Mach.inputBytes (m : Mach) (c : Fin 16) : List Byte :=
  let size := max 1 (m.act (F.BC_CTX_IOSIZE_SIZE c))
  let rp := m.get (F.BC_CTX_RP_RP c)
  let n := (m.get (F.BC_CTX_WP_WP c) % size + size - rp % size) % size
  (List.range n).map (fun i => m.byte (lineBase + m.act (F.BC_CTX_IOBASE_OFS c) + (rp + i) % size))

/-- Advances RP of a decode context. -/
def Mach.inputTake (m : Mach) (c : Fin 16) (n : Nat) : Mach :=
  m.put (F.BC_CTX_RP_RP c) ((m.get (F.BC_CTX_RP_RP c) + n) % max 1 (m.act (F.BC_CTX_IOSIZE_SIZE c)))

/-- BC_DECODE_PICTURE_START (R722, R723). -/
def Mach.decStart (m : Mach) : Mach :=
  if !m.live || !m.is F.CLK_GATE_BC_EN || m.bc.dec.isSome then m
  else
    match (ctxOrder m.bc.decLast).find? (fun c => m.bcEn c && m.bcDec c && m.bcState c = 1 &&
        (match nextUnit (m.inputBytes c) with | some u => u.whole | none => false)) with
    | none => m
    | some c =>
      let m := m.bcSwitch c m.bc.decLast
      let m := ((m.put F.BC_STAT_DECCTX c).put F.BC_STAT_DECBUSY 1).put (F.BC_CTX_STAT_STATE c) 2
      { m with bc := { m.bc with dec := some c.val, decLast := some c.val } }

/-- Records a stream error (R744). -/
def Mach.bcError (m : Mach) (c : Fin 16) (e : Nat × Nat × Nat) : Mach :=
  let m := (m.countHold (F.BC_CTX_CNT_ERRS c) 1).put (F.BC_CTX_STAT_ERR c) e.1
  let m := (m.put (F.BC_CTX_ERR_PICNO c) e.2.1).put (F.BC_CTX_ERR_ROW c) e.2.2
  (m.putBit F.BC_ERRPEND_PEND c).pulse 7 9

/-! ### Compare-inspection (R740-R743) -/

/-- Sample of a committed line under a context's depth (R408, R409, R716). -/
def Mach.lineSample (m : Mach) (head : Fin 6) (l : RingLine) (prow depth : Nat) (x : Nat) : Nat :=
  let mid := 2 ^ (if depth = 1 then 11 else 7)
  if !l.rows.contains prow then mid
  else
    let f := l.rows.idxOf prow
    let x := min x (l.n - 1)
    let a := lineBase + m.get (F.TRG_R_BASE_BASE head) + l.slot * m.get (F.TRG_R_SLOT_SLOT head) + 64 + f * fieldBytes l.fmt l.n
    if l.fmt = 1 then
      let b := m.load (a + 3 * (x / 2)) 3
      let v := if x % 2 = 0 then b % 4096 else b / 4096
      if depth = 1 then v else v / 16
    else if l.fmt = 2 then
      let v := m.load (a + x) 1
      if depth = 1 then v * 16 else v
    else
      let v := m.load (a + 2 * x) 2
      if depth = 1 then v / 16 else v / 256

/-- Source sample of a page line; a missing line takes the line before it (R717, R741). -/
def Mach.pageSample (m : Mach) (head : Fin 6) (pg : HeadPage) (prow depth : Nat) (y x : Int) (w : Nat) : Nat :=
  let f := pg.first.getD 0
  let top : Int := match pg.last with | some l => l | none => (m.ring head).lastC.getD f
  let c := (clampInt f top ((f : Int) + y)).toNat
  let x := (clampInt 0 ((w : Int) - 1) x).toNat
  match ((m.ring head).lines.filter (fun l => f ≤ l.cseq && l.cseq ≤ c)).getLast? with
  | some l => m.lineSample head l prow depth x
  | none => 2 ^ (if depth = 1 then 11 else 7)

/-- Least sum of absolute differences of a macroblock plane over the shifts (R741). -/
def Mach.leastSad (m : Mach) (head : Fin 6) (pg : HeadPage) (hdr : StreamHdr) (pic : Picture) (y0 sh p r mb : Nat) : Nat :=
  let plane := pic.getD p []
  let h := plane.length
  let span : List Int := (List.range (2 * sh + 1)).map (fun (i : Nat) => (Int.ofNat i) - Int.ofNat sh)
  let ys := (List.range 16).filter (fun y => 16 * r + y < h)
  let xs := (List.range 16).filter (fun x => 16 * mb + x < hdr.w)
  let sad (dy dx : Int) : Nat := ys.foldl (fun (n : Nat) y => xs.foldl (fun (n : Nat) x =>
    let v := (plane.getD (16 * r + y) []).getD (16 * mb + x) 0
    let s := m.pageSample head pg (prowOf hdr.prow p) hdr.depth ((y0 + 16 * r + y : Nat) + dy) ((16 * mb + x : Nat) + dx) hdr.w
    n + (if v ≤ s then s - v else v - s)) n) 0
  let all := span.flatMap (fun dy => span.map (fun dx => sad dy dx))
  all.foldl min (all.headD 0)

/-- The page a reference page is compared with (R740). -/
def Mach.cmpTarget (m : Mach) (c : Fin 16) (x : BcCtx) : Option HeadPage :=
  let pages := (m.ring (headFin (m.act (F.BC_CTX_CMP_CMPHEAD c)))).pages
  match x.cmpPage with
  | some n => pages.find? (fun p => p.pageno = n)
  | none => pages.find? (fun p => p.first.isSome && !x.cmpSeen.contains p.pageno)

/-- The source lines that a compare of `h` lines reads are committed (R741). -/
def Mach.cmpReady (m : Mach) (c : Fin 16) (x : BcCtx) (h : Nat) : Bool :=
  if m.act (F.BC_CTX_CMP_CMPEN c) = 0 then true
  else
    match m.cmpTarget c x with
    | some pg => pg.closed || m.upTo (headFin (m.act (F.BC_CTX_CMP_CMPHEAD c)))
        (pg.first.getD 0 + x.cmpY + h + m.act (F.BC_CTX_CMP_CMPS c) - 1)
    | none => false

/-- Compares a decoded picture and writes the map (R740-R743). -/
def Mach.bcCompare (m : Mach) (c : Fin 16) (hdr : StreamHdr) (pic : Picture) (conc : List Nat) (h : Nat) (lastp : Bool) : Mach :=
  if m.act (F.BC_CTX_CMP_CMPEN c) = 0 then m
  else
    let x := m.bcCtx c
    match m.cmpTarget c x with
    | none => m
    | some pg =>
      let head := headFin (m.act (F.BC_CTX_CMP_CMPHEAD c))
      let f := pg.first.getD 0
      let wide := (m.ring head).lines.any (fun l => f ≤ l.cseq && (match pg.last with | some t => decide ((l.cseq : Int) ≤ t) | none => true) && l.n != hdr.w)
      let planes := hdr.par.planes
      let nmb := hdr.par.nmb
      let sh := m.act (F.BC_CTX_CMP_CMPS c)
      let cells := (List.range (ceilDiv h 16)).flatMap (fun r => (List.range planes).flatMap (fun p =>
        (List.range nmb).map (fun mb => (r, p, mb, if conc.contains r then none else some (m.leastSad head pg hdr pic x.cmpY sh p r mb)))))
      let m :=
        if wide then m.put (F.BC_CTX_STAT_CMPW c) 1
        else
          let flagged := (cells.filter (fun k => match k.2.2.2 with | some v => m.act (F.BC_CTX_CMP_CMPTHR c) < v | none => false)).length
          let m := m.each cells (fun (k : Nat × Nat × Nat × Option Nat) m =>
            let v := match k.2.2.2 with | some v => min 254 (v / 64) | none => 255
            let a := m.act (F.BC_CTX_MAPBASE_OFS c) + ((k.1 % 64) * planes + k.2.1) * nmb + k.2.2.1
            m.when (a < lineSize) (fun m => m.putBytes (lineBase + a) (leBytes 1 v)))
          m.put (F.BC_CTX_CMPRES_N c) flagged
      let m := m.put (F.BC_CTX_PROG_LINE c) (if lastp then f + x.cmpY + h else f + (x.cmpY + h - sh))
      m.setBcCtx c { m.bcCtx c with cmpY := if lastp then 0 else x.cmpY + h, cmpPage := if lastp then none else some pg.pageno,
                                    cmpSeen := if x.cmpPage.isSome then x.cmpSeen else (pg.pageno :: x.cmpSeen).take 64 }

/-- The decode engine leaves a context (R712, R732). -/
def Mach.decLeave (m : Mach) (c : Fin 16) (state : Nat) : Mach :=
  let m := { m with bc := { m.bc with dec := none } }
  let m := m.put F.BC_STAT_DECBUSY 0
  (if (m.bcCtx c).closing then m.bcOff c else m.put (F.BC_CTX_STAT_STATE c) state).bcRest

/-- BC_PICTURE_DONE of the decode engine (R738-R746). -/
def Mach.decDone (m : Mach) : Mach :=
  match m.bc.dec with
  | none => m
  | some k =>
    if !m.live then m
    else
      let c : Fin 16 := Fin.ofNat 16 k
      let x := m.bcCtx c
      let modeS := m.act (F.BC_CTX_CFG_DMODE c) = 1
      let bytes := m.inputBytes c
      let run := decLoop m c modeS (bytes.length + 1) bytes
        { used := 0, cx := x, errs := [], pic := none, rows := [], conc := [], bytes := 0, save := none, stop := false, fin := none }
      match run.fin, run.pic, run.cx.seq with
      | some e, some h, some s =>
        if !m.cmpReady c run.cx e.h then m
        else
          let par := s.par
          let pic := cropLines e.h (stackRows par.planes run.rows)
          let (grew, m) := m.areaStore m.actSet c par x.half pic
          let m := m.when grew (fun m => m.put (F.BC_CTX_STAT_REFOVF c) 1)
          let m := m.setBcCtx c { run.cx with ref := if grew then none else some (x.half, e.h), half := 1 - x.half, picno := h.picno }
          let m := m.each run.errs (fun e m => m.bcError c e)
          let m := m.inputTake c run.used
          let m := ((m.put (F.BC_CTX_PIC_PICNO c) h.picno).put (F.BC_CTX_PIC_TYPE c) h.ptype).put (F.BC_CTX_PIC_REQ c) h.req
          let m := ((m.put (F.BC_CTX_PIC_LASTP c) e.lastp).put (F.BC_CTX_PIC_ABORT c) e.abort).put (F.BC_CTX_PIC_CONC c) run.conc.length
          let m := (m.put (F.BC_CTX_BYTES_N c) run.bytes).put (F.BC_CTX_H_H c) e.h
          let m := m.bcCompare c s pic run.conc e.h (e.lastp = 1)
          let m := (m.decLeave c 1).put (F.BC_CTX_STAT_WAITIN c) 0
          (m.putBit F.BC_PICPEND_PEND c).pulse 7 7
      | _, _, _ =>
        if run.stop then
          let m := (m.setBcCtx c { run.cx with ref := none }).inputTake c run.used
          (m.each run.errs (fun e m => m.bcError c e)).decLeave c 3
        else
          let (used, cx, errs) := run.save.getD (run.used, run.cx, run.errs)
          let m := (m.setBcCtx c cx).inputTake c used
          (m.each errs (fun e m => m.bcError c e)).put (F.BC_CTX_STAT_WAITIN c) 1

end Sys2Proof.Machine
end

