-- ==== Sys2Proof/Machine/Ill.lean ====
section
/-!
DEFINITION. Illumination: rows, windows, dimming, boost, shaping, colour keeping, lamp heat, faults, short test and
the LCAS cascade (ch. 12).
-/
namespace Sys2Proof.Machine

/-! ## Flags and drive -/

/-- Sets a W1C flag of ILL_STAT; E7 pulses when it sets (R433). -/
def Mach.illFlag (m : Mach) (h : Fin 6) (f : Fld) : Mach :=
  if m.is f then m.put f 1 else (m.put f 1).pulseHead h 7

/-- Sets a status field of ILL_STAT; E7 pulses when it changes (R433). -/
def Mach.illStat (m : Mach) (h : Fin 6) (f : Fld) (v : Nat) : Mach :=
  if m.get f = v then m else (m.put f v).pulseHead h 7

/-- ILL may drive the lamp: EN, no safe state, the head not stopped (R430, R50, R93). -/
def Mach.lampOn (m : Mach) (h : Fin 6) : Bool :=
  m.live && m.is (F.H_ILL_CTL_EN h) && !m.is F.SHR_STATUS_SAFE && !(m.head h).tpg.stopped

/-- The beat at which a head's own actions stand: a stopped head receives no enables (R92, R93). -/
def Mach.headNow (m : Mach) (h : Fin 6) : Nat := if (m.head h).tpg.stopped then (m.head h).tpg.stopAt else m.now

/-- VINIT of a row, applied clamped (R435). -/
def Mach.vinit (m : Mach) (h : Fin 6) (r : Nat) : Nat := max 120 (min 840 (m.act (F.H_ILL_ROW_VINIT h r)))

/-- Sets every learned setpoint to VINIT (R451). -/
def Mach.vsetInit (m : Mach) (h : Fin 6) : Mach :=
  m.each [0, 1, 2, 3] (fun r m => m.put (F.H_ILL_VSET_V h r) (m.vinit h r))

/-! ## Dimming (pure) -/

/-- On-time T of a segment (R445). -/
def illOnTime (W I K : Nat) : Nat := min W ((W * I * K) / 2 ^ 26)

/-- The greatest `j ≤ n` with `T >> j ≥ 32`, 0 when none. -/
def spreadLog (T : Nat) : Nat → Nat
  | 0 => 0
  | n + 1 => if 32 ≤ T / 2 ^ (n + 1) then n + 1 else spreadLog T n

/-- Low-duty mode of a segment (R446, Q-09). -/
def illLowDuty (W T : Nat) : Bool := 256 * T < W || T < 32

/-- Number of slices (R446). -/
def illSliceCount (W T spread : Nat) : Nat :=
  if illLowDuty W T then (T + 16) / 32 else 2 ^ spreadLog T spread

/-- Slice i: its start after EXPS and its width (R446, R447). -/
def illSlice (W T spread i : Nat) : Nat × Nat :=
  let n := illSliceCount W T spread
  let a := i * W / n
  let L := (i + 1) * W / n - a
  let w := if illLowDuty W T then 32 else (i + 1) * T / n - i * T / n
  let w := min w L
  (a + (L - w) / 2, w)

/-- Every slice of a segment in its window. -/
def illSlices (W T spread : Nat) : List (Nat × Nat) :=
  (List.range (illSliceCount W T spread)).map (illSlice W T spread)

/-- Start and width of each lit slice of segment s in the open window (R429, R440, R445-R447). -/
def Mach.litSlices (m : Mach) (h : Fin 6) (s : Nat) : List (Nat × Nat) :=
  let x := (m.head h).ill
  match x.window, (m.head h).tpg.lines.getLast? with
  | some _, some l =>
    let exps := setGet l.set (F.H_TPG_FLD_EXPS_EXPS h x.winF)
    let W := setGet l.set (F.H_TPG_FLD_EXPE_EXPE h x.winF) - exps
    (illSlices W (illOnTime W (x.words.getD s 0) x.kLatched) (setGet l.set (F.H_ILL_CFG_SPREAD h))).map
      (fun y => (l.sync + exps + y.1, y.2))
  | _, _ => []

/-- Column sink s of a head conducts at beat b (R429). -/
def Mach.sinkOn (m : Mach) (h : Fin 6) (s b : Nat) : Bool :=
  m.lampOn h && !(m.head h).ill.dark && (m.litSlices h s).any (fun y => decide (y.1 ≤ b) && decide (b < y.1 + y.2))

/-- The next beat 24 of a lit slice of segment s, if the open window still has one (R463). -/
def Mach.nextProbe (m : Mach) (h : Fin 6) (s : Nat) : Option Nat :=
  ((m.litSlices h s).map (fun y => y.1 + 24)).find? (fun b => decide (m.now ≤ b))

/-- Current of column sink s at beat b, in units of 1/255 mA (R429). -/
def Mach.sinkCurrent (m : Mach) (h : Fin 6) (s b : Nat) : Nat :=
  match (m.head h).ill.window, (m.head h).tpg.lines.getLast? with
  | some r, some l => if m.sinkOn h s b then 120 * setGet l.set (F.H_ILL_ROW_CUR h r) else 0
  | _, _ => 0

/-! ## The cascade: symbols and frames (R466-R469) -/

/-- A symbol on LCAS. -/
inductive CasSym where
  | zero
  | one
  | start
  | stop
  deriving DecidableEq, Repr

/-- High time of a symbol in eighths of its cell (R466). -/
def CasSym.eighths : CasSym → Nat
  | .zero => 2
  | .one => 4
  | .start => 6
  | .stop => 7

/-- The `n` bits of a number, most significant first, as symbols. -/
def casBits (n v : Nat) : List CasSym := (List.range n).map (fun i => if v.testBit (n - 1 - i) then .one else .zero)

/-- TYPE of a frame (R468). -/
def CasFrame.type : CasFrame → Nat
  | .data _ => 1
  | .alloff => 2
  | .apply => 3
  | .on row => 4 + row % 4
  | .off => 8

/-- The payload bytes of a slot: SHARE then CHK (R468, R469). -/
def casSlotBytes (v : BitVec 48) : List Byte :=
  let b := beBytes 6 v.toNat
  b ++ [crc8 b]

/-- Payload of a frame: the slots of DATA, nothing in the others (R468). -/
def CasFrame.payload : CasFrame → List CasSym
  | .data slots => slots.flatMap (fun v => (casSlotBytes v).flatMap (fun b => casBits 8 b.toNat))
  | _ => []

/-- A frame as it goes out: S, TYPE, HOP = 0, the payload, E (R467). -/
def CasFrame.symbols (f : CasFrame) : List CasSym :=
  .start :: (casBits 4 f.type ++ casBits 5 0 ++ f.payload ++ [.stop])

/-- Cells of a frame (R467). -/
def CasFrame.cells : CasFrame → Nat
  | .data slots => 11 + 56 * slots.length
  | _ => 11

/-- The beat after a frame's last cell. -/
def CasAt.stop (x : CasAt) : Nat := x.start + x.cells * x.tb

/-- A frame holds LCAS high at beat b; the half beat of E at TB = 60 counts as high (R466; log entry 93). -/
def CasAt.high (x : CasAt) (b : Nat) : Bool :=
  x.start ≤ b && b < x.stop &&
  (match x.frame.symbols[(b - x.start) / x.tb]? with
   | some y => decide (8 * ((b - x.start) % x.tb) < y.eighths * x.tb)
   | none => false)

/-- Level of LCAS at beat b; the line idles low (R466). -/
def Mach.lcas (m : Mach) (h : Fin 6) (b : Nat) : Bool := (m.head h).ill.cas.any (fun x => x.high b)

/-! ## The cascade: what the device sends (R475-R478) -/

/-- Cell time TB in beats that CASTB names (R434). -/
def casTBOf (code : Nat) : Nat := 60 * 2 ^ code
def Mach.casTB (m : Mach) (h : Fin 6) : Nat := casTBOf (m.act (F.H_ILL_CFG_CASTB h))

/-- The beat at which LCAS can start another frame (R475, R478). -/
def Mach.casFree (m : Mach) (h : Fin 6) : Nat := (m.head h).ill.cas.foldl (fun t x => max t x.stop) m.now

/-- Puts a frame on LCAS from beat `t`; frames that are over leave the list. -/
def Mach.casStart (m : Mach) (h : Fin 6) (f : CasFrame) (t tb : Nat) : Mach :=
  let x := (m.head h).ill
  m.setIll h { x with cas := x.cas.filter (fun y => decide (m.now < y.stop)) ++ [⟨f, t, tb, f.cells⟩] }

/-- Sends a frame as soon as it can; in the safe state LCAS idles, and a stopped head sends nothing (R50, R93, R476, R478). -/
def Mach.casSend (m : Mach) (h : Fin 6) (f : CasFrame) : Mach :=
  if m.is F.SHR_STATUS_SAFE || (m.head h).tpg.stopped then m else m.casStart h f (m.casFree h) (m.casTB h)

/-- ALLOFF for the safe state or a reset: the cell in progress ends first, and no other frame follows; a DATA frame that has not
ended is given up (R143, R926; log entry 94). -/
def Mach.casAllOff (m : Mach) (h : Fin 6) : Mach :=
  let x := (m.head h).ill
  let cut := (x.cas.filter (fun y => decide (y.start < m.now) && decide (m.now < y.stop))).map (fun y =>
    { y with cells := ceilDiv (m.now - y.start) y.tb })
  let m := m.setIll h { x with cas := cut, casReq := none, casEnd := none }
  (m.put (F.H_ILL_CTL_CASGO h) 0).casStart h .alloff (m.casFree h) (m.casTB h)

/-- LCAS goes low at once (R143). Log entry 94. -/
def Mach.casLow (m : Mach) (h : Fin 6) : Mach :=
  m.setIll h { (m.head h).ill with cas := [], casReq := none, casEnd := none }

/-- The running line's context, if field f is one of its fields. -/
def Mach.runField (m : Mach) (h : Fin 6) (f : Nat) : Option LineCtx :=
  match (m.head h).tpg.lines.getLast? with
  | some l => if l.active && f ≤ setGet l.set (F.H_TPG_FIELDS_NFLD h) then some l else none
  | none => none

/-- Field f of a line has a lit window (R428). -/
def LineCtx.lit (l : LineCtx) (h : Fin 6) (f : Nat) : Bool :=
  setGet l.set (F.H_TPG_FLD_EXPS_EXPS h f) < setGet l.set (F.H_TPG_FLD_EXPE_EXPE h f)

/-- Beat at which the ON (true) or OFF frame of field f aims (R475). -/
def LineCtx.casAim (l : LineCtx) (h : Fin 6) (f : Nat) (on : Bool) : Nat :=
  l.sync + (if on then setGet l.set (F.H_TPG_FLD_EXPS_EXPS h f) else setGet l.set (F.H_TPG_FLD_EXPE_EXPE h f))

/-- Marks go out for the running line (R430, R475). -/
def Mach.casOn (m : Mach) (h : Fin 6) (l : LineCtx) : Bool :=
  m.lampOn h && !(m.head h).ill.dark && setGet l.set (F.H_ILL_CFG_CASEN h) = 1

/-- Beats at which the aligned frames still to come in the running line would start if nothing delayed them (R475, R477). -/
def Mach.casAims (m : Mach) (h : Fin 6) : List Nat :=
  match m.runField h 0 with
  | none => []
  | some l =>
    if !m.casOn h l then []
    else
      let tb := casTBOf (setGet l.set (F.H_ILL_CFG_CASTB h))
      let marks := (List.range (setGet l.set (F.H_TPG_FIELDS_NFLD h) + 1)).flatMap (fun f =>
        if l.lit h f then [(l.casAim h f true, true), (l.casAim h f false, false)] else [])
      (marks.filter (fun k => !(m.head h).ill.casMarks.contains k)).map (fun k => max l.sync (k.1 - 74 * tb))

/-- First beat from `t` at which `len` beats fit before the next of the aligned frames, each `alen` long and started as soon as
it can (R475, R477). -/
def casFit (len alen : Nat) : Nat → List Nat → Nat
  | t, [] => t
  | t, a :: rest => if t + len ≤ a then t else casFit len alen (max t a + alen) rest

/-- The 48 share bits of chip c as ILL_CAS holds them. -/
def Mach.casRaw (m : Mach) (h : Fin 6) (c : Nat) : BitVec 48 :=
  BitVec.ofNat 48 (m.get (F.H_ILL_CASL_SHARE h c) + 2 ^ 32 * m.get (F.H_ILL_CASH_SHARE h c))

/-- A share with each row scaled by its K (R477). -/
def Mach.casScale (m : Mach) (h : Fin 6) (v : BitVec 48) : BitVec 48 :=
  let row (r : Nat) : Nat := min 4095 (bits v.toNat (47 - 12 * r) (36 - 12 * r) * m.get (F.H_ILL_K_K h r) / 2 ^ 14)
  BitVec.ofNat 48 (row 0 * 2 ^ 36 + row 1 * 2 ^ 24 + row 2 * 2 ^ 12 + row 3)

/-- ILL_CASGO: CASGO = 1 takes CASN + 1 shares for a DATA frame; while it still reads 1 the write is ignored (R17, R477). -/
def Mach.casGo (m : Mach) (h : Fin 6) : Mach :=
  if m.is (F.H_ILL_CTL_CASGO h) then m
  else
    let req := (List.range (m.get (F.H_ILL_CTL_CASN h) + 1)).map (m.casRaw h)
    (m.put (F.H_ILL_CTL_CASGO h) 1).setIll h { (m.head h).ill with casReq := some req }

/-- CASCADE_DATA_SEND: the requested DATA frame starts, or the one in progress ends, CASGO clears and ILL_CAS pulses (R477). -/
def Mach.casData (m : Mach) (h : Fin 6) : Mach :=
  if m.is F.SHR_STATUS_SAFE || (m.head h).tpg.stopped then m
  else match (m.head h).ill.casEnd, (m.head h).ill.casReq with
  | some e, _ =>
    let m := m.runTo e
    ((m.setIll h { (m.head h).ill with casEnd := none }).put (F.H_ILL_CTL_CASGO h) 0).pulseHead h 8
  | none, some req =>
    let tb := m.casTB h
    let len := (11 + 56 * req.length) * tb
    let m := m.runTo (casFit len (11 * tb) (m.casFree h) (m.casAims h))
    let m := m.setIll h { (m.head h).ill with casReq := none, casEnd := some (m.now + len) }
    m.casStart h (.data (req.map (m.casScale h))) m.now tb
  | none, none => m

/-- The ON (true) or OFF frame of field f of the running line (R475). -/
def Mach.casAligned (m : Mach) (h : Fin 6) (f : Nat) (on : Bool) : Mach :=
  match m.runField h f with
  | none => m
  | some l =>
    let aim := l.casAim h f on
    if !m.casOn h l || !l.lit h f || (m.head h).ill.casMarks.contains (aim, on) then m
    else
      let tb := casTBOf (setGet l.set (F.H_ILL_CFG_CASTB h))
      let busy := (m.head h).ill.cas.foldl (fun t x => max t x.stop) 0
      let t := max (max l.sync busy) (aim - 74 * tb)
      let m := if aim < t + 74 * tb then m.illFlag h (F.H_ILL_STAT_CASLATE h) else m
      let m := m.runTo t
      let m := m.setIll h { (m.head h).ill with casMarks := ((aim, on) :: (m.head h).ill.casMarks).take 16 }
      m.casStart h (if on then .on (setGet l.set (F.H_TPG_FLD_EXPE_ROW h f)) else .off) (max t m.now) tb

/-- CASCADE_MARK: an ON or OFF frame goes out, or the APPLY that follows a swap starts (R475, R476). -/
def Mach.casMark (m : Mach) (h : Fin 6) (k : CasMark) : Mach :=
  match k with
  | .on f => m.casAligned h f true
  | .off f => m.casAligned h f false
  | .apply =>
    match (m.head h).ill.cas.find? (fun x => x.frame = .apply) with
    | some x => m.runTo x.start
    | none => m

/-! ## Frame memory -/

/-- A swap: the inactive frame becomes active and stays in the inactive buffer; ILL_FRAME; APPLY (R439, R476).
Log entry 87. -/
def Mach.illSwap (m : Mach) (h : Fin 6) : Mach :=
  let m := m.each (List.range 64) (fun x m => m.put (F.H_ILL_FRMA_I h x) (m.get (F.H_ILL_FRMW_I h x)))
  let m := m.put (F.H_ILL_CTL_SWAP h) 0
  let m := m.setIll h { (m.head h).ill with frameNew := true }
  let m := m.pulseHead h 6
  if m.act (F.H_ILL_CFG_CASEN h) = 1 then m.casSend h .apply else m

/-- A swap point of source `src` falls; a stopped head takes none (R93, R438, R444). -/
def Mach.illSwapPoint (m : Mach) (h : Fin 6) (src : Nat) : Mach :=
  if m.is (F.H_ILL_CTL_SWAP h) && m.act (F.H_ILL_CFG_SWSRC h) = src && decide ((m.head h).ill.armAt < m.now) &&
     !(m.head h).tpg.stopped then m.illSwap h
  else m

/-- ILL_SWAP: arms a swap (R438). -/
def Mach.illArm (m : Mach) (h : Fin 6) : Mach :=
  if m.is (F.H_ILL_CTL_SWAP h) then m
  else (m.put (F.H_ILL_CTL_SWAP h) 1).setIll h { (m.head h).ill with armAt := m.now }

/-- ILL_SWCAN (R443). -/
def Mach.illSwcan (m : Mach) (h : Fin 6) : Mach := m.put (F.H_ILL_CTL_SWAP h) 0

/-- ILL_FRMW_WRITE (R437). -/
def Mach.illFrmw (m : Mach) (h : Fin 6) (x v : Nat) : Mach :=
  if m.is (F.H_ILL_CTL_SWAP h) then m.illFlag h (F.H_ILL_STAT_FDROP h)
  else if x < 64 then m.put (F.H_ILL_FRMW_I h x) v else m

/-! ## Enable, boost and windows -/

/-- Opens the rows and stops the boost. -/
def Mach.illDark (m : Mach) (h : Fin 6) : Mach :=
  m.setIll h { (m.head h).ill with rowClosed := none, window := none, boost := false }

/-- ILL_EN: EN written 1 or 0 (R430, R450, R451, R453, R464, R478). -/
def Mach.illEn (m : Mach) (h : Fin 6) (on : Bool) : Mach :=
  let was := m.is (F.H_ILL_CTL_EN h)
  if on then
    if m.is (F.H_ILL_STAT_STBUSY h) then m.setIll h { (m.head h).ill with enHeld := true }
    else if was then m
    else
      let m := (m.put (F.H_ILL_CTL_EN h) 1).vsetInit h
      let m := m.illStat h (F.H_ILL_STAT_BRDY h) 0
      m.setIll h { (m.head h).ill with boost := true, boostHigh := false, target := m.act (F.H_TPG_FLD_EXPE_ROW h 0) }
  else
    let m := m.setIll h { (m.head h).ill with enHeld := false }
    let m := (m.put (F.H_ILL_CTL_EN h) 0).illDark h
    if was then m.casSend h .alloff else m

/-- The next beat at which a boost period of the head begins (R449). -/
def Mach.boostGrid (m : Mach) (h : Fin 6) : Nat := nextGrid 2000 (m.now + 2000 * 2000 - 333 * h) + 333 * h - 2000 * 2000

/-- BOOST_PERIOD: a period begins on the grid of R449; `near` says BFB is within 2 % of target, `cool` that the
output is below 42.00 V, `on` the regulator's on-time, `cut` the beats after which V(BCS) exceeds 200 mV, if it does
(R449, R450, R453, R463). -/
def Mach.boostPeriod (m : Mach) (h : Fin 6) (near cool : Bool) (on : Nat) (cut : Option Nat) : Mach :=
  let m := m.runTo (m.boostGrid h)
  let x := (m.head h).ill
  if m.lampOn h && x.boost then
    let high := x.boostHigh && !cool
    let m := m.setIll h { x with boostHigh := high, onTime := if high then 0 else min (max 300 (min 1800 on)) (cut.getD 1800) }
    if near then m.illStat h (F.H_ILL_STAT_BRDY h) 1 else m
  else m.setIll h { x with onTime := 0 }

/-- Row of the field after f, ROW_0 after the last (R450). -/
def nextRow (set : Sparse 32) (h : Fin 6) (f : Nat) : Nat :=
  if f < setGet set (F.H_TPG_FIELDS_NFLD h) then setGet set (F.H_TPG_FLD_EXPE_ROW h (f + 1))
  else setGet set (F.H_TPG_FLD_EXPE_ROW h 0)

/-- ROW_CLOSE (R428). -/
def Mach.rowClose (m : Mach) (h : Fin 6) (f : Nat) : Mach :=
  match m.runField h f with
  | none => m
  | some l =>
    let exps := setGet l.set (F.H_TPG_FLD_EXPS_EXPS h f)
    let expe := setGet l.set (F.H_TPG_FLD_EXPE_EXPE h f)
    let prev := if f = 0 then 0 else setGet l.set (F.H_TPG_FLD_EXPE_EXPE h (f - 1)) + 64
    let m := m.runTo (l.sync + max (exps - 96) prev)
    if exps < expe && m.lampOn h && !(m.head h).ill.dark then
      m.setIll h { (m.head h).ill with rowClosed := some (setGet l.set (F.H_TPG_FLD_EXPE_ROW h f)) }
    else m

/-- Replaces the newest line's context. -/
def Mach.setLastLine (m : Mach) (h : Fin 6) (g : LineCtx → LineCtx) : Mach :=
  let t := (m.head h).tpg
  m.setTpg h { t with lines := match t.lines.reverse with | l :: r => (g l :: r).reverse | [] => [] }

/-- EXPOSURE_START: the window latches its words and K; `low` says BFB is more than 2 % below target
(R440, R441, R445, R453). -/
def Mach.exposureStart (m : Mach) (h : Fin 6) (f : Nat) (low : Bool) : Mach :=
  match m.runField h f with
  | none => m
  | some l =>
    let exps := setGet l.set (F.H_TPG_FLD_EXPS_EXPS h f)
    let expe := setGet l.set (F.H_TPG_FLD_EXPE_EXPE h f)
    let row := setGet l.set (F.H_TPG_FLD_EXPE_ROW h f)
    let m := m.runTo (l.sync + exps)
    if exps < expe && m.lampOn h && !(m.head h).ill.dark then
      let x := (m.head h).ill
      let m := if x.frameNew then m.setLastLine h (fun l => { l with frame := true }) else m
      let m := m.setIll h { x with frameNew := false, window := some row, winF := f, fltWin := false,
                                   words := (List.range 16).map (fun s => m.get (F.H_ILL_FRMA_I h (16 * row + s))),
                                   kLatched := m.get (F.H_ILL_K_K h row) }
      if low then m.illFlag h (F.H_ILL_STAT_BLOW h) else m
    else m

/-- EXPOSURE_END: row opens, the setpoint learns from `least`, the least valid sample of the window in mV
(R428, R450, R452). -/
def Mach.exposureEnd (m : Mach) (h : Fin 6) (f : Nat) (least : Option Nat) : Mach :=
  match m.runField h f with
  | none => m
  | some l =>
    let m := m.runTo (l.sync + setGet l.set (F.H_TPG_FLD_EXPE_EXPE h f))
    let x := (m.head h).ill
    let row := setGet l.set (F.H_TPG_FLD_EXPE_ROW h f)
    let m := m.setIll h { x with window := none, rowClosed := none, target := nextRow l.set h f }
    match x.window, least with
    | some _, some mv =>
      let d := clampInt (-20) 20 (roundDiv (10 * (setGet l.set (F.H_ILL_CFG_HR h) : Int) - mv) 50)
      m.put (F.H_ILL_VSET_V h row) (clampInt 120 840 ((m.get (F.H_ILL_VSET_V h row) : Int) + d)).toNat
    | _, _ => m

/-! ## Shaping (R455) -/

/-- WPROF of plane p, segment s, signed 17-bit (R422). -/
def Mach.wprof (m : Mach) (h : Fin 6) (p s : Nat) : Int := sext 17 (m.get (F.H_SHD_WPROF_W h (16 * p + s)))

/-- ILL_SHAPE (R455). -/
def Mach.illShape (m : Mach) (h : Fin 6) : Mach :=
  if m.is (F.H_ILL_CTL_SWAP h) then m.illFlag h (F.H_ILL_STAT_SHREF h)
  else (m.put (F.H_ILL_CTL_SHAPE h) 1).setIll h { (m.head h).ill with shEnd := some (m.headNow h + 1024) }

/-- One shaped plane: its words and how many clamped. -/
def Mach.shapePlane (m : Mach) (h : Fin 6) (p : Nat) : List Nat × Nat :=
  let vals := ((List.range 16).map (m.wprof h p)).filter (fun v => 0 < v)
  let a (s : Nat) : Nat := m.get (F.H_ILL_FRMA_I h (16 * p + s))
  if vals = [] then ((List.range 16).map a, 0)
  else
    let sum := vals.foldl (· + ·) 0
    let least := vals.foldl min (vals.headD 0)
    let useMin := m.is (F.H_ILL_CTL_SHMODE h)
    -- round(A * T / W) with T the mean (a fraction of the count) or the least value
    let raw (s : Nat) : Int :=
      let w := m.wprof h p s
      if useMin then roundDiv ((a s : Int) * least) w.toNat
      else roundDiv ((a s : Int) * sum) (w.toNat * vals.length)
    let word (s : Nat) : Nat := if 0 < m.wprof h p s then (clampInt 0 4095 (raw s)).toNat else a s
    ((List.range 16).map word,
     ((List.range 16).filter (fun s => decide (0 < m.wprof h p s) && decide (4095 < raw s))).length)

/-- SHAPE_DONE: the inactive frame takes the shaped words (R455). -/
def Mach.shapeDone (m : Mach) (h : Fin 6) : Mach :=
  match (m.head h).ill.shEnd with
  | none => m
  | some _ =>
    if (m.head h).tpg.stopped then m else
    let m := m.setIll h { (m.head h).ill with shEnd := none }
    let pl := (List.range 4).map (m.shapePlane h)
    let words := (pl.map (fun q => q.1)).flatten
    let m := m.each (List.range 64) (fun x m => m.put (F.H_ILL_FRMW_I h x) (words.getD x 0))
    let m := m.put (F.H_ILL_SHCLIP_N h) ((pl.map (fun q => q.2)).foldl (· + ·) 0)
    (m.put (F.H_ILL_CTL_SHAPE h) 0).illFlag h (F.H_ILL_STAT_SHDONE h)

/-! ## Colour keeping and heat -/

/-- Sets K_r, clamped to KMIN-KMAX; a clamp sets KLIM (R436, R456). Log entry 87. -/
def Mach.setK (m : Mach) (h : Fin 6) (r : Nat) (v : Int) : Mach :=
  let lo : Int := max 0x1000 (m.act (F.H_ILL_KLIM_KMIN h))
  let hi : Int := m.act (F.H_ILL_KLIM_KMAX h)
  let c := clampInt lo hi v
  let m := m.put (F.H_ILL_K_K h r) c.toNat
  if c = v then m else m.illFlag h (F.H_ILL_STAT_KLIM h)

/-- KMODE of a row; 3 acts as 0 (R436). -/
def Mach.kmode (m : Mach) (h : Fin 6) (r : Nat) : Nat :=
  let k := m.act (F.H_ILL_ROW_KMODE h r)
  if k = 3 then 0 else k

/-- A temperature of the aux block in 1/16 degree, `none` when stale or never produced (R459, R460). -/
def Mach.auxTemp (m : Mach) (conv ent : Nat) : Option Int :=
  if m.is (F.AUX_RES_STALE conv ent) then none else some (sext 16 (m.get (F.AUX_RES_VAL conv ent)))

/-- T_t of R457. -/
def Mach.illTt (m : Mach) (h : Fin 6) : Option Int :=
  if m.act (F.H_ILL_SENS_TEN h) = 0 then none
  else m.auxTemp (m.act (F.H_ILL_SENS_TCONV h)) (m.act (F.H_ILL_SENS_TENT h))

/-- T_h of R460. -/
def Mach.illTh (m : Mach) (h : Fin 6) : Option Int :=
  if m.act (F.H_ILL_SENS_HEN h) = 0 then none
  else m.auxTemp (m.act (F.H_ILL_SENS_HCONV h)) (m.act (F.H_ILL_SENS_HENT h))

/-- TSTALE follows the selected result (R459). -/
def Mach.illTstale (m : Mach) (h : Fin 6) : Mach :=
  if (m.head h).tpg.stopped then m else m.illStat h (F.H_ILL_STAT_TSTALE h) (b2n (m.illTt h).isNone)

/-- REEFREQ and HOTCUT follow T_h, unless the head has stopped (R93, R460, R461, R478). Log entry 87. -/
def Mach.illHeat (m : Mach) (h : Fin 6) : Mach :=
  if (m.head h).tpg.stopped then m else
  match m.illTh h with
  | none => if m.act (F.H_ILL_SENS_HEN h) = 0 then m.illStat h (F.H_ILL_STAT_REEFREQ h) 0 else m
  | some t =>
    let start : Int := 16 * (m.act (F.H_ILL_DRT_DSTART h) : Int)
    let step : Nat := 16 * max 1 (m.act (F.H_ILL_DRT_DSTEP h))
    let cut : Int := 16 * (m.act (F.H_ILL_DRT_DCUT h) : Int)
    if cut ≤ t then
      let was := m.is (F.H_ILL_STAT_HOTCUT h)
      let m := (m.illStat h (F.H_ILL_STAT_HOTCUT h) 1).illStat h (F.H_ILL_STAT_REEFREQ h) 15
      if was then m else m.casSend h .alloff
    else m.illStat h (F.H_ILL_STAT_REEFREQ h)
      (if t < start then 0 else (min 15 (1 + floorDiv (t - start) step)).toNat)

/-- What ILL does at a line sync: K of KMODE 1, the heat cut (R457, R459, R461). -/
def Mach.illLineSync (m : Mach) (h : Fin 6) : Mach :=
  let m := m.illTstale h
  let m := m.each [0, 1, 2, 3] (fun r m =>
    if m.kmode h r = 1 then
      match m.illTt h with
      | some t => m.setK h r (0x4000 + floorDiv (sext 16 (m.act (F.H_ILL_KT_ALPHA h r)) * (t - sext 16 (m.act (F.H_ILL_KT_T0 h r)))) (2 ^ 12))
      | none => m
    else m)
  let m := match m.illTh h with
    | some t =>
      if m.is (F.H_ILL_STAT_HOTCUT h) && decide (t < 16 * ((m.act (F.H_ILL_DRT_DCUT h) : Int) - 2)) then
        m.illStat h (F.H_ILL_STAT_HOTCUT h) 0
      else m
    | none => m
  m.setIll h { (m.head h).ill with dark := m.is (F.H_ILL_STAT_HOTCUT h) }

/-- The light loop of KMODE 2 on a witness mean (R458). -/
def Mach.illWitness (m : Mach) (h : Fin 6) (row : Nat) (mean : Int) : Mach :=
  if m.kmode h row = 2 then
    m.setK h row ((m.get (F.H_ILL_K_K h row) : Int) +
      floorDiv (((m.act (F.H_ILL_KL_WREF h row) : Int) - mean) * m.act (F.H_ILL_KL_LGAIN h row)) (2 ^ 12))
  else m

/-- What a commit changes in ILL: VINIT, KMODE (R451, R456); `old` is the set before. -/
def Mach.illCommit (m : Mach) (h : Fin 6) (old : Sparse 32) : Mach :=
  let m := m.each [0, 1, 2, 3] (fun r m =>
    let m := if setGet old (F.H_ILL_ROW_VINIT h r) = m.act (F.H_ILL_ROW_VINIT h r) then m
             else m.put (F.H_ILL_VSET_V h r) (m.vinit h r)
    m.setK h r (if setGet old (F.H_ILL_ROW_KMODE h r) = m.act (F.H_ILL_ROW_KMODE h r) && m.kmode h r != 0 then
                  m.get (F.H_ILL_K_K h r) else 0x4000))
  (m.illTstale h).illHeat h

/-! ## Faults and the short test -/

/-- ILL_FLT latches the first failure since the record was cleared; KIND 4 replaces the KIND 1 of its window (R463).
Log entry 13. -/
def Mach.illFlt (m : Mach) (h : Fin 6) (kind row seg : Nat) : Mach :=
  let x := (m.head h).ill
  if !m.is (F.H_ILL_FLT_VALID h) || (kind = 4 && x.fltWin) then
    let m := m.setIll h { x with fltWin := kind = 1 }
    (((m.put (F.H_ILL_FLT_VALID h) 1).put (F.H_ILL_FLT_KIND h) kind).put (F.H_ILL_FLT_ROW h) row).put (F.H_ILL_FLT_SEG h) seg
  else m

/-- ILL_STEST (R464). Log entry 87. -/
def Mach.illStest (m : Mach) (h : Fin 6) : Mach :=
  if m.is (F.H_ILL_CTL_EN h) || m.is (F.H_ILL_STAT_STBUSY h) then m.illFlag h (F.H_ILL_STAT_STREF h)
  else
    let m := (m.put (F.H_ILL_CTL_STEST h) 1).put (F.H_ILL_STAT_STBUSY h) 1
    m.setIll h { (m.head h).ill with stEnd := some (m.headNow h + 570000) }

/-- SHORT_TEST_DONE with the pairs found shorted (R464, R465). -/
def Mach.shortTestDone (m : Mach) (h : Fin 6) (pairs : Nat) : Mach :=
  match (m.head h).ill.stEnd with
  | none => m
  | some due =>
    if (m.head h).tpg.stopped then m else
    let m := m.runTo due
    let held := (m.head h).ill.enHeld
    let m := m.setIll h { (m.head h).ill with stEnd := none, enHeld := false }
    let m := ((m.put (F.H_ILL_SHORT_PAIRS h) pairs).put (F.H_ILL_STAT_STBUSY h) 0).put (F.H_ILL_CTL_STEST h) 0
    let m := m.illFlag h (F.H_ILL_STAT_STDONE h)
    if held then m.illEn h true else m

end Sys2Proof.Machine
end

