-- ==== Sys2Proof/Machine/Shd.lean ====
section
/-!
DEFINITION. Shading: the port of the coefficient memory and the reference runs (ch. 11).
-/
namespace Sys2Proof.Machine

/-! ## The port -/

/-- INDEX lies in the range of AREA (R415). -/
def Mach.shdInRange (m : Mach) (h : Fin 6) : Bool :=
  m.get (F.H_SHD_PADDR_INDEX h) < (if m.get (F.H_SHD_PADDR_AREA h) = 0 then 16400 else 4096)

/-- A bank that writes must not touch: in use, or the target of a run in progress (R416, R417). -/
def Mach.shdLocked (m : Mach) (h : Fin 6) (bank : Nat) : Bool :=
  bank = m.get (F.H_SHD_STAT_ACTBANK h) ||
  (m.get (F.H_SHD_STAT_REFST h) = 1 && bank = (m.head h).shd.runBank)

/-- INDEX advances (R415). -/
def Mach.shdAdvance (m : Mach) (h : Fin 6) : Mach := m.countMod (F.H_SHD_PADDR_INDEX h) 1

/-- SHD_PDATA_WRITE (R415, R416).  The pixels due are written first: they take the entry as it was. -/
def Mach.shdWrite (m : Mach) (h : Fin 6) (v : Word) : Mach :=
  let m := m.catchHead h
  let bank := m.get (F.H_SHD_PADDR_BANK h)
  let i := m.get (F.H_SHD_PADDR_INDEX h)
  let x := (m.head h).shd
  let m := if !m.shdInRange h || m.shdLocked h bank then m.put (F.H_SHD_STAT_PDROP h) 1
    else if m.get (F.H_SHD_PADDR_AREA h) = 0 then m.setShd h (x.setCoef bank (m.get (F.H_SHD_PADDR_PLANE h)) i v)
    else m.setShd h (x.setLut bank i (v.truncate 8))
  m.shdAdvance h

/-- The addressed item lies in an uncorrectable word (R403). -/
def Mach.shdPortBad (m : Mach) (h : Fin 6) : Bool :=
  let bank := m.get (F.H_SHD_PADDR_BANK h)
  let i := m.get (F.H_SHD_PADDR_INDEX h)
  let x := (m.head h).shd
  m.shdInRange h &&
    (if m.get (F.H_SHD_PADDR_AREA h) = 0 then x.coefBad bank (m.get (F.H_SHD_PADDR_PLANE h)) i else x.lutBad bank i)

/-- The word that a read of H{n}_SHD_PDATA returns from a sound word of the memory (R415, R416). -/
def Mach.shdReadWord (m : Mach) (h : Fin 6) : Word :=
  let bank := m.get (F.H_SHD_PADDR_BANK h)
  let i := m.get (F.H_SHD_PADDR_INDEX h)
  if !m.shdInRange h then 0
  else if m.get (F.H_SHD_PADDR_AREA h) = 0 then (m.head h).shd.coefAt bank (m.get (F.H_SHD_PADDR_PLANE h)) i
  else ((m.head h).shd.lutAt bank i).zeroExtend 32

/-- A read of H{n}_SHD_PDATA: the word, and the machine after it; an uncorrectable word gives a free value (R403, R415, R416). -/
def Mach.shdRead (m : Mach) (h : Fin 6) : Word × Mach :=
  let (v, m) := if m.shdPortBad h then
      let (x, m) := m.fresh (if m.get (F.H_SHD_PADDR_AREA h) = 0 then 32 else 8)
      (BitVec.ofNat 32 x, m)
    else (m.shdReadWord h, m)
  (v, (if m.shdInRange h then m else m.put (F.H_SHD_STAT_PDROP h) 1).shdAdvance h)

/-- SHD_BLEN_WRITE (R417). -/
def Mach.shdBlen (m : Mach) (h : Fin 6) (bank v : Nat) : Mach :=
  if m.shdLocked h bank then m.put (F.H_SHD_STAT_PDROP h) 1 else m.put (F.H_SHD_BLEN_LEN h bank) v

/-! ## Reference runs -/

/-- REFST and REFWHY; SHD_REF pulses (R418, R424). -/
def Mach.shdRefEnd (m : Mach) (h : Fin 6) (st why : Nat) : Mach :=
  let x := (m.head h).shd
  let m := m.setShd h { x with runLeft := none, runToStart := 0, runWait := false, lost := false }
  (((m.put (F.H_SHD_STAT_REFST h) st).put (F.H_SHD_STAT_REFWHY h) why).put (F.H_SHD_REF_GO h) 0).pulseHead h 5

/-- No line of the head belongs to a run. -/
def TpgSt.noRun (t : TpgSt) : TpgSt := { t with lines := t.lines.map (fun l => { l with refRun := false }) }

/-- Aborts a run that has started; one that the clock's stop met waits for the clock (R423).  REFCLIP keeps the count of the last
run that completed (log entry 98). Log entry 21. -/
def Mach.shdRefAbort (m : Mach) (h : Fin 6) : Mach :=
  let x := (m.head h).shd
  if x.runLeft.isSome && !x.lost then
    let m := m.setTpg h (m.head h).tpg.noRun
    (m.put (F.H_SHD_BLEN_LEN h x.runBank) 0).shdRefEnd h 4 7
  else m

/-- The clock stops during a run (R423). -/
def Mach.shdRefLost (m : Mach) (h : Fin 6) : Mach :=
  let x := (m.head h).shd
  if x.runLeft.isSome then (m.setTpg h (m.head h).tpg.noRun).setShd h { x with lost := true } else m

/-- The clock has returned: the abort that its stop made due (R423). -/
def Mach.shdRefBack (m : Mach) (h : Fin 6) : Mach := (m.setShd h { (m.head h).shd with lost := false }).shdRefAbort h

/-- GO is applied with its fields (R418, R419).  GO = 1 written while GO reads 1 has no effect, and of several reasons the lowest shows
(log entry 98). Log entry 22. -/
def Mach.shdRefGo (m : Mach) (h : Fin 6) (kind tbank k : Nat) : Mach :=
  let m := ((m.put (F.H_SHD_REF_KIND h) kind).put (F.H_SHD_REF_TBANK h) tbank).put (F.H_SHD_REF_K h) k
  if m.is (F.H_SHD_REF_GO h) then m
  else
    if !m.is (F.H_TPG_CTL_RUN h) || m.is (F.H_TPG_STAT_PATERR h) then m.shdRefEnd h 3 1
    else if m.is (F.H_VADC_CTL_SWEEP h) || m.is (F.H_VADC_CTL_CAL h) then m.shdRefEnd h 3 2
    else if 8 < k then m.shdRefEnd h 3 6
    else
      let m := ((m.put (F.H_SHD_REF_GO h) 1).put (F.H_SHD_STAT_REFST h) 1).put (F.H_SHD_STAT_REFWHY h) 0
      m.setShd h { (m.head h).shd with runWait := true, runLeft := none, runKind := kind, runBank := tbank, runK := k }

/-- Two fields of the active set share a ROW (REFWHY 0x4). -/
def Mach.rowsShared (m : Mach) (h : Fin 6) : Bool :=
  let rows := (List.range (m.act (F.H_TPG_FIELDS_NFLD h) + 1)).map (fun f => m.act (F.H_TPG_FLD_EXPE_ROW h f))
  (List.range rows.length).any (fun i => (rows.drop (i + 1)).contains (rows.getD i 0))

/-- What the run does at a line sync, after any commit (R419, R420): whether the line belongs to it.  Of several reasons the lowest
shows (log entry 98). Log entry 22. -/
def Mach.shdLineSync (m : Mach) (h : Fin 6) : Bool × Mach :=
  let x := (m.head h).shd
  if x.runWait then
    if x.runBank = m.get (F.H_SHD_STAT_ACTBANK h) then (false, m.shdRefEnd h 3 3)
    else if m.rowsShared h then (false, m.shdRefEnd h 3 4)
    else if x.runKind = 1 && m.get (F.H_SHD_BLEN_LEN h x.runBank) != m.act (F.H_TPG_LINE_NPIX h) then
      (false, m.shdRefEnd h 3 5)
    else
      (true, m.setShd h { x with runWait := false, runLeft := some (2 ^ x.runK), runToStart := 2 ^ x.runK - 1,
                                 acc := [], refClip := 0, wtarget := m.get (F.H_SHD_REFTGT_WTARGET h),
                                 bad := x.bad.filter (· < 66624), runSet := m.actSet })
  else if 0 < x.runToStart then (true, m.setShd h { x with runToStart := x.runToStart - 1 })
  else (false, m)

/-- Accumulates one line of the run (R420, R422). -/
def ShdSt.accumulate (x : ShdSt) (set : Sparse 32) (h : Fin 6) (fields : List FieldOut) : ShdSt :=
  let x := (List.range fields.length).foldl (fun x f =>
    let raw := ((fields.map (·.raw)).getD f [])
    let plane := setGet set (F.H_TPG_FLD_EXPE_ROW h f)
    (List.range raw.length).foldl (fun x i => x.setAcc plane i (x.accAt plane i + raw.getD i 0)) x) x
  { x with refClip := x.refClip + (fields.map (·.ovr)).foldl (· + ·) 0, runLeft := x.runLeft.map (· - 1) }

/-- The average W of an entry (R421). -/
def shdAverage (S K : Nat) : Nat := if K = 0 then 4 * S else (4 * S + 2 ^ (K - 1)) / 2 ^ K

/-- GAIN of a white run from D (R421). -/
def shdGain (wtarget : Nat) (D : Int) : Nat :=
  if D ≤ 0 then 0 else min 0xFFFF (roundDiv ((wtarget : Int) * 2 ^ 14) D.toNat).toNat

/-- Writes one plane of the target bank (R421). -/
def ShdSt.writePlane (x : ShdSt) (npix p : Nat) : ShdSt :=
  (List.range (npix + 16)).foldl (fun x i =>
    let w := x.coefAt x.runBank p i
    let W := shdAverage (x.accAt p i) x.runK
    if x.runKind = 0 then
      x.setCoef x.runBank p i (BitVec.ofNat 32 (coefGain w * 65536 + min W 32767))
    else
      x.setCoef x.runBank p i (BitVec.ofNat 32 (shdGain x.wtarget (W - coefBlack w) * 65536 + bits w.toNat 15 0))) x

/-- Mean of D over a segment's image pixels, toward minus infinity (R422). -/
def ShdSt.segMean (x : ShdSt) (npix p s : Nat) : Int :=
  let px := (List.range npix).filter (fun i => 16 * i / npix = s)
  let sum := px.foldl (fun a i => a + ((shdAverage (x.accAt p i) x.runK : Int) - coefBlack (x.coefAt x.runBank p i))) 0
  floorDiv sum px.length

/-- Planes that the run's fields use. -/
def ShdSt.runPlanes (x : ShdSt) (h : Fin 6) : List Nat :=
  (List.range (setGet x.runSet (F.H_TPG_FIELDS_NFLD h) + 1)).map (fun f => setGet x.runSet (F.H_TPG_FLD_EXPE_ROW h f))

/-- Entries of each plane that the run uses. -/
def ShdSt.runN (x : ShdSt) (h : Fin 6) : Nat := setGet x.runSet (F.H_TPG_LINE_NPIX h) + 16

/-- An accumulator word that the run reads is uncorrectable (R423). -/
def ShdSt.runAccBad (x : ShdSt) (h : Fin 6) : Bool :=
  (x.runPlanes h).any (fun p => (List.range (x.runN h)).any (fun i => x.accBad p i))

/-- Entries whose BLACK a white run reads from an uncorrectable word (R403). -/
def ShdSt.blackBad (x : ShdSt) (h : Fin 6) : List (Nat × Nat) :=
  if x.runKind = 0 then []
  else (x.runPlanes h).flatMap (fun p => ((List.range (x.runN h)).filter (fun i => x.coefBad x.runBank p i)).map (fun i => (p, i)))

/-- A count or a mean that its field does not hold is a free value there (log entry 98). -/
def Mach.putFit (m : Mach) (f : Fld) (w : Nat) (v : Int) (lo hi : Int) : Mach :=
  if lo ≤ v ∧ v ≤ hi then m.put f (wrapInt w v)
  else
    let (x, m) := m.fresh w
    m.put f x

/-- Completion of a run: bank, LEN and results; what an uncorrectable word gives for BLACK is a free value (R403, R421, R422,
R424). Log entry 98. -/
def Mach.shdRefFinish (m : Mach) (h : Fin 6) : Mach :=
  let m := m.catchHead h
  let m := m.each ((m.head h).shd.blackBad h) (fun k m =>
    let (v, m) := m.fresh 32
    m.setShd h ((m.head h).shd.setCoef (m.head h).shd.runBank k.1 k.2 (BitVec.ofNat 32 v)))
  let x := (m.head h).shd
  let npix := setGet x.runSet (F.H_TPG_LINE_NPIX h)
  let planes := x.runPlanes h
  let y := planes.foldl (fun y p => y.writePlane npix p) x
  let m := m.setShd h y
  let m := m.put (F.H_SHD_REFCLIP_N h) (min x.refClip 0xFFFFFFFF)
  let m :=
    if x.runKind = 0 then m.put (F.H_SHD_BLEN_LEN h x.runBank) npix
    else
      let gains := planes.flatMap (fun p => (List.range npix).map (fun i => coefGain (y.coefAt x.runBank p i)))
      let m := m.putFit (F.H_SHD_RUNRES_GZERO h) 16 (gains.filter (· = 0)).length 0 0xFFFF
      let sat := planes.flatMap (fun p => (List.range npix).filter (fun i =>
        let D : Int := (shdAverage (x.accAt p i) x.runK : Int) - coefBlack (x.coefAt x.runBank p i)
        decide (0 < D) && decide (0xFFFF < roundDiv ((x.wtarget : Int) * 2 ^ 14) D.toNat)))
      let m := m.putFit (F.H_SHD_RUNRES_GSAT h) 16 sat.length 0 0xFFFF
      let m := m.put (F.H_SHD_GRANGE_GMIN h) (gains.foldl min (gains.headD 0))
      let m := m.put (F.H_SHD_GRANGE_GMAX h) (gains.foldl max 0)
      m.each planes (fun p m => m.each (List.range 16) (fun s m =>
        m.putFit (F.H_SHD_WPROF_W h (16 * p + s)) 17 (x.segMean npix p s) (-65536) 65535))
  m.shdRefEnd h 2 0

end Sys2Proof.Machine
end

