-- ==== Sys2Proof/Machine/Vadc.lean ====
section
/-!
DEFINITION. Video front end: the hold-position sweep, self-calibration and the checks' registers (ch. 10).
-/
namespace Sys2Proof.Machine

/-- The head's bit of CLK_GATE.HEAD_EN. -/
def Mach.headEn (m : Mach) (h : Fin 6) : Bool := (m.get F.CLK_GATE_HEAD_EN).testBit h

/-- A calibration of the head runs (R387). -/
def Mach.calRuns (m : Mach) (h : Fin 6) : Bool := (m.head h).vadc.calEnd.isSome

/-! ## Sweep -/

/-- VADC_SWEEP (R382, R423). -/
def Mach.vadcSweep (m : Mach) (h : Fin 6) : Mach :=
  if m.is (F.H_TPG_CTL_RUN h) && m.get (F.H_TPG_STAT_PATERR h) = 0 && !m.is (F.H_VADC_CTL_SWEEP h) && !m.calRuns h then
    let m := m.put (F.H_VADC_CTL_SWEEP h) 1
    (m.setVadc h { (m.head h).vadc with sweepNext := some 0, sweepDone := 0 }).shdRefAbort h
  else m

/-- Takes the lines of the head out of the sweep. -/
def TpgSt.noSweep (t : TpgSt) : TpgSt := { t with lines := t.lines.map (fun l => { l with sweep := none }) }

/-- A commit ends a sweep (R384). -/
def Mach.sweepAbort (m : Mach) (h : Fin 6) : Mach :=
  if m.is (F.H_VADC_CTL_SWEEP h) then
    let n := (m.head h).vadc.sweepDone
    let m := m.each (List.range 16) (fun p m => if n ≤ p then m.put (F.H_VADC_SWP_SUM h p) 0 else m)
    let m := (m.put (F.H_VADC_STAT_SWPABT h) 1).put (F.H_VADC_CTL_SWEEP h) 0
    let m := m.setVadc h { (m.head h).vadc with sweepNext := none }
    (m.setTpg h (m.head h).tpg.noSweep).pulseHead h 3
  else m

/-- Sum of the image-pixel codes of field 0 of sweep line p (R383). -/
def Mach.sweepStore (m : Mach) (h : Fin 6) (p : Nat) (codes : List Nat) (npix : Nat) : Mach :=
  (m.put (F.H_VADC_SWP_SUM h p) ((codes.take npix).foldl (· + ·) 0)).setVadc h
    { (m.head h).vadc with sweepDone := p + 1 }

/-- SWEEP_DONE: the last code of field 0 of line 15 has been delivered (R383). -/
def Mach.sweepFinish (m : Mach) (h : Fin 6) : Mach :=
  match (m.head h).tpg.lines.find? (fun l => l.sweep = some 15) with
  | none => m
  | some l =>
    if m.is (F.H_VADC_CTL_SWEEP h) then
      let m := m.runTo (l.sampleAt h 0 (l.darkN h + l.npix h - 1) + 192)
      let m := (m.sweepStore h 15 ((l.codes h 0).map (·.1)) (l.npix h)).put (F.H_VADC_CTL_SWEEP h) 0
      (m.setTpg h (m.head h).tpg.noSweep).pulseHead h 3
    else m

/-! ## Self-calibration -/

/-- VADC_CAL (R385-R387). Log entry 23. -/
def Mach.vadcCal (m : Mach) (h : Fin 6) : Mach :=
  if m.is (F.H_VADC_CTL_CAL h) then m
  else if m.is (F.H_TPG_CTL_RUN h) || m.is (F.H_TPG_STAT_BUSY h) || !m.headEn h || m.is (F.H_VADC_CTL_SWEEP h) ||
     m.calRuns h then
    (m.put (F.H_VADC_STAT_CALST h) 3).pulseHead h 4
  else if m.get F.BOOT_ANA_VREF_EN = 0 then
    ((m.put (F.H_VADC_STAT_CALST h) 4).put (F.H_VADC_STAT_CALVALID h) 0).pulseHead h 4
  else
    let m := (m.put (F.H_VADC_STAT_CALST h) 1).put (F.H_VADC_CTL_CAL h) 1
    m.setVadc h { (m.head h).vadc with calEnd := some ((m.now / 4 + 1) * 4 + 7200000) }

/-- A calibration ends: passed or not, with the sixteen factors it stored (R380, R387). -/
def Mach.vadcCalDone (m : Mach) (h : Fin 6) (pass : Bool) (fact : List Int) : Mach :=
  match (m.head h).vadc.calEnd with
  | none => m
  | some due =>
    let m := (m.runTo due).put (F.H_VADC_CTL_CAL h) 0
    let m := m.setVadc h { (m.head h).vadc with calEnd := none }
    let m := m.each (List.range 16) (fun i m => m.put (F.H_VADC_FACT_FACT h i) (wrapInt 16 (fact.getD i 0)))
    let m := (m.put (F.H_VADC_STAT_CALST h) (if pass then 2 else 5)).put (F.H_VADC_STAT_CALVALID h) (b2n pass)
    let m := if pass then m.put (F.H_VADC_STAT_CALSTALE h) 0 else m
    m.pulseHead h 4

/-- A calibration is abandoned with CALST `st` (R389, R390); the factors it leaves are free values. Log entry 25. -/
def Mach.vadcAbandon (m : Mach) (h : Fin 6) (st : Nat) : Mach :=
  if m.calRuns h then
    let m := m.each (List.range 16) (fun i m =>
      let (v, m) := m.fresh 16
      m.put (F.H_VADC_FACT_FACT h i) v)
    let m := (m.put (F.H_VADC_CTL_CAL h) 0).setVadc h { (m.head h).vadc with calEnd := none, calPulse := st = 7 }
    let m := (m.put (F.H_VADC_STAT_CALST h) st).put (F.H_VADC_STAT_CALVALID h) 0
    if st = 7 then m else m.pulseHead h 4
  else m

/-! ## Checks (R391-R396) -/

/-- B_j of a test slot (R391). -/
def slotBase (j d : Nat) : Int :=
  1024 * (2 * j + 1) - 512 + (if j % 2 = 0 then (d : Int) else 1023 - d)

/-- E_j: the ideal code of a test slot (R391). -/
def slotIdeal (ofs j d : Nat) : Int := slotBase j d + 8 * sext 10 ofs

/-- A test slot is skipped when its window leaves the code range (R392). -/
def slotSkip (ofs tol j d : Nat) : Bool :=
  decide (slotIdeal ofs j d - tol < 0) || decide (16383 < slotIdeal ofs j d + tol)

/-- A checked slot fails (R392). -/
def slotFails (ofs tol j d code : Nat) : Bool :=
  !slotSkip ofs tol j d && decide ((tol : Int) < ((code : Int) - slotIdeal ofs j d).natAbs)

/-- The largest M from 2 to 5 with 2^M ≤ DARK, 0 when DARK is below 4 (R393). -/
def darkM (dark : Nat) : Nat :=
  if 32 ≤ dark then 5 else if 16 ≤ dark then 4 else if 8 ≤ dark then 3 else if 4 ≤ dark then 2 else 0

end Sys2Proof.Machine
end

