-- ==== Sys2Proof/Machine/Tpg.lean ====
section
/-!
DEFINITION. The timing pattern generator: validation, triggers, line syncs and the end of a line, the head commit, and
gating of a head (ch. 09; 03 R93-R95).
-/
namespace Sys2Proof.Machine

/-! ## Pattern of a set -/

/-- NSAMP of R329. -/
def nSamp (s : Sparse 32) (h : Fin 6) : Nat :=
  setGet s (F.H_TPG_LINE_DARK h) + setGet s (F.H_TPG_LINE_NPIX h) + 24

/-- Field indices 0 to F - 1. -/
def fieldsOf (s : Sparse 32) (h : Fin 6) : List Nat := List.range (setGet s (F.H_TPG_FIELDS_NFLD h) + 1)

/-- Enabled edge entries as (OUT, LEVEL, OFFSET) (R335, R344). -/
def edgesOf (s : Sparse 32) (h : Fin 6) : List (Nat × Nat × Nat) :=
  ((List.range 64).filter (fun e => setGet s (F.H_TPG_EDGE_EN h e) = 1)).map (fun e =>
    (setGet s (F.H_TPG_EDGE_OUT h e), setGet s (F.H_TPG_EDGE_LEVEL h e), setGet s (F.H_TPG_EDGE_OFFSET h e)))

/-- The pattern length P of a set (R348). -/
def patLen (s : Sparse 32) (h : Fin 6) : Nat :=
  let L := (edgesOf s h).foldl (fun x e => max x (e.2.2 + 1)) 0
  let L := (fieldsOf s h).foldl (fun x f =>
    max x (max (setGet s (F.H_TPG_FLD_EXPE_EXPE h f)) (16 * (setGet s (F.H_TPG_FLD_RD_RD h f) + nSamp s h)))) L
  nextGrid 16 (L + 64)

/-- Phase output p is in PIXEL mode (R343). -/
def pixelMode (s : Sparse 32) (h : Fin 6) (p : Nat) : Bool := p < 8 && setGet s (F.H_TPG_PHCFG_MODE h p) = 1

/-- The list holds an element twice. -/
def hasDup : List (Nat × Nat) → Bool
  | [] => false
  | a :: t => t.contains a || hasDup t

/-- PATERR of a set; `blen` is LEN of the bank it selects (R349, R413). -/
def patErr (s : Sparse 32) (h : Fin 6) (blen : Nat) : Nat :=
  let npix := setGet s (F.H_TPG_LINE_NPIX h)
  let exps := fun f => setGet s (F.H_TPG_FLD_EXPS_EXPS h f)
  let expe := fun f => setGet s (F.H_TPG_FLD_EXPE_EXPE h f)
  let rd := fun f => setGet s (F.H_TPG_FLD_RD_RD h f)
  let fs := fieldsOf s h
  let es := edgesOf s h
  if npix < 64 || 16384 < npix then 1
  else if fs.any (fun f => expe f < exps f || (0 < f && exps f < expe (f - 1))) then 2
  else if fs.any (fun f => 16 * rd f < expe f || (0 < f && rd f < rd (f - 1) + nSamp s h)) then 3
  else if es.any (fun e => 8 < e.1 || pixelMode s h e.1) || hasDup (es.map (fun e => (e.1, e.2.2))) then 4
  else if (List.range 8).any (fun p =>
      (pixelMode s h p && (setGet s (F.H_TPG_PHCFG_RISE h p) = setGet s (F.H_TPG_PHCFG_FALL h p) ||
        rd 0 < setGet s (F.H_TPG_PHCFG_PRE h p))) ||
      1 < setGet s (F.H_TPG_PHCFG_MODE h p) || setGet s (F.H_TPG_PHCFG_DRIVE h p) = 3) then 5
  else if 4194304 < patLen s h then 6
  else if setGet s (F.H_TPG_SYNC_SRC h) = 1 && 16 * setGet s (F.H_TPG_SYNC_PERIOD h) < patLen s h then 7
  else if setGet s (F.H_SHD_CFG_BYPASS h) = 0 && npix != blen then 8
  else if fs.any (fun f => !es.any (fun e => e.1 = 8 && expe f ≤ e.2.2 && e.2.2 < 16 * rd f)) then 9
  else 0

/-- Idle levels of PH0-PH7 and SH under the active set (R341). -/
def Mach.idleLevels (m : Mach) (h : Fin 6) : BitVec 9 :=
  BitVec.ofNat 9 (m.act (F.H_TPG_FIELDS_IDLE h) + 256 * m.act (F.H_TPG_FIELDS_IDLE_SH h))

/-! ## State of a head -/

/-- The line whose pattern runs (R351). -/
def TpgSt.active (t : TpgSt) : Option LineCtx := t.lines.find? (·.active)

/-- The head is idle (R351). -/
def TpgSt.idle (t : TpgSt) : Bool := t.await.isNone && t.held.isNone && t.active.isNone

/-- Stores a head's TPG state and the status bits that show it (R345). -/
def Mach.putTpg (m : Mach) (h : Fin 6) (t : TpgSt) : Mach :=
  let m := m.setTpg h t
  ((m.put (F.H_TPG_STAT_HELD h) (b2n t.held.isSome)).put (F.H_TPG_STAT_BUSY h) (b2n t.active.isSome)).put
    (F.H_TPG_STAT_IDLE h) (b2n t.idle)

/-- The head accepts triggers (R351, R355, R388). -/
def Mach.accepts (m : Mach) (h : Fin 6) : Bool :=
  m.is (F.H_TPG_CTL_RUN h) && m.get (F.H_TPG_STAT_PATERR h) = 0 && m.headEn h && !(m.head h).tpg.stopped && !m.calRuns h

/-- Drops lines that are over at beat `now`: pattern ended, LINE_DONE come, no check left to report (R395). -/
def TpgSt.prune (t : TpgSt) (h : Fin 6) (now : Nat) : TpgSt :=
  { t with lines := t.lines.filter (fun l => l.active || !l.done || (!l.gone && decide (now ≤ l.lastReport h))) }

/-- PATTERN_END: the running pattern ends; a held trigger awaits its late sync (R351, R352). -/
def Mach.patternEnd (m : Mach) (h : Fin 6) : Mach :=
  let t := (m.head h).tpg
  match t.active with
  | none => m
  | some l =>
    let stop := l.sync + patLen l.set h
    let m := m.runTo stop
    let t := ({ t with lines := t.lines.map (fun (x : LineCtx) => { x with active := false }) }).prune h m.now
    match t.held with
    | some w => m.putTpg h { t with held := none, await := some { w with sync := stop, late := some (stop - w.sync) } }
    | none => m.putTpg h t

/-- A line trigger reaches the head's TPG at this beat; `timer` marks one of its own timer (R325, R352-R355). -/
def Mach.triggerBy (m : Mach) (h : Fin 6) (pos : Int) (timer : Bool) : Mach :=
  if !m.accepts h || (m.head h).tpg.lastTrig = some m.now then m
  else
    let m := match (m.head h).tpg.active with
      | some l => if l.sync + patLen l.set h ≤ m.now then m.patternEnd h else m
      | none => m
    let t := { (m.head h).tpg with lastTrig := some m.now }
    let w : Await := { sync := nextGrid 16 m.now, pos := pos, timer := timer }
    if t.held.isSome then (m.putTpg h { t with drops := t.drops + 1 }).countHold (F.H_TPG_CNT_DROP h) 1
    else if t.await.isSome || t.active.isSome then m.putTpg h { t with held := some w }
    else m.putTpg h { t with await := some w }

/-- A line trigger of another source than the head's timer. -/
def Mach.lineTrigger (m : Mach) (h : Fin 6) (pos : Int) : Mach := m.triggerBy h pos false

/-- The source that command words name: SRC of the active set (R324, R340). -/
def Mach.trigSrc (m : Mach) (h : Fin 6) : Nat := m.act (F.H_TPG_SYNC_SRC h)

/-- TPG_TIMER: the timer's due line sync (R356). -/
def Mach.tpgTimer (m : Mach) (h : Fin 6) : Mach :=
  match (m.head h).tpg.timerDue with
  | none => m
  | some due =>
    if m.trigSrc h = 1 then
      let m := m.runTo due
      let m := m.setTpg h { (m.head h).tpg with timerDue := some (due + 16 * m.act (F.H_TPG_SYNC_PERIOD h)) }
      m.triggerBy h 0 true
    else m

/-- The timer's restart (R356). Log entry 24. -/
def Mach.timerRestart (m : Mach) (h : Fin 6) : Mach :=
  if m.trigSrc h = 1 && m.is (F.H_TPG_CTL_RUN h) && m.get (F.H_TPG_STAT_PATERR h) = 0 then
    m.setTpg h { (m.head h).tpg with timerDue := some (nextGrid 16 (m.now + 16)) }
  else m

/-- TPG_SHOT (R338). -/
def Mach.tpgShot (m : Mach) (h : Fin 6) : Mach := if m.trigSrc h = 2 then m.lineTrigger h 0 else m

/-- TPG_CLRCNT (R338, R346). -/
def Mach.tpgClrcnt (m : Mach) (h : Fin 6) : Mach := (m.put (F.H_TPG_CNT_LATE h) 0).put (F.H_TPG_CNT_DROP h) 0

/-- An awaited trigger no longer sets the timer: the timer has stopped, or restarts (R356). -/
def TpgSt.noTimer (t : TpgSt) : TpgSt := { t with timerDue := none, await := t.await.map (fun w => { w with timer := false }) }

/-- TPG_RUN: RUN written (R355, R356, R423). -/
def Mach.tpgRun (m : Mach) (h : Fin 6) (on : Bool) : Mach :=
  let was := m.is (F.H_TPG_CTL_RUN h)
  let m := m.put (F.H_TPG_CTL_RUN h) (b2n on)
  if on then (if was then m else m.timerRestart h)
  else if was then
    (m.putTpg h { (m.head h).tpg.noTimer with held := none }).shdRefAbort h
  else m

/-! ## The head commit -/

/-- Validates the active set and sets what shows it (R347, R349, R414). -/
def Mach.tpgValidate (m : Mach) (h : Fin 6) : Mach :=
  let e := patErr m.actSet h (m.get (F.H_SHD_BLEN_LEN h (m.act (F.H_SHD_CFG_BANK h))))
  let m := (m.put (F.H_TPG_STAT_PATERR h) e).put (F.H_TPG_PLEN_P h) (if e = 0 then patLen m.actSet h else 0)
  (m.put (F.H_SHD_STAT_ACTBANK h) (m.act (F.H_SHD_CFG_BANK h))).put (F.H_SHD_STAT_ACTBYP h) (m.act (F.H_SHD_CFG_BYPASS h))

/-- Addresses of a block's commit: first and size (R231). -/
def commitRange (a : Nat) : Nat × Nat :=
  if a < 0x200000 then (a - 4, 0x10000) else (a - 4, 0x100)

/-- A shadowed register of the block that commit register `a` serves. -/
def inCommit (a k : Nat) : Bool :=
  let (b, n) := commitRange a
  b ≤ k && k < b + n && isShadow k

/-- COMMIT_GO: 1 written to GO of the commit register at `a` (R228, R230). -/
def Mach.commitGo (m : Mach) (a : Nat) : Mach :=
  let r := (m.reg a).toNat
  if r % 2 = 1 then m.setReg a (BitVec.ofNat 32 (setBits r 1 1 1))
  else
    let m := m.setReg a (BitVec.ofNat 32 (setBits r 0 0 1))
    { m with pendSet := Sparse.copy regReset (inCommit a) m.regs m.pendSet, commits := m.commits ++ [(a, m.now / 4 * 4)] }

/-- First beat of the tick of the GO that waits on commit register `a`. -/
def Mach.commitTick (m : Mach) (a : Nat) : Option Nat := (m.commits.find? (fun c => c.1 = a)).map (·.2)

/-- The pending set becomes the active set and GO clears (R228). -/
def Mach.commitTake (m : Mach) (a : Nat) : Mach :=
  let m := { m with actSet := Sparse.copy regReset (inCommit a) m.pendSet m.actSet,
                    commits := m.commits.filter (fun c => c.1 != a) }
  m.setReg a (BitVec.ofNat 32 (setBits (m.reg a).toNat 0 0 0))

/-- Address of a head's commit register. -/
def headCommit (h : Fin 6) : Nat := 0x100004 + 0x10000 * h

/-- Outputs go to their idle levels when a set is first applied, when it is not valid, and when the head is enabled; they keep
their levels while a calibration runs (R336, R350, R388). Log entry 19. -/
def Mach.phIdle (m : Mach) (h : Fin 6) : Mach :=
  if m.is F.SHR_STATUS_SAFE || (m.head h).tpg.stopped || m.calRuns h then m else m.setPh h (m.idleLevels h)

/-- Applies a head's pending set: validation, sweep and reference-run aborts, ILL's share, TRANSITION, the timer and
the commit event (R228, R349, R356, R358-R361, R384, R423). Log entry 19. Log entry 21. -/
def Mach.headApply (m : Mach) (h : Fin 6) : Mach :=
  let old := m.actSet
  let oldErr := m.get (F.H_TPG_STAT_PATERR h)
  let m := (m.commitTake (headCommit h)).pulseHead h 2
  let m := (m.tpgValidate h).sweepAbort h
  -- a commit aborts a reference run that still has lines to come (R423)
  let m := (if 0 < (m.head h).shd.runToStart then m.shdRefAbort h else m).illCommit h old
  let m := m.setTpg h { (m.head h).tpg with transNext := true }
  let bad := m.get (F.H_TPG_STAT_PATERR h)
  let m := m.phIdle h
  if bad = 0 && m.trigSrc h = 1 then
    if oldErr != 0 || setGet old (F.H_TPG_SYNC_SRC h) != 1 then m.timerRestart h else m
  else m.setTpg h { (m.head h).tpg with timerDue := none }

/-- The commit that a line sync at beat `sync` applies (R228, R358). -/
def Mach.headCommitAt (m : Mach) (h : Fin 6) (sync : Nat) : Mach :=
  match m.commitTick (headCommit h) with
  | some t => if t + 4 ≤ sync then m.headApply h else m
  | none => m

/-- COMMIT_APPLY on an idle head: the next multiple of 16 that R228 allows (R358); a stopped head applies none (R93, R95). -/
def Mach.headCommitIdle (m : Mach) (h : Fin 6) : Mach :=
  match m.commitTick (headCommit h) with
  | some t =>
    if (m.head h).tpg.idle && !(m.head h).tpg.stopped then (m.runTo (nextGrid 16 (max (t + 4) m.now))).headApply h else m
  | none => m

/-! ## Line sync -/

/-- FRAME_SWAP: on an idle head with SWSRC = 0 the next grid beat is a line boundary (R358, R438); at a line sync and at an
MSYNC edge the swap is part of that step. Log entry 68. -/
def Mach.frameSwap (m : Mach) (h : Fin 6) : Mach :=
  if m.is (F.H_ILL_CTL_SWAP h) && m.act (F.H_ILL_CFG_SWSRC h) = 0 && (m.head h).tpg.idle &&
     !(m.head h).tpg.stopped then
    (m.runTo (nextGrid 16 (max m.now ((m.head h).ill.armAt + 1)))).illSwap h
  else m

/-- A sync without a line: its trigger is discarded as DROP (R359); a held one follows at the next grid beat. -/
def Mach.syncDiscard (m : Mach) (h : Fin 6) (sync : Nat) : Mach :=
  let t := (m.head h).tpg
  let t := { t with await := none, drops := t.drops + 1 }
  let t := match t.held with
    | some w => { t with held := none, await := some { w with sync := sync + 16, late := some (sync + 16 - w.sync) } }
    | none => t
  (m.putTpg h t).countHold (F.H_TPG_CNT_DROP h) 1

/-- The line starts under the active set, with the signal `wave` of its sensor; every line that was held is LATE, and a pending
restart of the timer stands (R327, R352, R353, R356, R361, R383, R388, R419, R441, R461, R561, R568; log entry 96).
Log entry 20. -/
def Mach.lineStart (m : Mach) (h : Fin 6) (w : Await) (wave : List (List Int)) : Mach :=
  let set := m.actSet
  let pos := if m.trigSrc h = 0 then w.pos else 0
  let m := m.illLineSync h
  let (refRun, m) := m.shdLineSync h
  let (cseq, slot, m) := m.ringSync h set pos
  let v := (m.head h).vadc
  let m := m.setVadc h { v with sweepNext := v.sweepNext.bind (fun p => if p < 15 then some (p + 1) else none) }
  let t := (m.head h).tpg
  let l : LineCtx := { sync := w.sync, set := set, pos := pos, late := w.late.isSome, lateDelay := w.late.getD 0,
                       trans := t.transNext, drops := t.drops, cseq := cseq, slot := slot, sweep := v.sweepNext,
                       refRun := refRun, frame := false, lampoff := (m.head h).ill.dark, active := true, done := false,
                       wave := wave, seed := m.freeCtr, cut := m.calRuns h, wrote := w.sync }
  let m := { m with freeCtr := m.freeCtr + 1 }
  let m := if w.late.isSome then m.countHold (F.H_TPG_CNT_LATE h) 1 else m
  let t := t.prune h m.now
  let m := m.putTpg h { t with await := none, lines := t.lines ++ [l], drops := 0, transNext := false,
                               starts := (w.sync :: t.starts).take 4,
                               timerDue := if w.timer && m.trigSrc h = 1 then some (w.sync + 16 * m.act (F.H_TPG_SYNC_PERIOD h))
                                           else t.timerDue }
  m.pulseHead h 0

/-- LINE_SYNC (R325, R327, R358, R359, R438, R444). -/
def Mach.lineSync (m : Mach) (h : Fin 6) (wave : List (List Int)) : Mach :=
  match (m.head h).tpg.await with
  | none => m
  | some w =>
    let m := ((m.runTo w.sync).headCommitAt h w.sync).illSwapPoint h 0
    if m.get (F.H_TPG_STAT_PATERR h) = 0 then m.lineStart h w wave else m.syncDiscard h w.sync

/-! ## End of a line -/

/-- The line header (R577, R578). -/
def lineHeader (h : Fin 6) (l : LineCtx) (dlen ovr lo hi gapn : Nat) : List Byte :=
  let flags := b2n l.trans + 2 * b2n l.late + 4 * b2n (gapn != 0) + 8 * b2n l.frame + 16 * b2n l.lampoff
  let fmt := setGet l.set (F.H_SHD_CFG_FMT h)
  let b := leBytes 4 (l.cseq.getD 0) ++ leBytes 4 dlen ++ leBytes 8 (sysOf l.sync) ++ leBytes 8 (wrapInt 64 l.pos) ++
    leBytes 1 h ++ leBytes 1 (setGet l.set (F.H_TPG_FIELDS_NFLD h) + 4 * fmt) ++ leBytes 2 flags ++
    leBytes 4 l.lateDelay ++ leBytes 2 ovr ++ leBytes 2 lo ++ leBytes 2 hi ++ leBytes 2 gapn ++ leBytes 20 0
  b ++ leBytes 4 (crc32c b).toNat

/-- Sum over fields. -/
def sumBy (fs : List FieldOut) (g : FieldOut → Nat) : Nat := (fs.map g).foldl (· + ·) 0

/-- Replaces a head's line of the same sync. -/
def Mach.setLine (m : Mach) (h : Fin 6) (l : LineCtx) : Mach :=
  let t := (m.head h).tpg
  m.setTpg h { t with lines := t.lines.map (fun (x : LineCtx) => if x.sync = l.sync then l else x) }

/-- The end of the next field of a line: its witness mean is held and handed to ILL in the beat of its last witness pixel (R427,
R458).  A mean over an uncorrectable word, or beyond its field, is a free value (log entry 98). -/
def Mach.lineField (m : Mach) (h : Fin 6) (l : LineCtx) : Mach :=
  let f := l.wit
  let m := m.runTo (l.sampleAt h f (l.darkN h + l.npix h + 15) + 256)
  let x := (m.head h).shd
  let mean := shdWitness x l.set h f (l.codes h f)
  let m := if x.witnessBad l.set h f then
      let (v, m) := m.fresh 17
      m.put (F.H_SHD_WIT_MEAN h f) v
    else m.putFit (F.H_SHD_WIT_MEAN h f) 17 mean (-65536) 65535
  (m.illWitness h (l.row h f) (sext 17 (m.get (F.H_SHD_WIT_MEAN h f)))).setLine h { l with wit := f + 1 }

/-- The oldest line whose LINE_DONE has not come. -/
def TpgSt.oldest (t : TpgSt) : Option LineCtx := t.lines.find? (fun l => !l.done)

/-- WITNESS_MEAN: a field of the head's oldest line ends (R427). -/
def Mach.witness (m : Mach) (h : Fin 6) : Mach :=
  match (m.head h).tpg.oldest with
  | none => m
  | some l => if l.gone || l.nfld h < l.wit then m else m.lineField h l

/-- The fields of a line that have not ended yet do so. -/
def Mach.lineFields (m : Mach) (h : Fin 6) (l : LineCtx) : Nat → LineCtx × Mach
  | 0 => (l, m)
  | n + 1 => if l.gone || l.nfld h < l.wit then (l, m) else (m.lineField h l).lineFields h { l with wit := l.wit + 1 } n

/-- What a line of a reference run adds to it: an uncorrectable accumulator word aborts the run instead, which is told
(R420, R423). -/
def Mach.lineAccumulate (m : Mach) (h : Fin 6) (l : LineCtx) (fs : List FieldOut) : Bool × Mach :=
  let x := (m.head h).shd
  if l.refRun && x.runLeft.isSome then
    if x.runAccBad h then (true, m.shdRefAbort h) else (false, m.setShd h (x.accumulate l.set h fs))
  else (false, m)

/-- LINE_DONE of a head's oldest line; the Boolean says an uncorrectable word was met (R25, R372, R383, R406, R407, R420, R427,
R567-R569, R577, R583).  With an uncorrectable coefficient word the clip counts are free values (log entry 98). -/
def Mach.lineDone (m : Mach) (h : Fin 6) : Bool × Mach :=
  match (m.head h).tpg.oldest with
  | none => (false, m)
  | some l =>
    let nf := l.nfld h
    let (l, m) := m.lineFields h l 4
    let m := (m.runTo (l.sampleAt h nf (l.darkN h + l.npix h + 15) + 272)).catchHead h
    let fs := (List.range (nf + 1)).map (fun f => l.field h (m.head h).shd f)
    let ovr := min 0xFFFF (sumBy fs (·.ovr))
    let open' := fs.any (·.badCoef)
    let (lo, m) := if open' then m.fresh 16 else (min 0xFFFF (sumBy fs (·.lo)), m)
    let (hi, m) := if open' then m.fresh 16 else (min 0xFFFF (sumBy fs (·.hi)), m)
    let m := ((m.put (F.H_VADC_OVR_OVR h) ovr).put (F.H_SHD_CLIP_LO h) lo).put (F.H_SHD_CLIP_HI h) hi
    let m := match l.sweep with
      | some p => if p < 15 then m.sweepStore h p ((fs.map (fun (y : FieldOut) => y.raw)).headD []) (l.npix h) else m
      | none => m
    let (accBad, m) := m.lineAccumulate h l fs
    let m := m.setLine h { l with done := true, wrote := m.now }
    let m := m.putTpg h ((m.head h).tpg.prune h m.now)
    let r := m.ring h
    let m := match l.slot, l.cseq with
      | some slot, some c =>
        let gapn := min 0xFFFF (l.drops + r.gap)
        let m := m.putPixels (m.slotAddr h slot) (lineHeader h l (dataLen l.set h) ovr lo hi gapn)
        m.ringCommit h c slot l.set
      | _, _ => m.setRing h { r with gap := r.gap + l.drops + b2n l.cseq.isSome }
    (accBad || fs.any (·.bad), m.pulseHead h 1)

/-! ## Outputs within a line -/

/-- Output, level and offset in beats of an edge under a set, if the set has it (R332-R335). -/
def edgeEffect (s : Sparse 32) (h : Fin 6) : TpgEdge → Option (Nat × Bool × Nat)
  | .entry e =>
    if e < 64 && setGet s (F.H_TPG_EDGE_EN h e) = 1 then
      some (setGet s (F.H_TPG_EDGE_OUT h e), setGet s (F.H_TPG_EDGE_LEVEL h e) = 1, setGet s (F.H_TPG_EDGE_OFFSET h e))
    else none
  | .rise p f j =>
    if pixelMode s h p && f ≤ setGet s (F.H_TPG_FIELDS_NFLD h) && j + 8 < nSamp s h then
      some (p, true, 16 * (setGet s (F.H_TPG_FLD_RD_RD h f) + j - setGet s (F.H_TPG_PHCFG_PRE h p)) +
        setGet s (F.H_TPG_PHCFG_RISE h p))
    else none
  | .fall p f j =>
    if pixelMode s h p && f ≤ setGet s (F.H_TPG_FIELDS_NFLD h) && j + 8 < nSamp s h then
      let wraps := setGet s (F.H_TPG_PHCFG_FALL h p) < setGet s (F.H_TPG_PHCFG_RISE h p)
      some (p, false, 16 * (setGet s (F.H_TPG_FLD_RD_RD h f) + j - setGet s (F.H_TPG_PHCFG_PRE h p)) +
        setGet s (F.H_TPG_PHCFG_FALL h p) + (if wraps then 16 else 0))
    else none
  | .idle p f =>
    if pixelMode s h p && f ≤ setGet s (F.H_TPG_FIELDS_NFLD h) then
      let wraps := setGet s (F.H_TPG_PHCFG_FALL h p) < setGet s (F.H_TPG_PHCFG_RISE h p)
      some (p, (setGet s (F.H_TPG_FIELDS_IDLE h)).testBit p,
        16 * (setGet s (F.H_TPG_FLD_RD_RD h f) + nSamp s h - 8 - setGet s (F.H_TPG_PHCFG_PRE h p)) + (if wraps then 16 else 0))
    else none

/-- TPG_EDGE (R332-R336, R388). -/
def Mach.tpgEdge (m : Mach) (h : Fin 6) (e : TpgEdge) : Mach :=
  match (m.head h).tpg.active with
  | none => m
  | some l =>
    match edgeEffect l.set h e with
    | some (o, v, off) =>
      if o < 9 && !m.is F.SHR_STATUS_SAFE && !m.calRuns h then
        let m := m.runTo (l.sync + off)
        let ph := (m.out.ph[h]).toNat
        m.setPh h (BitVec.ofNat 9 (setBits ph o o (b2n v)))
      else m
    | none => m

/-! ## Gating a head -/

/-- A head's actions in flight move by `d` beats (R93, R103). -/
def HeadSt.shift (x : HeadSt) (d : Int) : HeadSt :=
  { x with vadc := { x.vadc with calEnd := movedO d x.vadc.calEnd },
           ill := { x.ill with
                    cas := x.ill.cas.map (fun (y : CasAt) => { y with start := moved d y.start }), casEnd := movedO d x.ill.casEnd,
                    stEnd := movedO d x.ill.stEnd, shEnd := movedO d x.ill.shEnd, armAt := moved d x.ill.armAt } }


/-- HEAD_GATE: the head's bit of HEAD_EN cleared (R93, R390, R423). -/
def Mach.headGate (m : Mach) (h : Fin 6) : Mach :=
  let m := m.put F.CLK_GATE_HEAD_EN (setBits (m.get F.CLK_GATE_HEAD_EN) h h 0)
  let m := m.putTpg h { (m.head h).tpg with held := none }
  (m.vadcAbandon h 7).shdRefAbort h

/-- HEAD_STOP: a gated head with no line in progress stops at a grid beat with its outputs off (R93). -/
def Mach.headStop (m : Mach) (h : Fin 6) : Mach :=
  let t := (m.head h).tpg
  if m.headEn h || t.stopped || t.await.isSome || t.lines.any (fun l => !l.done) then m
  else
    let m := (m.runTo (nextGrid 16 m.now)).illDark h
    (m.setPh h 0).putTpg h { (m.head h).tpg with stopped := true, stopAt := m.now, lines := [], timerDue := none }

/-- HEAD_UNGATE: the head's bit set again; what had stopped with the head goes on (R92, R95, R336, R390).
Log entry 24. -/
def Mach.headUngate (m : Mach) (h : Fin 6) : Mach :=
  let m := m.put F.CLK_GATE_HEAD_EN (setBits (m.get F.CLK_GATE_HEAD_EN) h h 1)
  let t := (m.head h).tpg
  let m := if t.stopped then
      let m := m.setHead h ((m.head h).shift ((m.now : Int) - t.stopAt))
      let m := (m.setTpg h { t with stopped := false, transNext := true }).phIdle h
      (m.illTstale h).illHeat h
    else m
  let m := if (m.head h).vadc.calPulse then
      (m.setVadc h { (m.head h).vadc with calPulse := false }).pulseHead h 4 else m
  if t.stopped then m.timerRestart h else m

end Sys2Proof.Machine
end

