-- ==== Sys2Proof/Machine/Hal.lean ====
section
/-!
DEFINITION. Halyard: motion, steps, the line schedule, the stopping budget, restart and the step books (ch. 15).
-/
namespace Sys2Proof.Machine

/-! ## Distances (R607, R614) -/

/-- Integer square root by bits: the greatest r below 2^n with r² ≤ x, added to `r`. -/
def isqrtIn (x : Nat) : Nat → Nat → Nat
  | 0, r => r
  | n + 1, r => if (r + 2 ^ n) * (r + 2 ^ n) ≤ x then isqrtIn x n (r + 2 ^ n) else isqrtIn x n r

def isqrt (x : Nat) : Nat := isqrtIn x (x.log2 / 2 + 1) 0

/-- The least n from `k` on, `fuel` tries, with n·c·d − R ≥ 0 and (n·c·d − R)² ≥ S: n·c covers R/d + √S/d. -/
def coverIn (c d : Nat) (R : Int) (S : Nat) : Nat → Nat → Nat
  | 0, k => k
  | fuel + 1, k =>
    let x : Int := (k : Int) * c * d - R
    if 0 ≤ x && (S : Int) ≤ x * x then k else coverIn c d R S fuel (k + 1)

/-- Rounded up to a multiple of c: (R + √S) / d, R and S the scaled parts. -/
def cover (c d : Nat) (R : Int) (S : Nat) : Nat :=
  coverIn c d R S 4 ((R + (isqrt S : Int)) / ((c * d : Nat) : Int) - 1).toNat

/-- STOPD of R607 in 1/65,536 step, rounded up, for speed `v`, acceleration `a` along the motion, deceleration limit
`D` and jerk `J`, all in 2^-60 units; `none` when D or J is 0 and the axis moves.  The distance to 0 from (v, a) is that
from the speed `v + a²/2J` at a = 0, plus the way of the ramp to a = 0 when a > 0, less that of the ramp already done
when a < 0 (R607). -/
def stopDist (v : Nat) (a : Int) (D J : Nat) : Option Nat :=
  if v = 0 && a ≤ 0 then some 0
  else if D = 0 || J = 0 then none
  else
    let J' : Int := J
    -- w = v + a²/2J over the denominator 2J
    let w2 : Int := 2 * J' * v + a * a
    -- extra way over 6J²: v·a/J + a³/3J² when a > 0; -(w·|a|/J - |a|³/6J²) when a < 0
    let e6 : Int :=
      if 0 ≤ a then 6 * J' * v * a + 2 * a * a * a
      else 3 * w2 * a - a * a * a
    if (2 * D * D : Int) ≤ w2 then
      -- w²/2D + wD/2J over 24·D·J²
      let n : Int := 3 * w2 * w2 + 6 * D * D * w2 + 4 * D * e6
      some (ceilDivI n (24 * D * J * J * 2 ^ 44)).toNat
    else
      -- √(w³/J) over 6J²: (6J²)²·w³/J = 36·J³·w2³/8J³ = 9·w2³/2
      some (cover (2 ^ 44) (6 * J * J) e6 (ceilDiv (9 * w2.toNat * w2.toNat * w2.toNat) 2))

/-! ## The line schedule -/

/-- Heads that the axis schedules (R602). -/
def Mach.schedHeads (m : Mach) (a : Fin 2) : List (Fin 6) :=
  allHeads.filter (fun h => m.is (F.HAL_HEAD_EN h) && m.get (F.HAL_HEAD_AXIS h) = a)

/-- Q_k for a line phase, in 1/65,536 step (R602); `none` when LPS is 0. -/
def AxisSt.lineAt (x : AxisSt) (ph : Int) (k : Nat) : Option Int :=
  if x.lps = 0 then none else some (65536 * x.org + ph + (k * 2 ^ 32 / x.lps : Nat))

/-- The smallest k with Q_k > P (R603). -/
def AxisSt.lineAfter (x : AxisSt) (ph P : Int) : Nat :=
  let y := P - 65536 * x.org - ph
  if y < 0 then 0 else ceilDiv ((y.toNat + 1) * x.lps) (2 ^ 32)

/-- PH of a head, signed (R601). -/
def Mach.halPh (m : Mach) (h : Fin 6) : Int := sext 32 (m.get (F.HAL_PH_PH h))

/-- LNEXT at this beat: the reference schedule goes on with each line that p crosses forward, and with no other (R318, R604, R605).
With no schedule, and with LPS 0, it stays where it stood (log entry 99). -/
def Mach.lnext (m : Mach) (a : Fin 2) : Nat :=
  let x := m.axis a
  match x.lineAt 0 x.nextRef, x.hist.find? (fun e => decide (e.1 < m.now)) with
  | some q, some (_, p0) => if x.schedOn && decide (pos16 p0 < q) then max x.nextRef (x.lineAfter 0 (m.posAt a m.now)) else x.nextRef
  | _, _ => x.nextRef

/-- The reference schedule has passed every line up to this beat. -/
def Mach.refPass (m : Mach) (a : Fin 2) : Mach := m.setAxis a { m.axis a with nextRef := m.lnext a }

/-! ## Speeds -/

/-- V_E in 2^-60 step/us (R596). Log entry 28. -/
def Mach.halVE (m : Mach) (a : Fin 2) : Nat :=
  let x := m.axis a
  let f := if m.act (F.HAL_AX_MODE_REEFEN a) = 1 then 16 - x.lvl else 16
  min ((sext 32 (m.act (F.HAL_AX_VT_VT a))).natAbs * f * 2 ^ 24)
    (min (m.act (F.HAL_AX_VMAX_VMAX a) * 2 ^ 28) (x.vline * 2 ^ 28))

/-- AMAX, DMAX and J in 2^-60 units (R590's table, R597). -/
def Mach.halA (m : Mach) (a : Fin 2) : Nat := m.act (F.HAL_AX_AMAX_AMAX a) * 2 ^ 12
def Mach.halD (m : Mach) (a : Fin 2) : Nat := m.act (F.HAL_AX_DMAX_DMAX a) * 2 ^ 12
def Mach.halJ (m : Mach) (a : Fin 2) : Nat := m.act (F.HAL_AX_JMAX_JMAX a)

/-- The axes follow a Bowline master (R902), or run one MI ahead for the followers (R901). -/
def Mach.mirrored (m : Mach) : Bool := m.is F.BWL_CTL_EN && m.is F.BWL_CTL_MIRROR && m.get F.BWL_CTL_ROLE = 0
def Mach.ahead (m : Mach) : Bool := m.is F.BWL_CTL_EN && m.is F.BWL_CTL_MIRROR && m.get F.BWL_CTL_ROLE = 1

def AxisSt.moving (x : AxisSt) : Bool := x.v != 0 || x.a != 0

/-- STOPD of the axis now; what R607 does not state is a free value. Log entry 29. -/
def Mach.stopd (m : Mach) (a : Fin 2) : Nat × Mach :=
  let x := m.axis a
  if m.mirrored then (m.bwl.ax[a].stopd, m)
  else match stopDist x.v.natAbs (if 0 ≤ x.v then x.a else -x.a) (m.halD a) (m.halJ a) with
  | some d => (d, m)
  | none => m.fresh 32

/-- A distance of R607's table at a = 0 from speed V_E, with D or AMAX as the limit (R608, R614). -/
def Mach.distVE (m : Mach) (a : Fin 2) (lim : Nat) : Nat × Mach :=
  match stopDist (m.halVE a) 0 lim (m.halJ a) with
  | some d => (d, m)
  | none => m.fresh 32

/-! ## Step books -/

/-- ENCCNT, signed. -/
def Mach.encCnt (m : Mach) (a : Fin 2) : Int := sext 32 (m.get (F.HAL_AX_ENCCNT_N a))

/-- OBS (R621, R635). -/
def Mach.obs (m : Mach) (a : Fin 2) : Int :=
  let x := m.axis a
  if m.is (F.HAL_AX_CTL_ENC a) then
    floorDiv (m.encCnt a * m.act (F.HAL_AX_ENC_ESCALE a)) 65536 + x.obsOff
  else x.c

/-- Pulses an event of axis a on C6: lines `e` and `e + 1` (ch. 06 table of lines). -/
def Mach.axisPulse (m : Mach) (a : Fin 2) (e : Nat) : Mach := m.pulse 6 (e + a)

/-- An armed position event is met (R314). -/
def Mach.posevCheck (m : Mach) (a : Fin 2) : Mach :=
  let x := m.axis a
  if x.posev = some (sext 32 (wrapInt 32 x.c)) then (m.setAxis a { x with posev := none }).axisPulse a 2 else m

/-- Axis state and cause (R593). -/
def Mach.axState (m : Mach) (a : Fin 2) : Nat := m.get (F.HAL_AX_STAT_STATE a)
def Mach.setAxState (m : Mach) (a : Fin 2) (s : Nat) : Mach := m.put (F.HAL_AX_STAT_STATE a) s
def Mach.setAxCause (m : Mach) (a : Fin 2) (c : Nat) : Mach := m.put (F.HAL_AX_STAT_CAUSE a) c

/-- Sets a flag of HAL_AX{a}_FLT (R594). -/
def Mach.axFlag (m : Mach) (a : Fin 2) (bit : Nat) : Mach := m.putBit (F.HAL_AX_FLT_FLAGS a) bit

/-- The axis enters FAULT at position `p`: no new step edge, v and a 0, HAL_STOP (R625). Log entry 26. -/
def Mach.axFaultAt (m : Mach) (a : Fin 2) (cause : Nat) (p : Int) : Mach :=
  let x := m.axis a
  let was := x.moving
  let m := m.setAxis a { x with v := 0, a := 0, p := p, due := [], hist := x.hist.dropWhile (fun e => m.now < e.1), starting := false, offAfter := false, dwell := none }
  let m := (m.setAxState a 6).setAxCause a cause
  if was then m.pulse 6 9 else m

/-- p at this beat, toward minus infinity in 2^-60 step (R590). Log entry 26. -/
def Mach.posExact (m : Mach) (a : Fin 2) : Int := posIn 1 (m.axis a).p 3000 (m.axis a).hist m.now

/-- FAULT in the middle of an MI: p stays where it stands at this beat. Log entry 26. -/
def Mach.axFault (m : Mach) (a : Fin 2) (cause : Nat) : Mach :=
  let m := m.refPass a
  let x := m.axis a
  if x.moving then
    let p := m.posExact a
    let m := m.setAxis a { x with hist := ((m.now, p) :: x.hist.dropWhile (fun e => m.now < e.1)).take 16384 }
    m.axFaultAt a cause p
  else m.axFaultAt a cause x.p

/-- The clock stops: p keeps the value of the last MI boundary (R636; log entry 26). -/
def Mach.axisFreeze (m : Mach) (a : Fin 2) : Mach :=
  let x := m.axis a
  match x.hist.find? (fun e => decide (e.1 ≤ m.now)) with
  | some (b, p) =>
    if x.moving then m.setAxis a { x with p := p, hist := (b, p) :: x.hist.dropWhile (fun e => decide (b ≤ e.1)) } else m
  | none => m

/-! ## Commits -/

/-- Address of an axis's commit register. -/
def axisCommit (a : Fin 2) : Nat := 0x220104 + 0x100 * a

/-- VLINE of R606. Log entry 28. -/
def Mach.vlineOf (m : Mach) (a : Fin 2) : Nat :=
  let x := m.axis a
  if x.lps = 0 then m.act (F.HAL_AX_VMAX_VMAX a)
  else
    let plen := (m.schedHeads a).foldl (fun (b : Nat) (h : Fin 6) => max b (m.get (F.H_TPG_PLEN_P h))) 0
    2 ^ 32 / x.lps * 196608000 / (plen + 16)

/-- The axis's pending set becomes active; LSRST restarts the schedule; VLINE (R603, R606, R629). Log entry 28. -/
def Mach.axisApply (m : Mach) (a : Fin 2) : Mach :=
  let m := m.commitTake (axisCommit a)
  let x := m.axis a
  let m :=
    if m.act (F.HAL_AX_MODE_LSRST a) = 1 then
      let x := { x with lps := m.act (F.HAL_AX_LPS_LPS a), org := sext 32 (m.act (F.HAL_AX_ORG_ORG a)), schedOn := true }
      let P := m.posAt a m.now
      let x := (m.schedHeads a).foldl (fun (x : AxisSt) (h : Fin 6) => { x with next := x.next.set h (x.lineAfter (m.halPh h) P) }) x
      m.setAxis a { x with nextRef := x.lineAfter 0 P }
    else m
  let x := m.axis a
  let m := m.setAxis a { x with vline := m.vlineOf a, needPlan := x.needPlan && m.is (F.HAL_AX_CTL_EN a) }
  m.pulse 6 8

/-! ## The stopping budget -/

/-- LSTOP_n (R608). -/
def Mach.lstop (m : Mach) (a : Fin 2) (h : Fin 6) (stopd stopVE : Nat) : Nat :=
  let x := m.axis a
  if x.moving then
    if x.lps = 0 then 0
    else
      let P := pos16 x.p
      x.lineAfter (m.halPh h) (P + stopd) - x.lineAfter (m.halPh h) P
  else stopVE * x.lps / 2 ^ 32 + 1

/-- Publishes STOPD and HAL_MARG (R607, R608). -/
def Mach.publish (m : Mach) (a : Fin 2) : Mach :=
  let (d, m) := m.stopd a
  let m := m.put (F.HAL_AX_STOPD_D a) d
  let (dv, m) := if (m.axis a).moving then (0, m) else m.distVE a (m.halD a)
  m.each ((m.schedHeads a).filter m.ringOn) (fun h m =>
    let n := m.lstop a h d dv
    (m.put (F.HAL_MARG_LSTOP h) n).put (F.HAL_MARG_MARG h) (wrapInt 16 ((m.ringFree h : Int) - n)))

/-- Scheduled heads with an enabled ring whose FREE is below LSTOP plus `room` (R609, R612, R613). -/
def Mach.shortHeads (m : Mach) (a : Fin 2) (room : Nat) : List (Fin 6) :=
  (m.schedHeads a).filter (fun h => m.ringOn h && m.ringFree h < m.get (F.HAL_MARG_LSTOP h) + room)

def Mach.guard (m : Mach) (a : Fin 2) : Nat := m.act (F.HAL_AX_MECH_GUARD a)

/-- The guard trips, or a follower's STOP bit acts (R609, R904). -/
def Mach.guardTrips (m : Mach) (a : Fin 2) : Bool :=
  (m.axState a = 1 || m.axState a = 5) && (!(m.shortHeads a (m.guard a)).isEmpty || m.bwl.stop.testBit a)

/-- The axis enters STOPPING, to record `cause` at its end (R611). -/
def Mach.stopAxis (m : Mach) (a : Fin 2) (cause : Nat) : Mach :=
  (m.setAxState a 2).setAxis a { m.axis a with why := cause }

/-- GUARD_TRIP (R609, R612). -/
def Mach.guardStop (m : Mach) (a : Fin 2) : Mach :=
  let m := if (m.shortHeads a 0).isEmpty then m else m.axFlag a 6
  m.stopAxis a 1

/-! ## Restart (R613-R616) -/

/-- Least next-due position over the axis's scheduled heads, and the ring's (R614, R904). -/
def Mach.qMin (m : Mach) (a : Fin 2) : Option Int :=
  let x := m.axis a
  (m.schedHeads a).foldl (fun (o : Option Int) (h : Fin 6) =>
    match o, x.lineAt (m.halPh h) x.next[h] with
    | some q, some r => some (min q r)
    | none, r => r
    | some q, none => some q) m.bwl.qmin[a]

/-- Every ring has the room a restart needs (R613). -/
def Mach.restartOk (m : Mach) (a : Fin 2) : Bool :=
  (m.shortHeads a (m.guard a + m.act (F.HAL_AX_MECH_RSTH a))).isEmpty

/-- AXIS_RESTART (R613-R615, R904). -/
def Mach.restart (m : Mach) (a : Fin 2) : Mach :=
  if m.axState a = 3 && !m.is (F.HAL_AX_CTL_HOLD a) && m.is (F.HAL_AX_CTL_EN a) &&
     m.restartOk a && !m.bwl.notReady.testBit a then
    match m.qMin a with
    | none => m.setAxState a 1
    | some q =>
      let (dacc, m) := m.distVE a (m.halA a)
      let rs := q - dacc - 65536 * m.act (F.HAL_AX_MECH_SETL a)
      let back := rs - 65536 * m.act (F.HAL_AX_MECH_BKL a)
      if back < pos16 (m.axis a).p then
        (m.setAxState a 4).setAxis a { m.axis a with backTo := back * 2 ^ 44 }
      else m.setAxState a 5
  else m

/-! ## One motion interval -/

/-- Log entry 9. -/
def Jerk.value (j : Jerk) (J : Nat) : Int :=
  match j with
  | .up => J
  | .zero => 0
  | .down => -(J : Int)

/-- What the axis moves to: a velocity, or a position at most at a speed (R595-R598, R611, R615, R616). -/
inductive Aim where
  | rest
  | speed (v : Int)
  | place (p : Int) (speed : Nat)
  deriving DecidableEq, Repr

/-- The aim of the axis's state. -/
def Mach.aim (m : Mach) (a : Fin 2) : Aim :=
  let x := m.axis a
  match m.axState a with
  | 1 =>
    if m.act (F.HAL_AX_MODE_MODE a) = 1 then .place (sext 32 (m.act (F.HAL_AX_PT_PT a)) * 2 ^ 60) (m.halVE a)
    else if sext 32 (m.act (F.HAL_AX_VT_VT a)) < 0 then .speed (-(m.halVE a : Int)) else .speed (m.halVE a)
  | 2 => .speed 0
  | 4 => .place x.backTo (min (m.act (F.HAL_AX_VBACK_VBACK a)) (m.act (F.HAL_AX_VMAX_VMAX a)) * 2 ^ 28)
  | 5 => .speed (m.halVE a)
  | _ => .rest

/-- Acceleration after the planner's jerk, held within R597's limits (log entry 9). -/
def nextAcc (v a : Int) (j : Int) (A D : Nat) : Int :=
  let b := a + j
  let rises := decide (0 ≤ v * b)
  if b.natAbs ≤ (if rises then A else D) || b.natAbs ≤ a.natAbs then b else a

/-- v and a of an MI that aims at a speed: the target is met exactly, with a = 0 (R597). Log entry 9. -/
def toSpeed (v a t : Int) : Int × Int :=
  if v = t then (t, 0)
  else
    let w := v + a
    if (v < t && t ≤ w) || (t < v && w ≤ t) then (t, 0) else (w, a)

/-- v and a of an MI that aims at a place in direction `d`, at most at speed `s` (R597). Log entry 9. -/
def toPlace (v a d : Int) (s : Nat) : Int × Int :=
  let w := v + a
  if (s : Int) ≤ d * w && d * v ≤ s then (d * s, 0) else if d * w < 0 && 0 ≤ d * v then (0, 0) else (w, a)

/-- Sign of an integer. -/
def sgn (x : Int) : Int := if 0 < x then 1 else if x < 0 then -1 else 0

/-- Integrates an axis over the MI that begins now: (new state, the aim was met) (R589, R597-R600). Log entry 9. -/
def Mach.integrate (m : Mach) (a : Fin 2) (j : Jerk) : AxisSt × Bool :=
  let x := m.axis a
  let J := m.halJ a
  let go (dir : Int) (f : Int → Int × Int) (fin : Int → Int → Option Int) : AxisSt × Bool :=
    -- a reversal holds v = 0 for REVDW first
    let fresh := x.v = 0 && dir != 0 && x.moved != 0 && dir != x.moved
    let left := match x.dwell with
      | some n => n
      | none => m.act (F.HAL_AX_EFLT_REVDW a)
    if fresh && 0 < left then ({ x with dwell := some (left - 1), a := 0 }, false)
    else
      let b := nextAcc x.v x.a (j.value J) (m.halA a) (m.halD a)
      let (v, acc) := f b
      let p := x.p + v
      match fin p v with
      | some q => ({ x with p := q, v := 0, a := 0, dwell := none, moved := if v = 0 then x.moved else sgn v }, true)
      | none => ({ x with p := p, v := v, a := acc, dwell := none, moved := if v = 0 then x.moved else sgn v }, false)
  match m.aim a with
  | .rest => ({ x with v := 0, a := 0 }, false)
  | .speed t =>
    let r := go (sgn t) (fun b => toSpeed x.v b t) (fun _ _ => none)
    (r.1, x.v != t && r.1.v = t)
  | .place q s =>
    let d := sgn (q - x.p)
    if d = 0 then ({ x with v := 0, a := 0 }, x.v != 0)
    else if x.v * d < 0 then
      -- still moving away: stop first
      go d (fun b => toSpeed x.v b 0) (fun _ _ => none)
    else go d (fun b => toPlace x.v b d s) (fun p _ => if 0 ≤ d * (p - q) then some q else none)

/-- Steps that fall due in the MI from `b0`: every integer that p crosses (R585, R590). -/
def stepsDue (b0 : Nat) (p0 p1 : Int) : List (Nat × Bool) :=
  let f0 := floorDiv p0 (2 ^ 60)
  let f1 := floorDiv p1 (2 ^ 60)
  (List.range (f1 - f0).natAbs).map (fun (i : Nat) =>
    if f0 < f1 then (crossBeat 3000 b0 p0 p1 ((f0 + 1 + (i : Int)) * 2 ^ 60), true)
    else (crossBeat 3000 b0 p0 p1 ((f0 - (i : Int)) * 2 ^ 60), false))

/-- Slip, stall and encoder detections of R623, as flag bits. -/
def Mach.bookFaults (m : Mach) (a : Fin 2) : List Nat :=
  let x := m.axis a
  if m.is (F.HAL_AX_CTL_ENC a) && m.axState a != 0 then
    let e := (x.c - m.obs a).natAbs
    let win := m.act (F.HAL_AX_SLIP_STALLT a) * 3000
    let recent := (x.cTimes.filter (fun t => m.now ≤ t + win)).length
    (if m.act (F.HAL_AX_SLIP_SLIPW a) < e then [0] else []) ++
    (if 2 ≤ recent && x.encTime + win ≤ m.now then [1] else []) ++
    (if x.qerr then [2] else [])
  else []

/-- The Reef level that the axis acts on from this boundary (R600). -/
def Mach.axisLevel (m : Mach) (a : Fin 2) : Mach :=
  let x := m.axis a
  let l := m.get F.REEF_STAT_LEVEL
  let lvl := match m.axState a with
    | 1 => l
    | 0 | 6 => l
    | 5 => if x.lvlSeen < l && x.lvl < l then l else x.lvl
    | _ => x.lvl
  m.setAxis a { x with lvl := lvl, lvlSeen := l }

/-- Whether a commit of the axis may apply at this boundary (R629, R630). -/
def Mach.axisCommitOk (m : Mach) (a : Fin 2) : Bool :=
  let s := m.axState a
  (s = 0 || s = 1 || s = 6) && !m.guardTrips a &&
  (match m.commitTick (axisCommit a) with | some t => t + 4 ≤ m.now | none => false)

/-- The end of a stop: OFF or HELD, CAUSE, HAL_STOP (R599, R611, R633). -/
def Mach.stopEnds (m : Mach) (a : Fin 2) : Mach :=
  let x := m.axis a
  let m := m.setAxCause a x.why
  if x.offAfter then (m.setAxState a 0).setAxis a { x with offAfter := false, schedOn := false } else m.setAxState a 3

/-- A mirrored axis over the MI that begins at this beat: p1, STOPD and STATE come from the frame, and it neither plans
nor steps (R902); in FAULT it stays where it is (R913).  C stays, since no step is made (log entry 99).
Log entry 18. -/
def Mach.mirrorMi (m : Mach) (a : Fin 2) : Mach :=
  let m := m.refPass a
  let x := m.axis a
  let f := m.bwl.ax[a]
  let run := m.get F.BWL_STAT_STATE = 4 && m.axState a != 6
  let p1 := if run then f.p1 else x.p
  let m := m.setAxis a { x with hist := ((m.now, x.p) :: x.hist).take 16384, miAt := some m.now, p := p1, v := p1 - x.p, a := 0,
                                starting := false, offAfter := false, dwell := none, due := [] }
  let m := if run then m.setAxState a f.state else m
  let m := m.publish a
  if m.axisCommitOk a then m.axisApply a else m

/-- One axis over the MI that begins at this beat; the result says whether a detection of R623 stopped it
(R589, R595, R599, R603, R609, R611-R616, R623, R625, R629, R630, R901). Log entry 36. -/
def Mach.axisMi (m : Mach) (a : Fin 2) (j : Jerk) : Bool × Mach :=
  if m.mirrored then (false, m.mirrorMi a)
  else
  let b := m.now + (if m.ahead then 3000 else 0)
  let m := m.refPass a
  let x := m.axis a
  let m := m.setAxis a { x with hist := ((b, x.p) :: x.hist).take 16384, miAt := some m.now }
  let bad := m.bookFaults a
  let m := m.setAxis a { m.axis a with qerr := false }
  if !bad.isEmpty then
    (true, (m.each bad (fun i m => m.axFlag a i)).axFaultAt a 5 (m.axis a).p)
  else
    -- EN
    let m := if (m.axis a).starting && !(m.axis a).offAfter then
        (m.setAxState a 1).setAxis a { m.axis a with starting := false, v := 0, a := 0 }
      else m
    let m := (m.axisLevel a).publish a
    let m := if m.axisCommitOk a then m.axisApply a else m
    -- HOLD, the guard, a restart
    let s := m.axState a
    let m := if m.is (F.HAL_AX_CTL_HOLD a) && (s = 1 || s = 4 || s = 5) then m.stopAxis a 2
             else if m.guardTrips a then m.guardStop a else m.restart a
    -- a commit that waited for the return to RUN applies at that boundary (R629)
    let m := if s != 1 && m.axState a = 1 && m.axisCommitOk a then m.axisApply a else m
    let v0 := (m.axis a).v
    let p0 := (m.axis a).p
    let (x, met) := m.integrate a j
    let m := m.setAxis a { x with due := x.due ++ stepsDue b p0 x.p }
    let m := m.posevCheck a
    let m := if v0 != 0 && x.v = 0 then m.pulse 6 9 else m
    match m.axState a with
    | 1 =>
      let m := if met then m.axisPulse a 0 else m
      (false, if met && m.act (F.HAL_AX_MODE_MODE a) = 1 then m.setAxCause a 7 else m)
    | 2 => (false, if x.v = 0 && x.a = 0 then m.stopEnds a else m)
    | 4 => (false, if met then m.setAxState a 5 else m)
    | 5 =>
      if met || x.v = m.halVE a then
        let m := m.setAxState a 1
        let m := if m.axisCommitOk a then m.axisApply a else m
        (false, if m.act (F.HAL_AX_MODE_MODE a) = 0 then m.axisPulse a 0 else m)
      else (false, m)
    | _ => (false, m)

/-- The next MI boundary (R588). -/
def Mach.miDue (m : Mach) : Nat :=
  let g := nextGrid 3000 m.now
  if (m.axis 0).miAt = some g then g + 3000 else g

/-! ## Steps and lines -/

def Mach.stepW (m : Mach) (a : Fin 2) : Nat := max 75 (min 1500 (m.act (F.HAL_AX_STEPT_STEPW a)))

/-- STEP{a} is high (R586). -/
def Mach.stepHigh (m : Mach) (a : Fin 2) : Bool :=
  match (m.axis a).lastRise with
  | some r => r ≤ m.now && m.now < r + (m.axis a).riseW
  | none => false

/-- Drives DIR{a} for motion in a direction (R587). -/
def Mach.driveDir (m : Mach) (a : Fin 2) (fwd : Bool) : Mach :=
  let level := if fwd then m.get (F.HAL_AX_CTL_DIR a) else 1 - m.get (F.HAL_AX_CTL_DIR a)
  { m with out := { m.out with dir := BitVec.ofNat 2 (setBits m.out.dir.toNat a a level) } }

/-- STEP_PULSE: the oldest due step rises (R585-R587). -/
def Mach.stepPulse (m : Mach) (a : Fin 2) : Mach :=
  let x := m.axis a
  match x.due with
  | [] => m
  | (b, fwd) :: rest =>
    let due := nextGrid 4 b
    -- before any motion DIR shows the level for forward motion
    let turn := x.dirFwd != some fwd
    let flips := x.dirFwd.getD true != fwd
    let dirAt := if flips then due else x.dirAt
    let rise := max due (match x.lastRise with | some r => r + x.riseW + 4 * m.stepW a | none => due)
    let rise := if x.dirFwd.isNone && !flips then rise else max rise (dirAt + 4 * m.act (F.HAL_AX_STEPT_DIRSU a))
    let m := m.runTo rise
    let m := if turn then m.driveDir a fwd else m
    let m := m.setAxis a { x with due := rest, c := x.c + (if fwd then 1 else -1), lastRise := some rise,
                                  riseW := 4 * m.stepW a,
                                  dirFwd := some fwd, dirAt := dirAt, cTimes := (rise :: x.cTimes).take 2 }
    m.posevCheck a

/-- A stretch over which p moves evenly: first beat, length, p at its ends (R590). -/
structure PosSeg where
  b0 : Nat
  len : Nat
  p0 : Int
  p1 : Int
  deriving DecidableEq, Repr

/-- The two newest stretches known, the older first; the jump of a POSSET is none. -/
def AxisSt.segs (x : AxisSt) : List PosSeg :=
  match x.hist with
  | (b1, p1) :: (b0, p0) :: _ =>
    (if b0 = b1 then [] else [⟨b0, min 3000 (b1 - b0), p0, p1⟩]) ++ [⟨b1, 3000, p1, x.p⟩]
  | [(b1, p1)] => [⟨b1, 3000, p1, x.p⟩]
  | [] => []

/-- HAL_LINE_TRIGGER: p crosses a head's next due line in this MI (R604, R605). -/
def Mach.halLine (m : Mach) (h : Fin 6) : Mach :=
  if !m.is (F.HAL_HEAD_EN h) then m
  else
    let a := m.axisOf h
    let x := m.axis a
    let k := x.next[h]
    match x.lineAt (m.halPh h) k with
    | none => m
    | some q =>
      let Q := q * 2 ^ 44
      match x.segs.find? (fun g => decide (g.p0 < Q) && decide (Q ≤ g.p1)) with
      | none => m
      | some g =>
        if x.schedOn && !(m.mirrored && (!m.is (F.HAL_AX_CTL_EN a) || m.axState a = 6)) then
          let m := m.runTo (crossBeat g.len g.b0 g.p0 g.p1 Q)
          let m := m.setAxis a { x with next := x.next.set h (k + 1) }
          if m.trigSrc h = 0 then m.lineTrigger h q else m
        else m

/-! ## Commands -/

/-- HAL_STOPNOW (R632). -/
def Mach.halStopnow (m : Mach) (a : Fin 2) : Mach := if (m.axis a).moving then m.axFault a 4 else m

/-- HAL_HOLD: HOLD written (R631). -/
def Mach.halHold (m : Mach) (a : Fin 2) (on : Bool) : Mach :=
  let m := m.put (F.HAL_AX_CTL_HOLD a) (b2n on)
  let s := m.axState a
  if on && (s = 1 || s = 4 || s = 5) then m.stopAxis a 2 else m

/-- HAL_EN: EN written (R595, R633, R634); on a mirrored axis it only enables line scheduling (R902).  EN set again during the stop
that its clearing began starts the axis after that stop (log entry 99). Log entry 27. -/
def Mach.halEn (m : Mach) (a : Fin 2) (on : Bool) : Mach :=
  let was := m.is (F.HAL_AX_CTL_EN a)
  let m := m.put (F.HAL_AX_CTL_EN a) (b2n on)
  let x := m.axis a
  if m.mirrored then m
  else if on then
    if was || x.needPlan || m.is F.SHR_STATUS_SAFE then m
    else m.setAxis a { x with starting := true }
  else
    let s := m.axState a
    if x.offAfter then m.setAxis a { x with starting := false }
    else if was && x.moving && s != 6 then
      (m.stopAxis a 3).setAxis a { x with why := 3, offAfter := true, starting := false }
    else
      let m := m.setAxis a { x with starting := false, dwell := none }
      if s = 0 then m else (m.setAxState a 0).setAxCause a (if s = 6 then m.get (F.HAL_AX_STAT_CAUSE a) else 3)

/-- HAL_POSSET (R635). -/
def Mach.halPosset (m : Mach) (a : Fin 2) (v : Int) : Mach :=
  if m.axState a = 0 then
    let m := m.refPass a
    let x := m.axis a
    let raw := floorDiv (m.encCnt a * m.act (F.HAL_AX_ENC_ESCALE a)) 65536
    let old := (m.now, m.posExact a) :: x.hist.dropWhile (fun e => decide (m.now < e.1))
    (m.setAxis a { x with p := v * 2 ^ 60, v := 0, a := 0, c := v, obsOff := v - raw, due := [],
                          hist := ((m.now, v * 2 ^ 60) :: old).take 16384 }).posevCheck a
  else m.axFlag a 5

/-- A write of HAL_HEAD{n} (R601). Log entry 80. -/
def Mach.halHeadWrite (m : Mach) (h : Fin 6) (en axis : Nat) : Mach :=
  if m.is (F.HAL_AX_CTL_EN (m.get (F.HAL_HEAD_AXIS h))) || m.is (F.HAL_AX_CTL_EN (axis % 2)) then m.axFlag 0 7
  else (m.put (F.HAL_HEAD_EN h) en).put (F.HAL_HEAD_AXIS h) axis

/-- A write of HAL_PH{n} (R601). Log entry 80. -/
def Mach.halPhWrite (m : Mach) (h : Fin 6) (v : Nat) : Mach :=
  if m.is (F.HAL_AX_CTL_EN (m.get (F.HAL_HEAD_AXIS h))) then m.axFlag 0 7 else m.put (F.HAL_PH_PH h) v

/-- New encoder levels of axis a have held for `n` beats: they pass its filter (R620, R622). -/
def Mach.encPasses (m : Mach) (a : Fin 2) (n : Nat) : Bool := m.act (F.HAL_AX_EFLT_EFLT a) ≤ n

/-- ENCODER_COUNT: a transition whose levels have held for `n` beats (R620). -/
def Mach.encoderCount (m : Mach) (a : Fin 2) (q : Quad) (n : Nat) : Mach :=
  let inv := m.is (F.HAL_AX_CTL_ENCINV a)
  let add (d : Int) : Mach :=
    (m.put (F.HAL_AX_ENCCNT_N a) (wrapInt 32 (m.encCnt a + d))).setAxis a { m.axis a with encTime := m.now }
  if !m.encPasses a n then m
  else match q with
  | .aLeads => add (if inv then -1 else 1)
  | .bLeads => add (if inv then 1 else -1)
  | .illegal => ((m.axFlag a 2).countHold (F.HAL_AX_FLT_QCNT a) 1).setAxis a { m.axis a with qerr := true }

/-- ENCODER_INDEX: the index has been high for `n` beats (R622). -/
def Mach.encoderIndex (m : Mach) (a : Fin 2) (n : Nat) : Mach :=
  if m.encPasses a n then (m.put (F.HAL_AX_IDXCNT_N a) (m.get (F.HAL_AX_ENCCNT_N a))).axisPulse a 4 else m

end Sys2Proof.Machine
end

