-- ==== Sys2Proof/Machine/Reef.lean ====
section
/-!
DEFINITION. Reef: its inputs and its level at a motion interval boundary (ch. 16).
-/
namespace Sys2Proof.Machine

/-- A REEF field as it acts (ch. 16 section 4). -/
def Mach.reefGet (m : Mach) (f : Fld) : Nat := setGet m.reef.eff f

/-- A write of a REEF register: it acts at the first boundary at least 4 beats later. -/
def Mach.reefWrite (m : Mach) (a : Nat) (v : Word) : Mach :=
  let m := m.plainWrite a v
  { m with reef := { m.reef with wrote := m.reef.wrote ++ [(m.now, a, m.reg a)] } }

/-- REEF_CLRCNT (R651). -/
def Mach.reefClrcnt (m : Mach) : Mach := (m.put F.REEF_CNT_RAISES 0).put F.REEF_CNT_LOWERS 0

/-- Writes old enough act. -/
def ReefSt.settle (x : ReefSt) (b : Nat) : ReefSt :=
  { x with eff := (x.wrote.filter (fun w => w.1 + 4 ≤ b)).foldl (fun e w => Sparse.set regReset e w.2.1 w.2.2) x.eff,
           wrote := x.wrote.filter (fun w => b < w.1 + 4) }

/-- Ring input of one head (R642). -/
def Mach.ringX (m : Mach) (h : Fin 6) : Nat :=
  let n := m.get (F.TRG_R_NSLOT_NSLOT h)
  let stop := if m.is (F.HAL_HEAD_EN h) then m.get (F.HAL_MARG_LSTOP h) else 0
  min 255 (256 * (n - m.ringFree h + stop) / n)

/-- x_r and the head that set it (R642, R654). -/
def Mach.reefRing (m : Mach) : Nat × Nat :=
  allHeads.foldl (fun (x : Nat × Nat) h =>
    if m.ringOn h && (m.reefGet F.REEF_INEN_RING).testBit h && x.1 < m.ringX h then (m.ringX h, h.val) else x) (0, 0)

/-- The greatest lamp request of the enabled heads (R644). -/
def Mach.reefLamp (m : Mach) : Nat :=
  allHeads.foldl (fun (x : Nat) (h : Fin 6) =>
    if (m.reefGet F.REEF_INEN_LAMP).testBit h then max x (m.get (F.H_ILL_STAT_REEFREQ h)) else x) 0

/-- The die floor (R644, R645). -/
def Mach.reefDie (m : Mach) : Nat := if m.is F.SHR_TEMP_WARN then m.reefGet F.REEF_CTL_DIEL else 0

/-- LO acts as HI - 1 when it is not below HI (R654). -/
def loOf (hi lo : Nat) : Nat := if hi ≤ lo then hi - 1 else lo

/-- A pressure input demands a raise (R648). Log entry 31. -/
def demands (x hi hold now lastRaise : Nat) (xl : Option Nat) : Bool :=
  hi < x && (match xl with | none => true | some l => lastRaise + hold ≤ now && l < x)

/-- Lowest of the causes that hold, 0 when none (R652). -/
def leastCause : List (Bool × Nat) → Nat
  | [] => 0
  | (b, c) :: t => if b then c else leastCause t

/-- L becomes `new`: LEVEL, counts, TCHG, CAUSE and the event (R639, R649-R652). -/
def Mach.reefSet (m : Mach) (new cause : Nat) : Mach :=
  let old := m.get F.REEF_STAT_LEVEL
  if new = old then m
  else
    let m := m.put F.REEF_STAT_LEVEL new
    let m := (m.put F.REEF_TCHG_LO_T (sysOf m.now)).put F.REEF_TCHG_HI_T (sysOf m.now / 2 ^ 32)
    let m := if old < new then
        { (m.countHold F.REEF_CNT_RAISES 1).put F.REEF_STAT_CAUSE cause with reef := { m.reef with lastRaise := m.now } }
      else { m.countHold F.REEF_CNT_LOWERS 1 with reef := { m.reef with lastFall := m.now } }
    m.pulse 6 10

/-- The followers' REEFREQ, a further floor on unit 0 of a ring (R906). -/
def Mach.ringFloor (m : Mach) : Nat := if m.is F.BWL_CTL_EN && m.get F.BWL_CTL_ROLE = 1 then m.bwl.reefReq else 0

/-- REEF_EVALUATE at this boundary; `starved` beats were starved in the MI that ends (R639-R661); a
Bowline master takes the followers' REEFREQ as a further floor (R906). Log entry 30. Log entry 31. Log entry 32. -/
def Mach.reefEval (m : Mach) (starved : Nat) : Mach :=
  let b := m.now
  let r := m.reef.settle b
  let m := { m with reef := { r with starved := (starved :: r.starved).take 1024 } }
  let L := m.get F.REEF_STAT_LEVEL
  let (xr, head) := m.reefRing
  let xc := if m.reefGet F.REEF_INEN_CRED = 0 then 0 else min 255 (m.reef.starved.foldl (· + ·) 0 / 12000)
  let lamp := m.reefLamp
  let die := m.reefDie
  let codec := if m.reefGet F.REEF_INEN_CODEC = 1 then m.get F.BC_CAP_CODECREQ else 0
  let minl := m.reefGet F.REEF_CTL_MINL
  let floor := max (max (max minl lamp) (max codec die)) m.ringFloor
  let m := ((((m.put F.REEF_PRESS_XR xr).put F.REEF_PRESS_XC xc).put F.REEF_PRESS_XRHEAD head).put F.REEF_PRESS_LAMP lamp)
  let m := (m.put F.REEF_PRESS_CODEC (m.get F.BC_CAP_CODECREQ)).put F.REEF_PRESS_DIE die
  let m := (m.put F.REEF_STAT_FLOOR floor).put F.REEF_STAT_DIEW (m.get F.SHR_TEMP_WARN)
  let hiR := m.reefGet F.REEF_RINGWM_HI
  let hiC := m.reefGet F.REEF_CREDWM_HI
  let quiet := xr ≤ loOf hiR (m.reefGet F.REEF_RINGWM_LO) && xc ≤ loOf hiC (m.reefGet F.REEF_CREDWM_LO)
  let force := m.reefGet F.REEF_CTL_FORCE = 1
  if force || m.reefGet F.REEF_CTL_EN = 0 then
    let base := if force then m.reefGet F.REEF_CTL_FORCEL else minl
    let m := { m with reef := { m.reef with xRing := if force || xr ≤ hiR then none else m.reef.xRing,
                                              xCred := if force || xc ≤ hiC then none else m.reef.xCred,
                                              calm := none, forced := true } }
    let new := max base (max (max lamp die) m.ringFloor)
    (m.reefSet new (leastCause [(lamp = new, 4), (die = new, 5), (true, 6)])).put F.REEF_STAT_DWELL 0
  else
    let x := m.reef
    let x := if x.forced then { x with forced := false, calm := none, lastRaise := b, lastFall := b } else x
    let x := { x with calm := if quiet then (match x.calm with | some t => some t | none => some b) else none,
                      xRing := if xr ≤ hiR then none else x.xRing, xCred := if xc ≤ hiC then none else x.xCred }
    let hold := max 1 (m.reefGet F.REEF_CTL_RHOLD) * 3000000
    let afterFloor := max L floor
    let maxl := m.reefGet F.REEF_CTL_MAXL
    let dr := demands xr hiR hold b x.lastRaise x.xRing
    let dc := demands xc hiC hold b x.lastRaise x.xCred
    let press := (dr || dc) && afterFloor < maxl
    let x := if press then { x with xRing := if dr then some xr else x.xRing, xCred := if dc then some xc else x.xCred } else x
    let up := if press then afterFloor + 1 else afterFloor
    let m := { m with reef := x }
    let m :=
      if L < up then
        let f := L < floor
        m.reefSet up (leastCause [(press && dr, 1), (press && dc, 2), (f && codec = floor, 3), (f && lamp = floor, 4),
          (f && die = floor, 5), (true, 6)])
      else
        match x.calm with
        | some t =>
          if floor < L && t + 192000000 ≤ b && x.lastRaise + 384000000 ≤ b && x.lastFall + 192000000 ≤ b then
            m.reefSet (L - 1) 0
          else m
        | none => m
    m.put F.REEF_STAT_DWELL (b2n (match m.reef.calm with | some t => b < t + 192000000 | none => false))

end Sys2Proof.Machine
end

