-- ==== Sys2Proof/Machine/Bowline.lean ====
section
/-!
DEFINITION. Bowline: frames, discovery, the epoch, events and dropouts (ch. 22).
-/
namespace Sys2Proof.Machine

/-! ## Moving the count -/

def CoreSt.shift (x : CoreSt) (d : Int) : CoreSt := { x with waitUntil := movedO d x.waitUntil }
def RdTag.shift (x : RdTag) (d : Int) : RdTag := { x with sent := movedO d x.sent, quarAt := moved d x.quarAt }
def StSt.shift (x : StSt) (d : Int) : StSt :=
  { x with tags := x.tags.map (fun (t : RdTag) => t.shift d), suspendAt := moved d x.suspendAt, ackAt := moved d x.ackAt,
           nakAt := movedO d x.nakAt, offerAt := movedO d x.offerAt, noticeAt := movedO d x.noticeAt,
           starveFrom := moved d x.starveFrom }
def LnSt.shift (x : LnSt) (d : Int) : LnSt :=
  { x with entered := moved d x.entered, attempt := movedO d x.attempt, idleTo := moved d x.idleTo, gone := movedO d x.gone,
           ackFrom := movedO d x.ackFrom, rxAt := moved d x.rxAt,
           bursts := x.bursts.map (fun (b : Burst) => { b with since := moved d b.since }) }
def PortSt.shift (x : PortSt) (d : Int) : PortSt :=
  { x with wbuf := x.wbuf.map (fun (w : PortWrite) => { w with ready := moved d w.ready }), free := moved d x.free,
           rd := x.rd.map (fun (r : PortRead) => { r with edge := movedO d r.edge
                                                          got := r.got.map (fun (g : Nat × BitVec 32 × Nat) => (g.1, g.2.1, moved d g.2.2)) }),
           orphans := x.orphans.map (fun (o : Nat × Nat) => (o.1, moved d o.2)) }
def AuxSeq.shift (x : AuxSeq) (d : Int) : AuxSeq :=
  { x with loop := x.loop.map (fun (l : Nat × Nat) => (moved d l.1, l.2)),
           run := x.run.map (fun (r : AuxRun) => { r with sw := moved d r.sw, base := moved d r.base, stop := moved d r.stop }),
           free := moved d x.free,
           land := x.land.map (fun (p : AuxPend) =>
             { p with sw := moved d p.sw, slots := p.slots.map (fun (s : Nat) => moved d s), loop := moved d p.loop }),
           steer := x.steer.map (fun (k : Steer) => { k with since := moved d k.since, until' := moved d k.until', sw := moved d k.sw }),
           ended := x.ended.map (fun (e : Nat × Nat) => (moved d e.1, e.2)), nextStart := movedO d x.nextStart,
           evDue := x.evDue.map (fun (t : Nat) => moved d t), urg := x.urg.map (fun (u : Nat × Nat) => (u.1, moved d u.2)),
           urgEnd := x.urgEnd.map (fun (u : Nat × Nat) => (moved d u.1, moved d u.2)),
           stale := x.stale.map (fun (t : Nat) => moved d t), t := x.t.map (fun (t : Nat) => moved d t) }
def AuxSt.shift (x : AuxSt) (d : Int) : AuxSt :=
  { x with seq := x.seq.map (fun (s : AuxSeq) => s.shift d), calEnd := movedO d x.calEnd, refClr := moved d x.refClr, refAt := moved d x.refAt,
           refLows := x.refLows.map (fun (l : Nat × Nat) => (moved d l.1, moved d l.2)),
           blank := x.blank.map (fun (l : Nat × Nat) => (moved d l.1, moved d l.2)), xSince := movedO d x.xSince, exSince := x.exSince.map (fun (t : Nat) => moved d t) }

/-- Every count of elapsed beats goes on across a change of T by `d`; what is noted of one beat or tick does not meet the new
count (log entry 70). -/
def Mach.shiftTimes (m : Mach) (d : Int) : Mach :=
  let p := m.pwr
  let b := m.boot
  let r := m.reef
  { m with cores := m.cores.map (fun (x : CoreSt) => { x.shift d with evAt := 0, evSet := 0, evOvf := 0, lateAt := none }),
           heads := m.heads.map (fun (x : HeadSt) => x.shift d), beat := {},
           shr := { m.shr with latchAt := moved d m.shr.latchAt, shutdownWait := movedO d m.shr.shutdownWait, latchTick := none },
           pwr := { p with softEnd := movedO d p.softEnd, selfTest := movedO d p.selfTest },
           st := m.st.shift d, port := m.port.shift d, ln := m.ln.shift d, aux := m.aux.shift d,
           reef := { r with wrote := r.wrote.map (fun (w : Nat × Nat × BitVec 32) => (moved d w.1, w.2)),
                            lastRaise := moved d r.lastRaise, lastFall := moved d r.lastFall, calm := movedO d r.calm },
           bc := { m.bc with capFrom := moved d m.bc.capFrom, capRise := moved d m.bc.capRise, encFrom := movedO d m.bc.encFrom,
                             stopAt := movedO d m.bc.stopAt },
           trg := { m.trg with armedSince := moved d m.trg.armedSince, swtAt := Vector.replicate 16 0,
                               units := m.trg.units.map (fun (u : UnitSt) => { u with since := moved d u.since }) },
           boot := { b with began := moved d b.began, zeroDue := movedO d b.zeroDue, lastWord := moved d b.lastWord, checkAt := moved d b.checkAt,
                            claimed := moved d b.claimed, vSince := movedO d b.vSince, aSince := movedO d b.aSince,
                            arm := movedO d b.arm, blow := b.blow.map (fun (w : Nat × Nat) => (w.1, moved d w.2)),
                            laneFrom := movedO d b.laneFrom, laneFail := movedO d b.laneFail },
           nv := { m.nv with cmd := m.nv.cmd.map (fun (c : NvCmd) => { c with start := moved d c.start }),
                             entry := m.nv.entry.map (fun (e : NvEntry) => { e with start := moved d e.start }),
                             search := movedO d m.nv.search } }

/-! ## Status -/

/-- Sets STATE; a change pulses BWL (R911). -/
def Mach.bwlState (m : Mach) (s : Nat) : Mach :=
  if m.get F.BWL_STAT_STATE = s then m else (m.put F.BWL_STAT_STATE s).pulse 7 15

/-- Sets a W1C flag; setting pulses BWL (R911). -/
def Mach.bwlFlag (m : Mach) (f : Fld) : Mach := if m.is f then m.put f 1 else (m.put f 1).pulse 7 15

/-- Shows a byte of the last valid frame; a change pulses BWL (R911). -/
def Mach.bwlShow (m : Mach) (f : Fld) (v : Nat) : Mach := if m.get f = v then m else (m.put f v).pulse 7 15

def Mach.bwlMaster (m : Mach) : Bool := m.is F.BWL_CTL_EN && m.get F.BWL_CTL_ROLE = 1
def Mach.bwlFollower (m : Mach) : Bool := m.is F.BWL_CTL_EN && m.get F.BWL_CTL_ROLE = 0
def Mach.bwlUnit (m : Mach) : Nat := m.get F.BWL_STAT_UNIT
def Mach.setUnitNo (m : Mach) (k : Nat) : Mach := (m.put F.BWL_STAT_UNIT k).put F.SYS_ID_UNIT k

/-- A zero HOPLEN acts as 1 (R895). -/
def Mach.hopLen (m : Mach) : Nat := max 1 (m.get F.BWL_CTL_HOPLEN)

/-! ## Frames (R891) -/

/-- Byte `i` of a frame whose bytes 1-88 are given. -/
def fb (l : List Byte) (i : Nat) : Nat := (l.getD (i - 1) 0).toNat
def fbs (l : List Byte) (i n : Nat) : List Byte := (l.drop (i - 1)).take n

/-- The fields of a frame. -/
structure BwlFrame where
  flags : Nat
  hopc : Nat
  /-- Bytes 3-36. -/
  body : List Byte
  level : Nat
  slots : List (Option (BwlEvent × Nat))
  stop : Nat
  qmin : Vector Nat 2
  reefReq : Nat
  fault : Nat
  seen : Nat
  hopSum : Nat
  deriving DecidableEq, Repr

def slotBytes : Option (BwlEvent × Nat) → List Byte
  | none => List.replicate 8 0
  | some (e, age) => BitVec.ofNat 8 (0x80 + 16 * (e.origin % 8) + e.ch % 8) :: BitVec.ofNat 8 age :: leBytes 6 e.time

def slotOf (l : List Byte) : Option (BwlEvent × Nat) :=
  let b := (l.getD 0 0).toNat
  if b < 128 then none
  else some ({ ch := b % 8, origin := bits b 6 4, time := leNat ((l.drop 2).take 6) }, (l.getD 1 0).toNat)

/-- Bytes 1-88 of a frame, CHK among them. -/
def BwlFrame.bytes (f : BwlFrame) : List Byte :=
  let l := [BitVec.ofNat 8 f.flags, BitVec.ofNat 8 f.hopc] ++ f.body ++ [BitVec.ofNat 8 f.level] ++
    f.slots.flatMap slotBytes ++ [BitVec.ofNat 8 f.stop] ++ beBytes 6 f.qmin[0] ++ beBytes 6 f.qmin[1] ++
    [BitVec.ofNat 8 f.reefReq, BitVec.ofNat 8 f.fault, BitVec.ofNat 8 f.seen] ++ leBytes 2 f.hopSum
  l ++ [crc8 l]

def parseBwl (l : List Byte) : BwlFrame :=
  { flags := fb l 1, hopc := fb l 2, body := fbs l 3 34, level := fb l 37,
    slots := [38, 46, 54, 62].map (fun (i : Nat) => slotOf (fbs l i 8)), stop := fb l 70,
    qmin := #v[beNat (fbs l 71 6), beNat (fbs l 77 6)], reefReq := fb l 83, fault := fb l 84, seen := fb l 85,
    hopSum := leNat (fbs l 86 2) }

/-- A frame is valid (R893). -/
def bwlValid (l : List Byte) (viol : Bool) : Bool :=
  !viol && l.length = 88 && crc8 (l.take 87) = l.getD 87 0 && fb l 1 < 128 && fb l 1 % 4 != 3

/-! ### On the trigger link (R890) -/

/-- The frame that 150 symbols carry: bytes 1-88 as far as they are data, and whether a symbol breaks the code. The K28.5 in
front tells the running disparity. Log entry 108. -/
def frameOf (syms : List (BitVec 10)) : List Byte × Bool :=
  let rd := (readSym (syms.headD 0).toNat false).1 != .ctl .k285
  let s := readSyms syms rd
  ((dataRun (s.drop 1)).take 88, s.head? != some (.ctl .k285) || s.any (fun x => x = .bad))

/-- The 150 symbols of a frame whose bytes 1-88 are given: K28.5, the bytes, K28.3 idles; and the disparity after them.
Log entry 108. -/
def frameSyms (l : List Byte) (rd : Bool) : List (BitVec 10) × Bool :=
  let codes := (fun (r : Bool) => kSym .k285 r) :: l.map (fun (b : Byte) => dataSym b.toNat) ++ List.replicate 61 (kSym .k283)
  codes.foldl (fun (s : List (BitVec 10) × Bool) (c : Bool → Nat × Bool) => (s.1 ++ [BitVec.ofNat 10 (c s.2).1], (c s.2).2)) ([], rd)

/-- A frame leaves the pins from beat `t` on. Log entry 40. -/
def Mach.bwlPut (m : Mach) (t : Nat) (f : BwlFrame) : Mach :=
  let s := frameSyms f.bytes m.bwl.txRd
  { m with bwl := { m.bwl with tx := f.bytes, txSyms := s.1, txAt := t, txRd := s.2 } }

/-! ## Event slots (R908, R909) -/

/-- Fills the free slots with waiting events of this unit, oldest first. -/
def fillSlots (unit : Nat) : List (Option (BwlEvent × Nat)) → List (BwlEvent × Bool) →
    List (Option (BwlEvent × Nat)) × List BwlEvent × List (BwlEvent × Bool)
  | [], w => ([], [], w)
  | some x :: t, w => let r := fillSlots unit t w; (some x :: r.1, r.2.1, r.2.2)
  | none :: t, [] => (none :: t, [], [])
  | none :: t, (e, _) :: w =>
    let e := { e with origin := unit }
    let r := fillSlots unit t w
    (some (e, 0) :: r.1, e :: r.2.1, r.2.2)

/-- Queues an event for its delivery boundary, once (R909). -/
def Mach.bwlDue (m : Mach) (b : Nat) (e : BwlEvent) : Mach :=
  if m.bwl.due.contains (b, e) then m else { m with bwl := { m.bwl with due := m.bwl.due ++ [(b, e)] } }

/-- The boundary at or before this beat. -/
def Mach.miStart (m : Mach) : Nat := m.now / 3000 * 3000

/-- Places waiting events in a frame that belongs to boundary `b`. Log entry 18. -/
def Mach.placeEvents (m : Mach) (b : Nat) (slots : List (Option (BwlEvent × Nat))) : List (Option (BwlEvent × Nat)) × Mach :=
  let (s, placed, rest) := fillSlots m.bwlUnit slots m.bwl.wait
  let late := (rest.filter (fun (w : BwlEvent × Bool) => !w.2)).length
  let m := { m with bwl := { m.bwl with wait := rest.map (fun (w : BwlEvent × Bool) => (w.1, true)) } }
  let m := (m.countHold F.BWL_EVCNT_SENT placed.length).countHold F.BWL_EVCNT_DELAYED late
  (s, m.each placed (fun e m => m.bwlDue (b + 6000) e))

/-! ## The master -/

/-- Bytes of one axis (R891, R901); without MIRROR the position at the end of the next MI is not yet known.
Log entry 18. -/
def Mach.axisBytes (m : Mach) (a : Fin 2) : List Byte × Mach :=
  let (p, m) := if m.ahead then (wrapInt 96 (m.axis a).p, m)
    else let (lo, m) := m.fresh 48; let (hi, m) := m.fresh 48; (lo + 2 ^ 48 * hi, m)
  (leBytes 12 p ++ leBytes 4 (m.get (F.HAL_AX_STOPD_D a)) ++ [BitVec.ofNat 8 (m.axState a)], m)

def Mach.safeBit (m : Mach) : Nat := b2n (m.is F.SHR_STATUS_SAFE) * 2 ^ m.bwlUnit

/-- Before the ring is in RUN, frames that failed to return by the second boundary are forgotten, and break the row of
consecutive returns (R895). Log entry 17. -/
def Mach.bwlForget (m : Mach) : Mach :=
  let gone := m.bwl.out.filter (fun (o : Nat × Bool) => o.1 + 6000 ≤ m.now)
  { m with bwl := { m.bwl with out := m.bwl.out.filter (fun (o : Nat × Bool) => m.now < o.1 + 6000),
                                rets := if gone.any (fun (o : Nat × Bool) => !o.2) then [] else m.bwl.rets } }

/-- The master's frame at this MI boundary (R890, R891, R897, R908). Log entry 17. Log entry 71. -/
def Mach.bwlSend (m : Mach) : Mach :=
  if !m.bwlMaster then m
  else
    let b := m.now
    let m := if m.get F.BWL_STAT_STATE = 5 then m.bwlState 1 else m
    let s := m.get F.BWL_STAT_STATE
    let m := if s = 4 then m else m.bwlForget
    let epoch := s = 3 && m.get F.BWL_RTT_DRT ≤ 1150 && m.now % 24000 = 0
    let kind := if s = 4 then 0 else if epoch then 2 else 1
    let (x0, m) := if kind = 0 then m.axisBytes 0 else ([], m)
    let (x1, m) := if kind = 0 then m.axisBytes 1 else ([], m)
    let body := if kind = 0 then x0 ++ x1
      else if kind = 2 then
        leBytes 6 m.sysTime.toNat ++ leBytes 2 (m.get F.BWL_OFS_TOTLEN) ++ leBytes 2 (m.get F.BWL_RTT_DCABLE) ++
          leBytes 2 m.wraps.toNat ++ List.replicate 22 0
      else List.replicate 34 0
    let again := (m.bwl.again.take 4).map (fun (e : BwlEvent) => some (e, 1))
    let m := m.each (m.bwl.again.take 4) (fun e m => m.bwlDue (b + 3000) e)
    let m := { m with bwl := { m.bwl with again := m.bwl.again.drop 4 } }
    let (slots, m) := m.placeEvents b (again ++ List.replicate (4 - again.length) none)
    let f : BwlFrame :=
      { flags := kind, hopc := 0, body := body, level := m.get F.REEF_STAT_LEVEL, slots := slots, stop := 0,
        qmin := #v[2 ^ 48 - 1, 2 ^ 48 - 1], reefReq := 0, fault := m.safeBit, seen := 1, hopSum := 0 }
    let m := m.bwlPut b f
    let m := { m with bwl := { m.bwl with out := m.bwl.out ++ [(b, false)] } }
    if epoch then { m.bwlState 4 with bwl := { m.bwl with stop := 0, notReady := 0 } } else m

/-- A follower enters LOST (R913): its mirrored axes enter FAULT with CAUSE 5. Log entry 18. -/
def Mach.followerLost (m : Mach) : Mach :=
  let m := (m.bwlState 5).bwlFlag F.BWL_STAT_LOST
  if m.is F.BWL_CTL_MIRROR then m.each allAxes (fun a m => m.axFault a 5) else m

/-- The master enters LOST (R914). -/
def Mach.masterLost (m : Mach) : Mach :=
  let m := m.bwlState 5
  { m with bwl := { m.bwl with stop := if m.is F.BWL_CTL_MIRROR then 3 else 0, notReady := if m.is F.BWL_CTL_MIRROR then 3 else 0,
                                rets := [], out := [], pend := none, qmin := #v[none, none], reefReq := 0 } }

/-- A ring in RUN whose frame is overdue at this boundary is lost (R913, R914). -/
def Mach.bwlOverdue (m : Mach) : Bool :=
  m.get F.BWL_STAT_STATE = 4 &&
  ((m.bwlFollower && m.bwl.lastK + 3000 < m.now) || (m.bwlMaster && m.bwl.out.any (fun (o : Nat × Bool) => o.1 + 6000 ≤ m.now)))

/-- Boundary fields of the last returned frame act, or the ring is lost (R904, R913, R914). -/
def Mach.bwlAct (m : Mach) : Mach :=
  if m.bwlOverdue then (if m.bwlFollower then m.followerLost else m.masterLost) else
  match m.bwl.pend with
  | some (stop, notReady, q0, q1, req) =>
    let run := m.get F.BWL_STAT_STATE = 4
    { m with bwl := { m.bwl with pend := none, stop := if run then stop else m.bwl.stop,
                                  notReady := if run then notReady else m.bwl.notReady,
                                  qmin := #v[q0, q1], reefReq := req } }
  | none => m

/-- A least next-due position as QMIN carries it; all ones carries none (log entry 71). -/
def qminOf (v : Nat) : Option Int := if v = 2 ^ 48 - 1 then none else some ((v : Int) - 2 ^ 47)

/-- The ring is measured from 64 valid returns (R895, R896). -/
def Mach.bwlMeasured (m : Mach) (f : BwlFrame) : Mach :=
  let l := m.bwl.rets
  let sum := l.foldl (fun (n x : Nat) => n + x) 0
  let drt := (2 * sum + 64) / 128
  let n := f.hopc + 1
  let m := (m.put F.BWL_STAT_NM1 (n - 1)).put F.BWL_RTT_DRT drt
  let m := m.put F.BWL_RTT_DCABLE (drt - 80 * (n - 1))
  let m := m.put F.BWL_OFS_TOTLEN (f.hopSum + m.hopLen)
  if 1150 < drt then m.bwlFlag F.BWL_STAT_RINGERR else m.bwlState 3

/-- Outstanding frames after the oldest `k` of them have failed to come back. Log entry 17. Log entry 108. -/
def missFrames : Nat → List (Nat × Bool) → List (Nat × Bool)
  | 0, l => l
  | _ + 1, [] => []
  | k + 1, (b, true) :: t => (b, true) :: missFrames (k + 1) t
  | k + 1, (b, false) :: t => (b, true) :: missFrames k t

/-- BWL_FRAME_RETURN: after `lost` older frames that never come back, the K28.5 of the oldest frame outstanding arrives at
this beat (R895, R904, R909). Log entry 17. -/
def Mach.bwlReturn (m0 : Mach) (lost : Nat) (syms : List (BitVec 10)) : Mach :=
  let (l, viol) := frameOf syms
  let m := { m0 with bwl := { m0.bwl with out := missFrames lost m0.bwl.out, rets := if lost = 0 then m0.bwl.rets else [] } }
  match m.bwl.out.find? (fun (o : Nat × Bool) => !o.2) with
  | none => m0
  | some (b, _) =>
    if !m0.bwlMaster then m0
    else if !bwlValid l viol then
      { m with bwl := { m.bwl with rets := [],
                                    out := m.bwl.out.map (fun (o : Nat × Bool) => if o.1 = b then (b, true) else o) } }
    else
      let f := parseBwl l
      let m := { m with bwl := { m.bwl with out := m.bwl.out.filter (fun (o : Nat × Bool) => o.1 != b) } }
      let m := (m.bwlShow F.BWL_STAT_FAULT f.fault).bwlShow F.BWL_STAT_SEEN f.seen
      -- events
      let m := m.each (f.slots.filterMap id) (fun (e : BwlEvent × Nat) m =>
        let m := m.bwlDue (b + 3000 * (2 - e.2)) e.1
        if e.2 = 0 then { m with bwl := { m.bwl with again := m.bwl.again ++ [e.1] } } else m)
      match m.get F.BWL_STAT_STATE with
      | 4 =>
        if fb l 1 % 4 = 0 then
          { m with bwl := { m.bwl with pend := some (bits f.stop 1 0, bits f.stop 5 4, qminOf f.qmin[0], qminOf f.qmin[1], f.reefReq) } }
        else m
      | 1 | 2 =>
        let m := m.bwlState 2
        let rets := (m.now - b) :: m.bwl.rets
        let rets := rets.take 64
        let m := { m with bwl := { m.bwl with rets := rets } }
        let lo := rets.foldl (fun (n x : Nat) => min n x) (m.now - b)
        let hi := rets.foldl (fun (n x : Nat) => max n x) 0
        if rets.length = 64 && hi ≤ lo + 1 then m.bwlMeasured f else m
      | _ => m

/-! ## A follower -/

/-- The unit is idle (R899). -/
def Mach.unitIdle (m : Mach) : Bool :=
  allHeads.all (fun h => !m.is (F.H_TPG_CTL_RUN h) && !m.is (F.H_ILL_CTL_EN h)) && m.axState 0 = 0 && m.axState 1 = 0

/-- The epoch load (R898, R900). Log entry 17. Log entry 18. -/
def Mach.epochLoad (m : Mach) (f : BwlFrame) : Mach :=
  let dcable := leNat ((f.body.drop 8).take 2)
  let totlen := leNat ((f.body.drop 6).take 2)
  let pk := m.bwl.hopSum
  let (share, m) := if totlen = 0 then m.fresh 16 else ((2 * dcable * pk + totlen) / (2 * totlen), m)
  let ofs := share + 80 * (m.bwlUnit - 1)
  let m := (m.put F.BWL_OFS_OK ofs).put F.BWL_OFS_TOTLEN totlen
  let m := m.put F.BWL_RTT_DCABLE dcable
  let v := leNat ((f.body.drop 10).take 2) * 2 ^ 48 + leNat (f.body.take 6) + ofs
  if m.now ≤ v + 1 && v ≤ m.now + 1 then (m.put F.BWL_STAT_EPOCHKEEP 1).bwlState 4
  else if m.unitIdle then
    let t := nextGrid 64 v
    let d : Int := (t : Int) - (m.now + (t - v) : Nat)
    let m := { m with bwl := { m.bwl with lastK := moved d m.bwl.lastK, txAt := moved d m.bwl.txAt,
                                          due := m.bwl.due.map (fun (x : Nat × BwlEvent) => (nextGrid 3000 (moved d x.1), x.2)) } }
    ((((m.setNow (m.now + (t - v))).shiftTimes d).setNow t).put F.BWL_STAT_EPOCHKEEP 0).bwlState 4
  else m.bwlFlag F.BWL_STAT_EPOCHERR

/-- The frame a follower forwards (R891, R892, R903, R906). -/
def Mach.bwlForward (m : Mach) (f : BwlFrame) (bad : Bool) : Mach :=
  let mir := m.mirrored
  let stop := if mir then b2n (m.guardTrips 0) + 2 * b2n (m.guardTrips 1) + 16 * b2n (!m.restartOk 0) + 32 * b2n (!m.restartOk 1) else 0
  let q (a : Fin 2) : Nat := match (if mir then m.qMin a else none) with
    | some x => min f.qmin[a] (wrapInt 48 (x + 2 ^ 47))
    | none => f.qmin[a]
  let (slots, m) := if bad then (f.slots, m) else m.placeEvents m.miStart f.slots
  let hs := (f.hopSum + m.hopLen) % 2 ^ 16
  let me := 2 ^ m.bwlUnit
  let g : BwlFrame :=
    { f with flags := if bad then f.flags ||| 0x80 else f.flags, hopc := (f.hopc + 1) % 256, slots := slots,
             stop := f.stop ||| stop, qmin := #v[q 0, q 1], reefReq := max f.reefReq (m.get F.REEF_STAT_LEVEL),
             fault := f.fault ||| m.safeBit, seen := f.seen ||| me,
             hopSum := hs }
  { m.bwlPut (m.now + 80) g with bwl := { (m.bwlPut (m.now + 80) g).bwl with hopSum := hs } }

/-- Kinematic data of a RUN frame (R902). -/
def Mach.bwlMirror (m : Mach) (f : BwlFrame) : Mach :=
  let ax (o : Nat) : BwlAxis :=
    { p1 := sext 96 (leNat ((f.body.drop o).take 12)), stopd := leNat ((f.body.drop (o + 12)).take 4),
      state := ((f.body.drop (o + 16)).getD 0 0).toNat % 8 }
  { m with bwl := { m.bwl with ax := #v[ax 0, ax 17], level := f.level % 16 } }

/-- BWL_FRAME_RECEIVE: a frame's K28.5 reaches a follower's pins at this beat (R892-R894, R898, R902, R909, R913, R915). -/
def Mach.bwlReceive (m : Mach) (syms : List (BitVec 10)) : Mach :=
  let (l, viol) := frameOf syms
  if !m.bwlFollower || m.bwl.mute then m
  else
    let m := { m with bwl := { m.bwl with lastK := m.now, on := true } }
    let f := parseBwl l
    if !bwlValid l viol then
      let m := (m.bwlFlag F.BWL_STAT_CHKERR).bwlForward f true
      if m.get F.BWL_STAT_STATE = 4 then m.followerLost else m
    else
      let kind := f.flags % 4
      let restart := kind = 1 && m.get F.BWL_STAT_STATE != 1
      let m := if restart then { m.bwlState 1 with bwl := { m.bwl with known := false } } else m
      if !m.bwl.known && 7 ≤ f.hopc then
        { m.bwlFlag F.BWL_STAT_RINGERR with bwl := { m.bwl with mute := true, on := false, tx := [] } }
      else
        let m := if m.bwl.known then m else { m.setUnitNo (f.hopc + 1) with bwl := { m.bwl with known := true } }
        let m := (m.bwlShow F.BWL_STAT_FAULT f.fault).bwlShow F.BWL_STAT_SEEN f.seen
        let m := m.each (f.slots.filterMap id) (fun (e : BwlEvent × Nat) m => m.bwlDue (m.miStart + 3000 * (2 - e.2)) e.1)
        let m := m.bwlForward f false
        if kind = 2 then m.epochLoad f
        else if kind = 0 && m.get F.BWL_STAT_STATE = 4 then m.bwlMirror f else m

/-! ## Commands -/

/-- BWL_EN: BWL_CTL.EN written, with the register's other fields already in place (R894). Log entry 17. -/
def Mach.bwlEn (m : Mach) (on : Bool) : Mach :=
  let was := m.is F.BWL_CTL_EN
  let m := m.put F.BWL_CTL_EN (b2n on)
  if on then
    if was then m
    else
      let m := { m with bwl := { on := m.get F.BWL_CTL_ROLE = 1 } }
      (if m.get F.BWL_CTL_ROLE = 1 then m.setUnitNo 0 else m).bwlState 1
  else ({ m with bwl := {} }).bwlState 0

/-- BWL_REFORM (R915). Log entry 17. -/
def Mach.bwlReform (m : Mach) : Mach :=
  if m.bwlMaster then
    { m.bwlState 1 with bwl := { m.bwl with rets := [], out := [], pend := none, qmin := #v[none, none], reefReq := 0 } }
  else m

/-- BWL_LOST: the time by which a frame was due has passed (R913, R914). -/
def Mach.bwlLost (m : Mach) : Mach :=
  if m.get F.BWL_STAT_STATE != 4 then m
  else if m.bwlFollower then (m.runTo (m.bwl.lastK + 3000)).followerLost
  else match m.bwl.out with
    | (b, _) :: _ => (m.runTo (b + 6000)).masterLost
    | [] => m

/-- A rising edge of MSYNC reaches the logic, or a delivered event acts as one (R324, R438, R910). -/
def Mach.msyncAct (m : Mach) : Mach :=
  m.each allHeads (fun h m => (if m.trigSrc h = 3 then m.lineTrigger h 0 else m).illSwapPoint h 1)

/-- T of an event whose SYS_TIME was carried. -/
def Mach.recentT (m : Mach) (t : Nat) : Nat := m.now - (m.now + 2 ^ 48 - t % 2 ^ 48) % 2 ^ 48

/-- BWL_EVENT_DELIVER: the next event is delivered at its boundary (R909, R910). -/
def Mach.bwlDeliver (m : Mach) : Mach :=
  match m.bwl.due with
  | [] => m
  | d :: rest =>
    let (b, e) := rest.foldl (fun (x y : Nat × BwlEvent) => if y.1 < x.1 then y else x) d
    let m := { m with bwl := { m.bwl with due := m.bwl.due.erase (b, e) } }
    let m := m.runTo b
    match m.get (F.BWL_RX_ACT e.ch) with
    | 1 => m.fireSwt (Fin.ofNat 16 (m.get (F.BWL_RX_SWT e.ch))) (m.recentT e.time) false
    | 2 => m.msyncAct
    | _ => m

end Sys2Proof.Machine
end

