-- ==== Sys2Proof/Machine/Lane.lean ====
section
/-!
DEFINITION. The stream lanes: states, training sets, equalisation, test features and link loss (ch. 19).
-/
namespace Sys2Proof.Machine

def allLanes : List (Fin 4) := [0, 1, 2, 3]

def Mach.lane (m : Mach) (l : Fin 4) : LaneSt := m.ln.lane[l]
def Mach.setLane (m : Mach) (l : Fin 4) (x : LaneSt) : Mach := { m with ln := { m.ln with lane := m.ln.lane.set l x } }

/-- The lane door works: no reset holds it (R132, R141, R801, R930). -/
def Mach.lnUp (m : Mach) : Bool := m.outsUp

/-- LN_STATE pulses, or is owed while the clock is stopped (R793, R801). -/
def Mach.lnEvent (m : Mach) : Mach := if m.clk.running then m.pulse 7 11 else { m with ln := { m.ln with evDue := true } }

/-- Shows a lane's bit and pulses LN_STATE when it changes (R793). -/
def Mach.lnShow (m : Mach) (f : Fld) (on : Bool) : Mach :=
  if m.is f = on then m else (m.put f (b2n on)).lnEvent

/-! ## Configuration in force (R776, R778, R792) -/

def Mach.lnState (m : Mach) : Nat := m.get F.LN_STAT_STATE
def LnSt.field (x : LnSt) (f : Fld) : Nat := bits x.cfg.toNat f.hi f.lo
/-- Bit 0 of LANEMASK always acts as 1 (R776). -/
def LnSt.mask (x : LnSt) : Nat := x.field F.LN_CTL_LANEMASK ||| 1
def LnSt.maxRate (x : LnSt) : Nat := min (x.field F.LN_CTL_MAXRATE) x.ceil
def LnSt.eqTable (x : LnSt) : Bool := x.field F.LN_CTL_EQMODE = 1
/-- Lanes of the link being trained. -/
def LnSt.link (x : LnSt) : List (Fin 4) := allLanes.filter (fun l => l.val < x.width)

/-- A lane has a test feature (R794); a reserved PRBS code acts as 0 (R790). Log entry 48. -/
def Mach.laneTest (m : Mach) (l : Fin 4) : Bool :=
  let on (v : Nat) : Bool := v = 1 || v = 2
  on (m.get (F.LNL_CTL_PRBSGEN l)) || on (m.get (F.LNL_CTL_PRBSCHK l)) || m.is (F.LNL_CTL_LOOP l)

def Mach.anyTest (m : Mach) : Bool := allLanes.any (fun l => m.laneTest l)

/-- Rate that acts in TEST (R792, R794). -/
def Mach.testRate (m : Mach) : Nat := if m.is F.LN_CTL_EN then m.ln.field F.LN_CTL_TESTRATE else m.get F.LN_CTL_TESTRATE

/-! ## States (R774) -/

/-- Enters a state: timeouts run from here, and counts start again. -/
def Mach.lnEnter (m : Mach) (s : Nat) : Mach :=
  let ln := m.ln
  let ln := { ln with entered := m.now, peerRun := 0, ackRun := 0, ackFrom := none,
                      lane := ln.lane.map (fun (x : LaneSt) => { x with run := 0 }) }
  -- what the link carried ends with ACTIVE, and starts with it
  let ln := { ln with bursts := [], rxIn := [], rxDrop := false, lmcnt := 0, lane := ln.lane.map (fun (x : LaneSt) => { x with rxq := [] }) }
  let m := { m with ln := ln, boot := { m.boot with laneUp := m.boot.laneUp || s = 7 } }
  if m.lnState = s then m else (m.put F.LN_STAT_STATE s).lnEvent

/-- DETECT: the settings are taken, inversions end (R758, R792, R798). -/
def Mach.lnDetect (m : Mach) : Mach :=
  let m := { m with ln := { m.ln with cfg := m.reg F.LN_CTL_reg, fellBack := false } }
  let m := m.each allLanes (fun l m => m.put (F.LNL_STAT_RXINV l) 0)
  (m.put F.LN_CTL_RETRAIN 0).lnEnter 1

/-- Where the lanes stand with no attempt in progress: TEST, DETECT or DISABLED (R774, R794, R799). -/
def Mach.lnRest (m : Mach) : Mach :=
  if m.anyTest then m.lnEnter 8 else if m.is F.LN_CTL_EN then m.lnDetect else m.lnEnter 0

/-- The link no longer carries traffic. -/
def Mach.lnLeave (m : Mach) : Mach :=
  (m.each allLanes (fun l m => m.put (F.LNL_STAT_INLINK l) 0)).put F.LN_STAT_WIDTH 0

/-- A link loss (R780). -/
def Mach.linkLost (m : Mach) : Mach :=
  if m.lnState != 7 then m
  else
    let m := (m.put F.LN_STAT_LOSS 1).countHold F.LN_CNT_LOSSES 1
    let m := { m with ln := { m.ln with idleTo := m.now + 30000, ceil := 3, fresh := true, gone := none } }
    (m.lnLeave.lnRest).stLinkLost

/-- ACTIVE: the link carries bursts (R774, R789, R791). -/
def Mach.lnActive (m : Mach) : Mach :=
  let m := m.each m.ln.link (fun l m => m.put (F.LNL_STAT_INLINK l) 1)
  let m := (m.put F.LN_STAT_WIDTH m.ln.width).countHold F.LN_CNT_TRAINS 1
  let m := { m with ln := { m.ln with gone := none } }
  m.lnEnter 7

/-- Lanes that this end has aligned, within LANEMASK (R772). -/
def Mach.lnAligned (m : Mach) : Nat :=
  (allLanes.foldl (fun (n : Nat) (l : Fin 4) => if m.is (F.LNL_STAT_BLOCK l) then n + 2 ^ l.val else n) 0) &&& m.ln.mask

/-- Largest of 4, 2 and 1 whose lanes are set in a mask (R776). -/
def widthOf (mask : Nat) : Nat := if mask % 16 = 15 then 4 else if mask % 4 = 3 then 2 else 1

/-- Sets the taps of a lane's transmitter (R782). Log entry 76. -/
def Mach.setTaps (m : Mach) (l : Fin 4) (pre post : Nat) : Mach :=
  ((m.put (F.LNL_TXEQ_PRE l) pre).put (F.LNL_TXEQ_POST l) post).put (F.LNL_TXEQ_MAIN l) (64 - pre - post)

/-- An attempt may begin, and when (R774, R781). -/
def Mach.attemptAt (m : Mach) : Option Nat :=
  if !m.lnUp || m.lnState != 1 || !m.is F.LN_CTL_EN || !m.ln.ref || !m.ln.pllLock then none
  else if m.ln.fresh then some m.ln.idleTo
  else if m.is (F.LNL_STAT_SIGDET 0) then some (max m.ln.idleTo ((m.ln.attempt.getD 0) + 30000000))
  else none

/-- An attempt begins with ALIGN at L0 (R774, R781). -/
def Mach.attemptGo (m : Mach) : Mach :=
  match m.attemptAt with
  | some t =>
    let m := m.runTo t
    let m := { m with ln := { m.ln with attempt := some m.now, fresh := false, fellBack := false, rate := 0, width := 1 } }
    let m := m.each allLanes (fun l m => m.setTaps l 0 0)
    (m.put F.LN_STAT_RATE 0).lnEnter 2
  | none => m

/-- LINK_ATTEMPT: with INIT = 1 the end waits for its partner instead (R774). -/
def Mach.linkAttempt (m : Mach) : Mach := if m.ln.field F.LN_CTL_INIT = 1 then m else m.attemptGo

/-- Fallback from rate r (R778). -/
def Mach.lnFallback (m : Mach) : Mach :=
  let m := { m with ln := { m.ln with ceil := m.ln.rate - 1, fellBack := true, rate := 0, width := 1 } }
  let m := m.each allLanes (fun l m => m.setTaps l 0 0)
  m.lnEnter 2

/-- TRAINING_TIMEOUT of the state (R774). Log entry 49. -/
def Mach.lnTimeout (m : Mach) : Mach :=
  if !m.lnUp then m
  else
    match m.lnState with
    | 2 => (m.runTo (m.ln.entered + if m.ln.fellBack then 75000000 else 30000000)).lnRest
    | 3 => (m.runTo (m.ln.entered + 30000000)).lnRest
    | 5 => (m.runTo (m.ln.entered + 6000000)).lnFallback
    | 6 => (m.runTo (m.ln.entered + 60000000)).lnFallback
    | _ => m

/-- Taps on entering LOCK (R782, R786). -/
def Mach.lockTaps (m : Mach) (l : Fin 4) : Mach :=
  if m.ln.eqTable then
    let j := m.ln.rate - 1
    let pre := min 12 (m.get (F.LNL_EQT_PRE l j))
    m.setTaps l pre (min (min 20 (m.get (F.LNL_EQT_POST l j))) (32 - pre))
  else m.setTaps l 0 6

/-- LANE_PLL_LOCK: SWITCH moves to LOCK (R774). -/
def Mach.lanePllLock (m : Mach) : Mach :=
  if !m.lnUp || !m.ln.ref then m
  else
    let m := { m with ln := { m.ln with pllLock := true } }
    if m.lnState = 4 then
      let m := m.runTo (m.ln.entered + 12000)
      (m.each allLanes (fun l m => m.lockTaps l)).lnEnter 5
    else m

/-! ## Equalisation (R783-R787) -/

/-- PRE and POST of a preset (R783). -/
def presetTaps (p : Nat) : Nat × Nat := if p = 2 then (0, 6) else if p = 3 then (2, 10) else if p = 4 then (4, 16) else (0, 0)

/-- One tap after a command, with its status: 0 applied, 1 at a limit (R784). -/
def stepTap (cmd v other top : Nat) : Nat × Nat :=
  if cmd = 1 then (if v + 1 ≤ top && v + 1 + other ≤ 32 then (v + 1, 0) else (v, 1))
  else if cmd = 2 then (if 1 ≤ v then (v - 1, 0) else (v, 1))
  else (v, 0)

/-- Acts on a partner's request once (R784, R786). -/
def Mach.actRequest (m : Mach) (l : Fin 4) (pre post preset : Nat) (tog : Bool) : Mach :=
  let x := m.lane l
  if tog = x.ackTog then m
  else
    let refuse := m.ln.eqTable || 4 < preset || (preset = 0 && (pre = 3 || post = 3))
    if refuse then m.setLane l { x with ackTog := tog, preStat := 3, postStat := 3 }
    else if preset != 0 then
      let (a, b) := presetTaps preset
      (m.setTaps l a b).setLane l { x with ackTog := tog, preStat := 0, postStat := 0 }
    else
      let a0 := m.get (F.LNL_TXEQ_PRE l)
      let b0 := m.get (F.LNL_TXEQ_POST l)
      let (a, sa) := stepTap pre a0 b0 12
      let (b, sb) := stepTap post b0 a 20
      (m.setTaps l a b).setLane l { x with ackTog := tog, preStat := sa, postStat := sb }

/-- Places of the search of R785: 1-4 presets, 5 the best one again, 6-9 POST (+1, undo, -1, undo), 10-13 PRE. -/
def LaneSt.request (x : LaneSt) (phase : Nat) : LaneSt :=
  if 64 ≤ x.reqs then { x with phase := 0, wait := 0 }
  else
    { x with phase := phase, reqs := x.reqs + 1, reqTog := !x.reqTog, wait := 1,
             preset := if phase ≤ 4 then phase else if phase = 5 then x.bestPreset else 0,
             postCmd := if phase = 6 || phase = 9 then 1 else if phase = 7 || phase = 8 then 2 else 0,
             preCmd := if phase = 10 || phase = 13 then 1 else if phase = 11 || phase = 12 then 2 else 0 }

/-- The search starts on entry to EQUALISE (R785, R786). -/
def LaneSt.begin (x : LaneSt) (table : Bool) : LaneSt :=
  let x := { x with phase := 0, reqs := 0, bestPreset := 1, bestFom := 0, kept := false, wait := 0, reqTog := false,
                    ackTog := false, preStat := 0, postStat := 0 }
  if table then x else x.request 1

/-- The place after a tap's -1 has ended: PRE after POST, then the next pass or the end. Log entry 47. -/
def LaneSt.tapDone (x : LaneSt) : LaneSt :=
  if x.phase ≤ 9 then x.request 10
  else if x.kept then { x with kept := false }.request 6
  else { x with phase := 0, wait := 0 }

/-- The partner has echoed the request in force: its statuses for PRE and POST (R785; log entry 47). -/
def LaneSt.echo (x : LaneSt) (pre post : Nat) : LaneSt :=
  let stat := if x.phase ≤ 9 then post else pre
  match x.phase with
  | 0 => x
  | 7 => x.request 8
  | 11 => x.request 12
  | 9 => x.tapDone
  | 13 => x.tapDone
  | 6 => if stat = 0 then { x with wait := 2 } else x.request 8
  | 10 => if stat = 0 then { x with wait := 2 } else x.request 12
  | 8 => if stat = 0 then { x with wait := 2 } else x.tapDone
  | 12 => if stat = 0 then { x with wait := 2 } else x.tapDone
  | _ => { x with wait := 2 }

/-- A refresh of FOM while the search runs (R785). Log entry 47. -/
def LaneSt.refresh (x : LaneSt) (fom : Nat) : LaneSt :=
  if x.phase = 0 || x.wait < 2 then x
  else if x.wait = 2 then { x with wait := 3 }
  else if x.phase ≤ 4 then
    let x := if x.phase = 1 || x.bestFom < fom then { x with bestPreset := x.phase, bestFom := fom } else x
    x.request (x.phase + 1)
  else if x.phase = 5 then { x with bestFom := fom, kept := false }.request 6
  else if x.bestFom + 4 ≤ fom then { x with bestFom := fom, kept := true }.request x.phase
  else x.request (x.phase + 1)

/-- FOM_REFRESH (R787). Log entry 47. -/
def Mach.fomRefresh (m : Mach) (l : Fin 4) (offsets : Nat) : Mach :=
  if !m.lnUp || !m.is (F.LNL_STAT_CDR l) then m
  else
    let fom := min 255 (4 * min 64 offsets)
    let m := m.put (F.LNL_FOM_FOM l) fom
    if m.lnState = 6 then m.setLane l ((m.lane l).refresh fom) else m

/-! ## Training sets (R772-R777) -/

/-- The fields of a training set that the states use. -/
structure TsFields where
  state : Nat
  ack : Bool
  maxRate : Nat
  rate : Nat
  mask : Nat
  width : Nat
  preCmd : Nat
  postCmd : Nat
  preset : Nat
  reqTog : Bool
  preStat : Nat
  postStat : Nat
  ackTog : Bool
  deriving DecidableEq, Repr

/-- The training set in 31 bytes, when it is valid (R772, R773). -/
def parseTs (b : List Byte) : Option TsFields :=
  let g (i : Nat) : Nat := (b.getD i 0).toNat
  if b.length != 31 || g 0 != 1 || crc8 (b.take 30) != b.getD 30 0 || bits (g 2) 6 2 != 0 || bits (g 3) 3 2 != 0 ||
     bits (g 3) 7 6 != 0 || (g 4).testBit 7 || bits (g 6) 5 4 != 0 || ((b.drop 12).take 18).any (· != 0) then none
  else
    some { state := g 1, ack := (g 2).testBit 7, maxRate := g 3 % 4, rate := bits (g 3) 5 4, mask := g 4 % 16,
           width := bits (g 4) 6 4, preCmd := g 5 % 4, postCmd := bits (g 5) 3 2, preset := bits (g 5) 6 4,
           reqTog := (g 5).testBit 7, preStat := g 6 % 4, postStat := bits (g 6) 3 2, ackTog := (g 6).testBit 7 }

/-- The training set that this end sends on lane `l` (R772); `seq` is TSSEQ. -/
def Mach.tsOut (m : Mach) (l : Fin 4) (seq : Nat) : List Byte :=
  let x := m.lane l
  let rate := if m.lnState ≤ 2 then 0 else m.ln.rate
  let b := leBytes 1 1 ++ leBytes 1 m.lnState ++ leBytes 1 (l.val + 128 * b2n m.ln.ackFrom.isSome) ++
    leBytes 1 (m.ln.maxRate + 16 * rate) ++ leBytes 1 (m.lnAligned + 16 * m.ln.width) ++
    leBytes 1 (x.preCmd + 4 * x.postCmd + 16 * x.preset + 128 * b2n x.reqTog) ++
    leBytes 1 (x.preStat + 4 * x.postStat + 128 * b2n x.ackTog) ++ leBytes 1 (m.get (F.LNL_TXEQ_PRE l)) ++
    leBytes 1 (m.get (F.LNL_TXEQ_POST l)) ++ leBytes 1 (m.get (F.LNL_FOM_FOM l)) ++ leBytes 2 seq ++ List.replicate 18 0
  b ++ [crc8 b]

/-- Beats, times 100, that one training set takes at a rate: four words (R751). -/
def tsTime (rate : Nat) : Nat := if rate = 0 then 76800 else if rate = 1 then 15360 else if rate = 2 then 7680 else 3072

/-- The state is complete: 16 own sets with ACK sent, 8 received (R775). -/
def Mach.tryComplete (m : Mach) : Mach :=
  match m.ln.ackFrom with
  | some t =>
    if m.ln.ackRun < 8 then m
    else
      let rate := if m.lnState = 3 then 0 else m.ln.rate
      let m := m.runTo (t + ceilDiv (16 * tsTime rate) 100)
      if m.lnState = 3 then
        let m := m.put F.LN_STAT_RATE m.ln.rate
        if m.ln.rate = 0 then m.lnActive else m.lnEnter 4
      else if m.ln.link.all (fun l => m.get F.LN_CTL_FOMMIN ≤ m.get (F.LNL_FOM_FOM l)) then m.lnActive
      else m.lnFallback
  | none => m

/-- Counts a set on lane 0 toward completion (R775). Log entry 46. -/
def Mach.countAck (m : Mach) (t : TsFields) : Mach :=
  let same := t.ack && t.rate = m.ln.rate && t.width = m.ln.width
  ({ m with ln := { m.ln with ackRun := if same then m.ln.ackRun + 1 else 0 } }).tryComplete

/-- A valid set in CONFIG on lane 0 (R775, R776). Log entry 46. -/
def Mach.tsConfig (m : Mach) (t : TsFields) : Mach :=
  let ln := m.ln
  let peer := (t.maxRate, t.mask)
  let run := if t.state != 3 then 0 else if peer = ln.peer then ln.peerRun + 1 else 1
  let all := m.lnAligned = ln.mask
  let ok := 8 ≤ run && (all || ln.entered + 3000000 ≤ m.now)
  let ln := { ln with peer := peer, peerRun := run, rate := min ln.maxRate t.maxRate, width := widthOf (m.lnAligned &&& t.mask),
                      ackFrom := if ok then some (ln.ackFrom.getD m.now) else none }
  ({ m with ln := ln }).countAck t

/-- A valid set in EQUALISE (R775, R784, R785). -/
def Mach.tsEqualise (m : Mach) (l : Fin 4) (t : TsFields) : Mach :=
  if m.ln.width ≤ l.val then m
  else
    let m := m.actRequest l t.preCmd t.postCmd t.preset t.reqTog
    let x := m.lane l
    let m := if x.wait = 1 && t.ackTog = x.reqTog then m.setLane l (x.echo t.preStat t.postStat) else m
    let ended := m.ln.link.all (fun k => (m.lane k).phase = 0)
    let m := { m with ln := { m.ln with ackFrom := if ended then some (m.ln.ackFrom.getD m.now) else none } }
    if l = 0 then m.countAck t else m

/-- Every link lane has what LOCK asks (R774). -/
def Mach.locked (m : Mach) : Bool := m.ln.link.all (fun l => m.is (F.LNL_STAT_BLOCK l) && 8 ≤ (m.lane l).run)

/-- EQUALISE begins (R774, R785, R786). -/
def Mach.equaliseGo (m : Mach) : Mach :=
  let m := m.lnEnter 6
  let table := m.ln.eqTable
  let m := m.each m.ln.link (fun l m => m.setLane l ((m.lane l).begin table))
  { m with ln := { m.ln with ackFrom := if table then some m.now else none } }

/-- Rate at which the lanes run now. -/
def Mach.lnRate (m : Mach) : Nat :=
  if m.lnState = 8 then m.testRate else if m.lnState ≤ 3 then 0 else m.ln.rate

/-- A lane's errors show and count outside test (R764, R791). Log entry 49. -/
def Mach.laneErrs (m : Mach) (l : Fin 4) (n : Nat) : Mach :=
  if n = 0 then m
  else
    let m := m.put (F.LNL_STAT_HDRERR l) 1
    if m.lnState = 8 then m else m.countHold (F.LNL_ERR_N l) n

/-- What lane `l` received, inverted where its commas were found inverted (R758). -/
def Mach.laneRead (m : Mach) (l : Fin 4) (c : LineCode) (x : LineWord) : LaneWord × Nat × LineCode :=
  readLine m.lnRate (if m.is (F.LNL_STAT_RXINV l) then x.invert else x) c

/-- The words of some lines of a lane, and the errors among them. -/
def Mach.laneWords (m : Mach) (l : Fin 4) (c : LineCode) (x : List LineWord) : List LaneWord × Nat :=
  readLines m.lnRate (if m.is (F.LNL_STAT_RXINV l) then x.map (fun w => w.invert) else x) c

/-- The 31 bytes of the four words of a training set: a TS word, then three data words (R772, R773). -/
def tsBytes : List LaneWord → List Byte
  | [.ts a, .data b, .data c, .data d] => a ++ b ++ c ++ d
  | _ => []

/-- A training set as this end's lane sends it, word by word (R772). -/
def tsWords (b : List Byte) : List LaneWord :=
  [.ts (b.take 7), .data ((b.drop 7).take 8), .data ((b.drop 15).take 8), .data ((b.drop 23).take 8)]

/-- TRAINING_SET_RECEIVED on lane `l`: what the lane carried in four consecutive slots, the coding before them, and the delay in
word times that aligns the lane with the latest one (R771, R773-R777). -/
def Mach.tsReceived (m : Mach) (l : Fin 4) (code : LineCode) (words : List LineWord) (skew : Nat) : Mach :=
  if !m.lnUp then m
  else
    let (w, errs) := m.laneWords l code words
    let m := m.laneErrs l errs
    match (if errs = 0 then parseTs (tsBytes w) else none) with
    | none =>
      let m := m.setLane l { m.lane l with run := 0 }
      if l = 0 then { m with ln := { m.ln with peerRun := 0, ackRun := 0 } } else m
    | some t =>
      let far := m.lnState = 5 && 8 < skew
      let m := m.setLane l { m.lane l with run := if far then 0 else (m.lane l).run + 1 }
      match m.lnState with
      | 1 => if l = 0 && m.ln.field F.LN_CTL_INIT = 1 then m.attemptGo else m
      | 2 => if l = 0 && 8 ≤ (m.lane 0).run then m.lnEnter 3 else m
      | 3 => if l = 0 then m.tsConfig t else m
      | 5 =>
        let m := if far then m else m.put (F.LNL_SKEW_SKEW l) skew
        if m.locked then m.equaliseGo else m
      | 6 => m.tsEqualise l t
      | 7 => if l = 0 && !t.ack && (t.state = 2 || t.state = 3) then m.linkLost else m
      | _ => m

/-! ## Reception of bursts (R85, R765, R769-R771) -/

/-- The die takes a word of the link stream, in the order of lanes and slots (R770). -/
def LnSt.take (x : LnSt) (w : LaneWord) : LnSt :=
  let open' := x.rxIn.getLast?.any (fun b => !b.ended)
  let grow (b : List Byte) (ended : Bool) : List RxBurst :=
    match x.rxIn.getLast? with
    | some r => if r.ended then x.rxIn ++ [{ bytes := b, ended := ended }]
                else x.rxIn.dropLast ++ [{ r with bytes := r.bytes ++ b, ended := ended }]
    | none => [{ bytes := b, ended := ended }]
  let stop (broken : Bool) : List RxBurst :=
    match x.rxIn.getLast? with
    | some r => if r.ended then x.rxIn else x.rxIn.dropLast ++ [{ r with ended := true, broken := broken }]
    | none => []
  match w with
  | .data b => if x.rxDrop then x else { x with rxIn := grow b false }
  | .tail b => if x.rxDrop then { x with rxDrop := false } else { x with rxIn := grow b true }
  | .idle => { x with rxIn := stop false, rxDrop := false }
  | _ => if open' then { x with rxIn := stop true, rxDrop := true } else x

/-- Lanes put one word each into their elastic buffers, and the die reads them in its next tick (R85). -/
def Mach.rxCross (m : Mach) (ws : List (Fin 4 × LaneWord)) : List LaneWord × Mach :=
  let m := m.each ws (fun p m => m.setLane p.1 ((m.lane p.1).arrive p.2))
  (ws.map (fun p => ((m.lane p.1).leave).1), m.each ws (fun p m => m.setLane p.1 ((m.lane p.1).leave).2))

/-- The markers of one slot agree: one on every lane, with its number and one LMCNT (R769, R771). -/
def markersAgree (ws : List LaneWord) : Bool :=
  let cnt := match ws with | .lm b :: _ => (b.drop 1).take 2 | _ => []
  ws.zipIdx.all (fun p => match p.1 with
    | .lm b => b.take 1 = [BitVec.ofNat 8 p.2] && (b.drop 1).take 2 = cnt
    | _ => false)

/-- One slot of the link is received: the coding of each lane after it (R756, R759-R761, R764, R769-R771). -/
def Mach.rxSlot (m : Mach) (code : List LineCode) (slot : List LineWord) : List LineCode × Mach :=
  let rs := m.ln.link.map (fun l => (l, m.laneRead l (code.getD l {}) (slot.getD l (.block 0))))
  let m := m.each rs (fun r m => m.laneErrs r.1 r.2.2.1)
  let (ws, m) := m.rxCross (rs.map (fun r => (r.1, r.2.1)))
  let lm := ws.any (fun w => match w with | .lm _ => true | _ => false)
  (rs.map (fun r => r.2.2.2),
   if 1 < m.ln.width && lm then (if markersAgree ws then m else m.linkLost)
   else { m with ln := ws.foldl LnSt.take m.ln })

/-- Slots in a row, while the link stands. -/
def Mach.rxSlots (m : Mach) : List LineCode → List (List LineWord) → Mach
  | _, [] => m
  | c, s :: t => if m.linkUp then let (c, m) := m.rxSlot c s; m.rxSlots c t else m

/-- The link's words arrive at ST, which reads one entry of each lane's buffer a tick at most (R85, R801). -/
def Mach.rxLines (m : Mach) (x : RxLines) : Mach :=
  if !m.rxUp then m
  else
    let m := m.runTo (m.ln.rxAt + 4 * x.slots.length)
    ({ m with ln := { m.ln with rxAt := m.now } }).rxSlots x.code x.slots

/-! ## Signals of the receivers -/

/-- After a change of signal or CDR of a lane: since when a link lane has been without (R779). -/
def Mach.watchGone (m : Mach) : Mach :=
  let bad := m.lnState = 7 && m.ln.link.any (fun l => !m.is (F.LNL_STAT_SIGDET l) || !m.is (F.LNL_STAT_CDR l))
  { m with ln := { m.ln with gone := if bad then some (m.ln.gone.getD m.now) else none } }

/-- SIGNAL_DETECT (R789, R793). -/
def Mach.signalDetect (m : Mach) (l : Fin 4) (on : Bool) : Mach :=
  if !m.lnUp then m
  else
    let m := m.lnShow (F.LNL_STAT_SIGDET l) on
    let bit := 2 ^ l.val
    let old := m.get F.LN_STAT_SIGDET
    (m.put F.LN_STAT_SIGDET (if on then old ||| bit else old - (old &&& bit))).watchGone

/-- CDR_LOCK (R774, R787, R793). -/
def Mach.cdrLock (m : Mach) (l : Fin 4) (on : Bool) : Mach :=
  if !m.lnUp then m
  else
    let m := m.lnShow (F.LNL_STAT_CDR l) on
    let m := if on then m else m.put (F.LNL_FOM_FOM l) 0
    m.watchGone

/-- BLOCK_LOCK: alignment at L0, where inverted commas may be found, or block lock (R757, R758, R762). -/
def Mach.blockLock (m : Mach) (l : Fin 4) (inverted : Bool) : Mach :=
  if !m.lnUp || !m.is (F.LNL_STAT_CDR l) then m
  else
    let m := if inverted && m.lnState = 2 then m.put (F.LNL_STAT_RXINV l) 1 else m
    m.lnShow (F.LNL_STAT_BLOCK l) true

/-- BLOCK_LOSS (R757, R762, R764, R779). Log entry 49. -/
def Mach.blockLoss (m : Mach) (l : Fin 4) : Mach :=
  if !m.lnUp || !m.is (F.LNL_STAT_BLOCK l) then m
  else
    let m := m.laneErrs l (if m.lnRate = 0 then 4 else 16)
    if m.lnState = 7 && l.val < m.ln.width then (m.put (F.LNL_STAT_BLOCK l) 0).linkLost
    else m.lnShow (F.LNL_STAT_BLOCK l) false

/-- PRBS_LOCK (R795). Log entry 48. -/
def Mach.prbsLock (m : Mach) (l : Fin 4) (on : Bool) : Mach :=
  let chk := m.get (F.LNL_CTL_PRBSCHK l)
  if !m.lnUp || !(chk = 1 || chk = 2) then m
  else if on then m.put (F.LNL_STAT_PRBSLOCK l) 1
  else if m.is (F.LNL_STAT_PRBSLOCK l) then (m.countHold (F.LNL_ERR_N l) 64).put (F.LNL_STAT_PRBSLOCK l) 0
  else m

/-- LINK_LOSS: 0 signal or CDR of a link lane gone for 1 us, 1 a marker check fails, 2 the lane PLL loses lock (R779). -/
def Mach.linkLoss (m : Mach) (why : Fin 3) : Mach :=
  if !m.lnUp || m.lnState != 7 then m
  else
    match why with
    | 0 => (match m.ln.gone with | some t => (m.runTo (t + 3000)).linkLost | none => m)
    | 1 => if 1 < m.ln.width then m.linkLost else m
    | 2 => ({ m with ln := { m.ln with pllLock := false } }).linkLost

/-- LANE_MARKER: every lane of the link sends its marker in the next slot of theirs (R769). -/
def Mach.laneMarker (m : Mach) : Mach :=
  if m.lnUp && m.lnState = 7 && 1 < m.ln.width then
    let m := m.runTo (m.slotBeat (16384 * (m.ln.lmcnt + 1)))
    { m with ln := { m.ln with lmcnt := m.ln.lmcnt + 1 } }
  else m

/-- LREFCLK_LOSS and LREFCLK_RETURN (R802). -/
def Mach.lrefLoss (m : Mach) : Mach :=
  let m := { m with ln := { m.ln with ref := false, pllLock := false } }
  if !m.lnUp then m
  else if m.lnState = 7 then m.linkLost
  else if 2 ≤ m.lnState && m.lnState ≤ 6 then m.lnRest
  else m

def Mach.lrefReturn (m : Mach) : Mach := { m with ln := { m.ln with ref := true, pllLock := true } }

/-! ## What the transmitters carry -/

/-- The coding from which lane `l` starts at entry to a state: no seed is given (R761; log entry 105). -/
def Mach.codeSeed (m : Mach) (l : Fin 4) : LineCode :=
  { rd := (Config.laneSeed m.ln.entered l).getLsbD 58, scr := (Config.laneSeed m.ln.entered l).setWidth 58 }

/-- The words that lane `l` sends in the first `n` slots of the state; `none` is electrical idle (R753, R765-R769, R772, R774,
R780, R794, R799, R801).  With the clock stopped the link sends IDLE. -/
def Mach.laneSends (m : Mach) (l : Fin 4) (n : Nat) : Option (List LaneWord) :=
  let sets (on : Bool) : Option (List LaneWord) :=
    if on then some ((List.range n).map (fun s => (tsWords (m.tsOut l (s / 4))).getD (s % 4) .bad)) else none
  if !m.lnUp || !m.ln.ref || m.now < m.ln.idleTo then none
  else
    match m.lnState with
    | 2 => sets (m.ln.mask.testBit l)
    | 3 => sets (m.ln.mask.testBit l)
    | 5 => sets (l.val < m.ln.width)
    | 6 => sets (l.val < m.ln.width)
    | 7 => if l.val < m.ln.width then
             some ((List.range n).map (fun s => if m.clk.running then m.ln.wordAt l s else .idle)) else none
    | _ => none

/-- What lane `l` drives in them, coded and scrambled, and inverted under TXPOL (R756, R758, R759, R761). -/
def Mach.laneDrives (m : Mach) (l : Fin 4) (n : Nat) : Option (List LineWord) :=
  (m.laneSends l n).map (fun ws =>
    (sendLines m.lnRate ws (m.codeSeed l)).map (fun x => if m.is (F.LNL_CTL_TXPOL l) then x.invert else x))

/-- The first `n` bits that a lane's PRBS generator sends in TEST (R794-R796). -/
def Mach.laneBits (m : Mach) (l : Fin 4) (n : Nat) : Option (List Bool) :=
  let g := m.get (F.LNL_CTL_PRBSGEN l)
  if m.lnUp && m.lnState = 8 && (g = 1 || g = 2) && m.get (F.LNL_CTL_LOOP l) < 2 then some (prbsOut g n) else none

/-! ## Writes -/

/-- LN_EN (R774, R794, R799). -/
def Mach.lnEn (m : Mach) (on : Bool) : Mach :=
  if on = m.is F.LN_CTL_EN then m
  else
    let m := m.put F.LN_CTL_EN (b2n on)
    let m := { m with ln := { m.ln with ceil := 3, fresh := true, attempt := none, gone := none } }
    if on then m.lnRest
    else
      let up := m.lnState = 7
      let m := m.lnLeave.lnRest
      if up then m.stLinkLost else m

/-- LN_RETRAIN (R778, R798). -/
def Mach.lnRetrain (m : Mach) : Mach :=
  if !m.is F.LN_CTL_EN || m.lnState = 8 then m
  else if m.lnState = 7 then m.linkLost
  else ({ m with ln := { m.ln with ceil := 3, fresh := true } }).lnDetect

/-- LN_CLRERR (R764). -/
def Mach.lnClrerr (m : Mach) (l : Fin 4) : Mach := m.put (F.LNL_ERR_N l) 0

/-- LN_BSLIP (R763). -/
def Mach.lnBslip (m : Mach) (l : Fin 4) : Mach :=
  if m.get (F.LNL_CTL_LOCKMODE l) = 1 && m.lnRate != 0 then
    m.setLane l { m.lane l with slip := ((m.lane l).slip + 1) % 66 }
  else m

/-- LN_TEST_WRITE: the PRBS and loopback fields of a lane (R790, R794-R797, Q-08). -/
def Mach.lnTest (m : Mach) (l : Fin 4) (gen chk loop : Nat) : Mach :=
  let was := m.anyTest
  let oldChk := m.get (F.LNL_CTL_PRBSCHK l)
  let m := ((m.put (F.LNL_CTL_PRBSGEN l) gen).put (F.LNL_CTL_PRBSCHK l) chk).put (F.LNL_CTL_LOOP l) loop
  let m := if chk % 4 = oldChk then m else m.put (F.LNL_STAT_PRBSLOCK l) 0
  let m := if loop % 4 = 3 && m.testRate = 0 then m.put (F.LNL_STAT_LOOPREF l) 1 else m
  if m.anyTest = was then m
  else if m.lnState = 7 then m.linkLost
  else m.lnRest

/-- Reset: every lane goes idle and every LN register returns to its reset value; the reference stays (R141, R144). -/
def Mach.lnReset (m : Mach) : Mach := { m with ln := { ref := m.ln.ref, pllLock := m.ln.ref } }

end Sys2Proof.Machine
end

