-- ==== Sys2Proof/Machine/Excite.lean ====
section
/-!
DEFINITION. Auxiliary sensing, the analog side: the entry records, the nodes that the selectors connect and the codes they
give, the excitation and bias sources with their steering and conflicts, and blanking (ch. 13 sections 1, 3, 4.1 and 5.1).
-/
namespace Sys2Proof.Machine

def Mach.seq (m : Mach) (c : Fin 2) : AuxSeq := m.aux.seq[c]
def Mach.setSeq (m : Mach) (c : Fin 2) (x : AuxSeq) : Mach := { m with aux := { m.aux with seq := m.aux.seq.set c x } }
def allConv : List (Fin 2) := [0, 1]

def Mach.auxEn (m : Mach) : Bool := m.is F.CLK_GATE_AUX_EN

/-! ## Records -/

/-- Fields of a record's two words (R507). -/
def recSettle (hi : Word) : Nat := bits hi.toNat 31 22
def recN (hi : Word) : Nat := 2 ^ bits hi.toNat 21 19
def recReps (hi : Word) : Nat := bits hi.toNat 18 15 + 1
def recDelay (hi : Word) : Nat := bits hi.toNat 11 0
def recSigned (lo : Word) : Bool := lo.getLsbD 20
def recGain (lo : Word) : Nat := bits lo.toNat 18 16
def recRmode (lo : Word) : Bool := lo.getLsbD 15
def recPsel (lo : Word) : Nat := bits lo.toNat 4 0
def recNsel (lo : Word) : Nat := bits lo.toNat 9 5
/-- Log entry 77. -/
def recBlank (lo : Word) : Bool := lo.getLsbD 29
/-- CURVE; 10-15 act as 0 (R523). -/
def recCurve (lo : Word) : Nat := let k := bits lo.toNat 27 24; if 9 < k then 0 else k
/-- A die temperature channel; in multiplexed mode PSEL bit 4 is ignored, so that no pin is one (R481, R527). -/
def recDie (lo : Word) : Bool := !recRmode lo && (recPsel lo = 0x12 || recPsel lo = 0x13)

/-! ## Nodes (section 1) -/

/-- The node of a selector value; AGND, and with it a reserved value, is `none` (R479, R480). -/
def selNode (s : Nat) : Option AuxNode :=
  if h : s < 16 then some (.pin ⟨s, h⟩)
  else match s with
    | 0x10 => some .vbias
    | 0x12 => some .dieConv
    | 0x13 => some .dieLane
    | 0x14 => some .vdd
    | 0x15 => some .vdda
    | 0x16 => some .vddio18
    | 0x17 => some .vddio33
    | 0x18 => some .vddl
    | 0x19 => some .vttl
    | 0x1A => some .testRef
    | _ => none

/-- The nodes that a record's run measures, positive and negative, under AUX_CFG as it stands (R480, R481). -/
def Mach.recNodes (m : Mach) (lo : Word) : Option AuxNode × Option AuxNode :=
  if recRmode lo then
    (selNode (bits lo.toNat 3 0), if m.is F.AUX_CFG_COMEN then selNode (m.get F.AUX_CFG_COM) else none)
  else
    let p := recPsel lo
    (selNode p, if 0x12 ≤ p && p ≤ 0x1A then none else selNode (recNsel lo))

/-- Nominal voltage of a node's supply or source in nV; REFIO's is REFMV (R479, R492; ch. 04 section 1; log entry 101). -/
def Mach.nominal (m : Mach) : AuxNode → Int
  | .vbias => 900000000
  | .vdd => 750000000
  | .vddl => 900000000
  | .vdda => 1800000000
  | .vddio18 => 1800000000
  | .vddio33 => 3300000000
  | .vttl => 1200000000
  | .testRef => 1000000000
  | .refio => m.get F.AUX_CFG_REFMV * 1000000
  | _ => 0

/-- Voltage of what a node follows at a sample instant. Log entry 101. -/
def Mach.voltAt (m : Mach) (v : AuxVolts) (n : AuxNode) : Int := (v.lookup n).getD (m.nominal n)

/-- The share of a supply's voltage that its node shows, in quarters (R479). -/
def nodeQuarters : AuxNode → Int
  | .vdda => 2
  | .vddio18 => 2
  | .vttl => 2
  | .vddio33 => 1
  | _ => 4

/-- Voltage of a selected node, in quarters of 1 nV; AGND is 0. -/
def Mach.nodeVolt (m : Mach) (v : AuxVolts) : Option AuxNode → Int
  | some n => nodeQuarters n * m.voltAt v n
  | none => 0

/-- VREF in nV at a sample instant (R483, R492). Log entry 101. -/
def Mach.vrefAt (m : Mach) (v : AuxVolts) : Int :=
  match m.get F.AUX_CFG_REFSEL with
  | 1 => m.voltAt v .refio
  | 2 => m.voltAt v .vdda
  | _ => 1250000000

/-- The code of one sample before its clamp (R501). Log entry 101. -/
def Mach.auxCode (m : Mach) (lo : Word) (pos neg : Option AuxNode) (v : AuxVolts) : Int :=
  let vd := m.nodeVolt v pos - m.nodeVolt v neg
  let vref := m.vrefAt v
  if vref ≤ 0 then Config.auxNoRef (recSigned lo) (recGain lo) vd
  else roundDiv ((if recSigned lo then 2048 else 4096) * 2 ^ recGain lo * vd) (4 * vref.toNat)

/-! ## Sources (section 3.1) -/

/-- AUX_EXCSTAT bits of a source: 0 IEX0, 1 IEX1, 2 VEX (R490). -/
def Mach.excFault (m : Mach) (i : Nat) : Bool := bits (m.get F.AUX_EXCSTAT_FAULTS) (2 * i + 1) (2 * i) != 0

/-- EN of a source. -/
def Mach.excEnabled (m : Mach) (i : Nat) : Bool :=
  if i = 0 then m.is F.AUX_EXC0_EN else if i = 1 then m.is F.AUX_EXC1_EN else m.is F.AUX_VEX_EN

/-- A source is on: enabled, not switched off by its monitor, by gating or by a reset (R134, R141, R490, R520). -/
def Mach.excOn (m : Mach) (i : Nat) : Bool := m.excEnabled i && !m.excFault i && m.auxEn && m.outsUp

/-- The steered connection that IEX0 serves at this beat (R487). -/
def Mach.steered (m : Mach) : Option Steer :=
  if m.is F.AUX_EXC0_STEEREN then
    (m.seq (Fin.ofNat 2 (m.get F.AUX_EXC0_STEERC))).steer.find? (fun s => s.since ≤ m.now && m.now < s.until')
  else none

/-- The pin that IEX0 is led to, on or off; `none` is its internal load (R484, R487). -/
def Mach.exc0Lead (m : Mach) : Option Nat :=
  if m.is F.AUX_EXC0_STEEREN then m.steered.map (fun s => s.pin) else some (m.get F.AUX_EXC0_PIN)

/-- The pin that a source drives while it is on (R484, R486, R487). -/
def Mach.excPin (m : Mach) (i : Nat) : Option Nat :=
  if !m.excOn i then none
  else if i = 0 then m.exc0Lead
  else if i = 1 then some (m.get F.AUX_EXC1_PIN) else some (m.get F.AUX_VEX_PIN)

/-- LEVEL of a current source, or LVL of VEX. -/
def Mach.excLevel (m : Mach) (i : Nat) : Nat :=
  if i = 0 then m.get F.AUX_EXC0_LEVEL else if i = 1 then m.get F.AUX_EXC1_LEVEL else m.get F.AUX_VEX_LVL

/-- The current of a LEVEL in uA (R485). -/
def levelUa (l : Nat) : Nat :=
  [10, 20, 50, 100, 150, 200, 250, 300, 400, 500, 600, 750, 900, 1000, 1250, 1500].getD l 0

/-- Pins connected to the VBIAS source, but for conflicts (R134, R141, R486). -/
def Mach.biasPins (m : Mach) : BitVec 16 := if m.outsUp then BitVec.ofNat 16 (m.get F.AUX_BIAS_MASK) else 0

/-- VEX or VBIAS would meet another source on a pin: whether VEX is kept off its pin, and the pins VBIAS is kept off (R488). -/
def Mach.conflicts (m : Mach) : Bool × BitVec 16 :=
  let p0 := m.excPin 0
  let p1 := m.excPin 1
  let pv := m.excPin 2
  let on (p : Option Nat) : BitVec 16 := match p with | some p => BitVec.ofNat 16 (2 ^ p) | none => 0
  (pv.isSome && (pv = p0 || pv = p1 || on pv &&& m.biasPins != 0), m.biasPins &&& (on p0 ||| on p1 ||| on pv))

/-- The check of R488, made at a configuration write and at a steered switch slot: what meets another source stays
unconnected from here on, and XCONF sets. -/
def Mach.checkConflict (m : Mach) : Mach :=
  let (v, b) := m.conflicts
  let m := { m with aux := { m.aux with cutVex := v, cutBias := b } }
  if v || b != 0 then m.put F.AUX_STAT_XCONF 1 else m

/-- Current into pin p in uA: those of IEX0 and IEX1 add (R485, R488). -/
def Mach.pinUa (m : Mach) (p : Nat) : Nat :=
  (if m.excPin 0 = some p then levelUa (m.excLevel 0) else 0) + (if m.excPin 1 = some p then levelUa (m.excLevel 1) else 0)

/-- Voltage in mV that VEX or VBIAS puts on pin p (R486, R488). -/
def Mach.pinMv (m : Mach) (p : Nat) : Option Nat :=
  if m.excPin 2 = some p && !m.aux.cutVex then some (if m.excLevel 2 = 1 then 2500 else 1250)
  else if (m.biasPins &&& ~~~m.aux.cutBias).getLsbD p then some 900
  else none

/-! ## Monitors (section 3.2) -/

/-- Blanking of a source's monitor starts again (R489). -/
def Mach.exTouch (m : Mach) (i : Fin 3) (t : Nat) : Mach :=
  { m with aux := { m.aux with exSince := m.aux.exSince.set i t } }

/-- Where the sources stand: on, level and pin of each. -/
def Mach.excState (m : Mach) : List (Bool × Nat × Option Nat) :=
  [0, 1, 2].map (fun i => (m.excOn i, m.excLevel i, m.excPin i))

/-- After a write found the sources at `was`: what switched on, changed level or changed pin blanks its monitor (R489). -/
def Mach.excChanged (m : Mach) (was : List (Bool × Nat × Option Nat)) : Mach :=
  m.each ([0, 1, 2] : List (Fin 3)) (fun i m =>
    if m.excOn i && was.getD i (false, 0, none) != (true, m.excLevel i, m.excPin i) then m.exTouch i m.now else m)

/-- Beat of the sample with which the monitor of a source can first fail: the 64th after the 192 of its blanking (R489, R491).
Log entry 102. -/
def Mach.monitorDue (m : Mach) (i : Fin 3) : Nat := nextGrid 64 m.aux.exSince[i] + 64 * 255

/-- A check of R489 holds at one sample: an output voltage in uV for IEX0 and IEX1, an output current in uA for VEX.
Log entry 102. -/
def Mach.checkHolds (m : Mach) (i : Fin 3) (short : Bool) (x : Nat) : Bool :=
  if i = 2 then (if short then decide (25000 ≤ x) else decide (x < 20 * m.get F.AUX_VEX_OPENI))
  else if short then decide (x < 1000 * (if i = 0 then m.get F.AUX_EXC0_SHV else m.get F.AUX_EXC1_SHV))
  else decide (1450000 < x)

/-! ## Steering (R487-R489, R491) -/

/-- A run of converter c whose switch slot is at `t` steers IEX0 up to the end of its last sample slot, at `u`.
Log entry 35. -/
def Mach.planSteer (m : Mach) (c : Fin 2) (lo : Word) (sw t u : Nat) : Mach :=
  if recRmode lo && lo.getLsbD 28 then
    m.setSeq c { m.seq c with
      steer := (m.seq c).steer ++ [{ pin := bits lo.toNat 3 0, since := t, until' := u, sw := sw }] }
  else m

/-- An urgent run cuts connections at `s` (R516). -/
def AuxSeq.cutSteer (x : AuxSeq) (s : Nat) : AuxSeq :=
  { x with steer := (x.steer.filter (fun k => k.since < s)).map (fun k => { k with until' := min k.until' s }) }

/-- A connection whose end blanking can still move: results of its run are to come (R509). -/
def AuxSeq.openSteer (x : AuxSeq) (k : Steer) : Bool := x.land.any (fun p => p.sw = k.sw && recBlank p.lo)

/-- Connections of converter c that are due begin and end: the conflict check, the monitor's blanking, and RUNSHORT for one
of less than 256 aux samples. Log entry 35. -/
def Mach.steerUpTo (m : Mach) (c : Fin 2) : Nat → Mach
  | 0 => m
  | n + 1 =>
    let x := m.seq c
    let acts := m.is F.AUX_EXC0_STEEREN && m.get F.AUX_EXC0_STEERC = c && m.excOn 0
    match x.steer with
    | [] => m
    | k :: rest =>
      if m.now < k.since then m
      else if !k.acted then
        let m := m.setSeq c { x with steer := { k with acted := true } :: rest }
        (if acts then (m.exTouch 0 k.since).checkConflict else m).steerUpTo c n
      else if k.until' ≤ m.now && !x.openSteer k then
        let m := m.setSeq c { x with steer := rest }
        let m := if acts then m.exTouch 0 k.until' else m
        (if acts && k.until' < k.since + 64 * 256 then m.put F.AUX_STAT_RUNSHORT 1 else m).steerUpTo c n
      else m

/-! ## Blanking of samples (R509) -/

/-- A rising edge of STEP of axis a blanks the samples that follow, when the axis is selected. -/
def Mach.stepBlank (m : Mach) (a : Fin 2) : Mach :=
  let w := m.get F.AUX_BLK_BLKW
  if m.is F.AUX_BLK_BEN && m.is (if a = 0 then F.AUX_BLK_AX0 else F.AUX_BLK_AX1) && w != 0 then
    let t := nextGrid 64 m.now
    let meets (e : Nat) : Bool := allConv.any (fun c => (m.seq c).land.any (fun p => p.slots.any (fun s => s < e)))
    { m with aux := { m.aux with blank := m.aux.blank.filter (fun b => m.now < b.2 || meets b.2) ++ [(t, t + 64 * w)] } }
  else m

/-- Blanking is active in the slot at `t`; `low` holds the slots, counted from `t0`, in which BLANKN reads low. -/
def Mach.blankAt (m : Mach) (t0 : Nat) (low : List Nat) (t : Nat) : Bool :=
  (m.is F.AUX_BLK_PINEN && low.contains ((t - t0) / 64)) || m.aux.blank.any (fun b => b.1 ≤ t && t < b.2)

/-- The first slot from `t` on, of the next `n`, that is not blanked. -/
def openSlot (dark : Nat → Bool) (t : Nat) : Nat → Nat
  | 0 => t
  | n + 1 => if dark t then openSlot dark (t + 64) n else t

/-- Sample slots as blanking leaves them, each later one put off by what the earlier ones lost, `d` beats so far. -/
def openSlots (dark : Nat → Bool) (n d : Nat) : List Nat → List Nat
  | [] => []
  | t :: l => let s := openSlot dark (t + d) n; s :: openSlots dark n (s - t) l

/-- A bound on the slots that can be blanked in a row. -/
def Mach.darkBound (m : Mach) (low : List Nat) : Nat :=
  low.length + m.aux.blank.foldl (fun n b => n + (b.2 - b.1) / 64) 0

end Sys2Proof.Machine
end

