-- ==== Sys2Proof/Machine/Curve.lean ====
section
/-!
DEFINITION. The linearisation curves of the aux results (ch. 13 section 7): the exact functions of curves 1, 2, 3 and 9, from
which a result lies within one unit; the thermocouple functions of IEC 60584-1 are not in the spec and stay free (log entry 10).
-/
namespace Sys2Proof.Machine

/-! ## Logarithms, in 2^-80 -/

/-- `atanh z` from `z` and `z²`, both in 2^-80: `n` terms, the first of them `t / k`. -/
def atanhTerms (zz : Int) : Nat → Int → Nat → Int
  | 0, _, _ => 0
  | n + 1, t, k => t / (k : Int) + atanhTerms zz n (t * zz / 2 ^ 80) (k + 2)

/-- `ln (a / b)` for `a / b` near 1. -/
def lnNear (a b : Nat) : Int :=
  let z : Int := ((a : Int) - b) * 2 ^ 80 / ((a : Int) + b)
  2 * atanhTerms (z * z / 2 ^ 80) 30 z 1

/-- `ln (a / b)` for positive `a` and `b`: the power of two between them apart. -/
def lnFix (a b : Nat) : Int :=
  let i := a.log2
  let j := b.log2
  lnNear (a * 2 ^ (j - i)) (b * 2 ^ (i - j)) + ((i : Int) - j) * lnNear 2 1

/-! ## Temperatures in 1/16 degree, rounded down, with whether that is exact -/

/-- Absolute zero in 1/16 degree, times 5. -/
def zeroK5 : Int := 21852

/-- The temperature of `1 / T = s / d` in kelvin, for `s` and `d` positive. -/
def tempOf (d s : Int) : Int × Bool :=
  let n := 80 * d - zeroK5 * s
  (n / (5 * s), n % (5 * s) = 0)

/-- Curve 1: `1/T = 1/T0 + ln(R/R0)/β`, with R = a / b ohms, R0 in 1/256 ohm, T0 in 1/16 degree; `none` where the model has no
temperature (R0, β or T0 in kelvin not positive), and past its hot end where 1/T is not positive (log entry 10). -/
def ntcTemp (a b r0 beta : Nat) (t0 : Int) : Option (Int × Bool) :=
  let t5 := 5 * t0 + zeroK5
  if r0 = 0 || beta = 0 || t5 ≤ 0 then none
  else
    let s := 80 * beta * 2 ^ 80 + t5 * lnFix (256 * a) (b * r0)
    if s ≤ 0 then some (32768, false) else some (tempOf (t5 * beta * 2 ^ 80) s)

/-- A binary32 in units of 2^-149; `none` for an infinity or a NaN. -/
def binary32 (w : Nat) : Option Int :=
  let e := bits w 30 23
  let f := bits w 22 0
  if e = 255 then none
  else
    let v : Int := if e = 0 then f else (2 ^ 23 + f) * 2 ^ (e - 1)
    some (if w.testBit 31 then -v else v)

/-- Curve 9: `1/T = A + B ln R + C (ln R)³`; `none` where a coefficient is no number or 1/T is 0. Log entry 10. -/
def shTemp (a b ca cb cc : Nat) : Option (Int × Bool) :=
  match binary32 ca, binary32 cb, binary32 cc with
  | some x, some y, some z =>
    let l := lnFix a b
    let s := x * 2 ^ 240 + y * l * 2 ^ 160 + z * l * l * l
    if s = 0 then none
    else if 0 < s then some (tempOf (2 ^ 389) s) else some (tempOf (-(2 ^ 389)) (-s))
  | _, _, _ => none

/-- Resistance of an IEC 60751 element of `r0` ohms at `n`/16 degrees, in 2^-16 · 10^-15 ohm (coefficients PRESUMED: log entry
10). -/
def rtdOhms (r0 : Nat) (n : Int) : Int :=
  r0 * (2 ^ 16 * 10 ^ 15 + 3908300000000 * n * 2 ^ 12 - 577500000 * n * n * 2 ^ 8 -
    (if n < 0 then 4183 * (n - 1600) * n * n * n else 0))

/-- The greatest `n` from `lo` on, of less than `2 ^ k` steps, at which the element's resistance is at most `a / b`. -/
def rtdSearch (r0 a b : Nat) : Nat → Int → Int
  | 0, lo => lo
  | k + 1, lo =>
    rtdSearch r0 a b k (if rtdOhms r0 (lo + 2 ^ k) * b ≤ a * (2 ^ 16 * 10 ^ 15) then lo + 2 ^ k else lo)

/-- Curves 2 and 3 over -200 to 850 degrees; outside, one unit past the limit on that side. -/
def rtdTemp (r0 a b : Nat) : Int × Bool :=
  let r : Int := a * (2 ^ 16 * 10 ^ 15)
  if r < rtdOhms r0 (-3200) * b then (-3201, false)
  else if rtdOhms r0 13600 * b < r then (13601, false)
  else
    let n := rtdSearch r0 a b 15 (-3200)
    let n := min n 13600
    (n, rtdOhms r0 n * b = r)

/-- A temperature within one unit of the exact one (R523), chosen by `free`: the units on both sides of it, or with the one
that it is those beside. Log entry 10. -/
def nearTemp (free : Int) (t : Int × Bool) : Int := if t.2 then t.1 - 1 + free % 3 else t.1 + free % 2

end Sys2Proof.Machine
end

