-- ==== Sys2Proof/Machine/AuxSens.lean ====
section
/-!
DEFINITION. Auxiliary sensing: sequencers, runs, results, correction, calibration, the cross-check, the threshold switches, and the trigger units that take aux results and pin patterns (ch. 13; 14 R538-R545).
-/
namespace Sys2Proof.Machine

/-! ## Records -/

def Mach.entLo (m : Mach) (c : Fin 2) (e : Nat) : Word := m.reg (F.AUX_ENTL_reg c e)
def Mach.entHi (m : Mach) (c : Fin 2) (e : Nat) : Word := m.reg (F.AUX_ENTH_reg c e)

/-- HALF of an entry (R517). -/
def Mach.half (m : Mach) (c : Fin 2) (e : Nat) : Bool := (m.get (F.AUX_HALF_HALF c)).testBit e

/-- The loop runs the entry (R510). -/
def Mach.loopEnt (m : Mach) (c : Fin 2) (e : Nat) : Bool :=
  m.get (F.AUX_ENTL_EN c e) = 1 && m.get (F.AUX_ENTL_URGONLY c e) = 0 && !m.half c e

/-- The first entry from `e` on that the loop runs. -/
def Mach.nextEnt (m : Mach) (c : Fin 2) (e : Nat) : Option Nat :=
  (List.range (m.get (F.AUX_SEQ_LAST c) + 1)).find? (fun k => e ≤ k && m.loopEnt c k)

/-! ## The cross-check's arming (R530) -/

def Mach.xOk (m : Mach) : Bool :=
  let a := m.get F.AUX_XCHK_XA
  let b := m.get F.AUX_XCHK_XB
  let la := (m.entLo 0 a).toNat
  let lb := (m.entLo 1 b).toNat
  m.is F.AUX_XCHK_XEN && m.auxEn && m.is (F.AUX_SEQ_RUN 0) && m.is (F.AUX_SEQ_RUN 1) && m.aux.calEnd.isNone &&
  m.loopEnt 0 a && m.loopEnt 1 b && a ≤ m.get (F.AUX_SEQ_LAST 0) && b ≤ m.get (F.AUX_SEQ_LAST 1) &&
  bits la 20 20 = bits lb 20 20 && bits la 18 15 = bits lb 18 15 && bits la 9 0 = bits lb 9 0

/-- XARMED follows its conditions; its setting starts XLATE's count (R530, R532). -/
def Mach.auxSync (m : Mach) : Mach :=
  let was := m.is F.AUX_STAT_XARMED
  let m := m.put F.AUX_STAT_XARMED (b2n m.xOk)
  if m.xOk then (if was then m else { m with aux := { m.aux with xSince := some m.now } })
  else { m with aux := { m.aux with xSince := none } }

/-! ## Runs and loops -/

/-- Sample instants of a result: its first and its last. -/
def AuxPend.first (p : AuxPend) : Nat := p.slots.head?.getD p.sw
def AuxPend.last (p : AuxPend) : Nat := p.slots.getLast?.getD p.sw

/-- The beats of `n` slots from `t` on. -/
def slotsFrom (t n : Nat) : List Nat := (List.range n).map (fun i => t + 64 * i)

/-- Results of a run whose switch slot is at `t`: one per repeat (R508). -/
def Mach.runPends (m : Mach) (e : Nat) (lo hi : Word) (t loop : Nat) (reps : Nat) (urg : Bool) : List AuxPend :=
  let n := recN hi
  let (p, q) := m.recNodes lo
  (List.range reps).map (fun k =>
    { ent := e, lo := lo, hi := hi, sw := t, pos := p, neg := q, urg := urg, loop := loop,
      slots := slotsFrom (t + 64 * (1 + recSettle hi + k * n)) n })

/-- Slots of a run up to its last sample. -/
def runSamples (hi : Word) (reps : Nat) : Nat := 1 + recSettle hi + recN hi * reps

/-- Starts a run of entry e in the slot at `t`: the record is read and the selectors change there (R508). -/
def Mach.startRun (m : Mach) (c : Fin 2) (e t loop : Nat) : Mach :=
  let lo := m.entLo c e
  let hi := m.entHi c e
  let n := runSamples hi (recReps hi)
  let stop := t + 64 * (n + recDelay hi)
  let x := m.seq c
  let m := m.setSeq c { x with run := some { ent := e, lo := lo, hi := hi, sw := t, base := t, stop := stop },
                               free := stop, loop := some (loop, e + 1),
                               land := x.land ++ m.runPends e lo hi t loop (recReps hi) false }
  m.planSteer c lo t t (t + 64 * n)

/-- LOOPDONE, the loop's length and AUX_LOOP (R512). -/
def Mach.loopDone (m : Mach) (c : Fin 2) (len : Nat) : Mach :=
  let n := min 0xFFFF len
  let m := (m.put (F.AUX_SSTAT_LOOPDONE c) 1).put (F.AUX_LOOPT_LEN c) n
  (m.put (F.AUX_LOOPT_MAX c) (max n (m.get (F.AUX_LOOPT_MAX c)))).pulse 7 4

/-- The loop that began at `s` ends at beat `e` (R510, R512). -/
def Mach.loopEnd (m : Mach) (c : Fin 2) (s e : Nat) : Mach :=
  let x := m.seq c
  let e := if e = s then s + 64 else e
  let m := m.setSeq c { x with loop := none, run := none, free := e, told := false }
  if x.told then m
  else if x.land.any (fun p => !p.urg && p.loop = s) then
    m.setSeq c { m.seq c with ended := x.ended ++ [(s, (e - s) / 64)] }
  else m.loopDone c ((e - s) / 64)

/-- A run under blanking whose results are still to come: its end is not known yet (R509). -/
def AuxSeq.blanked (x : AuxSeq) (r : AuxRun) : Bool := recBlank r.lo && x.land.any (fun p => !p.urg && p.sw = r.sw)

/-- The sequencer goes on to the slot at `t`: runs that have ended give way to the next, and the loop to its end. -/
def Mach.auxSlots (m : Mach) (c : Fin 2) (t : Nat) : Nat → Mach
  | 0 => m
  | n + 1 =>
    let x := m.seq c
    let done := match x.run with
      | some r => r.stop ≤ t && !x.blanked r
      | none => true
    match x.loop with
    | none => m
    | some (s, k) =>
      if !done || t < x.free then m
      else
        match (if m.is (F.AUX_SEQ_RUN c) then m.nextEnt c k else none) with
        | some e => (m.startRun c e x.free s).auxSlots c t n
        | none =>
          let e := if x.free = s then s + 64 else x.free
          if e ≤ t then m.loopEnd c s x.free else m

/-- A sequencer goes on up to this beat, and with it the connections of IEX0. Log entry 33. -/
def Mach.auxAdvance (m : Mach) (c : Fin 2) : Mach :=
  let m := m.auxSlots c m.now 40
  m.steerUpTo c (2 * (m.seq c).steer.length)

/-- Both sequencers go on up to this beat. Log entry 33. -/
def Mach.auxUpTo (m : Mach) : Mach := (m.auxAdvance 0).auxAdvance 1

/-- SSTAT.BUSY and ENT (R513). -/
def Mach.auxStat (m : Mach) (c : Fin 2) : Mach :=
  let x := m.seq c
  let urg := match x.urgEnd with
    | some (e, t) => if m.now < t then some e else none
    | none => none
  let m := m.put (F.AUX_SSTAT_BUSY c) (b2n (x.loop.isSome || urg.isSome))
  match urg, x.run with
  | some e, _ => m.put (F.AUX_SSTAT_ENT c) e
  | none, some r => m.put (F.AUX_SSTAT_ENT c) r.ent
  | none, none => m

/-- Runs the clock to the end of the loop in progress, run by run. -/
def Mach.toLoopEnd (m : Mach) (c : Fin 2) : Nat → Mach
  | 0 => m
  | n + 1 =>
    let m := m.auxAdvance c
    match (m.seq c).loop with
    | none => m
    | some (s, _) =>
      let e := if (m.seq c).free = s then s + 64 else (m.seq c).free
      if m.now < e then (m.runTo e).toLoopEnd c n else m

/-- A loop begins at beat `t` (R510). -/
def Mach.beginLoop (m : Mach) (c : Fin 2) (t : Nat) : Mach :=
  let x := m.seq c
  let m := m.setSeq c { x with loop := some (t, 0), run := none, free := t, told := false }
  (m.auxAdvance c).auxStat c

/-- The slot, not before this beat's, in which what is due at `d` begins. -/
def Mach.slotFor (m : Mach) (d : Nat) : Nat := max d (m.now / 64 * 64)

/-- A start falls at beat `d` (R510, R511). -/
def Mach.startFalls (m : Mach) (c : Fin 2) (d : Nat) : Mach :=
  let x := m.seq c
  if x.loop.isNone then m.beginLoop c (m.slotFor (max d x.free))
  else if x.held then m.countHold (F.AUX_SSTAT_SKIP c) 1
  else m.setSeq c { x with held := true }

/-- AUX_LOOP_START (R510, R511). -/
def Mach.auxLoopStart (m : Mach) (c : Fin 2) : Mach :=
  if !m.is (F.AUX_SEQ_RUN c) || !m.auxEn || m.aux.calEnd.isSome then m
  else
    let x := m.seq c
    let mode := m.get (F.AUX_SEQ_START c)
    let due := if mode = 1 then x.nextStart else if mode = 2 then x.evDue.head? else none
    if mode = 1 || mode = 2 then
      -- a held loop begins in the slot after the running loop, before any later start
      let early := match due with
        | some d => x.held && (x.loop.isNone || (x.free ≤ d && (m.toLoopEnd c 40).now ≤ d))
        | none => x.held
      if early then
        let m := m.toLoopEnd c 40
        if (m.seq c).loop.isNone then (m.setSeq c { m.seq c with held := false }).beginLoop c (m.slotFor (m.seq c).free) else m
      else
        match due with
        | none => m
        | some d =>
          let m := (m.runTo d).auxAdvance c
          let m := if mode = 1 then
              m.setSeq c { m.seq c with nextStart := some (d + 64 * max 1 (m.get (F.AUX_PER_PERIOD c))) }
            else m.setSeq c { m.seq c with evDue := (m.seq c).evDue.tail }
          m.startFalls c d
    else
      let m := m.toLoopEnd c 40
      let x := m.seq c
      if x.loop.isSome then m
      else
        let d := m.slotFor (max x.free (x.nextStart.getD x.free))
        ((m.runTo d).setSeq c { x with nextStart := none }).beginLoop c d

/-- AUX_SEQ_EVENT: the selected edge reaches the sequencer (R510). -/
def Mach.auxSeqEvent (m : Mach) (c : Fin 2) : Mach :=
  if m.is (F.AUX_SEQ_RUN c) && m.auxEn && m.get (F.AUX_SEQ_START c) = 2 && m.get (F.AUX_SEQ_EVSRC c) ≤ 3 then
    let x := m.seq c
    m.setSeq c { x with evDue := x.evDue ++ [nextGrid 64 m.now + 64 * m.get (F.AUX_SEQ_EVDLY c)] }
  else m

/-- RUN goes to 1 or 0 (R497, R510, R512). -/
def Mach.auxRun (m : Mach) (c : Fin 2) (on : Bool) : Mach :=
  let m := m.auxAdvance c
  let x := m.seq c
  let was := m.is (F.AUX_SEQ_RUN c)
  if on then
    if m.aux.calEnd.isSome then m.setSeq c { x with runHeld := true }
    else if was then m
    else (m.put (F.AUX_SEQ_RUN c) 1).setSeq c { x with nextStart := some (nextGrid 64 (m.now + 1)), evDue := [], held := false }
  else
    (m.put (F.AUX_SEQ_RUN c) 0).setSeq c { x with held := false, nextStart := none, evDue := [], runHeld := false }

/-- A write of AUX{c}_SEQ (R510); another START under a RUN that stays 1 begins as though RUN were set by the write (log entry
100). -/
def Mach.auxSeqWrite (m : Mach) (c : Fin 2) (v : Word) : Mach :=
  let m := m.auxAdvance c
  let run := m.get (F.AUX_SEQ_RUN c)
  let start := m.get (F.AUX_SEQ_START c)
  let m := (m.plainWrite (F.AUX_SEQ_reg c) v).put (F.AUX_SEQ_RUN c) run
  let m := if run = 1 && m.get (F.AUX_SEQ_START c) != start then
      m.setSeq c { m.seq c with nextStart := some (nextGrid 64 (m.now + 1)), evDue := [] }
    else m
  ((m.auxRun c (v.getLsbD 31)).auxStat c).auxSync

/-! ## Urgent requests -/

/-- AUX_URGENT: GO written with ENT (R497, R514). Log entry 89. -/
def Mach.auxUrgent (m : Mach) (c : Fin 2) (e : Nat) : Mach :=
  if m.is (F.AUX_URG_GO c) then m.put (F.AUX_SSTAT_URGMISS c) 1
  else
    let m := m.put (F.AUX_URG_ENT c) e
    if m.get (F.AUX_ENTL_EN c e) = 0 || m.half c e || m.aux.calEnd.isSome then
      (m.put (F.AUX_SSTAT_URGREF c) 1).pulse 7 4
    else
      let m := m.put (F.AUX_URG_GO c) 1
      m.setSeq c { m.seq c with urg := some (e, m.now) }

/-- The sample slots of the run in progress that no result has landed of. -/
def AuxSeq.runSlots (x : AuxSeq) : List Nat :=
  match x.run with
  | some r => (x.land.filter (fun p => !p.urg && p.sw = r.sw)).flatMap (fun p => p.slots)
  | none => []

/-- First slot an urgent run may take, asked for at beat `t`: after the run's next sample while one is to come, else the next
(R515). -/
def AuxSeq.urgSlot (x : AuxSeq) (t : Nat) : Nat :=
  match x.run, x.runSlots.find? (fun s => t / 64 * 64 ≤ s) with
  | some r, some s => if r.sw ≤ t then s + 64 else t / 64 * 64 + 64
  | _, _ => t / 64 * 64 + 64

/-- The slots of the cut run from `s` on move, in their order, to slots from `t` on (R516): the results, and the next slot. -/
def recut (sw s : Nat) : Nat → List AuxPend → List AuxPend
  | _, [] => []
  | t, p :: l =>
    if p.sw = sw && !p.urg then
      let kept := p.slots.filter (fun k => k < s)
      let n := p.slots.length - kept.length
      { p with slots := kept ++ slotsFrom t n } :: recut sw s (t + 64 * n) l
    else p :: recut sw s t l

/-- Places a result in the order of the last samples. -/
def insertPend (p : AuxPend) : List AuxPend → List AuxPend
  | [] => [p]
  | q :: t => if p.last ≤ q.last then p :: q :: t else q :: insertPend p t

/-- Blanking puts off the samples of a run's results, from result `p` on or of `p` alone, and with them all that follows in
the run (R509): `low` as in `Mach.blankAt`, counted from the first slot of `p`. -/
def Mach.blankRun (m : Mach) (c : Fin 2) (p : AuxPend) (low : List Nat) (all : Bool) : Mach :=
  if !recBlank p.lo then m
  else
    let x := m.seq c
    let dark := m.blankAt p.first low
    let n := m.darkBound low
    let mine (q : AuxPend) : Bool := q.sw = p.sw && q.urg = p.urg
    let old := if all then (x.land.filter mine).flatMap (fun q => q.slots) else p.slots
    let new := openSlots dark n 0 old
    let d := (new.getLast?.getD 0) - (old.getLast?.getD 0)
    let goes (s : Nat) : Nat := match (old.zip new).lookup s with | some t => t | none => s + d
    -- what stands after the samples put off: the rest of the run, and under an urgent run the run it cut
    let late (q : AuxPend) : Bool := mine q || (p.urg && (x.run.map (fun r => r.sw)) = some q.sw)
    let last := old.getLast?.getD 0
    m.setSeq c { x with
      land := x.land.map (fun q =>
        { q with slots := q.slots.map (fun s => if mine q then goes s else if late q && last < s then s + d else s) }),
      free := x.free + d,
      run := x.run.map (fun r => { r with stop := r.stop + d }),
      urgEnd := x.urgEnd.map (fun u => if p.urg then (u.1, u.2 + d) else u),
      steer := x.steer.map (fun k => if k.sw = p.sw then { k with until' := k.until' + d }
                                     else if last < k.since then { k with since := k.since + d, until' := k.until' + d } else k) }

/-- URGENT_RUN_START (R487, R491, R497, R515, R516): `low` holds the slots, counted from the next sample slot of a run that
obeys blanking, in which BLANKN reads low (R509).  A run granted before a calibration waits for its end (log entry 100).
Log entry 77. Log entry 89. -/
def Mach.urgentStart (m : Mach) (c : Fin 2) (low : List Nat) : Mach :=
  match (if m.auxEn && m.aux.calEnd.isNone then (m.seq c).urg else none) with
  | none => m
  | some (e, t) =>
    let m := m.auxAdvance c
    let m := match (m.seq c).run with
      | some r =>
        match (m.seq c).land.find? (fun (p : AuxPend) => !p.urg && p.sw = r.sw) with
        | some p => m.blankRun c p low true
        | none => m
      | none => m
    let s := (m.seq c).urgSlot t
    let m := m.runTo s
    let m := if s < m.now then m.auxAdvance c else m.auxSlots c (s - 64) 40
    let s := if s < m.now then nextGrid 64 m.now else s
    let lo := m.entLo c e
    let hi := m.entHi c e
    let u := s + 64 * runSamples hi 1
    let x := (m.seq c).cutSteer s
    let ps := m.runPends e lo hi s s 1 true
    let m := m.setSeq c { x with urg := none, urgEnd := some (e, u), free := max u x.free }
    let m := (m.planSteer c lo s s u)
    let x := m.seq c
    let m := match x.run with
      | some r =>
        if s < r.stop then
          let left := (x.runSlots.filter (fun k => s ≤ k)).length
          if left = 0 then m.setSeq c { x with run := some { r with stop := r.stop + (u - s) }, free := r.stop + (u - s) }
          else
            -- it goes on from a switch slot at `u`, with the samples that remain
            let t := u + 64 * (1 + recSettle r.hi)
            let stop := t + 64 * (left + recDelay r.hi)
            (m.setSeq c { x with run := some { r with base := u, stop := stop }, free := stop, land := recut r.sw s t x.land }).planSteer
              c r.lo r.sw u (t + 64 * left)
        else m
      | none => m
    let x := m.seq c
    let m := m.setSeq c { x with land := ps.foldl (fun l p => insertPend p l) x.land }
    (m.auxAdvance c).auxStat c

/-! ## Results -/

/-- The corrected value y of R501-R503, and whether a sample or the correction clamped. Log entry 10. -/
def auxY (lo : Word) (cor : Word) (n : Nat) (vals : List Int) : Int × Bool × Int :=
  let sg := recSigned lo
  let cs := (List.range n).map (fun i => vals.getD i 0)
  let c1 := cs.map (fun v => if sg then clampInt (-2048) 2047 v else clampInt 0 4095 v)
  let A := floorDiv (16 * c1.foldl (· + ·) 0) n
  let y := floorDiv ((A - sext 16 (bits cor.toNat 15 0)) * bits cor.toNat 31 16 + 8192) (2 ^ 14)
  let z := if sg then clampInt (-32768) 32767 y else clampInt 0 65535 y
  (z, cs != c1 || y != z, A)

/-- Range of a curve in 1/16 degree (R523). -/
def curveRange (k : Nat) : Int × Int :=
  match k with
  | 1 => (-55 * 16, 200 * 16)
  | 2 => (-200 * 16, 850 * 16)
  | 3 => (-200 * 16, 850 * 16)
  | 4 => (-210 * 16, 1200 * 16)
  | 5 => (-270 * 16, 1372 * 16)
  | 6 => (-270 * 16, 400 * 16)
  | 7 => (-270 * 16, 1000 * 16)
  | 8 => (-270 * 16, 1300 * 16)
  | _ => (-32768, 32767)

/-- VREF in mV for the curves (R492). -/
def Mach.vrefMv (m : Mach) : Nat :=
  match m.get F.AUX_CFG_REFSEL with
  | 1 => m.get F.AUX_CFG_REFMV
  | 2 => 1800
  | _ => 1250

/-- What a result holds: VAL, CLIP, staleness from a cold junction, and CURVERR (R504, R523-R527). -/
structure AuxVal where
  val : Nat
  clip : Bool
  cjStale : Bool := false
  curvErr : Bool := false
  deriving DecidableEq, Repr

/-- Clamps a temperature to its curve's range (R523). Log entry 10. -/
def clampTemp (k : Nat) (t : Int) (clip : Bool) : AuxVal :=
  let (lo, hi) := curveRange k
  let c := clampInt lo hi t
  { val := wrapInt 16 c, clip := clip || c != t }

/-- A result near an exact temperature: the exact one decides whether it clamps (R523). -/
def nearVal (k : Nat) (free : Int) (t : Int × Bool) (clip : Bool) : AuxVal :=
  let (lo, hi) := curveRange k
  if lo ≤ t.1 && (t.1 < hi || (t.1 = hi && t.2)) then { val := wrapInt 16 (clampInt lo hi (nearTemp free t)), clip := clip }
  else clampTemp k t.1 true

/-- Curves 1, 2, 3 and 9: R = RSCALE × ρ or RSCALE × ρ / (1 - ρ), and the temperature of R; one that is not positive clamps to
the limit on its side (R523, R524).  `p` holds words P0-P6. -/
def ohmVal (k : Nat) (p : List Nat) (y free : Int) (clip : Bool) : AuxVal :=
  let w (i : Nat) := p.getD i 0
  let a := w 1 * y.toNat
  let b := 256 * (if (w 0).testBit 0 then 65536 - y.toNat else 65536)
  if a = 0 then
    -- R = 0: below every RTD's range, and past the NTC model's hot end
    if k = 1 then { val := wrapInt 16 (curveRange 1).2, clip := true }
    else if k = 9 then { clampTemp 9 free true with clip := true }
    else { val := wrapInt 16 (curveRange k).1, clip := true }
  else if k = 2 then nearVal k free (rtdTemp 100 a b) clip
  else if k = 3 then nearVal k free (rtdTemp 1000 a b) clip
  else
    match (if k = 1 then ntcTemp a b (w 2) (bits (w 3) 31 16) (sext 16 (bits (w 3) 15 0)) else shTemp a b (w 4) (w 5) (w 6)) with
    | some t => nearVal k free t clip
    | none => clampTemp k free clip

/-- VAL of a result from its record, y and A (R504, R523-R527). -/
def Mach.auxVal (m : Mach) (lo : Word) (y A : Int) (clip : Bool) : AuxVal :=
  let k := recCurve lo
  if recDie lo then { val := wrapInt 16 (clampInt (-32768) 32767 (Config.dieTemp (recPsel lo) A)), clip := clip }
  else if k = 0 then { val := wrapInt 16 (if lo.getLsbD 19 then floorDiv y 16 else y), clip := clip }
  else if recSigned lo != (4 ≤ k && k ≤ 8) then { val := 0, clip := true, curvErr := true }
  else
    let j := bits lo.toNat 23 21
    let p := (List.range 7).map (fun i => m.get (F.AUX_LIN_W j i))
    let p0 := p.getD 0 0
    if 4 ≤ k && k ≤ 8 then
      let fix := bits p0 15 15 = 1
      let cv := bits p0 13 13
      let ce := bits p0 12 8
      let tcj := if fix then sext 16 (bits (p.getD 3 0) 15 0) else sext 16 (m.get (F.AUX_RES_VAL cv ce))
      { clampTemp k (Config.curveTemp k p y m.vrefMv (2 ^ recGain lo) tcj) clip with
        cjStale := !fix && m.is (F.AUX_RES_STALE cv ce) }
    else ohmVal k p y (Config.curveTemp k p y m.vrefMv (2 ^ recGain lo) 0) clip

/-- A result compares as signed (R535). -/
def recCompSigned (lo : Word) : Bool := recSigned lo || recCurve lo != 0 || recDie lo

/-- VAL as it compares. -/
def compVal (lo : Word) (v : Nat) : Int := if recCompSigned lo then sext 16 v else v

/-! ## Threshold switches -/

/-- The level of a threshold switch's pin (R50, R537). -/
def Mach.tswLevel (m : Mach) (k : Nat) : Bool :=
  m.is (F.AUX_TSW_CFG_EN k) && (m.get (F.AUX_TSW_CFG_STATE k) != m.get (F.AUX_TSW_CFG_INV k)) && !m.is F.SHR_STATUS_SAFE

/-- The pin of a threshold switch follows (R537). -/
def Mach.tswDrive (m : Mach) (k : Nat) : Mach :=
  { m with out := { m.out with tsw := BitVec.ofNat 8 (setBits m.out.tsw.toNat k k (b2n (m.tswLevel k))) } }

/-- In the tick after a result has landed the pins of the threshold switches follow their states (R537). -/
def Mach.tswPins (m : Mach) : Mach :=
  if (List.range 8).all (fun k => m.out.tsw.getLsbD k = m.tswLevel k) then m
  else (m.runTo ((m.now / 4 + 1) * 4)).each (List.range 8) (fun k m => m.tswDrive k)

/-- TSW_UPDATE (R535-R537). -/
def Mach.tswResult (m : Mach) (c : Fin 2) (e : Nat) (lo : Word) (val : Nat) (stale : Bool) : Mach :=
  if stale || !m.auxEn then m
  else
    let was := (List.range 8).map (fun k => m.get (F.AUX_TSW_CFG_STATE k))
    let m := m.each (List.range 8) (fun k m =>
      if m.is (F.AUX_TSW_CFG_EN k) && m.get (F.AUX_TSW_CFG_CONV k) = c && m.get (F.AUX_TSW_CFG_ENT k) = e then
        let lim (x : Nat) : Int := if recCompSigned lo then sext 16 x else x
        let hi := lim (m.get (F.AUX_TSW_THR_HI k))
        let low := lim (m.get (F.AUX_TSW_THR_LO k))
        let v := compVal lo val
        if hi < v then m.put (F.AUX_TSW_CFG_STATE k) 1
        else if v < low && low ≤ hi then m.put (F.AUX_TSW_CFG_STATE k) 0 else m
      else m)
    if was != (List.range 8).map (fun k => m.get (F.AUX_TSW_CFG_STATE k)) then m.pulse 7 5 else m

/-- A write of AUX_TSW{k}_CFG (R534, R536, R537). -/
def Mach.tswWrite (m : Mach) (k : Nat) (v : Word) : Mach :=
  let was := m.is (F.AUX_TSW_CFG_EN k)
  let m := m.plainWrite (F.AUX_TSW_CFG_reg k) v
  let m := if !was && m.is (F.AUX_TSW_CFG_EN k) && m.is (F.AUX_TSW_CFG_STATE k) then
      (m.put (F.AUX_TSW_CFG_STATE k) 0).pulse 7 5 else m
  m.tswDrive k

/-! ## Analog trigger units -/

/-- Up and down crossings that a result confirms at one level, and the level's new state (R543). -/
structure Crossed where
  up : Option Nat
  dn : Option Nat
  st : CrossSt
  deriving DecidableEq, Repr

/-- One result against one level (R543). -/
def crossLevel (X hyst : Int) (last : Option (Int × Nat)) (s : CrossSt) (v : Int) (t : Nat) : Crossed :=
  match last with
  | none => { up := none, dn := none, st := {} }
  | some (va, ta) =>
    let up := if va < X && X ≤ v then some (ta + ((((t - ta : Nat) : Int) * (X - va)) / (v - va)).toNat)
              else if v < X then none else s.tentUp
    let dn := if X ≤ va && v < X then some (ta + ((((t - ta : Nat) : Int) * (va - X)) / (va - v)).toNat)
              else if X ≤ v then none else s.tentDn
    let cu := if X + hyst ≤ v then up else none
    let cd := if v < X - hyst then dn else none
    { up := cu, dn := cd, st := { tentUp := if cu.isSome then none else up, tentDn := if cd.isSome then none else dn } }

/-- Whether a width is inside, or outside, WMIN-WMAX (R544). -/
def Mach.unitInside (m : Mach) (u : Nat) (w : Int) : Bool :=
  let inside := decide ((m.get (F.TRG_U_WMIN_WMIN u) : Int) ≤ w) && decide (w ≤ (m.get (F.TRG_U_WMAX_WMAX u) : Int))
  inside != m.is (F.TRG_U_CFG_SENSE u)

/-- A unit fires: its last event time, its count, and the page machine (R538; ch. 14 section 1.4). -/
def Mach.unitFire (m : Mach) (u : Nat) (t : Nat) : Mach :=
  let m := (m.put (F.TRG_U_TLO_T u) (sysOf t)).put (F.TRG_U_THI_T u) (sysOf t / 2 ^ 32)
  ((m.countHold (F.TRG_U_CNT_N u) 1).bwlSource u t).fireSource u t

def Mach.unit (m : Mach) (u : Fin 8) : UnitSt := m.trg.units[u]
def Mach.setUnit (m : Mach) (u : Fin 8) (x : UnitSt) : Mach :=
  { m with trg := { m.trg with units := m.trg.units.set u x } }

/-- ANALOG_TRIGGER_FIRE: a landed result reaches a unit (R541-R544). -/
def Mach.unitResult (m : Mach) (u : Fin 8) (v : Int) (t : Nat) (stale sg : Bool) : Mach :=
  if stale then m.setUnit u { since := (m.unit u).since }
  else
    let x := m.unit u
    let kind := m.get (F.TRG_U_CFG_KIND u)
    let lim (w : Nat) : Int := if sg then sext 16 w else w
    let hyst : Int := m.get (F.TRG_U_CFG_HYST u)
    let a := crossLevel (lim (m.get (F.TRG_U_LVL_L1 u))) hyst x.last x.c1 v t
    let b := crossLevel (lim (m.get (F.TRG_U_LVL_L2 u))) hyst x.last x.c2 v t
    let pol := m.is (F.TRG_U_CFG_POL u)
    let (up1, dn1, up2) := if pol then (a.dn, a.up, b.dn) else (a.up, a.dn, b.up)
    let wmax := m.get (F.TRG_U_WMAX_WMAX u)
    -- the up crossing of L1 begins a pulse; then L2; then the down crossing ends it
    let y : UnitSt := { x with last := some (v, t), c1 := a.st, c2 := b.st }
    let y := match up1 with
      | some t1 => if y.up1.isNone then { y with up1 := some t1, saw2 := false, armed := kind = 4 } else y
      | none => y
    let slew := match up2, y.up1 with
      | some t2, some t1 => kind = 5 && m.unitInside u ((t2 : Int) - t1)
      | _, _ => false
    let y := if up2.isSome && y.up1.isSome then { y with saw2 := true } else y
    let ends := match dn1, y.up1 with
      | some td, some tu => (kind = 2 && m.unitInside u ((td : Int) - tu)) || (kind = 3 && !y.saw2)
      | _, _ => false
    let late := match y.up1 with
      | some tu => y.armed && (tu + wmax < m.now || (dn1.isNone && tu + wmax ≤ m.now))
      | none => false
    let y := if late then { y with armed := false } else y
    let tu := y.up1.getD 0
    let y := if dn1.isSome then { y with up1 := none, saw2 := false, armed := false } else y
    let m := m.setUnit u y
    if kind = 1 && up1.isSome then m.unitFire u (up1.getD 0)
    else if ends then m.unitFire u (dn1.getD 0)
    else if slew then m.unitFire u (up2.getD 0)
    else if late then m.unitFire u (tu + wmax)
    else m

/-- Units that take the results of an entry. -/
def Mach.unitTakes (m : Mach) (u : Fin 8) (c : Fin 2) (e : Nat) : Bool :=
  m.is (F.TRG_U_CFG_EN u) && m.get (F.TRG_U_CFG_KIND u) != 0 && m.get (F.TRG_U_CFG_CONV u) = c && m.get (F.TRG_U_CFG_ENT u) = e

/-- TRG_TIMEOUT_FIRE (R544). -/
def Mach.timeoutFire (m : Mach) (u : Fin 8) : Mach :=
  let x := m.unit u
  match x.up1 with
  | some tu =>
    if x.armed && m.is (F.TRG_U_CFG_EN u) && m.get (F.TRG_U_CFG_KIND u) = 4 then
      let due := tu + m.get (F.TRG_U_WMAX_WMAX u)
      ((m.runTo due).setUnit u { x with armed := false }).unitFire u due
    else m
  | none => m

/-- What a pattern unit has seen of its condition: whether it was false since EN was set, the counted run of true beats that ends
here, the one before the false beats that end here, and how many those are (R539, R540). -/
structure PatRun where
  seen : Bool := false
  run : Nat := 0
  prev : Nat := 0
  off : Nat := 0
  deriving DecidableEq, Repr

/-- `n` beats with the condition true or false. Log entry 103. -/
def PatRun.add (r : PatRun) (c : Bool) (n : Nat) : PatRun :=
  if n = 0 then r
  else if c then { r with run := if r.seen then r.run + n else 0, off := 0 }
  else { seen := true, run := 0, prev := if r.off = 0 then r.run else r.prev, off := r.off + n }

/-- C of R539 for the levels `din`. -/
def Mach.patternHolds (m : Mach) (u : Fin 8) (din : BitVec 16) : Bool :=
  (din.toNat ^^^ m.get (F.TRG_U_LVL_L1 u)) &&& m.get (F.TRG_U_LVL_L2 u) = 0

/-- TRG_PATTERN_FIRE at this beat: the levels' history tells a run of QUAL + 1 true beats that ends here, or, with LEAVE, the
first false beat after one of at least as many; no beat before EN was set counts (R539, R540; log entry 103). -/
def Mach.patternFire (m : Mach) (u : Fin 8) (hist : List (BitVec 16 × Nat)) : Mach :=
  let m := { m with pins := { m.pins with din := (hist.getLast?.map (fun e => e.1)).getD m.pins.din } }
  let r : PatRun := hist.foldl (fun r e => r.add (m.patternHolds u e.1) e.2) {}
  let beats := hist.foldl (fun n e => n + e.2) 0
  let need := bits (m.get (F.TRG_U_WMIN_WMIN u)) 23 0 + 1
  let leave := m.is (F.TRG_U_CFG_LEAVE u)
  let fires := if leave then r.off = 1 && need ≤ r.prev else r.run = need
  if m.is (F.TRG_U_CFG_EN u) && m.get (F.TRG_U_CFG_KIND u) = 0 && (m.unit u).since + beats ≤ m.now + 1 && fires then
    m.unitFire u (m.now - (if leave then 2 else need + 1))
  else m

/-! ## The cross-check -/

/-- An XB result has landed: the detail of R920 of a failed comparison, and whether it was injected (R531, R533, R933). -/
def Mach.crossCheck (m : Mach) : Option (Nat × Bool) × Mach :=
  let a := m.get F.AUX_XCHK_XA
  let b := m.get F.AUX_XCHK_XB
  if m.is (F.AUX_RES_STALE 0 a) || m.is (F.AUX_RES_STALE 1 b) then (none, m)
  else
    let ya := (m.seq 0).y[Fin.ofNat 32 a]
    let yb := (m.seq 1).y[Fin.ofNat 32 b]
    let ta := (m.seq 0).t[Fin.ofNat 32 a]
    let tb := (m.seq 1).t[Fin.ofNat 32 b]
    let m := m.put F.AUX_XDIFF_DIFF (wrapInt 16 (yb - ya))
    let inj := m.shr.inject.any (fun k => k.1 = 4)
    let m := if inj then { m with shr := { m.shr with inject := none } } else m
    if ta + 46875 * 64 < tb then (some (2, inj), m.put F.AUX_STAT_XOLD 1)
    else if inj || 16 * m.get F.AUX_XCHK_XTOL < (yb - ya).natAbs then (some (1, inj), m.put F.AUX_STAT_XFAIL 1)
    else (none, { m with aux := { m.aux with xSince := some m.now } })

/-! ## Landing -/

/-- What waits on results follows (R457, R459, R460). -/
def Mach.auxHand (m : Mach) : Mach := m.each allHeads (fun h m => (m.illTstale h).illHeat h)

/-- A landed result may end its loop (R512). -/
def Mach.landLoop (m : Mach) (c : Fin 2) (s : Nat) : Mach :=
  let x := m.seq c
  if x.land.any (fun p => !p.urg && p.loop = s) then m
  else
    match x.ended.find? (fun e => e.1 = s) with
    | some (_, len) => (m.setSeq c { x with ended := x.ended.filter (fun e => e.1 != s) }).loopDone c len
    | none =>
      match x.loop, x.run with
      | some (t, k), some r =>
        if t = s && !x.told && ((m.nextEnt c k).isNone || !m.is (F.AUX_SEQ_RUN c)) then
          (m.setSeq c { x with told := true }).loopDone c ((r.stop - s) / 64)
        else m
      | _, _ => m

/-- A sample was taken at beat `t` while REFRDY read 0 (R494). -/
def Mach.refLow (m : Mach) (t : Nat) : Bool :=
  (!m.is F.AUX_STAT_REFRDY && m.aux.refClr ≤ t) || m.aux.refLows.any (fun l => l.1 ≤ t && t < l.2)

/-- AUX_RESULT: the next result of a converter lands: from the voltages at its sample instants, in their order, its codes and
what they give; `low` as in `Mach.blankAt` (R501-R506, R509, R518, R519, R525, R531).  The answer is that of the cross-check.
Log entry 33. Log entry 77. -/
def Mach.auxResult (m : Mach) (c : Fin 2) (samples : List AuxVolts) (low : List Nat) : Option (Nat × Bool) × Mach :=
  let m := m.auxAdvance c
  match (m.seq c).land with
  | [] => (none, m)
  | p0 :: _ =>
    let m := m.blankRun c p0 low false
    match (m.seq c).land with
    | [] => (none, m)
    | p :: _ =>
      let m := (m.runTo (p.last + 12 * 64)).auxAdvance c
      let m := m.setSeq c { m.seq c with land := ((m.seq c).land.filter (fun q => q != p)) }
      let e : Fin 32 := Fin.ofNat 32 p.ent
      let codes := (List.range (recN p.hi)).map (fun i => m.auxCode p.lo p.pos p.neg (samples.getD i []))
      let (y, clip, A) := auxY p.lo (m.reg (F.AUX_COR_reg c e)) (recN p.hi) codes
      let v := m.auxVal p.lo y A clip
      let stale := p.sw ≤ (m.seq c).stale[e] || m.half c e || p.slots.any m.refLow || v.cjStale
      let m := if v.curvErr then m.put F.AUX_STAT_CURVERR 1 else m
      let m := ((m.put (F.AUX_RES_VAL c e) v.val).put (F.AUX_RES_CLIP c e) (b2n v.clip)).put (F.AUX_RES_URG c e) (b2n p.urg)
      let m := (m.put (F.AUX_RES_STALE c e) (b2n stale)).countMod (F.AUX_RES_SEQ c e) 1
      let x := m.seq c
      let m := m.setSeq c { x with y := x.y.set e y, t := x.t.set e p.last }
      let m := m.each ([0, 1, 2, 3, 4, 5, 6, 7] : List (Fin 8)) (fun u m =>
        if m.unitTakes u c e then m.unitResult u (compVal p.lo v.val) p.last stale (recCompSigned p.lo) else m)
      let m := (m.auxHand).tswResult c e p.lo v.val stale
      let m := if p.urg then
          ((m.put (F.AUX_SSTAT_URGDONE c) 1).put (F.AUX_URG_GO c) 0).pulse 7 4
        else m.landLoop c p.loop
      if c = 1 && m.is F.AUX_STAT_XARMED && e.val = m.get F.AUX_XCHK_XB then m.crossCheck else (none, m)

/-- XCHECK_LATE; the answer says whether XLATE set (R532). Log entry 34. -/
def Mach.xcheckLate (m : Mach) : Bool × Mach :=
  match (if m.is F.AUX_STAT_XARMED then m.aux.xSince else none) with
  | some t =>
    let m := (m.runTo (t + 46875 * 64)).put F.AUX_STAT_XLATE 1
    (true, { m with aux := { m.aux with xSince := none } })
  | none => (false, m)

/-! ## Writes that mark results stale -/

/-- A staling event of one entry (R518). -/
def Mach.staleEnt (m : Mach) (c : Fin 2) (e : Fin 32) : Mach :=
  let x := m.seq c
  (m.setSeq c { x with stale := x.stale.set e m.now }).put (F.AUX_RES_STALE c e) 1

/-- A staling event of every entry (R518). -/
def Mach.staleAll (m : Mach) : Mach :=
  (m.each allConv (fun c m => m.each (List.range 32) (fun e m => m.staleEnt c (Fin.ofNat 32 e)))).auxHand

/-- AUX_ENT_LOW_WRITE (R517, R518). -/
def Mach.entLowWrite (m : Mach) (c : Fin 2) (e : Fin 32) (v : Word) : Mach :=
  let m := (m.auxUpTo).plainWrite (F.AUX_ENTL_reg c e) v
  let m := m.putBit (F.AUX_HALF_HALF c) e
  ((m.staleEnt c e).auxHand).auxSync

/-- AUX_ENT_HIGH_WRITE (R517, R518). -/
def Mach.entHighWrite (m : Mach) (c : Fin 2) (e : Fin 32) (v : Word) : Mach :=
  let m := (m.auxUpTo).plainWrite (F.AUX_ENTH_reg c e) v
  let m := m.put (F.AUX_HALF_HALF c) (setBits (m.get (F.AUX_HALF_HALF c)) e e 0)
  ((m.staleEnt c e).auxHand).auxSync

/-- REFRDY clears (R493). -/
def Mach.refClear (m : Mach) : Mach :=
  { m.put F.AUX_STAT_REFRDY 0 with aux :=
      { m.aux with refClr := if m.is F.AUX_STAT_REFRDY then m.now else m.aux.refClr } }

/-- REFRDY sets (R493): the stretch in which it read 0 is kept for the samples still to land (R494). -/
def Mach.refSet (m : Mach) : Mach :=
  let meets (e : Nat) : Bool := allConv.any (fun c => (m.seq c).land.any (fun p => p.slots.any (fun s => s < e)))
  { m.put F.AUX_STAT_REFRDY 1 with aux :=
      { m.aux with refLows := m.aux.refLows.filter (fun l => meets l.2) ++ [(m.aux.refClr, m.now)] } }

/-- REFSEL changes (R493). -/
def Mach.refChange (m : Mach) : Mach := { m.refClear with aux := { m.refClear.aux with refAt := m.now } }

/-- REFIO is driven (R483). -/
def Mach.refioDrive (m : Mach) : Mach :=
  { m with out := { m.out with refio := (m.get F.AUX_CFG_REFSEL = 0 || m.get F.AUX_CFG_REFSEL = 3) && m.is F.AUX_CFG_REFOUT } }

/-- A write of AUX_CFG, AUX_EXC0, AUX_EXC1, AUX_VEX or AUX_BIAS at address `a` (R483-R488, R493, R518). -/
def Mach.auxCfgWrite (m : Mach) (a : Nat) (v : Word) : Mach :=
  let m := m.auxUpTo
  let sel := m.get F.AUX_CFG_REFSEL
  let was := m.excState
  let m := m.plainWrite a v
  let m := if m.get F.AUX_CFG_REFSEL = sel then m else m.refChange
  let m := if a = F.AUX_CFG_reg then m.refioDrive else m
  ((((m.excChanged was).checkConflict).staleAll)).auxSync

/-- REFRDY: the selected reference has settled to within 1 % (R493). -/
def Mach.refReady (m : Mach) : Mach :=
  if m.is F.AUX_STAT_REFRDY then m
  else
    let m := m.auxUpTo
    let sel := m.get F.AUX_CFG_REFSEL
    if sel = 1 || sel = 2 then (m.runTo (nextGrid 64 m.aux.refAt + 64 * 64)).refSet
    else if m.is F.BOOT_ANA_AREF_EN then m.refSet
    else m

/-- AUX_CLRSKIP (R513). -/
def Mach.auxClrskip (m : Mach) (c : Fin 2) : Mach := (m.put (F.AUX_SSTAT_SKIP c) 0).put (F.AUX_LOOPT_MAX c) 0

/-- EXCITATION_FAULT: what the monitor of source i (0 IEX0, 1 IEX1, 2 VEX) read in the last 64 aux samples: an output voltage in
uV, a current in uA for VEX.  The answer says whether its check failed with the last of them (R489-R491): all 64 hold, none of
them falls in the blanking, and a steered connection lasts that long; IEX0 on its internal load is not checked (log entry 102). -/
def Mach.excFaultAt (m : Mach) (i : Fin 3) (short : Bool) (vals : List Nat) : Bool × Mach :=
  let m := m.auxUpTo
  let t := max (m.monitorDue i) (m.now / 64 * 64)
  let n := (m.runTo t).auxUpTo
  if m.excOn i && n.excOn i && (n.excPin i).isSome && n.aux.exSince[i] = m.aux.exSince[i] && vals.length = 64 &&
     vals.all (n.checkHolds i short) then
    (true, (n.putBit F.AUX_EXCSTAT_FAULTS (2 * i + b2n short)).pulse 7 6)
  else (false, m)

/-- AUX_EXCSTAT_CLEAR: bits written 1 clear and their sources return (R16, R490). -/
def Mach.excClear (m : Mach) (v : Word) : Mach :=
  let m := m.auxUpTo
  let was := m.excState
  ((m.plainWrite F.AUX_EXCSTAT_reg v).excChanged was).checkConflict

/-! ## Calibration -/

/-- A held RUN = 1 takes effect (R497, R499). -/
def Mach.auxRelease (m : Mach) : Mach :=
  m.each allConv (fun c m =>
    let x := m.seq c
    if x.runHeld then (m.setSeq c { x with runHeld := false }).auxRun c true else m)

/-- A calibration request ends with CALST `st` (R495, R496, R498). -/
def Mach.auxCalEnd (m : Mach) (st : Nat) : Mach :=
  (((m.put F.AUX_STAT_CALST st).put F.AUX_STAT_CALDONE 1).pulse 7 4)

/-- AUX_CAL (R495, R496). Log entry 23. -/
def Mach.auxCal (m : Mach) : Mach :=
  if m.is F.AUX_CTL_CAL then m
  else
  let m := m.auxUpTo
  let next := (m.now / 4 + 1) * 4
  let runs (c : Fin 2) : Bool :=
    m.is (F.AUX_SEQ_RUN c) || (match (m.seq c).run with | some r => m.now < r.stop || (m.seq c).blanked r | none => false) ||
      (match (m.seq c).urgEnd with | some (_, t) => m.now < t | none => false)
  -- CALST follows the write of a request that starts nothing; CALDONE and the pulse come in the next tick
  if runs 0 || runs 1 || !m.auxEn then ((m.put F.AUX_STAT_CALST 3).runTo next).auxCalEnd 3
  else if m.get F.BOOT_ANA_AREF_EN = 0 then ((m.put F.AUX_STAT_CALST 4).runTo next).auxCalEnd 4
  else
    let m := ((m.put F.AUX_CTL_CAL 1).runTo next).put F.AUX_STAT_CALST 1
    ({ m with aux := { m.aux with calEnd := some (next + 2700000) } }).auxSync

/-- AUX_CAL_DONE (R496, R497). -/
def Mach.auxCalDone (m : Mach) (pass : Bool) : Mach :=
  match m.aux.calEnd with
  | none => m
  | some due =>
    let m := (m.runTo due).put F.AUX_CTL_CAL 0
    let m := { m with aux := { m.aux with calEnd := none } }
    ((m.auxCalEnd (if pass then 2 else 5)).auxRelease).auxSync

/-- A calibration is abandoned by a clock stop (R498). -/
def Mach.auxCalStop (m : Mach) : Mach :=
  if m.aux.calEnd.isSome then
    let m := { m.put F.AUX_CTL_CAL 0 with aux := { m.aux with calEnd := none } }
    (m.auxCalEnd 6).auxRelease
  else m

/-! ## Gating and clock stops -/

/-- AUX_GATE: AUX_EN written (R499, R518, R520). Log entry 89. Log entry 100. -/
def Mach.auxGate (m : Mach) (on : Bool) : Mach :=
  let was := m.auxEn
  let m := m.auxUpTo
  let was' := m.excState
  let m := m.put F.CLK_GATE_AUX_EN (b2n on)
  if on then
    if was then m
    else
      let m := m.excChanged was'
      let m := m.each allConv (fun c m =>
        if m.is (F.AUX_SEQ_RUN c) then m.setSeq c { m.seq c with nextStart := some (nextGrid 64 (m.now + 1)), free := m.now }
        else m)
      let m := if m.aux.calPulse then
          ({ m.put F.AUX_STAT_CALDONE 1 with aux := { m.aux with calPulse := false } }).pulse 7 4
        else m
      m.auxSync
  else if was then
    let m := if m.aux.calEnd.isSome then
        ({ (m.put F.AUX_CTL_CAL 0).put F.AUX_STAT_CALST 7 with
           aux := { m.aux with calEnd := none, calPulse := true } }).auxRelease
      else m
    let m := m.each allConv (fun c m =>
      let x := m.seq c
      (m.setSeq c { x with loop := none, told := false, run := none, land := [], ended := [], held := false,
                           nextStart := none, evDue := [], urgEnd := none, steer := [] }).put (F.AUX_URG_GO c) (b2n x.urg.isSome))
    ((m.staleAll).each allConv (fun c m => m.auxStat c)).auxSync
  else m

/-- Moves the sample slots from beat `b` on of the pending results that `mine` picks by `d` beats. -/
def AuxSeq.moveLand (x : AuxSeq) (mine : AuxPend → Bool) (b d : Nat) : List AuxPend :=
  x.land.map (fun p => if mine p then { p with slots := p.slots.map (fun s => if b ≤ s then s + d else s) } else p)

/-- The connections of a run that begins again are made again. -/
def AuxSeq.moveSteer (x : AuxSeq) (b d : Nat) : List Steer :=
  x.steer.map (fun k => if b ≤ k.since then { k with since := k.since + d, until' := k.until' + d, acted := false } else k)

/-- Each run in progress begins again in its switch slot when the clock returns at `t`: an urgent run first, and the run
it interrupted after it (R516, R521).  XLATE's count takes only beats that run (R79, R532). -/
def Mach.auxRelock (m : Mach) (last t : Nat) : Mach :=
  let m := { m with aux := { m.aux with xSince := m.aux.xSince.map (fun s => s + (t - last - 1)) } }
  m.each allConv (fun c m =>
    let x := m.seq c
    let urg := match x.urgEnd, x.land.find? (fun p => p.urg) with
      | some (_, u), some p => if last < u then some p else none
      | _, _ => none
    match urg, x.run with
    | some p, r =>
      let d := t - p.sw
      let mine (q : AuxPend) : Bool := (q.urg && q.sw = p.sw) || r.any (fun r => q.sw = r.sw)
      m.setSeq c { x with urgEnd := x.urgEnd.map (fun q => (q.1, q.2 + d)), free := x.free + d,
                          run := r.map (fun r => { r with base := r.base + d, stop := r.stop + d }),
                          land := x.moveLand mine p.sw d, steer := x.moveSteer p.sw d }
    | none, some r =>
      if last < r.stop || x.blanked r then
        let d := t - r.base
        m.setSeq c { x with run := some { r with base := t, stop := r.stop + d }, free := r.stop + d,
                            land := x.moveLand (fun p => p.sw = r.sw) r.base d, steer := x.moveSteer r.base d }
      else m
    | none, none => m)

end Sys2Proof.Machine
end

