-- ==== Sys2Proof/Machine/Nv.lean ====
section
/-!
DEFINITION. The NV store: record copies, the two-phase commit, the fault log and its entries (23 sections 8-10).  The
array outlives every reset, so what reads or writes it takes it as an argument of its own.
-/
namespace Sys2Proof.Machine

/-- The NV array: 262,144 bytes (R935); an unlisted one reads 0 (log entry 6). -/
abbrev NvArr := Sparse 8

/-- Log entry 6. -/
def NvArr.byte (x : NvArr) (a : Nat) : Byte := Sparse.get (fun _ => 0) x a
def NvArr.bytes (x : NvArr) (a n : Nat) : List Byte := (List.range n).map (fun (i : Nat) => NvArr.byte x (a + i))
def NvArr.word (x : NvArr) (a : Nat) : Nat := leNat (NvArr.bytes x a 4)
def NvArr.put (x : NvArr) (a : Nat) : List Byte → NvArr
  | [] => x
  | b :: t => NvArr.put (Sparse.set (fun _ => 0) x a b) (a + 1) t

/-! ## Record copies (R937, R938) -/

/-- Array offset of copy A (false) or B of a slot (R937). -/
def copyAt (slot : Nat) (b : Bool) : Nat := 2048 * slot + (if b then 1024 else 0)

/-- A slot of a record region (R935). -/
def recordSlot (s : Nat) : Bool := s < 8 || (32 ≤ s && s < 128)

/-- A copy is valid (R938). -/
def NvArr.valid (x : NvArr) (slot : Nat) (b : Bool) : Bool :=
  let a := copyAt slot b
  let len := leNat (NvArr.bytes x (a + 6) 2)
  NvArr.word x a = 0x52430632 && (NvArr.byte x (a + 4)).toNat = slot && len ≤ 992 &&
  NvArr.word x (a + 0x18) = (crc32c (NvArr.bytes x a 0x18 ++ NvArr.bytes x (a + 32) len)).toNat &&
  NvArr.word x (a + 0x1C) = 0xFFFFFFFF - NvArr.word x (a + 8)

/-- The current copy of a slot, given which copies hold an uncorrectable word (R938, R942). -/
def NvArr.current (x : NvArr) (slot : Nat) (badA badB : Bool) : Option Bool :=
  let va := NvArr.valid x slot false && !badA
  let vb := NvArr.valid x slot true && !badB
  if va && vb then
    let d := (NvArr.word x (copyAt slot false + 8) + 2 ^ 32 - NvArr.word x (copyAt slot true + 8)) % 2 ^ 32
    some (!(1 ≤ d && d ≤ 2 ^ 31))
  else if va then some false
  else if vb then some true
  else none

/-- GEN of a commit after `g` (R939). Log entry 81. -/
def nextGen (g : Nat) : Nat := if 0xFFFFFFFE ≤ g then 1 else g + 1

/-- Word writes of the array, in order: address and up to four bytes. -/
abbrev NvWrites := List (Nat × List Byte)

/-- Splits bytes into word writes from address `a`. -/
def wordsFrom : Nat → Nat → List Byte → NvWrites
  | 0, _, _ => []
  | _ + 1, _, [] => []
  | n + 1, a, l => (a, l.take 4) :: wordsFrom n (a + 4) (l.drop 4)

def NvArr.apply (x : NvArr) (w : NvWrites) : NvArr := w.foldl (fun (x : NvArr) (p : Nat × List Byte) => NvArr.put x p.1 p.2) x

/-- The word writes of a two-phase commit at `a`: SEAL cleared, header and body, then SEAL (R939, R943). -/
def twoPhase (a sealAt sealVal : Nat) (head body : List Byte) (bodyAt : Nat) : NvWrites × NvWrites :=
  ((a + sealAt, leBytes 4 0) :: (wordsFrom 128 a head ++ wordsFrom 256 (a + bodyAt) body), [(a + sealAt, leBytes 4 sealVal)])

/-- Header bytes 0x00-0x1B of a copy (R937). -/
def copyHeader (slot tag len gen bootno time : Nat) (payload : List Byte) : List Byte :=
  let h := leBytes 4 0x52430632 ++ leBytes 1 slot ++ leBytes 1 tag ++ leBytes 2 len ++ leBytes 4 gen ++ leBytes 4 bootno ++
    leBytes 8 time
  h ++ leBytes 4 (crc32c (h ++ payload)).toNat

/-- The two phases of a COMMIT and the copy it writes (R939). -/
def NvCmd.commit (c : NvCmd) (x : NvArr) (cur : Option Bool) (bootno : Nat) : NvWrites × NvWrites :=
  let target := match cur with | some b => !b | none => false
  let gen := match cur with | some b => nextGen (NvArr.word x (copyAt c.slot b + 8)) | none => 1
  twoPhase (copyAt c.slot target) 0x1C (0xFFFFFFFF - gen) (copyHeader c.slot c.tag c.len gen bootno (sysOf c.start) c.payload)
    c.payload 32

/-- The writes of an ERASE: the copy that is not current first (R940). -/
def eraseWrites (slot : Nat) (cur : Option Bool) : NvWrites :=
  let b := match cur with | some b => b | none => true
  [(copyAt slot (!b) + 0x1C, leBytes 4 0), (copyAt slot b + 0x1C, leBytes 4 0)]

/-! ## The log (R943-R946) -/

def logAt (i : Nat) : Nat := 0x4000 + 384 * i

/-- An entry has a valid SEAL (R944). -/
def NvArr.sealed (x : NvArr) (i : Nat) : Bool :=
  NvArr.word x (logAt i + 0x17C) = 0xFFFFFFFF - NvArr.word x (logAt i + 4)

/-- An entry is valid: MAGIC, CRC and SEAL (R943). -/
def NvArr.entryOk (x : NvArr) (i : Nat) : Bool :=
  NvArr.sealed x i && NvArr.word x (logAt i) = 0x4C470632 &&
  NvArr.word x (logAt i + 0x178) = (crc32c (NvArr.bytes x (logAt i) 0x178)).toNat

/-- The newest entry: its index and LSEQ (R944); `bad` lists entries with an uncorrectable word. -/
def NvArr.newest (x : NvArr) (bad : List Nat) : Option (Nat × Nat) :=
  (List.range 128).foldl (fun (best : Option (Nat × Nat)) (i : Nat) =>
    if bad.contains i || !NvArr.sealed x i then best
    else
      let l := NvArr.word x (logAt i + 4)
      match best with
      | some (_, b) => if b < l then some (i, l) else best
      | none => some (i, l)) none

/-- A word of the snapshot: C{n}_PC holds no defined value unless the pair is halted (R206, R945). -/
def Mach.snapWord (m : Mach) (i : Nat) : Nat × Mach :=
  if i < 2 then ((m.reg (if i = 0 then F.CLK_STAT_reg else F.SYS_RST_CAUSE_reg)).toNat, m)
  else if i < 10 then ((m.reg (F.C_STAT_reg (i - 2))).toNat, m)
  else if i < 18 then
    if m.get (F.C_STAT_STATE (i - 10)) = 3 then ((m.core (Fin.ofNat 8 (i - 10))).pc.toNat, m) else m.fresh 32
  else if i < 24 then ((m.reg (F.H_TPG_STAT_reg (i - 18))).toNat, m)
  else if i < 30 then ((m.reg (F.H_VADC_STAT_reg (i - 24))).toNat, m)
  else if i < 36 then ((m.reg (F.H_ILL_STAT_reg (i - 30))).toNat, m)
  else if i < 42 then ((m.reg (F.H_ILL_FLT_reg (i - 36))).toNat, m)
  else if i = 55 then ((m.reg F.SHR_STATUS_reg).toNat + 2 * m.cond + b2n m.armed, m)
  else
    let l := [F.AUX_STAT_reg, F.AUX_EXCSTAT_reg, F.AUX_XDIFF_reg, F.HAL_AX_STAT_reg 0, F.HAL_AX_STAT_reg 1,
      F.HAL_AX_FLT_reg 0, F.HAL_AX_FLT_reg 1, F.REEF_STAT_reg, F.BC_STAT_reg, F.BC_CHK_reg, F.LN_STAT_reg, F.ST_STAT_reg,
      F.BWL_STAT_reg]
    match l[i - 42]? with
    | some a => ((m.reg a).toNat, m)
    | none => (0, m)

/-- The snapshot's 304 bytes (R945). -/
def Mach.snapshot (m : Mach) : List Byte × Mach :=
  (List.range 76).foldl (fun (x : List Byte × Mach) (i : Nat) =>
    let (w, m) := x.2.snapWord i
    (x.1 ++ leBytes 4 w, m)) ([], m)

/-- `n` bytes the spec gives no value. -/
def Mach.freshBytes (m : Mach) (n : Nat) : List Byte × Mach :=
  (List.range n).foldl (fun (x : List Byte × Mach) _ => let (w, m) := x.2.fresh 8; (x.1 ++ leBytes 1 w, m)) ([], m)

/-- LSEQ after the newest entry's; never 0xFFFFFFFF (R943). Log entry 61. Log entry 81. -/
def nextLseq (l : Nat) : Nat := if 0xFFFFFFFE ≤ l then 0 else l + 1

/-- Bytes 0x000-0x177 of the entry of KIND `kind` begun now, and its LSEQ (R943-R946; log entry 61). -/
def Mach.entryBytes (m : Mach) (kind : Nat) : List Byte × Nat × Mach :=
  let lseq := nextLseq m.nv.logSeq
  let (nsec, m) := if kind = 1 then (m.get F.SHR_REC_NSEC, m) else m.fresh 8
  let fw := m.nv.fwDue.getD (0, 0, 0)
  let (code, m) := if kind = 1 then (m.get F.SHR_REC_PRIMARY, m) else if kind = 2 then (0x0E00 + fw.1, m) else m.fresh 16
  let (core, m) := if kind = 1 then (m.get F.SHR_REC_INFO_CORE, m) else if kind = 2 then (fw.2.1, m) else m.fresh 3
  let (det, m) := if kind = 1 then (m.get F.SHR_DET_LO_T + 2 ^ 32 * m.get F.SHR_DET_HI_T, m)
    else if kind = 2 then (fw.2.2, m) else m.fresh 48
  let (sus, m) := if kind = 1 then (m.get F.SHR_SUS_LO_T + 2 ^ 32 * m.get F.SHR_SUS_HI_T, m)
    else if kind = 2 then (fw.2.2, m) else m.fresh 48
  let (notice, m) := if kind = 1 then (m.get F.SHR_REC_INFO_NOTICE, m) else m.fresh 16
  let sec := if kind = 1 then (List.range 8).flatMap (fun (i : Nat) => leBytes 4 (m.get (F.SHR_SEC_CODES i))) else leBytes 32 0
  let (snap, m) := m.snapshot
  (leBytes 4 0x4C470632 ++ leBytes 4 lseq ++ leBytes 1 kind ++ leBytes 1 nsec ++ leBytes 2 code ++
    leBytes 1 (core + 16 * m.get F.SYS_ID_UNIT) ++ leBytes 3 0 ++ leBytes 8 det ++ leBytes 8 sus ++
    leBytes 4 m.nv.bootNo ++ leBytes 2 (m.get F.SHR_TEMP_TEMP) ++ leBytes 2 notice ++ sec ++ snap, lseq, m)

/-- Index at which the next entry goes: ring order (R944; log entry 61). -/
def Mach.nextLog (m : Mach) : Nat := if m.nv.hasLog then (m.nv.logIdx + 1) % 128 else 0

/-- The word writes of an entry in progress. -/
def NvEntry.writes (e : NvEntry) (i : Nat) : NvWrites × NvWrites :=
  twoPhase (logAt i) 0x17C (0xFFFFFFFF - leNat ((e.bytes.drop 4).take 4)) e.bytes (leBytes 4 (crc32c e.bytes).toNat) 0x178

/-- BUSY follows what is in progress or pending (R947). -/
def Mach.nvBusy (m : Mach) : Mach :=
  m.put F.NV_STAT_BUSY (b2n (m.nv.cmd.isSome || m.nv.entry.isSome || m.nv.recDue || m.nv.ponDue || m.nv.fwDue.isSome))

/-- A pending entry begins as soon as the NV block is free: record, KIND 3, KIND 2 (R946). -/
def Mach.nvKick (m : Mach) : Mach :=
  let free := m.clk.running && !m.pwr.por && m.nv.search.isNone && m.nv.cmd.isNone && m.nv.entry.isNone && !m.nv.resetDue
  let kind := if m.nv.recDue then 1 else if m.nv.ponDue then 3 else if m.nv.fwDue.isSome then 2 else 0
  let m :=
    if free && kind != 0 then
      let (bytes, _, m) := m.entryBytes kind
      { m with nv := { m.nv with entry := some { kind := kind, bytes := bytes, start := m.now }
                                 recDue := m.nv.recDue && kind != 1, ponDue := m.nv.ponDue && kind != 3
                                 fwDue := if kind = 2 then none else m.nv.fwDue } }
    else m
  m.nvBusy

/-- READY, LOGHEAD, LOGSEQ and BOOTNO show what the search found and what was logged since; while a reset is asserted they hold
their reset values (R127, R944, R947; log entry 62). -/
def Mach.nvShow (m : Mach) : Mach :=
  if m.nv.search.isSome || m.inReset then m
  else
    let m := (m.put F.NV_STAT_READY 1).put F.NV_BOOTNO_N m.nv.bootNo
    if m.nv.hasLog then (m.put F.NV_LOGHEAD_IDX m.nv.logIdx).put F.NV_LOGSEQ_LSEQ m.nv.logSeq else m

/-- A warm reset reaches the NV block: its registers take their reset values (R127, R949). Log entry 62. -/
def Mach.nvReset (m : Mach) : Mach :=
  let m := { m with regs := Sparse.clear (fun a => 0x340000 ≤ a && a < 0x350000) m.regs
                    nv := { m.nv with resetDue := false } }
  m.nvShow.nvKick

/-- NV_LOG_ENTRY: the entry in progress is sealed `d` beats after it began (R943, R946). -/
def nvLogEntry (x : NvArr) (m : Mach) (d : Nat) : NvArr × Mach :=
  match m.nv.entry with
  | none => (x, m)
  | some e =>
    if !m.clk.running then (x, m)
    else
      let m := m.runTo (e.start + min d 60000)
      let i := m.nextLog
      let (p1, p2) := e.writes i
      let x := NvArr.apply (NvArr.apply x p1) p2
      let m := { m with nv := { m.nv with entry := none, hasLog := true, logIdx := i, logSeq := leNat ((e.bytes.drop 4).take 4) } }
      let m := m.nvShow
      (x, if m.nv.resetDue then m.nvReset else m.nvKick)

/-- NV_LOG_SEARCH_DONE: within 20 us of the release, READY sets and the KIND 3 entry is queued (R944). -/
def nvSearchDone (x : NvArr) (m : Mach) (d corr : Nat) (bad : List Nat) : Mach :=
  match m.nv.search with
  | none => m
  | some t =>
    if !m.clk.running then m
    else
      let m := m.runTo (t + min d 60000)
      let m := m.countHold F.NV_CNT_CORR corr
      let m := match NvArr.newest x bad with
        | some (i, l) =>
          { m with nv := { m.nv with hasLog := true, logIdx := i, logSeq := l, bootNo := (NvArr.word x (logAt i + 0x20) + 1) % 2 ^ 32 } }
        | none => { m with nv := { m.nv with bootNo := 1 } }
      ({ m with nv := { m.nv with search := none, ponDue := true } }).nvShow.nvKick

/-! ## Commands (R948) -/

/-- A write of NV_CTL: GO = 1 starts CMD on SLOT or is refused; it reads 1 until the command ends (R15, R947, R948). -/
def Mach.nvCtl (m : Mach) (v : Word) : Mach :=
  let m := (m.put F.NV_CTL_CMD (bits v.toNat 7 4)).put F.NV_CTL_SLOT (bits v.toNat 22 16)
  if !v.getLsbD 0 then m
  else if !m.is F.NV_STAT_READY || m.is F.NV_STAT_BUSY then m.put F.NV_STAT_REFUSED 1
  else
    let len := m.get F.NV_LEN_LEN
    let payload := ((List.range 256).flatMap (fun (i : Nat) => leBytes 4 (m.get (F.NV_BUF_W i)))).take len
    let c : NvCmd := { cmd := m.get F.NV_CTL_CMD, slot := m.get F.NV_CTL_SLOT, len := len, tag := m.get F.NV_TAG_TAG,
                       payload := payload, start := m.now }
    ({ m.put F.NV_CTL_GO 1 with nv := { m.nv with cmd := some c } }).nvBusy

/-- A write of NV_BUF is dropped while BUSY reads 1 (R947, R948). -/
def Mach.nvBuf (m : Mach) (a : Nat) (v : Word) : Mach :=
  if m.is F.NV_STAT_BUSY then m.put F.NV_STAT_REFUSED 1 else m.plainWrite a v

/-- Starts a command as one write of NV_CTL does: the rows NV_READ, NV_COMMIT, NV_ERASE and NV_LOGREAD. -/
def Mach.nvGo (m : Mach) (cmd slot : Nat) : Mach :=
  m.nvCtl (BitVec.ofNat 32 (1 + 16 * (cmd % 16) + 65536 * (slot % 128)))

/-- Longest time of a command in beats (R939, R940, R948). -/
def NvCmd.bound (c : NvCmd) (d : Nat) : Nat :=
  if c.cmd = 1 then min d 24000
  else if c.cmd = 2 then min d (24000 + 3000 * ceilDiv (32 + c.len) 32)
  else if c.cmd = 3 then min d 12000
  else d

/-- Puts bytes into NV_BUF from word 0 (R948). -/
def Mach.toBuf (m : Mach) (l : List Byte) : Mach :=
  m.each (List.range (ceilDiv l.length 4)) (fun (i : Nat) m =>
    let b := (l.drop (4 * i)).take 4
    let old := leBytes 4 (m.get (F.NV_BUF_W i))
    m.put (F.NV_BUF_W i) (leNat (b ++ old.drop b.length)))

/-- NV_DONE: the command in progress ends `d` beats after it began (R939-R942, R948, R949). Log entry 85. -/
def nvDone (x : NvArr) (m : Mach) (d : Nat) (e : NvEnd) : NvArr × Mach :=
  match m.nv.cmd with
  | none => (x, m)
  | some c =>
    if !m.clk.running then (x, m)
    else
      let m := m.runTo (c.start + c.bound d)
      let m := m.countHold F.NV_CNT_CORR e.corr
      let m := m.countHold F.NV_CNT_INVALID (b2n e.badA + b2n (e.badB && c.cmd != 4))
      let cur := NvArr.current x c.slot e.badA e.badB
      let res (r : Nat) (m : Mach) : Mach := m.put F.NV_STAT_RESULT r
      let (x, m) :=
        if c.cmd = 4 then
          let ok := NvArr.entryOk x c.slot && !e.badA
          (x, res (if ok then 0 else 4) (m.toBuf (NvArr.bytes x (logAt c.slot) 384)))
        else if c.cmd = 0 || 4 < c.cmd || !recordSlot c.slot || (c.cmd = 2 && 992 < c.len) then (x, res 2 m)
        else if c.cmd = 1 then
          match cur with
          | none => (x, res 1 m)
          | some b =>
            let a := copyAt c.slot b
            let len := leNat (NvArr.bytes x (a + 6) 2)
            let m := (m.toBuf (NvArr.bytes x (a + 32) len)).put F.NV_LEN_LEN len
            let m := (m.put F.NV_TAG_TAG (NvArr.byte x (a + 5)).toNat).put F.NV_GEN_GEN (NvArr.word x (a + 8))
            let m := (m.put F.NV_WHEN_LO_W (NvArr.word x (a + 16))).put F.NV_WHEN_HI_W (NvArr.word x (a + 20))
            (x, res 0 (m.put F.NV_STAT_CUR (b2n b)))
        else if c.cmd = 2 then
          let (p1, p2) := c.commit x cur m.nv.bootNo
          let x := NvArr.apply x p1
          if e.verify then
            (NvArr.apply x p2, res 0 (m.put F.NV_STAT_CUR (b2n (match cur with | some b => !b | none => false))))
          else (x, res 3 (match cur with | some b => m.put F.NV_STAT_CUR (b2n b) | none => m))
        else (NvArr.apply x (eraseWrites c.slot cur), res 0 m)
      let m := { m.put F.NV_CTL_GO 0 with nv := { m.nv with cmd := none } }
      (x, if m.nv.resetDue then m.nvReset else (m.pulse 7 16).nvKick)

/-- Power is lost after `n` of the word writes in progress have been made; the command had found copies A and B to hold an
uncorrectable word or not (R148, R941, R942). -/
def nvPowerLoss (x : NvArr) (m : Mach) (n : Nat) (badA badB : Bool) : NvArr :=
  let w :=
    match m.nv.cmd, m.nv.entry with
    | some c, _ =>
      let cur := NvArr.current x c.slot badA badB
      if !recordSlot c.slot then []
      else if c.cmd = 2 && c.len ≤ 992 then let (a, b) := c.commit x cur m.nv.bootNo; a ++ b
      else if c.cmd = 3 then eraseWrites c.slot cur
      else []
    | none, some e => let (a, b) := e.writes m.nextLog; a ++ b
    | none, none => []
  NvArr.apply x (w.take n)

end Sys2Proof.Machine
end

