-- ==== Sys2Proof/Machine/Safe.lean ====
section
/-!
DEFINITION. Shroud: the fault record, entering and leaving the safe state, the class 2, 3, 4 and scrubbing detectors,
injection and thermal shutdown's trigger (ch. 02 and 23).
-/
namespace Sys2Proof.Machine

/-! ## Keepers and pins (R138) -/

/-- A reset or the safe state begins: the keepers latch MEN and DIR, or the pins go low (R50, R138). Log entry 109. -/
def Mach.keepPins (m : Mach) : Mach :=
  if m.is F.SYS_RST_CFG_KEEP_EN then { m with out := { m.out with keepMen := 3, keepDir := 3 } }
  else { m with out := { m.out with men := 0, dir := 0, keepMen := 0, keepDir := 0, lowMen := 3, lowDir := 3 } }

/-- KEEP_EN clears while a reset or the safe state holds MEN and DIR: they go low (R50, R134, R138). Log entry 109. -/
def Mach.keepDrop (m : Mach) : Mach :=
  if m.is F.SHR_STATUS_SAFE || m.inReset || m.pwr.thermal then
    { m with out := { m.out with men := 0, dir := 0, keepMen := 0, keepDir := 0, lowMen := 3, lowDir := 3 } }
  else m

/-- The level that a write of HAL_AX{a}_CTL.DIR gives DIR{a}: the written level where the write releases a keeper (R138) and
before any motion; else, while the axis moves, the written level for forward motion and its complement for reverse; at rest the
level stays (R587). -/
def Mach.dirLevel (m : Mach) (a : Fin 2) (dir : Bool) : Nat :=
  let x := m.axis a
  if m.out.keepDir.getLsbD a || m.out.lowDir.getLsbD a then b2n dir
  else match x.dirFwd with
  | none => b2n dir
  | some fwd => if x.v = 0 && x.due = [] then b2n (m.out.dir.getLsbD a) else b2n (dir == fwd)

/-- HAL_MEN_DIR_WRITE: a write of HAL_AX{a}_CTL drives MEN and DIR, and releases their keepers, unless a reset or the
safe state holds the pins (R138, R587). -/
def Mach.menDir (m : Mach) (a : Fin 2) (men dir : Bool) : Mach :=
  let m := (m.put (F.HAL_AX_CTL_MEN a) (b2n men)).put (F.HAL_AX_CTL_DIR a) (b2n dir)
  if m.is F.SHR_STATUS_SAFE then m
  else
    let set1 (v : BitVec 2) (x : Nat) : BitVec 2 := BitVec.ofNat 2 (setBits v.toNat a a x)
    let x := m.axis a
    let freed := m.out.keepDir.getLsbD a || m.out.lowDir.getLsbD a
    ({ m with out := { m.out with men := set1 m.out.men (b2n men), dir := set1 m.out.dir (m.dirLevel a dir)
                                  keepMen := set1 m.out.keepMen 0, keepDir := set1 m.out.keepDir 0
                                  lowMen := set1 m.out.lowMen 0, lowDir := set1 m.out.lowDir 0 } }).setAxis a
      { x with dirFwd := if freed then none else x.dirFwd }

/-- A write of HAL_AX{a}_CTL that changes another field writes MEN and DIR as they stand (R138). -/
def Mach.ctlTouch (m : Mach) (a : Fin 2) : Mach := m.menDir a (m.is (F.HAL_AX_CTL_MEN a)) (m.is (F.HAL_AX_CTL_DIR a))

/-! ## The record (R917-R919) -/

def codeClass (code : Nat) : Nat := code / 256

/-- Detection time of a class in beats (R44, R922); `none` where R52 counts lines. -/
def detTime (code : Nat) : Option Nat :=
  match codeClass code with
  | 1 => some 4
  | 2 => some 3000
  | 3 => some 30000
  | 4 => some 300000
  | 5 => some (if code % 128 < 0x20 then 30000000 else 120000000)
  | 7 => some 3000000
  | 8 => some 3000000
  | 10 => some 12000000
  | 11 => some 6000000000
  | 0x0E => some 0
  | _ => none

/-- Start of the line before the one during which beat `t` falls (R52; log entry 60). -/
def lineBefore (t : Nat) (starts : List Nat) : Option Nat :=
  match starts.dropWhile (fun (s : Nat) => t ≤ s) with
  | _ :: b :: _ => some b
  | _ => none

/-- `suspect_from` of a detection now (R52, R919). Log entry 60. -/
def Mach.suspect (m : Mach) (code : Nat) : Nat × Mach :=
  let det := m.sysTime.toNat
  if code % 256 = 0x50 && codeClass code = 5 then (0, m)
  else
    match detTime code with
    | some d => (det - d, m)
    | none =>
      match lineBefore m.now (m.head (Fin.ofNat 6 (bits code 6 4))).tpg.starts with
      | some s => (sysOf s, m)
      | none => m.fresh 48

def Mach.secCode (m : Mach) (i : Nat) : Nat :=
  bits (m.get (F.SHR_SEC_CODES (i / 2))) (16 * (i % 2) + 15) (16 * (i % 2))

/-- Appends a secondary code (R918). -/
def Mach.addSecond (m : Mach) (code : Nat) : Mach :=
  let n := m.get F.SHR_REC_NSEC
  let m := if n < 16 then
      m.put (F.SHR_SEC_CODES (n / 2)) (setBits (m.get (F.SHR_SEC_CODES (n / 2))) (16 * (n % 2) + 15) (16 * (n % 2)) code)
    else m
  m.countHold F.SHR_REC_NSEC 1

def Mach.putSuspect (m : Mach) (s : Nat) : Mach := (m.put F.SHR_SUS_LO_T (s % 2 ^ 32)).put F.SHR_SUS_HI_T (s / 2 ^ 32)
def Mach.getSuspect (m : Mach) : Nat := m.get F.SHR_SUS_LO_T + 2 ^ 32 * m.get F.SHR_SUS_HI_T

def Mach.putPrimary (m : Mach) (code core : Nat) : Mach :=
  ((m.put F.SHR_REC_PRIMARY code).put F.SHR_REC_CLASS (codeClass code)).put F.SHR_REC_INFO_CORE core

/-! ## Entering the safe state (section 4 of ch. 02) -/

/-- A head under the safe state (R50, R53, R357, R423, R442, R926). -/
def Mach.safeHead (m : Mach) (h : Fin 6) : Mach :=
  let m := m.tpgRun h false
  let m := m.catchHead h
  let lines := (m.head h).tpg.lines.map (fun (l : LineCtx) => { l with gone := l.gone || !l.done })
  let m := (m.putTpg h { (m.head h).tpg with held := none, lines := lines }).shdRefAbort h
  let m := m.setIll h { (m.head h).ill with enHeld := false }
  let m := ((m.put (F.H_ILL_CTL_EN h) 0).put (F.H_ILL_CTL_SWAP h) 0).illDark h
  ((m.casAllOff h).setPh h 0).dropCapture h

/-- An axis under the safe state (R634). -/
def Mach.safeAxis (m : Mach) (a : Fin 2) : Mach :=
  let m := ((m.axFault a 6).axFlag a 4).put (F.HAL_AX_CTL_EN a) 0
  m.setAxis a { m.axis a with needPlan := true }

/-- Every open page ends with ABORT and the page machine idles (R582). Log entry 88. -/
def Mach.safePages (m : Mach) : Mach :=
  let m := { m with trg := { m.trg with held := none } }
  let m := m.abortPage
  let m := m.each allHeads (fun h m => m.abortRing h)
  if m.is F.TRG_CTL_EN then m.put F.TRG_STAT_STATE 1 else m

/-- The safe state is entered (R50-R53, R926). -/
def Mach.enterSafe (m : Mach) : Mach :=
  let m := m.put F.SHR_STATUS_SAFE 1
  let m := { m with out := { m.out with faultn := true } }
  if m.inReset || m.pwr.thermal then m
  else
    let m := m.safePages.keepPins
    let m := m.each allHeads (fun h m => m.safeHead h)
    let m := m.each allAxes (fun a m => m.safeAxis a)
    ({ m with out := { m.out with tsw := 0 } }).stImgrun false

/-- Shroud latches a record (R42, R917). -/
def Mach.latchRecord (m : Mach) (code core sus : Nat) : Mach :=
  let m := (m.putPrimary code core).putSuspect sus
  let m := (m.put F.SHR_DET_LO_T (m.sysTime.toNat % 2 ^ 32)).put F.SHR_DET_HI_T (m.sysTime.toNat / 2 ^ 32)
  let m := { m with shr := { m.shr with notice := (m.shr.notice + 1) % 65536, mask := [codeClass code], codes := [code]
                                        latchTick := some (m.now / 4), latchAt := m.now } }
  let m := (m.put F.SHR_REC_INFO_NOTICE m.shr.notice).put F.SHR_REC_INFO_HELD 1
  let m := (m.put F.SHR_STATUS_HELD 1).enterSafe
  let m := if m.inReset || !m.clk.running then m else m.put F.SYS_IRQ_STAT_FAULT 1
  let m := (m.pulse 7 0).notice
  ({ m with nv := { m.nv with recDue := true } }).nvKick

/-- A detection joins the record: as a code of the same tick it may become the primary (R56), later it is secondary
(R57, R918). -/
def Mach.joinRecord (m : Mach) (code core sus : Nat) : Mach :=
  if m.shr.codes.contains code then m
  else
    let m := { m with shr := { m.shr with codes := m.shr.codes ++ [code], mask := m.shr.mask ++ [codeClass code] } }
    if m.clk.running && m.shr.latchTick = some (m.now / 4) then
      let m := m.putSuspect (min m.getSuspect sus)
      let old := m.get F.SHR_REC_PRIMARY
      (if code < old then (m.addSecond old).putPrimary code core else m.addSecond code).noticeFix
    else m.addSecond code

/-- Whether a detection latches a record (R921). Log entry 67. Log entry 82. -/
def Mach.latches (m : Mach) (code : Nat) (inj : Bool) : Bool :=
  let c := codeClass code
  inj || c ≤ 5 || c = 0x0E || m.armed

/-- FAULT_DETECT: Shroud takes a detection made in this beat (R41, R917-R921); `inj` says an injection caused it. -/
def Mach.detectFrom (m : Mach) (code : Nat) (inj : Bool) (core : Nat) : Mach :=
  if m.pwr.por || m.pwr.porExt || !m.latches code inj then m
  else
    let m := if inj then { m with shr := { m.shr with inject := none } } else m
    let (sus, m) := m.suspect code
    let m := if codeClass code = 4 then { m with shr := { m.shr with shutdownWait := some m.now } } else m
    if m.is F.SHR_STATUS_HELD then m.joinRecord code core sus else m.latchRecord code core sus

def Mach.detect (m : Mach) (code : Nat) : Mach := m.detectFrom code false 0

/-- RAISE takes effect; one with SAFE = 0 latches no record, but joins one while the safe state holds (R292-R297, R921, R946).
Log entry 59. -/
def Mach.raiseFault (m : Mach) (core v : Nat) : Mach :=
  let code := v % 256
  if v.testBit 8 then m.detectFrom (0x0E00 + code) false core
  else
    let m := m.countHold F.SHR_FWLOG_RAISES 1
    let m := if m.is F.SHR_STATUS_SAFE && m.is F.SHR_STATUS_HELD then m.joinRecord (0x0E00 + code) core m.sysTime.toNat else m
    if m.nv.fwDue.isSome then m.countHold F.SHR_FWLOG_NOTLOGGED 1
    else ({ m with nv := { m.nv with fwDue := some (code, core, m.sysTime.toNat) } }).nvKick

/-- An uncorrectable word met at byte `a` (R48, R196, R321, R920). Log entry 11. -/
def Mach.eccFault (m : Mach) (a : Nat) : Mach :=
  m.detectFrom (0x0500 + memCode a) (m.shr.inject.any (fun k => k.1 = 2 && eccWord a = dmemBase k.2)) 0

/-! ## Clearing (R54, R922, R927) -/

/-- A class still reports (R922, R927). Log entry 63. -/
def Mach.reports (m : Mach) (c : Nat) : Bool :=
  match c with
  | 1 => m.shr.codes.contains 0x0180
  | 2 => m.get F.CLK_STAT_LOCK = 0 || m.get F.CLK_STAT_REF_OK = 0
  | 3 => m.pwr.outWin != 0
  | 4 => decide (2000 ≤ sext 16 (m.get F.SHR_TEMP_TEMP))
  | 6 => allHeads.any (fun h => m.is (F.H_VADC_STAT_LVLFAIL h) || m.is (F.H_VADC_STAT_DKFAIL h) || m.is (F.H_VADC_STAT_DUPFAIL h))
  | 7 => m.is F.AUX_STAT_XFAIL || m.is F.AUX_STAT_XOLD || m.is F.AUX_STAT_XLATE
  | 8 => m.is F.AUX_EXCSTAT_FAULTS
  | 10 => m.is (F.HAL_AX_FLT_FLAGS 0) || m.is (F.HAL_AX_FLT_FLAGS 1)
  | 11 => m.is F.BC_CHK_CHKFAIL
  | _ => false

/-- The outputs leave the safe state (R138, R537, R927). -/
def Mach.leaveSafe (m : Mach) : Mach :=
  let m := m.put F.SHR_STATUS_SAFE 0
  let m := m.each (List.range 8) (fun k m => m.tswDrive k)
  m.each allHeads (fun h m => m.phIdle h)

/-- An accepted clear empties the record (R927, R933). -/
def Mach.emptyRecord (m : Mach) : Mach :=
  let m := (m.setReg F.SHR_REC_reg 0).setReg F.SHR_REC_INFO_reg 0
  let m := ((m.setReg F.SHR_DET_LO_reg 0).setReg F.SHR_DET_HI_reg 0).setReg F.SHR_SUS_LO_reg 0
  let m := (m.setReg F.SHR_SUS_HI_reg 0).each (List.range 8) (fun i m => m.setReg (F.SHR_SEC_reg i) 0)
  let m := { m with shr := { m.shr with mask := [], codes := [], latchTick := none, injActive := m.shr.inject.isSome },
                    st := { m.st with noticeAt := none, noticeDue := false } }
  let m := m.each allHeads (fun h m => m.setReg (F.H_ILL_FLT_reg h) 0)
  m.put F.SHR_STATUS_HELD 0

/-- An output has not yet reached its state of R50: every one but LCAS does in the beat of the latch, LCAS with the end of ALLOFF
(R54, R926; log entry 63). -/
def Mach.reacting (m : Mach) : Bool := allHeads.any (fun h => (m.head h).ill.cas.any (fun x => decide (m.now < x.start + x.cells * x.tb)))

/-- SHR_CLEAR: a write of SHR_CLEAR (R54, R927).  A clear request while no record is held has no effect and no CLRREF (log
entry 63). -/
def Mach.shrClear (m : Mach) (v : Word) : Mach :=
  if v.toNat % 256 != 0x5C then m
  else if !m.is F.SHR_STATUS_HELD then m
  else if m.reacting || m.shr.mask.any (fun c => m.reports c) then m.put F.SHR_STATUS_CLRREF 1
  else
    let m := m.emptyRecord.leaveSafe
    if m.pwr.stFailed then m else { m with out := { m.out with faultn := false } }

/-! ## Injection (R933) -/

/-- A write of SHR_INJ (R933). -/
def Mach.shrInj (m : Mach) (v : Word) : Bool × Mach :=
  let m := (m.put F.SHR_INJ_TARGET (bits v.toNat 10 8)).put F.SHR_INJ_KIND (bits v.toNat 3 0)
  let k := bits v.toNat 3 0
  let t := bits v.toNat 10 8
  if !v.getLsbD 31 || k = 0 || 4 < k then (false, m)
  else
    let m := { m with shr := { m.shr with injActive := true, inject := some (k, t) } }
    if k = 1 then (true, m)
    else if k = 2 then (false, m.spoil (dmemBase t))
    else if k = 3 && t < 6 then
      let h : Fin 6 := Fin.ofNat 6 t
      (false, m.setVadc h { (m.head h).vadc with inject := some m.now })
    else (false, m)

/-! ## Detectors of classes 3, 4, 5 and 12 -/

/-- Lower and upper end of a supply's window in mV, and what a voltage is to it (R923). -/
def supplyEnds (i : Fin 6) : Nat × Nat :=
  [(705, 795), (1692, 1908), (1620, 1980), (2970, 3630), (846, 954), (1128, 1272)].getD i (0, 0)

/-- Log entry 64. -/
def windowOf (i : Fin 6) (mv : Nat) : Window :=
  if mv < (supplyEnds i).1 then .under else if (supplyEnds i).2 < mv then .above else .inside

/-- SUPPLY_WINDOW_FAULT: a comparator's report for a supply that has held `mv` for 8 us (R923; log entry 64). -/
def Mach.supplyWindow (m : Mach) (i : Fin 6) (mv : Nat) : Mach :=
  let out (on : Bool) (m : Mach) : Mach :=
    { m with pwr := { m.pwr with outWin := BitVec.ofNat 6 (setBits m.pwr.outWin.toNat i i (b2n on)) } }
  match windowOf i mv with
  | .inside => out false m
  | .under => if m.pwr.por then m else (out true m).detect (0x0300 + 16 * i)
  | .above => if m.pwr.por then m else (out true m).detect (0x0301 + 16 * i)

/-- Greatest of the sensors and its number, the lowest on a tie. -/
def hottest : List Int → Nat → Option (Int × Nat)
  | [], _ => none
  | t :: rest, i =>
    match hottest rest (i + 1) with
    | some (u, j) => if t < u then some (u, j) else some (t, i)
    | none => some (t, i)

/-- Consecutive conversions that meet a level. -/
def runOf (met : Bool) (n : Nat) : Nat := if met then n + 1 else 0

/-- The conversions that have met each level of R928 without a break. -/
def ShrSt.hold (x : ShrSt) (t : Int) : ShrSt :=
  { x with hold110 := runOf (decide (1760 ≤ t)) x.hold110, hold125 := runOf (decide (2000 ≤ t)) x.hold125,
           hold105 := runOf (decide (t < 1680)) x.hold105 }

/-- The warning sets and clears (R928). -/
def Mach.warnStep (m : Mach) : Mach :=
  let warn := m.is F.SHR_TEMP_WARN
  if !warn && 4 ≤ m.shr.hold110 then (m.put F.SHR_TEMP_WARN 1).pulse 7 2
  else if warn && 4 ≤ m.shr.hold105 then (m.put F.SHR_TEMP_WARN 0).pulse 7 2
  else m

/-- The hottest sensor's temperature and number reach SHR_TEMP and the levels (R928). -/
def Mach.tempShow (m : Mach) (t : Int) (i : Nat) : Mach :=
  let m := (m.put F.SHR_TEMP_TEMP (wrapInt 16 t)).put F.SHR_TEMP_SENSOR i
  { m with shr := m.shr.hold t }

/-- THERMAL_CONVERSION: the die sensors convert, in 1/16 degree (R644, R928). -/
def Mach.thermal (m : Mach) (temps : List Int) : Mach :=
  match hottest (temps.take 8) 0 with
  | none => m
  | some (t, i) =>
    if m.pwr.por then m
    else
      let m := (m.tempShow t i).warnStep
      if m.shr.hold125 = 4 then m.detect (0x0400 + i) else m

/-- A scrubber reads the word of byte `a`: a single-bit error is corrected and counted, a multi-bit error is class 5
with bit 7 of the detail (R197, R924, R925). -/
def Mach.scrubWord (m : Mach) (a : Nat) (f : Scrub) : Mach :=
  let w := eccWord a
  let m := match f with
    | .clean => m
    | .single => if m.isBad a || m.eccOne.contains w then m else { m with eccOne := w :: m.eccOne }
    | .multi => m.spoil a
  if m.isBad a then
    m.detectFrom (0x0580 + memCode a) (m.shr.inject.any (fun k => k.1 = 2 && w = dmemBase k.2)) 0
  else m.touch a

/-- LINE_STORE_SCRUB of line-store byte `x`, and the length of the pass when the word ends one (R924, R925). -/
def Mach.scrubLine (m : Mach) (x : Nat) (f : Scrub) (pass : Option Nat) : Mach :=
  if m.is F.SHR_CTL_SCRUBLS && x < lineSize then
    let m := m.catchUp.scrubWord (lineBase + x) f
    match pass with
    | some p => m.put F.SHR_SCRUB_LS p
    | none => m
  else m

def ScrubMem.code : ScrubMem → Nat
  | .shd h _ => 0x30 + h.val
  | .replay => 0x40
  | .bc => 0x41

/-- The line-store scrubber reads a word of one of those memories (R924). Log entry 83. -/
def Mach.scrubOther (m : Mach) (k : ScrubMem) (idx : Nat) (f : Scrub) : Mach :=
  if !m.is F.SHR_CTL_SCRUBLS then m
  else
    let known := match k with
      | .shd h w => (m.head h).shd.bad.contains w
      | _ => false
    match f with
    | .multi =>
      let m := match k with
        | .shd h w =>
          let m := m.catchHead h
          if known then m else m.setShd h { (m.head h).shd with bad := w :: (m.head h).shd.bad }
        | _ => m
      m.detect (0x0580 + k.code)
    | .single =>
      if known then m.detect (0x0580 + k.code)
      else ((m.countMod F.SHR_CE_N 1).put F.SHR_CEADDR_MEM k.code).put F.SHR_CEADDR_IDX idx
    | .clean => if known then m.detect (0x0580 + k.code) else m

/-- CORE_SCRUB of the core-memory byte `a` (R197, R925). -/
def Mach.scrubCore (m : Mach) (a : Nat) (f : Scrub) (pass : Option Nat) : Mach :=
  if m.is F.SHR_CTL_SCRUBCM && inCoreMem a then
    let m := m.scrubWord a f
    match pass with
    | some p => m.put F.SHR_SCRUB_CORE p
    | none => m
  else m

end Sys2Proof.Machine
end

