-- ==== Sys2Proof/Machine/Pair.lean ====
section
/-!
DEFINITION. A pair of Felwen cores as the rest of the device sees it: halts, commands, doorbells, the boot hand-off
state and the injected mismatch (06 sections 3 to 8).
-/
namespace Sys2Proof.Machine

def Mach.pairState (m : Mach) (c : Fin 8) : Nat := m.get (F.C_STAT_STATE c)
def Mach.pairCause (m : Mach) (c : Fin 8) : Nat := m.get (F.C_STAT_CAUSE c)
def Mach.setPair (m : Mach) (c : Fin 8) (state cause : Nat) : Mach :=
  (m.put (F.C_STAT_STATE c) state).put (F.C_STAT_CAUSE c) cause
def Mach.phase (m : Mach) : Nat := m.get F.BOOT_STATUS_PHASE

/-- The pair halts with a cause (R234, R235). -/
def Mach.halt (m : Mach) (c : Fin 8) (cause : Nat) : Mach :=
  (m.setPair c 3 cause).setCore c { m.core c with waitUntil := none, lateAt := none }

/-- The pair halts with a cause that is a class 1 fault (R234, R248, R920). -/
def Mach.haltFault (m : Mach) (c : Fin 8) (cause : Nat) : Mach := (m.halt c cause).detect (0x0100 + 16 * c.val + cause)

/-- A halt that records the address involved (R206, R261, R270, R271, R303). -/
def Mach.haltAddr (m : Mach) (c : Fin 8) (cause addr : Nat) : Mach :=
  (m.put (F.C_FAULT_ADDR_ADDR c) addr).haltFault c cause

/-- An uncorrectable word on a fetch, load or atomic: cause 0x8, a class 5 fault of the memory at `a` (R196, R263). -/
def Mach.haltEcc (m : Mach) (c : Fin 8) (addr a : Nat) : Mach :=
  ((m.put (F.C_FAULT_ADDR_ADDR c) addr).halt c 8).eccFault a

/-- LOCKSTEP_MISMATCH: the comparators look in every tick (R74, R193); a running or waiting pair halts with cause 0x4; an injected one is detected in any state
(R193, R234, R933). -/
def Mach.lockstep (m : Mach) (c : Fin 8) (inj : Bool) : Mach :=
  let m := m.atTick
  let live := m.pairState c = 1 || m.pairState c = 2
  let m := if live then m.halt c 4 else m
  if live || inj then m.detectFrom (0x0100 + 16 * c.val + 4) inj 0 else m

/-- CMD_HALT (R236, R240). -/
def Mach.cmdHalt (m : Mach) (c : Fin 8) : Mach :=
  if c = 7 && m.phase != 4 then m
  else if m.pairState c = 1 || m.pairState c = 2 then m.halt c 3 else m

/-- CMD_RESUME (R238, R240). -/
def Mach.cmdResume (m : Mach) (c : Fin 8) : Mach :=
  if c = 7 && m.phase != 4 then m
  else if m.pairState c = 3 && (m.pairCause c = 2 || m.pairCause c = 3) then m.setPair c 1 0 else m

/-- The state of a core at its first instruction, with W1 and the start address given (R183, R239). -/
def CoreSt.start (x : CoreSt) (w1 pc : Word) : CoreSt :=
  { x with w := ((Vector.replicate 16 (0 : Word)).set 1 w1).set 14 0x10004000, pc := pc, sb := [], waitRd := 0,
           waitUntil := none, lateAt := none, starts := x.starts + 1 }

/-- Starts a pair: EVT_EN clears (R183, R214). -/
def Mach.startPair (m : Mach) (c : Fin 8) (w1 pc : Word) : Mach :=
  ((m.setCore c ((m.core c).start w1 pc)).put (F.C_EVT_EN_EN c) 0).setPair c 1 0

/-- CMD_PAIRRST (R239, R240).  A pair held in reset stays held until the next reset of the device (R184; log entry 58); one
that has halted with a cause from 4 to 8 is not restarted while any fault record is held (log entry 58). -/
def Mach.cmdPairrst (m : Mach) (c : Fin 8) : Mach :=
  let s := m.pairState c
  let k := m.pairCause c
  if c = 7 && m.phase != 4 then m
  else if s = 0 then m
  else if s = 3 && 4 ≤ k && k ≤ 8 && m.is F.SHR_STATUS_HELD then m
  else m.startPair c (m.reg (F.C_STAT_reg c)) (m.reg (F.C_START_reg c))

/-- A write of C{n}_CTL (R207). -/
def Mach.coreCmd (m : Mach) (c : Fin 8) (v : Nat) : Mach :=
  if v % 256 = 1 then m.cmdHalt c
  else if v % 256 = 2 then m.cmdResume c
  else if v % 256 = 3 then m.cmdPairrst c
  else m

/-- DOORBELL: `ringer` 0-7 is a core, 8 the control port (R222). -/
def Mach.doorbell (m : Mach) (c : Fin 8) (ringer : Nat) : Mach :=
  let m := m.putBit (F.C_DB_PEND_PEND c) ringer
  if ringer = 8 && c = 7 then m.pulse 7 17 else m.pulse c 31

/-- EVT_EN_WRITE (R217). -/
def Mach.evtEn (m : Mach) (c : Fin 8) (v : Word) : Mach := (m.setReg (F.C_EVT_EN_reg c) v).wake c

/-- A write of SHR_INJ; KIND 1 mismatches in the next tick (R933). -/
def Mach.inject (m : Mach) (v : Word) : Mach :=
  match m.shrInj v with
  | (true, m) => (m.runTo (nextGrid 4 (m.now + 1))).lockstep (Fin.ofNat 8 (bits v.toNat 10 8)) true
  | (false, m) => m

end Sys2Proof.Machine
end

