-- ==== Sys2Proof/Machine/Power.lean ====
section
/-!
DEFINITION. Supplies, resets, thermal shutdown, the start sequence, the clock's loss and return (ch. 03, 04 and 23).
-/
namespace Sys2Proof.Machine

/-! ## What a reset keeps (R127, R930) -/

/-- Registers that a warm reset keeps: clock, reset causes and fault record (R127, R1010). -/
def warmKeeps (a : Nat) : Bool :=
  a = F.CLK_STAT_reg || a = F.CLK_LOSS_TIME_LO_reg || a = F.CLK_LOSS_TIME_HI_reg || a = F.SYS_RST_CFG_reg ||
  a = F.SYS_RST_CAUSE_reg || (F.SHR_REC_reg ≤ a && a < F.SHR_CE_reg)

/-- Registers of the blocks that thermal shutdown leaves alone (R930). -/
def thermalKeeps (a : Nat) : Bool :=
  a < 0x20000 || (0x330000 ≤ a && a < 0x350000)

/-- Outputs in their reset states (R134, R141). -/
def Outs.inReset (o : Outs) : Outs :=
  { o with faultn := true, ph := Vector.replicate 6 0, tsw := 0, refio := false }

/-- The output side of a reset, which needs no clock (R138, R141-R143). -/
def Mach.resetPins (m : Mach) : Mach :=
  let m := m.keepPins
  let m := m.each allHeads (fun h m => if m.clk.running then m.casAllOff h else m.casLow h)
  { m with out := m.out.inReset }

/-- What a head keeps: the frames on LCAS up to the all-off frame (R143). -/
def HeadSt.afterReset (x : HeadSt) : HeadSt := { ill := { cas := x.ill.cas } }
/-- What an axis keeps: the pulse under way (R142). -/
def AxisSt.afterReset (x : AxisSt) : AxisSt := { lastRise := x.lastRise, riseW := x.riseW }

/-- Everything that every reset of a running device returns to its reset state, on the registers `regs` that stay. -/
def Mach.cleared (m : Mach) (regs : Sparse 32) : Mach :=
  { regs := regs, sysTime := m.sysTime, wraps := m.wraps, freeCtr := m.freeCtr, clk := m.clk, pwr := m.pwr, pins := m.pins,
    out := m.out, heads := m.heads.map (fun (x : HeadSt) => x.afterReset), axes := m.axes.map (fun (x : AxisSt) => x.afterReset),
    shr := m.shr, nv := m.nv, port := m.port, boot := { blow := m.boot.blow }, ln := { ref := m.ln.ref, pllLock := m.ln.ref } }

/-- The fuse block still shows the bit being blown (R173). -/
def Mach.showBlow (m : Mach) : Mach := if m.boot.blow.isSome then m.put F.BOOT_FUSE_PGM_BUSY 1 else m

/-- The NV block takes a warm reset when it is free, or when the write in progress ends (R130, R949). -/
def Mach.nvWarm (m : Mach) : Mach :=
  if m.nv.cmd.isSome || m.nv.entry.isSome then { m with nv := { m.nv with resetDue := true } } else m.nvReset

/-- The digital side of a warm reset (R127, R131, R132). -/
def Mach.digitalReset (m : Mach) : Mach :=
  let held := m.get F.SHR_STATUS_HELD
  let safe := m.get F.SHR_STATUS_SAFE
  let nvReg (a : Nat) : Bool := 0x340000 ≤ a && a < 0x350000
  let m := m.cleared (m.regs.filter (fun (c : Nat × BitVec 32) => warmKeeps c.1 || nvReg c.1))
  let m := (m.put F.SHR_STATUS_HELD held).put F.SHR_STATUS_SAFE safe
  let m := { m with shr := { m.shr with inject := none, injActive := m.shr.injActive && held = 1 },
                    port := { sel := m.port.sel, deaf := m.port.sel },
                    pwr := { m.pwr with digPend := false, selfTest := none } }
  m.showBlow.nvWarm

/-- Thermal shutdown resets the other blocks (R930). -/
def Mach.thermalReset (m : Mach) : Mach :=
  let m := m.cleared (m.regs.filter (fun (c : Nat × BitVec 32) => thermalKeeps c.1))
  m.showBlow

/-! ## The start after a reset (R115, R149) -/

/-- The first tick after internal reset deasserts: the self-test and the boot ROM start; a held record, and a clock loss that the
reset has hidden, set their interrupt bits (R115, R149, R180, R1011). Log entry 69. -/
def Mach.startUp (m : Mach) : Mach :=
  if !m.clk.running then { m with pwr := { m.pwr with digPend := true } }
  else
    let m := m.atTick
    let late := m.pwr.lostDue
    let m := { m with pwr := { m.pwr with selfTest := some (m.now + 90000), lostDue := false },
                      boot := { m.boot with began := m.now, zeroDue := some (m.now + 16388), vSince := some m.now, aSince := some m.now } }
    let m := m.put F.SHR_STATUS_SELFTEST 0
    let m := (m.put F.BOOT_ANA_VREF_EN 1).put F.BOOT_ANA_AREF_EN 1
    let m := m.nvShow.setPair 7 1 0
    let m := if late then m.put F.SYS_IRQ_STAT_CLKLOST 1 else m
    if m.is F.SHR_STATUS_HELD then m.put F.SYS_IRQ_STAT_FAULT 1 else m

/-- Internal reset of a warm reset deasserts; thermal shutdown holds the blocks all the same (R930, R931). -/
def Mach.leaveReset (m : Mach) : Mach := if m.inReset || m.pwr.thermal then m else m.startUp

/-- Internal reset of a warm reset asserts (R131-R133, R141). -/
def Mach.warmAssert (m : Mach) : Mach :=
  let m := m.resetPins
  if m.clk.running then m.digitalReset
  else { m with pwr := { m.pwr with digPend := true }, port := { sel := m.port.sel, deaf := m.port.sel } }

/-! ## Power-on reset (R112, R117, R139, R146) -/

/-- POWER_ON_RESET_ASSERT on the machine: supply `i` has fallen below its falling threshold. -/
def Mach.powerOff (m : Mach) (i : Fin 6) : Mach :=
  { freeCtr := m.freeCtr,
    clk := { running := false, lockedOnce := false, refChosen := false },
    pwr := { good := BitVec.ofNat 6 (setBits m.pwr.good.toNat i i 0), outWin := m.pwr.outWin, por := true, resetn := m.pwr.resetn,
             selfTest := none, io33 := m.pwr.io33 },
    pins := m.pins, out := { bwlCk := false }, ln := { ref := m.ln.ref, pllLock := false },
    port := { sel := m.port.sel, deaf := m.port.sel }, nv := { search := none } }

/-- SUPPLY_GOOD (R111, R113): when it is the last of the six, the 100 us of R112 run from here. -/
def Mach.supplyGood (m : Mach) (i : Fin 6) : Mach :=
  let was := m.pwr.good
  let good : BitVec 6 := BitVec.ofNat 6 (setBits was.toNat i i 1)
  if was != 0x3F && good = 0x3F then
    { m with pwr := { m.pwr with good := good, goodAt := m.now, goodPre := !m.clk.lockedOnce } }
  else { m with pwr := { m.pwr with good := good } }

/-- VDD and VDDA are good (R113). -/
def Mach.coreGood (m : Mach) : Bool := m.pwr.good.getLsbD 0 && m.pwr.good.getLsbD 1

/-- REFSRC_SELECT: `refclk` says REFCLKP/N toggled within the window (R67, R68). -/
def Mach.refSelect (m : Mach) (refclk : Bool) : Mach :=
  if m.pwr.por && m.coreGood && !m.clk.refChosen then
    let m := { m with clk := { m.clk with refChosen := true } }
    (m.put F.CLK_STAT_REFSRC (b2n !refclk)).put F.CLK_STAT_REF_OK (b2n refclk)
  else m

/-- LOCK_FIRST (R71, R73, R78, R888). -/
def Mach.lockFirst (m : Mach) : Mach :=
  if m.pwr.por && m.coreGood && m.clk.refChosen && !m.clk.lockedOnce then
    { m.put F.CLK_STAT_LOCK 1 with sysTime := 0, wraps := 0, clk := { m.clk with running := true, lockedOnce := true },
                                    out := { m.out with bwlCk := true } }
  else m

/-- First beat at which all six supplies have been good for 100 us.  Where they were good before LOCK first set, no beat counts
what had passed by then, and the beat at which the release is commanded says it (R112; log entry 4). -/
def Mach.goodLong (m : Mach) : Nat := m.pwr.goodAt + (if m.pwr.goodPre then 0 else 300000)

/-- POWER_ON_RESET_RELEASE (R112, R114, R115, R944). -/
def Mach.porRelease (m : Mach) : Mach :=
  if m.pwr.por && m.pwr.good = 0x3F && m.clk.lockedOnce && m.clk.running then
    let m := m.runTo m.goodLong
    let m := { m with pwr := { m.pwr with por := false, porExt := !m.pwr.resetn }, nv := { search := some m.now } }
    m.leaveReset
  else m

/-! ## Warm resets (R118-R126) -/

/-- WARM_RESET_PIN: RESETN reads asserted (R114, R118, R120, R123, R931). -/
def Mach.resetnFall (m : Mach) : Mach :=
  let m := { m with pwr := { m.pwr with resetn := false } }
  if m.pwr.por || m.pwr.porExt || m.pwr.thermal || m.pwr.pinRst then m
  else
    let first := !m.inReset
    let m := { m.put F.SYS_RST_CAUSE_PIN 1 with pwr := { m.pwr with pinRst := true } }
    if first then m.warmAssert else m

/-- The warm reset that ends thermal shutdown (R931). -/
def Mach.endThermal (m : Mach) : Mach :=
  if m.is F.SHR_TEMP_WARN then m
  else
    let m := (m.put F.SYS_RST_CAUSE_PIN 1).warmAssert
    let m := { m with pwr := { m.pwr with thermal := false } }
    m.leaveReset

/-- RESETN_RELEASE: RESETN reads deasserted (R114, R120, R123, R931). -/
def Mach.resetnRise (m : Mach) : Mach :=
  if m.pwr.resetn then m
  else
    let m := { m with pwr := { m.pwr with resetn := true } }
    if m.pwr.por then m
    else
      let held := m.pwr.porExt || m.pwr.pinRst
      let m := { m with pwr := { m.pwr with porExt := false, pinRst := false } }
      if m.pwr.thermal then m.endThermal
      else if held then m.leaveReset else m

/-- SYS_RST_WARM: 0xA5 written to SYS_RST.WARM (R122, R124). -/
def Mach.softReset (m : Mach) (v : Nat) : Mach :=
  if v % 256 = 0xA5 && !m.inReset then
    let m := m.runTo (nextGrid 4 (m.now + 1))
    let m := { m.put F.SYS_RST_CAUSE_SOFT 1 with pwr := { m.pwr with softEnd := some (m.now + 256) } }
    m.warmAssert
  else m

/-- WARM_RESET_END: the 64 ticks have run out (R122, R123). -/
def Mach.softEnds (m : Mach) : Mach :=
  match m.pwr.softEnd with
  | none => m
  | some t =>
    if m.clk.running then
      let m := m.runTo t
      ({ m with pwr := { m.pwr with softEnd := none } }).leaveReset
    else m

/-! ## The self-test (R115, R116, R932) -/

/-- SELFTEST_DONE. -/
def Mach.selfTestDone (m : Mach) (pass : Bool) : Mach :=
  match m.pwr.selfTest with
  | none => m
  | some t =>
    if !m.clk.running || m.inReset then m
    else
      let m := m.runTo t
      let m := { m with pwr := { m.pwr with selfTest := none, stFailed := m.pwr.stFailed || !pass } }
      let m := m.put F.SHR_STATUS_SELFTEST (if pass then 1 else 2)
      if !pass then m.detect 0x0180
      else if m.is F.SHR_STATUS_HELD then m
      else { m with out := { m.out with faultn := false } }

/-! ## Thermal shutdown (R929, R930) -/

/-- The NV block still has work that thermal shutdown waits for: the record's entry, or what was in progress at the detection in
beat `t` (R929). -/
def Mach.nvHolds (m : Mach) (t : Nat) : Bool :=
  m.nv.recDue || m.nv.cmd.any (fun c => decide (c.start ≤ t)) || m.nv.entry.any (fun e => e.kind = 1 || decide (e.start ≤ t))

/-- THERMAL_SHUTDOWN: at 12 us from the detection, once the NV block has no work left that it waits for (R929). -/
def Mach.shutdown (m : Mach) : Mach :=
  match m.shr.shutdownWait with
  | none => m
  | some t =>
    if m.nvHolds t || m.pwr.por || m.pwr.porExt then m
    else
      let m := (m.runTo (t + 36000)).resetPins
      let m := { m with pwr := { m.pwr with thermal := true }, shr := { m.shr with shutdownWait := none } }
      m.thermalReset

/-! ## Clock loss (R98-R101, R1009) -/

/-- The die's clock stops: every buffered word and every read not yet sent is lost to the stop (R101, R861, R870). -/
def Mach.portStop (m : Mach) : Mach :=
  let p := m.port
  let rd := p.rd.map (fun (r : PortRead) =>
    if r.edge.isSome || r.got.isSome then { r with edge := none, got := some (0xC3, 0, 0) } else r)
  let m := { m with port := { p with wbuf := [], rd := rd, orphans := [] } }
  if p.wbuf != [] then m.put F.SYS_CP_STAT_WDROP 1 else m

/-- The clock stops: the samples of a line in capture are not checked (R398). -/
def Mach.captureLost (m : Mach) (h : Fin 6) : Mach :=
  let m := m.catchHead h
  let t := (m.head h).tpg
  m.setTpg h { t with lines := t.lines.map (fun (l : LineCtx) => { l with gone := l.gone || !l.done }) }

/-- A class 2 report (R98, R99): the record, then the gate. -/
def Mach.clockLoss (m : Mach) (detail : Nat) : Mach :=
  let m := if m.clk.running then
      (m.each allHeads (fun h m => (m.captureLost h).shdRefLost h)).each allAxes (fun a m => m.axisFreeze a)
    else m
  let m := m.detect (0x0200 + detail)
  if m.clk.running then
    let t := m.sysTime.toNat
    let m := (m.put F.CLK_LOSS_TIME_LO_TIME (t % 2 ^ 32)).put F.CLK_LOSS_TIME_HI_TIME (t / 2 ^ 32)
    ({ m with clk := { m.clk with running := false } }).portStop
  else m

/-- The clock block runs: the PLL has locked once since power-on reset. -/
def Mach.monitored (m : Mach) : Bool := m.clk.lockedOnce && m.coreGood

/-- MONITOR_WINDOW_END: a window has counted `n` (R98). -/
def Mach.windowEnd (m : Mach) (n : Nat) : Mach :=
  if !m.monitored then m
  else if n < 16 then m.clockLoss 1
  else if 48 < n then m.clockLoss 2
  else m

/-- PLL_LOCK_LOSS (R71, R98). -/
def Mach.lockLoss (m : Mach) : Mach :=
  if m.monitored && m.is F.CLK_STAT_LOCK then (m.put F.CLK_STAT_LOCK 0).clockLoss 3 else m

/-- REF_OK_LOSS (R98, R1009): the monitor watches the chosen reference from its choice on. -/
def Mach.refOkLoss (m : Mach) : Mach :=
  if m.coreGood && m.clk.refChosen && m.is F.CLK_STAT_REF_OK then (m.put F.CLK_STAT_REF_OK 0).clockLoss 4 else m

/-- REFERENCE_RETURN (R98). -/
def Mach.refReturn (m : Mach) : Mach := if m.clk.refChosen then m.put F.CLK_STAT_REF_OK 1 else m

/-! ## Relock (R79, R102, R103) -/

/-- A change of PHASE; READY, RUNNING and FAILED raise BOOT (R192). -/
def Mach.setPhase (m : Mach) (p : Nat) : Mach :=
  let m := m.put F.BOOT_STATUS_PHASE p
  if p = 1 || p = 4 || p = 7 then (m.put F.SYS_IRQ_STAT_BOOT 1).pulse 7 3 else m

/-- A RESTART acts: the load is abandoned and PHASE reads INIT from the next tick; lane 0 stays as it is (R188). -/
def Mach.restartGo (m : Mach) : Mach :=
  let m := m.runTo (nextGrid 4 (m.now + 1))
  let m := (m.setPhase 0).put F.BOOT_CTL_RESTART 1
  let m := ((m.put F.BOOT_STATUS_ERR 0).put F.BOOT_STATUS_PATH 0).put F.BOOT_STATUS_CRCOK 0
  let m := ((m.put F.BOOT_STATUS_SIGOK 0).put F.BOOT_STATUS_KEYCHK 0).put F.BOOT_COUNT_COUNT 0
  { m with boot := { began := m.now, restart := true, zeroDue := some (m.now + 16384), vSince := m.boot.vSince, aSince := m.boot.aSince, blow := m.boot.blow,
                     laneFrom := m.boot.laneFrom, laneFail := m.boot.laneFail, laneUp := m.boot.laneUp } }

/-- The boot fails with an error (R187, R192); a RESTART held meanwhile then acts (R188). -/
def Mach.bootFail (m : Mach) (err : Nat) : Mach :=
  let held := m.boot.held
  let m := ((m.setPhase 7).put F.BOOT_STATUS_ERR err).put F.BOOT_CTL_RESTART 0
  let b : BootSt :=
    { vSince := m.boot.vSince, aSince := m.boot.aSince, blow := m.boot.blow, arm := m.boot.arm,
      laneFrom := m.boot.laneFrom, laneFail := m.boot.laneFail, laneUp := m.boot.laneUp, zeroDue := none }
  let m := { m with boot := b }
  if held then m.restartGo else m

/-- Actions in flight that the clock's stop keeps, moved by `d` to the count that resumes (R103; log entry 70). -/
def Mach.shiftRunning (m : Mach) (d : Int) : Mach :=
  let b := m.boot
  { m with cores := m.cores.map (fun (x : CoreSt) => x.shift d), heads := m.heads.map (fun (x : HeadSt) => x.shift d),
           pwr := { m.pwr with softEnd := movedO d m.pwr.softEnd, selfTest := movedO d m.pwr.selfTest },
           boot := { b with began := moved d b.began, zeroDue := movedO d b.zeroDue, lastWord := moved d b.lastWord,
                            checkAt := moved d b.checkAt, vSince := movedO d b.vSince, aSince := movedO d b.aSince,
                            arm := movedO d b.arm, blow := b.blow.map (fun (w : Nat × Nat) => (w.1, moved d w.2)),
                            laneFrom := movedO d b.laneFrom, laneFail := movedO d b.laneFail },
           nv := { m.nv with cmd := m.nv.cmd.map (fun (c : NvCmd) => { c with start := moved d c.start }),
                             entry := m.nv.entry.map (fun (e : NvEntry) => { e with start := moved d e.start }),
                             search := movedO d m.nv.search } }

/-- What a relock does to the converters, runs and lanes (R389, R423, R498, R521, R801). -/
def Mach.relockBlocks (m : Mach) (last t : Nat) : Mach :=
  let m := m.each allHeads (fun h m => ((m.put (F.H_VADC_STAT_CALSTALE h) 1).vadcAbandon h 6).shdRefBack h)
  let m := (m.auxCalStop).auxRelock last t
  if m.ln.evDue then ({ m with ln := { m.ln with evDue := false } }).pulse 7 11 else m

/-- RELOCK: LOCK sets after a clock loss. -/
def Mach.relock (m : Mach) : Mach :=
  if m.clk.running || !m.monitored || !m.is F.CLK_STAT_REF_OK then m
  else
    let last := m.now
    let t := (last / 64 + 1) * 64
    let m := m.put F.CLK_STAT_LOCK 1
    -- the first tick that runs again takes the place of the tick after the last one that ran (R103)
    let m := (m.setNow t).shiftRunning ((t : Int) - (last / 4 * 4 + 4))
    let m := { m with clk := { m.clk with running := true } }
    let m := (m.countHold F.CLK_STAT_RELOCK_CNT 1).put F.CLK_STAT_LOST 1
    if m.pwr.digPend then
      let m := { m with pwr := { m.pwr with digPend := false, lostDue := true } }
      let m := if m.pwr.por || m.pwr.porExt then m else m.digitalReset
      m.leaveReset
    else if m.inReset then { m with pwr := { m.pwr with lostDue := true } }
    else
      let m := m.put F.SYS_IRQ_STAT_CLKLOST 1
      let m := if m.is F.SHR_STATUS_HELD && m.shr.latchAt = last then m.put F.SYS_IRQ_STAT_FAULT 1 else m
      if m.pwr.thermal then m.nvKick
      else
        let m := (m.pulse 7 1).relockBlocks last t
        let m := if m.phase != 4 && m.phase != 7 then m.bootFail 0x0A else m
        let m := if m.bwlFollower && m.get F.BWL_STAT_STATE = 4 then m.followerLost else m
        (m.each allCores (fun c m => m.wake c)).nvKick

/-- SYS_TIME_WRAP (R83). -/
def Mach.timeWrap (m : Mach) : Mach := m.runTo ((m.now / 2 ^ 48 + 1) * 2 ^ 48)

/-- SYS_TIME_LO_READ: the copy that a read of SYS_TIME_LO makes (R82). -/
def Mach.timeLoRead (m : Mach) : Mach :=
  (m.put F.SYS_TIME_HI_TIME (m.sysTime.toNat / 2 ^ 32)).put F.SYS_TIME_HI_WRAPS m.wraps.toNat

/-- A write of CLK_GATE: each bit that changes takes its gate's effect (R92). -/
def Mach.clkGate (m : Mach) (v : Word) : Mach :=
  let old := m.get F.CLK_GATE_HEAD_EN
  let m := m.each allHeads (fun h m =>
    if v.toNat.testBit h && !old.testBit h then m.headUngate h
    else if !v.toNat.testBit h && old.testBit h then m.headGate h else m)
  let m := if v.getLsbD 6 = m.auxEn then m else m.auxGate (v.getLsbD 6)
  m.bcGate (v.getLsbD 7)

end Sys2Proof.Machine
end

