-- ==== Sys2Proof/Machine/Boot.lean ====
section
/-!
DEFINITION. The boot ROM: the image and its checks, both load paths, the calibrations, the hand-off and the fuses
(ch. 05).
-/
namespace Sys2Proof.Machine

/-- The fuse bits (05 section 5.1). Log entry 57. -/
abbrev Fuses := BitVec 259
def Fuses.hashSet (f : Fuses) : Bool := f.getLsbD 256
def Fuses.signReq (f : Fuses) : Bool := f.getLsbD 257
def Fuses.laneDis (f : Fuses) : Bool := f.getLsbD 258
/-- Byte i of KEYHASH. -/
def Fuses.hashByte (f : Fuses) (i : Nat) : Byte := f.extractLsb' (8 * i) 8
/-- BOOT_FUSE_CFG and BOOT_KEYHASH{j} as they read (05 section 8.1). -/
def Fuses.cfg (f : Fuses) : Nat := b2n f.hashSet + 2 * b2n f.signReq + 4 * b2n f.laneDis
def Fuses.hashWord (f : Fuses) (j : Nat) : Nat := (f.extractLsb' (32 * j) 32).toNat

/-! ## The image (R150-R157) -/

/-- Word `i` of an image kept newest word first. -/
def imgWord (img : List (BitVec 32)) (i : Nat) : Nat := (img.getD (img.length - 1 - i) 0).toNat

/-- The first `n` bytes of the image. -/
def imgBytes (img : List (BitVec 32)) (n : Nat) : List Byte :=
  (img.reverse.take (n / 4)).flatMap (fun (w : BitVec 32) => leBytes 4 w.toNat)

def imgLen (img : List (BitVec 32)) : Nat := imgWord img 2
def imgSigned (img : List (BitVec 32)) : Bool := (imgWord img 1).testBit 16
def imgNoCal (img : List (BitVec 32)) : Bool := (imgWord img 1).testBit 17
def imgSects (img : List (BitVec 32)) : Nat := imgWord img 3 % 65536
def imgEntry (img : List (BitVec 32)) (c : Nat) : Nat := imgWord img (4 + c)
/-- First byte after the section table, and first byte of the trailer (R153, R155, R156). -/
def imgTableEnd (img : List (BitVec 32)) : Nat := 0x40 + 16 * imgSects img
def imgTrailer (img : List (BitVec 32)) : Nat := imgLen img - (if imgSigned img then 132 else 4)

/-- A section: DEST, OFFSET, LENGTH and the reserved word. -/
structure Section where
  dest : Nat
  ofs : Nat
  len : Nat
  res : Nat
  deriving DecidableEq, Repr

def imgSection (img : List (BitVec 32)) (i : Nat) : Section :=
  let w (k : Nat) : Nat := imgWord img (16 + 4 * i + k)
  { dest := w 0, ofs := w 1, len := w 2, res := w 3 }
def imgSections (img : List (BitVec 32)) : List Section := (List.range (imgSects img)).map (fun (i : Nat) => imgSection img i)

/-- A destination lies wholly inside one IMEM, one DMEM or the mailbox (R153 condition 1). Log entry 73. -/
def destOk (d n : Nat) : Bool :=
  (mbxBase ≤ d && d + n ≤ mbxBase + 0x4000) ||
  (List.range 8).any (fun (c : Nat) =>
    (imemBase c ≤ d && d + n ≤ imemBase c + 0x8000) || (dmemBase c ≤ d && d + n ≤ dmemBase c + 0x4000))

def apart (a n b k : Nat) : Bool := a + n ≤ b || b + k ≤ a

/-- Sections whose payloads and destinations do not overlap (R153 conditions 3 and 4). Log entry 73. -/
def sectionsApart : List Section → Bool
  | [] => true
  | s :: t => t.all (fun (u : Section) => apart s.ofs s.len u.ofs u.len && apart s.dest s.len u.dest u.len) && sectionsApart t

/-- The rest of R153, with the alignments of R152 (log entry 73). -/
def tableOk (img : List (BitVec 32)) : Bool :=
  let l := imgSections img
  l.all (fun (s : Section) =>
    s.dest % 4 = 0 && s.ofs % 4 = 0 && s.len % 4 = 0 && s.len != 0 && s.res = 0 &&
    destOk s.dest s.len && imgTableEnd img ≤ s.ofs && s.ofs + s.len ≤ imgTrailer img) && sectionsApart l

/-- The first check that fails when byte 0x3F has arrived, 0 when none does (R151, R154, R168). -/
def headerErr (f : Fuses) (img : List (BitVec 32)) : Nat :=
  let w1 := imgWord img 1
  let len := imgLen img
  let entries := (List.range 8).map (fun (c : Nat) => imgEntry img c)
  if w1 % 65536 != 1 || 4 ≤ w1 / 65536 || imgWord img 3 / 65536 != 0 || imgWord img 13 != 0 || imgWord img 14 != 0 ||
     imgWord img 15 != 0 then 0x02
  else if len % 4 != 0 || len < 88 || 458752 < len then 0x03
  else if !imgSigned img && f.signReq then 0x06
  else if imgEntry img 7 = 0xFFFFFFFF || entries.any (fun (e : Nat) => e != 0xFFFFFFFF && (e % 4 != 0 || 0x8000 ≤ e)) then 0x0D
  else if imgSects img = 0 || 64 < imgSects img || imgTrailer img < imgTableEnd img then 0x04
  else 0

/-! ## Loading (R158-R169) -/

/-- CHECKING begins (R170, R177). -/
def Mach.toChecking (m : Mach) (f : Fuses) : Mach :=
  let img := m.boot.img
  let m := (m.put F.BOOT_STATUS_CRCOK 1).setPhase 3
  let m := { m with boot := { m.boot with checkAt := m.now, bistDone := false, sigDone := !imgSigned img,
                                          calBegun := false, calHeads := [], calAux := false,
                                          coreBad := m.eccBad.any (fun (a : Nat) => inCoreMem a) } }
  if imgSigned img && f.hashSet then
    let key := (imgBytes img (imgLen img - 68)).drop (imgLen img - 132)
    if sha256 key = (List.range 32).map (fun (i : Nat) => f.hashByte i) then m.put F.BOOT_STATUS_KEYCHK 1 else m.bootFail 7
  else m

/-- The payload word at image byte `o` goes to its destination (R167). -/
def Mach.placeWord (m : Mach) (o : Nat) (v : Word) : Mach :=
  let img := m.boot.img
  if o < imgTableEnd img then m
  else match (imgSections img).find? (fun (s : Section) => s.ofs ≤ o && o < s.ofs + s.len) with
    | some s => m.putBytes (s.dest + (o - s.ofs)) (leBytes 4 v.toNat)
    | none => m

/-- The loader takes a word of the path that holds the boot (R161, R167, R168). -/
def Mach.loadWord (m : Mach) (f : Fuses) (v : Word) : Mach :=
  let img := v :: m.boot.img
  let n := 4 * img.length
  let m := { m with boot := { m.boot with img := img, lastWord := m.now } }
  let m := m.put F.BOOT_COUNT_COUNT n
  if n = 4 then (if v = 0xF1E1A632 then m else m.bootFail 1)
  else if n < 0x40 then m
  else if n = 0x40 then
    let e := headerErr f img
    if e != 0 then m.bootFail e else m.put F.BOOT_IMG_VER_VER (imgWord img 12)
  else if n = imgTableEnd img && !tableOk img then m.bootFail 4
  else
    let m := m.placeWord (n - 4) v
    if n = imgLen img then
      if (crc32c (imgBytes img (n - 4))).toNat = v.toNat then m.toChecking f else m.bootFail 5
    else m

/-- A word offered by a path, 0 the control port and 1 lane 0 (R158-R162, R169, R185, R187). -/
def Mach.bootWord (m : Mach) (f : Fuses) (path : Nat) (v : Word) : Mach :=
  let ph := m.phase
  let own := m.get F.BOOT_STATUS_PATH = path
  if ph = 1 && path = 1 && f.laneDis then m.put F.BOOT_STATUS_REFUSED 1
  else if ph = 1 then
    let m := (m.setPhase 2).put F.BOOT_STATUS_PATH path
    ({ m with boot := { m.boot with claimed := m.now / 4, img := [] } }).loadWord f v
  else if ph = 2 && own then m.loadWord f v
  else if ph = 2 && path = 0 && m.boot.img.length = 1 && m.boot.claimed = m.now / 4 then
    -- both paths complete their first word in one tick: the control port claims (R159)
    let m := (m.put F.BOOT_STATUS_PATH 0).put F.BOOT_STATUS_REFUSED 1
    ({ m with boot := { m.boot with img := [] } }).loadWord f v
  else if (ph = 3 || ph = 4) && own then m.put F.BOOT_STATUS_OVERRUN 1
  else m.put F.BOOT_STATUS_REFUSED 1

/-! ## Steps of the boot (R149, R163-R166, R177-R182) -/

/-- C7 runs the boot ROM: a pair that has halted takes no further step of the boot (R149, R235, R240; log entry 84). -/
def Mach.ifRom (m : Mach) (f : Mach → Mach) : Mach := if m.live && m.pairState 7 = 1 then f m else m

/-- BOOT_READY: step 3 ends `d` beats after the pass began, which is never before step 2 ends (R149, R188). -/
def Mach.bootReady (m : Mach) (f : Fuses) (d : Nat) : Mach :=
  if m.live && m.phase = 0 then
    let m := (m.runTo (m.boot.began + max (if m.boot.restart then 16384 else 16388) (min d 60000))).bootZero
    ({ m with boot := { m.boot with restart := false, laneArmed := !f.laneDis } }.put F.BOOT_CTL_RESTART 0).setPhase 1
  else m

/-- BOOT_LOAD_TIMEOUT (R163). -/
def Mach.loadTimeout (m : Mach) : Mach :=
  if m.live && m.phase = 2 then (m.runTo (m.boot.lastWord + 300000000)).bootFail 9 else m

/-- LANE_BOOT_DETECT: the boot ROM trains lane 0 at L0 (R164, R165; log entry 74). -/
def Mach.laneDetect (m : Mach) : Mach :=
  if m.live && m.phase = 1 && m.boot.laneArmed && m.boot.laneFrom.isNone then
    let m := { m with boot := { m.boot with laneFrom := some m.now, laneFail := none, laneUp := false } }
    let m := ((m.put F.LN_CTL_LANEMASK 1).put F.LN_CTL_MAXRATE 0).put F.LN_CTL_INIT 1
    let m := (m.lnEn true).attemptGo
    m.put F.ST_CTL_EN 1
  else m

/-- LANE_BOOT_TIMEOUT: the first training has not completed in its 100 ms (R166; log entry 75). -/
def Mach.laneTimeout (m : Mach) : Mach :=
  match m.boot.laneFrom with
  | none => m
  | some t =>
    if m.live && m.phase != 4 && !m.boot.laneUp then
      let m := (m.runTo (t + 300000000)).lnEn false
      let m := { m with boot := { m.boot with laneArmed := false, laneFrom := none, laneFail := some m.now } }
      if m.phase = 1 then m.put F.BOOT_STATUS_ERR 0x0E else m
    else m

/-- LANE_BOOT_REARM (R158, R166). -/
def Mach.laneRearm (m : Mach) (f : Fuses) : Mach :=
  match m.boot.laneFail with
  | none => m
  | some t =>
    if m.live && m.phase = 1 then
      let m := m.runTo (t + 30000000)
      { m with boot := { m.boot with laneArmed := !f.laneDis, laneFail := none } }
    else m

/-- A calibration of the boot has ended, passed or not (R179). Log entry 65. -/
def Mach.bootPoll (m : Mach) : Mach :=
  if m.phase != 3 || !m.boot.calBegun then m
  else
    let st (h : Fin 6) : Nat := m.get (F.H_VADC_STAT_CALST h)
    let aux := m.get F.AUX_STAT_CALST
    if m.boot.calHeads.any (fun (h : Fin 6) => st h != 1 && st h != 2) || (m.boot.calAux && aux != 1 && aux != 2) then m.bootFail 0x0C
    else { m with boot := { m.boot with calHeads := m.boot.calHeads.filter (fun (h : Fin 6) => st h = 1),
                                        calAux := m.boot.calAux && aux = 1 } }

/-- BOOT_CAL_START (R177, R180). Log entry 65. -/
def Mach.bootCal (m : Mach) : Mach :=
  match m.boot.vSince, m.boot.aSince with
  | some v, some a =>
    if m.live && m.phase = 3 && !m.boot.calBegun && !imgNoCal m.boot.img then
      let m := m.runTo (nextGrid 4 (max m.boot.checkAt (max v a + 1200000)))
      let m := { m with boot := { m.boot with calBegun := true, calHeads := allHeads, calAux := true } }
      ((m.each allHeads (fun h m => m.vadcCal h)).auxCal).bootPoll
    else m
  | _, _ => m

/-- SIG_CHECK_DONE (R157, R170, R171). -/
def Mach.sigDone (m : Mach) : Mach :=
  if m.live && m.phase = 3 && !m.boot.sigDone then
    let m := m.runTo (m.boot.checkAt + 4800000)
    let img := m.boot.img
    let n := imgLen img
    let b := imgBytes img n
    let pub := (b.drop (n - 132)).take 64
    let sig := (b.drop (n - 68)).take 64
    if ecdsaOk pub sig (sha256 (b.take (n - 68))) then
      { m.put F.BOOT_STATUS_SIGOK 1 with boot := { m.boot with sigDone := true } }
    else m.bootFail 8
  else m

/-- BIST_DONE: the tests pass after their fixed times, or one fails `d` beats after they began: the core memories' within its own
32,768 ticks, the line store's within the whole (R177, R178). Log entry 95. -/
def Mach.bistDone (m : Mach) (pass : Bool) (d : Nat) : Mach :=
  if m.live && m.phase = 3 && !m.boot.bistDone then
    let ok := pass && !m.boot.coreBad
    let m := m.runTo (m.boot.checkAt + if ok then 9437184 else if m.boot.coreBad then min d 131072 else min d 9437184)
    if ok then
      { m with mem := Sparse.clear inLine m.mem, eccBad := m.eccBad.filter (fun (a : Nat) => !inLine a),
               eccOne := m.eccOne.filter (fun (a : Nat) => !inLine a), boot := { m.boot with bistDone := true } }
    else (m.detect 0x0550).bootFail 0x0B
  else m

/-- Every activity of R177 has passed. -/
def Mach.allPassed (m : Mach) : Bool :=
  m.boot.bistDone && m.boot.sigDone &&
  (imgNoCal m.boot.img || (m.boot.calBegun && m.boot.calHeads.isEmpty && !m.boot.calAux))

/-- The boot ROM's session ends, and its settings of LN0 stay; ST_CTL.EN, which the boot ROM had set, clears (R186; log entry
74). -/
def Mach.laneHandoff (m : Mach) : Mach :=
  if m.boot.laneFrom.isNone then m
  else
    let m := if m.hasSess then m.closeSess 6 else m
    let m := (m.put F.ST_CTL_EN 0).put F.ST_STAT_SESS 0
    if m.get F.BOOT_STATUS_PATH = 1 then m else m.lnEn false

/-- BOOT_HANDOFF (R182-R186, R188). -/
def Mach.handoff (m : Mach) : Mach :=
  if m.live && m.phase = 3 && m.allPassed then
    let m := m.atTick
    if m.boot.held then m.restartGo
    else
      let img := m.boot.img
      let m := (m.laneHandoff).setPhase 4
      let st := m.reg F.BOOT_STATUS_reg
      let m := m.each allCores (fun c m =>
        let e := imgEntry img c
        let m := (m.put (F.C_EVT_PEND_PEND c) 0).put (F.C_EVT_OVF_OVF c) 0
        let m := (m.put (F.C_EVT_EN_EN c) 0).put (F.C_START_ADDR c) e
        if e = 0xFFFFFFFF then m else m.startPair c st (BitVec.ofNat 32 e))
      { m with boot := { m.boot with laneArmed := false, laneFrom := none, laneFail := none, laneUp := false } }
  else m

/-- BOOT_RESTART: 1 written to BOOT_CTL.RESTART (R185, R188). -/
def Mach.bootRestart (m : Mach) : Mach :=
  let ph := m.phase
  if ph = 3 then { m.put F.BOOT_CTL_RESTART 1 with boot := { m.boot with held := true } }
  else if ph = 1 || ph = 2 || ph = 7 then m.restartGo
  else m

/-- A write of BOOT_ANA: the buffers' enables, whose lead runs from the write; the aux reference follows its own under REFSEL 0, and 3 that acts as it (R180, R483, R493). -/
def Mach.bootAna (m : Mach) (v : Word) : Mach :=
  let a0 := m.is F.BOOT_ANA_AREF_EN
  let m := m.plainWrite F.BOOT_ANA_reg v
  let since (on : Bool) (old : Option Nat) : Option Nat := if on then (if old.isSome then old else some m.now) else none
  let m := { m with boot := { m.boot with vSince := since (m.is F.BOOT_ANA_VREF_EN) m.boot.vSince,
                                          aSince := since (m.is F.BOOT_ANA_AREF_EN) m.boot.aSince } }
  if a0 && !m.is F.BOOT_ANA_AREF_EN && (m.get F.AUX_CFG_REFSEL = 0 || m.get F.AUX_CFG_REFSEL = 3) then m.auxUpTo.refClear
  else m

/-! ## Fuses (R173-R176) -/

/-- FUSE_ARM: an arming write of BOOT_FUSE_PGM. -/
def Mach.fuseArm (m : Mach) : Mach :=
  if m.is F.BOOT_FUSE_PGM_BUSY then m
  else { m.put F.BOOT_FUSE_PGM_REJ 0 with boot := { m.boot with arm := some m.now } }

/-- Fuses may be programmed (R174). -/
def Mach.fuseOk (m : Mach) : Bool := m.phase = 1 && decide (sext 16 (m.get F.SHR_TEMP_TEMP) ≤ 1360) && m.pwr.io33

/-- FUSE_BIT: a BIT write of BOOT_FUSE_PGM. -/
def Mach.fuseBit (m : Mach) (bit : Nat) : Mach :=
  let armed : Bool := match m.boot.arm with | some t => m.now ≤ t + 3000000 | none => false
  let ok := armed && bit < 259 && !m.is F.BOOT_FUSE_PGM_BUSY && m.fuseOk
  let m := { m with boot := { m.boot with arm := none } }
  if ok then { m.put F.BOOT_FUSE_PGM_BUSY 1 with boot := { m.boot with blow := some (bit, m.now) } }
  else m.put F.BOOT_FUSE_PGM_REJ 1

/-- A write of BOOT_FUSE_PGM. -/
def Mach.fusePgm (m : Mach) (v : Word) : Mach :=
  if bits v.toNat 31 24 = 0x5A then m.fuseArm else m.fuseBit (bits v.toNat 8 0)

/-- FUSE_BLOW_DONE: the bit that is blown, when one is; LANE_BOOT_DIS disarms the lane path (R158). -/
def Mach.fuseDone (m : Mach) : Option Nat × Mach :=
  match m.boot.blow with
  | some (b, t) =>
    if m.clk.running then
      let boot := { m.boot with blow := none, laneArmed := m.boot.laneArmed && b != 258 }
      (some b, ({ m.runTo (t + 60000) with boot := boot }).put F.BOOT_FUSE_PGM_BUSY 0)
    else (none, m)
  | none => (none, m)

end Sys2Proof.Machine
end

