-- ==== Sys2Proof/Machine/Bus.lean ====
section
/-!
DEFINITION. Writes and reads of the registers and memories at a control-port address, by the control port and by the
cores through their device and line store windows (R30, R202, R864-R867, R882), and the commit registers (R231).
-/
namespace Sys2Proof.Machine

/-! ## Helpers -/

/-- First and second index of the register at `a` within its row's bank. -/
def RegRow.i1 (r : RegRow) (a : Nat) : Nat := (a - r.base) / r.s1
def RegRow.i2 (r : RegRow) (a : Nat) : Nat := (a - r.base) % r.s1 / r.s2

/-- A write of a register whose bits in `mask` have behaviour of their own: the other bits follow R15. -/
def Mach.writeRest (m : Mach) (a : Nat) (v : Word) (mask : Nat) : Mach :=
  m.plainWrite a (BitVec.ofNat 32 ((v.toNat &&& (2 ^ 32 - 1 - mask)) ||| ((m.reg a).toNat &&& mask)))


def commitAddr : CommitReg → Nat
  | .head h => headCommit h
  | .axis a => axisCommit a
  | .ctx c => bcCommit c

/-- A write of a commit register: MISSED is W1C, GO = 1 takes the snapshot (R227, R228, R230). -/
def Mach.commitWrite (m : Mach) (a : Nat) (v : Word) : Mach :=
  (m.writeRest a v 1).when (v.getLsbD 0) (fun m => m.commitGo a)

/-! ## Registers with behaviour of their own -/

/-- SYS, CLK and BOOT. -/
def Mach.writeSys (m : Mach) (f : Fuses) (ag : Agent) (base a : Nat) (v : Word) : Mach :=
  if base = F.SYS_RST_reg then m.softReset v.toNat
  else if base = F.SYS_HOSTDB_reg then
    match ag with
    | .core c => m.putBit F.SYS_IRQ_STAT_HOSTDB c
    | .port => m
  else if base = F.SYS_RST_CFG_reg then
    let was := m.is F.SYS_RST_CFG_KEEP_EN
    (m.plainWrite a v).when (was && !v.getLsbD F.SYS_RST_CFG_KEEP_EN.lo) (fun m => m.keepDrop)
  else if base = F.CLK_GATE_reg then (m.clkGate v).bootPoll
  else if base = F.BOOT_CTL_reg then m.when (v.getLsbD 0) (fun m => m.bootRestart)
  else if base = F.BOOT_WIN_reg 0 then m.bootWord f 0 v
  else if base = F.BOOT_FUSE_PGM_reg then m.fusePgm v
  else if base = F.BOOT_ANA_reg then m.bootAna v
  else m.plainWrite a v

/-- H{n}_ILL_CTL (R432). -/
def Mach.writeIllCtl (m : Mach) (h : Fin 6) (v : Word) : Mach :=
  let n := v.toNat
  let m := (m.put (F.H_ILL_CTL_SHMODE h) (bits n 13 13)).put (F.H_ILL_CTL_CASN h) (bits n 12 8)
  let m := m.illEn h (n.testBit 0)
  let m := m.when (n.testBit 3) (fun m => m.illSwcan h)
  let m := m.when (n.testBit 4) (fun m => m.illArm h)
  let m := m.when (n.testBit 5 && !m.is (F.H_ILL_CTL_SHAPE h)) (fun m => m.illShape h)
  let m := m.when (n.testBit 6) (fun m => m.illStest h)
  m.when (n.testBit 7) (fun m => m.casGo h)

/-- HEAD{n}. -/
def Mach.writeHead (m : Mach) (base a : Nat) (h : Fin 6) (j : Nat) (v : Word) : Mach :=
  let n := v.toNat
  if base = F.H_TPG_CTL_reg 0 then
    let m := m.tpgRun h (n.testBit 0)
    let m := m.when (n.testBit 8) (fun m => m.tpgClrcnt h)
    m.when (n.testBit 7) (fun m => m.tpgShot h)
  else if base = F.H_COMMIT_reg 0 then m.commitWrite a v
  else if base = F.H_VADC_CTL_reg 0 then
    let m := m.when (n.testBit 0) (fun m => m.vadcCal h)
    m.when (n.testBit 1) (fun m => m.vadcSweep h)
  else if base = F.H_SHD_REF_reg 0 then
    if n.testBit 0 then m.shdRefGo h (bits n 4 4) (bits n 5 5) (bits n 11 8) else m.plainWrite a v
  else if base = F.H_SHD_PDATA_reg 0 then m.shdWrite h v
  else if base = F.H_SHD_BLEN_reg 0 0 then m.shdBlen h j (bits n 14 0)
  else if base = F.H_ILL_CTL_reg 0 then m.writeIllCtl h v
  else if base = F.H_ILL_FRMW_reg 0 0 then m.illFrmw h j (bits n 11 0)
  else m.plainWrite a v

/-- AUX. -/
def Mach.writeAux (m : Mach) (base a i j : Nat) (v : Word) : Mach :=
  let n := v.toNat
  let c : Fin 2 := Fin.ofNat 2 i
  let e : Fin 32 := Fin.ofNat 32 j
  if base = F.AUX_CTL_reg then m.when (n.testBit 0) (fun m => m.auxCal)
  else if base = F.AUX_CFG_reg || base = F.AUX_EXC0_reg || base = F.AUX_EXC1_reg || base = F.AUX_VEX_reg ||
     base = F.AUX_BIAS_reg then m.auxCfgWrite a v
  else if base = F.AUX_EXCSTAT_reg then m.excClear v
  else if base = F.AUX_XCHK_reg then (m.plainWrite a v).auxSync
  else if base = F.AUX_SEQ_reg 0 then m.auxSeqWrite c v
  else if base = F.AUX_URG_reg 0 then
    if n.testBit 31 then m.auxUrgent c (bits n 4 0) else m.plainWrite a v
  else if base = F.AUX_SSTAT_reg 0 then (m.writeRest a v 0x20).when (n.testBit 5) (fun m => m.auxClrskip c)
  else if base = F.AUX_TSW_CFG_reg 0 then m.tswWrite (i % 16) v
  else if base = F.AUX_ENTL_reg 0 0 then m.entLowWrite c e v
  else if base = F.AUX_ENTH_reg 0 0 then m.entHighWrite c e v
  else m.plainWrite a v

/-- TRG: the ring geometry is held while its ring is enabled (R564). Log entry 88. -/
def Mach.writeTrg (m : Mach) (base a i : Nat) (v : Word) : Mach :=
  let n := v.toNat
  let h : Fin 6 := Fin.ofNat 6 i
  if base = F.TRG_CTL_reg then
    -- ARM acts on the state in which the write finds the page machine (R548, R549)
    let idle := m.pageState = 1
    let m := (m.writeRest a v 0xC1).trgEn (n.testBit 0)
    let m := m.when (n.testBit 7) (fun m => m.trgAbort)
    m.when (n.testBit 6 && idle) (fun m => m.trgArm)
  else if base = F.TRG_SWT_reg then m.trgSwt (n % 65536)
  else if base = F.TRG_U_CFG_reg 0 || base = F.TRG_U_LVL_reg 0 then
    -- CNT counts since EN last changed from 0 to 1 (section 1.4 of ch. 14)
    let was := m.is (F.TRG_U_CFG_EN i)
    let m := m.plainWrite a v
    let u : Fin 8 := Fin.ofNat 8 i
    let starts := !was && m.is (F.TRG_U_CFG_EN i)
    let m := m.setUnit u { since := if starts then m.now else (m.unit u).since }
    if starts then m.put (F.TRG_U_CNT_N i) 0 else m
  else if base = F.TRG_R_CTL_reg 0 then m.trgRingEn h (n.testBit 0)
  else if base = F.TRG_R_REL_reg 0 then m.trgRelease h (n % 65536)
  else if base = F.TRG_R_BASE_reg 0 || base = F.TRG_R_SLOT_reg 0 || base = F.TRG_R_NSLOT_reg 0 ||
     base = F.TRG_R_PRBASE_reg 0 then
    if m.ringOn h then m.put (F.TRG_R_STAT_WDROP h) 1 else m.plainWrite a v
  else m.plainWrite a v

/-- A value held in a range at the write (R1007). -/
def held (lo hi v : Nat) : Nat := max lo (min hi v)

/-- HAL (R1007 for the clamped fields). -/
def Mach.writeHal (m : Mach) (base a i : Nat) (v : Word) : Mach :=
  let n := v.toNat
  let x : Fin 2 := Fin.ofNat 2 i
  let h : Fin 6 := Fin.ofNat 6 i
  if base = F.HAL_HEAD_reg 0 then m.halHeadWrite h (bits n 31 31) (n % 2)
  else if base = F.HAL_PH_reg 0 then m.halPhWrite h n
  else if base = F.HAL_AX_CTL_reg 0 then
    let m := ((m.menDir x (n.testBit 0) (n.testBit 1)).put (F.HAL_AX_CTL_ENC x) (bits n 4 4)).put
      (F.HAL_AX_CTL_ENCINV x) (bits n 5 5)
    let m := (m.halHold x (n.testBit 3)).halEn x (n.testBit 2)
    m.when (n.testBit 8) (fun m => m.halStopnow x)
  else if base = F.HAL_AX_COMMIT_reg 0 then m.commitWrite a v
  else if base = F.HAL_AX_POSSET_reg 0 then m.halPosset x (sext 32 n)
  else if base = F.HAL_AX_VMAX_reg 0 then m.plainWrite a (BitVec.ofNat 32 (min n 0x40000000))
  else if base = F.HAL_AX_STEPT_reg 0 then
    m.plainWrite a (BitVec.ofNat 32 (setBits n 31 16 (held 75 1500 (bits n 31 16))))
  else if base = F.HAL_AX_SLIP_reg 0 then
    m.plainWrite a (BitVec.ofNat 32 (setBits n 15 0 (held 100 4000 (bits n 15 0))))
  else m.plainWrite a v

/-- REEF: every write acts later (ch. 16 section 4). -/
def Mach.writeReef (m : Mach) (base a : Nat) (v : Word) : Mach :=
  if base = F.REEF_CTL_reg then
    (m.reefWrite a (BitVec.ofNat 32 (v.toNat &&& (2 ^ 32 - 1 - 4)))).when (v.getLsbD 2) (fun m => m.reefClrcnt)
  else m.reefWrite a v

/-- BC. -/
def Mach.writeBc (m : Mach) (base a i : Nat) (v : Word) : Mach :=
  let n := v.toNat
  let c : Fin 16 := Fin.ofNat 16 i
  if base = F.BC_KEYREQ_reg then m.bcKeyreq (n % 65536)
  else if base = F.BC_CTX_CTL_reg 0 then
    (m.bcCtxEn c (n.testBit 0)).when (n.testBit 1) (fun m => m.bcRestart c)
  else if base = F.BC_CTX_COMMIT_reg 0 then m.commitWrite a v
  else if base = F.BC_CTX_WP_reg 0 then m.bcWp c n
  else if base = F.BC_CTX_CFG_reg 0 then
    m.plainWrite a (BitVec.ofNat 32 (setBits n 11 6 (min 32 (bits n 11 6))))
  else m.plainWrite a v

/-- LN. -/
def Mach.writeLn (m : Mach) (base a i : Nat) (v : Word) : Mach :=
  let n := v.toNat
  let l : Fin 4 := Fin.ofNat 4 i
  if base = F.LN_CTL_reg then
    let was := m.testRate
    let m := ((m.writeRest a v 0x1000001).lnEn (n.testBit 0)).when (n.testBit 24) (fun m => m.lnRetrain)
    -- a far-end loopback that TESTRATE brings to L0 is refused (Q-08)
    m.when (was != 0 && m.testRate = 0) (fun m => m.each allLanes (fun l m =>
      if m.get (F.LNL_CTL_LOOP l) = 3 then m.put (F.LNL_STAT_LOOPREF l) 1 else m))
  else if base = F.LNL_CTL_reg 0 then
    let m := (m.writeRest a v 0x6F6).lnTest l (bits n 5 4) (bits n 7 6) (bits n 10 9)
    let m := m.when (n.testBit 2) (fun m => m.lnClrerr l)
    m.when (n.testBit 1) (fun m => m.lnBslip l)
  else m.plainWrite a v

/-- ST; the second result is an uncorrectable word met. -/
def Mach.writeSt (m : Mach) (base a : Nat) (v : Word) : Option Nat × Mach :=
  let n := v.toNat
  if base = F.ST_CTL_reg then
    let m := (m.put F.ST_CTL_RESUMEEN (bits n 1 1)).stImgrun (n.testBit 2)
    (none, (m.stEn (n.testBit 0)).when (n.testBit 3) (fun m => m.stClose))
  else if base = F.ST_RXBASE_reg || base = F.ST_RXSIZE_reg then
    (none, if m.is F.ST_CTL_EN then m else m.plainWrite a v)
  else if base = F.ST_RDTO_reg then (none, m.plainWrite a (BitVec.ofNat 32 (held 10 10000 (bits n 13 0))))
  else if base = F.ST_RPLYT_reg then (none, m.plainWrite a (BitVec.ofNat 32 (held 4 1000 (bits n 9 0))))
  else if base = F.ST_RDQ_reg then m.rdqWrite n false
  else if base = F.ST_RXRP_reg then (none, m.rxrpWrite n)
  else (none, m.plainWrite a v)

/-- BWL, SHR and NV. -/
def Mach.writeTop (m : Mach) (base a : Nat) (v : Word) : Mach :=
  let n := v.toNat
  if base = F.BWL_CTL_reg then
    ((m.writeRest a v 9).bwlEn (n.testBit 0)).when (n.testBit 3) (fun m => m.bwlReform)
  else if base = F.SHR_CLEAR_reg then m.shrClear v
  else if base = F.SHR_INJ_reg then m.inject v
  else if base = F.NV_CTL_reg then m.nvCtl v
  else if base = F.NV_BUF_reg 0 then m.nvBuf a v
  else m.plainWrite a v

/-- Control registers of a core (R206). -/
def Mach.writeCore (m : Mach) (ag : Agent) (base a : Nat) (c : Fin 8) (v : Word) : Mach :=
  if base = F.C_CTL_reg 0 then m.coreCmd c v.toNat
  else if base = F.C_EVT_EN_reg 0 then m.evtEn c v
  else if base = F.C_EVT_PEND_reg 0 then m.clearPend c v.toNat
  else if base = F.C_DB_reg 0 then
    m.doorbell c (match ag with | .port => 8 | .core k => k.val)
  else m.plainWrite a v

/-- A write of a word takes effect at the register at `a` (R15-R18, R1007). -/
def Mach.regWrite (m : Mach) (f : Fuses) (ag : Agent) (a : Nat) (v : Word) : Mach :=
  match findReg a with
  | none => m
  | some r =>
    let i := r.i1 a
    let j := r.i2 a
    if a < 0x100000 then m.writeSys f ag r.base a v
    else if a < 0x200000 then m.writeHead r.base a (Fin.ofNat 6 i) j v
    else if a < 0x210000 then m.writeAux r.base a i j v
    else if a < 0x220000 then m.writeTrg r.base a i v
    else if a < 0x230000 then m.writeHal r.base a i v
    else if a < 0x240000 then m.writeReef r.base a v
    else if a < 0x300000 then m.writeBc r.base a i v
    else if a < 0x310000 then m.writeLn r.base a i v
    else if a < 0x320000 then
      match m.writeSt r.base a v with
      | (some e, m) => m.eccFault e
      | (none, m) => m
    else if a < 0x400000 then m.writeTop r.base a v
    else m.writeCore ag r.base a (Fin.ofNat 8 i) v

/-! ## What a read returns -/

/-- SYS_CP_STAT (R880). -/
def Mach.cpStat (m : Mach) : Nat :=
  let n := (m.reg F.SYS_CP_STAT_reg).toNat &&& 0xF80
  n + (16 - m.port.wbuf.length) * 65536 + m.get F.BOOT_STATUS_PHASE * 16 + 4 * b2n m.irqn + 2 * b2n m.out.faultn +
    b2n m.clk.running

/-- What a register of a core's registers reads: PC and W are defined only while the pair is halted (R206). -/
def Mach.readCore (m : Mach) (base : Nat) (c : Fin 8) (j : Nat) (a : Nat) : Word × Mach :=
  let halted := m.get (F.C_STAT_STATE c) = 3
  if base = F.C_PC_reg 0 then
    if halted then ((m.core c).pc, m) else let (x, m) := m.fresh 32; (BitVec.ofNat 32 x, m)
  else if base = F.C_WREG_reg 0 0 then
    if halted then (m.rW c (Fin.ofNat 16 j), m) else let (x, m) := m.fresh 32; (BitVec.ofNat 32 x, m)
  else (m.reg a, m)

/-- A value of `w` bits as a word, and the machine unchanged. -/
def Mach.shows (m : Mach) (v : Nat) : Word × Mach := (BitVec.ofNat 32 v, m)

/-- HAL (R317, R318, R607, R608, R617). Log entry 15. -/
def Mach.readHal (m : Mach) (base a i : Nat) : Word × Mach :=
  let x : Fin 2 := Fin.ofNat 2 i
  let p := wrapInt 48 (m.boundaryP x)
  if base = F.HAL_AX_POSLO_reg 0 then m.shows (p % 2 ^ 32)
  else if base = F.HAL_AX_POSHI_reg 0 then m.shows (p / 2 ^ 32)
  else if base = F.HAL_AX_VEL_reg 0 then m.shows (wrapInt 32 (floorDiv (m.axis x).v (2 ^ 28)))
  else if base = F.HAL_AX_CMD_reg 0 then m.shows (wrapInt 32 (m.axis x).c)
  else if base = F.HAL_AX_OBS_reg 0 then m.shows (wrapInt 32 (m.obs x))
  else if base = F.HAL_AX_LNEXT_reg 0 then m.shows (m.lnext x)
  else (m.reg a, m)

/-- A read of H{n}_SHD_PDATA; an uncorrectable word is a class 5 fault (R403, R415). -/
def Mach.shdPdata (m : Mach) (h : Fin 6) : Word × Mach :=
  let (v, n) := m.shdRead h
  (v, if m.shdPortBad h then n.detect (0x0530 + h) else n)

/-- A read of the register at `a` by a program: the word and what the read does (R15, R202, R415). Log entry 33.
Log entry 54. -/
def Mach.regRead (m : Mach) (f : Fuses) (a : Nat) : Word × Mach :=
  match findReg a with
  | none => (0, m)
  | some r =>
    let i := r.i1 a
    let j := r.i2 a
    let h : Fin 6 := Fin.ofNat 6 i
    if r.base = F.SYS_UID_LO_reg then m.shows (Config.uid.toNat % 2 ^ 32)
    else if r.base = F.SYS_UID_HI_reg then m.shows (Config.uid.toNat / 2 ^ 32)
    else if r.base = F.SYS_TIME_LO_reg then (BitVec.ofNat 32 m.sysTime.toNat, m.timeLoRead)
    else if r.base = F.SYS_CP_STAT_reg then m.shows m.cpStat
    else if r.base = F.BOOT_KEYHASH_reg 0 then m.shows (f.hashWord i)
    else if r.base = F.BOOT_FUSE_CFG_reg then m.shows f.cfg
    else if r.base = F.H_SHD_PDATA_reg 0 then m.shdPdata h
    else if r.base = F.AUX_STAT_reg then
      let m := m.auxUpTo
      (m.reg a, m)
    else if r.base = F.AUX_SSTAT_reg 0 then
      let m := m.auxUpTo.auxStat (Fin.ofNat 2 i)
      (m.reg a, m)
    else if r.base = F.TRG_STAT_reg then
      let open' : Bool := allHeads.any (fun h => (m.ring h).pages.any (fun (p : HeadPage) => !p.closed))
      m.shows (setBits (setBits (m.reg a).toNat 4 4 (b2n m.trg.held.isSome)) 5 5 (b2n open'))
    else if r.base = F.TRG_R_FILL_reg 0 then
      m.shows (m.ringFree h % 65536 * 65536 + m.fill h % 65536)
    else if r.base = F.TRG_R_STAT_reg 0 then
      let n := setBits (m.reg a).toNat 1 1 (b2n (m.ring h).inPage)
      m.shows (setBits n 0 0 (b2n (m.capt h != 0)))
    else if 0x220000 ≤ a && a < 0x230000 then m.readHal r.base a i
    else if r.base = F.SHR_STATUS_reg then
      let n := setBits (m.reg a).toNat F.SHR_STATUS_COND.hi F.SHR_STATUS_COND.lo m.cond
      m.shows (setBits n F.SHR_STATUS_ARMED.hi F.SHR_STATUS_ARMED.lo (b2n m.armed))
    else if 0x400000 ≤ a then m.readCore r.base (Fin.ofNat 8 i) j a
    else (m.reg a, m)

/-! ## Accesses at a control-port address -/

/-- Whether word address `a` is no address error (R864, R865, R882). -/
def mapped (a : Nat) : Bool :=
  a % 4 = 0 && (inLine a || inCoreMem a || (findReg a).isSome)

/-- Whether an uncorrectable word was met. -/
abbrev EccMet := Bool

/-- A whole word is written: its check bits are new (R196). Log entry 83. -/
def Mach.storeWord (m : Mach) (a : Nat) (v : Word) : Mach :=
  let m := { m with eccBad := m.eccBad.filter (fun (b : Nat) => b != eccWord a),
                    eccOne := m.eccOne.filter (fun (b : Nat) => b != eccWord a) }
  m.storeN a 4 v.toNat

/-- A 32-bit write at a mapped address: into the line store, where it is merged into its ECC word (R322, R866, R867), into a
core memory, or of a register.  A write that meets an uncorrectable word is dropped, and is a class 5 fault (R196, R322).
Log entry 83. -/
def Mach.busWrite (m : Mach) (f : Fuses) (ag : Agent) (a : Nat) (v : Word) : EccMet × Mach :=
  if inLine a || inCoreMem a then
    let m := (if inLine a then m.catchUp else m).bootZero
    if m.isBad a then (true, m.eccFault a)
    else if inLine a then (false, (m.touch a).storeN a 4 v.toNat) else (false, m.storeWord a v)
  else (false, m.regWrite f ag a v)

/-- A 32-bit read at a mapped address (R196, R321, R867). -/
def Mach.busRead (m : Mach) (f : Fuses) (a : Nat) : Word × EccMet × Mach :=
  if inLine a || inCoreMem a then
    let m := (if inLine a then m.catchUp else m).bootZero
    if m.isBad a then (0, true, m.eccFault a)
    else let m := m.touch a; (BitVec.ofNat 32 (m.load a 4), false, m)
  else let (w, m) := m.regRead f a; (w, false, m)

/-- Accesses reach the registers and memories: the clock runs and no reset holds them. -/
def Mach.busUp (m : Mach) : Bool := m.clk.running && !m.inReset

/-- Accesses reach the register at `a`: no reset holds it, and thermal shutdown leaves its block alone (R101, R883, R930). -/
def Mach.reaches (m : Mach) (a : Nat) : Bool := m.busUp && (!m.pwr.thermal || thermalKeeps a)

/-- A write by a command row takes effect in a tick (R74); it is dropped while accesses do not reach its register. -/
def Mach.writeCmd (m : Mach) (a : Nat) (f : Mach → Mach) : Mach := if m.reaches a then f m.atTick else m

end Sys2Proof.Machine
end

