-- ==== Sys2Proof/Machine/Checks.lean ====
section
/-!
DEFINITION. Detections that Shroud takes from the front end, the lamp and the axes (R391-R398, R463, R628), and the codes
it knows (R920).
-/
namespace Sys2Proof.Machine

/-! ## Video front end (R391-R398) -/

/-- The line whose samples a check reports on: the oldest whose report, due at beat `due l`, has not come; none of a line whose
capture was discarded (R395, R398). -/
def Mach.checkedLine (m : Mach) (h : Fin 6) (due : LineCtx → Nat) : Option LineCtx :=
  (m.head h).tpg.lines.find? (fun (l : LineCtx) => !l.gone && decide (m.now ≤ due l))

/-- A failed check: its flag, AFE_STAT, and class 6 detail `d` (R396). -/
def Mach.vadcFail (m : Mach) (h : Fin 6) (f : Fld) (d : Nat) (inj : Bool) : Mach :=
  ((m.put f 1).pulseHead h 3).detectFrom (0x0600 + 16 * h + d) inj 0

/-- The level check of field f: D_f and the codes of slots 0-7 (R380, R391, R392). -/
def Mach.vadcLevel (m : Mach) (h : Fin 6) (l : LineCtx) (f d : Nat) (codes : List Nat) : Mach :=
  let ofs := setGet l.set (F.H_AFE_OFS_OFS h)
  let tol := setGet l.set (F.H_VADC_CHK_TOL h)
  let inj := match (m.head h).vadc.inject with | some t => t ≤ l.sync | none => false
  let m := if inj then m.setVadc h { (m.head h).vadc with inject := none } else m
  let code (j : Nat) : Nat := codes.getD j 0
  let m := if f = setGet l.set (F.H_TPG_FIELDS_NFLD h) then
      m.each (List.range 8) (fun (j : Nat) m =>
        let m := (m.put (F.H_VADC_TST_CODE h j) (code j)).put (F.H_VADC_TST_SKIP h j) (b2n (slotSkip ofs tol j d))
        m.put (F.H_VADC_TST_DEV h j) (wrapInt 16 ((code j : Int) - slotIdeal ofs j d)))
    else m
  if inj || (List.range 8).any (fun (j : Nat) => slotFails ofs tol j d (code j)) then
    (m.put (F.H_VADC_STAT_FAILFLD h) f).vadcFail h (F.H_VADC_STAT_LVLFAIL h) 1 inj
  else m

/-- The dark check of field f (R380, R393).  A skipped check gives M = 0 and leaves DMEAN as it was (log entry 98). -/
def Mach.vadcDark (m : Mach) (h : Fin 6) (l : LineCtx) (f : Nat) : Mach :=
  let k := darkM (l.darkN h)
  if k = 0 then m.put (F.H_VADC_DARK_M h f) 0
  else
    let mean := ((List.range (2 ^ k)).map (fun i => (l.code h f i).1)).foldl (· + ·) 0 / 2 ^ k
    let m := (m.put (F.H_VADC_DARK_M h f) k).put (F.H_VADC_DARK_DMEAN h f) mean
    if mean < setGet l.set (F.H_VADC_DKWIN_DKLO h) || setGet l.set (F.H_VADC_DKWIN_DKHI h) < mean then
      (m.put (F.H_VADC_STAT_FAILFLD h) f).vadcFail h (F.H_VADC_STAT_DKFAIL h) 2 false
    else m

/-- Field of a check. -/
def VadcCheck.field : VadcCheck → Nat
  | .level f _ _ => f
  | .dark f => f
  | .dup f _ => f

/-- Beat in which a check of a line reports: 192 beats after the last test slot or the last averaged dark sample, 208 after the
sample whose copies differ (R395). -/
def VadcCheck.due (k : VadcCheck) (h : Fin 6) (l : LineCtx) : Nat :=
  match k with
  | .level f _ _ => l.sampleAt h f (l.darkN h + l.npix h + 23) + 192
  | .dark f => l.sampleAt h f (2 ^ darkM (l.darkN h) - 1) + 192
  | .dup f i => l.sampleAt h f (min i (l.darkN h + l.npix h + 23)) + 208

/-- VADC_CHECK_REPORT: a check of the head reports in its beat; a gated head runs no checks (R395, R396, R398, R400). -/
def Mach.vadcReport (m : Mach) (h : Fin 6) (k : VadcCheck) : Mach :=
  if (m.head h).tpg.stopped then m
  else match m.checkedLine h (k.due h) with
  | none => m
  | some l =>
    if k.field ≤ l.nfld h then
      let m := m.runTo (k.due h l)
      match k with
      | .level f d codes => m.vadcLevel h l f d codes
      | .dark f => m.vadcDark h l f
      | .dup _ _ => m.vadcFail h (F.H_VADC_STAT_DUPFAIL h) 3 false
    else m

/-! ## Lamp (R463) -/

/-- A failed monitor sample: ILL_FLT and a class 9 detection. -/
def Mach.illFail (m : Mach) (h : Fin 6) (kind row seg : Nat) : Mach :=
  (m.illFlt h kind row seg).detect (0x0900 + 16 * h + kind)

/-- ILL_MONITOR_SAMPLE: a sample that fails its check, where the check applies, at the next beat at which that check samples; the
parts of ILL_FLT that a kind does not name are free values (log entry 13). -/
def Mach.illMonitor (m : Mach) (h : Fin 6) (k : IllFound) : Mach :=
  let x := (m.head h).ill
  -- a failure of KIND `kind` on row r at beat t; the segment is a free value
  let row (kind t r : Nat) : Mach := let (s, m) := (m.runTo t).fresh 4; m.illFail h kind r s
  -- beat 24 of the next lit slice of segment s in the open window
  let probe (kind : Nat) (s : Fin 16) : Mach :=
    match x.window, m.nextProbe h s with
    | some r, some t => (m.runTo t).illFail h kind r s
    | _, _ => m
  if !m.lampOn h then m
  else match k with
  | .sinkOpen s => probe 1 s
  | .stringShort s => probe 2 s
  | .sinkLeak s =>
    match x.rowClosed with
    | some r =>
      let t := nextGrid 64 m.now
      if m.sinkOn h s t then m else (m.runTo t).illFail h 3 r s
    | none => m
  | .rowOpen r =>
    match m.runField h x.winF with
    | some l => if x.window = some r.val then row 4 (l.casAim h x.winF false) r else m
    | none => m
  | .rowStuck r => if x.rowClosed = some r.val then m else row 5 (nextGrid 2000 m.now) r
  | .boostLow =>
    match x.rowClosed with
    | some r => if m.is (F.H_ILL_STAT_BRDY h) then row 6 (m.boostGrid h) r else m
    | none => m
  | .boostHigh =>
    let m := m.setIll h { x with boostHigh := true, onTime := 0 }
    let (r, m) := m.fresh 2
    let (s, m) := m.fresh 4
    m.illFail h 7 r s

/-! ## Axes (R628) -/

/-- MFLT_FAULT: MFLT{a}N has been low for 64 beats. Log entry 27. -/
def Mach.mflt (m : Mach) (a : Fin 2) : Mach :=
  let m := ((m.axFlag a 3).pulse 6 (6 + a)).axFault a 5
  if m.is (F.HAL_AX_CTL_ENC a) then m.detect (0x0A03 + 16 * a) else m

/-! ## Codes (R920) -/

/-- The fault codes that Shroud's detectors give; class 0x0E comes only from RAISE, with its core (R920).
Log entry 82. -/
def knownCode (code : Nat) : Bool :=
  let d := code % 256
  match code / 256 with
  | 0x01 => d = 0x80 || (d < 0x80 && 4 ≤ d % 16 && d % 16 ≤ 7)
  | 0x02 => 1 ≤ d && d ≤ 4
  | 0x03 => d / 16 < 6 && d % 16 < 2
  | 0x04 => d < 8
  | 0x05 => d = 0x50 || (let k := d % 128; k ≤ 0x10 || k = 0x20 || (0x30 ≤ k && k ≤ 0x35) || k = 0x40 || k = 0x41)
  | 0x06 => d / 16 < 6 && 1 ≤ d % 16 && d % 16 ≤ 3
  | 0x07 => 1 ≤ d && d ≤ 3
  | 0x08 => d < 6
  | 0x09 => d / 16 < 6 && 1 ≤ d % 16 && d % 16 ≤ 7
  | 0x0A => d / 16 < 2 && d % 16 < 4
  | 0x0B => d < 16
  | _ => false

end Sys2Proof.Machine
end

