-- ==== Sys2Proof/Machine/Run.lean ====
section
/-!
DEFINITION. How a command's effect on the machine becomes an outcome on the whole state: nothing touches the queue, the
fuses or the NV array but what says so.
-/
namespace Sys2Proof.Machine

/-- An effect on the machine alone. -/
def State.run (f : Mach → Mach) (s : State) : Host.Outcome State Fault Refusal := .next { s with m := f s.m }

/-- An effect that reads the fuses. -/
def State.runF (f : Fuses → Mach → Mach) (s : State) : Host.Outcome State Fault Refusal :=
  .next { s with m := f s.fuses s.m }

/-- An effect on the machine and the NV array. -/
def State.runNv (f : NvArr → Mach → NvArr × Mach) (s : State) : Host.Outcome State Fault Refusal :=
  .next { s with nvArr := (f s.nvArr s.m).1, m := (f s.nvArr s.m).2 }

/-- The address of an uncorrectable word that a step met becomes a class 5 fault (R48, R920). Log entry 11. -/
def Mach.withEcc (r : Option Nat × Mach) : Mach :=
  match r with
  | (some a, m) => m.eccFault a
  | (none, m) => m

end Sys2Proof.Machine
end

