-- ==== Sys2Proof/Machine/HeadRows.lean ====
section
/-!
DEFINITION. The meanings of the sensor timing, video front end and shading rows (ch. 09, 10 and 11).
-/
namespace Sys2Proof.Machine

/-- A write of a head's register by its row. -/
def State.headWrite (s : State) (a : Nat) (f : Mach → Mach) : Host.Outcome State Fault Refusal :=
  s.run (fun m => m.writeCmd a f)

/-- LINE_TRIGGER: `pos` is the position that the trigger's source hands over (R325, R352-R355). -/
def execLineTrigger (h : Fin 6) (pos : Int) (s : State) : Host.Outcome State Fault Refusal :=
  s.run (fun m => m.ifLive (fun m => m.lineTrigger h pos))

/-- TPG_TIMER (R356). -/
def execTpgTimer (h : Fin 6) (s : State) : Host.Outcome State Fault Refusal := s.run (fun m => m.ifLive (fun m => m.tpgTimer h))

/-- TPG_SHOT (R338). -/
def execTpgShot (h : Fin 6) (s : State) : Host.Outcome State Fault Refusal :=
  s.headWrite (F.H_TPG_CTL_reg h) (fun m => m.tpgShot h)

/-- TPG_CLRCNT (R338, R346). -/
def execTpgClrcnt (h : Fin 6) (s : State) : Host.Outcome State Fault Refusal :=
  s.headWrite (F.H_TPG_CTL_reg h) (fun m => m.tpgClrcnt h)

/-- TPG_RUN (R355, R356, R423). -/
def execTpgRun (h : Fin 6) (on : Bool) (s : State) : Host.Outcome State Fault Refusal :=
  s.headWrite (F.H_TPG_CTL_reg h) (fun m => m.tpgRun h on)

/-- LINE_SYNC, with the signal that the sensor gives for the line (R325, R327, R358-R361). -/
def execLineSync (l : LineSignal) (s : State) : Host.Outcome State Fault Refusal :=
  s.run (fun m => m.ifLive (fun m => m.lineSync l.head l.wave))

/-- PATTERN_END (R351, R352). -/
def execPatternEnd (h : Fin 6) (s : State) : Host.Outcome State Fault Refusal :=
  s.run (fun m => m.ifLive (fun m => m.patternEnd h))

/-- LINE_DONE: an uncorrectable coefficient, LUT or accumulator word is a class 5 fault (R25, R403, R405-R411). -/
def execLineDone (h : Fin 6) (_fields : NoData) (s : State) : Host.Outcome State Fault Refusal :=
  s.run (fun m => m.ifLive (fun m =>
    let (bad, m) := m.lineDone h
    if bad then m.detect (0x0530 + h) else m))

/-- TPG_EDGE (R332-R336). -/
def execTpgEdge (h : Fin 6) (e : TpgEdge) (s : State) : Host.Outcome State Fault Refusal :=
  s.run (fun m => m.ifLive (fun m => m.tpgEdge h e))

/-- VADC_SWEEP (R382). -/
def execVadcSweep (h : Fin 6) (s : State) : Host.Outcome State Fault Refusal :=
  s.headWrite (F.H_VADC_CTL_reg h) (fun m => m.vadcSweep h)

/-- SWEEP_DONE (R383). -/
def execSweepDone (h : Fin 6) (_samples : NoData) (s : State) : Host.Outcome State Fault Refusal :=
  s.run (fun m => m.ifLive (fun m => m.sweepFinish h))

/-- VADC_CAL (R385-R387). -/
def execVadcCal (h : Fin 6) (s : State) : Host.Outcome State Fault Refusal :=
  s.headWrite (F.H_VADC_CTL_reg h) (fun m => m.vadcCal h)

/-- VADC_CAL_DONE; a boot that waits for it hears of it (R179, R387). -/
def execVadcCalDone (h : Fin 6) (pass : Bool) (factors : List Int) (s : State) : Host.Outcome State Fault Refusal :=
  s.run (fun m => m.ifLive (fun m => (m.vadcCalDone h pass factors).bootPoll))

/-- VADC_CHECK_REPORT (R391-R396). -/
def execVadcCheckReport (h : Fin 6) (k : VadcCheck) (s : State) : Host.Outcome State Fault Refusal :=
  s.run (fun m => m.ifLive (fun m => m.vadcReport h k))

/-- SHD_PDATA_WRITE (R415, R416). -/
def execShdPdataWrite (h : Fin 6) (v : Word) (s : State) : Host.Outcome State Fault Refusal :=
  s.headWrite (F.H_SHD_PDATA_reg h) (fun m => m.shdWrite h v)

/-- SHD_PDATA_READ: what the read does to the machine; the word it returns is the first result of `Mach.shdPdata` (R415). -/
def execShdPdataRead (h : Fin 6) (s : State) : Host.Outcome State Fault Refusal :=
  s.headWrite (F.H_SHD_PDATA_reg h) (fun m => (m.shdPdata h).2)

/-- SHD_BLEN_WRITE (R417). -/
def execShdBlenWrite (h : Fin 6) (bank : Fin 2) (v : Word) (s : State) : Host.Outcome State Fault Refusal :=
  s.headWrite (F.H_SHD_BLEN_reg h bank) (fun m => m.shdBlen h bank (bits v.toNat 14 0))

/-- SHD_REF_GO: GO written with KIND, TBANK and K (R418, R419). -/
def execShdRefGo (h : Fin 6) (white : Bool) (tbank : Fin 2) (k : BitVec 4) (s : State) : Host.Outcome State Fault Refusal :=
  s.headWrite (F.H_SHD_REF_reg h) (fun m => m.shdRefGo h (b2n white) tbank k.toNat)

/-- The end of a run whose last line is accumulated.  An uncorrectable accumulator word aborts it, and one of BLACK that a white
run reads does not by itself; both are class 5 faults (R403, R421-R424). -/
def Mach.shdRefDone (m : Mach) (h : Fin 6) : Mach :=
  let x := (m.head h).shd
  if x.runLeft = some 0 then
    if x.runAccBad h then (m.shdRefAbort h).detect (0x0530 + h)
    else
      let m := if (x.blackBad h).isEmpty then m else m.detect (0x0530 + h)
      if (m.head h).shd.runLeft = some 0 then m.shdRefFinish h else m
  else m

/-- SHD_REF_DONE (R421-R424). -/
def execShdRefDone (h : Fin 6) (s : State) : Host.Outcome State Fault Refusal :=
  s.run (fun m => m.ifLive (fun m => m.shdRefDone h))

end Sys2Proof.Machine
end

