-- ==== Sys2Proof/Machine/AuxRows.lean ====
section
/-!
DEFINITION. The meanings of the auxiliary sensing rows (ch. 13).
-/
namespace Sys2Proof.Machine

/-- AUX_CAL (R495, R496). -/
def execAuxCal (s : State) : Host.Outcome State Fault Refusal := s.run (fun m => m.writeCmd F.AUX_CTL_reg (fun m => m.auxCal))

/-- AUX_CAL_DONE; a boot that waits for it hears of it (R179, R496, R497). -/
def execAuxCalDone (pass : Bool) (s : State) : Host.Outcome State Fault Refusal :=
  s.run (fun m => m.ifLive (fun m => (m.auxCalDone pass).bootPoll))

/-- AUX_LOOP_START (R510, R511). -/
def execAuxLoopStart (conv : Fin 2) (s : State) : Host.Outcome State Fault Refusal :=
  s.run (fun m => m.ifLive (fun m => m.auxLoopStart conv))

/-- AUX_SEQ_EVENT (R510). -/
def execAuxSeqEvent (conv : Fin 2) (s : State) : Host.Outcome State Fault Refusal :=
  s.run (fun m => m.ifLive (fun m => m.auxSeqEvent conv))

/-- A failed cross-check is a class 7 detection (R531, R920). -/
def Mach.crossFault (m : Mach) (r : Option (Nat × Bool)) : Mach :=
  match r with
  | some (d, inj) => m.detectFrom (0x0700 + d) inj 0
  | none => m

/-- AUX_RESULT: the voltages at the result's sample instants, and the slots of blanking; what drives a threshold switch's pin
follows in the tick after (R500-R509, R537). -/
def execAuxResult (conv : Fin 2) (samples : List AuxVolts) (low : List Nat) (s : State) : Host.Outcome State Fault Refusal :=
  s.run (fun m => m.ifLive (fun m =>
    let (r, m) := m.auxResult conv samples low
    (m.crossFault r).tswPins))

/-- XCHECK_LATE: class 7 detail 3 (R532, R920). -/
def execXcheckLate (s : State) : Host.Outcome State Fault Refusal :=
  s.run (fun m => m.ifLive (fun m =>
    let (late, m) := m.xcheckLate
    m.crossFault (if late then some (3, false) else none)))

/-- AUX_URGENT: GO written with ENT (R497, R514). -/
def execAuxUrgent (conv : Fin 2) (e : Fin 32) (s : State) : Host.Outcome State Fault Refusal :=
  s.run (fun m => m.writeCmd (F.AUX_URG_reg conv) (fun m => m.auxUrgent conv e))

/-- URGENT_RUN_START (R515, R516). -/
def execUrgentRunStart (run : UrgentRun) (s : State) : Host.Outcome State Fault Refusal :=
  s.run (fun m => m.ifLive (fun m => m.urgentStart run.conv run.low))

/-- AUX_ENT_LOW_WRITE (R517, R518). -/
def execAuxEntLowWrite (conv : Fin 2) (e : Fin 32) (v : Word) (s : State) : Host.Outcome State Fault Refusal :=
  s.run (fun m => m.writeCmd (F.AUX_ENTL_reg conv e) (fun m => m.entLowWrite conv e v))

/-- AUX_ENT_HIGH_WRITE (R517, R518). -/
def execAuxEntHighWrite (conv : Fin 2) (e : Fin 32) (v : Word) (s : State) : Host.Outcome State Fault Refusal :=
  s.run (fun m => m.writeCmd (F.AUX_ENTH_reg conv e) (fun m => m.entHighWrite conv e v))

/-- Addresses of the registers of AUX_CFG_WRITE. -/
def auxRegAddr : AuxReg → Nat
  | .cfg => F.AUX_CFG_reg
  | .exc0 => F.AUX_EXC0_reg
  | .exc1 => F.AUX_EXC1_reg
  | .vex => F.AUX_VEX_reg
  | .bias => F.AUX_BIAS_reg

/-- AUX_CFG_WRITE (R483-R488, R493, R518). -/
def execAuxCfgWrite (r : AuxReg) (v : Word) (s : State) : Host.Outcome State Fault Refusal :=
  s.run (fun m => m.writeCmd (auxRegAddr r) (fun m => m.auxCfgWrite (auxRegAddr r) v))

/-- AUX_CLRSKIP (R513). -/
def execAuxClrskip (conv : Fin 2) (s : State) : Host.Outcome State Fault Refusal :=
  s.run (fun m => m.writeCmd (F.AUX_SSTAT_reg conv) (fun m => m.auxClrskip conv))

/-- EXCITATION_FAULT: class 8 with the number of its AUX_EXCSTAT bit (R489, R490, R920). -/
def execExcitationFault (src : Fin 3) (seen : ExcSeen) (s : State) : Host.Outcome State Fault Refusal :=
  s.run (fun m => m.ifLive (fun m =>
    let (acted, m) := m.excFaultAt src seen.short seen.vals
    if acted then m.detect (0x0800 + 2 * src + b2n seen.short) else m))

/-- AUX_EXCSTAT_CLEAR (R490). -/
def execAuxExcstatClear (v : Word) (s : State) : Host.Outcome State Fault Refusal :=
  s.run (fun m => m.writeCmd F.AUX_EXCSTAT_reg (fun m => m.excClear v))

/-- REFRDY (R493). -/
def execRefrdy (s : State) : Host.Outcome State Fault Refusal := s.run (fun m => m.ifLive (fun m => m.refReady))

end Sys2Proof.Machine
end

