-- ==== Sys2Proof/Machine/Flags.lean ====
section
/-!
DEFINITION. Conditions and results of the Felwen arithmetic.  Felwen has no condition flags: a branch or a compare takes
its condition from two words (R253, R256-R258, R266).
-/
namespace Sys2Proof.Machine

/-- Signed and unsigned comparison (R253, R266). -/
def ltS (a b : Word) : Bool := decide (a.toInt < b.toInt)
def ltU (a b : Word) : Bool := decide (a.toNat < b.toNat)
def bitOf (b : Bool) : Word := if b then 1 else 0

/-- High words of the products (R256). -/
def mulHigh (a b : Word) : Word := BitVec.ofNat 32 (wrapInt 64 (a.toInt * b.toInt) / 2 ^ 32)
def mulHighU (a b : Word) : Word := BitVec.ofNat 32 (a.toNat * b.toNat / 2 ^ 32)

/-- Quotients and remainders with the special cases of R258. -/
def divS (a b : Word) : Word :=
  if b = 0 then 0xFFFFFFFF else BitVec.ofNat 32 (wrapInt 32 (a.toInt.tdiv b.toInt))
def divU (a b : Word) : Word := if b = 0 then 0xFFFFFFFF else BitVec.ofNat 32 (a.toNat / b.toNat)
def remS (a b : Word) : Word := if b = 0 then a else BitVec.ofNat 32 (wrapInt 32 (a.toInt.tmod b.toInt))
def remU (a b : Word) : Word := if b = 0 then a else BitVec.ofNat 32 (a.toNat % b.toNat)

end Sys2Proof.Machine
end

