-- ==== Sys2Proof/Machine/Operands.lean ====
section
/-!
DEFINITION. Operand forms of the Felwen instructions: immediates, offsets, bit fields, effective addresses and the
regions of a core's address map (R200, R245, R251, R254).
-/
namespace Sys2Proof.Machine

/-- A register field names one of W0-W15 (R244). -/
def rnum (r : Rn) : Fin 16 := r.toFin

def Mach.w (m : Mach) (c : Fin 8) (r : Rn) : Word := m.rW c (rnum r)
def Mach.setW (m : Mach) (c : Fin 8) (r : Rn) (v : Word) : Mach := m.wW c (rnum r) v

/-- sext and zext of R251. -/
def sx18 (i : BitVec 18) : Word := i.signExtend 32
def zx18 (i : BitVec 18) : Word := i.zeroExtend 32
def sx8 (i : BitVec 8) : Word := i.signExtend 32
def zx8 (i : BitVec 8) : Word := i.zeroExtend 32

/-- ea of R251. -/
def Mach.ea (m : Mach) (c : Fin 8) (ra : Rn) (imm : BitVec 18) : Word := m.w c ra + sx18 imm

/-- Targets of R245. -/
def target18 (pc : Word) (off : BitVec 18) : Word := pc + (off.signExtend 32) <<< 2
def target14 (pc : Word) (off : BitVec 14) : Word := pc + (off.signExtend 32) <<< 2
def target26 (pc : Word) (off : BitVec 26) : Word := pc + (off.signExtend 32) <<< 2

/-- POS + WIDTH is at most 32 (R246). -/
def fieldOk (w1 pos : BitVec 5) : Bool := pos.toNat + w1.toNat + 1 ≤ 32

/-- mask(WIDTH) of R251, with WIDTH - 1 given. -/
def fmask (w1 : BitVec 5) : Word := BitVec.ofNat 32 (2 ^ (w1.toNat + 1) - 1)

/-- Shift amount of the register forms (R253). -/
def amt (v : Word) : Nat := v.toNat % 32

/-- A load's value from its bytes (R260). -/
def extS (n : Nat) (v : Nat) : Word := BitVec.ofNat 32 (wrapInt 32 (sext (8 * n) v))
def extU (n : Nat) (v : Nat) : Word := BitVec.ofNat 32 (v % 2 ^ (8 * n))

/-- A core's regions (R200). -/
inductive Region where
  | imem
  | dmem
  | mailbox
  | device
  | line
  | unmapped
  deriving DecidableEq, Repr

def region (ea : Nat) : Region :=
  if ea < 0x8000 then .imem
  else if 0x10000000 ≤ ea && ea < 0x10004000 then .dmem
  else if 0x20000000 ≤ ea && ea < 0x20004000 then .mailbox
  else if 0x40000000 ≤ ea && ea < 0x48000000 then .device
  else if 0x48000000 ≤ ea && ea < 0x4B000000 then .line
  else .unmapped

/-- Control-port address of a core address (R200, R203). -/
def portAddr (c : Fin 8) (ea : Nat) : Nat :=
  match region ea with
  | .imem => imemBase c + ea
  | .dmem => dmemBase c + (ea - 0x10000000)
  | .mailbox => mbxBase + (ea - 0x20000000)
  | _ => ea - 0x40000000

end Sys2Proof.Machine
end

