-- ==== Sys2Proof/Machine/Felwen.lean ====
section
/-!
DEFINITION. How a Felwen pair executes an instruction: the fetch checks, the store buffer, loads, stores, jumps, WAIT and
the halts (chapters 06-08).  The instruction itself comes with the command (log entry 12).
-/
namespace Sys2Proof.Machine

/-! ## Issue -/

/-- Firmware of core `c` can execute: it runs after hand-off, and nothing holds the cores. -/
def Mach.canRun (m : Mach) (c : Fin 8) : Bool := m.live && m.phase = 4 && m.pairState c = 1

/-- The PC goes on to the next word. -/
def Mach.next (m : Mach) (c : Fin 8) : Mach := m.setPc c ((m.core c).pc + 4)

/-- Core `c` takes its turn in a tick: its next instruction issues, or the access that waited for its stores (R31, R74, R224,
R232). -/
def Mach.takeTurn (m : Mach) (c : Fin 8) : Mach :=
  let m := m.turn (c.val + 1)
  m.setCore c { m.core c with lateAt := none }

/-- An instruction of core `c` reaches the point at which it would execute, in a tick of its own: its fetch is checked first
(R201, R232, R249, R271, R272). Log entry 12. -/
def Mach.issue (m : Mach) (c : Fin 8) (f : Mach → Mach) : Mach :=
  if !m.canRun c then m
  else
    let m := m.takeTurn c
    let pc := (m.core c).pc.toNat
    if pc % 4 != 0 then m.haltAddr c 6 pc
    else if 0x8000 ≤ pc then m.haltAddr c 7 pc
    else if m.isBad (imemBase c + pc) then m.haltEcc c pc (imemBase c + pc)
    else f (m.touch (imemBase c + pc))

/-- An instruction whose word is legal only when `ok` holds (R246, R248, R276, R313). -/
def Mach.issueIf (m : Mach) (c : Fin 8) (ok : Bool) (f : Mach → Mach) : Mach :=
  m.issue c (fun m => if ok then f m else m.haltFault c 5)

/-- An instruction that writes one register from registers and immediates alone. -/
def Mach.compute (m : Mach) (c : Fin 8) (rd : Rn) (v : Mach → Word) : Mach :=
  m.issue c (fun m => (m.setW c rd (v m)).next c)

/-- A register-register operation (R253, R256, R257). -/
def Mach.alu (m : Mach) (c : Fin 8) (rd ra rb : Rn) (op : Word → Word → Word) : Mach :=
  m.compute c rd (fun m => op (m.w c ra) (m.w c rb))

/-- A register-immediate operation (R253). -/
def Mach.alui (m : Mach) (c : Fin 8) (rd ra : Rn) (imm : Word) (op : Word → Word → Word) : Mach :=
  m.compute c rd (fun m => op (m.w c ra) imm)

/-- A bit-field operation on W[ra] (R246, R254). -/
def Mach.field (m : Mach) (c : Fin 8) (rd : Rn) (w1 pos : BitVec 5) (v : Mach → Word) : Mach :=
  m.issueIf c (fieldOk w1 pos) (fun m => (m.setW c rd (v m)).next c)

/-! ## Stores and the store buffer (R223, R224, R235) -/

/-- A store at the head of the buffer takes effect (R223, R287, R290, R293). -/
def Mach.sbApply (m : Mach) (f : Fuses) (c : Fin 8) : SbEntry → Mach
  | .store a v =>
    match region a.toNat with
    | .mailbox => m.storeWord (portAddr c a.toNat) v
    | _ => (m.busWrite f (.core c) (portAddr c a.toNat) v).2
  | .fire s => m.fireSwt (Fin.ofNat 16 s) (m.now / 4 * 4) true
  | .raise v => m.raiseFault c v.toNat

/-- STORE_DRAIN: the head of core `c`'s store buffer takes effect, in the core's turn of a tick (R31, R223). -/
def Mach.drainOne (m : Mach) (f : Fuses) (c : Fin 8) : Mach :=
  match (m.core c).sb with
  | [] => m
  | e :: t =>
    let m := m.turn (c.val + 1)
    (m.setCore c { m.core c with sb := t }).sbApply f c e

/-- Drains up to `n` entries. -/
def Mach.drain (m : Mach) (f : Fuses) (c : Fin 8) : Nat → Mach
  | 0 => m
  | n + 1 => if (m.core c).sb = [] then m else (m.drainOne f c).drain f c n

/-- Core `c` still stands at the instruction that waits: no store of its own has halted or restarted it (R236, R239). -/
def Mach.stands (m : Mach) (c : Fin 8) (starts : Nat) : Bool := m.canRun c && (m.core c).starts = starts

/-- An access waits until every earlier store of the core has taken effect, and then issues in the next tick (R224, R279,
R299); a store that halts or restarts the core itself acts first, and the instruction then does not execute (R236, R239).
Log entry 14. -/
def Mach.drained (m : Mach) (f : Fuses) (c : Fin 8) (g : Mach → Mach) : Mach :=
  if (m.core c).sb = [] then g m
  else
    let n := (m.core c).starts
    let m := m.drain f c 4
    if m.stands c n then g (m.takeTurn c) else m

/-- An entry goes into the store buffer; a full buffer first loses its head (R232). -/
def Mach.enqueue (m : Mach) (f : Fuses) (c : Fin 8) (e : SbEntry) : Mach :=
  let put (m : Mach) : Mach := (m.setCore c { m.core c with sb := (m.core c).sb ++ [e] }).next c
  if (m.core c).sb.length < 4 then put m
  else
    let n := (m.core c).starts
    let m := m.drainOne f c
    if m.stands c n then put m else m

/-! ## Loads and stores (R260-R264, R319-R322) -/

/-- The first check that an access of `n` bytes fails: its halt cause, 0 when none (R200-R202, R261, R319). -/
def accessCause (ea n : Nat) : Nat :=
  if ea % n != 0 then 6
  else match region ea with
  | .unmapped => 7
  | .device => if n != 4 || !mapped (ea - 0x40000000) then 7 else 0
  | _ => 0

/-- The address checks of a load or store. -/
def Mach.checked (m : Mach) (c : Fin 8) (ea n : Nat) (g : Mach → Mach) : Mach :=
  if accessCause ea n = 0 then g m else m.haltAddr c (accessCause ea n) ea

/-- Reads `n` bytes of a core memory; an uncorrectable word halts the pair (R196, R263). -/
def Mach.readMem (m : Mach) (c : Fin 8) (ea n : Nat) (k : Nat → Mach → Mach) : Mach :=
  let a := portAddr c ea
  if m.isBad a then m.haltEcc c ea a else let m := m.touch a; k (m.load a n) m

/-- Reads `n` bytes of the line store: 0, and a class 5 fault, from an uncorrectable word (R321). -/
def Mach.readLine (m : Mach) (a n : Nat) : Nat × Mach :=
  let m := m.catchUp
  if m.isBad a then (0, m.eccFault a) else let m := m.touch a; (m.load a n, m)

/-- A load of `n` bytes; `ext` extends them (R260).  It waits for the core's stores in every region (R224); a core memory met
at its control-port address halts no pair and reads 0 from an uncorrectable word (R196, R202). Log entry 14. -/
def Mach.loadOp (m : Mach) (f : Fuses) (c : Fin 8) (rd ra : Rn) (imm : BitVec 18) (n : Nat) (ext : Nat → Word) : Mach :=
  m.issue c (fun m =>
    let ea := (m.ea c ra imm).toNat
    let fin (v : Nat) (m : Mach) : Mach := (m.setW c rd (ext v)).next c
    m.checked c ea n (fun m => m.drained f c (fun m =>
      match region ea with
      | .imem | .dmem | .mailbox => m.readMem c ea n fin
      | .line => let (v, m) := m.readLine (portAddr c ea) n; fin v m
      | _ => let (w, _, m) := m.busRead f (portAddr c ea); fin w.toNat m)))

/-- A store of `n` bytes to an own memory or a narrow one to the mailbox: a narrow one reads its word first (R263, R264).
Log entry 83. -/
def Mach.writeMem (m : Mach) (c : Fin 8) (ea n : Nat) (v : Word) : Mach :=
  let a := portAddr c ea
  if n = 4 then (m.storeWord a v).next c
  else if m.isBad a then m.haltEcc c ea a
  else ((m.touch a).storeN a n v.toNat).next c

/-- A store to the line store: dropped, with a class 5 fault, when its word is uncorrectable (R322). -/
def Mach.writeLine (m : Mach) (a n : Nat) (v : Word) : Mach :=
  let m := m.catchUp
  if m.isBad a then m.eccFault a else (m.touch a).storeN a n v.toNat

/-- A store of `n` bytes (R223, R260). Log entry 14. -/
def Mach.storeOp (m : Mach) (f : Fuses) (c : Fin 8) (rs ra : Rn) (imm : BitVec 18) (n : Nat) : Mach :=
  m.issue c (fun m =>
    let ea := (m.ea c ra imm).toNat
    let v := m.w c rs
    m.checked c ea n (fun m =>
      match region ea with
      | .imem | .dmem => m.writeMem c ea n v
      | .mailbox => if n = 4 then m.enqueue f c (.store (m.ea c ra imm) v) else m.drained f c (fun m => m.writeMem c ea n v)
      | .line => m.drained f c (fun m => (m.writeLine (portAddr c ea) n v).next c)
      | _ => m.enqueue f c (.store (m.ea c ra imm) v)))

/-- An atomic: `op` gives the word to write from the old one, `none` for no write (R301-R304). -/
def Mach.atomic (m : Mach) (f : Fuses) (c : Fin 8) (rd ra : Rn) (op : Mach → Word → Option Word) : Mach :=
  m.issue c (fun m =>
    let ea := (m.w c ra).toNat
    if ea % 4 != 0 then m.haltAddr c 6 ea
    else if region ea != .mailbox then m.haltAddr c 7 ea
    else m.drained f c (fun m => m.readMem c ea 4 (fun v m =>
      let t : Word := BitVec.ofNat 32 v
      let m := match op m t with
        | some x => m.storeWord (portAddr c ea) x
        | none => m
      (m.setW c rd t).next c)))

/-! ## Branches and jumps (R266-R270) -/

/-- A taken branch or jump goes to its target, after the link register is written for a call (R268, R270).  A target that is
both misaligned and outside IMEM gives 0x6 (log entry 92). -/
def Mach.jumpTo (m : Mach) (c : Fin 8) (t : Word) (link : Bool) : Mach :=
  if t.toNat % 4 != 0 then m.haltAddr c 6 t.toNat
  else if 0x8000 ≤ t.toNat then m.haltAddr c 7 t.toNat
  else
    let m := if link then m.setW c 15 ((m.core c).pc + 4) else m
    m.setPc c t

/-- A compare-and-branch to `t` of the PC. -/
def Mach.branch (m : Mach) (c : Fin 8) (cond : Mach → Bool) (t : Word → Word) : Mach :=
  m.issue c (fun m => if cond m then m.jumpTo c (t (m.core c).pc) false else m.next c)

/-- A jump or call to a target. -/
def Mach.jump (m : Mach) (c : Fin 8) (t : Mach → Word) (link : Bool) : Mach :=
  m.issue c (fun m => m.jumpTo c (t m) link)

/-! ## WAIT (R215-R219, R280-R286) -/

/-- WAIT: the lowest enabled pending line, or a wait with or without a deadline of N ticks. -/
def Mach.waitOp (m : Mach) (c : Fin 8) (rd : Rn) (dl : Option Rn) : Mach :=
  m.issue c (fun m =>
    let m := m.setCore c { m.core c with waitRd := rd.toNat }
    match m.readyLine c, dl with
    | some e, _ => (m.clearPend c (2 ^ e)).waitTake c e
    | none, none => (m.put (F.C_STAT_STATE c) 2).setCore c { m.core c with waitUntil := none }
    | none, some ra =>
      let n := (m.w c ra).toNat
      if n = 0 then (m.setW c rd 32).next c
      else (m.put (F.C_STAT_STATE c) 2).setCore c { m.core c with waitUntil := some ((m.now / 4 + n) * 4) })

/-- WAIT_DEADLINE (R282, R286); an enabled line that is pulsed in the same tick still wins (R283, `Mach.wake`). -/
def Mach.waitExpire (m : Mach) (c : Fin 8) : Mach :=
  if m.live && m.pairState c = 2 then
    match (m.core c).waitUntil with
    | none => m
    | some t =>
      let m := (m.runTo t).put (F.C_STAT_STATE c) 1
      let x := m.core c
      m.setCore c { x.writeW (Fin.ofNat 16 x.waitRd) 32 with
                      pc := x.pc + 4, waitUntil := none, lateAt := some (ceilDiv t 4 + 1) }
  else m

/-! ## The other device instructions -/

/-- SYS_TIME at the first beat of this tick (R298). -/
def Mach.tickTime (m : Mach) : Nat := m.sysTime.toNat / 4 * 4

/-- The second word of TIME (R298). -/
def Mach.timeHigh (m : Mach) : Word := BitVec.ofNat 32 (m.tickTime / 2 ^ 32 + 2 ^ 16 * m.wraps.toNat)

/-- POSEV's effect: the arm replaced, and 1 when it was waiting (R314-R316). -/
def Mach.posevArm (m : Mach) (a : Fin 2) (v : Word) : Word × Mach :=
  let x := m.axis a
  let was := bitOf x.posev.isSome
  if v = 0x80000000 then (was, m.setAxis a { x with posev := none })
  else (was, (m.setAxis a { x with posev := some v.toInt }).posevCheck a)

end Sys2Proof.Machine
end

