-- ==== Sys2Proof/Machine/BaseRows.lean ====
section
/-!
DEFINITION. The meanings of the base instructions (ch. 07).
-/
namespace Sys2Proof.Machine

/-! ## Integer, logic, shift, multiply and divide -/

/-- ADD: W[rd] = W[ra] + W[rb] (R253). -/
def execAdd (c : Fin 8) (rd ra rb : Rn) (s : State) : Host.Outcome State Fault Refusal :=
  s.run (fun m => m.alu c rd ra rb (fun a b => a + b))

/-- SUB (R253). -/
def execSub (c : Fin 8) (rd ra rb : Rn) (s : State) : Host.Outcome State Fault Refusal :=
  s.run (fun m => m.alu c rd ra rb (fun a b => a - b))

/-- AND (R253). -/
def execAnd (c : Fin 8) (rd ra rb : Rn) (s : State) : Host.Outcome State Fault Refusal :=
  s.run (fun m => m.alu c rd ra rb (fun a b => a &&& b))

/-- OR (R253). -/
def execOr (c : Fin 8) (rd ra rb : Rn) (s : State) : Host.Outcome State Fault Refusal :=
  s.run (fun m => m.alu c rd ra rb (fun a b => a ||| b))

/-- XOR (R253). -/
def execXor (c : Fin 8) (rd ra rb : Rn) (s : State) : Host.Outcome State Fault Refusal :=
  s.run (fun m => m.alu c rd ra rb (fun a b => a ^^^ b))

/-- ANDN (R253). -/
def execAndn (c : Fin 8) (rd ra rb : Rn) (s : State) : Host.Outcome State Fault Refusal :=
  s.run (fun m => m.alu c rd ra rb (fun a b => a &&& ~~~b))

/-- NOR (R253). -/
def execNor (c : Fin 8) (rd ra rb : Rn) (s : State) : Host.Outcome State Fault Refusal :=
  s.run (fun m => m.alu c rd ra rb (fun a b => ~~~(a ||| b)))

/-- SLL (R253). -/
def execSll (c : Fin 8) (rd ra rb : Rn) (s : State) : Host.Outcome State Fault Refusal :=
  s.run (fun m => m.alu c rd ra rb (fun a b => a <<< amt b))

/-- SRL (R253). -/
def execSrl (c : Fin 8) (rd ra rb : Rn) (s : State) : Host.Outcome State Fault Refusal :=
  s.run (fun m => m.alu c rd ra rb (fun a b => a >>> amt b))

/-- SRA (R253). -/
def execSra (c : Fin 8) (rd ra rb : Rn) (s : State) : Host.Outcome State Fault Refusal :=
  s.run (fun m => m.alu c rd ra rb (fun a b => a.sshiftRight (amt b)))

/-- SLT (R253). -/
def execSlt (c : Fin 8) (rd ra rb : Rn) (s : State) : Host.Outcome State Fault Refusal :=
  s.run (fun m => m.alu c rd ra rb (fun a b => bitOf (ltS a b)))

/-- SLTU (R253). -/
def execSltu (c : Fin 8) (rd ra rb : Rn) (s : State) : Host.Outcome State Fault Refusal :=
  s.run (fun m => m.alu c rd ra rb (fun a b => bitOf (ltU a b)))

/-- MIN: the signed minimum (R253). -/
def execMin (c : Fin 8) (rd ra rb : Rn) (s : State) : Host.Outcome State Fault Refusal :=
  s.run (fun m => m.alu c rd ra rb (fun a b => if ltS a b then a else b))

/-- MAX: the signed maximum (R253). -/
def execMax (c : Fin 8) (rd ra rb : Rn) (s : State) : Host.Outcome State Fault Refusal :=
  s.run (fun m => m.alu c rd ra rb (fun a b => if ltS a b then b else a))

/-- MINU (R253). -/
def execMinu (c : Fin 8) (rd ra rb : Rn) (s : State) : Host.Outcome State Fault Refusal :=
  s.run (fun m => m.alu c rd ra rb (fun a b => if ltU a b then a else b))

/-- MAXU (R253). -/
def execMaxu (c : Fin 8) (rd ra rb : Rn) (s : State) : Host.Outcome State Fault Refusal :=
  s.run (fun m => m.alu c rd ra rb (fun a b => if ltU a b then b else a))

/-- MUL: the low word of the product (R256). -/
def execMul (c : Fin 8) (rd ra rb : Rn) (s : State) : Host.Outcome State Fault Refusal :=
  s.run (fun m => m.alu c rd ra rb (fun a b => a * b))

/-- MULH (R256). -/
def execMulh (c : Fin 8) (rd ra rb : Rn) (s : State) : Host.Outcome State Fault Refusal :=
  s.run (fun m => m.alu c rd ra rb (fun a b => mulHigh a b))

/-- MULHU (R256). -/
def execMulhu (c : Fin 8) (rd ra rb : Rn) (s : State) : Host.Outcome State Fault Refusal :=
  s.run (fun m => m.alu c rd ra rb (fun a b => mulHighU a b))

/-- DIV (R257, R258). -/
def execDiv (c : Fin 8) (rd ra rb : Rn) (s : State) : Host.Outcome State Fault Refusal :=
  s.run (fun m => m.alu c rd ra rb (fun a b => divS a b))

/-- DIVU (R257, R258). -/
def execDivu (c : Fin 8) (rd ra rb : Rn) (s : State) : Host.Outcome State Fault Refusal :=
  s.run (fun m => m.alu c rd ra rb (fun a b => divU a b))

/-- REM (R257, R258). -/
def execRem (c : Fin 8) (rd ra rb : Rn) (s : State) : Host.Outcome State Fault Refusal :=
  s.run (fun m => m.alu c rd ra rb (fun a b => remS a b))

/-- REMU (R257, R258). -/
def execRemu (c : Fin 8) (rd ra rb : Rn) (s : State) : Host.Outcome State Fault Refusal :=
  s.run (fun m => m.alu c rd ra rb (fun a b => remU a b))

/-- ADDI (R253). -/
def execAddi (c : Fin 8) (rd ra : Rn) (imm : BitVec 18) (s : State) : Host.Outcome State Fault Refusal :=
  s.run (fun m => m.alui c rd ra (sx18 imm) (fun a b => a + b))

/-- SLTI (R253). -/
def execSlti (c : Fin 8) (rd ra : Rn) (imm : BitVec 18) (s : State) : Host.Outcome State Fault Refusal :=
  s.run (fun m => m.alui c rd ra (sx18 imm) (fun a b => bitOf (ltS a b)))

/-- SLTIU (R253). -/
def execSltiu (c : Fin 8) (rd ra : Rn) (imm : BitVec 18) (s : State) : Host.Outcome State Fault Refusal :=
  s.run (fun m => m.alui c rd ra (sx18 imm) (fun a b => bitOf (ltU a b)))

/-- ANDI (R253). -/
def execAndi (c : Fin 8) (rd ra : Rn) (imm : BitVec 18) (s : State) : Host.Outcome State Fault Refusal :=
  s.run (fun m => m.alui c rd ra (zx18 imm) (fun a b => a &&& b))

/-- ORI (R253). -/
def execOri (c : Fin 8) (rd ra : Rn) (imm : BitVec 18) (s : State) : Host.Outcome State Fault Refusal :=
  s.run (fun m => m.alui c rd ra (zx18 imm) (fun a b => a ||| b))

/-- XORI (R253). -/
def execXori (c : Fin 8) (rd ra : Rn) (imm : BitVec 18) (s : State) : Host.Outcome State Fault Refusal :=
  s.run (fun m => m.alui c rd ra (zx18 imm) (fun a b => a ^^^ b))

/-- LUI (R253). -/
def execLui (c : Fin 8) (rd : Rn) (imm : BitVec 16) (s : State) : Host.Outcome State Fault Refusal :=
  s.run (fun m => m.compute c rd (fun _ => imm ++ (0 : BitVec 16)))

/-- SLLI (R254). -/
def execSlli (c : Fin 8) (rd ra : Rn) (sh : BitVec 5) (s : State) : Host.Outcome State Fault Refusal :=
  s.run (fun m => m.alui c rd ra 0 (fun a _ => a <<< sh.toNat))

/-- SRLI (R254). -/
def execSrli (c : Fin 8) (rd ra : Rn) (sh : BitVec 5) (s : State) : Host.Outcome State Fault Refusal :=
  s.run (fun m => m.alui c rd ra 0 (fun a _ => a >>> sh.toNat))

/-- SRAI (R254). -/
def execSrai (c : Fin 8) (rd ra : Rn) (sh : BitVec 5) (s : State) : Host.Outcome State Fault Refusal :=
  s.run (fun m => m.alui c rd ra 0 (fun a _ => a.sshiftRight sh.toNat))

/-- EXTU (R254). -/
def execExtu (c : Fin 8) (rd ra : Rn) (w1 pos : BitVec 5) (s : State) : Host.Outcome State Fault Refusal :=
  s.run (fun m => m.field c rd w1 pos (fun m => (m.w c ra >>> pos.toNat) &&& fmask w1))

/-- EXTS (R254). -/
def execExts (c : Fin 8) (rd ra : Rn) (w1 pos : BitVec 5) (s : State) : Host.Outcome State Fault Refusal :=
  s.run (fun m => m.field c rd w1 pos (fun m =>
    BitVec.ofNat 32 (wrapInt 32 (sext (w1.toNat + 1) ((m.w c ra >>> pos.toNat) &&& fmask w1).toNat))))

/-- INS (R254, R255). -/
def execIns (c : Fin 8) (rd ra : Rn) (w1 pos : BitVec 5) (s : State) : Host.Outcome State Fault Refusal :=
  s.run (fun m => m.field c rd w1 pos (fun m =>
    let k := fmask w1 <<< pos.toNat
    (m.w c rd &&& ~~~k) ||| ((m.w c ra <<< pos.toNat) &&& k)))

/-! ## Loads and stores -/

/-- LDB (R260-R263). -/
def execLdb (c : Fin 8) (rd ra : Rn) (imm : BitVec 18) (s : State) : Host.Outcome State Fault Refusal :=
  s.runF (fun f m => m.loadOp f c rd ra imm 1 (extS 1))

/-- LDBU (R260-R263). -/
def execLdbu (c : Fin 8) (rd ra : Rn) (imm : BitVec 18) (s : State) : Host.Outcome State Fault Refusal :=
  s.runF (fun f m => m.loadOp f c rd ra imm 1 (extU 1))

/-- LDH (R260-R263). -/
def execLdh (c : Fin 8) (rd ra : Rn) (imm : BitVec 18) (s : State) : Host.Outcome State Fault Refusal :=
  s.runF (fun f m => m.loadOp f c rd ra imm 2 (extS 2))

/-- LDHU (R260-R263). -/
def execLdhu (c : Fin 8) (rd ra : Rn) (imm : BitVec 18) (s : State) : Host.Outcome State Fault Refusal :=
  s.runF (fun f m => m.loadOp f c rd ra imm 2 (extU 2))

/-- LDW (R260-R263). -/
def execLdw (c : Fin 8) (rd ra : Rn) (imm : BitVec 18) (s : State) : Host.Outcome State Fault Refusal :=
  s.runF (fun f m => m.loadOp f c rd ra imm 4 (extU 4))

/-- STB (R260-R264). -/
def execStb (c : Fin 8) (rs ra : Rn) (imm : BitVec 18) (s : State) : Host.Outcome State Fault Refusal :=
  s.runF (fun f m => m.storeOp f c rs ra imm 1)

/-- STH (R260-R264). -/
def execSth (c : Fin 8) (rs ra : Rn) (imm : BitVec 18) (s : State) : Host.Outcome State Fault Refusal :=
  s.runF (fun f m => m.storeOp f c rs ra imm 2)

/-- STW (R260-R264). -/
def execStw (c : Fin 8) (rs ra : Rn) (imm : BitVec 18) (s : State) : Host.Outcome State Fault Refusal :=
  s.runF (fun f m => m.storeOp f c rs ra imm 4)

/-! ## Branches, jumps and calls -/

/-- BEQ (R245, R266, R269, R270). -/
def execBeq (c : Fin 8) (ra rb : Rn) (off : BitVec 18) (s : State) : Host.Outcome State Fault Refusal :=
  s.run (fun m => m.branch c (fun m => (m.w c ra) == m.w c rb) (fun pc => target18 pc off))

/-- BNE (R245, R266, R269, R270). -/
def execBne (c : Fin 8) (ra rb : Rn) (off : BitVec 18) (s : State) : Host.Outcome State Fault Refusal :=
  s.run (fun m => m.branch c (fun m => (m.w c ra) != m.w c rb) (fun pc => target18 pc off))

/-- BLT (R245, R266, R269, R270). -/
def execBlt (c : Fin 8) (ra rb : Rn) (off : BitVec 18) (s : State) : Host.Outcome State Fault Refusal :=
  s.run (fun m => m.branch c (fun m => ltS (m.w c ra) (m.w c rb)) (fun pc => target18 pc off))

/-- BGE (R245, R266, R269, R270). -/
def execBge (c : Fin 8) (ra rb : Rn) (off : BitVec 18) (s : State) : Host.Outcome State Fault Refusal :=
  s.run (fun m => m.branch c (fun m => !ltS (m.w c ra) (m.w c rb)) (fun pc => target18 pc off))

/-- BLTU (R245, R266, R269, R270). -/
def execBltu (c : Fin 8) (ra rb : Rn) (off : BitVec 18) (s : State) : Host.Outcome State Fault Refusal :=
  s.run (fun m => m.branch c (fun m => ltU (m.w c ra) (m.w c rb)) (fun pc => target18 pc off))

/-- BGEU (R245, R266, R269, R270). -/
def execBgeu (c : Fin 8) (ra rb : Rn) (off : BitVec 18) (s : State) : Host.Outcome State Fault Refusal :=
  s.run (fun m => m.branch c (fun m => !ltU (m.w c ra) (m.w c rb)) (fun pc => target18 pc off))

/-- BEQI (R245, R267, R269, R270). -/
def execBeqi (c : Fin 8) (ra : Rn) (imm : BitVec 8) (off : BitVec 14) (s : State) : Host.Outcome State Fault Refusal :=
  s.run (fun m => m.branch c (fun m => (m.w c ra) == sx8 imm) (fun pc => target14 pc off))

/-- BNEI (R245, R267, R269, R270). -/
def execBnei (c : Fin 8) (ra : Rn) (imm : BitVec 8) (off : BitVec 14) (s : State) : Host.Outcome State Fault Refusal :=
  s.run (fun m => m.branch c (fun m => (m.w c ra) != sx8 imm) (fun pc => target14 pc off))

/-- BLTI (R245, R267, R269, R270). -/
def execBlti (c : Fin 8) (ra : Rn) (imm : BitVec 8) (off : BitVec 14) (s : State) : Host.Outcome State Fault Refusal :=
  s.run (fun m => m.branch c (fun m => ltS (m.w c ra) (sx8 imm)) (fun pc => target14 pc off))

/-- BGEI (R245, R267, R269, R270). -/
def execBgei (c : Fin 8) (ra : Rn) (imm : BitVec 8) (off : BitVec 14) (s : State) : Host.Outcome State Fault Refusal :=
  s.run (fun m => m.branch c (fun m => !ltS (m.w c ra) (sx8 imm)) (fun pc => target14 pc off))

/-- BLTUI (R245, R267, R269, R270). -/
def execBltui (c : Fin 8) (ra : Rn) (imm : BitVec 8) (off : BitVec 14) (s : State) : Host.Outcome State Fault Refusal :=
  s.run (fun m => m.branch c (fun m => ltU (m.w c ra) (zx8 imm)) (fun pc => target14 pc off))

/-- BGEUI (R245, R267, R269, R270). -/
def execBgeui (c : Fin 8) (ra : Rn) (imm : BitVec 8) (off : BitVec 14) (s : State) : Host.Outcome State Fault Refusal :=
  s.run (fun m => m.branch c (fun m => !ltU (m.w c ra) (zx8 imm)) (fun pc => target14 pc off))

/-- JMP (R268, R270). -/
def execJmp (c : Fin 8) (off : BitVec 26) (s : State) : Host.Outcome State Fault Refusal :=
  s.run (fun m => m.jump c (fun m => target26 (m.core c).pc off) false)

/-- CALL (R268, R270). -/
def execCall (c : Fin 8) (off : BitVec 26) (s : State) : Host.Outcome State Fault Refusal :=
  s.run (fun m => m.jump c (fun m => target26 (m.core c).pc off) true)

/-- JR (R268, R270). -/
def execJr (c : Fin 8) (ra : Rn) (s : State) : Host.Outcome State Fault Refusal := s.run (fun m => m.jump c (fun m => m.w c ra) false)

/-- CALLR: the target is read before W15 is written (R268, R270). -/
def execCallr (c : Fin 8) (ra : Rn) (s : State) : Host.Outcome State Fault Refusal := s.run (fun m => m.jump c (fun m => m.w c ra) true)

end Sys2Proof.Machine
end

