-- ==== Sys2Proof/Machine/BcRows.lean ====
section
/-!
DEFINITION. The meanings of the band coding rows (ch. 18).
-/
namespace Sys2Proof.Machine

/-- A row of the codec: the line store is brought up to date and commits that are due are applied first. -/
def State.bcRow (s : State) (f : Mach → Mach) : Host.Outcome State Fault Refusal :=
  s.run (fun m => m.ifLive (fun m => f m.catchUp.bcCommits))

/-- BC_KEYREQ (R729). -/
def execBcKeyreq (v : Word) (s : State) : Host.Outcome State Fault Refusal :=
  s.run (fun m => m.writeCmd F.BC_KEYREQ_reg (fun m => m.bcKeyreq (v.toNat % 65536)))

/-- BC_CTX_EN (R721, R732, R739). -/
def execBcCtxEn (c : Fin 16) (on : Bool) (s : State) : Host.Outcome State Fault Refusal :=
  s.run (fun m => m.writeCmd (F.BC_CTX_CTL_reg c) (fun m => m.bcCommits.bcCtxEn c on))

/-- BC_CTX_RESTART (R739, R746). -/
def execBcCtxRestart (c : Fin 16) (s : State) : Host.Outcome State Fault Refusal :=
  s.run (fun m => m.writeCmd (F.BC_CTX_CTL_reg c) (fun m => m.bcRestart c))

/-- BC_CTX_WP_WRITE (R738). -/
def execBcCtxWpWrite (c : Fin 16) (v : Word) (s : State) : Host.Outcome State Fault Refusal :=
  s.run (fun m => m.writeCmd (F.BC_CTX_WP_reg c) (fun m => m.bcWp c v.toNat))

/-- BC_ENCODE_PICTURE_START (R722, R723, R730). -/
def execBcEncodePictureStart (s : State) : Host.Outcome State Fault Refusal := s.bcRow (fun m => m.encStart)

/-- BC_DECODE_PICTURE_START (R722, R723). -/
def execBcDecodePictureStart (s : State) : Host.Outcome State Fault Refusal := s.bcRow (fun m => m.decStart)

/-- BC_SELF_CHECK; while ARMED reads 1 a failed check is a class 11 fault, and every encode context owes a key picture
(R730 cause 6, R737). -/
def Mach.checkRow (m : Mach) : Mach :=
  match m.selfCheck with
  | (some c, m) =>
    if m.armed then
      m.each allCtx (fun k m => if m.bcDec k then m else m.keyCause k 6) |>.detect (0x0B00 + c)
    else m
  | (none, m) => m

/-- The checks of earlier pictures are done before their reference goes (R736). -/
def Mach.checkAll (m : Mach) : Mach := m.each m.bc.checks (fun _ m => m.checkRow)

/-- BC_PICTURE_DONE: of the encode engine, with the macroblock bits that it chose for each row, or of the decode engine
(R724-R732, R738-R746). -/
def execBcPictureDone (coded : Option (List (List Bool))) (s : State) : Host.Outcome State Fault Refusal :=
  s.bcRow (fun m =>
    match coded with
    | some rows => m.checkAll.encDone rows
    | none => m.decDone)

/-- BC_OUTPUT_RESUME (R733). -/
def execBcOutputResume (s : State) : Host.Outcome State Fault Refusal := s.bcRow (fun m => m.encResume)

/-- BC_SELF_CHECK (R735-R737). -/
def execBcSelfCheck (s : State) : Host.Outcome State Fault Refusal := s.bcRow (fun m => m.checkRow)

/-- BC_CHECK_TIMER (R735). -/
def execBcCheckTimer (s : State) : Host.Outcome State Fault Refusal := s.bcRow (fun m => m.checkTimer)

/-- BC_CAP_WINDOW (R734). -/
def execBcCapWindow (s : State) : Host.Outcome State Fault Refusal := s.bcRow (fun m => m.capWindow)

end Sys2Proof.Machine
end

