-- ==== Sys2Proof/Machine/BootRows.lean ====
section
/-!
DEFINITION. The meanings of the boot and fuse rows (ch. 05).
-/
namespace Sys2Proof.Machine

/-- BOOT_READY (R149): `beats` is how long the pass took. -/
def execBootReady (beats : Nat) (s : State) : Host.Outcome State Fault Refusal :=
  s.runF (fun f m => m.ifRom (fun m => m.bootReady f beats))

/-- BOOT_WIN_WRITE (R158-R162, R167, R168). -/
def execBootWinWrite (v : Word) (s : State) : Host.Outcome State Fault Refusal :=
  s.runF (fun f m => m.ifLive (fun m => (m.turn 0).bootWord f 0 v))

/-- BOOT_CAL_START (R177, R180). -/
def execBootCalStart (s : State) : Host.Outcome State Fault Refusal := s.run (fun m => m.ifRom (fun m => m.bootCal))

/-- SIG_CHECK_DONE (R157, R170). -/
def execSigCheckDone (s : State) : Host.Outcome State Fault Refusal := s.run (fun m => m.ifRom (fun m => m.sigDone))

/-- BIST_DONE (R178). -/
def execBistDone (pass : Bool) (beats : Nat) (s : State) : Host.Outcome State Fault Refusal :=
  s.run (fun m => m.ifRom (fun m => m.bistDone pass beats))

/-- BOOT_HANDOFF (R182-R186). -/
def execBootHandoff (s : State) : Host.Outcome State Fault Refusal := s.run (fun m => m.ifRom (fun m => m.handoff))

/-- BOOT_LOAD_TIMEOUT (R163). -/
def execBootLoadTimeout (s : State) : Host.Outcome State Fault Refusal := s.run (fun m => m.ifRom (fun m => m.loadTimeout))

/-- LANE_BOOT_DETECT (R164, R165). -/
def execLaneBootDetect (s : State) : Host.Outcome State Fault Refusal := s.run (fun m => m.ifRom (fun m => m.laneDetect))

/-- LANE_BOOT_TIMEOUT (R166). -/
def execLaneBootTimeout (s : State) : Host.Outcome State Fault Refusal := s.run (fun m => m.ifRom (fun m => m.laneTimeout))

/-- LANE_BOOT_REARM (R166). -/
def execLaneBootRearm (s : State) : Host.Outcome State Fault Refusal := s.runF (fun f m => m.ifRom (fun m => m.laneRearm f))

/-- BOOT_RESTART (R185, R188). -/
def execBootRestart (s : State) : Host.Outcome State Fault Refusal := s.run (fun m => m.ifLive (fun m => m.atTick.bootRestart))

/-- FUSE_ARM (R173, R175). -/
def execFuseArm (s : State) : Host.Outcome State Fault Refusal := s.run (fun m => m.ifLive (fun m => m.atTick.fuseArm))

/-- FUSE_BIT (R173-R175): `io33` says that VDDIO33 is within its recommended range. -/
def execFuseBit (bit : BitVec 9) (io33 : Bool) (s : State) : Host.Outcome State Fault Refusal :=
  s.run (fun m => m.ifLive (fun m => ({ m.atTick with pwr := { m.pwr with io33 := io33 } }).fuseBit bit.toNat))

/-- FUSE_BLOW_DONE (R173): it completes even when a warm reset has asserted. -/
def execFuseBlowDone (s : State) : Host.Outcome State Fault Refusal :=
  .next { s with fuses := (match s.m.fuseDone.1 with | some b => s.fuses ||| (1#259) <<< b | none => s.fuses),
                 m := s.m.fuseDone.2 }

end Sys2Proof.Machine
end

