-- ==== Sys2Proof/Machine/CoreRows.lean ====
section
/-!
DEFINITION. The meanings of the core, event, mailbox and commit rows (ch. 06).
-/
namespace Sys2Proof.Machine

/-- CMD_HALT (R207, R236, R240). -/
def execCmdHalt (c : Fin 8) (s : State) : Host.Outcome State Fault Refusal := s.run (fun m => m.ifLive (fun m => m.atTick.cmdHalt c))

/-- CMD_RESUME (R238, R240). -/
def execCmdResume (c : Fin 8) (s : State) : Host.Outcome State Fault Refusal := s.run (fun m => m.ifLive (fun m => m.atTick.cmdResume c))

/-- CMD_PAIRRST (R239, R240). -/
def execCmdPairrst (c : Fin 8) (s : State) : Host.Outcome State Fault Refusal :=
  s.run (fun m => m.ifLive (fun m => m.atTick.cmdPairrst c))

/-- The event lines that are wired (R209). -/
def wired (c e : Nat) : Bool := e = 31 || (c < 6 && e < 12) || (c = 6 && e < 13) || (c = 7 && e < 18)

/-- EVENT_PULSE (R209, R210, R213, R216): a reserved line never pulses. -/
def execEventPulse (c : Fin 8) (line : Fin 32) (s : State) : Host.Outcome State Fault Refusal :=
  s.run (fun m => m.ifLive (fun m => if wired c line then m.pulse c line else m))

/-- EVT_EN_WRITE (R217). -/
def execEvtEnWrite (c : Fin 8) (v : Word) (s : State) : Host.Outcome State Fault Refusal :=
  s.run (fun m => m.ifLive (fun m => m.atTick.evtEn c v))

/-- DOORBELL (R222). -/
def execDoorbell (c : Fin 8) (ringer : Agent) (s : State) : Host.Outcome State Fault Refusal :=
  s.run (fun m => m.ifLive (fun m => (m.turn (agentRank ringer)).doorbell c (match ringer with | .port => 8 | .core k => k.val)))

/-- COMMIT_GO (R228, R230). -/
def execCommitGo (r : CommitReg) (s : State) : Host.Outcome State Fault Refusal :=
  s.run (fun m => m.ifLive (fun m => m.atTick.commitGo (commitAddr r)))

/-- COMMIT_APPLY (R228, R231): at the next boundary of the block, where the snapshot may be applied there. -/
def execCommitApply (r : CommitReg) (s : State) : Host.Outcome State Fault Refusal :=
  s.run (fun m => m.ifLive (fun m =>
    match r with
    | .head h => m.headCommitIdle h
    | .axis a =>
      match m.commitTick (axisCommit a) with
      | none => m
      | some t =>
        let m := m.runTo (nextGrid 3000 (max (t + 4) m.now))
        if m.axisCommitOk a then m.axisApply a else m
    | .ctx c => m.bcApply c))

/-- STORE_DRAIN (R223, R235): a halted pair's stores take effect as well. -/
def execStoreDrain (c : Fin 8) (s : State) : Host.Outcome State Fault Refusal :=
  s.runF (fun f m => m.ifLive (fun m => m.drainOne f c))

/-- CORE_SCRUB (R197, R925) of the core-memory word at control-port address `addr`. -/
def execCoreScrub (addr : Nat) (found : Scrub) (pass : Option Nat) (s : State) : Host.Outcome State Fault Refusal :=
  s.run (fun m => m.ifLive (fun m => m.scrubCore addr found pass))

/-- LOCKSTEP_MISMATCH (R193, R234). -/
def execLockstepMismatch (c : Fin 8) (s : State) : Host.Outcome State Fault Refusal :=
  s.run (fun m => m.ifLive (fun m => m.lockstep c false))

/-- ILLEGAL_INSTRUCTION (R246-R248): `w` is the word that reaches execution. -/
def execIllegalInstruction (c : Fin 8) (w : Word) (s : State) : Host.Outcome State Fault Refusal :=
  s.run (fun m => m.issue c (fun m => if (decodeWord c w).isSome then m else m.haltFault c 5))

/-- FETCH_FAULT (R201, R271, R272): only the fetch checks act. -/
def execFetchFault (c : Fin 8) (s : State) : Host.Outcome State Fault Refusal := s.run (fun m => m.issue c (fun m => m))

end Sys2Proof.Machine
end

