-- ==== Sys2Proof/Machine/DeviceRows.lean ====
section
/-!
DEFINITION. The meanings of the device instructions (ch. 08).
-/
namespace Sys2Proof.Machine

/-- HALT (R235, R300). -/
def execHalt (c : Fin 8) (s : State) : Host.Outcome State Fault Refusal := s.run (fun m => m.issue c (fun m => (m.next c).halt c 2))

/-- TIME; the word is illegal when rb is rd (R277, R298). -/
def execTime (c : Fin 8) (rd rb : Rn) (s : State) : Host.Outcome State Fault Refusal :=
  s.run (fun m => m.issueIf c (rb != rd) (fun m =>
    ((m.setW c rd (BitVec.ofNat 32 m.tickTime)).setW c rb m.timeHigh).next c))

/-- FENCE (R299). -/
def execFence (c : Fin 8) (s : State) : Host.Outcome State Fault Refusal := s.runF (fun f m => m.issue c (fun m => m.drained f c (fun m => m.next c)))

/-- RAISE: W[ra] is read as it issues (R292). -/
def execRaise (c : Fin 8) (ra : Rn) (s : State) : Host.Outcome State Fault Refusal :=
  s.runF (fun f m => m.issue c (fun m => m.enqueue f c (.raise (m.w c ra))))

/-- WAIT (R215-R219, R280, R281, R285). -/
def execWait (c : Fin 8) (rd : Rn) (deadline : Option Rn) (s : State) : Host.Outcome State Fault Refusal := s.run (fun m => m.waitOp c rd deadline)

/-- WAIT_DEADLINE (R282, R286). -/
def execWaitDeadline (c : Fin 8) (s : State) : Host.Outcome State Fault Refusal := s.run (fun m => m.waitExpire c)

/-- Core address of the commit register that k names (R289). -/
def commitPlace (k : Nat) : Word :=
  BitVec.ofNat 32 (0x40000000 +
    (if k < 6 then headCommit (Fin.ofNat 6 k) else if k < 16 then axisCommit (Fin.ofNat 2 k) else bcCommit (Fin.ofNat 16 k)))

/-- COMMIT: the effect of an STW of 1 to the register; the word is illegal for any other k (R287, R289). -/
def execCommit (c : Fin 8) (k : BitVec 18) (s : State) : Host.Outcome State Fault Refusal :=
  s.runF (fun f m => m.issueIf c (commitK k.toNat) (fun m => m.enqueue f c (.store (commitPlace k.toNat) 1)))

/-- FIRE; the word is illegal for s above 15 (R278, R290). -/
def execFire (c : Fin 8) (t : BitVec 18) (s : State) : Host.Outcome State Fault Refusal :=
  s.runF (fun f m => m.issueIf c (decide (t.toNat < 16)) (fun m => m.enqueue f c (.fire t.toNat)))

/-- POSEV, legal on C6 only (R313-R316). -/
def execPosev (c : Fin 8) (rd ra : Rn) (a : Fin 2) (s : State) : Host.Outcome State Fault Refusal :=
  s.runF (fun f m => m.issueIf c (c == 6) (fun m => m.drained f c (fun m =>
    let (was, m) := m.posevArm a (m.w c ra)
    (m.setW c rd was).next c)))

/-- STEPRD, legal on C6 only and with rb other than rd (R277, R313, R317). -/
def execSteprd (c : Fin 8) (rd rb : Rn) (a : Fin 2) (s : State) : Host.Outcome State Fault Refusal :=
  s.runF (fun f m => m.issueIf c (c == 6 && rb != rd) (fun m => m.drained f c (fun m =>
    ((m.setW c rd (BitVec.ofNat 32 (wrapInt 32 (m.axis a).c))).setW c rb (BitVec.ofNat 32 (wrapInt 32 (m.obs a)))).next c)))

/-- LNRD, legal on C6 only (R313, R318). -/
def execLnrd (c : Fin 8) (rd : Rn) (a : Fin 2) (s : State) : Host.Outcome State Fault Refusal :=
  s.runF (fun f m => m.issueIf c (c == 6) (fun m => m.drained f c (fun m =>
    (m.setW c rd (BitVec.ofNat 32 (m.lnext a))).next c)))

/-- EMIT (R305-R311). -/
def execEmit (c : Fin 8) (rd ra rb : Rn) (s : State) : Host.Outcome State Fault Refusal :=
  s.runF (fun f m => m.issue c (fun m => m.drained f c (fun m =>
    let (st, m) := m.emit c (m.w c ra).toNat (m.w c rb).toNat
    (m.setW c rd (BitVec.ofNat 32 st)).next c)))

/-- SWAP (R301-R304). -/
def execSwap (c : Fin 8) (rd ra rb : Rn) (s : State) : Host.Outcome State Fault Refusal :=
  s.runF (fun f m => m.atomic f c rd ra (fun m _ => some (m.w c rb)))

/-- CAS (R301-R304). -/
def execCas (c : Fin 8) (rd ra rb : Rn) (s : State) : Host.Outcome State Fault Refusal :=
  s.runF (fun f m => m.atomic f c rd ra (fun m t => if t = m.w c rb then some (m.w c rd) else none))

/-- FADD (R301-R304). -/
def execFadd (c : Fin 8) (rd ra rb : Rn) (s : State) : Host.Outcome State Fault Refusal :=
  s.runF (fun f m => m.atomic f c rd ra (fun m t => some (t + m.w c rb)))

/-- FAND (R301-R304). -/
def execFand (c : Fin 8) (rd ra rb : Rn) (s : State) : Host.Outcome State Fault Refusal :=
  s.runF (fun f m => m.atomic f c rd ra (fun m t => some (t &&& m.w c rb)))

/-- FOR (R301-R304). -/
def execFor (c : Fin 8) (rd ra rb : Rn) (s : State) : Host.Outcome State Fault Refusal :=
  s.runF (fun f m => m.atomic f c rd ra (fun m t => some (t ||| m.w c rb)))

/-- FXOR (R301-R304). -/
def execFxor (c : Fin 8) (rd ra rb : Rn) (s : State) : Host.Outcome State Fault Refusal :=
  s.runF (fun f m => m.atomic f c rd ra (fun m t => some (t ^^^ m.w c rb)))

end Sys2Proof.Machine
end

