-- ==== Sys2Proof/Machine/HalRows.lean ====
section
/-!
DEFINITION. The meanings of the motion and rate-reduction rows (ch. 15 and 16).
-/
namespace Sys2Proof.Machine

/-- One axis at an MI boundary; a detection of R623 that stops it is a class 10 fault (R589, R623, R625). -/
def Mach.axisTurn (m : Mach) (a : Fin 2) (j : Jerk) : Mach :=
  let found := m.bookFaults a
  let (bad, m) := m.axisMi a j
  if bad then m.each found (fun k m => m.detect (0x0A00 + 16 * a + k)) else m

/-- What falls at the next MI boundary, in this order: the fields of the last Bowline frame act, the axes integrate, Reef
evaluates, the window of R734 sees the backlogs, and a Bowline master sends its frame (R588-R600, R638, R890, R904).
Log entry 30. -/
def Mach.motionInterval (m : Mach) (j0 j1 : Jerk) : Mach :=
  let m := (m.runTo m.miDue).bwlAct
  let m := (m.axisTurn 0 j0).axisTurn 1 j1
  let (starved, m) := m.starveTake
  (m.reefEval starved).capSample.bwlSend

/-- MOTION_INTERVAL: `j0` and `j1` are the planner's jerk for each axis (R589, R597). -/
def execMotionInterval (j0 j1 : Jerk) (s : State) : Host.Outcome State Fault Refusal :=
  s.run (fun m => m.ifLive (fun m => m.motionInterval j0 j1))

/-- STEP_PULSE (R585-R587). -/
def execStepPulse (a : Fin 2) (s : State) : Host.Outcome State Fault Refusal :=
  s.run (fun m => m.ifLive (fun m =>
    let n := m.auxUpTo.stepPulse a
    if (m.axis a).due.isEmpty then n else n.stepBlank a))

/-- HAL_LINE_TRIGGER (R604, R605). -/
def execHalLineTrigger (h : Fin 6) (s : State) : Host.Outcome State Fault Refusal := s.run (fun m => m.ifLive (fun m => m.halLine h))

/-- HAL_STOPNOW (R632). -/
def execHalStopnow (a : Fin 2) (s : State) : Host.Outcome State Fault Refusal :=
  s.run (fun m => m.writeCmd (F.HAL_AX_CTL_reg a) (fun m => (m.ctlTouch a).halStopnow a))

/-- HAL_HOLD (R631). -/
def execHalHold (a : Fin 2) (on : Bool) (s : State) : Host.Outcome State Fault Refusal :=
  s.run (fun m => m.writeCmd (F.HAL_AX_CTL_reg a) (fun m => (m.ctlTouch a).halHold a on))

/-- HAL_EN (R595, R633, R634). -/
def execHalEn (a : Fin 2) (on : Bool) (s : State) : Host.Outcome State Fault Refusal :=
  s.run (fun m => m.writeCmd (F.HAL_AX_CTL_reg a) (fun m => (m.ctlTouch a).halEn a on))

/-- HAL_MEN_DIR_WRITE (R138). -/
def execHalMenDirWrite (a : Fin 2) (men dir : Bool) (s : State) : Host.Outcome State Fault Refusal :=
  s.run (fun m => m.writeCmd (F.HAL_AX_CTL_reg a) (fun m => m.menDir a men dir))

/-- HAL_POSSET (R635). -/
def execHalPosset (a : Fin 2) (v : Word) (s : State) : Host.Outcome State Fault Refusal :=
  s.run (fun m => m.writeCmd (F.HAL_AX_POSSET_reg a) (fun m => m.halPosset a (sext 32 v.toNat)))

/-- HAL_HEAD_WRITE: a write of HAL_HEAD{n}, or of HAL_PH{n} (R601). -/
def execHalHeadWrite (h : Fin 6) (phase : Bool) (v : Word) (s : State) : Host.Outcome State Fault Refusal :=
  s.run (fun m => m.writeCmd (F.HAL_HEAD_reg h) (fun m =>
    if phase then m.halPhWrite h v.toNat else m.halHeadWrite h (bits v.toNat 31 31) (v.toNat % 2)))

/-- ENCODER_COUNT: `held` is how many beats the new levels have held (R620). -/
def execEncoderCount (a : Fin 2) (q : QuadStep) (s : State) : Host.Outcome State Fault Refusal :=
  s.run (fun m => m.ifLive (fun m => m.encoderCount a q.quad q.held))

/-- ENCODER_INDEX: `held` is how many beats the index has been high (R622). -/
def execEncoderIndex (i : IndexEdge) (s : State) : Host.Outcome State Fault Refusal :=
  s.run (fun m => m.ifLive (fun m => m.encoderIndex i.axis i.held))

/-- MFLT_FAULT (R628). -/
def execMfltFault (a : Fin 2) (s : State) : Host.Outcome State Fault Refusal := s.run (fun m => m.ifLive (fun m => m.mflt a))

/-- REEF_CLRCNT (R651). -/
def execReefClrcnt (s : State) : Host.Outcome State Fault Refusal :=
  s.run (fun m => m.writeCmd F.REEF_CTL_reg (fun m => m.reefClrcnt))

end Sys2Proof.Machine
end

