-- ==== Sys2Proof/Machine/IllRows.lean ====
section
/-!
DEFINITION. The meanings of the illumination rows (ch. 12).
-/
namespace Sys2Proof.Machine

/-- EXPOSURE_START: `low` says that the boost is more than 2 % below its target (R440, R441, R450). -/
def execExposureStart (h : Fin 6) (f : Nat) (low : Bool) (s : State) : Host.Outcome State Fault Refusal :=
  s.run (fun m => m.ifLive (fun m => m.exposureStart h f low))

/-- EXPOSURE_END: `least` is the least valid sample of the window in mV (R452). -/
def execExposureEnd (h : Fin 6) (f : Nat) (least : Option Nat) (s : State) : Host.Outcome State Fault Refusal :=
  s.run (fun m => m.ifLive (fun m => m.exposureEnd h f least))

/-- ROW_CLOSE (R428). -/
def execRowClose (h : Fin 6) (f : Nat) (s : State) : Host.Outcome State Fault Refusal :=
  s.run (fun m => m.ifLive (fun m => m.rowClose h f))

/-- WITNESS_MEAN (R427, R458). -/
def execWitnessMean (h : Fin 6) (_row _mean : NoData) (s : State) : Host.Outcome State Fault Refusal :=
  s.run (fun m => m.ifLive (fun m => m.witness h))

/-- ILL_EN (R430, R451, R464, R478). -/
def execIllEn (h : Fin 6) (on : Bool) (s : State) : Host.Outcome State Fault Refusal :=
  s.headWrite (F.H_ILL_CTL_reg h) (fun m => m.illEn h on)

/-- ILL_SWAP (R438). -/
def execIllSwap (h : Fin 6) (s : State) : Host.Outcome State Fault Refusal :=
  s.headWrite (F.H_ILL_CTL_reg h) (fun m => m.illArm h)

/-- FRAME_SWAP (R438, R439). -/
def execFrameSwap (h : Fin 6) (s : State) : Host.Outcome State Fault Refusal := s.run (fun m => m.ifLive (fun m => m.frameSwap h))

/-- ILL_SWCAN (R443). -/
def execIllSwcan (h : Fin 6) (s : State) : Host.Outcome State Fault Refusal :=
  s.headWrite (F.H_ILL_CTL_reg h) (fun m => m.illSwcan h)

/-- ILL_FRMW_WRITE (R437). -/
def execIllFrmwWrite (h : Fin 6) (x : Fin 64) (v : Word) (s : State) : Host.Outcome State Fault Refusal :=
  s.headWrite (F.H_ILL_FRMW_reg h x) (fun m => m.illFrmw h x (bits v.toNat 11 0))

/-- ILL_SHAPE (R455). -/
def execIllShape (h : Fin 6) (s : State) : Host.Outcome State Fault Refusal :=
  s.headWrite (F.H_ILL_CTL_reg h) (fun m => m.when (!m.is (F.H_ILL_CTL_SHAPE h)) (fun m => m.illShape h))

/-- SHAPE_DONE (R455). -/
def execShapeDone (h : Fin 6) (s : State) : Host.Outcome State Fault Refusal := s.run (fun m => m.ifLive (fun m => m.shapeDone h))

/-- ILL_STEST (R464). -/
def execIllStest (h : Fin 6) (s : State) : Host.Outcome State Fault Refusal :=
  s.headWrite (F.H_ILL_CTL_reg h) (fun m => m.illStest h)

/-- SHORT_TEST_DONE: `pairs` are the pin pairs found shorted (R464, R465). -/
def execShortTestDone (h : Fin 6) (pairs : BitVec 19) (s : State) : Host.Outcome State Fault Refusal :=
  s.run (fun m => m.ifLive (fun m => m.shortTestDone h pairs.toNat))

/-- ILL_CASGO (R477). -/
def execIllCasgo (h : Fin 6) (s : State) : Host.Outcome State Fault Refusal :=
  s.headWrite (F.H_ILL_CTL_reg h) (fun m => m.casGo h)

/-- CASCADE_DATA_SEND (R477). -/
def execCascadeDataSend (h : Fin 6) (s : State) : Host.Outcome State Fault Refusal :=
  s.run (fun m => m.ifLive (fun m => m.casData h))

/-- CASCADE_MARK (R475, R476). -/
def execCascadeMark (h : Fin 6) (k : CasMark) (s : State) : Host.Outcome State Fault Refusal :=
  s.run (fun m => m.ifLive (fun m => m.casMark h k))

/-- BOOST_PERIOD: `near` and `cool` are what the period's start finds, `on` its on-time in beats, `cut` the beats after which the
switch current ends it (R449). -/
def execBoostPeriod (h : Fin 6) (near cool : Bool) (time : BoostTime) (s : State) : Host.Outcome State Fault Refusal :=
  s.run (fun m => m.ifLive (fun m => m.boostPeriod h near cool time.on time.cut))

/-- ILL_MONITOR_SAMPLE (R462, R463). -/
def execIllMonitorSample (h : Fin 6) (k : IllFound) (s : State) : Host.Outcome State Fault Refusal :=
  s.run (fun m => m.ifLive (fun m => m.illMonitor h k))

end Sys2Proof.Machine
end

