-- ==== Sys2Proof/Machine/LnRows.lean ====
section
/-!
DEFINITION. The meanings of the stream lane rows (ch. 19).
-/
namespace Sys2Proof.Machine

/-- LN_EN (R774, R794, R799). -/
def execLnEn (on : Bool) (s : State) : Host.Outcome State Fault Refusal :=
  s.run (fun m => m.writeCmd F.LN_CTL_reg (fun m => m.lnEn on))

/-- LN_RETRAIN (R778, R798). -/
def execLnRetrain (s : State) : Host.Outcome State Fault Refusal := s.run (fun m => m.writeCmd F.LN_CTL_reg (fun m => m.lnRetrain))

/-- LN_CLRERR (R764, R790). -/
def execLnClrerr (l : Fin 4) (s : State) : Host.Outcome State Fault Refusal :=
  s.run (fun m => m.writeCmd (F.LNL_CTL_reg l) (fun m => m.lnClrerr l))

/-- LN_BSLIP (R763). -/
def execLnBslip (l : Fin 4) (s : State) : Host.Outcome State Fault Refusal :=
  s.run (fun m => m.writeCmd (F.LNL_CTL_reg l) (fun m => m.lnBslip l))

/-- LN_TEST_WRITE: the PRBS and loopback fields of the word (R790, R794). -/
def execLnTestWrite (l : Fin 4) (v : Word) (s : State) : Host.Outcome State Fault Refusal :=
  s.run (fun m => m.writeCmd (F.LNL_CTL_reg l) (fun m =>
    m.lnTest l (bits v.toNat 5 4) (bits v.toNat 7 6) (bits v.toNat 10 9)))

/-- LINK_ATTEMPT (R774, R781). -/
def execLinkAttempt (s : State) : Host.Outcome State Fault Refusal := s.run (fun m => m.linkAttempt)

/-- TRAINING_SET_RECEIVED: what the lane carried in the set's four slots, and its skew (R756, R759-R761, R772-R776, R784). -/
def execTrainingSetReceived (l : Fin 4) (code : LineCode) (words : List LineWord) (skew : Nat) (s : State) :
    Host.Outcome State Fault Refusal := s.run (fun m => m.tsReceived l code words skew)

/-- TRAINING_TIMEOUT (R774, R778). -/
def execTrainingTimeout (s : State) : Host.Outcome State Fault Refusal := s.run (fun m => m.lnTimeout)

/-- LANE_PLL_LOCK (R774). -/
def execLanePllLock (s : State) : Host.Outcome State Fault Refusal := s.run (fun m => m.lanePllLock)

/-- BLOCK_LOCK (R757, R758, R762). -/
def execBlockLock (l : Fin 4) (inverted : Bool) (s : State) : Host.Outcome State Fault Refusal :=
  s.run (fun m => m.blockLock l inverted)

/-- LINK_LOSS (R779, R780, R801). -/
def execLinkLoss (why : Fin 3) (s : State) : Host.Outcome State Fault Refusal := s.run (fun m => m.linkLoss why)

/-- FOM_REFRESH (R785, R787). -/
def execFomRefresh (l : Fin 4) (offsets : Nat) (s : State) : Host.Outcome State Fault Refusal :=
  s.run (fun m => m.fomRefresh l offsets)

/-- LANE_MARKER (R769). -/
def execLaneMarker (s : State) : Host.Outcome State Fault Refusal := s.run (fun m => m.laneMarker)

/-- SIGNAL_DETECT (R779, R793, R969). -/
def execSignalDetect (l : Fin 4) (on : Bool) (s : State) : Host.Outcome State Fault Refusal := s.run (fun m => m.signalDetect l on)

/-- LREFCLK_LOSS (R802). -/
def execLrefclkLoss (s : State) : Host.Outcome State Fault Refusal := s.run (fun m => m.lrefLoss)

/-- LREFCLK_RETURN (R802). -/
def execLrefclkReturn (s : State) : Host.Outcome State Fault Refusal := s.run (fun m => m.lrefReturn)

/-- CDR_LOCK (R774, R787, R793). -/
def execCdrLock (l : Fin 4) (on : Bool) (s : State) : Host.Outcome State Fault Refusal := s.run (fun m => m.cdrLock l on)

/-- BLOCK_LOSS (R757, R762, R764). -/
def execBlockLoss (l : Fin 4) (s : State) : Host.Outcome State Fault Refusal := s.run (fun m => m.blockLoss l)

/-- PRBS_LOCK (R795). -/
def execPrbsLock (l : Fin 4) (on : Bool) (s : State) : Host.Outcome State Fault Refusal := s.run (fun m => m.prbsLock l on)

end Sys2Proof.Machine
end

