-- ==== Sys2Proof/Machine/Port.lean ====
section
/-!
DEFINITION. The control port: transactions, the write buffer, reads and status bytes (ch. 21).
-/
namespace Sys2Proof.Machine

def Mach.setPort (m : Mach) (p : PortSt) : Mach := { m with port := p }

/-! ## Commands and lines (R849-R852, R857, R858) -/

/-- What follows a command byte. -/
inductive PortKind where
  | write
  | read
  | status
  deriving DecidableEq, Repr

/-- A row of R851: its byte, whether it uses four lines, its kind and how far the address goes on after each word. -/
structure PortCmd where
  code : Byte
  wide : Bool
  kind : PortKind
  step : Nat
  deriving DecidableEq, Repr

def cmdWr1 : PortCmd := { code := 0x02, wide := false, kind := .write, step := 4 }
def cmdRd1 : PortCmd := { code := 0x03, wide := false, kind := .read, step := 4 }
def cmdSt1 : PortCmd := { code := 0x05, wide := false, kind := .status, step := 0 }
def cmdWr4 : PortCmd := { code := 0x32, wide := true, kind := .write, step := 4 }
def cmdWr4f : PortCmd := { code := 0x3A, wide := true, kind := .write, step := 0 }
def cmdRd4 : PortCmd := { code := 0x6B, wide := true, kind := .read, step := 4 }
def cmdRd4f : PortCmd := { code := 0x6F, wide := true, kind := .read, step := 0 }
def cmdSt4 : PortCmd := { code := 0x75, wide := true, kind := .status, step := 0 }

/-- The command bytes of R851. -/
def portCommands : List Nat :=
  [cmdWr1, cmdRd1, cmdSt1, cmdWr4, cmdWr4f, cmdRd4, cmdRd4f, cmdSt4].map (fun (c : PortCmd) => c.code.toNat)

/-- SIO3-SIO0 in each SCLK cycle of an `n`-bit value, most significant bit first: a nibble a cycle with its top bit on
SIO3, or one bit a cycle on `line` (R850-R852, R858). -/
def sioCycles (wide : Bool) (line n v : Nat) : List (BitVec 4) :=
  if wide then (List.range (n / 4)).map (fun i => BitVec.ofNat 4 (v / 16 ^ (n / 4 - 1 - i)))
  else (List.range n).map (fun i => BitVec.ofNat 4 (if v.testBit (n - 1 - i) then 2 ^ line else 0))

/-- What the host drives of a transaction, cycle by cycle: the command byte on SIO0, the address and the words written. -/
def PortCmd.cycles (c : PortCmd) (addr : Word) (words : List Word) : List (BitVec 4) :=
  sioCycles false 0 8 c.code.toNat ++
  (if c.kind = .status then [] else sioCycles c.wide 0 32 addr.toNat) ++
  (if c.kind = .write then words.flatMap (fun (w : Word) => sioCycles c.wide 0 32 w.toNat) else [])

/-- The lines that the device drives from the second turnaround cycle on: SIO1, or all four (R857, R863, R883). -/
def Mach.sioDriven (m : Mach) : BitVec 4 :=
  let p := m.port
  if p.sel && !p.deaf && !m.inReset && (p.rd.isSome || p.stat) then (if p.wide then 15 else 2) else 0

/-- What the device has driven since then, cycle by cycle: before each word read a status byte, and no word after WAIT
(R858, R863). -/
def Mach.sioSent (m : Mach) : List (BitVec 4) :=
  m.port.sent.reverse.flatMap (fun (x : Nat × BitVec 32) =>
    (if m.port.stat then [] else sioCycles m.port.wide 1 8 x.1) ++
    (if x.1 = 0xFF then [] else sioCycles m.port.wide 1 32 x.2.toNat))

/-- CSN falls for a command, whose transaction `p` opens; while a reset is asserted the port ignores SCLK until CSN rises
again (R131, R883). -/
def Mach.portOpen (m : Mach) (wide : Bool) (p : PortSt) : Mach :=
  m.setPort (if m.inReset then { m.port with sel := true, deaf := true } else
    { p with sel := true, wide := wide, sent := [] })

/-! ## Writes (R855, R856, R868-R870) -/

/-- A data word completes: it enters the write buffer, or is dropped when the buffer is full or the die's clock is stopped (R88,
R101, R856, R870). -/
def Mach.portWord (m : Mach) (v : Word) : Mach :=
  match m.port.wr with
  | none => m
  | some (a, step) =>
    let m := m.setPort { m.port with wr := some ((a + step) % 2 ^ 32, step) }
    if !m.clk.running then m.put F.SYS_CP_STAT_WDROP 1
    else if m.port.wbuf.length < 16 then
      m.setPort { m.port with wbuf := m.port.wbuf ++ [{ addr := a, data := v, ready := nextGrid 4 (m.now + 24) }] }
    else m.put F.SYS_CP_STAT_WDROP 1

/-- WR1, WR4 and WR4F: opens a write transaction, or goes on with the one that is open; `words` complete in turn. -/
def Mach.portWrite (m : Mach) (c : PortCmd) (addr : Word) (words : List Word) : Mach :=
  let m := if m.port.sel then m else
    m.portOpen c.wide { m.port with deaf := false, stat := false, wr := some (addr.toNat, c.step), rd := none }
  if m.port.deaf then m else m.each words (fun v m => m.portWord v)

/-- An address error (R865). -/
def Mach.portAdErr (m : Mach) (a : Nat) : Mach :=
  if m.is F.SYS_CP_STAT_ADERR then m
  else (m.put F.SYS_CP_STAT_ADERR 1).setReg F.SYS_CP_ERRADDR_reg (BitVec.ofNat 32 a)

/-- A port write takes effect (R865-R867, R930). -/
def Mach.portStore (m : Mach) (f : Fuses) (a : Nat) (v : Word) : Mach :=
  if !mapped a then m.portAdErr a
  else if m.pwr.thermal && !thermalKeeps a then m.put F.SYS_CP_STAT_WDROP 1
  else
    let (bad, m) := m.busWrite f .port a v
    m.when bad (fun m => m.put F.SYS_CP_STAT_ECCERR 1)

/-- PORT_WRITE_APPLY: the word at the head of the write buffer takes effect, at most one in a tick. Log entry 16. -/
def Mach.portApply (m : Mach) (f : Fuses) : Mach :=
  match m.port.wbuf with
  | [] => m
  | w :: rest =>
    if m.inReset then m
    else if !m.clk.running then (m.setPort { m.port with wbuf := rest }).put F.SYS_CP_STAT_WDROP 1
    else
      let m := (m.runTo (max w.ready m.port.free)).turn 0
      (m.setPort { m.port with wbuf := rest, free := m.now / 4 * 4 + 4 }).portStore f w.addr w.data

/-! ## Reads (R857-R862, R869) -/

def Mach.portSend (m : Mach) (status : Nat) (v : Word) : Mach :=
  m.setPort { m.port with sent := (status, v) :: m.port.sent }

/-- The next status byte of an open read, and the word that follows one other than WAIT; CLKDOWN and 0 while the die's clock is
stopped, whatever was ready (R101, R858-R861). -/
def Mach.portClock (m : Mach) (r : PortRead) : Mach :=
  let done : PortRead := { r with addr := if r.inc then (r.addr + 4) % 2 ^ 32 else r.addr, edge := none, got := none }
  if !m.clk.running then (m.setPort { m.port with rd := some done }).portSend 0xC3 0
  else match r.got with
  | some (st, v, t) => if t ≤ m.now then (m.setPort { m.port with rd := some done }).portSend st v else m.portSend 0xFF 0
  | none =>
    if r.edge.isSome then m.portSend 0xFF 0
    else (m.setPort { m.port with rd := some { r with edge := some m.now } }).portSend 0xFF 0

/-- RD1, RD4 and RD4F: opens a read transaction, whose address completes now, or clocks out the next status byte of the one
that is open. -/
def Mach.portRead (m : Mach) (c : PortCmd) (addr : Word) : Mach :=
  if !m.port.sel then
    m.portOpen c.wide { m.port with
      deaf := false, stat := false, wr := none,
      rd := some { addr := addr.toNat, inc := c.step = 4, edge := some m.now, got := none } }
  else if m.port.deaf || m.inReset then m
  else match m.port.rd with
    | some r => m.portClock r
    | none => m

/-- The result of a port read in its tick: status and word (R82, R865, R867, R930). -/
def Mach.portLoad (m : Mach) (f : Fuses) (a : Nat) : Nat × Word × Mach :=
  if !mapped a then (0x3C, 0, m.portAdErr a)
  else if m.pwr.thermal && !thermalKeeps a then
    (0xA5, if inLine a || inCoreMem a then 0 else regReset a, m)
  else
    let (v, bad, m) := m.busRead f a
    if bad then (0x96, 0, m.put F.SYS_CP_STAT_ECCERR 1) else (0xA5, v, m)

/-- Access time of a read in ticks: the operand within the bounds of R860. Log entry 16. -/
def accessTicks (a ticks : Nat) : Nat :=
  if !mapped a then 0 else if inLine a then min ticks 512 else max 12 (min ticks 40)

/-- PORT_READ_ISSUE: the read whose reference edge is oldest is issued, in a tick after
that of every earlier write (R859, R869). Log entry 16. -/
def Mach.portIssue (m : Mach) (f : Fuses) (ticks : Nat) : Mach :=
  if m.inReset || !m.clk.running || m.port.wbuf != [] then m
  else
    match m.port.orphans, m.port.rd with
    | (a, e) :: rest, _ =>
      let m := (m.runTo (max (nextGrid 4 (e + 24)) m.port.free)).turn 0
      (((m.setPort { m.port with orphans := rest }).portLoad f a).2).2
    | [], some r =>
      match r.edge with
      | none => m
      | some e =>
        let m := (m.runTo (max (nextGrid 4 (e + 24)) m.port.free)).turn 0
        let (st, v, m) := m.portLoad f r.addr
        let t := m.now + 4 * accessTicks r.addr ticks + 24
        m.setPort { m.port with rd := some { r with edge := none, got := some (st, v, t) } }
    | [], none => m

/-! ## Status, unknown commands and the end of a transaction -/

/-- ST1 and ST4: a snapshot of SYS_CP_STAT (R863). -/
def Mach.portStatus (m : Mach) (c : PortCmd) : Mach :=
  let m := if m.port.sel then m else m.portOpen c.wide { m.port with deaf := false, stat := true, wr := none, rd := none }
  if m.port.deaf || m.inReset || !m.port.stat then m else m.portSend 0 (BitVec.ofNat 32 m.cpStat)

/-- COMMAND_INVALID (R853). -/
def Mach.portInvalid (m : Mach) (code : Byte) : Mach :=
  if m.port.sel || portCommands.contains code.toNat then m
  else
    let up := !m.inReset
    let m := m.portOpen false { m.port with deaf := true, stat := false, wr := none, rd := none }
    m.when up (fun m => m.put F.SYS_CP_STAT_CMDERR 1)

/-- CSN_RISE: `part` says that a word being written, or one being read out, was cut (R855, R859, R862).
Log entry 16. -/
def Mach.portRise (m : Mach) (part : Bool) : Mach :=
  let p := m.port
  let orphan := match p.rd with
    | some r => (match r.edge with | some e => [(r.addr, e)] | none => [])
    | none => []
  let lost := (p.wr.isSome && part) ||
    (match p.rd with | some r => r.edge.isSome || r.got.isSome || (part && p.sent != []) | none => false)
  let up := !m.inReset && !p.deaf
  let m := m.setPort { p with sel := false, deaf := false, stat := false, wr := none, rd := none, sent := [],
                              orphans := if m.inReset then [] else if up then p.orphans ++ orphan else p.orphans }
  m.when (up && lost) (fun m => m.put F.SYS_CP_STAT_ABORT 1)

end Sys2Proof.Machine
end

