-- ==== Sys2Proof/Machine/PortRows.lean ====
section
/-!
DEFINITION. The meanings of the control-port rows and of a register write (ch. 21 and R15).
-/
namespace Sys2Proof.Machine

/-- WR1 (R851, R855, R856). -/
def execWr1 (addr : Word) (words : List Word) (s : State) : Host.Outcome State Fault Refusal :=
  s.run (fun m => m.portWrite cmdWr1 addr words)

/-- RD1 (R851, R857-R862). -/
def execRd1 (addr : Word) (s : State) : Host.Outcome State Fault Refusal := s.run (fun m => m.portRead cmdRd1 addr)

/-- ST1 (R863). -/
def execSt1 (s : State) : Host.Outcome State Fault Refusal := s.run (fun m => m.portStatus cmdSt1)

/-- WR4: as WR1 on four lines (R851). -/
def execWr4 (addr : Word) (words : List Word) (s : State) : Host.Outcome State Fault Refusal :=
  s.run (fun m => m.portWrite cmdWr4 addr words)

/-- WR4F: the address stays (R851). -/
def execWr4f (addr : Word) (words : List Word) (s : State) : Host.Outcome State Fault Refusal :=
  s.run (fun m => m.portWrite cmdWr4f addr words)

/-- RD4: as RD1 on four lines (R851). -/
def execRd4 (addr : Word) (s : State) : Host.Outcome State Fault Refusal := s.run (fun m => m.portRead cmdRd4 addr)

/-- RD4F: the address stays (R851). -/
def execRd4f (addr : Word) (s : State) : Host.Outcome State Fault Refusal := s.run (fun m => m.portRead cmdRd4f addr)

/-- ST4: as ST1 on four lines (R863). -/
def execSt4 (s : State) : Host.Outcome State Fault Refusal := s.run (fun m => m.portStatus cmdSt4)

/-- COMMAND_INVALID (R853). -/
def execCommandInvalid (code : Byte) (s : State) : Host.Outcome State Fault Refusal := s.run (fun m => m.portInvalid code)

/-- CSN_RISE (R855, R862). -/
def execCsnRise (part : Bool) (s : State) : Host.Outcome State Fault Refusal := s.run (fun m => m.portRise part)

/-- PORT_WRITE_APPLY (R88, R856, R865-R870). -/
def execPortWriteApply (s : State) : Host.Outcome State Fault Refusal := s.runF (fun f m => m.portApply f)

/-- PORT_READ_ISSUE (R859, R860, R869): `ticks` is the time of the access. -/
def execPortReadIssue (ticks : Nat) (s : State) : Host.Outcome State Fault Refusal := s.runF (fun f m => m.portIssue f ticks)

/-- SYS_HOSTDB_WRITE (R874). -/
def execSysHostdbWrite (c : Fin 8) (s : State) : Host.Outcome State Fault Refusal :=
  s.runF (fun f m => m.ifLive (fun m => (m.turn (c.val + 1)).regWrite f (.core c) F.SYS_HOSTDB_reg 0))

/-- REGISTER_WRITE (R15-R18, R31, R320): a write by an agent takes effect at a register, in the agent's turn of a tick; an
address that names none is not one. -/
def execRegisterWrite (agent : Agent) (addr : Nat) (v : Word) (s : State) : Host.Outcome State Fault Refusal :=
  s.runF (fun f m => m.writeCmd addr (fun m => (m.turn (agentRank agent)).regWrite f agent addr v))

end Sys2Proof.Machine
end

