-- ==== Sys2Proof/Machine/PowerRows.lean ====
section
/-!
DEFINITION. The meanings of the power, reset and clock rows (ch. 03 and 04).
-/
namespace Sys2Proof.Machine

/-- A blow cut by power-on reset leaves its bit blown or not: a free value (R173). -/
def State.cutBlow (s : State) : State :=
  match s.m.boot.blow with
  | some (b, _) =>
    let (x, m) := s.m.fresh 1
    { s with m := m, fuses := s.fuses ||| (if x = 1 then (1#259) <<< b else 0) }
  | none => s

/-- POWER_ON_RESET_ASSERT (R110-R112, R117, R146-R148): `cut` says how far the NV work in progress had come. -/
def execPowerOnResetAssert (supply : Fin 6) (cut : NvCut) (s : State) : Host.Outcome State Fault Refusal :=
  let s := s.cutBlow
  .next { s with nvArr := nvPowerLoss s.nvArr s.m cut.writes cut.badA cut.badB, m := s.m.powerOff supply }

/-- POWER_ON_RESET_RELEASE (R112, R114, R115). -/
def execPowerOnResetRelease (s : State) : Host.Outcome State Fault Refusal := s.run (fun m => m.porRelease)

/-- REFSRC_SELECT (R67, R68). -/
def execRefsrcSelect (refclk : Bool) (s : State) : Host.Outcome State Fault Refusal := s.run (fun m => m.refSelect refclk)

/-- LOCK_FIRST (R71, R73, R78). -/
def execLockFirst (s : State) : Host.Outcome State Fault Refusal := s.run (fun m => m.lockFirst)

/-- WARM_RESET_PIN (R118, R120, R141). -/
def execWarmResetPin (s : State) : Host.Outcome State Fault Refusal := s.run (fun m => m.resetnFall)

/-- RESETN_RELEASE (R114, R120, R931). -/
def execResetnRelease (s : State) : Host.Outcome State Fault Refusal := s.run (fun m => m.resetnRise)

/-- SYS_RST_WARM (R122, R124). -/
def execSysRstWarm (s : State) : Host.Outcome State Fault Refusal :=
  s.run (fun m => m.writeCmd F.SYS_RST_reg (fun m => m.softReset 0xA5))

/-- WARM_RESET_END (R122, R123). -/
def execWarmResetEnd (s : State) : Host.Outcome State Fault Refusal := s.run (fun m => m.softEnds)

/-- SELFTEST_DONE (R116, R932). -/
def execSelftestDone (pass : Bool) (s : State) : Host.Outcome State Fault Refusal := s.run (fun m => m.selfTestDone pass)

/-- MONITOR_WINDOW_END (R98-R101). -/
def execMonitorWindowEnd (count : Nat) (s : State) : Host.Outcome State Fault Refusal := s.run (fun m => m.windowEnd count)

/-- PLL_LOCK_LOSS (R71, R98). -/
def execPllLockLoss (s : State) : Host.Outcome State Fault Refusal := s.run (fun m => m.lockLoss)

/-- REF_OK_LOSS (R98, R1009). -/
def execRefOkLoss (s : State) : Host.Outcome State Fault Refusal := s.run (fun m => m.refOkLoss)

/-- RELOCK (R79, R102, R103). -/
def execRelock (s : State) : Host.Outcome State Fault Refusal := s.run (fun m => m.relock.bootPoll)

/-- SYS_TIME_WRAP (R83). -/
def execSysTimeWrap (s : State) : Host.Outcome State Fault Refusal := s.run (fun m => m.timeWrap)

/-- SYS_TIME_LO_READ (R82): the read reaches the register while the clock runs and no reset holds it. -/
def execSysTimeLoRead (s : State) : Host.Outcome State Fault Refusal :=
  s.run (fun m => if m.busUp then m.timeLoRead else m)

/-- HEAD_GATE (R92, R93): a write that clears the head's bit of CLK_GATE. -/
def execHeadGate (h : Fin 6) (s : State) : Host.Outcome State Fault Refusal :=
  s.run (fun m => m.writeCmd F.CLK_GATE_reg (fun m => if m.headEn h then (m.headGate h).bootPoll else m))

/-- HEAD_STOP (R93). -/
def execHeadStop (h : Fin 6) (s : State) : Host.Outcome State Fault Refusal := s.run (fun m => m.ifLive (fun m => m.headStop h))

/-- HEAD_UNGATE (R95): a write that sets the head's bit again. -/
def execHeadUngate (h : Fin 6) (s : State) : Host.Outcome State Fault Refusal :=
  s.run (fun m => m.writeCmd F.CLK_GATE_reg (fun m => if m.headEn h then m else m.headUngate h))

/-- AUX_GATE (R499, R518, R520). -/
def execAuxGate (on : Bool) (s : State) : Host.Outcome State Fault Refusal :=
  s.run (fun m => m.writeCmd F.CLK_GATE_reg (fun m => if m.auxEn = on then m else (m.auxGate on).bootPoll))

/-- BC_GATE (R97). -/
def execBcGate (on : Bool) (s : State) : Host.Outcome State Fault Refusal :=
  s.run (fun m => m.writeCmd F.CLK_GATE_reg (fun m => m.bcGate on))

/-- SUPPLY_GOOD (R111, R113). -/
def execSupplyGood (supply : Fin 6) (s : State) : Host.Outcome State Fault Refusal := s.run (fun m => m.supplyGood supply)

/-- REFERENCE_RETURN (R98). -/
def execReferenceReturn (s : State) : Host.Outcome State Fault Refusal := s.run (fun m => m.refReturn)

end Sys2Proof.Machine
end

