-- ==== Sys2Proof/Machine/StRows.lean ====
section
/-!
DEFINITION. The meanings of the stream protocol rows (ch. 20), and what the boot ROM does with frames (R165, R843).
-/
namespace Sys2Proof.Machine

/-- IMG_SEND (R808, R820). -/
def execImgSend (s : State) : Host.Outcome State Fault Refusal := s.run (fun m => m.ifLive (fun m => Mach.withEcc m.catchUp.imgSend))

/-- CTL_SEND (R808, R821). -/
def execCtlSend (s : State) : Host.Outcome State Fault Refusal := s.run (fun m => m.ifLive (fun m => Mach.withEcc m.ctlSend))

/-- RDREQ_SEND (R826, R829). -/
def execRdreqSend (s : State) : Host.Outcome State Fault Refusal := s.run (fun m => m.ifLive (fun m => m.rdreqSend))

/-- REPLAY (R817, R836). -/
def execReplay (s : State) : Host.Outcome State Fault Refusal := s.run (fun m => m.ifLive (fun m => m.replayGo))

/-- After a round has been asked for: the link is lost instead once four have passed in a row (R817). -/
def Mach.roundOrLoss (r : Bool × Mach) : Mach := if r.1 then r.2.linkLost else r.2.stSync

/-- REPLAY_TIMEOUT (R817). -/
def execReplayTimeout (s : State) : Host.Outcome State Fault Refusal :=
  s.run (fun m => m.ifLive (fun m => Mach.roundOrLoss m.replayTimeout))

/-- SESSION_OFFER (R831, R832). -/
def execSessionOffer (s : State) : Host.Outcome State Fault Refusal := s.run (fun m => m.ifLive (fun m => m.offer))

/-- The link's words arrive, and the next frame in them acts when it is of type `ty` (R765, R770, R804, R805, R814, R815). -/
def State.receive (s : State) (ty : Nat) (x : RxLines) (f : Mach → Frame → Mach) : Host.Outcome State Fault Refusal :=
  s.run (fun m => m.ifLive (fun m =>
    let m := m.rxLines x
    if !m.rxUp then m
    else
      match m.rxNext ty (m.ln.rxIn.foldl (fun n b => n + b.bytes.length + 2) 1) with
      | (some f', m) => (f m f').stSync
      | (none, m) => m))

/-- RX_OPEN (R833-R836). -/
def execRxOpen (lines : RxLines) (s : State) : Host.Outcome State Fault Refusal := s.receive 0x39 lines (fun m f => m.rxOpen f.payload)

/-- RX_CLOSE: the host closes the session that the frame names (R838). -/
def execRxClose (lines : RxLines) (s : State) : Host.Outcome State Fault Refusal :=
  s.receive 0x3C lines (fun m f => if m.hasSess && f.a = m.get F.ST_SID_SID then m.closeSess 2 else m)

/-- The boot ROM still runs C7: it holds the session (R165, R843). -/
def Mach.inBoot (m : Mach) : Bool := m.phase != 4

/-- Little-endian words of a payload. -/
def leWords : List Byte → List Word
  | a :: b :: c :: d :: t => BitVec.ofNat 32 (leNat [a, b, c, d]) :: leWords t
  | _ => []

/-- A word that the boot ROM's WR writes: to BOOT_WIN, or to BOOT_CTL (R160, R165, R188). -/
def Mach.bootPut (m : Mach) (f : Fuses) (a : Nat) (v : Word) : Mach :=
  if a = F.BOOT_CTL_reg then (if v.getLsbD 0 then m.bootRestart else m) else m.bootWord f 1 v

def bootWritable (a : Nat) : Bool := a = F.BOOT_CTL_reg || (0x28000 ≤ a && a < 0x30000)

/-- The words of a WR reach the loader one a tick (R161); a word that waits in the control port's write buffer for the same tick
takes effect before the next (R31, R159). -/
def Mach.bootWords (m : Mach) (f : Fuses) (a : Nat) : List Word → Mach
  | [] => m
  | v :: t =>
    let m := m.atTick.bootPut f (4 * a) v
    if t = [] then m
    else
      let m := if m.port.wbuf.head?.any (fun w => decide (w.ready ≤ m.now)) then m.portApply f else m
      (m.runTo (m.now + 4)).bootWords f (a + 1) t

/-- The boot ROM acts on a WR: up to 256 bytes, every word to BOOT_WIN or BOOT_CTL; any other is answered with STATUS 2
(R165, R843). Log entry 66. -/
def Mach.bootWr (m : Mach) (f : Fuses) (x : Frame) : Mach :=
  let ws := leWords x.payload
  let m := m.bootFreed x
  if x.payload.length ≤ 256 && x.a % 4 = 0 && (List.range ws.length).all (fun (i : Nat) => bootWritable (x.a + 4 * i)) then
    m.bootWords f (x.a / 4) ws
  else m.bootAnswer x 2 []

/-- The boot ROM acts on an RD of the BOOT block: STATUS 1 where a word is no register, STATUS 2 outside the block (R165,
R843). Log entry 66. -/
def Mach.bootRd (m : Mach) (f : Fuses) (x : Frame) : Mach :=
  let m := m.bootFreed x
  let as := (List.range (x.b / 4)).map (fun (i : Nat) => x.a + 4 * i)
  if !(0x20000 ≤ x.a && x.a + x.b ≤ 0x30000) then m.bootAnswer x 2 []
  else if x.a % 4 != 0 || as.any (fun (a : Nat) => (findReg a).isNone) then m.bootAnswer x 1 []
  else m.bootAnswer x 0 (as.flatMap (fun (a : Nat) => leBytes 4 (m.regRead f a).1.toNat))

/-- RX_MSG (R841, R843). -/
def execRxMsg (lines : RxLines) (s : State) : Host.Outcome State Fault Refusal :=
  s.receive 0x11 lines (fun m f => if m.inBoot then (m.bootFreed f).bootAnswer f 2 [] else m.frameRecord f)

/-- RX_WR (R165, R841, R843). -/
def execRxWr (lines : RxLines) (s : State) : Host.Outcome State Fault Refusal :=
  s.receive 0x12 lines (fun m f => if m.inBoot then m.bootWr s.fuses f else m.frameRecord f)

/-- RX_RD (R165, R841, R843). -/
def execRxRd (lines : RxLines) (s : State) : Host.Outcome State Fault Refusal :=
  s.receive 0x13 lines (fun m f => if m.inBoot then m.bootRd s.fuses f else m.frameRecord f)

/-- RX_CPL (R827, R828, R830). -/
def execRxCpl (lines : RxLines) (s : State) : Host.Outcome State Fault Refusal := s.receive 0x14 lines (fun m f => m.catchUp.rxCpl f)

/-- RX_LINK: its ACKSEQ has been taken; a NAK is counted and asks for a round (R815, R817). Log entry 79. -/
def execRxLink (lines : RxLines) (s : State) : Host.Outcome State Fault Refusal :=
  s.receive 0x30 lines (fun m f => if f.a = 1 then Mach.roundOrLoss (m.countHold F.ST_RPLCNT_NAKS 1).askRound else m)

/-- RX_CREDIT (R809, R810). -/
def execRxCredit (lines : RxLines) (s : State) : Host.Outcome State Fault Refusal := s.receive 0x31 lines (fun m f => m.rxCredit f)

/-- ST_RDQ_WRITE: `full` says that eight descriptors wait (R823, R824). -/
def execStRdqWrite (v : Word) (full : Bool) (s : State) : Host.Outcome State Fault Refusal :=
  s.run (fun m => m.writeCmd F.ST_RDQ_reg (fun m => Mach.withEcc (m.rdqWrite v.toNat full)))

/-- READ_TIMEOUT (R829). -/
def execReadTimeout (tag : Fin 64) (s : State) : Host.Outcome State Fault Refusal :=
  s.run (fun m => m.ifLive (fun m => m.readTimeout tag))

/-- QUARANTINE_EXIT (R830). -/
def execQuarantineExit (tag : Fin 64) (s : State) : Host.Outcome State Fault Refusal :=
  s.run (fun m => m.ifLive (fun m => m.quarExit tag))

/-- ST_RXRP_WRITE (R843). -/
def execStRxrpWrite (v : Word) (s : State) : Host.Outcome State Fault Refusal :=
  s.run (fun m => m.writeCmd F.ST_RXRP_reg (fun m => m.rxrpWrite v.toNat))

/-- ST_CLOSE (R838). -/
def execStClose (s : State) : Host.Outcome State Fault Refusal := s.run (fun m => m.writeCmd F.ST_CTL_reg (fun m => m.stClose))

/-- ST_EN (R832, R838, R847). -/
def execStEn (on : Bool) (s : State) : Host.Outcome State Fault Refusal :=
  s.run (fun m => m.writeCmd F.ST_CTL_reg (fun m => m.stEn on))

/-- ST_IMGRUN (R846). -/
def execStImgrun (on : Bool) (s : State) : Host.Outcome State Fault Refusal :=
  s.run (fun m => m.writeCmd F.ST_CTL_reg (fun m => m.stImgrun on))

/-- SESSION_RETRY_EXPIRE (R837). -/
def execSessionRetryExpire (s : State) : Host.Outcome State Fault Refusal := s.run (fun m => m.ifLive (fun m => m.retryExpire))

/-- FAULT_NOTICE_REPEAT (R845). -/
def execFaultNoticeRepeat (s : State) : Host.Outcome State Fault Refusal := s.run (fun m => m.ifLive (fun m => m.noticeRepeat))

end Sys2Proof.Machine
end

