-- ==== Sys2Proof/Machine/TopRows.lean ====
section
/-!
DEFINITION. The meanings of the multi-unit, Shroud and NV store rows (ch. 22 and 23).
-/
namespace Sys2Proof.Machine

/-! ## Bowline (ch. 22) -/

/-- BWL_EN (R894). -/
def execBwlEn (on : Bool) (s : State) : Host.Outcome State Fault Refusal :=
  s.run (fun m => m.writeCmd F.BWL_CTL_reg (fun m => m.bwlEn on))

/-- BWL_REFORM (R915). -/
def execBwlReform (s : State) : Host.Outcome State Fault Refusal := s.run (fun m => m.writeCmd F.BWL_CTL_reg (fun m => m.bwlReform))

/-- BWL_FRAME_RECEIVE: a frame's K28.5 `start` and the 149 symbols after it at a follower's pins (R890-R893). -/
def execBwlFrameReceive (start : BitVec 10) (syms : List (BitVec 10)) (s : State) : Host.Outcome State Fault Refusal :=
  s.run (fun m => m.ifLive (fun m => m.bwlReceive (start :: syms)))

/-- BWL_FRAME_RETURN: the same at the master; `lost` older outstanding frames never came back (R895, R904). -/
def execBwlFrameReturn (lost : Nat) (start : BitVec 10) (syms : List (BitVec 10)) (s : State) : Host.Outcome State Fault Refusal :=
  s.run (fun m => m.ifLive (fun m => m.bwlReturn lost (start :: syms)))

/-- BWL_EVENT_DELIVER (R909, R910). -/
def execBwlEventDeliver (s : State) : Host.Outcome State Fault Refusal := s.run (fun m => m.ifLive (fun m => m.bwlDeliver))

/-- BWL_LOST (R913, R914). -/
def execBwlLost (s : State) : Host.Outcome State Fault Refusal := s.run (fun m => m.ifLive (fun m => m.bwlLost))

/-! ## Shroud (ch. 23) -/

/-- A detector reports `code`: class 2 also stops the clock (R98), a halt cause of class 1 halts its pair (R44, R235), and class
10 covers an axis with an encoder declared alone (R40). Log entry 82. -/
def Mach.faultDetect (m : Mach) (code : Nat) : Mach :=
  let d := code % 256
  if !m.busUp || !knownCode code then m
  else if code / 256 = 2 then m.clockLoss d
  else if code / 256 = 1 && d < 0x80 then
    let c : Fin 8 := Fin.ofNat 8 (d / 16)
    (m.when (m.pairState c = 1 || m.pairState c = 2) (fun m => m.halt c (d % 16))).detect code
  else if code / 256 = 10 && !m.is (F.HAL_AX_CTL_ENC (d / 16)) then m
  else m.detect code

/-- FAULT_DETECT (R917-R921). -/
def execFaultDetect (code : BitVec 16) (s : State) : Host.Outcome State Fault Refusal := s.run (fun m => m.faultDetect code.toNat)

/-- SHR_CLEAR (R54, R927). -/
def execShrClear (v : Word) (s : State) : Host.Outcome State Fault Refusal :=
  s.run (fun m => m.writeCmd F.SHR_CLEAR_reg (fun m => m.shrClear v))

/-- SHR_INJ: a write of GO with KIND and TARGET (R933). -/
def execShrInj (kind : BitVec 4) (target : BitVec 3) (s : State) : Host.Outcome State Fault Refusal :=
  s.run (fun m => m.writeCmd F.SHR_INJ_reg (fun m => m.inject (BitVec.ofNat 32 (2 ^ 31 + target.toNat * 256 + kind.toNat))))

/-- SUPPLY_WINDOW_FAULT (R923). -/
def execSupplyWindowFault (supply : Fin 6) (mv : Nat) (s : State) : Host.Outcome State Fault Refusal :=
  s.run (fun m => m.supplyWindow supply mv)

/-- THERMAL_CONVERSION: the sensors' temperatures in 1/16 degree (R928). -/
def execThermalConversion (temps : List Int) (s : State) : Host.Outcome State Fault Refusal := s.run (fun m => m.thermal temps)

/-- THERMAL_SHUTDOWN (R929, R930). -/
def execThermalShutdown (s : State) : Host.Outcome State Fault Refusal := s.run (fun m => m.shutdown)

/-- LINE_STORE_SCRUB: of a line-store byte's word, or of a word of another memory that it covers (R403, R924, R925). -/
def execLineStoreScrub (p : ScrubPlace) (found : Scrub) (s : State) : Host.Outcome State Fault Refusal :=
  s.run (fun m => m.ifLive (fun m =>
    match p with
    | .line x pass => m.scrubLine x found pass
    | .other k idx => m.scrubOther k idx found))

/-! ## NV store (ch. 23) -/

/-- NV_READ (R942, R948). -/
def execNvRead (slot : BitVec 7) (s : State) : Host.Outcome State Fault Refusal :=
  s.run (fun m => m.writeCmd F.NV_CTL_reg (fun m => m.nvGo 1 slot.toNat))

/-- NV_COMMIT (R939). -/
def execNvCommit (slot : BitVec 7) (s : State) : Host.Outcome State Fault Refusal :=
  s.run (fun m => m.writeCmd F.NV_CTL_reg (fun m => m.nvGo 2 slot.toNat))

/-- NV_ERASE (R940). -/
def execNvErase (slot : BitVec 7) (s : State) : Host.Outcome State Fault Refusal :=
  s.run (fun m => m.writeCmd F.NV_CTL_reg (fun m => m.nvGo 3 slot.toNat))

/-- NV_LOGREAD (R948). -/
def execNvLogread (slot : BitVec 7) (s : State) : Host.Outcome State Fault Refusal :=
  s.run (fun m => m.writeCmd F.NV_CTL_reg (fun m => m.nvGo 4 slot.toNat))

/-- NV_DONE: the command in progress ends `beats` beats after it began (R939-R942, R948). -/
def execNvDone (beats : Nat) (e : NvEnd) (s : State) : Host.Outcome State Fault Refusal := s.runNv (fun x m => nvDone x m beats e)

/-- NV_LOG_ENTRY (R943, R946). -/
def execNvLogEntry (beats : Nat) (s : State) : Host.Outcome State Fault Refusal := s.runNv (fun x m => nvLogEntry x m beats)

/-- NV_LOG_SEARCH_DONE: correctable words met and the entries that hold an uncorrectable one (R944). -/
def execNvLogSearchDone (beats corr : Nat) (bad : List Nat) (s : State) : Host.Outcome State Fault Refusal :=
  s.run (fun m => nvSearchDone s.nvArr m beats corr bad)

end Sys2Proof.Machine
end

