-- ==== Sys2Proof/Machine/TrgRows.lean ====
section
/-!
DEFINITION. The meanings of the trigger and acquisition rows (ch. 14).
-/
namespace Sys2Proof.Machine

/-- TRG_PATTERN_FIRE: `hist` are the levels of the synchronised inputs up to this beat, each with how many beats it lasted,
oldest first (R90, R539, R540). -/
def execTrgPatternFire (u : Fin 8) (hist : List (BitVec 16 × Nat)) (s : State) : Host.Outcome State Fault Refusal :=
  s.run (fun m => m.ifLive (fun m => m.patternFire u hist))

/-- TRG_TIMEOUT_FIRE (R544). -/
def execTrgTimeoutFire (u : Fin 8) (s : State) : Host.Outcome State Fault Refusal :=
  s.run (fun m => m.ifLive (fun m => m.timeoutFire u))

/-- TRG_SWT (R546). -/
def execTrgSwt (v : Word) (s : State) : Host.Outcome State Fault Refusal :=
  s.run (fun m => m.writeCmd F.TRG_SWT_reg (fun m => m.trgSwt (v.toNat % 65536)))

/-- TRG_ARM (R548). -/
def execTrgArm (s : State) : Host.Outcome State Fault Refusal := s.run (fun m => m.writeCmd F.TRG_CTL_reg (fun m => m.trgArm))

/-- TRG_ABORT (R551). -/
def execTrgAbort (s : State) : Host.Outcome State Fault Refusal := s.run (fun m => m.writeCmd F.TRG_CTL_reg (fun m => m.trgAbort))

/-- TRG_EN (R556). -/
def execTrgEn (on : Bool) (s : State) : Host.Outcome State Fault Refusal :=
  s.run (fun m => m.writeCmd F.TRG_CTL_reg (fun m => m.trgEn on))

/-- TRG_AUTO_TIMEOUT (R554). -/
def execTrgAutoTimeout (s : State) : Host.Outcome State Fault Refusal := s.run (fun m => m.ifLive (fun m => m.trgAuto))

/-- TRG_RING_EN (R565, R576). -/
def execTrgRingEn (h : Fin 6) (on : Bool) (s : State) : Host.Outcome State Fault Refusal :=
  s.run (fun m => m.writeCmd (F.TRG_R_CTL_reg h) (fun m => m.trgRingEn h on))

/-- TRG_RING_RELEASE (R572). -/
def execTrgRingRelease (h : Fin 6) (n : Nat) (s : State) : Host.Outcome State Fault Refusal :=
  s.run (fun m => m.writeCmd (F.TRG_R_REL_reg h) (fun m => m.trgRelease h (n % 65536)))

/-- MSYNC_EDGE (R90, R324, R438). -/
def execMsyncEdge (s : State) : Host.Outcome State Fault Refusal := s.run (fun m => m.ifLive (fun m => m.msyncAct))

end Sys2Proof.Machine
end

