-- ==== Sys2Proof/Machine/Dispatch.lean ====
section
/-!
DEFINITION. The meaning of each command: one call for each row of the opcode table.
-/
namespace Sys2Proof.Machine

def exec (i : Instr) (s : State) : Host.Outcome State Fault Refusal :=
  match i with
  | .powerOnResetAssert supply cut => Sys2Proof.Machine.execPowerOnResetAssert supply cut s
  | .powerOnResetRelease => Sys2Proof.Machine.execPowerOnResetRelease s
  | .refsrcSelect refclk => Sys2Proof.Machine.execRefsrcSelect refclk s
  | .lockFirst => Sys2Proof.Machine.execLockFirst s
  | .warmResetPin => Sys2Proof.Machine.execWarmResetPin s
  | .resetnRelease => Sys2Proof.Machine.execResetnRelease s
  | .sysRstWarm => Sys2Proof.Machine.execSysRstWarm s
  | .warmResetEnd => Sys2Proof.Machine.execWarmResetEnd s
  | .selftestDone pass => Sys2Proof.Machine.execSelftestDone pass s
  | .monitorWindowEnd count => Sys2Proof.Machine.execMonitorWindowEnd count s
  | .pllLockLoss => Sys2Proof.Machine.execPllLockLoss s
  | .refOkLoss => Sys2Proof.Machine.execRefOkLoss s
  | .relock => Sys2Proof.Machine.execRelock s
  | .sysTimeWrap => Sys2Proof.Machine.execSysTimeWrap s
  | .sysTimeLoRead => Sys2Proof.Machine.execSysTimeLoRead s
  | .headGate h => Sys2Proof.Machine.execHeadGate h s
  | .headStop h => Sys2Proof.Machine.execHeadStop h s
  | .headUngate h => Sys2Proof.Machine.execHeadUngate h s
  | .auxGate on => Sys2Proof.Machine.execAuxGate on s
  | .bcGate on => Sys2Proof.Machine.execBcGate on s
  | .wr1 addr words => Sys2Proof.Machine.execWr1 addr words s
  | .rd1 addr => Sys2Proof.Machine.execRd1 addr s
  | .st1 => Sys2Proof.Machine.execSt1 s
  | .wr4 addr words => Sys2Proof.Machine.execWr4 addr words s
  | .wr4f addr words => Sys2Proof.Machine.execWr4f addr words s
  | .rd4 addr => Sys2Proof.Machine.execRd4 addr s
  | .rd4f addr => Sys2Proof.Machine.execRd4f addr s
  | .st4 => Sys2Proof.Machine.execSt4 s
  | .commandInvalid code => Sys2Proof.Machine.execCommandInvalid code s
  | .csnRise part => Sys2Proof.Machine.execCsnRise part s
  | .portWriteApply => Sys2Proof.Machine.execPortWriteApply s
  | .portReadIssue ticks => Sys2Proof.Machine.execPortReadIssue ticks s
  | .sysHostdbWrite c => Sys2Proof.Machine.execSysHostdbWrite c s
  | .registerWrite agent addr v => Sys2Proof.Machine.execRegisterWrite agent addr v s
  | .bootReady beats => Sys2Proof.Machine.execBootReady beats s
  | .bootWinWrite v => Sys2Proof.Machine.execBootWinWrite v s
  | .bootCalStart => Sys2Proof.Machine.execBootCalStart s
  | .sigCheckDone => Sys2Proof.Machine.execSigCheckDone s
  | .bistDone pass beats => Sys2Proof.Machine.execBistDone pass beats s
  | .bootHandoff => Sys2Proof.Machine.execBootHandoff s
  | .bootLoadTimeout => Sys2Proof.Machine.execBootLoadTimeout s
  | .laneBootDetect => Sys2Proof.Machine.execLaneBootDetect s
  | .laneBootTimeout => Sys2Proof.Machine.execLaneBootTimeout s
  | .laneBootRearm => Sys2Proof.Machine.execLaneBootRearm s
  | .bootRestart => Sys2Proof.Machine.execBootRestart s
  | .fuseArm => Sys2Proof.Machine.execFuseArm s
  | .fuseBit bit io33 => Sys2Proof.Machine.execFuseBit bit io33 s
  | .fuseBlowDone => Sys2Proof.Machine.execFuseBlowDone s
  | .cmdHalt c => Sys2Proof.Machine.execCmdHalt c s
  | .cmdResume c => Sys2Proof.Machine.execCmdResume c s
  | .cmdPairrst c => Sys2Proof.Machine.execCmdPairrst c s
  | .eventPulse c line => Sys2Proof.Machine.execEventPulse c line s
  | .evtEnWrite c v => Sys2Proof.Machine.execEvtEnWrite c v s
  | .doorbell c ringer => Sys2Proof.Machine.execDoorbell c ringer s
  | .commitGo r => Sys2Proof.Machine.execCommitGo r s
  | .commitApply r => Sys2Proof.Machine.execCommitApply r s
  | .storeDrain c => Sys2Proof.Machine.execStoreDrain c s
  | .coreScrub addr found pass => Sys2Proof.Machine.execCoreScrub addr found pass s
  | .lockstepMismatch c => Sys2Proof.Machine.execLockstepMismatch c s
  | .illegalInstruction c w => Sys2Proof.Machine.execIllegalInstruction c w s
  | .fetchFault c => Sys2Proof.Machine.execFetchFault c s
  | .add c rd ra rb => Sys2Proof.Machine.execAdd c rd ra rb s
  | .sub c rd ra rb => Sys2Proof.Machine.execSub c rd ra rb s
  | .and c rd ra rb => Sys2Proof.Machine.execAnd c rd ra rb s
  | .or c rd ra rb => Sys2Proof.Machine.execOr c rd ra rb s
  | .xor c rd ra rb => Sys2Proof.Machine.execXor c rd ra rb s
  | .andn c rd ra rb => Sys2Proof.Machine.execAndn c rd ra rb s
  | .nor c rd ra rb => Sys2Proof.Machine.execNor c rd ra rb s
  | .sll c rd ra rb => Sys2Proof.Machine.execSll c rd ra rb s
  | .srl c rd ra rb => Sys2Proof.Machine.execSrl c rd ra rb s
  | .sra c rd ra rb => Sys2Proof.Machine.execSra c rd ra rb s
  | .slt c rd ra rb => Sys2Proof.Machine.execSlt c rd ra rb s
  | .sltu c rd ra rb => Sys2Proof.Machine.execSltu c rd ra rb s
  | .min c rd ra rb => Sys2Proof.Machine.execMin c rd ra rb s
  | .max c rd ra rb => Sys2Proof.Machine.execMax c rd ra rb s
  | .minu c rd ra rb => Sys2Proof.Machine.execMinu c rd ra rb s
  | .maxu c rd ra rb => Sys2Proof.Machine.execMaxu c rd ra rb s
  | .addi c rd ra imm => Sys2Proof.Machine.execAddi c rd ra imm s
  | .slti c rd ra imm => Sys2Proof.Machine.execSlti c rd ra imm s
  | .sltiu c rd ra imm => Sys2Proof.Machine.execSltiu c rd ra imm s
  | .andi c rd ra imm => Sys2Proof.Machine.execAndi c rd ra imm s
  | .ori c rd ra imm => Sys2Proof.Machine.execOri c rd ra imm s
  | .xori c rd ra imm => Sys2Proof.Machine.execXori c rd ra imm s
  | .lui c rd imm => Sys2Proof.Machine.execLui c rd imm s
  | .slli c rd ra sh => Sys2Proof.Machine.execSlli c rd ra sh s
  | .srli c rd ra sh => Sys2Proof.Machine.execSrli c rd ra sh s
  | .srai c rd ra sh => Sys2Proof.Machine.execSrai c rd ra sh s
  | .extu c rd ra w1 pos => Sys2Proof.Machine.execExtu c rd ra w1 pos s
  | .exts c rd ra w1 pos => Sys2Proof.Machine.execExts c rd ra w1 pos s
  | .ins c rd ra w1 pos => Sys2Proof.Machine.execIns c rd ra w1 pos s
  | .mul c rd ra rb => Sys2Proof.Machine.execMul c rd ra rb s
  | .mulh c rd ra rb => Sys2Proof.Machine.execMulh c rd ra rb s
  | .mulhu c rd ra rb => Sys2Proof.Machine.execMulhu c rd ra rb s
  | .div c rd ra rb => Sys2Proof.Machine.execDiv c rd ra rb s
  | .divu c rd ra rb => Sys2Proof.Machine.execDivu c rd ra rb s
  | .rem c rd ra rb => Sys2Proof.Machine.execRem c rd ra rb s
  | .remu c rd ra rb => Sys2Proof.Machine.execRemu c rd ra rb s
  | .ldb c rd ra imm => Sys2Proof.Machine.execLdb c rd ra imm s
  | .ldbu c rd ra imm => Sys2Proof.Machine.execLdbu c rd ra imm s
  | .ldh c rd ra imm => Sys2Proof.Machine.execLdh c rd ra imm s
  | .ldhu c rd ra imm => Sys2Proof.Machine.execLdhu c rd ra imm s
  | .ldw c rd ra imm => Sys2Proof.Machine.execLdw c rd ra imm s
  | .stb c rs ra imm => Sys2Proof.Machine.execStb c rs ra imm s
  | .sth c rs ra imm => Sys2Proof.Machine.execSth c rs ra imm s
  | .stw c rs ra imm => Sys2Proof.Machine.execStw c rs ra imm s
  | .beq c ra rb off => Sys2Proof.Machine.execBeq c ra rb off s
  | .bne c ra rb off => Sys2Proof.Machine.execBne c ra rb off s
  | .blt c ra rb off => Sys2Proof.Machine.execBlt c ra rb off s
  | .bge c ra rb off => Sys2Proof.Machine.execBge c ra rb off s
  | .bltu c ra rb off => Sys2Proof.Machine.execBltu c ra rb off s
  | .bgeu c ra rb off => Sys2Proof.Machine.execBgeu c ra rb off s
  | .beqi c ra imm off => Sys2Proof.Machine.execBeqi c ra imm off s
  | .bnei c ra imm off => Sys2Proof.Machine.execBnei c ra imm off s
  | .blti c ra imm off => Sys2Proof.Machine.execBlti c ra imm off s
  | .bgei c ra imm off => Sys2Proof.Machine.execBgei c ra imm off s
  | .bltui c ra imm off => Sys2Proof.Machine.execBltui c ra imm off s
  | .bgeui c ra imm off => Sys2Proof.Machine.execBgeui c ra imm off s
  | .jmp c off => Sys2Proof.Machine.execJmp c off s
  | .call c off => Sys2Proof.Machine.execCall c off s
  | .jr c ra => Sys2Proof.Machine.execJr c ra s
  | .callr c ra => Sys2Proof.Machine.execCallr c ra s
  | .halt c => Sys2Proof.Machine.execHalt c s
  | .time c rd rb => Sys2Proof.Machine.execTime c rd rb s
  | .fence c => Sys2Proof.Machine.execFence c s
  | .raise c ra => Sys2Proof.Machine.execRaise c ra s
  | .wait c rd deadline => Sys2Proof.Machine.execWait c rd deadline s
  | .waitDeadline c => Sys2Proof.Machine.execWaitDeadline c s
  | .commit c k => Sys2Proof.Machine.execCommit c k s
  | .fire c t => Sys2Proof.Machine.execFire c t s
  | .posev c rd ra a => Sys2Proof.Machine.execPosev c rd ra a s
  | .steprd c rd rb a => Sys2Proof.Machine.execSteprd c rd rb a s
  | .lnrd c rd a => Sys2Proof.Machine.execLnrd c rd a s
  | .emit c rd ra rb => Sys2Proof.Machine.execEmit c rd ra rb s
  | .swap c rd ra rb => Sys2Proof.Machine.execSwap c rd ra rb s
  | .cas c rd ra rb => Sys2Proof.Machine.execCas c rd ra rb s
  | .fadd c rd ra rb => Sys2Proof.Machine.execFadd c rd ra rb s
  | .fand c rd ra rb => Sys2Proof.Machine.execFand c rd ra rb s
  | .fOr c rd ra rb => Sys2Proof.Machine.execFor c rd ra rb s
  | .fxor c rd ra rb => Sys2Proof.Machine.execFxor c rd ra rb s
  | .lineTrigger h pos => Sys2Proof.Machine.execLineTrigger h pos s
  | .tpgTimer h => Sys2Proof.Machine.execTpgTimer h s
  | .tpgShot h => Sys2Proof.Machine.execTpgShot h s
  | .tpgClrcnt h => Sys2Proof.Machine.execTpgClrcnt h s
  | .tpgRun h on => Sys2Proof.Machine.execTpgRun h on s
  | .lineSync l => Sys2Proof.Machine.execLineSync l s
  | .patternEnd h => Sys2Proof.Machine.execPatternEnd h s
  | .lineDone h fields => Sys2Proof.Machine.execLineDone h fields s
  | .exposureStart h f low => Sys2Proof.Machine.execExposureStart h f low s
  | .exposureEnd h f least => Sys2Proof.Machine.execExposureEnd h f least s
  | .vadcSweep h => Sys2Proof.Machine.execVadcSweep h s
  | .sweepDone h samples => Sys2Proof.Machine.execSweepDone h samples s
  | .vadcCal h => Sys2Proof.Machine.execVadcCal h s
  | .vadcCalDone h pass factors => Sys2Proof.Machine.execVadcCalDone h pass factors s
  | .vadcCheckReport h check => Sys2Proof.Machine.execVadcCheckReport h check s
  | .shdPdataWrite h v => Sys2Proof.Machine.execShdPdataWrite h v s
  | .shdPdataRead h => Sys2Proof.Machine.execShdPdataRead h s
  | .shdBlenWrite h bank v => Sys2Proof.Machine.execShdBlenWrite h bank v s
  | .shdRefGo h white tbank k => Sys2Proof.Machine.execShdRefGo h white tbank k s
  | .shdRefDone h => Sys2Proof.Machine.execShdRefDone h s
  | .illEn h on => Sys2Proof.Machine.execIllEn h on s
  | .illSwap h => Sys2Proof.Machine.execIllSwap h s
  | .frameSwap h => Sys2Proof.Machine.execFrameSwap h s
  | .illSwcan h => Sys2Proof.Machine.execIllSwcan h s
  | .illFrmwWrite h x v => Sys2Proof.Machine.execIllFrmwWrite h x v s
  | .illShape h => Sys2Proof.Machine.execIllShape h s
  | .shapeDone h => Sys2Proof.Machine.execShapeDone h s
  | .illStest h => Sys2Proof.Machine.execIllStest h s
  | .shortTestDone h pairs => Sys2Proof.Machine.execShortTestDone h pairs s
  | .illCasgo h => Sys2Proof.Machine.execIllCasgo h s
  | .cascadeDataSend h => Sys2Proof.Machine.execCascadeDataSend h s
  | .cascadeMark h k => Sys2Proof.Machine.execCascadeMark h k s
  | .boostPeriod h near cool time => Sys2Proof.Machine.execBoostPeriod h near cool time s
  | .illMonitorSample h found => Sys2Proof.Machine.execIllMonitorSample h found s
  | .auxCal => Sys2Proof.Machine.execAuxCal s
  | .auxCalDone pass => Sys2Proof.Machine.execAuxCalDone pass s
  | .auxLoopStart conv => Sys2Proof.Machine.execAuxLoopStart conv s
  | .auxSeqEvent conv => Sys2Proof.Machine.execAuxSeqEvent conv s
  | .auxResult conv samples low => Sys2Proof.Machine.execAuxResult conv samples low s
  | .xcheckLate => Sys2Proof.Machine.execXcheckLate s
  | .auxUrgent conv e => Sys2Proof.Machine.execAuxUrgent conv e s
  | .urgentRunStart run => Sys2Proof.Machine.execUrgentRunStart run s
  | .auxEntLowWrite conv e v => Sys2Proof.Machine.execAuxEntLowWrite conv e v s
  | .auxEntHighWrite conv e v => Sys2Proof.Machine.execAuxEntHighWrite conv e v s
  | .auxCfgWrite r v => Sys2Proof.Machine.execAuxCfgWrite r v s
  | .auxClrskip conv => Sys2Proof.Machine.execAuxClrskip conv s
  | .excitationFault src seen => Sys2Proof.Machine.execExcitationFault src seen s
  | .auxExcstatClear v => Sys2Proof.Machine.execAuxExcstatClear v s
  | .trgPatternFire u hist => Sys2Proof.Machine.execTrgPatternFire u hist s
  | .trgTimeoutFire u => Sys2Proof.Machine.execTrgTimeoutFire u s
  | .trgSwt v => Sys2Proof.Machine.execTrgSwt v s
  | .trgArm => Sys2Proof.Machine.execTrgArm s
  | .trgAbort => Sys2Proof.Machine.execTrgAbort s
  | .trgEn on => Sys2Proof.Machine.execTrgEn on s
  | .trgAutoTimeout => Sys2Proof.Machine.execTrgAutoTimeout s
  | .trgRingEn h on => Sys2Proof.Machine.execTrgRingEn h on s
  | .trgRingRelease h n => Sys2Proof.Machine.execTrgRingRelease h n s
  | .msyncEdge => Sys2Proof.Machine.execMsyncEdge s
  | .motionInterval j0 j1 => Sys2Proof.Machine.execMotionInterval j0 j1 s
  | .stepPulse a => Sys2Proof.Machine.execStepPulse a s
  | .halLineTrigger h => Sys2Proof.Machine.execHalLineTrigger h s
  | .halStopnow a => Sys2Proof.Machine.execHalStopnow a s
  | .halHold a on => Sys2Proof.Machine.execHalHold a on s
  | .halEn a on => Sys2Proof.Machine.execHalEn a on s
  | .halMenDirWrite a men dir => Sys2Proof.Machine.execHalMenDirWrite a men dir s
  | .halPosset a v => Sys2Proof.Machine.execHalPosset a v s
  | .halHeadWrite h phase v => Sys2Proof.Machine.execHalHeadWrite h phase v s
  | .encoderCount a q => Sys2Proof.Machine.execEncoderCount a q s
  | .encoderIndex edge => Sys2Proof.Machine.execEncoderIndex edge s
  | .mfltFault a => Sys2Proof.Machine.execMfltFault a s
  | .reefClrcnt => Sys2Proof.Machine.execReefClrcnt s
  | .bcKeyreq v => Sys2Proof.Machine.execBcKeyreq v s
  | .bcCtxEn c on => Sys2Proof.Machine.execBcCtxEn c on s
  | .bcCtxRestart c => Sys2Proof.Machine.execBcCtxRestart c s
  | .bcCtxWpWrite c v => Sys2Proof.Machine.execBcCtxWpWrite c v s
  | .bcEncodePictureStart => Sys2Proof.Machine.execBcEncodePictureStart s
  | .bcDecodePictureStart => Sys2Proof.Machine.execBcDecodePictureStart s
  | .bcPictureDone coded => Sys2Proof.Machine.execBcPictureDone coded s
  | .bcOutputResume => Sys2Proof.Machine.execBcOutputResume s
  | .bcSelfCheck => Sys2Proof.Machine.execBcSelfCheck s
  | .bcCheckTimer => Sys2Proof.Machine.execBcCheckTimer s
  | .bcCapWindow => Sys2Proof.Machine.execBcCapWindow s
  | .lnEn on => Sys2Proof.Machine.execLnEn on s
  | .lnRetrain => Sys2Proof.Machine.execLnRetrain s
  | .lnClrerr l => Sys2Proof.Machine.execLnClrerr l s
  | .lnBslip l => Sys2Proof.Machine.execLnBslip l s
  | .lnTestWrite l v => Sys2Proof.Machine.execLnTestWrite l v s
  | .linkAttempt => Sys2Proof.Machine.execLinkAttempt s
  | .trainingSetReceived l code words skew => Sys2Proof.Machine.execTrainingSetReceived l code words skew s
  | .trainingTimeout => Sys2Proof.Machine.execTrainingTimeout s
  | .lanePllLock => Sys2Proof.Machine.execLanePllLock s
  | .blockLock l inverted => Sys2Proof.Machine.execBlockLock l inverted s
  | .linkLoss why => Sys2Proof.Machine.execLinkLoss why s
  | .fomRefresh l offsets => Sys2Proof.Machine.execFomRefresh l offsets s
  | .laneMarker => Sys2Proof.Machine.execLaneMarker s
  | .signalDetect l on => Sys2Proof.Machine.execSignalDetect l on s
  | .lrefclkLoss => Sys2Proof.Machine.execLrefclkLoss s
  | .imgSend => Sys2Proof.Machine.execImgSend s
  | .ctlSend => Sys2Proof.Machine.execCtlSend s
  | .rdreqSend => Sys2Proof.Machine.execRdreqSend s
  | .replay => Sys2Proof.Machine.execReplay s
  | .replayTimeout => Sys2Proof.Machine.execReplayTimeout s
  | .sessionOffer => Sys2Proof.Machine.execSessionOffer s
  | .rxOpen lines => Sys2Proof.Machine.execRxOpen lines s
  | .rxClose lines => Sys2Proof.Machine.execRxClose lines s
  | .rxMsg lines => Sys2Proof.Machine.execRxMsg lines s
  | .rxWr lines => Sys2Proof.Machine.execRxWr lines s
  | .rxRd lines => Sys2Proof.Machine.execRxRd lines s
  | .rxCpl lines => Sys2Proof.Machine.execRxCpl lines s
  | .rxLink lines => Sys2Proof.Machine.execRxLink lines s
  | .rxCredit lines => Sys2Proof.Machine.execRxCredit lines s
  | .stRdqWrite v full => Sys2Proof.Machine.execStRdqWrite v full s
  | .readTimeout tag => Sys2Proof.Machine.execReadTimeout tag s
  | .quarantineExit tag => Sys2Proof.Machine.execQuarantineExit tag s
  | .stRxrpWrite v => Sys2Proof.Machine.execStRxrpWrite v s
  | .stClose => Sys2Proof.Machine.execStClose s
  | .stEn on => Sys2Proof.Machine.execStEn on s
  | .stImgrun on => Sys2Proof.Machine.execStImgrun on s
  | .sessionRetryExpire => Sys2Proof.Machine.execSessionRetryExpire s
  | .faultNoticeRepeat => Sys2Proof.Machine.execFaultNoticeRepeat s
  | .bwlEn on => Sys2Proof.Machine.execBwlEn on s
  | .bwlReform => Sys2Proof.Machine.execBwlReform s
  | .bwlFrameReceive start syms => Sys2Proof.Machine.execBwlFrameReceive start syms s
  | .bwlFrameReturn lost start syms => Sys2Proof.Machine.execBwlFrameReturn lost start syms s
  | .bwlEventDeliver => Sys2Proof.Machine.execBwlEventDeliver s
  | .bwlLost => Sys2Proof.Machine.execBwlLost s
  | .faultDetect code => Sys2Proof.Machine.execFaultDetect code s
  | .shrClear v => Sys2Proof.Machine.execShrClear v s
  | .shrInj kind target => Sys2Proof.Machine.execShrInj kind target s
  | .supplyWindowFault supply mv => Sys2Proof.Machine.execSupplyWindowFault supply mv s
  | .thermalConversion temps => Sys2Proof.Machine.execThermalConversion temps s
  | .thermalShutdown => Sys2Proof.Machine.execThermalShutdown s
  | .lineStoreScrub place found => Sys2Proof.Machine.execLineStoreScrub place found s
  | .nvRead slot => Sys2Proof.Machine.execNvRead slot s
  | .nvCommit slot => Sys2Proof.Machine.execNvCommit slot s
  | .nvErase slot => Sys2Proof.Machine.execNvErase slot s
  | .nvLogread slot => Sys2Proof.Machine.execNvLogread slot s
  | .nvDone beats e => Sys2Proof.Machine.execNvDone beats e s
  | .nvLogEntry beats => Sys2Proof.Machine.execNvLogEntry beats s
  | .nvLogSearchDone beats corr bad => Sys2Proof.Machine.execNvLogSearchDone beats corr bad s
  | .supplyGood supply => Sys2Proof.Machine.execSupplyGood supply s
  | .referenceReturn => Sys2Proof.Machine.execReferenceReturn s
  | .lrefclkReturn => Sys2Proof.Machine.execLrefclkReturn s
  | .cdrLock l on => Sys2Proof.Machine.execCdrLock l on s
  | .blockLoss l => Sys2Proof.Machine.execBlockLoss l s
  | .prbsLock l on => Sys2Proof.Machine.execPrbsLock l on s
  | .refrdy => Sys2Proof.Machine.execRefrdy s
  | .tpgEdge h e => Sys2Proof.Machine.execTpgEdge h e s
  | .rowClose h f => Sys2Proof.Machine.execRowClose h f s
  | .witnessMean h row mean => Sys2Proof.Machine.execWitnessMean h row mean s

end Sys2Proof.Machine
end

