-- ==== Sys2Proof/Machine/Step.lean ====
section
/-!
DEFINITION. One step of the block: the command at the front of the queue, or a beat of the clock when none waits (log
entries 1 and 5).
-/
namespace Sys2Proof.Machine

/-- A beat passes with no command: the count goes on while the die's clock runs (R78, R83; log entry 5). -/
def State.idle (s : State) : State :=
  if s.m.clk.running then { s with m := s.m.setNow (s.m.now + 1) } else s

/-- One step. -/
def step (s : State) : Host.Outcome State Fault Refusal :=
  match s.pending with
  | [] => .next s.idle
  | c :: rest => exec c { s with pending := rest }

/-- `s` with the command that a word spells in front of its queue; no row of the table gives bits, so none is spelled. -/
def State.withFetchWord (s : State) (nbits w : Nat) : State :=
  match decodeTableWord nbits w with
  | some c => { s with pending := c :: s.pending }
  | none => s

end Sys2Proof.Machine
end

