-- ==== Sys2Proof/Safety.lean ====
section
/-!
DEFINITION. The vocabulary of the statements: when the block operates, what it means that a command completes, what a
command leaves alone, and the invariants of a safe run.
-/
namespace Sys2Proof.Machine

/-! ## Completion -/

/-- `i` completes on `s` in a next state with the property `P`. -/
def Does (i : Instr) (s : State) (P : State → Prop) : Prop := ∃ t, exec i s = .next t ∧ P t

/-! ## Frames: what a command may change beside what its statement names -/

/-- The machine of `t` as that of `s` but for the registers of the map, the count (a command acts in the first beat of a
tick, R74) and what the model notes of one beat. -/
def Mach.regsFrom (m n : Mach) : Mach := { m with regs := n.regs, sysTime := n.sysTime, wraps := n.wraps, beat := n.beat }

/-- `t` differs from `s` in the registers of the map only, apart from the count. -/
def OnlyRegs (s t : State) : Prop := t = { s with m := s.m.regsFrom t.m }

/-- `t` differs from `s` in the registers of the map and the cores only: memory, fuses, the NV array, the queue, the
heads, rings, axes and every other block are as before. -/
def OnlyCores (s t : State) : Prop := t = { s with m := { s.m.regsFrom t.m with cores := t.m.cores } }

/-- The same, and the heads. -/
def OnlyHeads (s t : State) : Prop := t = { s with m := { s.m.regsFrom t.m with cores := t.m.cores, heads := t.m.heads } }

/-- Every byte of the core memories and the line store reads as before. -/
def SameMem (s t : State) : Prop := ∀ a, t.m.byte a = s.m.byte a

/-- Every byte of the core memories reads as before. -/
def SameCoreMem (s t : State) : Prop := ∀ a, inCoreMem a = true → t.m.byte a = s.m.byte a

/-- Every register of the map outside `p` holds what it held. -/
def SameRegs (p : Nat → Prop) (s t : State) : Prop := ∀ a, ¬ p a → t.m.reg a = s.m.reg a

/-- The event registers of core `c`, which a pulse of one of its lines may change: STAT, EVT_PEND and EVT_OVF (R206). -/
def eventRegs (c a : Nat) : Prop := a = F.C_STAT_reg c ∨ a = F.C_EVT_PEND_reg c ∨ a = F.C_EVT_OVF_reg c

/-- Fuses, the NV array and the queue are as before. -/
def SameStores (s t : State) : Prop := t.fuses = s.fuses ∧ t.nvArr = s.nvArr ∧ t.pending = s.pending

/-- No byte of the core memories or the line store, no fuse, no NV byte and no waiting command is other than before. -/
def Keeps (s t : State) : Prop := SameMem s t ∧ SameStores s t

/-- Every core but `c` is as before. -/
def OtherCores (c : Fin 8) (s t : State) : Prop := ∀ d, d ≠ c → t.m.cores[d] = s.m.cores[d]

/-- Every head but `h` is as before. -/
def OtherHeads (h : Fin 6) (s t : State) : Prop := ∀ k, k ≠ h → t.m.heads[k] = s.m.heads[k]

/-! ## Events -/

/-- Line `e` of core `c` has pulsed: unless the pair was waiting, or its WAIT had just timed out, and could take a line at once, or
the line had pulsed in that tick before, the line is pending now (R210, R213, R216, R283). -/
def Pulsed (s t : State) (c : Fin 8) (e : Nat) : Prop :=
  let x := s.m.cores[c]
  s.m.get (F.C_STAT_STATE c) ≠ 2 → s.m.tickNo ≤ t.m.tickNo → (x.evSet.getLsbD e = true → x.evAt < s.m.tickNo) →
    (∀ n, x.lateAt = some n → n < s.m.tickNo) → (t.m.get (F.C_EVT_PEND_PEND c)).testBit e = true

/-! ## Felwen -/

/-- Core `c` has taken its turn in a tick, and its next instruction issues there (R31, R74, R232). -/
def State.turn (s : State) (c : Fin 8) : State := { s with m := s.m.takeTurn c }

/-- The clock has gone on to the first beat of a tick (R74). -/
def State.tick (s : State) : State := { s with m := s.m.atTick }

/-- No line of core `c` has pulsed in the tick that what happens now belongs to, and no deadline of it has expired there (R212,
R213, R283). -/
def Mach.quiet (m : Mach) (c : Fin 8) : Bool := m.cores[c].evAt != m.tickNo && m.cores[c].lateAt != some m.tickNo

/-- W[r] of core `c`: W0 reads 0 (R198). -/
def State.W (s : State) (c : Fin 8) (r : Rn) : Word := if r = 0 then 0 else s.m.cores[c].w[r.toFin]

/-- The registers of a core with `v` written to W[rd]: a write of W0 is discarded (R198). -/
def putW (w : Vector Word 16) (rd : Rn) (v : Word) : Vector Word 16 := if rd = 0 then w else w.set rd.toFin v

/-- Core `c` is `x`; nothing else has changed. -/
def State.core (s : State) (c : Fin 8) (x : CoreSt) : State := { s with m := { s.m with cores := s.m.cores.set c x } }

/-- An instruction of core `c` has written W[rd] and the PC goes on by 4; nothing else has changed. -/
def State.retire (s : State) (c : Fin 8) (rd : Rn) (v : Word) : State :=
  s.core c { s.m.cores[c] with w := putW s.m.cores[c].w rd v, pc := s.m.cores[c].pc + 4 }

/-- The PC of core `c` has gone to `pc`; nothing else has changed. -/
def State.goto (s : State) (c : Fin 8) (pc : Word) : State :=
  s.core c { s.m.cores[c] with pc := pc }

/-- The word that holds byte `a` is free of errors (R196). -/
def Mach.clean (m : Mach) (a : Nat) : Bool := !m.eccBad.contains (eccWord a) && !m.eccOne.contains (eccWord a)

/-- Core `c` runs firmware and its PC names a word of its IMEM that reads without error: the instruction there reaches
execution (R200, R201, R235, R249, R271). -/
def Mach.fetches (m : Mach) (c : Fin 8) : Bool :=
  m.live && m.get F.BOOT_STATUS_PHASE = 4 && m.get (F.C_STAT_STATE c) = 1 && m.cores[c].pc.toNat % 4 = 0 &&
    decide (m.cores[c].pc.toNat < 0x8000) && m.clean (imemBase c + m.cores[c].pc.toNat)

/-- The pair of core `c` stands halted with a cause (R206, R234). -/
def Mach.haltedBy (m : Mach) (c : Fin 8) (cause : Nat) : Prop :=
  m.get (F.C_STAT_STATE c) = 3 ∧ m.get (F.C_STAT_CAUSE c) = cause

/-! ## Felwen: branches and jumps -/

/-- A taken branch or jump of core `c` whose target the core cannot execute: the pair halts with `cause`, FAULT_ADDR holds the
target, and the PC and the registers stay as they were, W15 of a call among them (R270). -/
def JumpTraps (c : Fin 8) (s : State) (cause : Nat) (target : Word) (i : Instr) : Prop :=
  Does i s (fun t => t.m.haltedBy c cause ∧ t.m.get (F.C_FAULT_ADDR_ADDR c) = target.toNat ∧
    t.m.cores[c].pc = s.m.cores[c].pc ∧ t.m.cores[c].w = s.m.cores[c].w ∧ SameCoreMem s t ∧ SameStores s t)

/-- A compare-and-branch of core `c` goes to `dest` when its condition `b` holds and `dest` is a word of the IMEM, traps when `b`
holds and `dest` lies outside the IMEM, and goes on by 4 when `b` does not hold; nothing else changes. -/
def Branch (c : Fin 8) (s : State) (dest : Word) (i : Instr) (b : Prop) : Prop :=
  (¬ b → exec i s = .next ((s.turn c).goto c (s.m.cores[c].pc + 4))) ∧
    (b → dest.toNat < 0x8000 → exec i s = .next ((s.turn c).goto c dest)) ∧
    (b → 0x8000 ≤ dest.toNat → JumpTraps c s 7 dest i)

/-! ## Frames received -/

/-- The lanes' status and error counts, which what the lanes carry may change (R764). -/
def laneRegs (a : Nat) : Prop := ∃ l : Fin 4, a = F.LNL_STAT_reg l ∨ a = F.LNL_ERR_reg l

/-- The link still stands when these words have come in, and the stream that ST has then received goes on with the bytes of the
frame `raw` (R765, R770, R804). -/
def Mach.carries (m : Mach) (lines : RxLines) (raw : List Byte) : Bool :=
  let r := m.rxLines lines
  r.rxUp && (match r.ln.rxIn with | b :: _ => b.bytes.take raw.length = raw && raw != [] | [] => false)

/-! ## Pages -/

/-- No enabled ring keeps a line sync: a page that starts now has no line behind it, and cannot end at once (R551, R558). -/
def Mach.noSyncs (m : Mach) : Prop := ∀ h : Fin 6, m.ringOn h = true → (m.ring h).syncs = []

/-- No head is capturing a line: no pixel is still to be written to the line store (R24). -/
def Mach.noCapture (m : Mach) : Prop := ∀ h : Fin 6, ∀ l ∈ (m.head h).tpg.lines, l.done = true ∨ l.gone = true

/-! ## Invariants -/

/-- The NV array is in canonical form (log entry 6). -/
def State.nvCanonical (s : State) : Prop := Sparse.wf (fun _ => 0) s.nvArr = true

/-- Every fuse blown in `s` is blown in `t` (R176). -/
def FusesKept (s t : State) : Prop := ∀ i : Fin 259, s.fuses.getLsbD i = true → t.fuses.getLsbD i = true

/-- The commands that may blow a fuse: the end of a blow, and a power-on reset that cuts one (R173). -/
def blowsFuse : Instr → Bool
  | .fuseBlowDone => true
  | .powerOnResetAssert _ _ => true
  | _ => false

/-- The commands that may write the NV array (R935, R939-R941, R946). -/
def writesNv : Instr → Bool
  | .nvDone _ _ => true
  | .nvLogEntry _ => true
  | .powerOnResetAssert _ _ => true
  | _ => false

end Sys2Proof.Machine
end

