-- ==== Sys2Proof/WellFormed.lean ====
section
/-!
DEFINITION. Which commands the outside world can send: operands within the ranges that the spec gives them.  The meanings
are total all the same: an ill-formed command has no effect, or the one its rule gives an illegal word.
-/
namespace Sys2Proof

/-- The check names a field of the head (R391). -/
def Machine.VadcCheck.wf : Machine.VadcCheck → Bool
  | .level f d codes => decide (f < 4) && decide (d < 1024) && decide (codes.length = 8)
  | .dark f => decide (f < 4)
  | .dup f _ => decide (f < 4)

/-- The mark names a field (R475). -/
def Machine.CasMark.wf : Machine.CasMark → Bool
  | .on f => decide (f < 4)
  | .off f => decide (f < 4)
  | .apply => true

/-- The edge names an entry of the list, or a phase output and a field (R332, R335). -/
def Machine.TpgEdge.wf : Machine.TpgEdge → Bool
  | .entry e => decide (e < 64)
  | .rise p f _ => decide (p < 8) && decide (f < 4)
  | .fall p f _ => decide (p < 8) && decide (f < 4)
  | .idle p f => decide (p < 8) && decide (f < 4)

/-- The scrubbed place exists (R924). -/
def ScrubPlace.wf : ScrubPlace → Bool
  | .line x _ => decide (x < Machine.lineSize)
  | .other _ _ => true

/-- Lanes of one link in the same word slots (R765). -/
def Machine.RxLines.wf (x : Machine.RxLines) : Bool :=
  decide (x.code.length ≤ 4) && x.slots.all (fun s => decide (s.length = x.code.length))

/-- A command whose operands lie within the spec's ranges. -/
def Instr.wf : Instr → Bool
  | .powerOnResetAssert _ _ => true
  | .powerOnResetRelease => true
  | .refsrcSelect _ => true
  | .lockFirst => true
  | .warmResetPin => true
  | .resetnRelease => true
  | .sysRstWarm => true
  | .warmResetEnd => true
  | .selftestDone _ => true
  | .monitorWindowEnd _ => true
  | .pllLockLoss => true
  | .refOkLoss => true
  | .relock => true
  | .sysTimeWrap => true
  | .sysTimeLoRead => true
  | .headGate _ => true
  | .headStop _ => true
  | .headUngate _ => true
  | .auxGate _ => true
  | .bcGate _ => true
  | .wr1 _ _ => true
  | .rd1 _ => true
  | .st1 => true
  | .wr4 _ _ => true
  | .wr4f _ _ => true
  | .rd4 _ => true
  | .rd4f _ => true
  | .st4 => true
  | .commandInvalid code => !Machine.portCommands.contains code.toNat
  | .csnRise _ => true
  | .portWriteApply => true
  | .portReadIssue _ => true
  | .sysHostdbWrite _ => true
  | .registerWrite _ addr _ => Machine.mapped addr
  | .bootReady _ => true
  | .bootWinWrite _ => true
  | .bootCalStart => true
  | .sigCheckDone => true
  | .bistDone _ _ => true
  | .bootHandoff => true
  | .bootLoadTimeout => true
  | .laneBootDetect => true
  | .laneBootTimeout => true
  | .laneBootRearm => true
  | .bootRestart => true
  | .fuseArm => true
  | .fuseBit _ _ => true
  | .fuseBlowDone => true
  | .cmdHalt _ => true
  | .cmdResume _ => true
  | .cmdPairrst _ => true
  | .eventPulse c line => Machine.wired c line
  | .evtEnWrite _ _ => true
  | .doorbell _ _ => true
  | .commitGo _ => true
  | .commitApply _ => true
  | .storeDrain _ => true
  | .coreScrub addr _ _ => Machine.inCoreMem addr
  | .lockstepMismatch _ => true
  | .illegalInstruction c w => (decodeWord c w).isNone
  | .fetchFault _ => true
  | .add _ _ _ _ => true
  | .sub _ _ _ _ => true
  | .and _ _ _ _ => true
  | .or _ _ _ _ => true
  | .xor _ _ _ _ => true
  | .andn _ _ _ _ => true
  | .nor _ _ _ _ => true
  | .sll _ _ _ _ => true
  | .srl _ _ _ _ => true
  | .sra _ _ _ _ => true
  | .slt _ _ _ _ => true
  | .sltu _ _ _ _ => true
  | .min _ _ _ _ => true
  | .max _ _ _ _ => true
  | .minu _ _ _ _ => true
  | .maxu _ _ _ _ => true
  | .addi _ _ _ _ => true
  | .slti _ _ _ _ => true
  | .sltiu _ _ _ _ => true
  | .andi _ _ _ _ => true
  | .ori _ _ _ _ => true
  | .xori _ _ _ _ => true
  | .lui _ _ _ => true
  | .slli _ _ _ _ => true
  | .srli _ _ _ _ => true
  | .srai _ _ _ _ => true
  | .extu _ _ _ w1 pos => Machine.fieldOk w1 pos
  | .exts _ _ _ w1 pos => Machine.fieldOk w1 pos
  | .ins _ _ _ w1 pos => Machine.fieldOk w1 pos
  | .mul _ _ _ _ => true
  | .mulh _ _ _ _ => true
  | .mulhu _ _ _ _ => true
  | .div _ _ _ _ => true
  | .divu _ _ _ _ => true
  | .rem _ _ _ _ => true
  | .remu _ _ _ _ => true
  | .ldb _ _ _ _ => true
  | .ldbu _ _ _ _ => true
  | .ldh _ _ _ _ => true
  | .ldhu _ _ _ _ => true
  | .ldw _ _ _ _ => true
  | .stb _ _ _ _ => true
  | .sth _ _ _ _ => true
  | .stw _ _ _ _ => true
  | .beq _ _ _ _ => true
  | .bne _ _ _ _ => true
  | .blt _ _ _ _ => true
  | .bge _ _ _ _ => true
  | .bltu _ _ _ _ => true
  | .bgeu _ _ _ _ => true
  | .beqi _ _ _ _ => true
  | .bnei _ _ _ _ => true
  | .blti _ _ _ _ => true
  | .bgei _ _ _ _ => true
  | .bltui _ _ _ _ => true
  | .bgeui _ _ _ _ => true
  | .jmp _ _ => true
  | .call _ _ => true
  | .jr _ _ => true
  | .callr _ _ => true
  | .halt _ => true
  | .time _ rd rb => rb != rd
  | .fence _ => true
  | .raise _ _ => true
  | .wait _ _ _ => true
  | .waitDeadline _ => true
  | .commit _ k => commitK k.toNat
  | .fire _ s => decide (s.toNat < 16)
  | .posev c _ _ _ => c == 6
  | .steprd c rd rb _ => c == 6 && rb != rd
  | .lnrd c _ _ => c == 6
  | .emit _ _ _ _ => true
  | .swap _ _ _ _ => true
  | .cas _ _ _ _ => true
  | .fadd _ _ _ _ => true
  | .fand _ _ _ _ => true
  | .fOr _ _ _ _ => true
  | .fxor _ _ _ _ => true
  | .lineTrigger _ _ => true
  | .tpgTimer _ => true
  | .tpgShot _ => true
  | .tpgClrcnt _ => true
  | .tpgRun _ _ => true
  | .lineSync l => decide (l.wave.length ≤ 4)
  | .patternEnd _ => true
  | .lineDone _ _ => true
  | .exposureStart _ f _ => decide (f < 4)
  | .exposureEnd _ f _ => decide (f < 4)
  | .vadcSweep _ => true
  | .sweepDone _ _ => true
  | .vadcCal _ => true
  | .vadcCalDone _ _ factors => decide (factors.length = 16)
  | .vadcCheckReport _ check => check.wf
  | .shdPdataWrite _ _ => true
  | .shdPdataRead _ => true
  | .shdBlenWrite _ _ _ => true
  | .shdRefGo _ _ _ _ => true
  | .shdRefDone _ => true
  | .illEn _ _ => true
  | .illSwap _ => true
  | .frameSwap _ => true
  | .illSwcan _ => true
  | .illFrmwWrite _ _ _ => true
  | .illShape _ => true
  | .shapeDone _ => true
  | .illStest _ => true
  | .shortTestDone _ _ => true
  | .illCasgo _ => true
  | .cascadeDataSend _ => true
  | .cascadeMark _ k => k.wf
  | .boostPeriod _ _ _ _ => true
  | .illMonitorSample _ _ => true
  | .auxCal => true
  | .auxCalDone _ => true
  | .auxLoopStart _ => true
  | .auxSeqEvent _ => true
  | .auxResult _ samples _ => !samples.isEmpty
  | .xcheckLate => true
  | .auxUrgent _ _ => true
  | .urgentRunStart _ => true
  | .auxEntLowWrite _ _ _ => true
  | .auxEntHighWrite _ _ _ => true
  | .auxCfgWrite _ _ => true
  | .auxClrskip _ => true
  | .excitationFault _ x => decide (x.vals.length = 64)
  | .auxExcstatClear _ => true
  | .trgPatternFire _ _ => true
  | .trgTimeoutFire _ => true
  | .trgSwt _ => true
  | .trgArm => true
  | .trgAbort => true
  | .trgEn _ => true
  | .trgAutoTimeout => true
  | .trgRingEn _ _ => true
  | .trgRingRelease _ n => decide (n < 65536)
  | .msyncEdge => true
  | .motionInterval _ _ => true
  | .stepPulse _ => true
  | .halLineTrigger _ => true
  | .halStopnow _ => true
  | .halHold _ _ => true
  | .halEn _ _ => true
  | .halMenDirWrite _ _ _ => true
  | .halPosset _ _ => true
  | .halHeadWrite _ _ _ => true
  | .encoderCount _ _ => true
  | .encoderIndex _ => true
  | .mfltFault _ => true
  | .reefClrcnt => true
  | .bcKeyreq _ => true
  | .bcCtxEn _ _ => true
  | .bcCtxRestart _ => true
  | .bcCtxWpWrite _ _ => true
  | .bcEncodePictureStart => true
  | .bcDecodePictureStart => true
  | .bcPictureDone _ => true
  | .bcOutputResume => true
  | .bcSelfCheck => true
  | .bcCheckTimer => true
  | .bcCapWindow => true
  | .lnEn _ => true
  | .lnRetrain => true
  | .lnClrerr _ => true
  | .lnBslip _ => true
  | .lnTestWrite _ _ => true
  | .linkAttempt => true
  | .trainingSetReceived _ _ words _ => decide (words.length = 4)
  | .trainingTimeout => true
  | .lanePllLock => true
  | .blockLock _ _ => true
  | .linkLoss _ => true
  | .fomRefresh _ _ => true
  | .laneMarker => true
  | .signalDetect _ _ => true
  | .lrefclkLoss => true
  | .imgSend => true
  | .ctlSend => true
  | .rdreqSend => true
  | .replay => true
  | .replayTimeout => true
  | .sessionOffer => true
  | .rxOpen lines => lines.wf
  | .rxClose lines => lines.wf
  | .rxMsg lines => lines.wf
  | .rxWr lines => lines.wf
  | .rxRd lines => lines.wf
  | .rxCpl lines => lines.wf
  | .rxLink lines => lines.wf
  | .rxCredit lines => lines.wf
  | .stRdqWrite _ _ => true
  | .readTimeout _ => true
  | .quarantineExit _ => true
  | .stRxrpWrite _ => true
  | .stClose => true
  | .stEn _ => true
  | .stImgrun _ => true
  | .sessionRetryExpire => true
  | .faultNoticeRepeat => true
  | .bwlEn _ => true
  | .bwlReform => true
  | .bwlFrameReceive _ syms => decide (syms.length = 149)
  | .bwlFrameReturn _ _ syms => decide (syms.length = 149)
  | .bwlEventDeliver => true
  | .bwlLost => true
  | .faultDetect code => Machine.knownCode code.toNat
  | .shrClear _ => true
  | .shrInj _ _ => true
  | .supplyWindowFault _ _ => true
  | .thermalConversion temps => decide (temps.length = 8)
  | .thermalShutdown => true
  | .lineStoreScrub place _ => place.wf
  | .nvRead _ => true
  | .nvCommit _ => true
  | .nvErase _ => true
  | .nvLogread _ => true
  | .nvDone _ _ => true
  | .nvLogEntry _ => true
  | .nvLogSearchDone _ _ _ => true
  | .supplyGood _ => true
  | .referenceReturn => true
  | .lrefclkReturn => true
  | .cdrLock _ _ => true
  | .blockLoss _ => true
  | .prbsLock _ _ => true
  | .refrdy => true
  | .tpgEdge _ e => e.wf
  | .rowClose _ f => decide (f < 4)
  | .witnessMean _ _ _ => true

end Sys2Proof
end

