-- ==== Sys2Proof/Certificates/Slice0/Obligations.lean ====
section
/-!
DEFINITION. The statements for the provers.  Each `Does` says that a command completes, what its next state holds and what
it leaves alone.
-/
open Sys2Proof Sys2Proof.Machine

/-! ## The block as a whole -/

/-- A step runs the command at the front of the queue, with the rest of the queue behind it (log entry 1). -/
def Obligations.StepRunsFront : Prop :=
  ∀ (c : Instr) (rest : List Instr) (s : State), s.pending = c :: rest → step s = exec c { s with pending := rest }

/-- With no command waiting, a step is one beat of a running clock and changes nothing else (the model's choice, log entry 5).
Every command has a next state, and none touches the queue.  The turn in which a core's instruction issues is at the first beat of a
tick, at most one tick on, and changes nothing but the count, what the model notes of the beat, and that no deadline of the core has
just expired. Log entry 69. -/
def Obligations.EveryStepGoesOn : Prop :=
  (∀ s : State, s.pending = [] → ∃ t, step s = .next t ∧
     (s.m.clk.running = true → t.m.now = (s.m.now + 1) % 2 ^ 64) ∧ (s.m.clk.running = false → t = s) ∧
     t = { s with m := { s.m with sysTime := t.m.sysTime, wraps := t.m.wraps } }) ∧
  (∀ (i : Instr) (s : State), Does i s (fun t => t.pending = s.pending)) ∧
  (∀ (c : Fin 8) (s : State), s.m.live = true → s.m.now + 8 ≤ 2 ^ 64 →
     let u := s.turn c
     u.m.now % 4 = 0 ∧ s.m.now ≤ u.m.now ∧ u.m.now < s.m.now + 8 ∧
       u = { s with m := { s.m with sysTime := u.m.sysTime, wraps := u.m.wraps, beat := u.m.beat,
                                    cores := s.m.cores.set c { s.m.cores[c] with lateAt := none } } })

/-- No step clears a blown fuse, and only the end of a blow, or a power-on reset that cuts one, blows one (R173, R176). -/
def Obligations.FusesNeverClear : Prop :=
  ∀ s t : State, step s = .next t → FusesKept s t ∧
    (t.fuses ≠ s.fuses → ∃ i rest, s.pending = i :: rest ∧ blowsFuse i = true)

/-- Every step keeps the NV array in canonical form, and only the rows that end NV work change the array. -/
def Obligations.NvArrayStaysCanonical : Prop :=
  ∀ s t : State, s.nvCanonical → step s = .next t → t.nvCanonical ∧
    (t.nvArr ≠ s.nvArr → ∃ i rest, s.pending = i :: rest ∧ writesNv i = true)

/-- The state after reset has the invariants: canonical memory and NV array, an empty queue, no fuse blown (log entries 1,
4 and 6). -/
def Obligations.ResetHasInvariants : Prop :=
  State.reset.nvCanonical ∧ Sparse.wf (fun _ => 0) State.reset.m.mem = true ∧
    Sparse.wf regReset State.reset.m.regs = true ∧ State.reset.pending = [] ∧ State.reset.fuses = 0

/-- The state after reset: SYS_TIME at 0 and running, no reset asserted, FAULTN asserted, MEN and DIR low, no fault record,
PHASE INIT, C7 running and every other pair held in reset, every other register at its reset value (R78, R115, R117, R134,
R138, R180, R208; log entry 4). -/
def Obligations.ResetState : Prop :=
  let m := State.reset.m
  m.sysTime = 0 ∧ m.wraps = 0 ∧ m.live = true ∧ m.out.faultn = true ∧ m.out.men = 0 ∧ m.out.dir = 0 ∧
    m.get F.SHR_STATUS_HELD = 0 ∧ m.get F.SHR_STATUS_SAFE = 0 ∧ m.get F.BOOT_STATUS_PHASE = 0 ∧
    (∀ c : Fin 8, m.get (F.C_STAT_STATE c) = if c = 7 then 1 else 0) ∧
    (∀ a : Nat, a ≠ F.CLK_STAT_reg → a ≠ F.BOOT_ANA_reg → a ≠ F.C_STAT_reg 7 → m.reg a = regReset a)

/-- Words written out from the encodings of chapters 07 and 08 read as the instructions they stand for (R243-R246, R254,
R266-R268, R277, R278, R287, R305). -/
def Obligations.WordsDecode : Prop :=
  decodeWord 0 0x35404001#32 = some (.lui 0 5 0x4001) ∧ decodeWord 1 0x083C0001#32 = some (.jr 1 15) ∧
    decodeWord 0 0x399800E8#32 = some (.extu 0 6 6 7 8) ∧ decodeWord 2 0x855BFFFD#32 = some (.bne 2 5 6 0x3FFFD) ∧
    decodeWord 3 0xF4564001#32 = some (.emit 3 1 5 9) ∧ decodeWord 4 0xE60C0001#32 = some (.wait 4 8 (some 3))

/-- The words 0x0000_0000 and 0xFFFF_FFFF are illegal on every core (R247). -/
def Obligations.NullWordsIllegal : Prop := ∀ c : Fin 8, decodeWord c 0#32 = none ∧ decodeWord c 0xFFFFFFFF#32 = none

/-- Decoding an encoded instruction gives it back, for every well-formed instruction of a core with every operand at every
value that its encoding admits. -/
def Obligations.DecodeOfEncode : Prop :=
  ∀ (i : Instr) (c : Fin 8) (w : Word), i.wf = true → encode i = some (c, w) → decodeWord c w = some i

/-! ## Felwen: registers -/

/-- The register-register instructions write their result to W[rd], the PC goes on by 4, and nothing else changes; a write of
W0 is discarded (R198, R253). The register-immediate instructions and the immediate shifts: ADDI, SLTI and SLTIU extend the
sign of imm18, the logic instructions extend it with zeros, LUI puts imm16 above 16 zeros (R198, R251, R253, R254). -/
def Obligations.ArithmeticAndLogic : Prop :=
  (∀ (c : Fin 8) (rd ra rb : Rn) (s : State), s.m.fetches c = true →
     let u := s.turn c
     let a := s.W c ra
     let b := s.W c rb
     exec (.add c rd ra rb) s = .next (u.retire c rd (a + b)) ∧
     exec (.sub c rd ra rb) s = .next (u.retire c rd (a - b)) ∧
     exec (.and c rd ra rb) s = .next (u.retire c rd (a &&& b)) ∧
     exec (.or c rd ra rb) s = .next (u.retire c rd (a ||| b)) ∧
     exec (.xor c rd ra rb) s = .next (u.retire c rd (a ^^^ b)) ∧
     exec (.andn c rd ra rb) s = .next (u.retire c rd (a &&& ~~~b)) ∧
     exec (.nor c rd ra rb) s = .next (u.retire c rd (~~~(a ||| b))) ∧
     exec (.sll c rd ra rb) s = .next (u.retire c rd (a <<< (b.toNat % 32))) ∧
     exec (.srl c rd ra rb) s = .next (u.retire c rd (a >>> (b.toNat % 32))) ∧
     exec (.sra c rd ra rb) s = .next (u.retire c rd (a.sshiftRight (b.toNat % 32))) ∧
     exec (.slt c rd ra rb) s = .next (u.retire c rd (if a.toInt < b.toInt then 1 else 0)) ∧
     exec (.sltu c rd ra rb) s = .next (u.retire c rd (if a.toNat < b.toNat then 1 else 0)) ∧
     exec (.min c rd ra rb) s = .next (u.retire c rd (if b.slt a then b else a)) ∧
     exec (.max c rd ra rb) s = .next (u.retire c rd (if a.slt b then b else a)) ∧
     exec (.minu c rd ra rb) s = .next (u.retire c rd (if b.ult a then b else a)) ∧
     exec (.maxu c rd ra rb) s = .next (u.retire c rd (if a.ult b then b else a))) ∧
  (∀ (c : Fin 8) (rd ra : Rn) (imm : BitVec 18) (hi : BitVec 16) (sh : BitVec 5) (s : State), s.m.fetches c = true →
     let u := s.turn c
     let a := s.W c ra
     let x : Word := imm.signExtend 32
     let z : Word := imm.zeroExtend 32
     exec (.addi c rd ra imm) s = .next (u.retire c rd (a + x)) ∧
     exec (.slti c rd ra imm) s = .next (u.retire c rd (if a.toInt < x.toInt then 1 else 0)) ∧
     exec (.sltiu c rd ra imm) s = .next (u.retire c rd (if a.toNat < x.toNat then 1 else 0)) ∧
     exec (.andi c rd ra imm) s = .next (u.retire c rd (a &&& z)) ∧
     exec (.ori c rd ra imm) s = .next (u.retire c rd (a ||| z)) ∧
     exec (.xori c rd ra imm) s = .next (u.retire c rd (a ^^^ z)) ∧
     exec (.lui c rd hi) s = .next (u.retire c rd (hi.zeroExtend 32 <<< 16)) ∧
     exec (.slli c rd ra sh) s = .next (u.retire c rd (a <<< sh.toNat)) ∧
     exec (.srli c rd ra sh) s = .next (u.retire c rd (a >>> sh.toNat)) ∧
     exec (.srai c rd ra sh) s = .next (u.retire c rd (a.sshiftRight sh.toNat)))

/-- EXTU and EXTS take WIDTH bits of W[ra] from POS up, extended with zeros or with their sign; INS replaces those bits of
W[rd] by the low bits of W[ra] (R254). -/
def Obligations.BitFields : Prop :=
  ∀ (c : Fin 8) (rd ra : Rn) (w1 pos : BitVec 5) (s : State), s.m.fetches c = true → pos.toNat + (w1.toNat + 1) ≤ 32 →
    let u := s.turn c
    exec (.extu c rd ra w1 pos) s =
      .next (u.retire c rd (((s.W c ra).extractLsb' pos.toNat (w1.toNat + 1)).zeroExtend 32)) ∧
    exec (.exts c rd ra w1 pos) s =
      .next (u.retire c rd (((s.W c ra).extractLsb' pos.toNat (w1.toNat + 1)).signExtend 32)) ∧
    ∃ v : Word, exec (.ins c rd ra w1 pos) s = .next (u.retire c rd v) ∧
      ∀ i, i < 32 → v.getLsbD i =
        if pos.toNat ≤ i ∧ i < pos.toNat + (w1.toNat + 1) then (s.W c ra).getLsbD (i - pos.toNat) else (s.W c rd).getLsbD i

/-- The products and, for W[rb] other than 0, the quotients and remainders (R256, R257). -/
def Obligations.MultiplyAndDivide : Prop :=
  ∀ (c : Fin 8) (rd ra rb : Rn) (s : State), s.m.fetches c = true →
    let u := s.turn c
    let a := s.W c ra
    let b := s.W c rb
    exec (.mul c rd ra rb) s = .next (u.retire c rd (a * b)) ∧
    exec (.mulh c rd ra rb) s = .next (u.retire c rd ((a.signExtend 64 * b.signExtend 64).extractLsb' 32 32)) ∧
    exec (.mulhu c rd ra rb) s = .next (u.retire c rd ((a.zeroExtend 64 * b.zeroExtend 64).extractLsb' 32 32)) ∧
    (b ≠ 0 → exec (.div c rd ra rb) s = .next (u.retire c rd (BitVec.ofInt 32 (a.toInt.tdiv b.toInt))) ∧
      exec (.divu c rd ra rb) s = .next (u.retire c rd (a / b)) ∧
      exec (.rem c rd ra rb) s = .next (u.retire c rd (BitVec.ofInt 32 (a.toInt.tmod b.toInt))) ∧
      exec (.remu c rd ra rb) s = .next (u.retire c rd (a % b)))

/-- The divide instructions give the results of R258 in their special cases, and raise no fault there. -/
def Obligations.DivideSpecialCases : Prop :=
  ∀ (c : Fin 8) (rd ra rb : Rn) (s : State), s.m.fetches c = true →
    let u := s.turn c
    (s.W c rb = 0 →
      exec (.div c rd ra rb) s = .next (u.retire c rd 0xFFFFFFFF) ∧ exec (.divu c rd ra rb) s = .next (u.retire c rd 0xFFFFFFFF) ∧
      exec (.rem c rd ra rb) s = .next (u.retire c rd (s.W c ra)) ∧ exec (.remu c rd ra rb) s = .next (u.retire c rd (s.W c ra))) ∧
    (s.W c ra = 0x80000000 → s.W c rb = 0xFFFFFFFF →
      exec (.div c rd ra rb) s = .next (u.retire c rd 0x80000000) ∧ exec (.divu c rd ra rb) s = .next (u.retire c rd 0) ∧
      exec (.rem c rd ra rb) s = .next (u.retire c rd 0) ∧ exec (.remu c rd ra rb) s = .next (u.retire c rd 0x80000000))

/-! ## Felwen: memory -/

/-- Loads from the core's own IMEM and DMEM with an empty store buffer: little-endian bytes of the word at ea, extended by sign or
with zeros; the PC goes on by 4 and nothing else changes (R200, R251, R260).  A load of an own memory behind a store to the mailbox
waits until that store has taken effect (R224). -/
def Obligations.OwnLoads : Prop :=
  ∀ (c : Fin 8) (rd ra : Rn) (imm : BitVec 18) (s : State), s.m.fetches c = true →
    let u := s.turn c
    let ea := (s.W c ra + imm.signExtend 32).toNat
    let a := portAddr c ea
    let word (m : Mach) (a : Nat) : Word := m.byte (a + 3) ++ m.byte (a + 2) ++ m.byte (a + 1) ++ m.byte a
    (ea < 0x8000 ∨ (0x10000000 ≤ ea ∧ ea < 0x10004000)) → s.m.clean a = true →
    (s.m.cores[c].sb = [] →
      exec (.ldb c rd ra imm) s = .next (u.retire c rd ((s.m.byte a).signExtend 32)) ∧
      exec (.ldbu c rd ra imm) s = .next (u.retire c rd ((s.m.byte a).zeroExtend 32)) ∧
      (ea % 2 = 0 →
        exec (.ldh c rd ra imm) s = .next (u.retire c rd ((s.m.byte (a + 1) ++ s.m.byte a).signExtend 32)) ∧
        exec (.ldhu c rd ra imm) s = .next (u.retire c rd ((s.m.byte (a + 1) ++ s.m.byte a).zeroExtend 32))) ∧
      (ea % 4 = 0 → exec (.ldw c rd ra imm) s = .next (u.retire c rd (word s.m a)))) ∧
    (∀ b v : Word, s.m.cores[c].sb = [.store b v] → 0x20000000 ≤ b.toNat → b.toNat < 0x20004000 → b.toNat % 4 = 0 → ea % 4 = 0 →
      Does (.ldw c rd ra imm) s (fun t => word t.m (portAddr c b.toNat) = v ∧ t.m.cores[c].sb = [] ∧
        t.m.cores[c].w = putW s.m.cores[c].w rd (word s.m a) ∧ t.m.cores[c].pc = s.m.cores[c].pc + 4 ∧ OtherCores c s t ∧
        SameRegs (fun _ => False) s t ∧ SameStores s t))

/-- Stores to the core's own IMEM and DMEM: the bytes of W[rs] at ea, little-endian; every byte outside them reads as before, a
word store leaves its word free of errors, the PC goes on by 4, and nothing else changes (R196, R200, R223, R260). A word store
to the mailbox or to a mapped register goes into the store buffer while it has room, and takes effect later (R223). -/
def Obligations.Stores : Prop :=
  (∀ (c : Fin 8) (rs ra : Rn) (imm : BitVec 18) (s : State), s.m.fetches c = true →
     let u := s.turn c
     let ea := (s.W c ra + imm.signExtend 32).toNat
     let a := portAddr c ea
     let v := s.W c rs
     let after (n : Nat) (t : State) : Prop :=
       (∀ i, i < n → t.m.byte (a + i) = v.extractLsb' (8 * i) 8) ∧ (∀ b, b < a ∨ a + n ≤ b → t.m.byte b = s.m.byte b) ∧
         t = { u.goto c (s.m.cores[c].pc + 4) with
               m := { (u.goto c (s.m.cores[c].pc + 4)).m with mem := t.m.mem, eccBad := t.m.eccBad, eccOne := t.m.eccOne } }
     (ea < 0x8000 ∨ (0x10000000 ≤ ea ∧ ea < 0x10004000)) →
     (s.m.clean a = true → Does (.stb c rs ra imm) s (after 1) ∧ (ea % 2 = 0 → Does (.sth c rs ra imm) s (after 2))) ∧
     (ea % 4 = 0 → Does (.stw c rs ra imm) s (fun t => after 4 t ∧ t.m.clean a = true))) ∧
  (∀ (c : Fin 8) (rs ra : Rn) (imm : BitVec 18) (s : State), s.m.fetches c = true →
     let u := s.turn c
     let ea := s.W c ra + imm.signExtend 32
     ea.toNat % 4 = 0 → s.m.cores[c].sb.length < 4 →
     ((0x20000000 ≤ ea.toNat ∧ ea.toNat < 0x20004000) ∨
       (0x40000000 ≤ ea.toNat ∧ ea.toNat < 0x48000000 ∧ mapped (ea.toNat - 0x40000000) = true)) →
     exec (.stw c rs ra imm) s = .next
       (u.core c { u.m.cores[c] with sb := s.m.cores[c].sb ++ [.store ea (s.W c rs)], pc := s.m.cores[c].pc + 4 }))

/-- A load or store whose ea is not a multiple of its width halts the pair with cause 0x6, one outside every region with
cause 0x7; FAULT_ADDR holds ea, no byte of the core memories changes and the core's registers and PC stay (R201, R202, R235, R261). -/
def Obligations.AccessChecks : Prop :=
  ∀ (c : Fin 8) (r ra : Rn) (imm : BitVec 18) (s : State), s.m.fetches c = true →
    let ea := (s.W c ra + imm.signExtend 32).toNat
    let stops (cause : Nat) (i : Instr) : Prop := Does i s (fun t =>
      t.m.haltedBy c cause ∧ t.m.get (F.C_FAULT_ADDR_ADDR c) = ea ∧ SameCoreMem s t ∧ SameStores s t ∧
      t.m.cores[c].pc = s.m.cores[c].pc ∧ t.m.cores[c].w = s.m.cores[c].w)
    (ea % 4 ≠ 0 → stops 6 (.ldw c r ra imm) ∧ stops 6 (.stw c r ra imm)) ∧
    (ea % 2 ≠ 0 → stops 6 (.ldh c r ra imm) ∧ stops 6 (.ldhu c r ra imm) ∧ stops 6 (.sth c r ra imm)) ∧
    (0x4B000000 ≤ ea → stops 7 (.ldb c r ra imm) ∧ stops 7 (.ldbu c r ra imm) ∧ stops 7 (.stb c r ra imm))

/-! ## Felwen: branches and jumps -/

/-- The compare-and-branch instructions go to PC + sext(off) × 4 when their condition holds, to PC + 4 otherwise; the immediate
signed ones extend the sign of imm8, the unsigned ones extend it with zeros (R245, R251, R266, R267, R270). -/
def Obligations.Branches : Prop :=
  (∀ (c : Fin 8) (ra rb : Rn) (off : BitVec 18) (s : State), s.m.fetches c = true →
     let go := Branch c s (s.m.cores[c].pc + off.signExtend 32 * 4)
     let a := s.W c ra
     let b := s.W c rb
     go (.beq c ra rb off) (a = b) ∧ go (.bne c ra rb off) (a ≠ b) ∧
     go (.blt c ra rb off) (a.toInt < b.toInt) ∧ go (.bge c ra rb off) (b.toInt ≤ a.toInt) ∧
     go (.bltu c ra rb off) (a.toNat < b.toNat) ∧ go (.bgeu c ra rb off) (b.toNat ≤ a.toNat)) ∧
  (∀ (c : Fin 8) (ra : Rn) (imm : BitVec 8) (off : BitVec 14) (s : State), s.m.fetches c = true →
     let go := Branch c s (s.m.cores[c].pc + off.signExtend 32 * 4)
     let a := s.W c ra
     go (.beqi c ra imm off) (a = imm.signExtend 32) ∧ go (.bnei c ra imm off) (a ≠ imm.signExtend 32) ∧
     go (.blti c ra imm off) (a.toInt < imm.toInt) ∧ go (.bgei c ra imm off) (imm.toInt ≤ a.toInt) ∧
     go (.bltui c ra imm off) (a.toNat < imm.toNat) ∧ go (.bgeui c ra imm off) (imm.toNat ≤ a.toNat))

/-- JMP and JR go to their target, CALL and CALLR first write PC + 4 to W15, when the target is a word of the IMEM, and nothing
else changes; a target that is not a multiple of 4 or lies outside the IMEM halts the pair with cause 0x6 or 0x7 (R198, R245,
R268, R270). -/
def Obligations.Jumps : Prop :=
  ∀ (c : Fin 8) (ra : Rn) (off : BitVec 26) (s : State), s.m.fetches c = true →
    let u := s.turn c
    let pc := s.m.cores[c].pc
    let dest := pc + off.signExtend 32 * 4
    let linked : State := u.core c { u.m.cores[c] with w := s.m.cores[c].w.set 15 (pc + 4) }
    let reg := s.W c ra
    (dest.toNat < 0x8000 → exec (.jmp c off) s = .next (u.goto c dest) ∧ exec (.call c off) s = .next (linked.goto c dest)) ∧
    (0x8000 ≤ dest.toNat → JumpTraps c s 7 dest (.jmp c off) ∧ JumpTraps c s 7 dest (.call c off)) ∧
    (reg.toNat % 4 = 0 → reg.toNat < 0x8000 →
      exec (.jr c ra) s = .next (u.goto c reg) ∧ exec (.callr c ra) s = .next (linked.goto c reg)) ∧
    (reg.toNat % 4 ≠ 0 → JumpTraps c s 6 reg (.jr c ra) ∧ JumpTraps c s 6 reg (.callr c ra)) ∧
    (reg.toNat % 4 = 0 → 0x8000 ≤ reg.toNat → JumpTraps c s 7 reg (.jr c ra) ∧ JumpTraps c s 7 reg (.callr c ra))

/-! ## Felwen: device instructions -/

/-- HALT halts the pair with cause 0x2, the PC at the HALT plus 4; only the pair's STAT and its core change, and
CMD_RESUME goes on from there (R238, R300). -/
def Obligations.HaltAndResume : Prop :=
  ∀ (c : Fin 8) (s : State), s.m.fetches c = true →
    Does (.halt c) s (fun t =>
      t.m.haltedBy c 2 ∧ t.m.cores[c].pc = s.m.cores[c].pc + 4 ∧ t.m.cores[c].w = s.m.cores[c].w ∧
      SameRegs (fun a => a = F.C_STAT_reg c) s t ∧ OnlyCores s t ∧ (∀ d, d ≠ c → t.m.cores[d] = s.m.cores[d]) ∧
      Does (.cmdResume c) t (fun u => u.m.get (F.C_STAT_STATE c) = 1 ∧ u.m.cores[c].pc = s.m.cores[c].pc + 4))

/-- TIME writes SYS_TIME[31:0] of the tick's first beat to W[rd], and SYS_TIME[47:32] with WRAPS above it to W[rb] (R298);
FENCE with an empty store buffer only goes on (R299). The axis hooks of C6 with an empty store buffer: POSEV arms or disarms
and answers whether an arm stood, STEPRD reads C and OBS, LNRD the steps to the next line (R313-R318). -/
def Obligations.TimeFenceAndAxes : Prop :=
  (∀ (c : Fin 8) (rd rb : Rn) (s : State), s.m.fetches c = true →
     let u := s.turn c
     let t0 := u.m.sysTime.toNat
     (rb ≠ rd → exec (.time c rd rb) s = .next (u.core c { u.m.cores[c] with
       w := putW (putW s.m.cores[c].w rd (BitVec.ofNat 32 t0)) rb (u.m.wraps ++ (BitVec.ofNat 48 t0).extractLsb' 32 16),
       pc := s.m.cores[c].pc + 4 })) ∧
     (s.m.cores[c].sb = [] → exec (.fence c) s = .next (u.goto c (s.m.cores[c].pc + 4)))) ∧
  (∀ (rd ra rb : Rn) (a : Fin 2) (s : State), s.m.fetches 6 = true → s.m.cores[6].sb = [] →
     let u := s.turn 6
     let was : Word := if s.m.axes[a].posev.isSome then 1 else 0
     (s.W 6 ra = 0x80000000 → Does (.posev 6 rd ra a) s (fun t => t.m.axes[a].posev = none ∧
       t.m.cores = (u.retire 6 rd was).m.cores ∧ SameRegs (fun _ => False) s t ∧ SameMem s t)) ∧
     (s.W 6 ra ≠ 0x80000000 → s.W 6 ra ≠ BitVec.ofInt 32 s.m.axes[a].c → Does (.posev 6 rd ra a) s (fun t =>
       t.m.axes[a].posev = some (s.W 6 ra).toInt ∧ t.m.cores = (u.retire 6 rd was).m.cores ∧ SameRegs (fun _ => False) s t ∧
       SameMem s t)) ∧
     (rb ≠ rd → Does (.steprd 6 rd rb a) s (fun t => t.m.cores[6].pc = s.m.cores[6].pc + 4 ∧
       t.m.cores[6].w = putW (putW s.m.cores[6].w rd (BitVec.ofInt 32 s.m.axes[a].c)) rb (BitVec.ofInt 32 (u.m.obs a)) ∧
       OnlyCores s t ∧ SameRegs (fun _ => False) s t)) ∧
     exec (.lnrd 6 rd a) s = .next (u.retire 6 rd (BitVec.ofNat 32 (u.m.lnext a))))

/-- RAISE, COMMIT and FIRE go into a store buffer that has room, in program order behind earlier stores (R223, R287, R290,
R293); a COMMIT is a store of 1 to its commit register. -/
def Obligations.BufferedCommands : Prop :=
  ∀ (c : Fin 8) (ra : Rn) (k : BitVec 18) (s : State), s.m.fetches c = true → s.m.cores[c].sb.length < 4 →
    let u := s.turn c
    let put (e : SbEntry) : State :=
      u.core c { u.m.cores[c] with sb := s.m.cores[c].sb ++ [e], pc := s.m.cores[c].pc + 4 }
    exec (.raise c ra) s = .next (put (.raise (s.W c ra))) ∧
    (k.toNat < 16 → exec (.fire c k) s = .next (put (.fire k.toNat))) ∧
    (k.toNat < 6 → exec (.commit c k) s = .next (put (.store (BitVec.ofNat 32 (0x40100004 + 0x10000 * k.toNat)) 1))) ∧
    (k.toNat = 8 ∨ k.toNat = 9 →
      exec (.commit c k) s = .next (put (.store (BitVec.ofNat 32 (0x40220104 + 0x100 * (k.toNat - 8))) 1))) ∧
    (16 ≤ k.toNat → k.toNat < 32 →
      exec (.commit c k) s = .next (put (.store (BitVec.ofNat 32 (0x40241004 + 0x100 * (k.toNat - 16))) 1)))

/-- WAIT with no enabled line pending: it waits, or with a count of 0 returns 32 at once; with one pending the lowest is taken,
its pending bit clears, unless its line pulses in that tick, and W[rd] gets its number (R212, R215, R280-R282, R285). WAIT_DEADLINE: a waiting core whose deadline comes
gets 32 in the WAIT's register and goes on (R282, R286). -/
def Obligations.Waiting : Prop :=
  (∀ (c : Fin 8) (rd ra : Rn) (s : State), s.m.fetches c = true →
     let u := s.turn c
     let ready := s.m.get (F.C_EVT_EN_EN c) &&& s.m.get (F.C_EVT_PEND_PEND c)
     (ready = 0 →
       Does (.wait c rd none) s (fun t => t.m.get (F.C_STAT_STATE c) = 2 ∧ t.m.cores[c].waitUntil = none ∧
         t.m.cores[c].w = s.m.cores[c].w ∧ SameRegs (fun a => a = F.C_STAT_reg c) s t ∧ OnlyCores s t) ∧
       (0 < (s.W c ra).toNat → Does (.wait c rd (some ra)) s (fun t => t.m.get (F.C_STAT_STATE c) = 2 ∧
         t.m.cores[c].waitUntil = some ((u.m.now / 4 + (s.W c ra).toNat) * 4) ∧ OnlyCores s t)) ∧
       (s.W c ra = 0 → Does (.wait c rd (some ra)) s (fun t => t.m.cores[c].w = putW s.m.cores[c].w rd 32 ∧
         t.m.cores[c].pc = s.m.cores[c].pc + 4 ∧ SameRegs (fun _ => False) s t ∧ OnlyCores s t))) ∧
     (∀ e : Fin 32, ready.testBit e = true → (∀ k, k < e.val → ready.testBit k = false) → (c ≠ 7 ∨ e ≠ 0) → ∀ d : Option Rn,
       (u.m.cores[c].evAt = u.m.tickNo → u.m.cores[c].evSet.getLsbD e = true → Does (.wait c rd d) s (fun t =>
         t.m.cores[c].w = putW s.m.cores[c].w rd (BitVec.ofNat 32 e) ∧ t.m.cores[c].pc = s.m.cores[c].pc + 4 ∧
         t.m.get (F.C_EVT_PEND_PEND c) = s.m.get (F.C_EVT_PEND_PEND c))) ∧
       (u.m.cores[c].evAt ≠ u.m.tickNo → Does (.wait c rd d) s (fun t => t.m.cores[c].w = putW s.m.cores[c].w rd (BitVec.ofNat 32 e) ∧
         t.m.cores[c].pc = s.m.cores[c].pc + 4 ∧ (∀ k, (t.m.get (F.C_EVT_PEND_PEND c)).testBit k = (decide (k ≠ e.val) && (s.m.get (F.C_EVT_PEND_PEND c)).testBit k)) ∧
         SameRegs (fun a => a = F.C_EVT_PEND_reg c ∨ a = F.C_STAT_reg c) s t ∧ OnlyCores s t)))) ∧
  (∀ (c : Fin 8) (s : State) (d : Nat), s.m.live = true → s.m.get (F.C_STAT_STATE c) = 2 → s.m.cores[c].waitUntil = some d →
     s.m.cores[c].waitRd < 16 →
     Does (.waitDeadline c) s (fun t => t.m.get (F.C_STAT_STATE c) = 1 ∧ t.m.cores[c].pc = s.m.cores[c].pc + 4 ∧
       t.m.cores[c].w = putW s.m.cores[c].w (BitVec.ofNat 4 s.m.cores[c].waitRd) 32 ∧ t.m.cores[c].waitUntil = none ∧ (d < 2 ^ 64 → t.m.now = max s.m.now d) ∧
       SameRegs (fun a => a = F.C_STAT_reg c) s t ∧ (∀ k, k ≠ c → t.m.cores[k] = s.m.cores[k]) ∧ SameMem s t))

/-- The atomics on a clean mailbox word, with an empty store buffer: W[rd] gets the old word, and the new word is what each
instruction makes of it (CAS writes only on equality); every other byte, register and core stays (R301, R302). -/
def Obligations.Atomics : Prop :=
  ∀ (c : Fin 8) (rd ra rb : Rn) (s : State), s.m.fetches c = true → s.m.cores[c].sb = [] →
    let u := s.turn c
    let ea := (s.W c ra).toNat
    let a := 0x480000 + (ea - 0x20000000)
    let word (m : Mach) : Word := m.byte (a + 3) ++ m.byte (a + 2) ++ m.byte (a + 1) ++ m.byte a
    let old := word s.m
    let b := s.W c rb
    ea % 4 = 0 → 0x20000000 ≤ ea → ea < 0x20004000 → s.m.clean a = true →
    let does (i : Instr) (new : Word) : Prop := Does i s (fun t => word t.m = new ∧
      (∀ x, x < a ∨ a + 4 ≤ x → t.m.byte x = s.m.byte x) ∧ t.m.cores = (u.retire c rd old).m.cores ∧
      t = { u with m := { u.m with cores := t.m.cores, mem := t.m.mem, eccBad := t.m.eccBad, eccOne := t.m.eccOne } })
    does (.swap c rd ra rb) b ∧ does (.cas c rd ra rb) (if old = b then s.W c rd else old) ∧ does (.fadd c rd ra rb) (old + b) ∧
    does (.fand c rd ra rb) (old &&& b) ∧ does (.fOr c rd ra rb) (old ||| b) ∧ does (.fxor c rd ra rb) (old ^^^ b)

/-- An atomic whose address is not a multiple of 4 halts the pair with cause 0x6, one outside the mailbox with cause 0x7;
FAULT_ADDR holds W[ra], and the core memories and the core's registers stay as they were (R303). -/
def Obligations.AtomicChecks : Prop :=
  ∀ (c : Fin 8) (rd ra rb : Rn) (s : State), s.m.fetches c = true →
    let ea := (s.W c ra).toNat
    let stops (cause : Nat) : Prop := ∀ i ∈ ([.swap c rd ra rb, .cas c rd ra rb, .fadd c rd ra rb, .fand c rd ra rb,
        .fOr c rd ra rb, .fxor c rd ra rb] : List Instr),
      Does i s (fun t => t.m.haltedBy c cause ∧ t.m.get (F.C_FAULT_ADDR_ADDR c) = ea ∧ SameCoreMem s t ∧ SameStores s t ∧
        t.m.cores[c].pc = s.m.cores[c].pc ∧ t.m.cores[c].w = s.m.cores[c].w)
    (ea % 4 ≠ 0 → stops 6) ∧ (ea % 4 = 0 → (ea < 0x20000000 ∨ 0x20004000 ≤ ea) → stops 7)

/-- EMIT with an empty store buffer goes on by 4 with a status in W[rd]: 3 for a descriptor whose reserved bits are not 0,
2 for an image descriptor inside the line store while IMGRUN is 0, and 0 when the entry is accepted, which then stands at
the end of the queue and counts in ST_EMITS (R305-R311; log entry 42 for the order of the statuses). -/
def Obligations.Emit : Prop :=
  ∀ (c : Fin 8) (rd ra rb : Rn) (s : State), s.m.fetches c = true → s.m.cores[c].sb = [] →
    let u := s.turn c
    let addr := (s.W c ra).toNat
    let desc := s.W c rb
    let len := desc.toNat % 2 ^ 24
    ((desc.getLsbD 29 = true ∨ desc.getLsbD 30 = true) → exec (.emit c rd ra rb) s = .next (u.retire c rd 3)) ∧
    (desc.extractLsb' 28 3 = 0 → len ≠ 0 → len % 4 = 0 → addr % 4 = 0 → 0x48000000 ≤ addr → addr + len ≤ 0x4B000000 →
      (s.m.get F.ST_CTL_IMGRUN = 0 → exec (.emit c rd ra rb) s = .next (u.retire c rd 2)) ∧
      (s.m.get F.ST_CTL_IMGRUN = 1 → s.m.get F.ST_CTL_EN = 1 → (s.m.get F.ST_STAT_SESS = 2 ∨ s.m.get F.ST_STAT_SESS = 3) →
        s.m.st.queue.length < 64 →
        Does (.emit c rd ra rb) s (fun t => t.m.cores[c] = { (u.retire c rd 0).m.cores[c] with
            evAt := t.m.cores[c].evAt, evSet := t.m.cores[c].evSet, evOvf := t.m.cores[c].evOvf } ∧ SameMem s t ∧ SameStores s t ∧
          t.m.get (F.ST_EMITS_N c) = (s.m.get (F.ST_EMITS_N c) + 1) % 2 ^ 32 ∧
          ∃ e : StEntry, t.m.st.queue = s.m.st.queue ++ [e] ∧ e.ctl = false ∧ e.coded = false ∧ e.len = len ∧
            e.stream = (desc.extractLsb' 24 4).toNat ∧ e.last = desc.getLsbD 31 ∧ e.segs = [(addr - 0x40000000, len)])))

/-! ## Cores as the rest of the block sees them -/

/-- CMD_HALT, CMD_RESUME and CMD_PAIRRST: what each does in the states in which it acts, and that it changes nothing in the
others, a pair held in reset among them; only the pair's registers and its core change (R184, R207, R236-R240). What halts a pair with a fault: a lockstep mismatch
(cause 0x4), a word that decodes to nothing (0x5), and a fetch that is misaligned (0x6), outside the IMEM (0x7) or of an
uncorrectable word (0x8); each leaves the core's registers and PC, and the record is held (R193, R201, R234, R248, R249, R271).
A mismatch with no record held enters the safe state under its own code (R50, R917, R920). Log entry 58. -/
def Obligations.CorePairs : Prop :=
  (∀ (c : Fin 8) (s : State), s.m.live = true → (c = 7 → s.m.get F.BOOT_STATUS_PHASE = 4) →
     let st := s.m.get (F.C_STAT_STATE c)
     let cause := s.m.get (F.C_STAT_CAUSE c)
     let only (p : Nat → Prop) (t : State) : Prop := OnlyCores s t ∧ SameRegs p s t ∧ OtherCores c s t
     ((st = 1 ∨ st = 2) → Does (.cmdHalt c) s (fun t => t.m.haltedBy c 3 ∧ only (· = F.C_STAT_reg c) t ∧
       t.m.cores[c] = { s.m.cores[c] with waitUntil := none, lateAt := none })) ∧
     ((st = 0 ∨ st = 3) → exec (.cmdHalt c) s = .next s.tick) ∧
     (st = 3 → (cause = 2 ∨ cause = 3) → Does (.cmdResume c) s (fun t => t.m.get (F.C_STAT_STATE c) = 1 ∧
       only (· = F.C_STAT_reg c) t ∧ t.m.cores[c] = s.m.cores[c])) ∧
     ((st ≠ 3 ∨ (cause ≠ 2 ∧ cause ≠ 3)) → exec (.cmdResume c) s = .next s.tick) ∧
     (st ≠ 0 → ¬ (st = 3 ∧ 4 ≤ cause ∧ cause ≤ 8 ∧ s.m.get F.SHR_STATUS_HELD = 1) →
       Does (.cmdPairrst c) s (fun t => t.m.get (F.C_STAT_STATE c) = 1 ∧ t.m.get (F.C_EVT_EN_EN c) = 0 ∧
         t.m.cores[c].pc = s.m.reg (F.C_START_reg c) ∧ t.m.cores[c].sb = [] ∧
         (∀ r : Fin 16, t.m.cores[c].w[r] = if r = 1 then s.m.reg (F.C_STAT_reg c) else if r = 14 then 0x10004000 else 0) ∧
         only (fun a => a = F.C_STAT_reg c ∨ a = F.C_EVT_EN_reg c) t)) ∧
     (st = 3 → 4 ≤ cause → cause ≤ 8 → s.m.get F.SHR_STATUS_HELD = 1 → exec (.cmdPairrst c) s = .next s.tick) ∧ (st = 0 → exec (.cmdPairrst c) s = .next s.tick)) ∧
  (∀ (c : Fin 8) (s : State), s.m.live = true →
     let stops (i : Instr) (cause : Nat) : Prop := Does i s (fun t => t.m.haltedBy c cause ∧ t.m.get F.SHR_STATUS_HELD = 1 ∧
       t.m.cores[c].w = s.m.cores[c].w ∧ t.m.cores[c].pc = s.m.cores[c].pc ∧ SameCoreMem s t ∧ SameStores s t ∧
       (s.m.get F.SHR_STATUS_HELD = 0 → t.m.get F.SHR_STATUS_SAFE = 1 ∧ t.m.out.faultn = true ∧
         (cause ≠ 8 → t.m.get F.SHR_REC_PRIMARY = 0x100 + 16 * c.val + cause)))
     ((s.m.get (F.C_STAT_STATE c) = 1 ∨ s.m.get (F.C_STAT_STATE c) = 2) → stops (.lockstepMismatch c) 4) ∧
     ((s.m.get (F.C_STAT_STATE c) = 0 ∨ s.m.get (F.C_STAT_STATE c) = 3) → exec (.lockstepMismatch c) s = .next s.tick) ∧
     (s.m.fetches c = true → exec (.fetchFault c) s = .next (s.turn c) ∧
       ∀ w : Word, (decodeWord c w = none → stops (.illegalInstruction c w) 5) ∧
         ((decodeWord c w).isSome = true → exec (.illegalInstruction c w) s = .next (s.turn c))) ∧
     (s.m.get F.BOOT_STATUS_PHASE = 4 → s.m.get (F.C_STAT_STATE c) = 1 →
       let pc := s.m.cores[c].pc.toNat
       (pc % 4 ≠ 0 → stops (.fetchFault c) 6) ∧
       (pc % 4 = 0 → 0x8000 ≤ pc → stops (.fetchFault c) 7) ∧
       (pc % 4 = 0 → pc < 0x8000 → s.m.isBad (imemBase c + pc) = true → stops (.fetchFault c) 8)))

/-- Events: a wired line becomes pending and sets its overflow bit when it was pending already, what pulses it again in the same
tick adds nothing, a reserved line never pulses; a write of EVT_EN enables lines; a doorbell records its ringer and pulses MBX_DB
(CP_DB for the control port at C7), and SYS_HOSTDB raises the core's HOSTDB bit (R209-R217, R222, R874).  A waiting pair takes an
enabled line at once (R216). -/
def Obligations.Events : Prop :=
  ∀ (c : Fin 8) (s : State), s.m.live = true →
    let pend := s.m.get (F.C_EVT_PEND_PEND c)
    let quiet (p : Nat → Prop) (t : State) : Prop := OnlyCores s t ∧ OtherCores c s t ∧ SameRegs p s t ∧
      t.m.cores[c] = { s.m.cores[c] with evAt := t.m.cores[c].evAt, evSet := t.m.cores[c].evSet, evOvf := t.m.cores[c].evOvf }
    (∀ e : Fin 32, wired c e = false → exec (.eventPulse c e) s = .next s) ∧
    (∀ e : Fin 32, s.m.cores[c].evAt = s.m.tickNo → s.m.cores[c].evSet.getLsbD e = true → exec (.eventPulse c e) s = .next s) ∧
    (∀ e : Fin 32, wired c e = true → s.m.quiet c = true →
      (s.m.get (F.C_STAT_STATE c) ≠ 2 → Does (.eventPulse c e) s (fun t =>
        t.m.get (F.C_EVT_PEND_PEND c) = pend ||| 2 ^ e.val ∧
        t.m.get (F.C_EVT_OVF_OVF c) = (s.m.get (F.C_EVT_OVF_OVF c) ||| if pend.testBit e then 2 ^ e.val else 0) ∧
        quiet (fun a => a = F.C_EVT_PEND_reg c ∨ a = F.C_EVT_OVF_reg c) t)) ∧
      (s.m.get (F.C_STAT_STATE c) = 2 → (s.m.get (F.C_EVT_EN_EN c)).testBit e = true → s.m.get (F.C_EVT_EN_EN c) &&& pend = 0 →
        (c ≠ 7 ∨ e ≠ 0) → Does (.eventPulse c e) s (fun t => t.m.get (F.C_STAT_STATE c) = 1 ∧
          t.m.get (F.C_EVT_PEND_PEND c) = pend ∧ t.m.cores[c].pc = s.m.cores[c].pc + 4 ∧
          t.m.cores[c].w = putW s.m.cores[c].w (BitVec.ofNat 4 s.m.cores[c].waitRd) (BitVec.ofNat 32 e) ∧
          OnlyCores s t ∧ OtherCores c s t ∧ SameRegs (fun a => a = F.C_STAT_reg c ∨ a = F.C_EVT_PEND_reg c) s t))) ∧
    (∀ v : Word, s.tick.m.quiet c = true → (s.m.get (F.C_STAT_STATE c) ≠ 2 ∨ v.toNat &&& pend = 0) →
      Does (.evtEnWrite c v) s (fun t =>
      t.m.get (F.C_EVT_EN_EN c) = v.toNat ∧ OnlyRegs s t ∧ SameRegs (· = F.C_EVT_EN_reg c) s t)) ∧
    (∀ ag : Agent, (s.m.turn (agentRank ag)).quiet c = true → s.m.get (F.C_STAT_STATE c) ≠ 2 → Does (.doorbell c ag) s (fun t =>
      let by' : Nat := match ag with | .port => 8 | .core k => k.val
      t.m.get (F.C_DB_PEND_PEND c) = s.m.get (F.C_DB_PEND_PEND c) ||| 2 ^ by' ∧
      (t.m.get (F.C_EVT_PEND_PEND c)).testBit (if c = 7 ∧ ag = .port then 17 else 31) = true ∧
      quiet (fun a => a = F.C_DB_PEND_reg c ∨ a = F.C_EVT_PEND_reg c ∨ a = F.C_EVT_OVF_reg c) t)) ∧
    Does (.sysHostdbWrite c) s (fun t => t.m.get F.SYS_IRQ_STAT_HOSTDB = s.m.get F.SYS_IRQ_STAT_HOSTDB ||| 2 ^ c.val ∧
      OnlyRegs s t ∧ SameRegs (· = F.SYS_IRQ_STAT_reg) s t)

/-- Commits: GO takes the snapshot of the block's shadowed registers, or shows MISSED while one waits; it applies at the
block's boundary, where the snapshot becomes the active set, GO clears and the commit event pulses; no other block's sets
change (R228, R230, R231). -/
def Obligations.Commits : Prop :=
  ∀ (r : CommitReg) (s : State), s.m.live = true →
    let a := commitAddr r
    let only (t : State) : Prop := SameRegs (· = a) s t ∧
      t = { s with m := { s.m.regsFrom t.m with pendSet := t.m.pendSet, commits := t.m.commits } }
    ((s.m.reg a).getLsbD 0 = false → Does (.commitGo r) s (fun t => only t ∧ t.m.reg a = s.m.reg a ||| 1 ∧
      t.m.commits = s.m.commits ++ [(a, s.tick.m.now)] ∧
      ∀ k, Sparse.get regReset t.m.pendSet k = if inCommit a k then s.m.reg k else Sparse.get regReset s.m.pendSet k)) ∧
    ((s.m.reg a).getLsbD 0 = true → Does (.commitGo r) s (fun t => only t ∧ t.m.reg a = s.m.reg a ||| 2 ∧
      t.m.commits = s.m.commits ∧ t.m.pendSet = s.m.pendSet)) ∧
    (∀ t0, s.m.commitTick a = some t0 →
      (match r with
       | .head h => (s.m.head h).tpg.idle = true ∧ (s.m.head h).tpg.stopped = false
       | .axis x => (s.m.axState x = 0 ∨ s.m.axState x = 1 ∨ s.m.axState x = 6) ∧ s.m.guardTrips x = false ∧
           s.m.now % 3000 = 0 ∧ t0 + 4 ≤ s.m.now
       | .ctx c => s.m.bcBusy c = false ∧ s.m.bcStopped = false) →
      Does (.commitApply r) s (fun t => (t.m.reg a).getLsbD 0 = false ∧ t.m.commitTick a = none ∧ t.m.pendSet = s.m.pendSet ∧
        (∀ k, inCommit a k = true → Sparse.get regReset t.m.actSet k = Sparse.get regReset s.m.pendSet k) ∧
        (∀ k, (k < a - 4 ∨ a + 0xFFFC ≤ k) → Sparse.get regReset t.m.actSet k = Sparse.get regReset s.m.actSet k) ∧
        Keeps s t ∧
        (match r with
         | .head h => Pulsed s t (coreOf h) 2
         | .axis _ => Pulsed s t 6 8
         | .ctx _ => Pulsed s t 7 8)))

/-- STORE_DRAIN puts the oldest store of the buffer into effect, here a word to the mailbox; the scrubbers count a corrected
single-bit error, and an uncorrectable word holds the record; a scrubber that is off does nothing (R196, R197, R223,
R924, R925). -/
def Obligations.DrainAndScrub : Prop :=
  ∀ (c : Fin 8) (s : State), s.m.live = true →
    (s.m.cores[c].sb = [] → exec (.storeDrain c) s = .next s) ∧
    (∀ (v ea : Word) (rest : List SbEntry), s.m.cores[c].sb = .store ea v :: rest → ea.toNat % 4 = 0 → 0x20000000 ≤ ea.toNat →
      ea.toNat < 0x20004000 → Does (.storeDrain c) s (fun t =>
        let a := 0x480000 + (ea.toNat - 0x20000000)
        t.m.byte (a + 3) ++ t.m.byte (a + 2) ++ t.m.byte (a + 1) ++ t.m.byte a = v ∧ t.m.clean a = true ∧
        (∀ b, b < a ∨ a + 4 ≤ b → t.m.byte b = s.m.byte b) ∧ t.m.cores[c] = { s.m.cores[c] with sb := rest } ∧
        OtherCores c s t ∧ t.m.regs = s.m.regs ∧ SameStores s t)) ∧
    (let scrubs (i : Instr) (on : Fld) (a : Nat) : Prop :=
      (s.m.get on = 0 → exec i s = .next s) ∧
      (s.m.get on = 1 → s.m.clean a = true → s.m.noCapture → Does i s (fun t =>
        t.m.get F.SHR_CE_N = (s.m.get F.SHR_CE_N + 1) % 2 ^ 32 ∧ t.m.get F.SHR_CEADDR_MEM = memCode a ∧ Keeps s t ∧
        SameRegs (fun k => k = F.SHR_CE_reg ∨ k = F.SHR_CEADDR_reg) s t ∧ t.m.clean a = true)) ∧
      (s.m.get on = 1 → s.m.isBad a = true → Does i s (fun t => t.m.get F.SHR_STATUS_HELD = 1 ∧ t.m.isBad a = true ∧
        SameCoreMem s t ∧ (s.m.get F.SHR_STATUS_HELD = 0 → t.m.get F.SHR_REC_PRIMARY = 0x580 + memCode a)))
     (∀ a, inCoreMem a = true → scrubs (.coreScrub a .single none) F.SHR_CTL_SCRUBCM a) ∧
       (∀ idx, idx < lineSize → scrubs (.lineStoreScrub (.line idx none) .single) F.SHR_CTL_SCRUBLS (lineBase + idx)))

/-! ## Power, reset and clock -/

/-- The power-up sequence: a supply is good, the reference is chosen, the PLL locks and SYS_TIME starts at 0, and the release,
once the supplies have been good for 100 us, starts C7, the self-test and the reference buffers, or waits for RESETN; a supply that fails resets every register, with the
fuses and the NV array as they were when nothing was being written (R67, R68, R73, R78, R98, R111-R117, R146, R180; an
unwritten byte reads 0, log entry 6). Warm resets: RESETN or SYS_RST.WARM returns the registers to their reset values, but for
those that a warm reset keeps, with FAULTN asserted, the fuses, the NV array and SYS_TIME untouched; leaving the reset starts
C7 and the self-test, whose pass deasserts FAULTN when no record is held and whose failure is a fault (R115, R116, R118-R127,
R134, R141, R932). Log entry 69. -/
def Obligations.PowerAndResets : Prop :=
  (∀ (i : Fin 6) (s : State),
     Does (.supplyGood i) s (fun t => (∀ k : Fin 6, t.m.pwr.good.getLsbD k = (decide (k = i) || s.m.pwr.good.getLsbD k)) ∧
       t = { s with m := { s.m with pwr := { s.m.pwr with good := t.m.pwr.good, goodAt := t.m.pwr.goodAt, goodPre := t.m.pwr.goodPre } } } ∧
       (s.m.pwr.good ≠ 0x3F → t.m.pwr.good = 0x3F → t.m.pwr.goodAt = s.m.now)) ∧
     (s.m.pwr.por = true → s.m.coreGood = true → s.m.clk.refChosen = false → ∀ ref : Bool, Does (.refsrcSelect ref) s (fun t =>
       t.m.clk.refChosen = true ∧ t.m.get F.CLK_STAT_REFSRC = b2n (!ref) ∧ t.m.get F.CLK_STAT_REF_OK = b2n ref ∧
       SameRegs (· = F.CLK_STAT_reg) s t ∧ Keeps s t)) ∧
     (s.m.pwr.por = true → s.m.coreGood = true → s.m.clk.refChosen = true → s.m.clk.lockedOnce = false →
       Does .lockFirst s (fun t => t.m.clk.running = true ∧ t.m.clk.lockedOnce = true ∧ t.m.sysTime = 0 ∧ t.m.wraps = 0 ∧
         t.m.get F.CLK_STAT_LOCK = 1 ∧ SameRegs (· = F.CLK_STAT_reg) s t ∧ Keeps s t)) ∧
     (s.m.pwr.por = true → s.m.pwr.good = 0x3F → s.m.clk.lockedOnce = true → s.m.clk.running = true → s.m.pwr.pinRst = false →
       s.m.pwr.softEnd = none → s.m.pwr.thermal = false → Does .powerOnResetRelease s (fun t => t.m.pwr.por = false ∧
         t.m.pwr.porExt = !s.m.pwr.resetn ∧ Keeps s t ∧
         (s.m.pwr.goodPre = false → s.m.pwr.goodAt + 300004 < 2 ^ 64 → s.m.now + 4 < 2 ^ 64 → s.m.pwr.goodAt + 300000 ≤ t.m.now) ∧
         (s.m.pwr.resetn = true → t.m.live = true ∧ t.m.get (F.C_STAT_STATE 7) = 1 ∧ t.m.pwr.selfTest = some (t.m.now + 90000) ∧
           t.m.get F.BOOT_ANA_VREF_EN = 1 ∧ t.m.get F.BOOT_ANA_AREF_EN = 1) ∧
         (s.m.pwr.resetn = false → t.m.live = false ∧ SameRegs (fun _ => False) s t))) ∧
     (s.m.boot.blow = none → s.m.nv.cmd = none → s.m.nv.entry = none → ∀ cut : NvCut, Does (.powerOnResetAssert i cut) s (fun t =>
       SameStores s t ∧ t.m.pwr.por = true ∧ t.m.clk.running = false ∧ t.m.pwr.good.getLsbD i = false ∧
       (∀ a, t.m.reg a = regReset a) ∧ (∀ a, t.m.byte a = 0) ∧ t.m.out.faultn = true ∧ t.m.out.men = 0 ∧ t.m.out.dir = 0)) ∧
     (s.m.clk.refChosen = true → Does .referenceReturn s (fun t => t.m.get F.CLK_STAT_REF_OK = 1 ∧ OnlyRegs s t ∧
       SameRegs (· = F.CLK_STAT_reg) s t))) ∧
  (∀ (s : State),
     let cleared (t : State) : Prop := t.m.live = false ∧ t.m.out.faultn = true ∧ (∀ c : Fin 8, t.m.cores[c] = {}) ∧ SameStores s t ∧
       ∀ a, warmKeeps a = false → (a < 0x340000 ∨ 0x350000 ≤ a) → a ≠ F.SHR_STATUS_reg → a ≠ F.BOOT_FUSE_PGM_reg →
         t.m.reg a = regReset a
     let started (t : State) : Prop := t.m.live = true ∧ t.m.get (F.C_STAT_STATE 7) = 1 ∧ t.m.get F.SHR_STATUS_SELFTEST = 0 ∧
       t.m.pwr.selfTest = some (t.m.now + 90000) ∧ Keeps s t
     (s.m.live = true → Does .warmResetPin s (fun t => cleared t ∧ t.m.get F.SYS_RST_CAUSE_PIN = 1 ∧ t.m.pwr.pinRst = true ∧
       t.m.sysTime = s.m.sysTime)) ∧
     (s.m.live = true → Does .sysRstWarm s (fun t => cleared t ∧ t.m.get F.SYS_RST_CAUSE_SOFT = 1 ∧
       t.m.pwr.softEnd = some (t.m.now + 256))) ∧
     (s.m.clk.running = true → s.m.pwr.por = false → s.m.pwr.thermal = false →
       (s.m.pwr.pinRst = true → s.m.pwr.resetn = false → s.m.pwr.softEnd = none → Does .resetnRelease s (fun t => started t)) ∧
       (s.m.pwr.pinRst = false → s.m.pwr.porExt = false → s.m.pwr.softEnd.isSome = true →
         Does .warmResetEnd s (fun t => started t))) ∧
     (s.m.live = true → s.m.pwr.selfTest.isSome = true →
       Does (.selftestDone true) s (fun t => t.m.get F.SHR_STATUS_SELFTEST = 1 ∧ t.m.pwr.selfTest = none ∧ Keeps s t ∧
         (s.m.get F.SHR_STATUS_HELD = 0 → t.m.out.faultn = false) ∧ SameRegs (· = F.SHR_STATUS_reg) s t) ∧
       Does (.selftestDone false) s (fun t => t.m.get F.SHR_STATUS_SELFTEST = 2 ∧ t.m.pwr.stFailed = true ∧
         t.m.get F.SHR_STATUS_HELD = 1 ∧ SameCoreMem s t ∧ SameStores s t)))

/-- The clock: a window that counts fewer than 16 or more than 48, a lost lock and a lost reference each stop the clock and,
with no record held, enter the safe state under their code, with CLK_LOSS_TIME at the stop; a relock goes on at the next
multiple of 64, counts itself and tells C7; SYS_TIME wraps into WRAPS; a read of SYS_TIME_LO copies the upper bits (R79, R82,
R83, R98-R103, R920, R1009). Clock gates: each clears or sets its bit of CLK_GATE; gating a head discards its held trigger, an
idle gated head stops with its outputs off, and enabling it drives them to their idle levels; the auxiliary converters gated
off end their loops and runs, and the codec without its enables stands still once no picture is in progress (R92-R97, R336, R499,
R518). -/
def Obligations.ClockMonitorAndGates : Prop :=
  (∀ (s : State),
     let stops (i : Instr) (code : Nat) : Prop := Does i s (fun t => t.m.clk.running = false ∧ t.m.now = s.m.now ∧
       t.m.get F.CLK_LOSS_TIME_LO_TIME + 2 ^ 32 * t.m.get F.CLK_LOSS_TIME_HI_TIME = s.m.sysTime.toNat ∧
       t.m.get F.SHR_STATUS_HELD = 1 ∧ SameCoreMem s t ∧ SameStores s t ∧
       (s.m.get F.SHR_STATUS_HELD = 0 → t.m.get F.SHR_STATUS_SAFE = 1 ∧ t.m.get F.SHR_REC_PRIMARY = code))
     (s.m.live = true → s.m.monitored = true →
       (∀ n, n < 16 → stops (.monitorWindowEnd n) 0x201) ∧ (∀ n, 48 < n → stops (.monitorWindowEnd n) 0x202) ∧
       (∀ n, 16 ≤ n → n ≤ 48 → exec (.monitorWindowEnd n) s = .next s) ∧
       (s.m.get F.CLK_STAT_LOCK = 1 → stops .pllLockLoss 0x203) ∧ (s.m.clk.refChosen = true → s.m.get F.CLK_STAT_REF_OK = 1 → stops .refOkLoss 0x204)) ∧
     (s.m.clk.running = false → s.m.coreGood = true → s.m.clk.refChosen = true → Does .refOkLoss s (fun t =>
       t.m.get F.CLK_STAT_REF_OK = 0 ∧ t.m.clk.running = false ∧ t.m.now = s.m.now ∧ SameStores s t)) ∧
     (s.m.clk.running = false → s.m.monitored = true → s.m.get F.CLK_STAT_REF_OK = 1 → s.m.pwr.digPend = false →
       s.m.inReset = false → s.m.pwr.thermal = false → s.m.get F.BOOT_STATUS_PHASE = 4 → Does .relock s (fun t =>
         t.m.clk.running = true ∧ t.m.now = (s.m.now / 64 + 1) * 64 % 2 ^ 64 ∧ t.m.get F.CLK_STAT_LOCK = 1 ∧
         t.m.get F.CLK_STAT_LOST = 1 ∧ t.m.get F.SYS_IRQ_STAT_CLKLOST = 1 ∧ Pulsed s t 7 1 ∧ SameCoreMem s t ∧ SameStores s t)) ∧
     (s.m.clk.running = true → Does .sysTimeWrap s (fun t => t.m.sysTime = 0 ∧ t.m.wraps = s.m.wraps + 1 ∧
       t = { s with m := { s.m with sysTime := t.m.sysTime, wraps := t.m.wraps } })) ∧
     (s.m.busUp = true → Does .sysTimeLoRead s (fun t =>
       t.m.get F.SYS_TIME_HI_TIME = s.m.sysTime.toNat / 2 ^ 32 ∧ t.m.get F.SYS_TIME_HI_WRAPS = s.m.wraps.toNat ∧ OnlyRegs s t ∧
       SameRegs (· = F.SYS_TIME_HI_reg) s t))) ∧
  (∀ (h : Fin 6) (s : State), s.m.live = true → s.m.get F.BOOT_STATUS_PHASE = 4 →
     let bit (v : Bool) (t : State) : Prop := ∀ k : Fin 6, t.m.headEn k = if k = h then v else s.m.headEn k
     (s.m.headEn h = true → Does (.headGate h) s (fun t => bit false t ∧ (t.m.head h).tpg.held = none ∧
       (t.m.head h).vadc.calEnd = none ∧ OtherHeads h s t ∧ Keeps s t)) ∧
     (s.m.headEn h = false → (s.m.head h).tpg.stopped = false → (s.m.head h).tpg.await = none →
       (∀ l ∈ (s.m.head h).tpg.lines, l.done = true) → Does (.headStop h) s (fun t => (t.m.head h).tpg.stopped = true ∧
         t.m.out.ph[h] = 0 ∧ (t.m.head h).tpg.lines = [] ∧ OtherHeads h s t ∧ Keeps s t)) ∧
     (s.m.headEn h = false → (s.m.head h).tpg.stopped = true → Does (.headUngate h) s (fun t => bit true t ∧
       (t.m.head h).tpg.stopped = false ∧ (s.m.get F.SHR_STATUS_SAFE = 0 → t.m.out.ph[h] = s.m.idleLevels h) ∧
       OtherHeads h s t ∧ Keeps s t)) ∧
     (s.m.get F.CLK_GATE_AUX_EN = 1 → Does (.auxGate false) s (fun t => t.m.get F.CLK_GATE_AUX_EN = 0 ∧
       (∀ c : Fin 2, (t.m.seq c).loop = none ∧ (t.m.seq c).run = none) ∧ Keeps s t)) ∧
     (s.m.get F.CLK_GATE_AUX_EN = 0 → Does (.auxGate true) s (fun t => t.m.get F.CLK_GATE_AUX_EN = 1 ∧ Keeps s t)) ∧
     Does (.bcGate false) s (fun t => t.m.get F.CLK_GATE_BC_EN = 0 ∧ Keeps s t ∧ SameRegs (· = F.CLK_GATE_reg) s t ∧
       (s.m.bc.stopAt = none → t.m.bcStopped = (s.m.bc.enc.isNone && s.m.bc.dec.isNone)) ∧
       t = { s with m := { s.m.regsFrom t.m with bc := t.m.bc } }) ∧
     Does (.bcGate true) s (fun t => t.m.get F.CLK_GATE_BC_EN = 1 ∧ t.m.bc.stopAt = none ∧ SameCoreMem s t ∧ SameStores s t ∧
       (s.m.bc.stopAt = none → OnlyRegs s t ∧ SameRegs (· = F.CLK_GATE_reg) s t)))

/-! ## The control port -/

/-- Transactions: a write word enters the buffer while it has room and is dropped as WDROP otherwise, the address going on by 4
(WR1, WR4) or staying (WR4F); a read opens with its address and clocks out its status and word; ST1 and ST4 drive SYS_CP_STAT;
an unknown command sets CMDERR, a cut write or read ABORT; while the clock is stopped words are dropped and reads answer CLKDOWN,
and while a reset is asserted the port is deaf (R101, R131, R851-R863, R880, R883). Accesses: the oldest buffered write takes effect,
here on a word of a core memory or the line store; one at an address that names nothing is ADERR with its address, one of an
uncorrectable word is dropped as ECCERR, and one while the clock is stopped is WDROP; a read brings the word that stands there;
REGISTER_WRITE writes the register that its address names, and flags that set in its beat stay (R15, R16, R18, R196, R322, R856-R869,
R880, R882). Log entry 16. -/
def Obligations.ControlPort : Prop :=
  (∀ (addr : Word) (words : List Word) (s : State),
     let p := s.m.port
     let only (q : Nat → Prop) (t : State) : Prop := t = { s with m := { s.m.regsFrom t.m with port := t.m.port } } ∧ SameRegs q s t
     let takes (a step : Nat) (t : State) : Prop :=
       let room := if s.m.clk.running then 16 - p.wbuf.length else 0
       let put (i : Nat) (w : Word) : PortWrite := { addr := (a + step * i) % 2 ^ 32, data := w, ready := nextGrid 4 (s.m.now + 24) }
       t.m.port.sel = true ∧ t.m.port.wr = some ((a + step * words.length) % 2 ^ 32, step) ∧
         t.m.port.wbuf = p.wbuf ++ (words.take room).mapIdx put ∧ only (fun k => room < words.length ∧ k = F.SYS_CP_STAT_reg) t ∧
         (room < words.length → t.m.get F.SYS_CP_STAT_WDROP = 1)
     let opens (inc : Bool) (t : State) : Prop := only (fun _ => False) t ∧ t.m.port.sel = true ∧ t.m.port.wr = none ∧
       t.m.port.rd = some { addr := addr.toNat, inc := inc, edge := some s.m.now, got := none }
     let shows (t : State) : Prop := only (fun _ => False) t ∧ t.m.port.sent = [(0, BitVec.ofNat 32 s.m.cpStat)]
     let reads : List Instr := [.rd1 addr, .rd4 addr, .rd4f addr]
     let writes : List Instr := [.wr1 addr words, .wr4 addr words, .wr4f addr words]
     (s.m.inReset = false → p.sel = false →
       Does (.wr1 addr words) s (takes addr.toNat 4) ∧ Does (.wr4 addr words) s (takes addr.toNat 4) ∧
       Does (.wr4f addr words) s (takes addr.toNat 0) ∧
       Does (.rd1 addr) s (opens true) ∧ Does (.rd4 addr) s (opens true) ∧ Does (.rd4f addr) s (opens false) ∧
       Does .st1 s shows ∧ Does .st4 s shows ∧
       ∀ b : Byte, portCommands.contains b.toNat = false → Does (.commandInvalid b) s (fun t =>
         only (· = F.SYS_CP_STAT_reg) t ∧ t.m.get F.SYS_CP_STAT_CMDERR = 1 ∧ t.m.port.deaf = true ∧ t.m.port.sel = true)) ∧
     (s.m.inReset = true → p.sel = false → ∀ i ∈ writes ++ reads ++ [.st1, .st4, .commandInvalid 0], exec i s =
       .next { s with m := { s.m with port := { p with sel := true, deaf := true } } }) ∧
     (p.sel = true → p.deaf = true → ∀ i ∈ writes ++ reads ++ [.st1, .st4], exec i s = .next s) ∧
     (∀ (a step : Nat), p.sel = true → p.deaf = false → p.wr = some (a, step) → a < 2 ^ 32 → ∀ i ∈ writes, Does i s (takes a step)) ∧
     (∀ r : PortRead, p.sel = true → p.deaf = false → s.m.inReset = false → p.rd = some r → ∀ i ∈ reads, Does i s (fun t =>
       let goesOn : PortRead := { addr := if r.inc then (r.addr + 4) % 2 ^ 32 else r.addr, inc := r.inc, edge := none, got := none }
       only (fun _ => False) t ∧
       (s.m.clk.running = false → t.m.port.sent = (0xC3, 0) :: p.sent ∧ t.m.port.rd = some goesOn) ∧
       (s.m.clk.running = true → ∀ st w t0, r.got = some (st, w, t0) → t0 ≤ s.m.now →
         t.m.port.sent = (st, w) :: p.sent ∧ t.m.port.rd = some goesOn) ∧
       (s.m.clk.running = true → r.got = none → t.m.port.sent = (0xFF, 0) :: p.sent ∧
         t.m.port.rd = some { r with edge := some (r.edge.getD s.m.now) }))) ∧
     (s.m.inReset = false → p.deaf = false → ∀ cut : Bool,
       (p.wr.isSome = true → p.rd = none → Does (.csnRise cut) s (fun t => t.m.port.sel = false ∧ t.m.port.wr = none ∧
         t.m.port.wbuf = p.wbuf ∧ (cut = true → t.m.get F.SYS_CP_STAT_ABORT = 1) ∧
         only (fun a => cut = true ∧ a = F.SYS_CP_STAT_reg) t)) ∧
       (∀ (r : PortRead) (e : Nat), p.wr = none → p.rd = some r → r.edge = some e → Does (.csnRise cut) s (fun t =>
         t.m.port.sel = false ∧ t.m.port.rd = none ∧ t.m.port.orphans = p.orphans ++ [(r.addr, e)] ∧
         t.m.get F.SYS_CP_STAT_ABORT = 1 ∧ only (· = F.SYS_CP_STAT_reg) t)))) ∧
  (∀ (s : State), s.m.pwr.thermal = false → s.m.boot.zeroDue = none →
     let store (a : Nat) : Prop := a % 4 = 0 ∧ (inLine a = true ∨ inCoreMem a = true)
     (∀ (w : PortWrite) (rest : List PortWrite), s.m.port.wbuf = w :: rest → s.m.inReset = false →
       (s.m.clk.running = false → Does .portWriteApply s (fun t => t.m.port.wbuf = rest ∧ t.m.get F.SYS_CP_STAT_WDROP = 1 ∧
         SameRegs (· = F.SYS_CP_STAT_reg) s t ∧ Keeps s t)) ∧
       (s.m.clk.running = true → mapped w.addr = false → s.m.get F.SYS_CP_STAT_ADERR = 0 → Does .portWriteApply s (fun t =>
         t.m.port.wbuf = rest ∧ t.m.get F.SYS_CP_STAT_ADERR = 1 ∧
         t.m.reg F.SYS_CP_ERRADDR_reg = BitVec.ofNat 32 w.addr ∧
         SameRegs (fun a => a = F.SYS_CP_STAT_reg ∨ a = F.SYS_CP_ERRADDR_reg) s t ∧ Keeps s t)) ∧
       (s.m.clk.running = true → store w.addr → s.m.noCapture →
         (s.m.clean w.addr = true → Does .portWriteApply s (fun t => t.m.port.wbuf = rest ∧
           (∀ i, i < 4 → t.m.byte (w.addr + i) = w.data.extractLsb' (8 * i) 8) ∧
           (∀ b, b < w.addr ∨ w.addr + 4 ≤ b → t.m.byte b = s.m.byte b) ∧ SameRegs (fun _ => False) s t ∧ SameStores s t)) ∧
         (s.m.isBad w.addr = true → Does .portWriteApply s (fun t => t.m.port.wbuf = rest ∧ t.m.get F.SYS_CP_STAT_ECCERR = 1 ∧
           t.m.get F.SHR_STATUS_HELD = 1 ∧ SameCoreMem s t ∧ SameStores s t)))) ∧
     (∀ (r : PortRead) (e n : Nat), s.m.port.wbuf = [] → s.m.port.orphans = [] → s.m.port.rd = some r → r.edge = some e →
       let brings (st : Nat) (v : Word) (t : State) : Prop := ∃ b, t.m.port.rd = some { r with edge := none, got := some (st, v, b) }
       (s.m.busUp = false → exec (.portReadIssue n) s = .next s) ∧
       (s.m.busUp = true → store r.addr → s.m.noCapture → s.m.clean r.addr = true → Does (.portReadIssue n) s (fun t => Keeps s t ∧
         SameRegs (fun _ => False) s t ∧
         brings 0xA5 (s.m.byte (r.addr + 3) ++ s.m.byte (r.addr + 2) ++ s.m.byte (r.addr + 1) ++ s.m.byte r.addr) t)) ∧
       (s.m.busUp = true → mapped r.addr = false → s.m.get F.SYS_CP_STAT_ADERR = 0 → Does (.portReadIssue n) s (fun t => Keeps s t ∧
         t.m.get F.SYS_CP_STAT_ADERR = 1 ∧ SameRegs (fun a => a = F.SYS_CP_STAT_reg ∨ a = F.SYS_CP_ERRADDR_reg) s t ∧
         brings 0x3C 0 t))) ∧
     (∀ (ag : Agent) (v : Word), s.m.live = true →
       let u := s.m.atTick.turn (agentRank ag)
       let fresh : Word := BitVec.ofNat 32 (u.beat.marked u.now F.SYS_IRQ_STAT_reg)
       Does (.registerWrite ag F.SYS_IRQ_STAT_reg v) s (fun t => OnlyRegs s t ∧ SameRegs (· = F.SYS_IRQ_STAT_reg) s t ∧
         t.m.reg F.SYS_IRQ_STAT_reg = s.m.reg F.SYS_IRQ_STAT_reg &&& ~~~(v &&& 0xFF07 &&& ~~~fresh)) ∧
       Does (.registerWrite ag F.SYS_IRQ_EN_reg v) s (fun t => OnlyRegs s t ∧ SameRegs (· = F.SYS_IRQ_EN_reg) s t ∧
         t.m.reg F.SYS_IRQ_EN_reg = (s.m.reg F.SYS_IRQ_EN_reg &&& ~~~0xFF07) ||| (v &&& 0xFF07)) ∧
       (∀ a, findReg a = none → exec (.registerWrite ag a v) s = .next { s with m := u })))

/-! ## Boot and fuses -/

/-- The start of a boot: READY with the core memories at zero, the claim by the first word of the control port and the failures
of the magic word, of a timeout and of a RESTART; a word offered at any other time is refused (R149, R151, R158-R163, R187,
R188, R192). The lane path: the first training sequence starts lane 0's session, a timeout gives the path up, and it is armed
again later (R164-R166; log entries 74 and 75). -/
def Obligations.BootLoading : Prop :=
  (∀ (s : State), s.m.live = true → s.m.get (F.C_STAT_STATE 7) = 1 → s.m.boot.held = false →
     let ph := s.m.get F.BOOT_STATUS_PHASE
     let failed (e : Nat) (t : State) : Prop := t.m.get F.BOOT_STATUS_PHASE = 7 ∧ t.m.get F.BOOT_STATUS_ERR = e ∧
       t.m.get F.SYS_IRQ_STAT_BOOT = 1 ∧ Pulsed s t 7 3 ∧ Keeps s t
     let zeroed := s.m.boot.began + (if s.m.boot.restart then 16384 else 16388)
     (∀ z, ph = 0 → s.m.boot.zeroDue = some z → z ≤ zeroed → s.m.boot.began + 60000 < 2 ^ 64 → ∀ d, Does (.bootReady d) s (fun t =>
       t.m.get F.BOOT_STATUS_PHASE = 1 ∧ (∀ a, t.m.byte a = if inCoreMem a then 0 else s.m.byte a) ∧ Pulsed s t 7 3 ∧
       t.m.get F.SYS_IRQ_STAT_BOOT = 1 ∧ t.m.boot.laneArmed = !Fuses.laneDis s.fuses ∧ zeroed ≤ t.m.now ∧ SameStores s t)) ∧
     (ph = 1 →
       Does (.bootWinWrite 0xF1E1A632) s (fun t => t.m.get F.BOOT_STATUS_PHASE = 2 ∧ t.m.get F.BOOT_STATUS_PATH = 0 ∧
         t.m.get F.BOOT_COUNT_COUNT = 4 ∧ t.m.boot.img = [0xF1E1A632] ∧ Keeps s t) ∧
       ∀ v : Word, v ≠ 0xF1E1A632 → Does (.bootWinWrite v) s (failed 1)) ∧
     (ph = 0 → ∀ v : Word, Does (.bootWinWrite v) s (fun t => t.m.get F.BOOT_STATUS_REFUSED = 1 ∧ OnlyRegs s t ∧
       SameRegs (· = F.BOOT_STATUS_reg) s t)) ∧
     (ph = 2 → Does .bootLoadTimeout s (failed 9)) ∧
     ((ph = 1 ∨ ph = 2 ∨ ph = 7) → Does .bootRestart s (fun t => t.m.get F.BOOT_STATUS_PHASE = 0 ∧ t.m.get F.BOOT_CTL_RESTART = 1 ∧
       t.m.get F.BOOT_COUNT_COUNT = 0 ∧ t.m.boot.img = [] ∧ Keeps s t)) ∧
     (ph = 3 → Does .bootRestart s (fun t => t.m.get F.BOOT_CTL_RESTART = 1 ∧ t.m.boot.held = true ∧
       t.m.get F.BOOT_STATUS_PHASE = 3 ∧ Keeps s t))) ∧
  (∀ (s : State), s.m.live = true → s.m.get (F.C_STAT_STATE 7) = 1 → s.m.get F.BOOT_STATUS_PHASE = 1 →
     (s.m.boot.laneArmed = true → s.m.boot.laneFrom = none → Does .laneBootDetect s (fun t =>
       t.m.boot.laneFrom = some s.m.now ∧ t.m.get F.LN_CTL_EN = 1 ∧ t.m.get F.LN_CTL_LANEMASK = 1 ∧ t.m.get F.ST_CTL_EN = 1 ∧
       Keeps s t)) ∧
     (∀ t0, s.m.boot.laneFrom = some t0 → s.m.boot.laneUp = false → Does .laneBootTimeout s (fun t => t.m.boot.laneArmed = false ∧
       t.m.boot.laneFrom = none ∧ t.m.get F.LN_CTL_EN = 0 ∧ t.m.get F.BOOT_STATUS_ERR = 0x0E ∧
       t.m.get F.BOOT_STATUS_PHASE = 1 ∧ Keeps s t)) ∧
     (∀ t0, s.m.boot.laneFail = some t0 → Does .laneBootRearm s (fun t => t.m.boot.laneArmed = true ∧ t.m.boot.laneFail = none ∧
       SameRegs (fun _ => False) s t ∧ Keeps s t)))

/-- CHECKING and the hand-off: the signature and the memory tests pass or fail with ERR 8 and 0x0B, a passed memory test
leaves the line store at zero, the calibrations begin for every head and the auxiliary converters, and with everything passed
each core with an entry starts there, with STATUS in W1 (R157, R170, R177-R183, R932). -/
def Obligations.BootChecking : Prop :=
  ∀ (s : State), s.m.live = true → s.m.get (F.C_STAT_STATE 7) = 1 → s.m.boot.held = false → s.m.get F.BOOT_STATUS_PHASE = 3 →
    let img := s.m.boot.img
    let b := imgBytes img (imgLen img)
    let n := imgLen img
    let good := ecdsaOk ((b.drop (n - 132)).take 64) ((b.drop (n - 68)).take 64) (sha256 (b.take (n - 68)))
    let failed (e : Nat) (t : State) : Prop := t.m.get F.BOOT_STATUS_PHASE = 7 ∧ t.m.get F.BOOT_STATUS_ERR = e ∧ SameStores s t ∧
      SameCoreMem s t
    (s.m.boot.sigDone = false →
      (good = true → Does .sigCheckDone s (fun t => t.m.get F.BOOT_STATUS_SIGOK = 1 ∧ t.m.boot.sigDone = true ∧
        SameRegs (· = F.BOOT_STATUS_reg) s t ∧ Keeps s t)) ∧
      (good = false → Does .sigCheckDone s (failed 8))) ∧
    (s.m.boot.bistDone = false → ∀ d,
      (s.m.boot.coreBad = true → Does (.bistDone true d) s (fun t => failed 0x0B t ∧ t.m.get F.SHR_STATUS_HELD = 1)) ∧
      (s.m.boot.coreBad = false → Does (.bistDone true d) s (fun t => t.m.boot.bistDone = true ∧
        (∀ a, t.m.byte a = if inLine a then 0 else s.m.byte a) ∧ SameRegs (fun _ => False) s t ∧ SameStores s t)) ∧
      Does (.bistDone false d) s (fun t => failed 0x0B t ∧ t.m.get F.SHR_STATUS_HELD = 1)) ∧
    (s.m.boot.calBegun = false → s.m.boot.vSince.isSome = true → s.m.boot.aSince.isSome = true → imgNoCal img = false →
      (∀ h : Fin 6, s.m.headEn h = true ∧ s.m.get (F.H_TPG_CTL_RUN h) = 0 ∧ s.m.get (F.H_TPG_STAT_BUSY h) = 0 ∧
        s.m.get (F.H_VADC_CTL_SWEEP h) = 0 ∧ s.m.get (F.H_VADC_CTL_CAL h) = 0 ∧ (s.m.head h).vadc.calEnd = none) →
      s.m.get F.BOOT_ANA_VREF_EN = 1 →
      Does .bootCalStart s (fun t => (∀ h : Fin 6, t.m.get (F.H_VADC_STAT_CALST h) = 1 ∧ (t.m.head h).vadc.calEnd.isSome = true) ∧
        (t.m.boot.calBegun = true ∨ t.m.get F.BOOT_STATUS_ERR = 0x0C) ∧ Keeps s t)) ∧
    (s.m.allPassed = true → s.m.boot.laneFrom = none → Does .bootHandoff s (fun t => t.m.get F.BOOT_STATUS_PHASE = 4 ∧ Keeps s t ∧
      ∀ c : Fin 8, t.m.get (F.C_EVT_PEND_PEND c) = 0 ∧ t.m.get (F.C_EVT_EN_EN c) = 0 ∧
        t.m.get (F.C_START_ADDR c) = imgEntry img c ∧
        (imgEntry img c ≠ 0xFFFFFFFF → t.m.get (F.C_STAT_STATE c) = 1 ∧ t.m.cores[c].pc = BitVec.ofNat 32 (imgEntry img c) ∧
          t.m.cores[c].w[1] = t.m.reg F.BOOT_STATUS_reg ∧ t.m.cores[c].w[14] = 0x10004000)))

/-- Fuses: an arming write, then within 1 ms a BIT write that is accepted in READY, below 85 degrees and with VDDIO33 in
range, and the blow that sets the bit; any other BIT write is rejected (R173-R176). -/
def Obligations.Fuses : Prop :=
  ∀ (s : State), s.m.live = true →
    (s.m.get F.BOOT_FUSE_PGM_BUSY = 0 → Does .fuseArm s (fun t => t.m.boot.arm = some s.tick.m.now ∧ t.m.get F.BOOT_FUSE_PGM_REJ = 0 ∧
      SameRegs (· = F.BOOT_FUSE_PGM_reg) s t ∧ Keeps s t)) ∧
    (∀ (b : BitVec 9) (io : Bool),
      let ok := (∃ a, s.m.boot.arm = some a ∧ s.tick.m.now ≤ a + 3000000) ∧ b.toNat < 259 ∧ s.m.get F.BOOT_FUSE_PGM_BUSY = 0 ∧
        s.m.get F.BOOT_STATUS_PHASE = 1 ∧ (BitVec.ofNat 16 (s.m.get F.SHR_TEMP_TEMP)).toInt ≤ 85 * 16 ∧ io = true
      Does (.fuseBit b io) s (fun t => t.m.boot.arm = none ∧ SameRegs (· = F.BOOT_FUSE_PGM_reg) s t ∧ Keeps s t ∧
        (ok → t.m.get F.BOOT_FUSE_PGM_BUSY = 1 ∧ t.m.boot.blow = some (b.toNat, s.tick.m.now)) ∧
        (¬ ok → t.m.get F.BOOT_FUSE_PGM_REJ = 1 ∧ t.m.boot.blow = s.m.boot.blow))) ∧
    (∀ b t0 : Nat, s.m.boot.blow = some (b, t0) → Does .fuseBlowDone s (fun t =>
      (∀ i : Fin 259, t.fuses.getLsbD i = (decide (i.val = b) || s.fuses.getLsbD i)) ∧ t.m.boot.blow = none ∧
      t.m.get F.BOOT_FUSE_PGM_BUSY = 0 ∧ t.nvArr = s.nvArr ∧ t.pending = s.pending ∧ SameMem s t ∧
      SameRegs (· = F.BOOT_FUSE_PGM_reg) s t))

/-! ## Heads -/

/-- Line triggers at an accepting head: an idle head awaits its line sync at the next grid beat, a busy one holds the trigger,
and a head that already holds one counts a DROP; a head that does not accept changes nothing.  A shot and the timer are
triggers of their sources at position 0, and the timer goes on by its period; CLRCNT and RUN (R325, R338, R346, R351-R356). -/
def Obligations.LineTriggers : Prop :=
  ∀ (h : Fin 6) (pos : Int) (s : State), s.m.live = true →
    let x := (s.m.head h).tpg
    let only (p : Nat → Prop) (t : State) : Prop := OnlyHeads s t ∧ OtherHeads h s t ∧ SameRegs p s t
    let stat (a : Nat) : Prop := a = F.H_TPG_STAT_reg h
    (s.m.accepts h = false → exec (.lineTrigger h pos) s = .next s) ∧
    (s.m.accepts h = true → x.lastTrig ≠ some s.m.now → (∀ l, x.active = some l → s.m.now < l.sync + patLen l.set h) →
      (x.await = none → x.held = none → x.active = none → Does (.lineTrigger h pos) s (fun t => only stat t ∧
        (t.m.head h).tpg = { x with await := some { sync := nextGrid 16 s.m.now, pos := pos }, lastTrig := some s.m.now })) ∧
      ((x.await.isSome = true ∨ x.active.isSome = true) → x.held = none → Does (.lineTrigger h pos) s (fun t => only stat t ∧
        (t.m.head h).tpg = { x with held := some { sync := nextGrid 16 s.m.now, pos := pos }, lastTrig := some s.m.now })) ∧
      (x.held.isSome = true → s.m.get (F.H_TPG_CNT_DROP h) < 0xFFFF → Does (.lineTrigger h pos) s (fun t =>
        only (fun a => stat a ∨ a = F.H_TPG_CNT_reg h) t ∧
        (t.m.head h).tpg = { x with drops := x.drops + 1, lastTrig := some s.m.now } ∧
        t.m.get (F.H_TPG_CNT_DROP h) = s.m.get (F.H_TPG_CNT_DROP h) + 1 ∧
        t.m.get (F.H_TPG_CNT_LATE h) = s.m.get (F.H_TPG_CNT_LATE h)))) ∧
    (s.m.trigSrc h = 2 → exec (.tpgShot h) s = exec (.lineTrigger h 0) s.tick) ∧ (s.m.trigSrc h ≠ 2 → exec (.tpgShot h) s = .next s.tick) ∧
    (∀ due, s.m.trigSrc h = 1 → x.timerDue = some due → due ≤ s.m.now → s.m.accepts h = true → x.lastTrig ≠ some s.m.now →
      x.await = none → x.held = none → x.active = none → Does (.tpgTimer h) s (fun t => only stat t ∧
        (t.m.head h).tpg = { x with await := some { sync := nextGrid 16 s.m.now, pos := 0, timer := true }, lastTrig := some s.m.now,
                                    timerDue := some (due + 16 * s.m.act (F.H_TPG_SYNC_PERIOD h)) })) ∧
    Does (.tpgClrcnt h) s (fun t => OnlyRegs s t ∧ SameRegs (· = F.H_TPG_CNT_reg h) s t ∧
      t.m.get (F.H_TPG_CNT_DROP h) = 0 ∧ t.m.get (F.H_TPG_CNT_LATE h) = 0) ∧
    Does (.tpgRun h true) s (fun t => t.m.get (F.H_TPG_CTL_RUN h) = 1 ∧ only (· = F.H_TPG_CTL_reg h) t) ∧
    (s.m.get (F.H_TPG_CTL_RUN h) = 1 → Does (.tpgRun h false) s (fun t => t.m.get (F.H_TPG_CTL_RUN h) = 0 ∧
      (t.m.head h).tpg = { x.noTimer with held := none } ∧ OtherHeads h s t ∧ Keeps s t))

/-- A line from its sync to its LINE_DONE: the sync starts the line under the active set, or discards its trigger while the set
is not valid; the pattern's end frees the head and lets a held trigger await the beat after it; LINE_DONE, 272 beats after
the last witness sample, leaves the header and the fields in the reserved slot, and nothing outside it has changed; an edge drives its
output and no other (R24, R25, R327, R335, R336, R351-R353,
R359, R360, R567-R569, R577). -/
def Obligations.Lines : Prop :=
  ∀ (h : Fin 6) (s : State), s.m.live = true →
    let x := (s.m.head h).tpg
    (∀ (w : Await) (wave : List (List Int)), x.await = some w → w.sync ≤ s.m.now → s.m.commitTick (headCommit h) = none →
      (s.m.get (F.H_TPG_STAT_PATERR h) = 0 → Does (.lineSync ⟨h, wave⟩) s (fun t =>
        (∃ l : LineCtx, (t.m.head h).tpg.lines = (x.prune h s.m.now).lines ++ [l] ∧ l.sync = w.sync ∧ l.wave = wave ∧ l.set = s.m.actSet ∧ l.active = true ∧
          l.done = false ∧ l.pos = (if s.m.trigSrc h = 0 then w.pos else 0) ∧ l.late = w.late.isSome ∧
          l.lateDelay = w.late.getD 0 ∧ l.cut = s.m.calRuns h) ∧
        (t.m.head h).tpg.await = none ∧ (t.m.head h).tpg.drops = 0 ∧
        (w.late.isSome = true → s.m.get (F.H_TPG_CNT_LATE h) < 0xFFFF → t.m.get (F.H_TPG_CNT_LATE h) = s.m.get (F.H_TPG_CNT_LATE h) + 1) ∧
        (x.stopped = false → Pulsed s t (coreOf h) 0) ∧ OtherHeads h s t ∧ SameCoreMem s t ∧ SameStores s t)) ∧
      (s.m.get (F.H_TPG_STAT_PATERR h) ≠ 0 → x.held = none → Does (.lineSync ⟨h, wave⟩) s (fun t =>
        (t.m.head h).tpg.lines = x.lines ∧ (t.m.head h).tpg.await = none ∧ (t.m.head h).tpg.drops = x.drops + 1 ∧
        OtherHeads h s t ∧ Keeps s t))) ∧
    (∀ l, x.active = some l → l.sync + patLen l.set h ≤ s.m.now → Does (.patternEnd h) s (fun t =>
      (t.m.head h).tpg.active = none ∧ (t.m.head h).tpg.held = none ∧
      (t.m.head h).tpg.await = (match x.held with
        | some w => some { w with sync := l.sync + patLen l.set h, late := some (l.sync + patLen l.set h - w.sync) }
        | none => x.await) ∧
      OnlyHeads s t ∧ OtherHeads h s t ∧ SameRegs (· = F.H_TPG_STAT_reg h) s t)) ∧
    (∀ (l : LineCtx), x.oldest = some l → l.gone = false → l.wrote = l.sync →
      (∀ k ∈ x.lines, k = l ∨ k.done = true ∨ k.gone = true) → (∀ k : Fin 6, k ≠ h → ∀ y ∈ (s.m.head k).tpg.lines, y.done = true) →
      l.sampleAt h (l.nfld h) (l.darkN h + l.npix h + 15) + 272 < 2 ^ 64 → (s.m.head h).shd.bad = [] → (s.m.ring h).pages = [] →
      s.m.pageState ≠ 3 →
      let data := (List.range (l.nfld h + 1)).flatMap (fun f => (l.field h (s.m.head h).shd f).data)
      Does (.lineDone h ()) s (fun t => s.m.now ≤ t.m.now ∧ l.sampleAt h (l.nfld h) (l.darkN h + l.npix h + 15) + 272 ≤ t.m.now ∧ (∀ k ∈ (t.m.head h).tpg.lines, k.sync = l.sync → k.done = true) ∧
        (x.stopped = false → Pulsed s t (coreOf h) 1) ∧ OtherHeads h s t ∧ SameStores s t ∧
        (l.slot = none → SameMem s t) ∧
        (∀ slot c, l.slot = some slot → l.cseq = some c →
          let a := lineBase + s.m.get (F.TRG_R_BASE_BASE h) + slot * s.m.get (F.TRG_R_SLOT_SLOT h)
          t.m.loadBytes a 4 = leBytes 4 c ∧ t.m.loadBytes (a + 64) data.length = data ∧
          (∀ b, b < a ∨ a + 64 + data.length ≤ b → t.m.byte b = s.m.byte b) ∧
          t.m.get (F.TRG_R_WCNT_N h) = (s.m.get (F.TRG_R_WCNT_N h) + 1) % 2 ^ 32))) ∧
    (∀ (e : TpgEdge) (l : LineCtx) (o : Nat) (v : Bool) (off : Nat), x.active = some l → edgeEffect l.set h e = some (o, v, off) →
      o < 9 → s.m.get F.SHR_STATUS_SAFE = 0 → s.m.calRuns h = false → Does (.tpgEdge h e) s (fun t =>
        (∀ k, k < 9 → t.m.out.ph[h].getLsbD k = if k = o then v else s.m.out.ph[h].getLsbD k) ∧
        (∀ k : Fin 6, k ≠ h → t.m.out.ph[k] = s.m.out.ph[k]) ∧
        t = { s with m := { s.m with sysTime := t.m.sysTime, wraps := t.m.wraps, out := { s.m.out with ph := t.m.out.ph } } }))

/-- The video front end: a sweep starts and stores its last sum, a calibration starts for 2.4 ms or is refused, and ends with
its result and factors; a check reports in its beat, and one that fails sets its flag, pulses AFE_STAT and is a fault
only when Shroud is armed; a code is that of G x V_CDS and OFS, held at 0 and 16383 (R367, R369, R380-R396, R921).
Log entry 8. -/
def Obligations.FrontEnd : Prop :=
  ∀ (h : Fin 6) (s : State), s.m.live = true →
    let v := (s.m.head h).vadc
    let on (f : Fld) : Prop := s.m.get f = 1
    let off (f : Fld) : Prop := s.m.get f = 0
    (on (F.H_TPG_CTL_RUN h) → off (F.H_TPG_STAT_PATERR h) → off (F.H_VADC_CTL_SWEEP h) → v.calEnd = none →
      Does (.vadcSweep h) s (fun t => t.m.get (F.H_VADC_CTL_SWEEP h) = 1 ∧ (t.m.head h).vadc.sweepNext = some 0 ∧
        OtherHeads h s t ∧ Keeps s t)) ∧
    (∀ (l : LineCtx), (s.m.head h).tpg.lines.find? (fun k => k.sweep = some 15) = some l →
      on (F.H_VADC_CTL_SWEEP h) → (s.m.head h).tpg.stopped = false → Does (.sweepDone h ()) s (fun t =>
        t.m.get (F.H_VADC_CTL_SWEEP h) = 0 ∧ Pulsed s t (coreOf h) 3 ∧ OtherHeads h s t ∧ Keeps s t ∧
        t.m.get (F.H_VADC_SWP_SUM h 15) =
          (((List.range (l.npix h)).map (fun i => (l.code h 0 (l.darkN h + i)).1)).foldl (· + ·) 0) % 2 ^ 32)) ∧
    (off (F.H_VADC_CTL_CAL h) →
      (off (F.H_TPG_CTL_RUN h) → off (F.H_TPG_STAT_BUSY h) → off (F.H_VADC_CTL_SWEEP h) → s.m.headEn h = true → v.calEnd = none →
        on F.BOOT_ANA_VREF_EN → Does (.vadcCal h) s (fun t => t.m.get (F.H_VADC_CTL_CAL h) = 1 ∧
          t.m.get (F.H_VADC_STAT_CALST h) = 1 ∧ (t.m.head h).vadc = { v with calEnd := some (s.tick.m.now + 4 + 7200000) } ∧
          OnlyHeads s t ∧ OtherHeads h s t)) ∧
      (on (F.H_TPG_CTL_RUN h) → (s.m.head h).tpg.stopped = false → Does (.vadcCal h) s (fun t =>
        t.m.get (F.H_VADC_STAT_CALST h) = 3 ∧ t.m.get (F.H_VADC_CTL_CAL h) = 0 ∧ Pulsed s t (coreOf h) 4 ∧ t.m.heads = s.m.heads ∧
        Keeps s t))) ∧
    (∀ (due : Nat) (pass : Bool) (fact : List Int), v.calEnd = some due → s.m.get F.BOOT_STATUS_PHASE = 4 →
      (s.m.head h).tpg.stopped = false → Does (.vadcCalDone h pass fact) s (fun t => t.m.get (F.H_VADC_CTL_CAL h) = 0 ∧
        (t.m.head h).vadc.calEnd = none ∧ t.m.get (F.H_VADC_STAT_CALST h) = (if pass then 2 else 5) ∧
        t.m.get (F.H_VADC_STAT_CALVALID h) = b2n pass ∧ Pulsed s t (coreOf h) 4 ∧
        (∀ i, i < 16 → t.m.get (F.H_VADC_FACT_FACT h i) = wrapInt 16 (fact.getD i 0)) ∧ OtherHeads h s t ∧ Keeps s t)) ∧
    (∀ (k : VadcCheck) (l : LineCtx), s.m.checkedLine h (k.due h) = some l → k.field ≤ l.nfld h → k.due h l < 2 ^ 64 →
      (s.m.head h).tpg.stopped = false → v.inject = none →
      let due (t : State) : Prop := t.m.now = k.due h l
      let fails (f : Fld) : Prop := Does (.vadcCheckReport h k) s (fun t => due t ∧ t.m.get f = 1 ∧ Pulsed s t (coreOf h) 3 ∧
        t.m.get F.SHR_STATUS_HELD = (if s.m.armed then 1 else s.m.get F.SHR_STATUS_HELD) ∧ SameCoreMem s t ∧ SameStores s t)
      let fine (f : Fld) : Prop := Does (.vadcCheckReport h k) s (fun t => due t ∧ t.m.get f = s.m.get f ∧ OnlyRegs s t)
      (∀ f i : Nat, k = .dup f i → fails (F.H_VADC_STAT_DUPFAIL h)) ∧
      (∀ (f d : Nat) (codes : List Nat), k = .level f d codes →
        let bad := (List.range 8).any (fun j =>
          slotFails (setGet l.set (F.H_AFE_OFS_OFS h)) (setGet l.set (F.H_VADC_CHK_TOL h)) j d (codes.getD j 0))
        (bad = true → fails (F.H_VADC_STAT_LVLFAIL h)) ∧ (bad = false → fine (F.H_VADC_STAT_LVLFAIL h))) ∧
      (∀ f : Nat, k = .dark f →
        let n := darkM (l.darkN h)
        let mean := ((List.range (2 ^ n)).map (fun i => (l.code h f i).1)).foldl (· + ·) 0 / 2 ^ n
        let out := mean < setGet l.set (F.H_VADC_DKWIN_DKLO h) ∨ setGet l.set (F.H_VADC_DKWIN_DKHI h) < mean
        (n ≠ 0 → out → fails (F.H_VADC_STAT_DKFAIL h)) ∧ (n = 0 ∨ ¬ out → fine (F.H_VADC_STAT_DKFAIL h)))) ∧
    (∀ (l : LineCtx) (f k : Nat), l.cut = false → (k = 0 ∨ l.saturates h f (k - 1) = false) →
      let x := roundDiv (16384 * (pgaGain (setGet l.set (F.H_AFE_CFG_GAIN h)) * l.vcds h f k)) 1000000000 +
        8 * (BitVec.ofNat 10 (setGet l.set (F.H_AFE_OFS_OFS h))).toInt
      l.code h f k = (if x < 0 then (0, true) else if 16383 < x then (16383, true) else (x.toNat, false)))

/-- Shading: the port writes and reads the entry that PADDR names and INDEX goes on, a write of a bank in use is dropped, and an
uncorrectable word is a class 5 fault; LEN; a reference run is taken or refused, and the end of a dark run writes the averages
into BLACK and keeps GAIN (R401, R403, R415-R424). Log entry 98. -/
def Obligations.Shading : Prop :=
  ∀ (h : Fin 6) (s : State), s.m.live = true →
    let x := (s.m.head h).shd
    let bank := s.m.get (F.H_SHD_PADDR_BANK h)
    let plane := s.m.get (F.H_SHD_PADDR_PLANE h)
    let i := s.m.get (F.H_SHD_PADDR_INDEX h)
    let idle : Prop := ∀ l ∈ (s.m.head h).tpg.lines, l.done = true ∨ l.gone = true
    let moved (t : State) : Prop := t.m.get (F.H_SHD_PADDR_INDEX h) = (i + 1) % 2 ^ 15 ∧ OtherHeads h s t ∧ SameCoreMem s t ∧
      SameStores s t ∧ (idle → OnlyHeads s t)
    (∀ v : Word,
      (s.m.shdInRange h = true → s.m.shdLocked h bank = false → Does (.shdPdataWrite h v) s (fun t => moved t ∧
        SameRegs (· = F.H_SHD_PADDR_reg h) s t ∧
        (s.m.get (F.H_SHD_PADDR_AREA h) = 0 → (t.m.head h).shd.coefAt bank plane i = v ∧ (t.m.head h).shd.lut = x.lut ∧
          ∀ k, k ≠ shdKey bank plane i → Sparse.get shdCoefReset (t.m.head h).shd.coef k = Sparse.get shdCoefReset x.coef k) ∧
        (s.m.get (F.H_SHD_PADDR_AREA h) = 1 → (t.m.head h).shd.lutAt bank i = v.truncate 8 ∧ (t.m.head h).shd.coef = x.coef))) ∧
      ((s.m.shdInRange h = false ∨ s.m.shdLocked h bank = true) → Does (.shdPdataWrite h v) s (fun t => moved t ∧
        t.m.get (F.H_SHD_STAT_PDROP h) = 1 ∧ (t.m.head h).shd = x)) ∧
      (∀ b : Fin 2,
        (s.m.shdLocked h b = false → Does (.shdBlenWrite h b v) s (fun t => OnlyRegs s t ∧
          SameRegs (· = F.H_SHD_BLEN_reg h b) s t ∧ t.m.get (F.H_SHD_BLEN_LEN h b) = v.toNat % 2 ^ 15)) ∧
        (s.m.shdLocked h b = true → Does (.shdBlenWrite h b v) s (fun t => OnlyRegs s t ∧
          SameRegs (· = F.H_SHD_STAT_reg h) s t ∧ t.m.get (F.H_SHD_STAT_PDROP h) = 1)))) ∧
    (s.m.shdPortBad h = false → Does (.shdPdataRead h) s (fun t => OnlyRegs s t ∧
      t.m.get (F.H_SHD_PADDR_INDEX h) = (i + 1) % 2 ^ 15 ∧
      SameRegs (fun a => a = F.H_SHD_PADDR_reg h ∨ (s.m.shdInRange h = false ∧ a = F.H_SHD_STAT_reg h)) s t ∧
      (s.m.shdInRange h = false → t.m.get (F.H_SHD_STAT_PDROP h) = 1))) ∧
    (s.m.shdPortBad h = true → Does (.shdPdataRead h) s (fun t => t.m.get (F.H_SHD_PADDR_INDEX h) = (i + 1) % 2 ^ 15 ∧
      t.m.get F.SHR_STATUS_HELD = 1 ∧ SameCoreMem s t ∧ SameStores s t)) ∧
    (∀ (white : Bool) (tb : Fin 2) (k : BitVec 4), s.m.get (F.H_SHD_REF_GO h) = 0 →
      let running : Prop := s.m.get (F.H_TPG_CTL_RUN h) = 1 ∧ s.m.get (F.H_TPG_STAT_PATERR h) = 0
      let calm : Prop := s.m.get (F.H_VADC_CTL_SWEEP h) = 0 ∧ s.m.get (F.H_VADC_CTL_CAL h) = 0
      let refused (why : Nat) : Prop := Does (.shdRefGo h white tb k) s (fun t =>
        t.m.get (F.H_SHD_REF_GO h) = 0 ∧ t.m.get (F.H_SHD_STAT_REFST h) = 3 ∧ t.m.get (F.H_SHD_STAT_REFWHY h) = why ∧
        ((s.m.head h).tpg.stopped = false → Pulsed s t (coreOf h) 5) ∧ Keeps s t)
      (running → calm → k.toNat ≤ 8 → Does (.shdRefGo h white tb k) s (fun t =>
          t.m.get (F.H_SHD_REF_GO h) = 1 ∧ t.m.get (F.H_SHD_STAT_REFST h) = 1 ∧ OnlyHeads s t ∧ OtherHeads h s t ∧
          (t.m.head h).shd = { x with runWait := true, runLeft := none, runKind := b2n white, runBank := tb, runK := k.toNat })) ∧
      (¬ running → refused 1) ∧ (running → ¬ calm → refused 2) ∧ (running → calm → 8 < k.toNat → refused 6)) ∧
    (∀ (white : Bool) (tb : Fin 2) (k : BitVec 4), s.m.get (F.H_SHD_REF_GO h) = 1 → Does (.shdRefGo h white tb k) s (fun t =>
      t.m.get (F.H_SHD_REF_GO h) = 1 ∧ OnlyRegs s t ∧ SameRegs (· = F.H_SHD_REF_reg h) s t)) ∧
    (x.runLeft = some 0 → x.runAccBad h = false → x.blackBad h = [] → x.runBank < 2 → (s.m.head h).tpg.stopped = false →
      let npix := setGet x.runSet (F.H_TPG_LINE_NPIX h)
      Does (.shdRefDone h) s (fun t => t.m.get (F.H_SHD_REF_GO h) = 0 ∧ t.m.get (F.H_SHD_STAT_REFST h) = 2 ∧
        (t.m.head h).shd.runLeft = none ∧ Pulsed s t (coreOf h) 5 ∧ OtherHeads h s t ∧ SameCoreMem s t ∧ SameStores s t ∧
        (idle → SameMem s t) ∧
        (x.runKind = 0 → npix ≤ 16384 → t.m.get (F.H_SHD_BLEN_LEN h x.runBank) = npix ∧
          ∀ f k, f ≤ setGet x.runSet (F.H_TPG_FIELDS_NFLD h) → k < npix + 16 →
            let p := setGet x.runSet (F.H_TPG_FLD_EXPE_ROW h f)
            (t.m.head h).shd.coefAt x.runBank p k =
              BitVec.ofNat 32 (coefGain (x.coefAt x.runBank p k) * 65536 + min (shdAverage (x.accAt p k) x.runK) 32767))))

/-! ## Illumination -/

/-- Windows of a lamp that is on: the row closes before its window, the start latches the words of the active frame and K, the
end opens the row and lets the setpoint learn; the end of a field gives its witness mean to WIT and to the light loop, which moves
K within its limits; EN, the boost period and failed samples (R427-R430, R436, R440, R445, R449-R452, R458, R463). -/
def Obligations.LampWindows : Prop :=
  ∀ (h : Fin 6) (s : State), s.m.live = true →
    let x := (s.m.head h).ill
    let only (t : State) : Prop := OtherHeads h s t ∧ Keeps s t
    let lit : Prop := s.m.lampOn h = true
    (∀ (f : Nat) (l : LineCtx), s.m.runField h f = some l →
      let row := l.row h f
      (l.lit h f = true → lit → x.dark = false →
        Does (.rowClose h f) s (fun t => (t.m.head h).ill = { x with rowClosed := some row } ∧ only t ∧
          SameRegs (fun _ => False) s t) ∧
        Does (.exposureStart h f false) s (fun t => (t.m.head h).ill = { x with
            frameNew := false, window := some row, winF := f, fltWin := false, kLatched := s.m.get (F.H_ILL_K_K h row),
            words := (List.range 16).map (fun k => s.m.get (F.H_ILL_FRMA_I h (16 * row + k))) } ∧ only t ∧
          SameRegs (fun _ => False) s t) ∧
        Does (.exposureStart h f true) s (fun t => (t.m.head h).ill.window = some row ∧
          t.m.get (F.H_ILL_STAT_BLOW h) = 1 ∧ only t)) ∧
      (∀ mv : Nat, x.window.isSome = true → Does (.exposureEnd h f (some mv)) s (fun t =>
        (t.m.head h).ill = { x with window := none, rowClosed := none, target := nextRow l.set h f } ∧ only t ∧
        SameRegs (· = F.H_ILL_VSET_reg h row) s t ∧
        t.m.get (F.H_ILL_VSET_V h row) = (clampInt 120 840 ((s.m.get (F.H_ILL_VSET_V h row) : Int) +
          clampInt (-20) 20 (roundDiv (10 * (setGet l.set (F.H_ILL_CFG_HR h) : Int) - mv) 50))).toNat)) ∧
      Does (.exposureEnd h f none) s (fun t =>
        (t.m.head h).ill = { x with window := none, rowClosed := none, target := nextRow l.set h f } ∧ only t ∧
        SameRegs (fun _ => False) s t)) ∧
    ((s.m.head h).tpg.oldest = none → exec (.witnessMean h () ()) s = .next s) ∧
    (∀ l : LineCtx, (s.m.head h).tpg.oldest = some l → l.gone = false → l.wit ≤ l.nfld h →
      let row := l.row h l.wit
      let mean := shdWitness (s.m.head h).shd l.set h l.wit (l.codes h l.wit)
      let wit (n : Nat) : Prop := n = F.H_SHD_WIT_reg h l.wit
      (s.m.head h).shd.witnessBad l.set h l.wit = false → -65536 ≤ mean → mean ≤ 65535 → Does (.witnessMean h () ()) s (fun t => only t ∧
        t.m.get (F.H_SHD_WIT_MEAN h l.wit) = wrapInt 17 mean ∧
        (t.m.head h).tpg.oldest = some { l with wit := l.wit + 1 } ∧
        (s.m.kmode h row ≠ 2 → SameRegs wit s t ∧ (t.m.head h).ill = x) ∧
        (s.m.kmode h row = 2 → t.m.get (F.H_ILL_K_K h row) =
          (clampInt (max 0x1000 (s.m.act (F.H_ILL_KLIM_KMIN h))) (s.m.act (F.H_ILL_KLIM_KMAX h))
            ((s.m.get (F.H_ILL_K_K h row) : Int) +
              floorDiv (((s.m.act (F.H_ILL_KL_WREF h row) : Int) - mean) * s.m.act (F.H_ILL_KL_LGAIN h row)) (2 ^ 12))).toNat))) ∧
    (s.m.get (F.H_ILL_STAT_STBUSY h) = 0 → s.m.get (F.H_ILL_CTL_EN h) = 0 → Does (.illEn h true) s (fun t =>
      t.m.get (F.H_ILL_CTL_EN h) = 1 ∧ (t.m.head h).ill.boost = true ∧
      (∀ r, r < 4 → t.m.get (F.H_ILL_VSET_V h r) = s.m.vinit h r) ∧ only t)) ∧
    (s.m.get (F.H_ILL_STAT_STBUSY h) = 1 → Does (.illEn h true) s (fun t => SameRegs (fun _ => False) s t ∧
      (t.m.head h).ill = { x with enHeld := true } ∧ only t)) ∧
    Does (.illEn h false) s (fun t => t.m.get (F.H_ILL_CTL_EN h) = 0 ∧ (t.m.head h).ill.window = none ∧
      (t.m.head h).ill.rowClosed = none ∧ (t.m.head h).ill.boost = false ∧ only t) ∧
    (∀ (near cool : Bool) (on : Nat) (cut : Option Nat), lit → x.boost = true → Does (.boostPeriod h near cool ⟨on, cut⟩) s (fun t =>
      (t.m.head h).ill = { x with boostHigh := x.boostHigh && !cool,
                                  onTime := if x.boostHigh && !cool then 0
                                    else min (max 300 (min 1800 on)) (cut.getD 1800) } ∧ only t ∧
      (near = true → t.m.get (F.H_ILL_STAT_BRDY h) = 1))) ∧
    (∀ k : IllFound, s.m.lampOn h = false → exec (.illMonitorSample h k) s = .next s) ∧
    (lit → s.m.get (F.H_ILL_FLT_VALID h) = 0 →
      let fails (k : IllFound) (kind : Nat) (p : State → Prop) : Prop := Does (.illMonitorSample h k) s (fun t =>
        t.m.get (F.H_ILL_FLT_VALID h) = 1 ∧ t.m.get (F.H_ILL_FLT_KIND h) = kind ∧ p t ∧ SameCoreMem s t ∧ SameStores s t ∧
        t.m.get F.SHR_STATUS_HELD = (if s.m.armed then 1 else s.m.get F.SHR_STATUS_HELD))
      let isRow (r : Nat) (t : State) : Prop := t.m.get (F.H_ILL_FLT_ROW h) = r
      (∀ (r : Nat) (k : Fin 16), x.window = some r → r < 4 → (s.m.nextProbe h k).isSome = true →
        fails (.sinkOpen k) 1 (fun t => isRow r t ∧ t.m.get (F.H_ILL_FLT_SEG h) = k.val) ∧
        fails (.stringShort k) 2 (fun t => isRow r t ∧ t.m.get (F.H_ILL_FLT_SEG h) = k.val)) ∧
      (∀ (r : Nat) (k : Fin 16), x.rowClosed = some r → r < 4 →
        (s.m.sinkOn h k (nextGrid 64 s.m.now) = false →
          fails (.sinkLeak k) 3 (fun t => isRow r t ∧ t.m.get (F.H_ILL_FLT_SEG h) = k.val)) ∧
        (s.m.get (F.H_ILL_STAT_BRDY h) = 1 → fails .boostLow 6 (isRow r))) ∧
      (∀ r : Fin 4, x.window = some r.val → (s.m.runField h x.winF).isSome = true → fails (.rowOpen r) 4 (isRow r)) ∧
      (∀ r : Fin 4, x.rowClosed ≠ some r.val → fails (.rowStuck r) 5 (isRow r)) ∧
      fails .boostHigh 7 (fun t => (t.m.head h).ill.onTime = 0))

/-- Frames and tests of a lamp: arming, making and cancelling a swap, writing a frame word, shaping, the short test, and the
cascade's frames: a DATA frame with the shares that CASGO took, each row scaled by its K, the APPLY of a swap, and the ON and OFF
frames of a window (R433, R437-R443, R455, R464-R468, R475-R477). -/
def Obligations.LampFrames : Prop :=
  ∀ (h : Fin 6) (s : State), s.m.live = true →
    let x := (s.m.head h).ill
    let stopped := (s.m.head h).tpg.stopped
    let armed := s.m.get (F.H_ILL_CTL_SWAP h) = 1
    let only (t : State) : Prop := OtherHeads h s t ∧ Keeps s t
    let sends : Prop := s.m.get F.SHR_STATUS_SAFE = 0 ∧ stopped = false
    (¬ armed → Does (.illSwap h) s (fun t => t.m.get (F.H_ILL_CTL_SWAP h) = 1 ∧
      (t.m.head h).ill = { x with armAt := s.tick.m.now } ∧ only t ∧ SameRegs (· = F.H_ILL_CTL_reg h) s t)) ∧
    (armed → s.m.act (F.H_ILL_CFG_SWSRC h) = 0 → (s.m.head h).tpg.idle = true → stopped = false → Does (.frameSwap h) s (fun t =>
      t.m.get (F.H_ILL_CTL_SWAP h) = 0 ∧ (t.m.head h).ill.frameNew = true ∧ Pulsed s t (coreOf h) 6 ∧ only t ∧
      (∀ k, k < 64 → t.m.get (F.H_ILL_FRMA_I h k) = s.m.get (F.H_ILL_FRMW_I h k)) ∧
      (s.m.act (F.H_ILL_CFG_CASEN h) = 1 → sends →
        ∃ b, (t.m.head h).ill.cas.getLast? = some ⟨.apply, b, s.m.casTB h, 11⟩ ∧ t.m.now ≤ b))) ∧
    Does (.illSwcan h) s (fun t => t.m.get (F.H_ILL_CTL_SWAP h) = 0 ∧ OnlyRegs s t ∧ SameRegs (· = F.H_ILL_CTL_reg h) s t) ∧
    (∀ (k : Fin 64) (v : Word),
      (¬ armed → Does (.illFrmwWrite h k v) s (fun t => t.m.get (F.H_ILL_FRMW_I h k) = v.toNat % 2 ^ 12 ∧ OnlyRegs s t ∧
        SameRegs (· = F.H_ILL_FRMW_reg h k) s t)) ∧
      (armed → Does (.illFrmwWrite h k v) s (fun t => t.m.get (F.H_ILL_STAT_FDROP h) = 1 ∧
        t.m.reg (F.H_ILL_FRMW_reg h k) = s.m.reg (F.H_ILL_FRMW_reg h k) ∧ only t))) ∧
    (s.m.get (F.H_ILL_CTL_SHAPE h) = 0 →
      (¬ armed → Does (.illShape h) s (fun t => t.m.get (F.H_ILL_CTL_SHAPE h) = 1 ∧ only t ∧
        (t.m.head h).ill = { x with shEnd := some (s.tick.m.headNow h + 1024) })) ∧
      (armed → Does (.illShape h) s (fun t => t.m.get (F.H_ILL_STAT_SHREF h) = 1 ∧ t.m.get (F.H_ILL_CTL_SHAPE h) = 0 ∧ only t))) ∧
    (x.shEnd.isSome = true → stopped = false → Does (.shapeDone h) s (fun t => t.m.get (F.H_ILL_CTL_SHAPE h) = 0 ∧
      t.m.get (F.H_ILL_STAT_SHDONE h) = 1 ∧ (t.m.head h).ill = { x with shEnd := none } ∧ only t ∧
      ∀ p k, p < 4 → k < 16 → t.m.get (F.H_ILL_FRMW_I h (16 * p + k)) = (s.m.shapePlane h p).1.getD k 0)) ∧
    (s.m.get (F.H_ILL_STAT_STBUSY h) = 0 →
      (s.m.get (F.H_ILL_CTL_EN h) = 0 → Does (.illStest h) s (fun t => t.m.get (F.H_ILL_CTL_STEST h) = 1 ∧
        t.m.get (F.H_ILL_STAT_STBUSY h) = 1 ∧ (t.m.head h).ill = { x with stEnd := some (s.tick.m.headNow h + 570000) } ∧ only t)) ∧
      (s.m.get (F.H_ILL_CTL_EN h) = 1 → Does (.illStest h) s (fun t => t.m.get (F.H_ILL_STAT_STREF h) = 1 ∧
        t.m.get (F.H_ILL_CTL_STEST h) = s.m.get (F.H_ILL_CTL_STEST h) ∧ only t))) ∧
    (∀ pairs : BitVec 19, x.stEnd.isSome = true → stopped = false →
      let done (t : State) : Prop := t.m.get (F.H_ILL_SHORT_PAIRS h) = pairs.toNat ∧ t.m.get (F.H_ILL_STAT_STBUSY h) = 0 ∧
        t.m.get (F.H_ILL_CTL_STEST h) = 0 ∧ t.m.get (F.H_ILL_STAT_STDONE h) = 1 ∧ only t
      (x.enHeld = false → Does (.shortTestDone h pairs) s (fun t => done t ∧ (t.m.head h).ill = { x with stEnd := none })) ∧
      (x.enHeld = true → Does (.shortTestDone h pairs) s (fun t => done t ∧ t.m.get (F.H_ILL_CTL_EN h) = 1 ∧
        (t.m.head h).ill.stEnd = none ∧ (t.m.head h).ill.enHeld = false))) ∧
    (s.m.get (F.H_ILL_CTL_CASGO h) = 0 → Does (.illCasgo h) s (fun t => t.m.get (F.H_ILL_CTL_CASGO h) = 1 ∧ only t ∧
      SameRegs (· = F.H_ILL_CTL_reg h) s t ∧ (t.m.head h).ill = { x with
        casReq := some ((List.range (s.m.get (F.H_ILL_CTL_CASN h) + 1)).map (s.m.casRaw h)) })) ∧
    (s.m.get (F.H_ILL_CTL_CASGO h) = 1 → exec (.illCasgo h) s = .next s.tick) ∧
    (¬ sends → exec (.cascadeDataSend h) s = .next s) ∧
    (∀ req : List (BitVec 48), x.casReq = some req → x.casEnd = none → sends → Does (.cascadeDataSend h) s (fun t =>
      (t.m.head h).ill.cas.getLast? =
        some ⟨.data (req.map (s.m.casScale h)), t.m.now, s.m.casTB h, 11 + 56 * req.length⟩ ∧
      (t.m.head h).ill.casEnd = some (t.m.now + (11 + 56 * req.length) * s.m.casTB h) ∧ (t.m.head h).ill.casReq = none ∧ only t ∧
      SameRegs (fun _ => False) s t)) ∧
    (∀ e : Nat, x.casEnd = some e → sends → Does (.cascadeDataSend h) s (fun t =>
      t.m.get (F.H_ILL_CTL_CASGO h) = 0 ∧ (t.m.head h).ill = { x with casEnd := none } ∧ Pulsed s t (coreOf h) 8 ∧ only t)) ∧
    ((x.cas.find? (fun y => y.frame = .apply)) = none → exec (.cascadeMark h .apply) s = .next s) ∧
    (∀ y : CasAt, (x.cas.find? (fun y => y.frame = .apply)) = some y →
      exec (.cascadeMark h .apply) s = .next { s with m := s.m.runTo y.start }) ∧
    (∀ (f : Nat) (l : LineCtx), s.m.runField h f = some l → s.m.casOn h l = true → l.lit h f = true →
      let tb := casTBOf (setGet l.set (F.H_ILL_CFG_CASTB h))
      let sent (k : CasMark) (on : Bool) (frame : CasFrame) : Prop := x.casMarks.contains (l.casAim h f on, on) = false →
        Does (.cascadeMark h k) s (fun t => only t ∧ (t.m.head h).ill.casMarks = ((l.casAim h f on, on) :: x.casMarks).take 16 ∧
          ∃ b, (t.m.head h).ill.cas.getLast? = some ⟨frame, b, tb, 11⟩ ∧ l.casAim h f on - 74 * tb ≤ b)
      sent (.on f) true (.on (l.row h f)) ∧ sent (.off f) false .off)

/-! ## Auxiliary sensing -/

/-- The sequencers at rest: a calibration starts for 0.9 ms or is refused, and ends; a start begins a loop and sets the next; an
event schedules a start; a result lands with its value, its SEQ and its flags; an urgent request is taken, missed or refused and
runs; a cross-check that is late sets XLATE and is a fault when Shroud is armed (R495-R515, R532).
Log entries 33, 100 and 101. -/
def Obligations.AuxSequencers : Prop :=
  ∀ (s : State), s.m.live = true →
    (∀ c : Fin 2, (s.m.seq c).loop = none ∧ (s.m.seq c).run = none ∧ (s.m.seq c).steer = []) →
    (s.m.get F.AUX_CTL_CAL = 0 → (s.m.seq 0).urgEnd = none → (s.m.seq 1).urgEnd = none →
      let runs : Prop := s.m.get (F.AUX_SEQ_RUN 0) = 1 ∨ s.m.get (F.AUX_SEQ_RUN 1) = 1 ∨ s.m.auxEn = false
      let refused (st : Nat) : Prop := Does .auxCal s (fun t => t.m.get F.AUX_STAT_CALST = st ∧ t.m.get F.AUX_CTL_CAL = 0 ∧
        t.m.get F.AUX_STAT_CALDONE = 1 ∧ t.m.aux = s.m.aux ∧ Pulsed s t 7 4 ∧ Keeps s t)
      (¬ runs → s.m.get F.BOOT_ANA_AREF_EN = 1 →
        Does .auxCal s (fun t => t.m.get F.AUX_STAT_CALST = 1 ∧ t.m.get F.AUX_CTL_CAL = 1 ∧
          t.m.aux.calEnd = some ((s.tick.m.now / 4 + 1) * 4 + 2700000) ∧ Keeps s t ∧ t.m.heads = s.m.heads)) ∧
      (runs → refused 3) ∧ (¬ runs → s.m.get F.BOOT_ANA_AREF_EN = 0 → refused 4)) ∧
    (∀ (due : Nat) (pass : Bool), s.m.aux.calEnd = some due → s.m.get F.BOOT_STATUS_PHASE = 4 → Does (.auxCalDone pass) s (fun t =>
      t.m.get F.AUX_CTL_CAL = 0 ∧ t.m.aux.calEnd = none ∧ t.m.get F.AUX_STAT_CALST = (if pass then 2 else 5) ∧
      t.m.get F.AUX_STAT_CALDONE = 1 ∧ Pulsed s t 7 4 ∧ Keeps s t)) ∧
    (∀ c : Fin 2, s.m.get (F.AUX_SEQ_RUN c) = 1 → s.m.auxEn = true →
      let x := s.m.seq c
      let start := s.m.get (F.AUX_SEQ_START c)
      let begins (at' : Nat) (t : State) : Prop := (∃ k, (t.m.seq c).loop = some (at', k)) ∧
        t.m.get (F.AUX_SSTAT_BUSY c) = 1 ∧ Keeps s t
      (∀ due, s.m.aux.calEnd = none → x.held = false → due < 2 ^ 64 →
        let at' := max (max due x.free) (max s.m.now due / 64 * 64)
        (start = 1 → x.nextStart = some due → Does (.auxLoopStart c) s (fun t => begins at' t ∧
          (t.m.seq c).nextStart = some (due + 64 * max 1 (s.m.get (F.AUX_PER_PERIOD c))))) ∧
        (∀ rest, start = 2 → x.evDue = due :: rest → Does (.auxLoopStart c) s (fun t => begins at' t ∧
          (t.m.seq c).evDue = rest))) ∧
      (s.m.aux.calEnd = none → start ≠ 1 → start ≠ 2 →
        let at' := max (max x.free (x.nextStart.getD x.free)) (s.m.now / 64 * 64)
        at' < 2 ^ 64 → Does (.auxLoopStart c) s (fun t => begins at' t ∧ (t.m.seq c).nextStart = none)) ∧
      (start = 2 → s.m.get (F.AUX_SEQ_EVSRC c) ≤ 3 → Does (.auxSeqEvent c) s (fun t =>
        t.m.seq c = { x with evDue := x.evDue ++ [nextGrid 64 s.m.now + 64 * s.m.get (F.AUX_SEQ_EVDLY c)] } ∧
        t = { s with m := { s.m with aux := t.m.aux } }))) ∧
    (∀ (c : Fin 2) (p : AuxPend) (samples : List AuxVolts) (low : List Nat), (s.m.seq c).land = [p] → recBlank p.lo = false →
      p.ent < 32 →
      let e : Fin 32 := Fin.ofNat 32 p.ent
      let codes := (List.range (recN p.hi)).map (fun i => s.m.auxCode p.lo p.pos p.neg (samples.getD i []))
      let r := auxY p.lo (s.m.reg (F.AUX_COR_reg c e)) (recN p.hi) codes
      let v := s.m.auxVal p.lo r.1 r.2.2 r.2.1
      Does (.auxResult c samples low) s (fun t => (t.m.seq c).land = [] ∧ t.m.get (F.AUX_RES_VAL c e) = v.val % 2 ^ 16 ∧
        t.m.get (F.AUX_RES_CLIP c e) = b2n v.clip ∧ t.m.get (F.AUX_RES_URG c e) = b2n p.urg ∧
        t.m.get (F.AUX_RES_SEQ c e) = (s.m.get (F.AUX_RES_SEQ c e) + 1) % 16 ∧
        (s.m.half c e = true ∨ p.sw ≤ (s.m.seq c).stale[e] → t.m.get (F.AUX_RES_STALE c e) = 1) ∧
        SameCoreMem s t ∧ SameStores s t)) ∧
    (∀ (c : Fin 2) (e : Fin 32),
      (s.m.get (F.AUX_URG_GO c) = 1 → Does (.auxUrgent c e) s (fun t => t.m.get (F.AUX_SSTAT_URGMISS c) = 1 ∧ OnlyRegs s t ∧
        SameRegs (· = F.AUX_SSTAT_reg c) s t)) ∧
      (s.m.get (F.AUX_URG_GO c) = 0 →
        let serves : Prop := s.m.get (F.AUX_ENTL_EN c e) = 1 ∧ s.m.half c e = false ∧ s.m.aux.calEnd = none
        (serves → Does (.auxUrgent c e) s (fun t => t.m.get (F.AUX_URG_GO c) = 1 ∧ t.m.get (F.AUX_URG_ENT c) = e.val ∧
          t.m.seq c = { s.m.seq c with urg := some (e.val, s.tick.m.now) } ∧ SameRegs (· = F.AUX_URG_reg c) s t ∧ Keeps s t)) ∧
        (¬ serves → Does (.auxUrgent c e) s (fun t =>
          t.m.get (F.AUX_SSTAT_URGREF c) = 1 ∧ t.m.get (F.AUX_URG_GO c) = 0 ∧ Pulsed s t 7 4 ∧ t.m.aux = s.m.aux ∧ Keeps s t))) ∧
      (∀ (asked : Nat) (low : List Nat), (s.m.seq c).urg = some (e.val, asked) → s.m.auxEn = true → s.m.aux.calEnd = none →
        let slot := asked / 64 * 64 + 64
        slot < 2 ^ 64 → Does (.urgentRunStart ⟨c, low⟩) s (fun t => (t.m.seq c).urg = none ∧
          (t.m.seq c).urgEnd = some (e.val, (if s.m.now ≤ slot then slot else nextGrid 64 s.m.now) +
            64 * runSamples (s.m.entHi c e) 1) ∧
          (t.m.seq c).land.length = (s.m.seq c).land.length + 1 ∧ Keeps s t))) ∧
    (s.m.get F.AUX_STAT_XARMED = 0 → exec .xcheckLate s = .next s) ∧
    (s.m.aux.xSince = none → exec .xcheckLate s = .next s) ∧
    (s.m.get F.AUX_STAT_XARMED = 1 → s.m.aux.xSince.isSome = true → Does .xcheckLate s (fun t => t.m.get F.AUX_STAT_XLATE = 1 ∧
      t.m.get F.SHR_STATUS_HELD = (if s.m.armed then 1 else s.m.get F.SHR_STATUS_HELD) ∧ SameCoreMem s t ∧ SameStores s t))

/-- Entries and excitation: a low half alone leaves an entry half written and a high half completes it, a change of either
makes its result stale, and a change of the analog set-up makes every result stale; a monitor of a connected source that holds its
check over 64 samples sets its bit and is class 8 when Shroud is armed, clearing lets the source return; REFRDY (R483-R493, R513,
R517, R518). Log entry 102. -/
def Obligations.AuxEntries : Prop :=
  ∀ (s : State), s.m.live = true → (∀ c : Fin 2, (s.m.seq c).loop = none ∧ (s.m.seq c).steer = []) →
    (∀ (c : Fin 2) (e : Fin 32) (v : Word),
      Does (.auxEntLowWrite c e v) s (fun t => t.m.reg (F.AUX_ENTL_reg c e) = (s.m.reg (F.AUX_ENTL_reg c e) &&& 0x7C00) |||
          (v &&& ~~~0x7C00) ∧ t.m.half c e = true ∧ t.m.get (F.AUX_RES_STALE c e) = 1 ∧ Keeps s t) ∧
      Does (.auxEntHighWrite c e v) s (fun t => t.m.reg (F.AUX_ENTH_reg c e) = (s.m.reg (F.AUX_ENTH_reg c e) &&& 0x7000) |||
          (v &&& ~~~0x7000) ∧ t.m.half c e = false ∧ t.m.get (F.AUX_RES_STALE c e) = 1 ∧ Keeps s t)) ∧
    (∀ (r : AuxReg) (v : Word), Does (.auxCfgWrite r v) s (fun t => Keeps s t ∧
      (∀ (c : Fin 2) (e : Fin 32), t.m.get (F.AUX_RES_STALE c e) = 1) ∧
      (r = .cfg → t.m.get F.AUX_CFG_REFSEL = (v >>> 30).toNat ∧
        (s.m.get F.AUX_CFG_REFSEL ≠ (v >>> 30).toNat → t.m.get F.AUX_STAT_REFRDY = 0)) ∧
      (r = .exc0 → t.m.get F.AUX_EXC0_EN = b2n (v.getLsbD 31)) ∧ (r = .exc1 → t.m.get F.AUX_EXC1_EN = b2n (v.getLsbD 31)) ∧
      (r = .vex → t.m.get F.AUX_VEX_EN = b2n (v.getLsbD 31)) ∧ (r = .bias → t.m.get F.AUX_BIAS_MASK = v.toNat % 2 ^ 16))) ∧
    (∀ c : Fin 2, Does (.auxClrskip c) s (fun t => t.m.get (F.AUX_SSTAT_SKIP c) = 0 ∧ t.m.get (F.AUX_LOOPT_MAX c) = 0 ∧
      OnlyRegs s t ∧ SameRegs (fun a => a = F.AUX_SSTAT_reg c ∨ a = F.AUX_LOOPT_reg c) s t)) ∧
    (∀ (i : Fin 3) (short : Bool) (vals : List Nat),
      let holds : Prop := vals.length = 64 ∧ ∀ x ∈ vals, s.m.checkHolds i short x = true
      ((s.m.excPin i = none ∨ ¬ holds) → exec (.excitationFault i ⟨short, vals⟩) s = .next s) ∧
      ((s.m.excPin i).isSome = true → holds → Does (.excitationFault i ⟨short, vals⟩) s (fun t =>
        t.m.get F.AUX_EXCSTAT_FAULTS = s.m.get F.AUX_EXCSTAT_FAULTS ||| 2 ^ (2 * i.val + b2n short) ∧ t.m.excOn i = false ∧
        Pulsed s t 7 6 ∧ SameCoreMem s t ∧ SameStores s t ∧
        t.m.get F.SHR_STATUS_HELD = (if s.m.armed then 1 else s.m.get F.SHR_STATUS_HELD)))) ∧
    (∀ v : Word, s.tick.m.beat.marked s.tick.m.now F.AUX_EXCSTAT_reg = 0 → Does (.auxExcstatClear v) s (fun t => Keeps s t ∧
      (∀ k, k < 6 → (t.m.get F.AUX_EXCSTAT_FAULTS).testBit k = ((s.m.get F.AUX_EXCSTAT_FAULTS).testBit k && !v.getLsbD k)) ∧
      SameRegs (fun a => a = F.AUX_EXCSTAT_reg ∨ a = F.AUX_STAT_reg) s t)) ∧
    (s.m.get F.AUX_STAT_REFRDY = 0 → s.m.get F.BOOT_ANA_AREF_EN = 1 → Does .refrdy s (fun t => t.m.get F.AUX_STAT_REFRDY = 1 ∧
      SameRegs (· = F.AUX_STAT_reg) s t ∧ Keeps s t))

/-! ## Trigger and acquisition -/

/-- Units and triggers: a pattern and a timeout fire with their event times, software trigger k opens the page when it is the
start source and the machine is armed, and the page number goes on; MSYNC triggers the heads that take it (R324, R438, R538-R555).
Log entry 103. -/
def Obligations.Triggers : Prop :=
  ∀ (s : State), s.m.live = true →
    (∀ (u : Fin 8) (hist : List (BitVec 16 × Nat)),
      let din := (hist.getLast?.map (fun e => e.1)).getD s.m.pins.din
      let r : PatRun := hist.foldl (fun r e => r.add (s.m.patternHolds u e.1) e.2) {}
      let need := s.m.get (F.TRG_U_WMIN_WMIN u) % 2 ^ 24 + 1
      let leave : Prop := s.m.get (F.TRG_U_CFG_LEAVE u) = 1
      let seen : Prop := (s.m.unit u).since + (hist.foldl (fun n e => n + e.2) 0) ≤ s.m.now + 1 ∧
        (leave → r.off = 1 ∧ need ≤ r.prev) ∧ (¬ leave → r.run = need)
      s.m.get (F.TRG_U_CFG_EN u) = 1 → s.m.get (F.TRG_U_CFG_KIND u) = 0 →
      (¬ seen → exec (.trgPatternFire u hist) s = .next { s with m := { s.m with pins := { s.m.pins with din := din } } }) ∧
      (seen → s.m.pageState = 0 → Does (.trgPatternFire u hist) s (fun t =>
        let at' := s.m.now - (if s.m.get (F.TRG_U_CFG_LEAVE u) = 1 then 2 else need + 1)
        t.m.get (F.TRG_U_CNT_N u) = min (2 ^ 32 - 1) (s.m.get (F.TRG_U_CNT_N u) + 1) ∧ t.m.pins.din = din ∧
        t.m.get (F.TRG_U_TLO_T u) = at' % 2 ^ 32 ∧ t.m.get (F.TRG_U_THI_T u) = at' % 2 ^ 48 / 2 ^ 32 ∧ Keeps s t))) ∧
    (∀ (u : Fin 8) (up : Nat), (s.m.unit u).up1 = some up → (s.m.unit u).armed = true → s.m.get (F.TRG_U_CFG_EN u) = 1 →
      s.m.get (F.TRG_U_CFG_KIND u) = 4 → s.m.pageState = 0 → Does (.trgTimeoutFire u) s (fun t =>
        let at' := up + s.m.get (F.TRG_U_WMAX_WMAX u)
        t.m.get (F.TRG_U_CNT_N u) = min (2 ^ 32 - 1) (s.m.get (F.TRG_U_CNT_N u) + 1) ∧ (t.m.unit u).armed = false ∧
        t.m.get (F.TRG_U_TLO_T u) = at' % 2 ^ 32 ∧ t.m.get (F.TRG_U_THI_T u) = at' % 2 ^ 48 / 2 ^ 32 ∧ Keeps s t)) ∧
    (∀ k : Fin 16, s.m.pageState = 2 → s.m.get F.TRG_CTL_PSSRC = 16 + k.val → s.m.trg.swtAt[k] ≠ s.tick.m.now / 4 + 1 →
      s.m.trg.held = none →
      Does (.trgSwt (BitVec.ofNat 32 (2 ^ k.val))) s (fun t => (s.m.noSyncs → t.m.pageState = 3) ∧ Pulsed s t 6 11 ∧
        SameCoreMem s t ∧ SameStores s t ∧ t.m.get F.TRG_PAGENO_PAGENO = (s.m.get F.TRG_PAGENO_PAGENO + 1) % 2 ^ 16 ∧
        t.m.trg.swtAt[k] = s.tick.m.now / 4 + 1)) ∧
    Does .msyncEdge s (fun t => Keeps s t ∧ ∀ h : Fin 6, s.m.trigSrc h = 3 → s.m.accepts h = true →
      (s.m.head h).tpg.lastTrig ≠ some s.m.now → (s.m.head h).tpg.await = none → (s.m.head h).tpg.held = none →
      (s.m.head h).tpg.active = none → (t.m.head h).tpg.await = some { sync := nextGrid 16 s.m.now, pos := 0 })

/-- The page machine and the rings: ARM, ABORT, EN and the automatic page; a ring is enabled with its counts at zero when its
geometry is valid and shows what is wrong when it is not; a release of no more than FILL lines goes on with RCNT, a greater one
is RELERR (R548, R551-R556, R565, R572). -/
def Obligations.PagesAndRings : Prop :=
  ∀ (s : State), s.m.live = true →
    let stays (i : Instr) : Prop := exec i s = .next s.tick
    (s.m.pageState = 1 → Does .trgArm s (fun t => t.m.pageState = 2 ∧ t.m.trg.armedSince = s.tick.m.now ∧
      SameRegs (· = F.TRG_STAT_reg) s t ∧ Keeps s t)) ∧
    (s.m.pageState ≠ 1 → stays .trgArm) ∧
    (s.m.pageState = 3 → s.m.trg.held = none → Does .trgAbort s (fun t => Pulsed s t 6 12 ∧ SameCoreMem s t ∧ SameStores s t ∧
      t.m.pageState = (if s.m.get F.TRG_CTL_AUTOARM = 1 ∧ s.m.get F.TRG_CTL_EN = 1 then 2 else 1))) ∧
    (s.m.pageState ≠ 3 → stays .trgAbort ∧
      Does (.trgEn false) s (fun t => t.m.get F.TRG_CTL_EN = 0 ∧ t.m.pageState = 0 ∧ t.m.trg.held = none ∧ Keeps s t)) ∧
    (s.m.pageState = 3 → Does (.trgEn false) s (fun t => t.m.get F.TRG_CTL_EN = 0 ∧ t.m.pageState = 0 ∧ t.m.trg.held = none ∧
      Pulsed s t 6 12 ∧ SameCoreMem s t ∧ SameStores s t)) ∧
    (s.m.get F.TRG_CTL_EN = 0 → Does (.trgEn true) s (fun t => t.m.get F.TRG_CTL_EN = 1 ∧ t.m.pageState = 1 ∧ OnlyRegs s t ∧
      SameRegs (fun a => a = F.TRG_CTL_reg ∨ a = F.TRG_STAT_reg) s t)) ∧
    (s.m.get F.TRG_CTL_EN = 1 → Does (.trgEn true) s (fun t => OnlyRegs s t ∧ SameRegs (fun _ => False) s t)) ∧
    (s.m.get F.TRG_CTL_AUTO = 1 → s.m.pageState = 2 → s.m.trg.held = none → s.m.get F.TRG_CNT_AUTOS < 0xFFFF →
      Does .trgAutoTimeout s (fun t => (s.m.noSyncs → t.m.pageState = 3) ∧
      t.m.get F.TRG_CNT_AUTOS = s.m.get F.TRG_CNT_AUTOS + 1 ∧ Pulsed s t 6 11 ∧
      t.m.get F.TRG_PAGENO_PAGENO = (s.m.get F.TRG_PAGENO_PAGENO + 1) % 2 ^ 16 ∧ SameCoreMem s t ∧ SameStores s t)) ∧
    ((s.m.get F.TRG_CTL_AUTO = 0 ∨ s.m.pageState ≠ 2) → exec .trgAutoTimeout s = .next s) ∧
    (∀ h : Fin 6,
      (s.m.get (F.TRG_R_CTL_EN h) = 0 → Does (.trgRingEn h true) s (fun t => Keeps s t ∧
        t.m.get (F.TRG_R_STAT_RERR h) = s.m.ringCheck h ∧
        (s.m.ringCheck h = 0 → t.m.get (F.TRG_R_CTL_EN h) = 1 ∧ t.m.get (F.TRG_R_WCNT_N h) = 0 ∧
          t.m.get (F.TRG_R_RCNT_N h) = 0 ∧ t.m.get (F.TRG_R_CSEQ_CSEQ h) = 0 ∧ t.m.ring h = {}) ∧
        (s.m.ringCheck h ≠ 0 → t.m.get (F.TRG_R_CTL_EN h) = 0 ∧ t.m.trg = s.m.trg))) ∧
      (s.m.get (F.TRG_R_CTL_EN h) = 1 → stays (.trgRingEn h true)) ∧
      Does (.trgRingEn h false) s (fun t => t.m.get (F.TRG_R_CTL_EN h) = 0 ∧ SameCoreMem s t ∧ SameStores s t) ∧
      (∀ n, n < 65536 → (s.m.ring h).freed.1 ≠ s.tick.m.tickNo →
        (n ≤ s.m.fill h → (s.m.ring h).lines.length ≤ n + s.m.get (F.TRG_R_PRE_HIST h) →
          s.m.fill h + s.m.capt h ≤ s.m.get (F.TRG_R_NSLOT_NSLOT h) + n →
          Does (.trgRingRelease h n) s (fun t => t.m.get (F.TRG_R_RCNT_N h) = (s.m.get (F.TRG_R_RCNT_N h) + n) % 2 ^ 32 ∧
            t.m.ring h = { s.m.ring h with lines := (s.m.ring h).lines.drop n } ∧ Keeps s t)) ∧
        (s.m.fill h < n → Does (.trgRingRelease h n) s (fun t => t.m.get (F.TRG_R_STAT_RELERR h) = 1 ∧ Keeps s t ∧
          ((s.m.ring h).lines.length ≤ s.m.get (F.TRG_R_PRE_HIST h) →
            s.m.fill h + s.m.capt h ≤ s.m.get (F.TRG_R_NSLOT_NSLOT h) →
            OnlyRegs s t ∧ SameRegs (· = F.TRG_R_STAT_reg h) s t)))))

/-! ## Motion -/

/-- A motion interval: the boundary is the next one, each axis's position there joins its history, an axis at rest stays, an
axis whose EN was set enters RUN, a running axis in velocity mode goes on by its new v, which the planner's jerk gives (log entry
9), and Reef under FORCE takes the greatest of FORCEL, the lamp floor and the die floor (R588-R590, R595-R597, R655). -/
def Obligations.MotionIntervals : Prop :=
  ∀ (j0 j1 : Jerk) (s : State), s.m.live = true → s.m.get F.BWL_CTL_EN = 0 → s.m.miDue < 2 ^ 64 →
    s.m.get (F.HAL_AX_CTL_ENC 0) = 0 → s.m.get (F.HAL_AX_CTL_ENC 1) = 0 → s.m.bwl.pend = none → s.m.bwl.stop = 0 →
    Does (.motionInterval j0 j1) s (fun t => t.m.now = s.m.miDue ∧ Keeps s t ∧
      (s.m.reefGet F.REEF_CTL_FORCE = 1 → s.m.reef.wrote = [] →
        t.m.get F.REEF_STAT_LEVEL = max (s.m.reefGet F.REEF_CTL_FORCEL) (max s.m.reefLamp s.m.reefDie)) ∧
      (∀ a : Fin 2,
        let x := s.m.axis a
        let y := t.m.axis a
        let state := s.m.get (F.HAL_AX_STAT_STATE a)
        y.hist = ((s.m.miDue, x.p) :: x.hist).take 16384 ∧
        ((state = 0 ∨ state = 6) → (x.starting = false ∨ x.offAfter = true) →
          y.p = x.p ∧ y.v = 0 ∧ y.a = 0 ∧ t.m.get (F.HAL_AX_STAT_STATE a) = state) ∧
        (s.m.get (F.HAL_AX_CTL_HOLD a) = 0 → s.m.schedHeads a = [] → s.m.commitTick (axisCommit a) = none →
          (x.starting = true → x.offAfter = false → t.m.get (F.HAL_AX_STAT_STATE a) = 1 ∧ y.starting = false) ∧
          (state = 1 → x.starting = false → s.m.act (F.HAL_AX_MODE_MODE a) = 0 → s.m.act (F.HAL_AX_MODE_REEFEN a) = 0 →
            (x.v ≠ 0 ∨ x.moved = 0) →
            let goal : Int := if sext 32 (s.m.act (F.HAL_AX_VT_VT a)) < 0 then -(s.m.halVE a : Int) else s.m.halVE a
            let jerk : Jerk := if a = 0 then j0 else j1
            y.p = x.p + y.v ∧
              (y.v, y.a) = toSpeed x.v (nextAcc x.v x.a (jerk.value (s.m.halJ a)) (s.m.halA a) (s.m.halD a)) goal))))

/-- Steps, encoders and the drive's fault input: a step moves C by one and DIR shows its direction; a line that p crosses goes to
the head's TPG and the next line falls due; counts, the index latch and an illegal transition, once their levels have passed the
filter; MFLT stops the axis with CAUSE 5, and is a fault only with an encoder while Shroud is armed (R585-R587, R604, R620, R622,
R628). -/
def Obligations.StepsAndEncoders : Prop :=
  ∀ (a : Fin 2) (s : State), s.m.live = true →
    let x := s.m.axis a
    let others (t : State) : Prop := ∀ b, b ≠ a → t.m.axis b = s.m.axis b
    let flt (n : Nat) : Prop := n = F.HAL_AX_FLT_reg a
    let passes (n : Nat) : Prop := s.m.act (F.HAL_AX_EFLT_EFLT a) ≤ n
    let auxRests : Prop := ∀ c : Fin 2, (s.m.seq c).loop = none ∧ (s.m.seq c).steer = []
    (x.due = [] → exec (.stepPulse a) s = .next { s with m := s.m.auxUpTo }) ∧
    (∀ b fwd rest, x.due = (b, fwd) :: rest → x.posev = none → Does (.stepPulse a) s (fun t =>
      (t.m.axis a).c = x.c + (if fwd then 1 else -1) ∧ (t.m.axis a).due = rest ∧ (t.m.axis a).dirFwd = some fwd ∧
      (t.m.axis a).lastRise.isSome = true ∧ others t ∧ Keeps s t ∧
      (t.m.out.dir.getLsbD a = if x.dirFwd = some fwd then s.m.out.dir.getLsbD a
        else decide ((s.m.get (F.HAL_AX_CTL_DIR a) = 1) = (fwd = true))) ∧
      (auxRests → t = { s with m := { s.m with sysTime := t.m.sysTime, wraps := t.m.wraps,
                                               out := { s.m.out with dir := t.m.out.dir },
                                               aux := { s.m.aux with blank := t.m.aux.blank }, axes := t.m.axes } }))) ∧
    (∀ h : Fin 6, s.m.get (F.HAL_HEAD_EN h) = 0 → exec (.halLineTrigger h) s = .next s) ∧
    (∀ (h : Fin 6) (q : Int) (g : PosSeg), s.m.get (F.HAL_HEAD_EN h) = 1 → s.m.axisOf h = a → x.schedOn = true →
      s.m.get F.BWL_CTL_EN = 0 → x.lineAt (s.m.halPh h) x.next[h] = some q →
      x.segs.find? (fun g => decide (g.p0 < q * 2 ^ 44) && decide (q * 2 ^ 44 ≤ g.p1)) = some g →
      Does (.halLineTrigger h) s (fun t => t.m.axis a = { x with next := x.next.set h (x.next[h] + 1) } ∧ others t ∧
        OtherHeads h s t ∧ Keeps s t ∧
        (s.m.trigSrc h = 0 → s.m.accepts h = true → (s.m.head h).tpg.lastTrig = none → (s.m.head h).tpg.await = none →
          (s.m.head h).tpg.held = none → (s.m.head h).tpg.active = none →
          (t.m.head h).tpg.await = some { sync := nextGrid 16 t.m.now, pos := q }))) ∧
    (∀ (q : Quad) (n : Nat), ¬ passes n → exec (.encoderCount a ⟨q, n⟩) s = .next s ∧ exec (.encoderIndex ⟨a, n⟩) s = .next s) ∧
    (∀ (q : Quad) (n : Nat), passes n → q ≠ .illegal → Does (.encoderCount a ⟨q, n⟩) s (fun t =>
      t.m.get (F.HAL_AX_ENCCNT_N a) =
        wrapInt 32 (s.m.encCnt a + (if (q = .aLeads) = (s.m.get (F.HAL_AX_CTL_ENCINV a) = 0) then 1 else -1)) ∧
      (t.m.axis a) = { x with encTime := s.m.now } ∧ others t ∧ SameRegs (· = F.HAL_AX_ENCCNT_reg a) s t ∧ Keeps s t)) ∧
    (∀ n : Nat, passes n → Does (.encoderCount a ⟨.illegal, n⟩) s (fun t => (t.m.get (F.HAL_AX_FLT_FLAGS a)).testBit 2 = true ∧
      (s.m.get (F.HAL_AX_FLT_QCNT a) < 0xFFFF → t.m.get (F.HAL_AX_FLT_QCNT a) = s.m.get (F.HAL_AX_FLT_QCNT a) + 1) ∧
      (t.m.axis a) = { x with qerr := true } ∧ SameRegs flt s t ∧ Keeps s t)) ∧
    (∀ n : Nat, passes n → Does (.encoderIndex ⟨a, n⟩) s (fun t => t.m.get (F.HAL_AX_IDXCNT_N a) = s.m.get (F.HAL_AX_ENCCNT_N a) ∧
      Pulsed s t 6 (4 + a.val) ∧ SameRegs (fun n => n = F.HAL_AX_IDXCNT_reg a ∨ eventRegs 6 n) s t ∧ Keeps s t)) ∧
    Does (.mfltFault a) s (fun t =>
      let caught : Prop := s.m.get (F.HAL_AX_CTL_ENC a) = 1 ∧ s.m.armed = true
      t.m.get (F.HAL_AX_STAT_STATE a) = 6 ∧ (t.m.get (F.HAL_AX_FLT_FLAGS a)).testBit 3 = true ∧ Pulsed s t 6 (6 + a.val) ∧
      (t.m.axis a).v = 0 ∧ (t.m.axis a).due = [] ∧ SameCoreMem s t ∧ SameStores s t ∧
      (¬ caught → t.m.get (F.HAL_AX_STAT_CAUSE a) = 5 ∧ others t ∧ t.m.get F.SHR_STATUS_HELD = s.m.get F.SHR_STATUS_HELD ∧
        SameRegs (fun n => flt n ∨ n = F.HAL_AX_STAT_reg a ∨ eventRegs 6 n) s t) ∧
      (caught → t.m.get F.SHR_STATUS_HELD = 1))

/-- What firmware writes to Halyard and Reef: STOPNOW, HOLD, EN, MEN and DIR, POSSET, the head assignment, and CLRCNT (R138,
R587, R595, R601, R631-R633, R635, R651); `y` is the axis once the write has released the keepers of its pins. -/
def Obligations.AxisCommands : Prop :=
  ∀ (a : Fin 2) (s : State), s.m.live = true →
    let x := s.m.axis a
    let y := (s.m.ctlTouch a).axis a
    let state := s.m.get (F.HAL_AX_STAT_STATE a)
    let ctl (n : Nat) : Prop := n = F.HAL_AX_CTL_reg a
    let stat (n : Nat) : Prop := n = F.HAL_AX_STAT_reg a
    let on := s.m.get (F.HAL_AX_CTL_EN a) = 1
    let pins (t : State) : Prop := t.m.out = (s.m.ctlTouch a).out
    (x.moving = false → Does (.halStopnow a) s (fun t => SameRegs (fun _ => False) s t ∧
      t = { s with m := { s.m.regsFrom t.m with out := t.m.out, axes := t.m.axes } } ∧ t.m.axis a = y ∧ pins t)) ∧
    (x.moving = true → Does (.halStopnow a) s (fun t => t.m.get (F.HAL_AX_STAT_STATE a) = 6 ∧
      t.m.get (F.HAL_AX_STAT_CAUSE a) = 4 ∧ (t.m.axis a).v = 0 ∧ (t.m.axis a).a = 0 ∧ (t.m.axis a).due = [] ∧
      (t.m.axis a).next = x.next ∧ Pulsed s t 6 9 ∧ SameRegs (fun n => stat n ∨ eventRegs 6 n) s t ∧ pins t ∧ Keeps s t)) ∧
    ((state = 1 ∨ state = 4 ∨ state = 5) → Does (.halHold a true) s (fun t => t.m.get (F.HAL_AX_CTL_HOLD a) = 1 ∧
      t.m.get (F.HAL_AX_STAT_STATE a) = 2 ∧ t.m.axis a = { y with why := 2 } ∧ SameRegs (fun n => ctl n ∨ stat n) s t ∧
      pins t ∧ Keeps s t)) ∧
    (∀ hold : Bool, (hold = false ∨ ¬ (state = 1 ∨ state = 4 ∨ state = 5)) → Does (.halHold a hold) s (fun t =>
      t.m.get (F.HAL_AX_CTL_HOLD a) = b2n hold ∧ t.m.axis a = y ∧ SameRegs ctl s t ∧ pins t ∧ Keeps s t)) ∧
    (¬ on → s.m.mirrored = false →
      (x.needPlan = false → s.m.get F.SHR_STATUS_SAFE = 0 → Does (.halEn a true) s (fun t =>
        t.m.get (F.HAL_AX_CTL_EN a) = 1 ∧ t.m.axis a = { y with starting := true } ∧ SameRegs ctl s t ∧ pins t ∧ Keeps s t)) ∧
      ((x.needPlan = true ∨ s.m.get F.SHR_STATUS_SAFE = 1) → Does (.halEn a true) s (fun t =>
        t.m.get (F.HAL_AX_CTL_EN a) = 1 ∧ t.m.axis a = y ∧ SameRegs ctl s t ∧ pins t ∧ Keeps s t))) ∧
    (on → s.m.mirrored = false → state ≠ 6 →
      (x.moving = true → x.offAfter = false → Does (.halEn a false) s (fun t => t.m.get (F.HAL_AX_CTL_EN a) = 0 ∧
        t.m.get (F.HAL_AX_STAT_STATE a) = 2 ∧ t.m.axis a = { y with why := 3, offAfter := true, starting := false } ∧
        SameRegs (fun n => ctl n ∨ stat n) s t ∧ pins t ∧ Keeps s t)) ∧
      (x.offAfter = true → Does (.halEn a false) s (fun t => t.m.get (F.HAL_AX_CTL_EN a) = 0 ∧
        t.m.axis a = { y with starting := false } ∧ SameRegs ctl s t ∧ pins t ∧ Keeps s t)) ∧
      (x.moving = false → x.offAfter = false → state ≠ 0 → Does (.halEn a false) s (fun t => t.m.get (F.HAL_AX_CTL_EN a) = 0 ∧
        t.m.get (F.HAL_AX_STAT_STATE a) = 0 ∧ t.m.get (F.HAL_AX_STAT_CAUSE a) = 3 ∧
        t.m.axis a = { y with starting := false, dwell := none } ∧
        SameRegs (fun n => ctl n ∨ stat n) s t ∧ pins t ∧ Keeps s t))) ∧
    (∀ men dir : Bool, Does (.halMenDirWrite a men dir) s (fun t => t.m.get (F.HAL_AX_CTL_MEN a) = b2n men ∧
      t.m.get (F.HAL_AX_CTL_DIR a) = b2n dir ∧ SameRegs ctl s t ∧
      t = { s with m := { s.m.regsFrom t.m with out := t.m.out, axes := t.m.axes } } ∧
      (s.m.get F.SHR_STATUS_SAFE = 1 → t.m.out = s.m.out ∧ t.m.axes = s.m.axes) ∧
      (s.m.get F.SHR_STATUS_SAFE = 0 → t.m.out.men.getLsbD a = men ∧ t.m.out.keepMen.getLsbD a = false ∧
        t.m.out.keepDir.getLsbD a = false ∧ t.m.out.dir.getLsbD a = decide (s.m.dirLevel a dir = 1) ∧
        t.m.axis a = { x with dirFwd := y.dirFwd } ∧
        (∀ b : Fin 2, b ≠ a → t.m.axis b = s.m.axis b ∧ t.m.out.men.getLsbD b = s.m.out.men.getLsbD b ∧
          t.m.out.dir.getLsbD b = s.m.out.dir.getLsbD b)))) ∧
    (∀ v : Word,
      (state = 0 → x.posev = none → Does (.halPosset a v) s (fun t => (t.m.axis a).c = v.toInt ∧
        (t.m.axis a).p = v.toInt * 2 ^ 60 ∧ (t.m.axis a).v = 0 ∧ (t.m.axis a).due = [] ∧
        t = { s with m := { s.m.regsFrom t.m with axes := t.m.axes } } ∧ SameRegs (fun _ => False) s t ∧
        ∀ b, b ≠ a → t.m.axis b = s.m.axis b)) ∧
      (state ≠ 0 → Does (.halPosset a v) s (fun t => (t.m.get (F.HAL_AX_FLT_FLAGS a)).testBit 5 = true ∧ OnlyRegs s t ∧
        SameRegs (· = F.HAL_AX_FLT_reg a) s t))) ∧
    (∀ (h : Fin 6) (v : Word),
      (s.m.get (F.HAL_AX_CTL_EN 0) = 0 → s.m.get (F.HAL_AX_CTL_EN 1) = 0 →
        Does (.halHeadWrite h false v) s (fun t => t.m.get (F.HAL_HEAD_EN h) = b2n (v.getLsbD 31) ∧
          t.m.get (F.HAL_HEAD_AXIS h) = b2n (v.getLsbD 0) ∧ OnlyRegs s t ∧ SameRegs (· = F.HAL_HEAD_reg h) s t) ∧
        Does (.halHeadWrite h true v) s (fun t => t.m.get (F.HAL_PH_PH h) = v.toNat ∧ OnlyRegs s t ∧
          SameRegs (· = F.HAL_PH_reg h) s t)) ∧
      (∀ phase : Bool, s.m.get (F.HAL_AX_CTL_EN 0) = 1 → s.m.get (F.HAL_AX_CTL_EN 1) = 1 →
        Does (.halHeadWrite h phase v) s (fun t => (t.m.get (F.HAL_AX_FLT_FLAGS 0)).testBit 7 = true ∧ OnlyRegs s t ∧
          SameRegs (· = F.HAL_AX_FLT_reg 0) s t))) ∧
    Does .reefClrcnt s (fun t => t.m.get F.REEF_CNT_RAISES = 0 ∧ t.m.get F.REEF_CNT_LOWERS = 0 ∧ OnlyRegs s t ∧
      SameRegs (· = F.REEF_CNT_reg) s t)

/-! ## Band coding -/

/-- Codec contexts: KEYREQ asks for key pictures, EN checks the configuration and enters IDLE or CFGERR, RESTART and WP act on
decode contexts, and the rate window moves CODECREQ (R721, R729, R730, R732, R734, R735, R738, R739). `u` and `w` are the block
once the commits that are due have been applied, and for `w` the line store brought up to date.
Log entries 106 and 107. -/
def Obligations.CodecContexts : Prop :=
  ∀ (s : State), s.m.live = true →
    (∀ v : Word, Does (.bcKeyreq v) s (fun t => t.m.get F.BC_KEYREQ_REQ = s.m.get F.BC_KEYREQ_REQ ||| v.toNat % 65536 ∧
      (∀ c : Fin 16, t.m.bcCtx c = (if v.getLsbD c then { s.m.bcCtx c with why := (s.m.bcCtx c).why ||| 2 } else s.m.bcCtx c) ∧
        (v.getLsbD c = true → t.m.get (F.BC_CTX_STAT_KEYNEXT c) = 1) ∧
        (v.getLsbD c = false → t.m.reg (F.BC_CTX_STAT_reg c) = s.m.reg (F.BC_CTX_STAT_reg c))) ∧
      SameRegs (fun a => a = F.BC_KEYREQ_reg ∨ ∃ c : Fin 16, a = F.BC_CTX_STAT_reg c) s t ∧ Keeps s t)) ∧
    (∀ c : Fin 16,
      let u : State := { s with m := s.tick.m.bcCommits }
      let x := u.m.bcCtx c
      let regs (a : Nat) : Prop := a = F.BC_CTX_CTL_reg c ∨ a = F.BC_CTX_STAT_reg c
      let others (t : State) : Prop := ∀ d, d ≠ c → t.m.bcCtx d = u.m.bcCtx d
      (u.m.get (F.BC_CTX_CTL_EN c) = 0 → x.closing = false → Does (.bcCtxEn c true) s (fun t =>
        t.m.get (F.BC_CTX_CTL_EN c) = 1 ∧ (t.m.bcCtx c).n = 0 ∧ (t.m.bcCtx c).ref = none ∧
        t.m.get (F.BC_CTX_STAT_CFGERR c) = u.m.bcCheckCfg c ∧ others t ∧ Keeps s t ∧
        (u.m.bcDec c = false → t.m.get (F.BC_CTX_STAT_KEYNEXT c) = 1 ∧ (t.m.bcCtx c).why = x.why ||| 1) ∧
        (u.m.bcCheckCfg c = 0 → t.m.get (F.BC_CTX_STAT_STATE c) = 1 ∧ SameRegs regs u t) ∧
        (u.m.bcCheckCfg c ≠ 0 → t.m.get (F.BC_CTX_STAT_STATE c) = 4 ∧ (t.m.get F.BC_ERRPEND_PEND).testBit c = true ∧
          Pulsed u t 7 9))) ∧
      (u.m.get (F.BC_CTX_CTL_EN c) = 1 →
        (u.m.bcState c ≠ 4 → (u.m.bcBusy c = true ∨ u.m.bcStopped = true) → Does (.bcCtxEn c false) s (fun t =>
          t.m.get (F.BC_CTX_CTL_EN c) = 0 ∧ t.m.bcCtx c = { x with closing := true } ∧ others t ∧
          SameRegs (· = F.BC_CTX_CTL_reg c) u t ∧ Keeps s t)) ∧
        ((u.m.bcState c = 4 ∨ (u.m.bcBusy c = false ∧ u.m.bcStopped = false)) → Does (.bcCtxEn c false) s (fun t =>
          t.m.get (F.BC_CTX_CTL_EN c) = 0 ∧ t.m.get (F.BC_CTX_STAT_STATE c) = 0 ∧ others t ∧ SameCoreMem s t ∧ SameStores s t))) ∧
      ((s.m.bcDec c = false ∨ s.m.get (F.BC_CTX_CTL_EN c) = 0) → exec (.bcCtxRestart c) s = .next s.tick) ∧
      (s.m.bcDec c = false → ∀ v, exec (.bcCtxWpWrite c v) s = .next s.tick) ∧
      (s.m.bcDec c = true → ∀ v : Word, Does (.bcCtxWpWrite c v) s (fun t => t.m.get (F.BC_CTX_WP_WP c) = v.toNat ∧
        t.m.get (F.BC_CTX_STAT_WAITIN c) = 0 ∧ OnlyRegs s t ∧
        SameRegs (fun a => a = F.BC_CTX_WP_reg c ∨ a = F.BC_CTX_STAT_reg c) s t)) ∧
      (s.m.bcDec c = true → s.m.get (F.BC_CTX_CTL_EN c) = 1 → Does (.bcCtxRestart c) s (fun t =>
        t.m.bcCtx c = { s.m.bcCtx c with wantStream := true, wantPic := false } ∧
        (∀ d, d ≠ c → t.m.bcCtx d = s.m.bcCtx d) ∧ Keeps s t ∧
        t.m.get (F.BC_CTX_STAT_STATE c) = (if s.m.get (F.BC_CTX_STAT_STATE c) = 3 then 1 else s.m.get (F.BC_CTX_STAT_STATE c)) ∧
        SameRegs (· = F.BC_CTX_STAT_reg c) s t))) ∧
    (let w : State := { s with m := s.m.catchUp.bcCommits }
     (w.m.bc.encFrom = none → exec .bcCheckTimer s = .next w) ∧
     (w.m.bc.encFrom.isSome = true → Does .bcCheckTimer s (fun t =>
       t.m.bc = { w.m.bc with checkNext := w.m.bc.checkNext || !w.m.bc.extraDone } ∧
       t = { w with m := { w.m with sysTime := t.m.sysTime, wraps := t.m.wraps, bc := t.m.bc } })) ∧
     (w.m.bcStopped = true → exec .bcCapWindow s = .next w) ∧
     (w.m.bcStopped = false →
       let r := w.m.get F.BC_CAP_CODECREQ
       let stop := (w.m.runTo (w.m.bc.capFrom + 3072000)).now
       let ends (t : State) : Prop := t.m.now = stop ∧ t.m.bc.capFrom = stop ∧ t.m.bc.capHi = false ∧ t.m.bc.capBusy = false ∧
         t = { w with m := { w.m with regs := t.m.regs, sysTime := t.m.sysTime, wraps := t.m.wraps, bc := t.m.bc } } ∧
         SameRegs (· = F.BC_CAP_reg) w t
       let falls : Prop := w.m.bc.capBusy = false ∧ w.m.bc.capRise + 192000000 ≤ stop
       (w.m.bc.capHi = true → Does .bcCapWindow s (fun t => t.m.get F.BC_CAP_CODECREQ = min 15 (r + 1) ∧ ends t)) ∧
       (w.m.bc.capHi = false → (∀ c, w.m.backlog c = 0) →
         (falls → Does .bcCapWindow s (fun t => t.m.get F.BC_CAP_CODECREQ = r - 1 ∧ ends t)) ∧
         (¬ falls → Does .bcCapWindow s (fun t => t.m.get F.BC_CAP_CODECREQ = r ∧ ends t)))))

/-- Pictures: the encode engine takes the context that qualifies, codes its rows and finishes with BC_PIC, or waits for room in
the output ring; the decode engine takes a context, finishes a picture, stops on an error of mode S, or waits for input; the
self-check counts, and a failed one is a fault when Shroud is armed (R722, R723, R730-R733, R735-R737, R742, R744). `u` is the block
with its line store brought up to date and the commits that are due applied, and `v` that with the checks of earlier pictures
done. Log entries 51, 52 and 106. -/
def Obligations.Pictures : Prop :=
  ∀ (s : State), s.m.live = true →
    let u : State := { s with m := s.m.catchUp.bcCommits }
    let done (c : Fin 16) (h picno : Nat) (t : State) : Prop := (t.m.get F.BC_PICPEND_PEND).testBit c = true ∧ Pulsed u t 7 7 ∧
      t.m.get (F.BC_CTX_H_H c) = h % 2 ^ 32 ∧ t.m.get (F.BC_CTX_PIC_PICNO c) = picno % 2 ^ 16
    let keeps (t : State) : Prop := SameCoreMem u t ∧ SameStores u t
    (u.m.bc.enc.isSome = true → exec .bcEncodePictureStart s = .next u) ∧
    (u.m.bc.dec.isSome = true → exec .bcDecodePictureStart s = .next u) ∧
    (∀ c : Fin 16, u.m.get F.CLK_GATE_BC_EN = 1 → u.m.bc.enc = none → (∀ d, (u.m.bcCtx d).units = []) → u.m.encNext = some c →
      Does .bcEncodePictureStart s (fun t => keeps t ∧ t.m.get F.BC_STAT_ENCBUSY = 1 ∧ t.m.get F.BC_STAT_ENCCTX = c.val ∧
        t.m.get (F.BC_CTX_STAT_STATE c) = 2 ∧ t.m.get (F.BC_CTX_STAT_KEYNEXT c) = 0 ∧
        (t.m.get F.BC_KEYREQ_REQ).testBit c = false ∧ t.m.bc.dec = u.m.bc.dec ∧
        ∃ p, t.m.bc.enc = some p ∧ p.ctx = c.val ∧ p.set = u.m.actSet ∧ p.coded = none ∧
          ((u.m.bcCtx c).why ≠ 0 → p.key = true) ∧ t.m.get (F.BC_CTX_PROG_LINE c) = p.first % 2 ^ 32)) ∧
    (∀ c : Fin 16, u.m.get F.CLK_GATE_BC_EN = 1 → u.m.bc.dec = none →
      (ctxOrder u.m.bc.decLast).find? (fun d => u.m.bcEn d && u.m.bcDec d && decide (u.m.bcState d = 1) &&
        (match nextUnit (u.m.inputBytes d) with | some n => n.whole | none => false)) = some c →
      Does .bcDecodePictureStart s (fun t => t.m.get F.BC_STAT_DECBUSY = 1 ∧ t.m.get F.BC_STAT_DECCTX = c.val ∧
        t.m.get (F.BC_CTX_STAT_STATE c) = 2 ∧ t.m.bc = { u.m.bc with dec := some c.val, decLast := some c.val } ∧ Keeps u t ∧
        SameRegs (fun a => a = F.BC_STAT_reg ∨ a = F.BC_CTX_STAT_reg c ∨ a = F.BC_SWCNT_reg) u t)) ∧
    (∀ (c : Fin 16) (p : BcPic), p.ctx = c.val →
      let fin (x : BcCtx) (h : Nat) (t : State) : Prop := done c h p.picno t ∧ t.m.get F.BC_STAT_ENCBUSY = 0 ∧
        t.m.get (F.BC_CTX_PIC_TYPE c) = b2n (!p.key) ∧ (x.closing = false → t.m.get (F.BC_CTX_STAT_STATE c) = 1) ∧
        (x.closing = true → u.m.get (F.BC_CTX_CTL_EN c) = 0 → t.m.get (F.BC_CTX_STAT_STATE c) = 0)
      (∀ (pg : HeadPage) (h : Nat) (rows : List (List Bool)) (l : List (List Byte × Picture)) (rate : RateSt),
        let v : State := { u with m := u.m.checkAll }
        let x := v.m.bcCtx c
        let ref := x.ref.getD (0, 1)
        let lvl := if v.m.is F.BWL_CTL_EN && decide (v.m.get F.BWL_CTL_ROLE = 0) && decide (v.m.get F.BWL_STAT_STATE = 4)
          then v.m.bwl.level else v.m.get F.REEF_STAT_LEVEL
        v.m.bc.enc = some p → p.coded = none →
        (v.m.ring (headFin p.head)).pages.find? (fun q => decide (q.pageno = p.pageno)) = some pg →
        pg.picLines p.y0 (setGet p.set (F.BC_CTX_RATE_BAND c)) = some h → h ≠ 0 → pg.closed = true → rows.length = ceilDiv h 16 →
        codeRows p.set c p.key lvl (bcPar p.set c p.w) (v.m.areaSample p.set c (bcPar p.set c p.w) ref.1 ref.2) 0
          { b := p.bytes, last := x.q, fallback := false } rows = some (l, rate) →
        Does (.bcPictureDone (some rows)) s (fun t => keeps t ∧ t.m.get (F.BC_CTX_PROG_LINE c) = (p.first + h) % 2 ^ 32 ∧
          t.m.bc.checkNext = false ∧ t.m.bc.dec = v.m.bc.dec ∧ (x.closing = false → (t.m.bcCtx c).q = rate.last) ∧
          (rate.fallback = true → t.m.get (F.BC_CTX_STAT_CAPOVR c) = 1) ∧ (t.m.bc.enc = none → fin x h t) ∧
          (∀ q, t.m.bc.enc = some q → q.ctx = c.val ∧ q.coded.isSome = true))) ∧
      (u.m.bc.enc = some p → u.m.get (F.BC_CTX_STAT_OSTALL c) = 0 → exec .bcOutputResume s = .next u) ∧
      (∀ (h : Nat) (lastp abort : Bool) (o : BcOut), u.m.bc.enc = some p → u.m.get (F.BC_CTX_STAT_OSTALL c) = 1 →
        p.coded = some (h, lastp, abort) →
        p.out = [o] → (u.m.bcCtx c).units = [] → max 4096 o.bytes.length ≤ setGet p.set (F.BC_CTX_IOSIZE_SIZE c) →
        Does .bcOutputResume s (fun t => keeps t ∧ t.m.bc.enc = none ∧ t.m.get (F.BC_CTX_STAT_OSTALL c) = 0 ∧ fin (u.m.bcCtx c) h t ∧
          t.m.get (F.BC_CTX_PIC_LASTP c) = b2n lastp ∧ t.m.get (F.BC_CTX_PIC_ABORT c) = b2n abort))) ∧
    (∀ c : Fin 16, u.m.bc.dec = some c.val →
      let bytes := u.m.inputBytes c
      let run := decLoop u.m c (decide (u.m.act (F.BC_CTX_CFG_DMODE c) = 1)) (bytes.length + 1) bytes
        { used := 0, cx := u.m.bcCtx c, errs := [], pic := none, rows := [], conc := [], bytes := 0, save := none, stop := false,
          fin := none }
      (bytes = [] → Does (.bcPictureDone none) s (fun t => t.m.get (F.BC_CTX_STAT_WAITIN c) = 1 ∧ t.m.bc = u.m.bc ∧ OnlyRegs u t ∧
        SameRegs (fun a => a = F.BC_CTX_STAT_reg c ∨ a = F.BC_CTX_RP_reg c) u t)) ∧
      (run.cx.closing = false →
        (∀ e h q, run.fin = some e → run.pic = some h → run.cx.seq = some q → u.m.act (F.BC_CTX_CMP_CMPEN c) = 0 →
          Does (.bcPictureDone none) s (fun t => keeps t ∧ done c e.h h.picno t ∧ t.m.bc.dec = none ∧
            t.m.get F.BC_STAT_DECBUSY = 0 ∧ t.m.get (F.BC_CTX_STAT_STATE c) = 1 ∧ t.m.get (F.BC_CTX_STAT_WAITIN c) = 0 ∧
            t.m.bc.enc = u.m.bc.enc)) ∧
        (run.fin = none → run.stop = true → Does (.bcPictureDone none) s (fun t => Keeps u t ∧ t.m.bc.dec = none ∧
          t.m.get F.BC_STAT_DECBUSY = 0 ∧ t.m.get (F.BC_CTX_STAT_STATE c) = 3 ∧ (t.m.bcCtx c).ref = none ∧
          t.m.bc.enc = u.m.bc.enc)))) ∧
    (u.m.bc.checks = [] → exec .bcSelfCheck s = .next u) ∧
    (∀ k rest, u.m.bc.checks = k :: rest → Does .bcSelfCheck s (fun t => keeps t ∧ t.m.bc.checks = rest ∧ Pulsed u t 7 10 ∧
      t.m.get F.BC_CHKCNT_N = (u.m.get F.BC_CHKCNT_N + 1) % 2 ^ 32 ∧ t.m.get F.BC_CHK_CTX = k.ctx % 16 ∧
      t.m.get F.BC_CHK_ROW = k.row % 2 ^ 16 ∧ (u.m.selfCheck.1.isSome = true → t.m.get F.BC_CHK_CHKFAIL = 1) ∧
      t.m.get F.SHR_STATUS_HELD = (if u.m.selfCheck.1.isSome && u.m.armed then 1 else u.m.get F.SHR_STATUS_HELD)))

/-! ## Stream lanes -/

/-- What firmware writes to the lanes: EN and RETRAIN, the error count, the manual bit slip and the test features (R763, R764,
R774, R790, R792, R794, R798). -/
def Obligations.LaneCommands : Prop :=
  ∀ (s : State), s.m.live = true →
    let state := s.m.get F.LN_STAT_STATE
    let on := s.m.get F.LN_CTL_EN = 1
    (s.m.anyTest = false → ¬ on → Does (.lnEn true) s (fun t => t.m.get F.LN_CTL_EN = 1 ∧ t.m.get F.LN_STAT_STATE = 1 ∧
      t.m.ln.ceil = 3 ∧ t.m.ln.fresh = true ∧ t.m.ln.attempt = none ∧ (state ≠ 1 → Pulsed s t 7 11) ∧ Keeps s t)) ∧
    (s.m.anyTest = false → on → state ≠ 7 → Does (.lnEn false) s (fun t => t.m.get F.LN_CTL_EN = 0 ∧
      t.m.get F.LN_STAT_STATE = 0 ∧ t.m.get F.LN_STAT_WIDTH = 0 ∧ (∀ l : Fin 4, t.m.get (F.LNL_STAT_INLINK l) = 0) ∧ Keeps s t)) ∧
    (s.m.anyTest = false → on → state = 7 → Does (.lnEn false) s (fun t => t.m.get F.LN_CTL_EN = 0 ∧
      t.m.get F.LN_STAT_STATE = 0 ∧ t.m.get F.LN_STAT_WIDTH = 0 ∧ (∀ l : Fin 4, t.m.get (F.LNL_STAT_INLINK l) = 0) ∧
      Pulsed s t 7 11 ∧ SameStores s t)) ∧
    (¬ on → exec .lnRetrain s = .next s.tick ∧ exec (.lnEn false) s = .next s.tick) ∧ (on → exec (.lnEn true) s = .next s.tick) ∧
    (on → state ≠ 7 → state ≠ 8 → Does .lnRetrain s (fun t => t.m.get F.LN_STAT_STATE = 1 ∧ t.m.get F.LN_CTL_RETRAIN = 0 ∧
      t.m.ln.ceil = 3 ∧ t.m.ln.fresh = true ∧ t.m.ln.entered = s.tick.m.now ∧ Keeps s t)) ∧
    (∀ l : Fin 4,
      Does (.lnClrerr l) s (fun t => t.m.get (F.LNL_ERR_N l) = 0 ∧ OnlyRegs s t ∧ SameRegs (· = F.LNL_ERR_reg l) s t) ∧
      (s.m.get (F.LNL_CTL_LOCKMODE l) = 1 → s.m.lnRate ≠ 0 → Does (.lnBslip l) s (fun t =>
        t.m.lane l = { s.m.lane l with slip := ((s.m.lane l).slip + 1) % 66 } ∧ (∀ k, k ≠ l → t.m.lane k = s.m.lane k) ∧
        t = { s with m := { s.m.regsFrom t.m with ln := { s.m.ln with lane := t.m.ln.lane } } } ∧ SameRegs (fun _ => False) s t)) ∧
      (s.m.get (F.LNL_CTL_LOCKMODE l) = 0 ∨ s.m.lnRate = 0 → exec (.lnBslip l) s = .next s.tick) ∧
      (∀ v : Word, Does (.lnTestWrite l v) s (fun t => t.m.get (F.LNL_CTL_PRBSGEN l) = bits v.toNat 5 4 ∧
        t.m.get (F.LNL_CTL_PRBSCHK l) = bits v.toNat 7 6 ∧ t.m.get (F.LNL_CTL_LOOP l) = bits v.toNat 10 9 ∧ SameStores s t ∧
        (∀ k : Fin 4, k ≠ l → t.m.reg (F.LNL_CTL_reg k) = s.m.reg (F.LNL_CTL_reg k)) ∧
        (bits v.toNat 10 9 = 3 → s.m.testRate = 0 → t.m.get (F.LNL_STAT_LOOPREF l) = 1) ∧
        (state ≠ 7 → Keeps s t) ∧
        (s.m.anyTest = false → bits v.toNat 5 4 = 1 → state ≠ 7 → t.m.get F.LN_STAT_STATE = 8)) ∧
        (state = 7 → s.m.anyTest = false → bits v.toNat 5 4 = 1 → Does (.lnTestWrite l v) s (fun t =>
          t.m.get F.LN_STAT_STATE = 8 ∧ t.m.get F.LN_STAT_LOSS = 1 ∧ t.m.get F.LN_STAT_WIDTH = 0))))

/-- Training: an attempt begins with ALIGN, sets whose words carry no error carry the states on, a timeout goes back to DETECT or
falls back by one rate, and the lane PLL moves SWITCH to LOCK (R773-R776, R778, R781, R782, R784). Log entry 46. -/
def Obligations.Training : Prop :=
  ∀ (s : State), s.m.live = true → s.m.lnUp = true → s.m.anyTest = false → s.m.get F.LN_CTL_EN = 1 →
    let x := s.m.ln
    let state := s.m.get F.LN_STAT_STATE
    let goes (n : Nat) (t : State) : Prop := t.m.get F.LN_STAT_STATE = n ∧ Pulsed s t 7 11 ∧ t.m.ln.entered = t.m.now ∧ Keeps s t
    let aligns (t : State) : Prop := goes 2 t ∧ t.m.get F.LN_STAT_RATE = 0 ∧ t.m.ln.attempt = some t.m.now ∧ t.m.ln.fresh = false ∧
      ∀ l : Fin 4, t.m.get (F.LNL_TXEQ_PRE l) = 0 ∧ t.m.get (F.LNL_TXEQ_POST l) = 0
    ((x.field F.LN_CTL_INIT = 1 ∨ s.m.attemptAt = none) → exec .linkAttempt s = .next s) ∧
    (x.field F.LN_CTL_INIT = 0 → s.m.attemptAt.isSome = true → Does .linkAttempt s aligns) ∧
    ((state = 2 ∨ state = 3) → Does .trainingTimeout s (fun t => goes 1 t)) ∧
    ((state = 5 ∨ state = 6) → Does .trainingTimeout s (fun t => goes 2 t ∧
      t.m.ln.ceil = x.rate - 1 ∧ t.m.ln.rate = 0 ∧ t.m.ln.fellBack = true)) ∧
    ((state = 0 ∨ state = 1 ∨ state = 4 ∨ state = 7) → exec .trainingTimeout s = .next s) ∧
    (x.ref = true → state = 4 → Does .lanePllLock s (fun t => goes 5 t ∧ t.m.ln.pllLock = true ∧
      (x.eqTable = false → ∀ l : Fin 4, t.m.get (F.LNL_TXEQ_PRE l) = 0 ∧ t.m.get (F.LNL_TXEQ_POST l) = 6 ∧
        t.m.get (F.LNL_TXEQ_MAIN l) = 58))) ∧
    (x.ref = true → state ≠ 4 → exec .lanePllLock s = .next { s with m := { s.m with ln := { x with pllLock := true } } }) ∧
    (x.ref = false → exec .lanePllLock s = .next s) ∧
    (∀ (l : Fin 4) (code : LineCode) (words : List LineWord) (skew : Nat),
      let r := s.m.laneWords l code words
      let set : Option TsFields := if r.2 = 0 then parseTs (tsBytes r.1) else none
      let counted (t : State) : Prop := t = { s with m := { s.m.regsFrom t.m with ln := t.m.ln } } ∧
        (∀ k, k ≠ l → t.m.lane k = s.m.lane k) ∧ SameRegs (fun a => 0 < r.2 ∧ (a = F.LNL_STAT_reg l ∨ a = F.LNL_ERR_reg l)) s t
      (set = none → Does (.trainingSetReceived l code words skew) s (fun t => counted t ∧
        t.m.lane l = { s.m.lane l with run := 0 } ∧ (l = 0 → t.m.ln.peerRun = 0 ∧ t.m.ln.ackRun = 0) ∧
        (0 < r.2 → t.m.get (F.LNL_STAT_HDRERR l) = 1))) ∧
      (∀ f, set = some f →
        (state = 1 → l = 0 → x.field F.LN_CTL_INIT = 1 → s.m.attemptAt.isSome = true →
          Does (.trainingSetReceived l code words skew) s aligns) ∧
        (state = 2 → (l ≠ 0 ∨ (s.m.lane l).run < 7) → Does (.trainingSetReceived l code words skew) s (fun t => counted t ∧
          t.m.lane l = { s.m.lane l with run := (s.m.lane l).run + 1 })) ∧
        (state = 2 → l = 0 → 7 ≤ (s.m.lane l).run → Does (.trainingSetReceived l code words skew) s (fun t => goes 3 t)) ∧
        (∀ t0, state = 3 → l = 0 → x.ackFrom = some t0 → s.m.lnAligned = x.mask → f.state = 3 → (f.maxRate, f.mask) = x.peer →
          7 ≤ x.peerRun → 7 ≤ x.ackRun → f.ack = true → f.rate = min x.maxRate f.maxRate →
          f.width = widthOf (s.m.lnAligned &&& f.mask) →
          Does (.trainingSetReceived l code words skew) s (fun t => goes (if f.rate = 0 then 7 else 4) t ∧ t.m.ln.rate = f.rate ∧
            t.m.ln.width = f.width ∧ t.m.get F.LN_STAT_RATE = f.rate % 4 ∧ t.m.now = (s.m.runTo (t0 + 12288)).now ∧
            (f.rate = 0 → t.m.get F.LN_STAT_WIDTH = f.width ∧ ∀ k : Fin 4, k.val < f.width → t.m.get (F.LNL_STAT_INLINK k) = 1))) ∧
        (state = 5 → skew ≤ 8 → s.m.locked = false → (s.m.get (F.LNL_STAT_BLOCK l) = 0) →
          Does (.trainingSetReceived l code words skew) s (fun t => t.m.get (F.LNL_SKEW_SKEW l) = skew ∧
            t.m.lane l = { s.m.lane l with run := (s.m.lane l).run + 1 } ∧ SameRegs (· = F.LNL_SKEW_reg l) s t ∧ Keeps s t)) ∧
        (state = 6 → l ≠ 0 → l.val < x.width → x.eqTable = false → f.reqTog ≠ (s.m.lane l).ackTog → 1 ≤ f.preset → f.preset ≤ 4 →
          Does (.trainingSetReceived l code words skew) s (fun t =>
            (t.m.get (F.LNL_TXEQ_PRE l), t.m.get (F.LNL_TXEQ_POST l)) = presetTaps f.preset ∧ (t.m.lane l).ackTog = f.reqTog ∧
            (t.m.lane l).preStat = 0 ∧ (t.m.lane l).postStat = 0 ∧ SameRegs (· = F.LNL_TXEQ_reg l) s t ∧ Keeps s t))))

/-- What the receivers report, and link loss: signal, CDR, block lock and its loss, PRBS lock and FOM show in the lane's
registers; whatever loses an ACTIVE link sets LOSS, counts, idles every lane for 10 us, goes back to DETECT, and suspends or closes
the session (R757, R762, R764, R769, R777, R779, R780, R787, R793, R795, R802, R837). Log entry 49. -/
def Obligations.LaneSignals : Prop :=
  ∀ (s : State), s.m.live = true → s.m.lnUp = true →
    let x := s.m.ln
    let state := s.m.get F.LN_STAT_STATE
    let sess := s.m.get F.ST_STAT_SESS
    let lost (t : State) : Prop := t.m.get F.LN_STAT_LOSS = 1 ∧ t.m.get F.LN_STAT_WIDTH = 0 ∧ t.m.get F.LN_STAT_STATE = 1 ∧
      (s.m.get F.LN_CNT_LOSSES < 0xFFFF → t.m.get F.LN_CNT_LOSSES = s.m.get F.LN_CNT_LOSSES + 1) ∧
      t.m.ln.idleTo = t.m.now + 30000 ∧ t.m.ln.ceil = 3 ∧ t.m.ln.fresh = true ∧ Pulsed s t 7 11 ∧ SameStores s t ∧
      (∀ l : Fin 4, t.m.get (F.LNL_STAT_INLINK l) = 0) ∧ (sess = 1 → t.m.get F.ST_STAT_SESS = 0) ∧
      (sess = 2 → s.m.get F.ST_CTL_RESUMEEN = 1 → t.m.get F.ST_STAT_SESS = 3) ∧
      (sess = 2 → s.m.get F.ST_CTL_RESUMEEN = 0 → t.m.get F.ST_STAT_SESS = 0 ∧ t.m.get F.ST_STAT_CLOSEWHY = 1)
    let onlyLn (t : State) : Prop := t = { s with m := { s.m with ln := t.m.ln } }
    (s.m.anyTest = false → s.m.get F.LN_CTL_EN = 1 → state = 7 →
      Does .lnRetrain s lost ∧
      (x.gone.isSome = true → Does (.linkLoss 0) s lost) ∧ (x.gone = none → exec (.linkLoss 0) s = .next s) ∧
      (1 < x.width → Does (.linkLoss 1) s lost) ∧
      Does (.linkLoss 2) s (fun t => lost t ∧ t.m.ln.pllLock = false) ∧
      Does .lrefclkLoss s (fun t => lost t ∧ t.m.ln.ref = false) ∧
      (∀ l : Fin 4, l.val < x.width → s.m.get (F.LNL_STAT_BLOCK l) = 1 → Does (.blockLoss l) s (fun t => lost t ∧
        t.m.get (F.LNL_STAT_HDRERR l) = 1)) ∧
      (∀ (code : LineCode) (words : List LineWord) (skew : Nat) (f : TsFields), (s.m.laneWords 0 code words).2 = 0 →
        parseTs (tsBytes (s.m.laneWords 0 code words).1) = some f → f.ack = false → (f.state = 2 ∨ f.state = 3) →
        Does (.trainingSetReceived 0 code words skew) s lost)) ∧
    (state ≠ 7 → ∀ why, exec (.linkLoss why) s = .next s) ∧
    ((state = 0 ∨ state = 1 ∨ state = 8) → Does .lrefclkLoss s (fun t => onlyLn t ∧
      t.m.ln = { x with ref := false, pllLock := false })) ∧
    (s.m.anyTest = false → s.m.get F.LN_CTL_EN = 1 → 2 ≤ state → state ≤ 6 → Does .lrefclkLoss s (fun t =>
      t.m.get F.LN_STAT_STATE = 1 ∧ t.m.ln.ref = false ∧ t.m.ln.pllLock = false ∧ Pulsed s t 7 11 ∧ Keeps s t)) ∧
    Does .lrefclkReturn s (fun t => onlyLn t ∧ t.m.ln = { x with ref := true, pllLock := true }) ∧
    (state = 7 → 1 < x.width → exec .laneMarker s =
      .next { s with m := { s.m.runTo (s.m.slotBeat (16384 * (x.lmcnt + 1))) with ln := { x with lmcnt := x.lmcnt + 1 } } }) ∧
    (state ≠ 7 ∨ x.width ≤ 1 → exec .laneMarker s = .next s) ∧
    (∀ (l : Fin 4) (on : Bool),
      let stat (a : Nat) : Prop := a = F.LNL_STAT_reg l ∨ eventRegs 7 a
      let chk := s.m.get (F.LNL_CTL_PRBSCHK l)
      Does (.signalDetect l on) s (fun t => t.m.get (F.LNL_STAT_SIGDET l) = b2n on ∧
        (∀ k, k < 4 → (t.m.get F.LN_STAT_SIGDET).testBit k = if k = l.val then on else (s.m.get F.LN_STAT_SIGDET).testBit k) ∧
        (s.m.get (F.LNL_STAT_SIGDET l) ≠ b2n on → Pulsed s t 7 11) ∧ SameRegs (fun a => stat a ∨ a = F.LN_STAT_reg) s t ∧ Keeps s t ∧
        (state = 7 → l.val < x.width → on = false → x.gone = none → t.m.ln.gone = some s.m.now)) ∧
      Does (.cdrLock l on) s (fun t => t.m.get (F.LNL_STAT_CDR l) = b2n on ∧ (on = false → t.m.get (F.LNL_FOM_FOM l) = 0) ∧
        (s.m.get (F.LNL_STAT_CDR l) ≠ b2n on → Pulsed s t 7 11) ∧ SameRegs (fun a => stat a ∨ a = F.LNL_FOM_reg l) s t ∧
        Keeps s t) ∧
      (s.m.get (F.LNL_STAT_CDR l) = 0 → exec (.blockLock l on) s = .next s ∧ ∀ n, exec (.fomRefresh l n) s = .next s) ∧
      (s.m.get (F.LNL_STAT_CDR l) = 1 →
        Does (.blockLock l on) s (fun t => t.m.get (F.LNL_STAT_BLOCK l) = 1 ∧
          (s.m.get (F.LNL_STAT_BLOCK l) = 0 → Pulsed s t 7 11) ∧ (on = true → state = 2 → t.m.get (F.LNL_STAT_RXINV l) = 1) ∧
          OnlyCores s t ∧ SameRegs stat s t) ∧
        (state ≠ 6 → ∀ n : Nat, Does (.fomRefresh l n) s (fun t => t.m.get (F.LNL_FOM_FOM l) = min 255 (4 * min 64 n) ∧ OnlyRegs s t ∧
          SameRegs (· = F.LNL_FOM_reg l) s t))) ∧
      (s.m.get (F.LNL_STAT_BLOCK l) = 0 → exec (.blockLoss l) s = .next s) ∧
      (s.m.get (F.LNL_STAT_BLOCK l) = 1 → state ≠ 7 → state ≠ 8 → s.m.get (F.LNL_ERR_N l) < 2 ^ 31 → Does (.blockLoss l) s (fun t =>
        t.m.get (F.LNL_STAT_BLOCK l) = 0 ∧ t.m.get (F.LNL_STAT_HDRERR l) = 1 ∧ Pulsed s t 7 11 ∧ OnlyCores s t ∧
        t.m.get (F.LNL_ERR_N l) = s.m.get (F.LNL_ERR_N l) + (if s.m.lnRate = 0 then 4 else 16) ∧
        SameRegs (fun a => stat a ∨ a = F.LNL_ERR_reg l) s t)) ∧
      ((chk = 0 ∨ chk = 3) → exec (.prbsLock l on) s = .next s) ∧
      ((chk = 1 ∨ chk = 2) → s.m.get (F.LNL_ERR_N l) < 2 ^ 31 → Does (.prbsLock l on) s (fun t =>
        t.m.get (F.LNL_STAT_PRBSLOCK l) = b2n on ∧
        t.m.get (F.LNL_ERR_N l) = s.m.get (F.LNL_ERR_N l) + (if on = false ∧ s.m.get (F.LNL_STAT_PRBSLOCK l) = 1 then 64 else 0) ∧
        OnlyRegs s t ∧ SameRegs (fun a => a = F.LNL_STAT_reg l ∨ a = F.LNL_ERR_reg l) s t)))

/-! ## Stream protocol -/

/-- What ST sends: an image frame, a ctl-class frame, a read request, the held frames of a round, an offer and a repeated fault
notice; each new frame takes the next SEQ, pays its cost and stays in the replay buffer (R808, R813, R814, R817, R819-R822, R826,
R829, R831, R832, R845). Log entry 105. -/
def Obligations.FramesSent : Prop :=
  ∀ (s : State), s.m.live = true →
    let x := s.m.st
    let tx (t : State) (f : Frame) : Prop := t.m.st.tx.head? = some f ∧ f.ack = s.m.ackSeq
    let new (ctl : Bool) (t : State) (f : Frame) : Prop := tx t f ∧ f.seq = x.txSeq ∧ t.m.st.txSeq = (x.txSeq + 1) % 65536 ∧
      t.m.st.held = x.held ++ [{ f := f, ctl := ctl, owe := false }] ∧ t.m.availOf ctl = s.m.availOf ctl - f.cost ∧
      t.m.availOf (!ctl) = s.m.availOf (!ctl)
    let u : State := { s with m := s.m.catchUp }
    let clean (m : Mach) (l : List Nat) : Prop := ∀ a ∈ l, m.clean a = true
    let at' (m : Mach) (l : List Nat) : List Byte := l.map m.byte
    (s.m.mayTx = false → exec .imgSend s = .next u ∧ exec .ctlSend s = .next s ∧ exec .rdreqSend s = .next s) ∧
    (s.m.mayTx = true →
      (∀ e, x.imgPick = some e → s.m.get F.ST_CTL_IMGRUN = 1 → s.m.ctlCan = false → s.m.sendable false e.nextLen = true →
        clean u.m (segAddrs e.segs e.pos e.nextLen) → Does .imgSend s (fun t => ∃ f, new false t f ∧ f.ty = 1 ∧
          f.flags = e.flags e.nextLen ∧ f.a = e.eseq ∧ f.b = e.pos ∧ f.payload = at' u.m (segAddrs e.segs e.pos e.nextLen) ∧
          t.m.st.rr = e.stream ∧ (e.body ≤ e.pos + e.nextLen → ∀ q ∈ t.m.st.queue, q.id ≠ e.id) ∧ Keeps u t)) ∧
      (∀ g rest, x.hcpl = g :: rest → s.m.sendable true g.payload.length = true → Does .ctlSend s (fun t => ∃ f, new true t f ∧
        f.ty = g.ty ∧ f.flags = g.flags ∧ f.a = g.a ∧ f.b = g.b ∧ f.payload = g.payload ∧ t.m.st.hcpl = rest ∧ Keeps s t)) ∧
      (∀ e, x.hcpl = [] → x.queue.find? (fun e => e.ctl) = some e → e.started = false → 16 ≤ e.len →
        s.m.sendable true e.nextLen = true → clean s.m (segAddrs e.segs 0 16) → clean s.m (segAddrs e.segs (16 + e.pos) e.nextLen) →
        let T := at' s.m (segAddrs e.segs 0 16)
        let ok : Prop := leNat (T.take 1) = 2 ∨ leNat (T.take 1) = 3
        Does .ctlSend s (fun t => ∃ f, new true t f ∧ (ok → f.ty = leNat (T.take 1)) ∧
          (¬ ok → f.ty = 2 ∧ t.m.get F.ST_STAT_TMPLERR = 1) ∧ f.a = leNat ((T.drop 8).take 4) ∧ f.b = leNat ((T.drop 12).take 3) ∧
          f.flags = e.flags e.nextLen ∧ f.payload = at' s.m (segAddrs e.segs (16 + e.pos) e.nextLen) ∧ Keeps s t)) ∧
      (∀ (k : Fin 64) rest, x.rdreq = k.val :: rest → s.m.sendable true 16 = true → Does .rdreqSend s (fun t => ∃ f, new true t f ∧
        f.ty = 4 ∧ f.flags = 0 ∧ f.a = k.val ∧ f.b = 0 ∧
        f.payload = leBytes 8 x.tags[k].host ++ leBytes 4 x.tags[k].len ++ leBytes 4 0 ∧ t.m.st.rdreq = rest ∧
        t.m.st.tags[k] = { x.tags[k] with sent := some s.m.now, time := 3000 * s.m.get F.ST_RDTO_T } ∧ Keeps s t))) ∧
    (s.m.sess = 2 → s.m.linkUp = true → x.held ≠ [] →
      (x.replay = true → (∀ h ∈ x.held, h.owe = false) → Does .replay s (fun t =>
        let again := x.held.map (fun h => { h with f := { h.f with ack := x.rxSeq } })
        t.m.st.held = again ∧ t.m.st.replay = false ∧ t.m.st.tx = ((again.map (·.f)).reverse ++ x.tx).take 16 ∧
        t.m.availOf true = s.m.availOf true ∧ t.m.availOf false = s.m.availOf false ∧ Keeps s t)) ∧
      (x.replay = false → let due := (s.m.runTo (x.ackAt + 3000 * s.m.get F.ST_RPLYT_T)).now
        (x.rounds < 4 → Does .replayTimeout s (fun t => t.m.st.replay = true ∧ t.m.st.rounds = x.rounds + 1 ∧
          t.m.now = due ∧ t.m.st.ackAt = due ∧ t.m.st.held = x.held ∧ Keeps s t ∧ (s.m.get F.ST_RPLCNT_ROUNDS < 0xFFFF →
            t.m.get F.ST_RPLCNT_ROUNDS = s.m.get F.ST_RPLCNT_ROUNDS + 1))) ∧
        (4 ≤ x.rounds → Does .replayTimeout s (fun t => t.m.get F.LN_STAT_LOSS = 1 ∧ t.m.get F.LN_STAT_STATE ≠ 7 ∧
          t.m.get F.ST_STAT_SESS = (if s.m.get F.ST_CTL_RESUMEEN = 1 then 3 else 0) ∧ SameStores s t)))) ∧
    (s.m.offering = false → exec .sessionOffer s = .next s) ∧
    (s.m.offering = true → Does .sessionOffer s (fun t =>
      (∃ f, tx t f ∧ f.ty = 0x38 ∧ f.payload.length = 16 ∧ f.payload.take 4 = leBytes 4 (s.m.reg F.SYS_ID_reg).toNat) ∧
      t.m.now = (match x.offerAt with | some t0 => (s.m.runTo (t0 + 300000)).now | none => s.m.now) ∧
      t.m.st.offerAt = some t.m.now ∧ t.m.sess = (if s.m.sess = 0 then 1 else s.m.sess) ∧ SameRegs (· = F.ST_STAT_reg) s t ∧
      Keeps s t)) ∧
    (x.noticeAt = none → exec .faultNoticeRepeat s = .next s) ∧
    (∀ t0, x.noticeAt = some t0 → s.m.get F.SHR_STATUS_HELD = 1 → s.m.sess = 2 → s.m.linkUp = true →
      Does .faultNoticeRepeat s (fun t => (∃ f, tx t f ∧ f.ty = 8 ∧ f.payload = s.m.noticeBytes) ∧ t.m.now = (s.m.runTo (t0 + 30000000)).now ∧
        t.m.st.noticeAt = some t.m.now ∧
        SameRegs (fun _ => False) s t ∧ Keeps s t))

/-- Sessions: OPEN opens, resumes or is rejected; CLOSE, EN = 0, the host's CLOSE and the end of the retry time close, which
empties the queue, the replay buffer and the tags; IMGRUN (R831-R838, R846, R847). -/
def Obligations.Sessions : Prop :=
  ∀ (s : State), s.m.live = true →
    let x := s.m.st
    let closes (why : Nat) (t : State) : Prop := t.m.sess = 0 ∧ t.m.get F.ST_STAT_CLOSEWHY = why ∧ t.m.get F.ST_SID_SID = 0 ∧
      t.m.st.held = [] ∧ t.m.st.queue = [] ∧ t.m.st.rdreq = [] ∧ (∀ i : Fin 64, t.m.st.tags[i].st = 0) ∧ Pulsed s t 7 13 ∧
      SameStores s t
    (s.m.hasSess = true → Does .stClose s (closes 3) ∧ Does (.stEn false) s (fun t => closes 4 t ∧ t.m.get F.ST_CTL_EN = 0)) ∧
    (s.m.hasSess = false → exec .stClose s = .next s.tick ∧ Does (.stEn false) s (fun t => t.m.get F.ST_CTL_EN = 0 ∧ t.m.sess = 0 ∧
      t.m.st = { x with offerAt := none } ∧ SameRegs (fun a => a = F.ST_CTL_reg ∨ a = F.ST_STAT_reg) s t ∧ Keeps s t)) ∧
    Does (.stEn true) s (fun t => t.m.get F.ST_CTL_EN = 1 ∧ OnlyRegs s t ∧ SameRegs (· = F.ST_CTL_reg) s t) ∧
    (∀ on : Bool, Does (.stImgrun on) s (fun t => t.m.get F.ST_CTL_IMGRUN = b2n on ∧
      SameRegs (fun a => a = F.ST_CTL_reg ∨ eventRegs 7 a) s t ∧ Keeps s t)) ∧
    (s.m.sess ≠ 3 → exec .sessionRetryExpire s = .next s) ∧
    (s.m.sess = 3 → Does .sessionRetryExpire s (fun t => closes 1 t ∧
      t.m.now = (s.m.runTo (x.suspendAt + 30000000 * s.m.retryOf)).now)) ∧
    (∀ (lines : RxLines) (raw : List Byte) (f : Frame) (pad : Bool), (s.m.carries lines raw = true) → parseFrame raw = .good f pad →
      f.broken pad = false →
      let sid := leNat (f.payload.take 4)
      let h (i : Nat) : Nat := leNat ((f.payload.drop i).take 2)
      let again := leNat ((f.payload.drop 14).take 1)
      let fits : Prop := sid ≠ 0 ∧ 1 ≤ h 4 ∧ h 4 ≤ 4096 ∧ 1 ≤ h 6 ∧ h 6 ≤ 4096 ∧ h 8 ≤ h 4 ∧ h 10 ≤ h 6
      let late : Prop := (x.suspendAt + 30000000 * s.m.retryOf) / 4 ≤ (s.m.rxLines lines).now / 4
      let sends (t : State) (ty b : Nat) : Prop := ∃ g ∈ t.m.st.tx, g.ty = ty ∧ g.a = sid ∧ g.b = b
      let rejects (t : State) (why : Nat) : Prop := ∃ g, t.m.st.tx.head? = some g ∧ g.ty = 0x3B ∧ g.a = sid ∧ g.b = why
      let opens (t : State) : Prop := t.m.sess = 2 ∧ t.m.get F.ST_SID_SID = sid ∧ t.m.get F.ST_ADV_IMG = h 4 ∧
        t.m.get F.ST_ADV_CTL = h 6 ∧ t.m.availOf false = h 8 ∧ t.m.availOf true = h 10 ∧ Pulsed s t 7 13 ∧ SameStores s t
      let regs (a : Nat) : Prop := eventRegs 7 a ∨ laneRegs a
      (f.ty = 0x39 → s.m.sess ≠ 2 → (s.m.sess = 3 → ¬ late) →
        (¬ fits → Does (.rxOpen lines) s (fun t => rejects t 2 ∧ SameRegs regs s t ∧ Keeps s t)) ∧
        (fits → again = 0 → Does (.rxOpen lines) s (fun t => opens t ∧ sends t 0x3A 0 ∧ t.m.st.txSeq = 0 ∧ t.m.st.rxSeq = 0 ∧
          (s.m.sess = 3 → t.m.get F.ST_STAT_CLOSEWHY = 5 ∧ t.m.st.held = []))) ∧
        (fits → again = 1 → s.m.sess = 3 → sid = s.m.get F.ST_SID_SID → Does (.rxOpen lines) s (fun t => opens t ∧ sends t 0x3A 1 ∧
          t.m.st.resumed = true ∧ t.m.st.txSeq = x.txSeq)) ∧
        (fits → again = 1 → (s.m.sess ≠ 3 ∨ sid ≠ s.m.get F.ST_SID_SID) → Does (.rxOpen lines) s (fun t => rejects t 1 ∧
          SameRegs regs s t ∧ Keeps s t))) ∧
      (f.ty = 0x39 → s.m.sess = 3 → late → fits → again = 1 → Does (.rxOpen lines) s (fun t => closes 1 t ∧ rejects t 1)) ∧
      (f.ty = 0x39 → s.m.sess = 2 → sid = s.m.get F.ST_SID_SID → s.m.takeAck f.ack = s.m → Does (.rxOpen lines) s (fun t =>
        (∃ g, t.m.st.tx.head? = some g ∧ g.ty = 0x3A ∧ g.a = sid ∧ g.b = b2n x.resumed) ∧ SameRegs regs s t ∧ Keeps s t)) ∧
      (f.ty = 0x3C → s.m.hasSess = true → f.a = s.m.get F.ST_SID_SID → Does (.rxClose lines) s (closes 2)) ∧
      (f.ty = 0x3C → s.m.sess ≠ 2 → f.a ≠ s.m.get F.ST_SID_SID → Does (.rxClose lines) s (fun t => SameRegs regs s t ∧ Keeps s t)))

/-- What ST receives: a bad frame is counted and answered with a NAK, a duplicate with an acknowledgement; a message, write or
read becomes a record in the ring, or RXDROP where it has no room; completions fill their destination; LINK and CREDIT act
(R804, R805, R809, R810, R813-R817, R828, R830, R841, R843). Log entries 38 and 105. -/
def Obligations.FramesReceived : Prop :=
  ∀ (s : State) (lines : RxLines) (raw : List Byte), s.m.live = true →
    let x := s.m.st
    let r := s.m.rxLines lines
    let w : State := { s with m := r.catchUp }
    let rows : List (Instr × Nat) := [(.rxOpen lines, 0x39), (.rxClose lines, 0x3C), (.rxMsg lines, 0x11), (.rxWr lines, 0x12),
      (.rxRd lines, 0x13), (.rxCpl lines, 0x14), (.rxLink lines, 0x30), (.rxCredit lines, 0x31)]
    let link (t : State) (nak : Nat) : Prop := ∃ g, t.m.st.tx.head? = some g ∧ g.ty = 0x30 ∧ g.a = nak
    let size := 20 + lenP (leNat ((raw.drop 2).take 2))
    (s.m.rxUp = false → ∀ i ∈ rows, exec i.1 s = .next s) ∧
    (r.rxUp = true → SameRegs laneRegs s { s with m := r } ∧ r.st = x ∧ r = { s.m.regsFrom r with ln := r.ln }) ∧
    (r.rxUp = true → r.ln.rxIn = [{ bytes := raw, ended := true }] → s.m.sess = 2 → x.nakAt = none →
      (parseFrame raw = .badCrc → ∀ i ∈ rows, Does i.1 s (fun t => link t 1 ∧ t.m.st.rxSeq = x.rxSeq ∧ t.m.ln.rxIn = [] ∧
        t.m.get F.SHR_C13_N = (s.m.get F.SHR_C13_N + 1) % 2 ^ 32 ∧
        (s.m.get F.ST_ERRS_FCRC < 0xFFFF → t.m.get F.ST_ERRS_FCRC = s.m.get F.ST_ERRS_FCRC + 1) ∧
        SameRegs (fun a => a = F.ST_ERRS_reg ∨ a = F.SHR_C13_reg ∨ laneRegs a) s t ∧ Keeps s t)) ∧
      (raw ≠ [] → parseFrame (raw.take size) = .framing → ∀ i ∈ rows, Does i.1 s (fun t => link t 1 ∧ t.m.st.rxSeq = x.rxSeq ∧
        t.m.ln.rxIn = [] ∧
        (s.m.get F.ST_ERRS_LOSSES < 0xFFFF → t.m.get F.ST_ERRS_LOSSES = s.m.get F.ST_ERRS_LOSSES + 1) ∧
        SameRegs (fun a => a = F.ST_ERRS_reg ∨ laneRegs a) s t ∧ Keeps s t))) ∧
    (∀ f pad, s.m.carries lines raw = true → s.m.sess = 2 → parseFrame raw = .good f pad → f.ty ∈ hostTypes →
      (∀ i ∈ rows, i.2 ≠ f.ty → exec i.1 s = .next { s with m := r }) ∧
      (f.broken pad = true → (f.ty < 0x11 ∨ 0x14 < f.ty) → ∀ i ∈ rows, i.2 = f.ty → Does i.1 s (fun t =>
        t.m.get F.ST_STAT_PROTERR = 1 ∧ t.m.get F.ST_PROTERR_N = (s.m.get F.ST_PROTERR_N + 1) % 2 ^ 32 ∧ t.m.st = x ∧
        SameRegs (fun a => a = F.ST_STAT_reg ∨ a = F.ST_PROTERR_reg ∨ laneRegs a) s t ∧ Keeps s t))) ∧
    (∀ f pad, s.m.carries lines raw = true → s.m.sess = 2 → parseFrame raw = .good f pad → f.broken pad = false →
      s.m.takeAck f.ack = s.m →
      let d := seqDist f.seq x.rxSeq
      let next (t : State) : Prop := link t 0 ∧ t.m.st.rxSeq = (x.rxSeq + 1) % 65536
      (0 < d → d ≤ 32768 → ∀ i ∈ rows, i.2 = f.ty → 0x11 ≤ f.ty → f.ty ≤ 0x14 → Does i.1 s (fun t => link t 0 ∧
        t.m.st.rxSeq = x.rxSeq ∧ SameRegs (fun a => eventRegs 7 a ∨ laneRegs a) s t ∧ Keeps s t)) ∧
      (32768 < d → x.nakAt = none → ∀ i ∈ rows, i.2 = f.ty → 0x11 ≤ f.ty → f.ty ≤ 0x14 → Does i.1 s (fun t => link t 1 ∧
        t.m.st.rxSeq = x.rxSeq ∧ SameRegs (fun a => eventRegs 7 a ∨ laneRegs a) s t ∧ Keeps s t)) ∧
      (d = 0 → s.m.get F.BOOT_STATUS_PHASE = 4 → ∀ i ∈ [(Instr.rxMsg lines, 0x11), (.rxWr lines, 0x12), (.rxRd lines, 0x13)], i.2 = f.ty →
        let bytes := padTo 16 (f.header ++ f.payload)
        let pos := s.m.get F.ST_RXWP_OFS
        let used := x.linW - x.linR + bytes.length + 2048
        (16 ≤ s.m.rxSize → used ≤ s.m.rxSize - 16 → bytes.length ≤ s.m.rxSize - pos → Does i.1 s (fun t => next t ∧
          Pulsed s t 7 12 ∧ SameStores s t ∧
          t.m.loadBytes (mbxBase + (s.m.get F.ST_RXBASE_OFS + pos) % 0x4000) bytes.length = bytes ∧
          t.m.get F.ST_RXWP_OFS = (pos + bytes.length) % s.m.rxSize ∧
          t.m.st.recs = x.recs ++ [(x.linW + bytes.length, f.cost)])) ∧
        (s.m.rxSize - 16 < used → Does i.1 s (fun t => next t ∧ t.m.get F.ST_STAT_RXDROP = 1 ∧ t.m.st.recs = x.recs ∧ Keeps s t))) ∧
      (d = 0 → s.m.get F.BOOT_STATUS_PHASE ≠ 4 → f.ty = 0x11 → Does (.rxMsg lines) s (fun t =>
        t.m.st.rxSeq = (x.rxSeq + 1) % 65536 ∧ t.m.st.crRet = (x.crRet + f.cost) % 2 ^ 24 ∧ t.m.st.recs = x.recs ∧
        t.m.st.hcpl = x.hcpl ++ [{ ty := 0x03, flags := 3, seq := 0, ack := 0, a := f.seq + 0x20000, b := 0, payload := [] }] ∧
        Keeps s t)) ∧
      (d = 0 → f.ty = 0x14 → ∀ k : Fin 64, f.a % 256 = k.val →
        let g := x.tags[k]
        let n := f.payload.length
        let got (t : State) : Prop := next t ∧ SameStores s t
        (g.st = 2 → Does (.rxCpl lines) s (fun t => got t ∧ t.m.get F.ST_LATE_N = (s.m.get F.ST_LATE_N + 1) % 2 ^ 32 ∧
          t.m.st.tags = x.tags ∧ Keeps w t)) ∧
        (g.st = 0 → Does (.rxCpl lines) s (fun t => got t ∧ t.m.get F.ST_BADCPL_N = (s.m.get F.ST_BADCPL_N + 1) % 2 ^ 32 ∧
          t.m.st.tags = x.tags ∧ Keeps w t)) ∧
        (g.st = 1 → bits f.a 15 8 = 0 → f.b = g.got → 0 < n → g.got + n < g.len → Does (.rxCpl lines) s (fun t => got t ∧
          t.m.st.tags = x.tags.set k { g with got := g.got + n } ∧ t.m.loadBytes (g.dest + g.got) n = f.payload ∧
          ∀ a, a < g.dest + g.got ∨ g.dest + g.got + n ≤ a → t.m.byte a = w.m.byte a)) ∧
        (g.st = 1 → bits f.a 15 8 = 0 → f.b = g.got → 0 < n → g.got + n = g.len → Does (.rxCpl lines) s (fun t => got t ∧
          t.m.st.tags = x.tags.set k {}))) ∧
      (f.ty = 0x30 → f.a = 1 → x.held ≠ [] → x.rounds < 4 → Does (.rxLink lines) s (fun t => t.m.st.replay = true ∧
        t.m.st.rounds = x.rounds + 1 ∧ t.m.st.held = x.held ∧ Keeps s t ∧ (s.m.get F.ST_RPLCNT_NAKS < 0xFFFF →
          t.m.get F.ST_RPLCNT_NAKS = s.m.get F.ST_RPLCNT_NAKS + 1))) ∧
      (f.ty = 0x31 → ∀ d e, f.a = (x.crImg + d) % 2 ^ 24 → f.b = (x.crCtl + e) % 2 ^ 24 → x.crImg < 2 ^ 24 → x.crCtl < 2 ^ 24 →
        d ≤ 2 ^ 23 → e ≤ 2 ^ 23 → s.m.availOf true + e ≤ s.m.advOf true →
        (s.m.availOf false + d ≤ s.m.advOf false → Does (.rxCredit lines) s (fun t => t.m.availOf false = s.m.availOf false + d ∧
          t.m.availOf true = s.m.availOf true + e ∧ Keeps s t)) ∧
        (0 < d → s.m.advOf false < s.m.availOf false + d → Does (.rxCredit lines) s (fun t => t.m.availOf false = s.m.advOf false ∧
          t.m.get F.ST_STAT_PROTERR = 1 ∧ Keeps s t)))) ∧
    (∀ f pad h rest, s.m.carries lines raw = true → s.m.sess = 2 → parseFrame raw = .good f pad → f.broken pad = false →
      f.ty = 0x30 → f.a = 0 → x.held = h :: rest →
      let n := seqDist h.f.seq f.ack
      0 < n → n ≤ x.held.length → Does (.rxLink lines) s (fun t => t.m.st.held = x.held.drop n ∧ t.m.st.rounds = 0 ∧
        t.m.st.ackAt = r.now ∧ Keeps s t))

/-- Reads and the receive ring: a descriptor gets a tag or a result that says why not, a tag times out into quarantine and leaves
it, and a new read pointer frees records and returns their credits (R823-R825, R829, R830, R843). -/
def Obligations.ReadsAndRing : Prop :=
  ∀ (s : State), s.m.live = true →
    let x := s.m.st
    (∀ (v : Word),
      Does (.stRdqWrite v true) s (fun t => t.m.get F.ST_STAT_RDQDROP = 1 ∧ OnlyRegs s t ∧ SameRegs (· = F.ST_STAT_reg) s t) ∧
      (∀ o : Nat, v.toNat = 0x20000000 + 8 * o → 8 * o + 24 ≤ 0x4000 →
        let d := mbxBase + 8 * o
        let len := leNat (s.m.loadBytes (d + 8) 4)
        let dest := stDest (leNat (s.m.loadBytes (d + 12) 4)) len
        let answer (t : State) (res k : Nat) : Prop := t.m.loadBytes (d + 16) 4 = leBytes 4 (k + res * 2 ^ 28 + 2 ^ 31) ∧
          (∀ a, a < d + 16 ∨ d + 20 ≤ a → t.m.byte a = s.m.byte a) ∧ SameStores s t
        (∀ i, i < 16 → s.m.clean (d + i) = true) →
        (dest = none ∨ len = 0 ∨ 4096 < len → Does (.stRdqWrite v false) s (fun t => answer t 3 0 ∧ t.m.st = x)) ∧
        (∀ p, dest = some p → 0 < len → len ≤ 4096 →
          (s.m.hasSess = false ∨ s.m.stOn = false → Does (.stRdqWrite v false) s (fun t => answer t 2 0 ∧ t.m.st = x)) ∧
          (s.m.hasSess = true → s.m.stOn = true → s.tick.m.freeTags = [] → Does (.stRdqWrite v false) s (fun t => answer t 1 0 ∧ t.m.st = x)) ∧
          (s.m.hasSess = true → s.m.stOn = true → s.tick.m.freeTags ≠ [] → Does (.stRdqWrite v false) s (fun t =>
            ∃ i ∈ s.tick.m.freeTags, answer t 0 i.val ∧ t.m.st.rdreq = x.rdreq ++ [i.val] ∧
              t.m.st.tags = x.tags.set i { st := 1, host := leNat (s.m.loadBytes d 8), dest := p, len := len }))))) ∧
    (∀ i : Fin 64,
      let g := x.tags[i]
      (g.sent = none ∨ g.st ≠ 1 → exec (.readTimeout i) s = .next s) ∧
      (∀ t0, g.sent = some t0 → g.st = 1 → Does (.readTimeout i) s (fun t =>
        t.m.now = (s.m.runTo ((t0 + g.time) / 4 * 4 + 4)).now ∧
        t.m.st.tags = x.tags.set i { g with st := 2, quarAt := t0 + g.time } ∧ Pulsed s t 7 14 ∧ SameStores s t)) ∧
      (g.st ≠ 2 → exec (.quarantineExit i) s = .next s) ∧
      (g.st = 2 → Does (.quarantineExit i) s (fun t => t.m.now = (s.m.runTo (g.quarAt + 2 * g.time)).now ∧ t.m.st.tags = x.tags.set i {} ∧
        SameRegs (· = F.ST_TAGS_reg) s t ∧ Keeps s t))) ∧
    (∀ v : Word,
      let size := max 16 s.m.rxSize
      let lin := x.linR + min ((v.toNat % size + size - s.m.get F.ST_RXRP_OFS % size) % size) (x.linW - x.linR)
      let freed := ((x.recs.filter (fun r => decide (r.1 ≤ lin))).map (·.2)).sum
      Does (.stRxrpWrite v) s (fun t => t.m.get F.ST_RXRP_OFS = v.toNat ∧ t.m.st.linR = lin ∧
        t.m.st.recs = x.recs.filter (fun r => decide (lin < r.1)) ∧ t.m.st.crRet = (x.crRet + freed) % 2 ^ 24 ∧
        (freed ≠ 0 → s.m.sess = 2 → ∃ g, t.m.st.tx.head? = some g ∧ g.ty = 0x31 ∧ g.a = 0 ∧ g.b = (x.crRet + freed) % 2 ^ 24) ∧
        SameRegs (· = F.ST_RXRP_reg) s t ∧ Keeps s t))

/-! ## Bowline, Shroud and the NV store -/

/-- Bowline: EN and REFORM, a follower that takes its number, passes a frame on, mirrors the axes and loads the epoch, a master
that measures the ring, frames that never came back, a frame that is not valid, an event that is delivered, and a ring that is
lost (R891-R895, R898-R900, R902, R904, R909, R910, R913-R915). Log entries 17, 18 and 108. -/
def Obligations.Bowline : Prop :=
  ∀ (s : State), s.m.live = true →
    let x := s.m.bwl
    let state := s.m.get F.BWL_STAT_STATE
    let stat (a : Nat) : Prop := a = F.BWL_STAT_reg ∨ a = F.SYS_ID_reg ∨ eventRegs 7 a
    (s.m.get F.BWL_CTL_EN = 0 → Does (.bwlEn true) s (fun t => t.m.get F.BWL_CTL_EN = 1 ∧ t.m.get F.BWL_STAT_STATE = 1 ∧
      t.m.bwl = { on := decide (s.m.get F.BWL_CTL_ROLE = 1) } ∧ (state ≠ 1 → Pulsed s t 7 15) ∧
      (s.m.get F.BWL_CTL_ROLE = 1 → t.m.get F.BWL_STAT_UNIT = 0 ∧ t.m.get F.SYS_ID_UNIT = 0) ∧
      SameRegs (fun a => a = F.BWL_CTL_reg ∨ stat a) s t ∧ Keeps s t)) ∧
    Does (.bwlEn false) s (fun t => t.m.get F.BWL_CTL_EN = 0 ∧ t.m.get F.BWL_STAT_STATE = 0 ∧ t.m.bwl = {} ∧
      SameRegs (fun a => a = F.BWL_CTL_reg ∨ stat a) s t ∧ Keeps s t) ∧
    (s.m.bwlMaster = false → exec .bwlReform s = .next s.tick) ∧
    (s.m.bwlMaster = true → Does .bwlReform s (fun t => t.m.get F.BWL_STAT_STATE = 1 ∧
      t.m.bwl = { x with rets := [], out := [], pend := none, qmin := #v[none, none], reefReq := 0 } ∧ SameRegs stat s t ∧ Keeps s t)) ∧
    (∀ (k : BitVec 10) (syms : List (BitVec 10)),
      let l := (frameOf (k :: syms)).1
      let viol := (frameOf (k :: syms)).2
      let f := parseBwl l
      let forwards (t : State) : Prop := t.m.bwl.txSyms = (frameSyms t.m.bwl.tx x.txRd).1 ∧ t.m.bwl.txAt = s.m.now + 80
      (s.m.bwlFollower = false ∨ x.mute = true → exec (.bwlFrameReceive k syms) s = .next s) ∧
      (s.m.bwlFollower = true → x.mute = false →
        (bwlValid l viol = false →
          (state ≠ 4 → Does (.bwlFrameReceive k syms) s (fun t => t.m.get F.BWL_STAT_CHKERR = 1 ∧
            t.m.get F.BWL_STAT_STATE = state ∧ (t.m.bwl.tx.getD 0 0).getLsbD 7 = true ∧ forwards t ∧ t.m.bwl.lastK = s.m.now ∧
            SameRegs stat s t ∧ Keeps s t)) ∧
          (state = 4 → s.m.get F.BWL_CTL_MIRROR = 0 → Does (.bwlFrameReceive k syms) s (fun t => t.m.get F.BWL_STAT_CHKERR = 1 ∧
            t.m.get F.BWL_STAT_STATE = 5 ∧ t.m.get F.BWL_STAT_LOST = 1 ∧ SameRegs stat s t ∧ Keeps s t))) ∧
        (bwlValid l viol = true →
          (f.flags % 4 = 1 → x.known = false → f.hopc < 7 → Does (.bwlFrameReceive k syms) s (fun t =>
            t.m.get F.BWL_STAT_STATE = 1 ∧ t.m.get F.BWL_STAT_UNIT = f.hopc + 1 ∧ t.m.get F.SYS_ID_UNIT = f.hopc + 1 ∧
            t.m.bwl.known = true ∧ t.m.get F.BWL_STAT_SEEN = f.seen ∧ t.m.get F.BWL_STAT_FAULT = f.fault ∧
            bwlValid t.m.bwl.tx false = true ∧ forwards t ∧ (t.m.bwl.tx.getD 1 0).toNat = f.hopc + 1 ∧ Keeps s t)) ∧
          (f.flags % 4 = 1 → state = 1 → x.known = false → 7 ≤ f.hopc → Does (.bwlFrameReceive k syms) s (fun t =>
            t.m.get F.BWL_STAT_RINGERR = 1 ∧ t.m.bwl.mute = true ∧ SameRegs stat s t ∧ Keeps s t)) ∧
          (f.flags % 4 = 0 → state = 4 → x.known = true → Does (.bwlFrameReceive k syms) s (fun t =>
            t.m.bwl.ax[0].p1 = sext 96 (leNat ((l.drop 2).take 12)) ∧ t.m.bwl.ax[1].p1 = sext 96 (leNat ((l.drop 19).take 12)) ∧
            t.m.bwl.ax[0].stopd = leNat ((l.drop 14).take 4) ∧ forwards t ∧ t.m.bwl.level = f.level % 16 ∧ t.m.get F.BWL_STAT_STATE = 4 ∧
            Keeps s t)) ∧
          (f.flags % 4 = 2 → x.known = true →
            let dcable := leNat ((f.body.drop 8).take 2)
            let totlen := leNat ((f.body.drop 6).take 2)
            let ofs := (2 * dcable * ((f.hopSum + s.m.hopLen) % 2 ^ 16) + totlen) / (2 * totlen) + 80 * (s.m.bwlUnit - 1)
            let v := leNat ((f.body.drop 10).take 2) * 2 ^ 48 + leNat (f.body.take 6) + ofs
            totlen ≠ 0 →
            (s.m.now ≤ v + 1 → v ≤ s.m.now + 1 → Does (.bwlFrameReceive k syms) s (fun t => t.m.get F.BWL_STAT_STATE = 4 ∧
              t.m.get F.BWL_STAT_EPOCHKEEP = 1 ∧ t.m.get F.BWL_OFS_OK = ofs % 2 ^ 16 ∧ t.m.now = s.m.now ∧ Keeps s t)) ∧
            (v + 1 < s.m.now ∨ s.m.now + 1 < v →
              (s.m.unitIdle = true → nextGrid 64 v < 2 ^ 64 → Does (.bwlFrameReceive k syms) s (fun t =>
                t.m.get F.BWL_STAT_STATE = 4 ∧ t.m.get F.BWL_STAT_EPOCHKEEP = 0 ∧ t.m.now = nextGrid 64 v ∧ Keeps s t)) ∧
              (s.m.unitIdle = false → Does (.bwlFrameReceive k syms) s (fun t => t.m.get F.BWL_STAT_EPOCHERR = 1 ∧
                t.m.get F.BWL_STAT_STATE = state ∧ t.m.now = s.m.now ∧ Keeps s t)))))) ∧
      (∀ n, (missFrames n x.out).find? (fun o => !o.2) = none → exec (.bwlFrameReturn n k syms) s = .next s) ∧
      (∀ n b, n ≠ 0 → s.m.bwlMaster = true → (missFrames n x.out).find? (fun o => !o.2) = some (b, false) →
        exec (.bwlFrameReturn n k syms) s =
          exec (.bwlFrameReturn 0 k syms) { s with m := { s.m with bwl := { x with out := missFrames n x.out, rets := [] } } }) ∧
      (∀ b, s.m.bwlMaster = true → x.out.find? (fun o => !o.2) = some (b, false) →
        (bwlValid l viol = false → Does (.bwlFrameReturn 0 k syms) s (fun t => t.m.bwl = { x with rets := [], out := t.m.bwl.out } ∧
          t.m.bwl.out = x.out.map (fun o => if o.1 = b then (b, true) else o) ∧ SameRegs (fun _ => False) s t ∧ Keeps s t)) ∧
        (bwlValid l viol = true → (state = 1 ∨ state = 2) → x.rets.length < 63 → Does (.bwlFrameReturn 0 k syms) s (fun t =>
          t.m.get F.BWL_STAT_STATE = 2 ∧ t.m.bwl.rets = (s.m.now - b) :: x.rets ∧
          t.m.bwl.out = x.out.filter (fun o => o.1 != b) ∧ t.m.get F.BWL_STAT_SEEN = f.seen ∧ SameRegs stat s t ∧ Keeps s t)) ∧
        (bwlValid l viol = true → state = 4 → f.flags % 4 = 0 → Does (.bwlFrameReturn 0 k syms) s (fun t =>
          t.m.bwl.pend = some (bits f.stop 1 0, bits f.stop 5 4, qminOf f.qmin[0], qminOf f.qmin[1], f.reefReq) ∧
          t.m.get F.BWL_STAT_FAULT = f.fault ∧ SameRegs stat s t ∧ Keeps s t)))) ∧
    (x.due = [] → exec .bwlEventDeliver s = .next s) ∧
    (∀ b e p q, x.due = p ++ (b, e) :: q → (∀ y ∈ p, b < y.1) → (∀ y ∈ q, b ≤ y.1) →
      let u : State := { s with m := { s.m with bwl := { x with due := p ++ q } }.runTo b }
      (s.m.get (F.BWL_RX_ACT e.ch) = 0 ∨ s.m.get (F.BWL_RX_ACT e.ch) = 3 → exec .bwlEventDeliver s = .next u) ∧
      (s.m.get (F.BWL_RX_ACT e.ch) = 2 → exec .bwlEventDeliver s = exec .msyncEdge u) ∧
      (s.m.get (F.BWL_RX_ACT e.ch) = 1 → s.m.pageState = 2 →
        let k : Fin 16 := Fin.ofNat 16 (s.m.get (F.BWL_RX_SWT e.ch))
        s.m.get F.TRG_CTL_PSSRC = 16 + k.val → s.m.trg.swtAt[k] ≠ u.m.now / 4 + 1 → Does .bwlEventDeliver s (fun t =>
          (s.m.noSyncs → t.m.pageState = 3) ∧ Pulsed s t 6 11 ∧ t.m.bwl.due = p ++ q ∧ SameCoreMem s t ∧ SameStores s t))) ∧
    (state ≠ 4 → exec .bwlLost s = .next s) ∧
    (state = 4 → s.m.bwlFollower = true → Does .bwlLost s (fun t => t.m.now = (s.m.runTo (x.lastK + 3000)).now ∧
      t.m.get F.BWL_STAT_STATE = 5 ∧
      t.m.get F.BWL_STAT_LOST = 1 ∧ Pulsed s t 7 15 ∧ Keeps s t ∧ ∀ a : Fin 2,
        (s.m.get F.BWL_CTL_MIRROR = 1 → t.m.get (F.HAL_AX_STAT_STATE a) = 6 ∧ t.m.get (F.HAL_AX_STAT_CAUSE a) = 5) ∧
        (s.m.get F.BWL_CTL_MIRROR = 0 → t.m.axis a = s.m.axis a))) ∧
    (∀ b k rest, state = 4 → s.m.bwlMaster = true → x.out = (b, k) :: rest → Does .bwlLost s (fun t =>
      t.m.now = (s.m.runTo (b + 6000)).now ∧
      let n := if s.m.get F.BWL_CTL_MIRROR = 1 then 3 else 0
      t.m.get F.BWL_STAT_STATE = 5 ∧ t.m.bwl.stop = n ∧ t.m.bwl.notReady = n ∧ t.m.bwl.rets = [] ∧ t.m.bwl.out = [] ∧
      Pulsed s t 7 15 ∧ SameRegs stat s t ∧ Keeps s t))

/-- Shroud: a detection that latches enters the safe state and fills the record, a later one is secondary, a class that acts
only when armed is not taken before; the clear and what refuses it; injection; the supplies; the die temperature and thermal
shutdown (R50, R54, R917-R921, R923, R926-R930, R933). Log entries 63 and 82. -/
def Obligations.Shroud : Prop :=
  ∀ (s : State), s.m.live = true →
    let held := s.m.get F.SHR_STATUS_HELD = 1
    let stores (t : State) : Prop := SameCoreMem s t ∧ SameStores s t
    let safe (code : Nat) (t : State) : Prop := t.m.get F.SHR_STATUS_HELD = 1 ∧ t.m.get F.SHR_STATUS_SAFE = 1 ∧
      t.m.get F.SHR_REC_PRIMARY = code ∧ t.m.get F.SHR_REC_CLASS = code / 256 ∧ t.m.out.faultn = true ∧
      t.m.get F.SHR_DET_LO_T + 2 ^ 32 * t.m.get F.SHR_DET_HI_T = s.m.sysTime.toNat ∧ t.m.get F.SYS_IRQ_STAT_FAULT = 1 ∧
      Pulsed s t 7 0 ∧ t.m.out.tsw = 0 ∧ t.m.get F.ST_CTL_IMGRUN = 0 ∧ stores t ∧
      (∀ h : Fin 6, t.m.out.ph[h] = 0 ∧ t.m.get (F.H_TPG_CTL_RUN h) = 0 ∧ t.m.get (F.H_ILL_CTL_EN h) = 0) ∧
      (∀ a : Fin 2, t.m.get (F.HAL_AX_STAT_STATE a) = 6 ∧ t.m.get (F.HAL_AX_CTL_EN a) = 0 ∧ (t.m.axis a).v = 0 ∧
        (t.m.axis a).due = []) ∧
      (s.m.get F.SYS_RST_CFG_KEEP_EN = 1 → t.m.out.keepMen = 3 ∧ t.m.out.men = s.m.out.men ∧ t.m.out.dir = s.m.out.dir)
    (∀ code : BitVec 16,
      let n := code.toNat
      let d := n % 256
      let takes : Prop := n / 256 ≤ 5 ∨ (s.m.armed = true ∧ (n / 256 = 10 → s.m.get (F.HAL_AX_CTL_ENC (d / 16)) = 1))
      let cause : Prop := n / 256 = 1 ∧ d < 0x80
      let runs : Prop := s.m.get (F.C_STAT_STATE (d / 16)) = 1 ∨ s.m.get (F.C_STAT_STATE (d / 16)) = 2
      (knownCode n = false → exec (.faultDetect code) s = .next s) ∧
      (knownCode n = true → ¬ takes → exec (.faultDetect code) s = .next s) ∧
      (knownCode n = true → n / 256 ≠ 2 → takes → ¬ held → Does (.faultDetect code) s (fun t => safe n t ∧
        (cause → runs → t.m.get (F.C_STAT_STATE (d / 16)) = 3 ∧ t.m.get (F.C_STAT_CAUSE (d / 16)) = d % 16))) ∧
      (knownCode n = true → n / 256 ≠ 2 → takes → held → n ∉ s.m.shr.codes → s.m.shr.latchTick ≠ some (s.m.now / 4) →
        s.m.get F.SHR_REC_NSEC < 16 → Does (.faultDetect code) s (fun t =>
          t.m.get F.SHR_REC_NSEC = s.m.get F.SHR_REC_NSEC + 1 ∧ t.m.get F.SHR_REC_PRIMARY = s.m.get F.SHR_REC_PRIMARY ∧
          t.m.secCode (s.m.get F.SHR_REC_NSEC) = n ∧ t.m.shr.codes = s.m.shr.codes ++ [n] ∧ Keeps s t ∧
          (cause → runs → t.m.get (F.C_STAT_STATE (d / 16)) = 3 ∧ t.m.get (F.C_STAT_CAUSE (d / 16)) = d % 16) ∧
          SameRegs (fun a => a = F.SHR_REC_reg ∨ (cause ∧ a = F.C_STAT_reg (d / 16)) ∨ ∃ i, i < 8 ∧ a = F.SHR_SEC_reg i) s t))) ∧
    (∀ v : Word,
      (v.toNat % 256 ≠ 0x5C ∨ ¬ held → exec (.shrClear v) s = .next s.tick) ∧
      (v.toNat % 256 = 0x5C → held → (s.tick.m.reacting = true ∨ ∃ c ∈ s.m.shr.mask, s.m.reports c = true) → Does (.shrClear v) s (fun t =>
        t.m.get F.SHR_STATUS_CLRREF = 1 ∧ OnlyRegs s t ∧ SameRegs (· = F.SHR_STATUS_reg) s t)) ∧
      (v.toNat % 256 = 0x5C → held → (∀ c ∈ s.m.shr.mask, s.m.reports c = false) → s.tick.m.reacting = false →
        Does (.shrClear v) s (fun t => t.m.get F.SHR_STATUS_HELD = 0 ∧ t.m.get F.SHR_STATUS_SAFE = 0 ∧
          t.m.get F.SHR_REC_PRIMARY = 0 ∧ t.m.get F.SHR_REC_NSEC = 0 ∧ t.m.out.faultn = (s.m.pwr.stFailed && s.m.out.faultn) ∧ t.m.shr.codes = [] ∧ Keeps s t))) ∧
    (∀ (kind : BitVec 4) (target : BitVec 3),
      let shows (t : State) : Prop := t.m.get F.SHR_INJ_KIND = kind.toNat ∧ t.m.get F.SHR_INJ_TARGET = target.toNat
      ((kind = 0 ∨ 4 < kind.toNat) → Does (.shrInj kind target) s (fun t => shows t ∧ OnlyRegs s t ∧
        SameRegs (· = F.SHR_INJ_reg) s t)) ∧
      (kind = 1 → ¬ held → Does (.shrInj kind target) s (fun t => shows t ∧ t.m.get F.SHR_STATUS_HELD = 1 ∧
        t.m.get F.SHR_REC_PRIMARY = 0x104 + 16 * target.toNat ∧ t.m.shr.injActive = true ∧ stores t)) ∧
      (kind = 2 → Does (.shrInj kind target) s (fun t => shows t ∧ t.m.shr.inject = some (2, target.toNat) ∧
        t.m.isBad (dmemBase target.toNat) = true ∧ SameRegs (· = F.SHR_INJ_reg) s t ∧ Keeps s t)) ∧
      (kind = 3 ∨ kind = 4 → Does (.shrInj kind target) s (fun t => shows t ∧ t.m.shr.inject = some (kind.toNat, target.toNat) ∧
        t.m.shr.injActive = true ∧ SameRegs (· = F.SHR_INJ_reg) s t ∧ Keeps s t))) ∧
    (∀ (i : Fin 6) (mv : Nat),
      (windowOf i mv = .inside → Does (.supplyWindowFault i mv) s (fun t => t.m.pwr.outWin.getLsbD i = false ∧
        (∀ k : Fin 6, k ≠ i → t.m.pwr.outWin.getLsbD k = s.m.pwr.outWin.getLsbD k) ∧
        t = { s with m := { s.m with pwr := { s.m.pwr with outWin := t.m.pwr.outWin } } })) ∧
      (windowOf i mv = .under → ¬ held → Does (.supplyWindowFault i mv) s (fun t => safe (0x300 + 16 * i.val) t ∧
        t.m.pwr.outWin.getLsbD i = true)) ∧
      (windowOf i mv = .above → ¬ held → Does (.supplyWindowFault i mv) s (fun t => safe (0x301 + 16 * i.val) t ∧
        t.m.pwr.outWin.getLsbD i = true))) ∧
    (∀ (temps : List Int) (t0 : Int) (i : Nat), hottest (temps.take 8) 0 = some (t0, i) → -32768 ≤ t0 → t0 < 32768 →
      let shows (t : State) : Prop := t.m.get F.SHR_TEMP_TEMP = wrapInt 16 t0 ∧ t.m.get F.SHR_TEMP_SENSOR = i
      (t0 < 2000 → Does (.thermalConversion temps) s (fun t => shows t ∧ t.m.shr.hold125 = 0 ∧ stores t ∧
        t.m.get F.SHR_TEMP_WARN = (if s.m.get F.SHR_TEMP_WARN = 0 ∧ 1760 ≤ t0 ∧ 3 ≤ s.m.shr.hold110 then 1
          else if s.m.get F.SHR_TEMP_WARN = 1 ∧ t0 < 1680 ∧ 3 ≤ s.m.shr.hold105 then 0 else s.m.get F.SHR_TEMP_WARN))) ∧
      (2000 ≤ t0 → s.m.shr.hold125 = 3 → ¬ held → Does (.thermalConversion temps) s (fun t => shows t ∧ safe (0x400 + i) t ∧
        t.m.shr.shutdownWait = some s.m.now))) ∧
    (s.m.shr.shutdownWait = none → exec .thermalShutdown s = .next s) ∧
    (∀ t0, s.m.shr.shutdownWait = some t0 → s.m.nvHolds t0 = true → exec .thermalShutdown s = .next s) ∧
    (∀ t0, s.m.shr.shutdownWait = some t0 → s.m.nvHolds t0 = false → Does .thermalShutdown s (fun t => t.m.pwr.thermal = true ∧ t.m.live = false ∧ t.m.irqn = false ∧
        t.m.now = (s.m.runTo (t0 + 36000)).now ∧ t.m.get F.SHR_REC_PRIMARY = s.m.get F.SHR_REC_PRIMARY ∧
        t.m.get F.SHR_STATUS_HELD = s.m.get F.SHR_STATUS_HELD ∧ t.m.get F.LN_STAT_STATE = 0 ∧ SameStores s t))

/-- The NV store: a command is taken or refused, a read fills the buffer, a commit writes the copy that is not current and seals
it last, an erase unseals both copies, a log entry is written after the newest, and the search shows what the log holds
(R937-R944, R946-R948). Log entries 61 and 81. -/
def Obligations.NvStore : Prop :=
  ∀ (s : State), s.m.live = true →
    let x := s.nvArr
    (∀ slot : BitVec 7,
      let go (i : Instr) (cmd : Nat) : Prop :=
        (s.m.get F.NV_STAT_READY = 1 → s.m.get F.NV_STAT_BUSY = 0 → Does i s (fun t => t.m.get F.NV_STAT_BUSY = 1 ∧
          t.m.get F.NV_CTL_GO = 1 ∧
          t.m.get F.NV_CTL_CMD = cmd ∧ t.m.get F.NV_CTL_SLOT = slot.toNat ∧ Keeps s t ∧
          SameRegs (fun a => a = F.NV_CTL_reg ∨ a = F.NV_STAT_reg) s t ∧
          ∃ c, t.m.nv.cmd = some c ∧ t.m.nv = { s.m.nv with cmd := some c } ∧ c.cmd = cmd ∧ c.slot = slot.toNat ∧ c.len = s.m.get F.NV_LEN_LEN ∧
            c.tag = s.m.get F.NV_TAG_TAG ∧ c.start = s.tick.m.now)) ∧
        (s.m.get F.NV_STAT_READY = 0 ∨ s.m.get F.NV_STAT_BUSY = 1 → Does i s (fun t => t.m.get F.NV_STAT_REFUSED = 1 ∧
          OnlyRegs s t ∧ SameRegs (fun a => a = F.NV_CTL_reg ∨ a = F.NV_STAT_reg) s t))
      go (.nvRead slot) 1 ∧ go (.nvCommit slot) 2 ∧ go (.nvErase slot) 3 ∧ go (.nvLogread slot) 4) ∧
    (∀ (d : Nat) (e : NvEnd),
      (s.m.nv.cmd = none → exec (.nvDone d e) s = .next s) ∧
      (∀ c, s.m.nv.cmd = some c → s.m.nv.resetDue = false → c.slot < 128 →
        let cur := NvArr.current x c.slot e.badA e.badB
        let ends (res : Nat) (t : State) : Prop := t.m.now = (s.m.runTo (c.start + c.bound d)).now ∧
          t.m.get F.NV_STAT_RESULT = res ∧ t.m.get F.NV_CTL_GO = 0 ∧ t.m.nv.cmd = none ∧ Pulsed s t 7 16 ∧
          SameMem s t ∧ t.fuses = s.fuses ∧ t.pending = s.pending
        (1 ≤ c.cmd → c.cmd ≤ 3 → recordSlot c.slot = false → Does (.nvDone d e) s (fun t => ends 2 t ∧ t.nvArr = x)) ∧
        (c.cmd = 1 → recordSlot c.slot = true → cur = none → Does (.nvDone d e) s (fun t => ends 1 t ∧ t.nvArr = x)) ∧
        (∀ b, c.cmd = 1 → recordSlot c.slot = true → cur = some b → Does (.nvDone d e) s (fun t => ends 0 t ∧ t.nvArr = x ∧
          let a := copyAt c.slot b
          let len := leNat (NvArr.bytes x (a + 6) 2)
          t.m.get F.NV_LEN_LEN = len ∧ t.m.get F.NV_GEN_GEN = NvArr.word x (a + 8) ∧
          t.m.get F.NV_TAG_TAG = (NvArr.byte x (a + 5)).toNat ∧ t.m.get F.NV_STAT_CUR = b2n b ∧
          ∀ i, 4 * i + 4 ≤ len → t.m.get (F.NV_BUF_W i) = NvArr.word x (a + 32 + 4 * i))) ∧
        (c.cmd = 2 → recordSlot c.slot = true → c.len ≤ 992 → c.payload.length = c.len → e.verify = true →
          Does (.nvDone d e) s (fun t => ends 0 t ∧
            let b := match cur with | some b => !b | none => false
            let gen := match cur with | some b => nextGen (NvArr.word x (copyAt c.slot b + 8)) | none => 1
            let a := copyAt c.slot b
            t.m.get F.NV_STAT_CUR = b2n b ∧ NvArr.word t.nvArr (a + 8) = gen ∧ NvArr.bytes t.nvArr (a + 32) c.len = c.payload ∧
            NvArr.valid t.nvArr c.slot b = true ∧
            ∀ k, k < a ∨ a + 32 + c.len ≤ k → NvArr.byte t.nvArr k = NvArr.byte x k)) ∧
        (c.cmd = 2 → recordSlot c.slot = true → c.len ≤ 992 → e.verify = false → Does (.nvDone d e) s (fun t => ends 3 t)) ∧
        (c.cmd = 3 → recordSlot c.slot = true → Does (.nvDone d e) s (fun t => ends 0 t ∧
          NvArr.word t.nvArr (copyAt c.slot false + 0x1C) = 0 ∧ NvArr.word t.nvArr (copyAt c.slot true + 0x1C) = 0 ∧
          ∀ k, (∀ b, k < copyAt c.slot b + 0x1C ∨ copyAt c.slot b + 0x20 ≤ k) → NvArr.byte t.nvArr k = NvArr.byte x k)) ∧
        (c.cmd = 4 → Does (.nvDone d e) s (fun t => ends (if NvArr.entryOk x c.slot && !e.badA then 0 else 4) t ∧ t.nvArr = x ∧
          ∀ i, i < 96 → t.m.get (F.NV_BUF_W i) = NvArr.word x (logAt c.slot + 4 * i))))) ∧
    (s.m.nv.entry = none → ∀ d, exec (.nvLogEntry d) s = .next s) ∧
    (∀ e d, s.m.nv.entry = some e → s.m.nv.search = none → s.m.nv.resetDue = false → e.bytes.length = 0x178 →
      Does (.nvLogEntry d) s (fun t =>
        let i := s.m.nextLog
        let lseq := leNat ((e.bytes.drop 4).take 4)
        t.m.now = (s.m.runTo (e.start + min d 60000)).now ∧
        t.m.get F.NV_LOGHEAD_IDX = i ∧ t.m.get F.NV_LOGSEQ_LSEQ = lseq ∧ t.m.nv.hasLog = true ∧
        NvArr.bytes t.nvArr (logAt i) 0x178 = e.bytes ∧ NvArr.sealed t.nvArr i = true ∧
        (∀ k, k < logAt i ∨ logAt i + 384 ≤ k → NvArr.byte t.nvArr k = NvArr.byte x k) ∧ SameMem s t ∧ t.fuses = s.fuses ∧
        t.pending = s.pending)) ∧
    (s.m.nv.search = none → ∀ d corr bad, exec (.nvLogSearchDone d corr bad) s = .next s) ∧
    (∀ t0 d corr bad, s.m.nv.search = some t0 → Does (.nvLogSearchDone d corr bad) s (fun t =>
      t.m.now = (s.m.runTo (t0 + min d 60000)).now ∧ t.m.get F.NV_STAT_READY = 1 ∧ t.m.nv.search = none ∧ Keeps s t ∧
      (NvArr.newest x bad = none → t.m.get F.NV_BOOTNO_N = 1) ∧
      (∀ i l, NvArr.newest x bad = some (i, l) → t.m.get F.NV_LOGHEAD_IDX = i ∧ t.m.get F.NV_LOGSEQ_LSEQ = l ∧
        t.m.get F.NV_BOOTNO_N = (NvArr.word x (logAt i + 0x20) + 1) % 2 ^ 32)))
end

