-- ==== Sys2Proof/Laws/Sparse.lean ====
section
/-!
SUPPORT. Laws of the sparse stores: what is read after a write, and that every operation keeps the canonical form.
-/
namespace Sys2Proof.Machine

theorem Sparse.get_erase_self {w : Nat} (d : Nat → BitVec w) (m : Sparse w) (a : Nat) : Sparse.get d (Sparse.erase m a) a = d a := by
  induction m with
  | nil => rfl
  | cons c t ih =>
    obtain ⟨k, x⟩ := c
    by_cases h : k = a
    · subst h; simpa [Sparse.erase] using ih
    · have hk : (k != a) = true := by simp [h]
      have ha : ¬ a = k := fun e => h e.symm
      simpa [Sparse.erase, List.filter_cons, hk, Sparse.get, ha] using ih

theorem Sparse.get_erase_ne {w : Nat} (d : Nat → BitVec w) (m : Sparse w) {a b : Nat} (hab : b ≠ a) :
    Sparse.get d (Sparse.erase m a) b = Sparse.get d m b := by
  induction m with
  | nil => rfl
  | cons c t ih =>
    obtain ⟨k, x⟩ := c
    by_cases h : k = a
    · subst h
      simpa [Sparse.erase, Sparse.get, hab] using ih
    · have hk : (k != a) = true := by simp [h]
      by_cases hb : b = k
      · simp [Sparse.erase, hk, Sparse.get, hb]
      · simpa [Sparse.erase, List.filter_cons, hk, Sparse.get, hb] using ih

theorem Sparse.get_insert_self {w : Nat} (d : Nat → BitVec w) (m : Sparse w) (a : Nat) (v : BitVec w) (h : ∀ c ∈ m, c.1 ≠ a) :
    Sparse.get d (Sparse.insert m a v) a = v := by
  induction m with
  | nil => simp [Sparse.insert, Sparse.get]
  | cons c t ih =>
    obtain ⟨k, x⟩ := c
    have hk : ¬ a = k := fun e => h (k, x) (by simp) e.symm
    by_cases hl : a < k
    · simp [Sparse.insert, hl, Sparse.get]
    · simpa [Sparse.insert, hl, Sparse.get, hk] using ih (fun c hc => h c (by simp [hc]))

theorem Sparse.get_insert_ne {w : Nat} (d : Nat → BitVec w) (m : Sparse w) {a b : Nat} (v : BitVec w) (hab : b ≠ a) :
    Sparse.get d (Sparse.insert m a v) b = Sparse.get d m b := by
  induction m with
  | nil => simp [Sparse.insert, Sparse.get, hab]
  | cons c t ih =>
    obtain ⟨k, x⟩ := c
    by_cases hl : a < k
    · simp [Sparse.insert, hl, Sparse.get, hab]
    · by_cases hb : b = k
      · simp [Sparse.insert, hl, Sparse.get, hb]
      · simpa [Sparse.insert, hl, Sparse.get, hb] using ih

/-- A written address reads back what was written. -/
@[simp] theorem Sparse.get_set_self {w : Nat} (d : Nat → BitVec w) (m : Sparse w) (a : Nat) (v : BitVec w) :
    Sparse.get d (Sparse.set d m a v) a = v := by
  by_cases h : v = d a
  · simp [Sparse.set, h, Sparse.get_erase_self]
  · simp only [Sparse.set, h, if_false]
    exact Sparse.get_insert_self d _ a v (fun c hc => by simpa using (List.mem_filter.mp hc).2)

/-- A write leaves every other address alone. -/
theorem Sparse.get_set_ne {w : Nat} (d : Nat → BitVec w) (m : Sparse w) {a b : Nat} (v : BitVec w) (hab : b ≠ a) :
    Sparse.get d (Sparse.set d m a v) b = Sparse.get d m b := by
  by_cases h : v = d a
  · simp [Sparse.set, h, Sparse.get_erase_ne d m hab]
  · simp [Sparse.set, h, Sparse.get_insert_ne d _ v hab, Sparse.get_erase_ne d m hab]

/-- Raising the bound of a canonical store's start. -/
theorem Sparse.wfFrom_mono {w : Nat} (d : Nat → BitVec w) (m : Sparse w) {l l' : Option Nat}
    (h : ∀ y, l' = some y → ∃ z, l = some z ∧ y ≤ z) (hm : Sparse.wfFrom d l m = true) : Sparse.wfFrom d l' m = true := by
  cases m with
  | nil => rfl
  | cons c t =>
    obtain ⟨k, x⟩ := c
    simp only [Sparse.wfFrom, Bool.and_eq_true] at hm ⊢
    refine ⟨⟨?_, hm.1.2⟩, hm.2⟩
    cases l' with
    | none => rfl
    | some y =>
      obtain ⟨z, rfl, hz⟩ := h y rfl
      have := hm.1.1
      simp only [decide_eq_true_eq] at this ⊢
      omega

/-- Dropping entries keeps the canonical form. -/
theorem Sparse.wfFrom_filter {w : Nat} (d : Nat → BitVec w) (p : Nat × BitVec w → Bool) (m : Sparse w) (l : Option Nat)
    (hm : Sparse.wfFrom d l m = true) : Sparse.wfFrom d l (m.filter p) = true := by
  induction m generalizing l with
  | nil => rfl
  | cons c t ih =>
    obtain ⟨k, x⟩ := c
    simp only [Sparse.wfFrom, Bool.and_eq_true] at hm
    by_cases hp : p (k, x) = true
    · simp only [List.filter_cons, hp, if_true, Sparse.wfFrom, Bool.and_eq_true]
      exact ⟨hm.1, ih _ hm.2⟩
    · simp only [List.filter_cons, hp]
      refine ih _ (Sparse.wfFrom_mono d t ?_ hm.2)
      intro y hy
      subst hy
      have := hm.1.1
      simp only [decide_eq_true_eq] at this
      exact ⟨k, rfl, by omega⟩

theorem Sparse.wfFrom_insert {w : Nat} (d : Nat → BitVec w) (m : Sparse w) (a : Nat) (v : BitVec w) (l : Option Nat)
    (hv : v ≠ d a) (ha : ∀ c ∈ m, c.1 ≠ a) (hl : ∀ y, l = some y → y < a) (hm : Sparse.wfFrom d l m = true) :
    Sparse.wfFrom d l (Sparse.insert m a v) = true := by
  induction m generalizing l with
  | nil =>
    simp only [Sparse.insert, Sparse.wfFrom, Bool.and_eq_true]
    exact ⟨⟨by cases l with | none => rfl | some y => simpa using hl y rfl, by simpa using hv⟩, trivial⟩
  | cons c t ih =>
    obtain ⟨k, x⟩ := c
    have hm' := hm
    simp only [Sparse.wfFrom, Bool.and_eq_true] at hm'
    by_cases hk : a < k
    · simp only [Sparse.insert, hk, if_true, Sparse.wfFrom, Bool.and_eq_true]
      exact ⟨⟨by cases l with | none => rfl | some y => simpa using hl y rfl, by simpa using hv⟩, ⟨by simp, hm'.1.2⟩, hm'.2⟩
    · have hka : k < a := by
        have := ha (k, x) (by simp)
        simp only at this
        omega
      simp only [Sparse.insert, hk, if_false, Sparse.wfFrom, Bool.and_eq_true]
      exact ⟨hm'.1, ih (some k) (fun c hc => ha c (by simp [hc])) (fun y hy => by cases hy; exact hka) hm'.2⟩

/-- A write keeps the canonical form. -/
theorem Sparse.wf_set {w : Nat} (d : Nat → BitVec w) (m : Sparse w) (a : Nat) (v : BitVec w) (hm : Sparse.wf d m = true) :
    Sparse.wf d (Sparse.set d m a v) = true := by
  by_cases h : v = d a
  · simpa [Sparse.set, h, Sparse.wf, Sparse.erase] using Sparse.wfFrom_filter d _ m none hm
  · simp only [Sparse.set, h, if_false]
    exact Sparse.wfFrom_insert d _ a v none h (fun c hc => by simpa using (List.mem_filter.mp hc).2) (fun y hy => by cases hy)
      (Sparse.wfFrom_filter d _ m none hm)

/-- Dropping entries keeps the canonical form. -/
theorem Sparse.wf_clear {w : Nat} (d : Nat → BitVec w) (p : Nat → Bool) (m : Sparse w) (hm : Sparse.wf d m = true) :
    Sparse.wf d (Sparse.clear p m) = true := Sparse.wfFrom_filter d _ m none hm

/-- A series of writes keeps the canonical form. -/
theorem Sparse.wf_foldr {w : Nat} {α : Type} (d : Nat → BitVec w) (g : α → Nat) (u : α → BitVec w) (l : List α) (m : Sparse w)
    (hm : Sparse.wf d m = true) : Sparse.wf d (l.foldr (fun c m => Sparse.set d m (g c) (u c)) m) = true := by
  induction l with
  | nil => exact hm
  | cons c t ih => exact Sparse.wf_set d _ _ _ ih

/-- Copying keeps the canonical form. -/
theorem Sparse.wf_copy {w : Nat} (d : Nat → BitVec w) (p : Nat → Bool) (src dst : Sparse w) (hm : Sparse.wf d dst = true) :
    Sparse.wf d (Sparse.copy d p src dst) = true :=
  Sparse.wf_foldr d (fun (c : Nat × BitVec w) => c.1) (fun (c : Nat × BitVec w) => c.2) _ _ (Sparse.wf_clear d p dst hm)

/-- What is cleared reads as the default, the rest as before. -/
theorem Sparse.get_clear {w : Nat} (d : Nat → BitVec w) (p : Nat → Bool) (m : Sparse w) (a : Nat) :
    Sparse.get d (Sparse.clear p m) a = if p a then d a else Sparse.get d m a := by
  induction m with
  | nil => simp [Sparse.clear, Sparse.get]
  | cons c t ih =>
    obtain ⟨k, x⟩ := c
    by_cases hp : p k = true
    · have e : Sparse.clear p ((k, x) :: t) = Sparse.clear p t := by simp [Sparse.clear, hp]
      rw [e, ih]
      by_cases ha : a = k
      · subst ha; simp [hp]
      · simp [Sparse.get, ha]
    · have e : Sparse.clear p ((k, x) :: t) = (k, x) :: Sparse.clear p t := by simp [Sparse.clear, hp]
      rw [e]
      by_cases ha : a = k
      · subst ha; simp [Sparse.get, hp]
      · simp [Sparse.get, ha, ih]

/-- A copy reads as its source where it was copied, as before elsewhere. -/
theorem Sparse.get_copy {w : Nat} (d : Nat → BitVec w) (p : Nat → Bool) (src dst : Sparse w) (a : Nat) :
    Sparse.get d (Sparse.copy d p src dst) a = if p a then Sparse.get d src a else Sparse.get d dst a := by
  unfold Sparse.copy
  induction src with
  | nil => simp [Sparse.get_clear, Sparse.get]
  | cons c t ih =>
    obtain ⟨k, x⟩ := c
    by_cases hp : p k = true
    · simp only [List.filter_cons, hp, if_true, List.foldr_cons]
      by_cases ha : a = k
      · subst ha; simp [hp, Sparse.get]
      · rw [Sparse.get_set_ne d _ _ ha, ih]; simp [Sparse.get, ha]
    · simp only [List.filter_cons, hp]
      rw [show (if false = true then (k, x) :: List.filter (fun c => p c.1) t else List.filter (fun c => p c.1) t) =
        List.filter (fun c => p c.1) t from rfl, ih]
      by_cases ha : a = k
      · subst ha; simp [hp]
      · simp [Sparse.get, ha]

end Sys2Proof.Machine
end

