-- ==== Sys2Proof/Laws/State.lean ====
section
/-!
SUPPORT. What each named update of the machine does to each of its fields, and how a command's effect on the machine
reads as an outcome on the state.
-/
namespace Sys2Proof.Machine

/-! ## setReg -/

@[simp] theorem Mach.setReg_regs (m : Mach) (a : Nat) (v : Word) : (m.setReg a v).regs = Sparse.set regReset m.regs a v := rfl
@[simp] theorem Mach.setReg_pendSet (m : Mach) (a : Nat) (v : Word) : (m.setReg a v).pendSet = m.pendSet := rfl
@[simp] theorem Mach.setReg_actSet (m : Mach) (a : Nat) (v : Word) : (m.setReg a v).actSet = m.actSet := rfl
@[simp] theorem Mach.setReg_commits (m : Mach) (a : Nat) (v : Word) : (m.setReg a v).commits = m.commits := rfl
@[simp] theorem Mach.setReg_mem (m : Mach) (a : Nat) (v : Word) : (m.setReg a v).mem = m.mem := rfl
@[simp] theorem Mach.setReg_eccBad (m : Mach) (a : Nat) (v : Word) : (m.setReg a v).eccBad = m.eccBad := rfl
@[simp] theorem Mach.setReg_eccOne (m : Mach) (a : Nat) (v : Word) : (m.setReg a v).eccOne = m.eccOne := rfl
@[simp] theorem Mach.setReg_sysTime (m : Mach) (a : Nat) (v : Word) : (m.setReg a v).sysTime = m.sysTime := rfl
@[simp] theorem Mach.setReg_wraps (m : Mach) (a : Nat) (v : Word) : (m.setReg a v).wraps = m.wraps := rfl
@[simp] theorem Mach.setReg_freeCtr (m : Mach) (a : Nat) (v : Word) : (m.setReg a v).freeCtr = m.freeCtr := rfl
@[simp] theorem Mach.setReg_beat (m : Mach) (a : Nat) (v : Word) : (m.setReg a v).beat = m.beat := rfl
@[simp] theorem Mach.setReg_clk (m : Mach) (a : Nat) (v : Word) : (m.setReg a v).clk = m.clk := rfl
@[simp] theorem Mach.setReg_pwr (m : Mach) (a : Nat) (v : Word) : (m.setReg a v).pwr = m.pwr := rfl
@[simp] theorem Mach.setReg_pins (m : Mach) (a : Nat) (v : Word) : (m.setReg a v).pins = m.pins := rfl
@[simp] theorem Mach.setReg_out (m : Mach) (a : Nat) (v : Word) : (m.setReg a v).out = m.out := rfl
@[simp] theorem Mach.setReg_cores (m : Mach) (a : Nat) (v : Word) : (m.setReg a v).cores = m.cores := rfl
@[simp] theorem Mach.setReg_heads (m : Mach) (a : Nat) (v : Word) : (m.setReg a v).heads = m.heads := rfl
@[simp] theorem Mach.setReg_aux (m : Mach) (a : Nat) (v : Word) : (m.setReg a v).aux = m.aux := rfl
@[simp] theorem Mach.setReg_trg (m : Mach) (a : Nat) (v : Word) : (m.setReg a v).trg = m.trg := rfl
@[simp] theorem Mach.setReg_axes (m : Mach) (a : Nat) (v : Word) : (m.setReg a v).axes = m.axes := rfl
@[simp] theorem Mach.setReg_reef (m : Mach) (a : Nat) (v : Word) : (m.setReg a v).reef = m.reef := rfl
@[simp] theorem Mach.setReg_bc (m : Mach) (a : Nat) (v : Word) : (m.setReg a v).bc = m.bc := rfl
@[simp] theorem Mach.setReg_ln (m : Mach) (a : Nat) (v : Word) : (m.setReg a v).ln = m.ln := rfl
@[simp] theorem Mach.setReg_st (m : Mach) (a : Nat) (v : Word) : (m.setReg a v).st = m.st := rfl
@[simp] theorem Mach.setReg_bwl (m : Mach) (a : Nat) (v : Word) : (m.setReg a v).bwl = m.bwl := rfl
@[simp] theorem Mach.setReg_shr (m : Mach) (a : Nat) (v : Word) : (m.setReg a v).shr = m.shr := rfl
@[simp] theorem Mach.setReg_nv (m : Mach) (a : Nat) (v : Word) : (m.setReg a v).nv = m.nv := rfl
@[simp] theorem Mach.setReg_port (m : Mach) (a : Nat) (v : Word) : (m.setReg a v).port = m.port := rfl
@[simp] theorem Mach.setReg_boot (m : Mach) (a : Nat) (v : Word) : (m.setReg a v).boot = m.boot := rfl

/-! ## setNow -/

@[simp] theorem Mach.setNow_regs (m : Mach) (t : Nat) : (m.setNow t).regs = m.regs := rfl
@[simp] theorem Mach.setNow_pendSet (m : Mach) (t : Nat) : (m.setNow t).pendSet = m.pendSet := rfl
@[simp] theorem Mach.setNow_actSet (m : Mach) (t : Nat) : (m.setNow t).actSet = m.actSet := rfl
@[simp] theorem Mach.setNow_commits (m : Mach) (t : Nat) : (m.setNow t).commits = m.commits := rfl
@[simp] theorem Mach.setNow_mem (m : Mach) (t : Nat) : (m.setNow t).mem = m.mem := rfl
@[simp] theorem Mach.setNow_eccBad (m : Mach) (t : Nat) : (m.setNow t).eccBad = m.eccBad := rfl
@[simp] theorem Mach.setNow_eccOne (m : Mach) (t : Nat) : (m.setNow t).eccOne = m.eccOne := rfl
@[simp] theorem Mach.setNow_freeCtr (m : Mach) (t : Nat) : (m.setNow t).freeCtr = m.freeCtr := rfl
@[simp] theorem Mach.setNow_beat (m : Mach) (t : Nat) : (m.setNow t).beat = m.beat := rfl
@[simp] theorem Mach.setNow_clk (m : Mach) (t : Nat) : (m.setNow t).clk = m.clk := rfl
@[simp] theorem Mach.setNow_pwr (m : Mach) (t : Nat) : (m.setNow t).pwr = m.pwr := rfl
@[simp] theorem Mach.setNow_pins (m : Mach) (t : Nat) : (m.setNow t).pins = m.pins := rfl
@[simp] theorem Mach.setNow_out (m : Mach) (t : Nat) : (m.setNow t).out = m.out := rfl
@[simp] theorem Mach.setNow_cores (m : Mach) (t : Nat) : (m.setNow t).cores = m.cores := rfl
@[simp] theorem Mach.setNow_heads (m : Mach) (t : Nat) : (m.setNow t).heads = m.heads := rfl
@[simp] theorem Mach.setNow_aux (m : Mach) (t : Nat) : (m.setNow t).aux = m.aux := rfl
@[simp] theorem Mach.setNow_trg (m : Mach) (t : Nat) : (m.setNow t).trg = m.trg := rfl
@[simp] theorem Mach.setNow_axes (m : Mach) (t : Nat) : (m.setNow t).axes = m.axes := rfl
@[simp] theorem Mach.setNow_reef (m : Mach) (t : Nat) : (m.setNow t).reef = m.reef := rfl
@[simp] theorem Mach.setNow_bc (m : Mach) (t : Nat) : (m.setNow t).bc = m.bc := rfl
@[simp] theorem Mach.setNow_ln (m : Mach) (t : Nat) : (m.setNow t).ln = m.ln := rfl
@[simp] theorem Mach.setNow_st (m : Mach) (t : Nat) : (m.setNow t).st = m.st := rfl
@[simp] theorem Mach.setNow_bwl (m : Mach) (t : Nat) : (m.setNow t).bwl = m.bwl := rfl
@[simp] theorem Mach.setNow_shr (m : Mach) (t : Nat) : (m.setNow t).shr = m.shr := rfl
@[simp] theorem Mach.setNow_nv (m : Mach) (t : Nat) : (m.setNow t).nv = m.nv := rfl
@[simp] theorem Mach.setNow_port (m : Mach) (t : Nat) : (m.setNow t).port = m.port := rfl
@[simp] theorem Mach.setNow_boot (m : Mach) (t : Nat) : (m.setNow t).boot = m.boot := rfl

/-! ## setByte -/

@[simp] theorem Mach.setByte_regs (m : Mach) (a : Nat) (v : Byte) : (m.setByte a v).regs = m.regs := rfl
@[simp] theorem Mach.setByte_pendSet (m : Mach) (a : Nat) (v : Byte) : (m.setByte a v).pendSet = m.pendSet := rfl
@[simp] theorem Mach.setByte_actSet (m : Mach) (a : Nat) (v : Byte) : (m.setByte a v).actSet = m.actSet := rfl
@[simp] theorem Mach.setByte_commits (m : Mach) (a : Nat) (v : Byte) : (m.setByte a v).commits = m.commits := rfl
@[simp] theorem Mach.setByte_mem (m : Mach) (a : Nat) (v : Byte) : (m.setByte a v).mem = Sparse.set (fun _ => 0) m.mem a v := rfl
@[simp] theorem Mach.setByte_eccBad (m : Mach) (a : Nat) (v : Byte) : (m.setByte a v).eccBad = m.eccBad := rfl
@[simp] theorem Mach.setByte_eccOne (m : Mach) (a : Nat) (v : Byte) : (m.setByte a v).eccOne = m.eccOne := rfl
@[simp] theorem Mach.setByte_sysTime (m : Mach) (a : Nat) (v : Byte) : (m.setByte a v).sysTime = m.sysTime := rfl
@[simp] theorem Mach.setByte_wraps (m : Mach) (a : Nat) (v : Byte) : (m.setByte a v).wraps = m.wraps := rfl
@[simp] theorem Mach.setByte_freeCtr (m : Mach) (a : Nat) (v : Byte) : (m.setByte a v).freeCtr = m.freeCtr := rfl
@[simp] theorem Mach.setByte_beat (m : Mach) (a : Nat) (v : Byte) : (m.setByte a v).beat = m.beat := rfl
@[simp] theorem Mach.setByte_clk (m : Mach) (a : Nat) (v : Byte) : (m.setByte a v).clk = m.clk := rfl
@[simp] theorem Mach.setByte_pwr (m : Mach) (a : Nat) (v : Byte) : (m.setByte a v).pwr = m.pwr := rfl
@[simp] theorem Mach.setByte_pins (m : Mach) (a : Nat) (v : Byte) : (m.setByte a v).pins = m.pins := rfl
@[simp] theorem Mach.setByte_out (m : Mach) (a : Nat) (v : Byte) : (m.setByte a v).out = m.out := rfl
@[simp] theorem Mach.setByte_cores (m : Mach) (a : Nat) (v : Byte) : (m.setByte a v).cores = m.cores := rfl
@[simp] theorem Mach.setByte_heads (m : Mach) (a : Nat) (v : Byte) : (m.setByte a v).heads = m.heads := rfl
@[simp] theorem Mach.setByte_aux (m : Mach) (a : Nat) (v : Byte) : (m.setByte a v).aux = m.aux := rfl
@[simp] theorem Mach.setByte_trg (m : Mach) (a : Nat) (v : Byte) : (m.setByte a v).trg = m.trg := rfl
@[simp] theorem Mach.setByte_axes (m : Mach) (a : Nat) (v : Byte) : (m.setByte a v).axes = m.axes := rfl
@[simp] theorem Mach.setByte_reef (m : Mach) (a : Nat) (v : Byte) : (m.setByte a v).reef = m.reef := rfl
@[simp] theorem Mach.setByte_bc (m : Mach) (a : Nat) (v : Byte) : (m.setByte a v).bc = m.bc := rfl
@[simp] theorem Mach.setByte_ln (m : Mach) (a : Nat) (v : Byte) : (m.setByte a v).ln = m.ln := rfl
@[simp] theorem Mach.setByte_st (m : Mach) (a : Nat) (v : Byte) : (m.setByte a v).st = m.st := rfl
@[simp] theorem Mach.setByte_bwl (m : Mach) (a : Nat) (v : Byte) : (m.setByte a v).bwl = m.bwl := rfl
@[simp] theorem Mach.setByte_shr (m : Mach) (a : Nat) (v : Byte) : (m.setByte a v).shr = m.shr := rfl
@[simp] theorem Mach.setByte_nv (m : Mach) (a : Nat) (v : Byte) : (m.setByte a v).nv = m.nv := rfl
@[simp] theorem Mach.setByte_port (m : Mach) (a : Nat) (v : Byte) : (m.setByte a v).port = m.port := rfl
@[simp] theorem Mach.setByte_boot (m : Mach) (a : Nat) (v : Byte) : (m.setByte a v).boot = m.boot := rfl

/-! ## setCore -/

@[simp] theorem Mach.setCore_regs (m : Mach) (c : Fin 8) (x : CoreSt) : (m.setCore c x).regs = m.regs := rfl
@[simp] theorem Mach.setCore_pendSet (m : Mach) (c : Fin 8) (x : CoreSt) : (m.setCore c x).pendSet = m.pendSet := rfl
@[simp] theorem Mach.setCore_actSet (m : Mach) (c : Fin 8) (x : CoreSt) : (m.setCore c x).actSet = m.actSet := rfl
@[simp] theorem Mach.setCore_commits (m : Mach) (c : Fin 8) (x : CoreSt) : (m.setCore c x).commits = m.commits := rfl
@[simp] theorem Mach.setCore_mem (m : Mach) (c : Fin 8) (x : CoreSt) : (m.setCore c x).mem = m.mem := rfl
@[simp] theorem Mach.setCore_eccBad (m : Mach) (c : Fin 8) (x : CoreSt) : (m.setCore c x).eccBad = m.eccBad := rfl
@[simp] theorem Mach.setCore_eccOne (m : Mach) (c : Fin 8) (x : CoreSt) : (m.setCore c x).eccOne = m.eccOne := rfl
@[simp] theorem Mach.setCore_sysTime (m : Mach) (c : Fin 8) (x : CoreSt) : (m.setCore c x).sysTime = m.sysTime := rfl
@[simp] theorem Mach.setCore_wraps (m : Mach) (c : Fin 8) (x : CoreSt) : (m.setCore c x).wraps = m.wraps := rfl
@[simp] theorem Mach.setCore_freeCtr (m : Mach) (c : Fin 8) (x : CoreSt) : (m.setCore c x).freeCtr = m.freeCtr := rfl
@[simp] theorem Mach.setCore_beat (m : Mach) (c : Fin 8) (x : CoreSt) : (m.setCore c x).beat = m.beat := rfl
@[simp] theorem Mach.setCore_clk (m : Mach) (c : Fin 8) (x : CoreSt) : (m.setCore c x).clk = m.clk := rfl
@[simp] theorem Mach.setCore_pwr (m : Mach) (c : Fin 8) (x : CoreSt) : (m.setCore c x).pwr = m.pwr := rfl
@[simp] theorem Mach.setCore_pins (m : Mach) (c : Fin 8) (x : CoreSt) : (m.setCore c x).pins = m.pins := rfl
@[simp] theorem Mach.setCore_out (m : Mach) (c : Fin 8) (x : CoreSt) : (m.setCore c x).out = m.out := rfl
@[simp] theorem Mach.setCore_cores (m : Mach) (c : Fin 8) (x : CoreSt) : (m.setCore c x).cores = m.cores.set c x := rfl
@[simp] theorem Mach.setCore_heads (m : Mach) (c : Fin 8) (x : CoreSt) : (m.setCore c x).heads = m.heads := rfl
@[simp] theorem Mach.setCore_aux (m : Mach) (c : Fin 8) (x : CoreSt) : (m.setCore c x).aux = m.aux := rfl
@[simp] theorem Mach.setCore_trg (m : Mach) (c : Fin 8) (x : CoreSt) : (m.setCore c x).trg = m.trg := rfl
@[simp] theorem Mach.setCore_axes (m : Mach) (c : Fin 8) (x : CoreSt) : (m.setCore c x).axes = m.axes := rfl
@[simp] theorem Mach.setCore_reef (m : Mach) (c : Fin 8) (x : CoreSt) : (m.setCore c x).reef = m.reef := rfl
@[simp] theorem Mach.setCore_bc (m : Mach) (c : Fin 8) (x : CoreSt) : (m.setCore c x).bc = m.bc := rfl
@[simp] theorem Mach.setCore_ln (m : Mach) (c : Fin 8) (x : CoreSt) : (m.setCore c x).ln = m.ln := rfl
@[simp] theorem Mach.setCore_st (m : Mach) (c : Fin 8) (x : CoreSt) : (m.setCore c x).st = m.st := rfl
@[simp] theorem Mach.setCore_bwl (m : Mach) (c : Fin 8) (x : CoreSt) : (m.setCore c x).bwl = m.bwl := rfl
@[simp] theorem Mach.setCore_shr (m : Mach) (c : Fin 8) (x : CoreSt) : (m.setCore c x).shr = m.shr := rfl
@[simp] theorem Mach.setCore_nv (m : Mach) (c : Fin 8) (x : CoreSt) : (m.setCore c x).nv = m.nv := rfl
@[simp] theorem Mach.setCore_port (m : Mach) (c : Fin 8) (x : CoreSt) : (m.setCore c x).port = m.port := rfl
@[simp] theorem Mach.setCore_boot (m : Mach) (c : Fin 8) (x : CoreSt) : (m.setCore c x).boot = m.boot := rfl

/-! ## setHead -/

@[simp] theorem Mach.setHead_regs (m : Mach) (h : Fin 6) (x : HeadSt) : (m.setHead h x).regs = m.regs := rfl
@[simp] theorem Mach.setHead_pendSet (m : Mach) (h : Fin 6) (x : HeadSt) : (m.setHead h x).pendSet = m.pendSet := rfl
@[simp] theorem Mach.setHead_actSet (m : Mach) (h : Fin 6) (x : HeadSt) : (m.setHead h x).actSet = m.actSet := rfl
@[simp] theorem Mach.setHead_commits (m : Mach) (h : Fin 6) (x : HeadSt) : (m.setHead h x).commits = m.commits := rfl
@[simp] theorem Mach.setHead_mem (m : Mach) (h : Fin 6) (x : HeadSt) : (m.setHead h x).mem = m.mem := rfl
@[simp] theorem Mach.setHead_eccBad (m : Mach) (h : Fin 6) (x : HeadSt) : (m.setHead h x).eccBad = m.eccBad := rfl
@[simp] theorem Mach.setHead_eccOne (m : Mach) (h : Fin 6) (x : HeadSt) : (m.setHead h x).eccOne = m.eccOne := rfl
@[simp] theorem Mach.setHead_sysTime (m : Mach) (h : Fin 6) (x : HeadSt) : (m.setHead h x).sysTime = m.sysTime := rfl
@[simp] theorem Mach.setHead_wraps (m : Mach) (h : Fin 6) (x : HeadSt) : (m.setHead h x).wraps = m.wraps := rfl
@[simp] theorem Mach.setHead_freeCtr (m : Mach) (h : Fin 6) (x : HeadSt) : (m.setHead h x).freeCtr = m.freeCtr := rfl
@[simp] theorem Mach.setHead_beat (m : Mach) (h : Fin 6) (x : HeadSt) : (m.setHead h x).beat = m.beat := rfl
@[simp] theorem Mach.setHead_clk (m : Mach) (h : Fin 6) (x : HeadSt) : (m.setHead h x).clk = m.clk := rfl
@[simp] theorem Mach.setHead_pwr (m : Mach) (h : Fin 6) (x : HeadSt) : (m.setHead h x).pwr = m.pwr := rfl
@[simp] theorem Mach.setHead_pins (m : Mach) (h : Fin 6) (x : HeadSt) : (m.setHead h x).pins = m.pins := rfl
@[simp] theorem Mach.setHead_out (m : Mach) (h : Fin 6) (x : HeadSt) : (m.setHead h x).out = m.out := rfl
@[simp] theorem Mach.setHead_cores (m : Mach) (h : Fin 6) (x : HeadSt) : (m.setHead h x).cores = m.cores := rfl
@[simp] theorem Mach.setHead_heads (m : Mach) (h : Fin 6) (x : HeadSt) : (m.setHead h x).heads = m.heads.set h x := rfl
@[simp] theorem Mach.setHead_aux (m : Mach) (h : Fin 6) (x : HeadSt) : (m.setHead h x).aux = m.aux := rfl
@[simp] theorem Mach.setHead_trg (m : Mach) (h : Fin 6) (x : HeadSt) : (m.setHead h x).trg = m.trg := rfl
@[simp] theorem Mach.setHead_axes (m : Mach) (h : Fin 6) (x : HeadSt) : (m.setHead h x).axes = m.axes := rfl
@[simp] theorem Mach.setHead_reef (m : Mach) (h : Fin 6) (x : HeadSt) : (m.setHead h x).reef = m.reef := rfl
@[simp] theorem Mach.setHead_bc (m : Mach) (h : Fin 6) (x : HeadSt) : (m.setHead h x).bc = m.bc := rfl
@[simp] theorem Mach.setHead_ln (m : Mach) (h : Fin 6) (x : HeadSt) : (m.setHead h x).ln = m.ln := rfl
@[simp] theorem Mach.setHead_st (m : Mach) (h : Fin 6) (x : HeadSt) : (m.setHead h x).st = m.st := rfl
@[simp] theorem Mach.setHead_bwl (m : Mach) (h : Fin 6) (x : HeadSt) : (m.setHead h x).bwl = m.bwl := rfl
@[simp] theorem Mach.setHead_shr (m : Mach) (h : Fin 6) (x : HeadSt) : (m.setHead h x).shr = m.shr := rfl
@[simp] theorem Mach.setHead_nv (m : Mach) (h : Fin 6) (x : HeadSt) : (m.setHead h x).nv = m.nv := rfl
@[simp] theorem Mach.setHead_port (m : Mach) (h : Fin 6) (x : HeadSt) : (m.setHead h x).port = m.port := rfl
@[simp] theorem Mach.setHead_boot (m : Mach) (h : Fin 6) (x : HeadSt) : (m.setHead h x).boot = m.boot := rfl

/-! ## setRing -/

@[simp] theorem Mach.setRing_regs (m : Mach) (h : Fin 6) (x : RingSt) : (m.setRing h x).regs = m.regs := rfl
@[simp] theorem Mach.setRing_pendSet (m : Mach) (h : Fin 6) (x : RingSt) : (m.setRing h x).pendSet = m.pendSet := rfl
@[simp] theorem Mach.setRing_actSet (m : Mach) (h : Fin 6) (x : RingSt) : (m.setRing h x).actSet = m.actSet := rfl
@[simp] theorem Mach.setRing_commits (m : Mach) (h : Fin 6) (x : RingSt) : (m.setRing h x).commits = m.commits := rfl
@[simp] theorem Mach.setRing_mem (m : Mach) (h : Fin 6) (x : RingSt) : (m.setRing h x).mem = m.mem := rfl
@[simp] theorem Mach.setRing_eccBad (m : Mach) (h : Fin 6) (x : RingSt) : (m.setRing h x).eccBad = m.eccBad := rfl
@[simp] theorem Mach.setRing_eccOne (m : Mach) (h : Fin 6) (x : RingSt) : (m.setRing h x).eccOne = m.eccOne := rfl
@[simp] theorem Mach.setRing_sysTime (m : Mach) (h : Fin 6) (x : RingSt) : (m.setRing h x).sysTime = m.sysTime := rfl
@[simp] theorem Mach.setRing_wraps (m : Mach) (h : Fin 6) (x : RingSt) : (m.setRing h x).wraps = m.wraps := rfl
@[simp] theorem Mach.setRing_freeCtr (m : Mach) (h : Fin 6) (x : RingSt) : (m.setRing h x).freeCtr = m.freeCtr := rfl
@[simp] theorem Mach.setRing_beat (m : Mach) (h : Fin 6) (x : RingSt) : (m.setRing h x).beat = m.beat := rfl
@[simp] theorem Mach.setRing_clk (m : Mach) (h : Fin 6) (x : RingSt) : (m.setRing h x).clk = m.clk := rfl
@[simp] theorem Mach.setRing_pwr (m : Mach) (h : Fin 6) (x : RingSt) : (m.setRing h x).pwr = m.pwr := rfl
@[simp] theorem Mach.setRing_pins (m : Mach) (h : Fin 6) (x : RingSt) : (m.setRing h x).pins = m.pins := rfl
@[simp] theorem Mach.setRing_out (m : Mach) (h : Fin 6) (x : RingSt) : (m.setRing h x).out = m.out := rfl
@[simp] theorem Mach.setRing_cores (m : Mach) (h : Fin 6) (x : RingSt) : (m.setRing h x).cores = m.cores := rfl
@[simp] theorem Mach.setRing_heads (m : Mach) (h : Fin 6) (x : RingSt) : (m.setRing h x).heads = m.heads := rfl
@[simp] theorem Mach.setRing_aux (m : Mach) (h : Fin 6) (x : RingSt) : (m.setRing h x).aux = m.aux := rfl
@[simp] theorem Mach.setRing_trg (m : Mach) (h : Fin 6) (x : RingSt) : (m.setRing h x).trg = { m.trg with rings := m.trg.rings.set h x } := rfl
@[simp] theorem Mach.setRing_axes (m : Mach) (h : Fin 6) (x : RingSt) : (m.setRing h x).axes = m.axes := rfl
@[simp] theorem Mach.setRing_reef (m : Mach) (h : Fin 6) (x : RingSt) : (m.setRing h x).reef = m.reef := rfl
@[simp] theorem Mach.setRing_bc (m : Mach) (h : Fin 6) (x : RingSt) : (m.setRing h x).bc = m.bc := rfl
@[simp] theorem Mach.setRing_ln (m : Mach) (h : Fin 6) (x : RingSt) : (m.setRing h x).ln = m.ln := rfl
@[simp] theorem Mach.setRing_st (m : Mach) (h : Fin 6) (x : RingSt) : (m.setRing h x).st = m.st := rfl
@[simp] theorem Mach.setRing_bwl (m : Mach) (h : Fin 6) (x : RingSt) : (m.setRing h x).bwl = m.bwl := rfl
@[simp] theorem Mach.setRing_shr (m : Mach) (h : Fin 6) (x : RingSt) : (m.setRing h x).shr = m.shr := rfl
@[simp] theorem Mach.setRing_nv (m : Mach) (h : Fin 6) (x : RingSt) : (m.setRing h x).nv = m.nv := rfl
@[simp] theorem Mach.setRing_port (m : Mach) (h : Fin 6) (x : RingSt) : (m.setRing h x).port = m.port := rfl
@[simp] theorem Mach.setRing_boot (m : Mach) (h : Fin 6) (x : RingSt) : (m.setRing h x).boot = m.boot := rfl

/-! ## setAxis -/

@[simp] theorem Mach.setAxis_regs (m : Mach) (a : Fin 2) (x : AxisSt) : (m.setAxis a x).regs = m.regs := rfl
@[simp] theorem Mach.setAxis_pendSet (m : Mach) (a : Fin 2) (x : AxisSt) : (m.setAxis a x).pendSet = m.pendSet := rfl
@[simp] theorem Mach.setAxis_actSet (m : Mach) (a : Fin 2) (x : AxisSt) : (m.setAxis a x).actSet = m.actSet := rfl
@[simp] theorem Mach.setAxis_commits (m : Mach) (a : Fin 2) (x : AxisSt) : (m.setAxis a x).commits = m.commits := rfl
@[simp] theorem Mach.setAxis_mem (m : Mach) (a : Fin 2) (x : AxisSt) : (m.setAxis a x).mem = m.mem := rfl
@[simp] theorem Mach.setAxis_eccBad (m : Mach) (a : Fin 2) (x : AxisSt) : (m.setAxis a x).eccBad = m.eccBad := rfl
@[simp] theorem Mach.setAxis_eccOne (m : Mach) (a : Fin 2) (x : AxisSt) : (m.setAxis a x).eccOne = m.eccOne := rfl
@[simp] theorem Mach.setAxis_sysTime (m : Mach) (a : Fin 2) (x : AxisSt) : (m.setAxis a x).sysTime = m.sysTime := rfl
@[simp] theorem Mach.setAxis_wraps (m : Mach) (a : Fin 2) (x : AxisSt) : (m.setAxis a x).wraps = m.wraps := rfl
@[simp] theorem Mach.setAxis_freeCtr (m : Mach) (a : Fin 2) (x : AxisSt) : (m.setAxis a x).freeCtr = m.freeCtr := rfl
@[simp] theorem Mach.setAxis_beat (m : Mach) (a : Fin 2) (x : AxisSt) : (m.setAxis a x).beat = m.beat := rfl
@[simp] theorem Mach.setAxis_clk (m : Mach) (a : Fin 2) (x : AxisSt) : (m.setAxis a x).clk = m.clk := rfl
@[simp] theorem Mach.setAxis_pwr (m : Mach) (a : Fin 2) (x : AxisSt) : (m.setAxis a x).pwr = m.pwr := rfl
@[simp] theorem Mach.setAxis_pins (m : Mach) (a : Fin 2) (x : AxisSt) : (m.setAxis a x).pins = m.pins := rfl
@[simp] theorem Mach.setAxis_out (m : Mach) (a : Fin 2) (x : AxisSt) : (m.setAxis a x).out = m.out := rfl
@[simp] theorem Mach.setAxis_cores (m : Mach) (a : Fin 2) (x : AxisSt) : (m.setAxis a x).cores = m.cores := rfl
@[simp] theorem Mach.setAxis_heads (m : Mach) (a : Fin 2) (x : AxisSt) : (m.setAxis a x).heads = m.heads := rfl
@[simp] theorem Mach.setAxis_aux (m : Mach) (a : Fin 2) (x : AxisSt) : (m.setAxis a x).aux = m.aux := rfl
@[simp] theorem Mach.setAxis_trg (m : Mach) (a : Fin 2) (x : AxisSt) : (m.setAxis a x).trg = m.trg := rfl
@[simp] theorem Mach.setAxis_axes (m : Mach) (a : Fin 2) (x : AxisSt) : (m.setAxis a x).axes = m.axes.set a x := rfl
@[simp] theorem Mach.setAxis_reef (m : Mach) (a : Fin 2) (x : AxisSt) : (m.setAxis a x).reef = m.reef := rfl
@[simp] theorem Mach.setAxis_bc (m : Mach) (a : Fin 2) (x : AxisSt) : (m.setAxis a x).bc = m.bc := rfl
@[simp] theorem Mach.setAxis_ln (m : Mach) (a : Fin 2) (x : AxisSt) : (m.setAxis a x).ln = m.ln := rfl
@[simp] theorem Mach.setAxis_st (m : Mach) (a : Fin 2) (x : AxisSt) : (m.setAxis a x).st = m.st := rfl
@[simp] theorem Mach.setAxis_bwl (m : Mach) (a : Fin 2) (x : AxisSt) : (m.setAxis a x).bwl = m.bwl := rfl
@[simp] theorem Mach.setAxis_shr (m : Mach) (a : Fin 2) (x : AxisSt) : (m.setAxis a x).shr = m.shr := rfl
@[simp] theorem Mach.setAxis_nv (m : Mach) (a : Fin 2) (x : AxisSt) : (m.setAxis a x).nv = m.nv := rfl
@[simp] theorem Mach.setAxis_port (m : Mach) (a : Fin 2) (x : AxisSt) : (m.setAxis a x).port = m.port := rfl
@[simp] theorem Mach.setAxis_boot (m : Mach) (a : Fin 2) (x : AxisSt) : (m.setAxis a x).boot = m.boot := rfl

/-! ## setPh -/

@[simp] theorem Mach.setPh_regs (m : Mach) (h : Fin 6) (v : BitVec 9) : (m.setPh h v).regs = m.regs := rfl
@[simp] theorem Mach.setPh_pendSet (m : Mach) (h : Fin 6) (v : BitVec 9) : (m.setPh h v).pendSet = m.pendSet := rfl
@[simp] theorem Mach.setPh_actSet (m : Mach) (h : Fin 6) (v : BitVec 9) : (m.setPh h v).actSet = m.actSet := rfl
@[simp] theorem Mach.setPh_commits (m : Mach) (h : Fin 6) (v : BitVec 9) : (m.setPh h v).commits = m.commits := rfl
@[simp] theorem Mach.setPh_mem (m : Mach) (h : Fin 6) (v : BitVec 9) : (m.setPh h v).mem = m.mem := rfl
@[simp] theorem Mach.setPh_eccBad (m : Mach) (h : Fin 6) (v : BitVec 9) : (m.setPh h v).eccBad = m.eccBad := rfl
@[simp] theorem Mach.setPh_eccOne (m : Mach) (h : Fin 6) (v : BitVec 9) : (m.setPh h v).eccOne = m.eccOne := rfl
@[simp] theorem Mach.setPh_sysTime (m : Mach) (h : Fin 6) (v : BitVec 9) : (m.setPh h v).sysTime = m.sysTime := rfl
@[simp] theorem Mach.setPh_wraps (m : Mach) (h : Fin 6) (v : BitVec 9) : (m.setPh h v).wraps = m.wraps := rfl
@[simp] theorem Mach.setPh_freeCtr (m : Mach) (h : Fin 6) (v : BitVec 9) : (m.setPh h v).freeCtr = m.freeCtr := rfl
@[simp] theorem Mach.setPh_beat (m : Mach) (h : Fin 6) (v : BitVec 9) : (m.setPh h v).beat = m.beat := rfl
@[simp] theorem Mach.setPh_clk (m : Mach) (h : Fin 6) (v : BitVec 9) : (m.setPh h v).clk = m.clk := rfl
@[simp] theorem Mach.setPh_pwr (m : Mach) (h : Fin 6) (v : BitVec 9) : (m.setPh h v).pwr = m.pwr := rfl
@[simp] theorem Mach.setPh_pins (m : Mach) (h : Fin 6) (v : BitVec 9) : (m.setPh h v).pins = m.pins := rfl
@[simp] theorem Mach.setPh_out (m : Mach) (h : Fin 6) (v : BitVec 9) : (m.setPh h v).out = { m.out with ph := m.out.ph.set h v } := rfl
@[simp] theorem Mach.setPh_cores (m : Mach) (h : Fin 6) (v : BitVec 9) : (m.setPh h v).cores = m.cores := rfl
@[simp] theorem Mach.setPh_heads (m : Mach) (h : Fin 6) (v : BitVec 9) : (m.setPh h v).heads = m.heads := rfl
@[simp] theorem Mach.setPh_aux (m : Mach) (h : Fin 6) (v : BitVec 9) : (m.setPh h v).aux = m.aux := rfl
@[simp] theorem Mach.setPh_trg (m : Mach) (h : Fin 6) (v : BitVec 9) : (m.setPh h v).trg = m.trg := rfl
@[simp] theorem Mach.setPh_axes (m : Mach) (h : Fin 6) (v : BitVec 9) : (m.setPh h v).axes = m.axes := rfl
@[simp] theorem Mach.setPh_reef (m : Mach) (h : Fin 6) (v : BitVec 9) : (m.setPh h v).reef = m.reef := rfl
@[simp] theorem Mach.setPh_bc (m : Mach) (h : Fin 6) (v : BitVec 9) : (m.setPh h v).bc = m.bc := rfl
@[simp] theorem Mach.setPh_ln (m : Mach) (h : Fin 6) (v : BitVec 9) : (m.setPh h v).ln = m.ln := rfl
@[simp] theorem Mach.setPh_st (m : Mach) (h : Fin 6) (v : BitVec 9) : (m.setPh h v).st = m.st := rfl
@[simp] theorem Mach.setPh_bwl (m : Mach) (h : Fin 6) (v : BitVec 9) : (m.setPh h v).bwl = m.bwl := rfl
@[simp] theorem Mach.setPh_shr (m : Mach) (h : Fin 6) (v : BitVec 9) : (m.setPh h v).shr = m.shr := rfl
@[simp] theorem Mach.setPh_nv (m : Mach) (h : Fin 6) (v : BitVec 9) : (m.setPh h v).nv = m.nv := rfl
@[simp] theorem Mach.setPh_port (m : Mach) (h : Fin 6) (v : BitVec 9) : (m.setPh h v).port = m.port := rfl
@[simp] theorem Mach.setPh_boot (m : Mach) (h : Fin 6) (v : BitVec 9) : (m.setPh h v).boot = m.boot := rfl

/-! ## noteFlags and put -/

@[simp] theorem Mach.noteFlags_regs (m : Mach) (f : Fld) (v : Nat) : (m.noteFlags f v).regs = m.regs := by unfold Mach.noteFlags; split <;> rfl
@[simp] theorem Mach.noteFlags_pendSet (m : Mach) (f : Fld) (v : Nat) : (m.noteFlags f v).pendSet = m.pendSet := by unfold Mach.noteFlags; split <;> rfl
@[simp] theorem Mach.noteFlags_actSet (m : Mach) (f : Fld) (v : Nat) : (m.noteFlags f v).actSet = m.actSet := by unfold Mach.noteFlags; split <;> rfl
@[simp] theorem Mach.noteFlags_commits (m : Mach) (f : Fld) (v : Nat) : (m.noteFlags f v).commits = m.commits := by unfold Mach.noteFlags; split <;> rfl
@[simp] theorem Mach.noteFlags_mem (m : Mach) (f : Fld) (v : Nat) : (m.noteFlags f v).mem = m.mem := by unfold Mach.noteFlags; split <;> rfl
@[simp] theorem Mach.noteFlags_eccBad (m : Mach) (f : Fld) (v : Nat) : (m.noteFlags f v).eccBad = m.eccBad := by unfold Mach.noteFlags; split <;> rfl
@[simp] theorem Mach.noteFlags_eccOne (m : Mach) (f : Fld) (v : Nat) : (m.noteFlags f v).eccOne = m.eccOne := by unfold Mach.noteFlags; split <;> rfl
@[simp] theorem Mach.noteFlags_sysTime (m : Mach) (f : Fld) (v : Nat) : (m.noteFlags f v).sysTime = m.sysTime := by unfold Mach.noteFlags; split <;> rfl
@[simp] theorem Mach.noteFlags_wraps (m : Mach) (f : Fld) (v : Nat) : (m.noteFlags f v).wraps = m.wraps := by unfold Mach.noteFlags; split <;> rfl
@[simp] theorem Mach.noteFlags_freeCtr (m : Mach) (f : Fld) (v : Nat) : (m.noteFlags f v).freeCtr = m.freeCtr := by unfold Mach.noteFlags; split <;> rfl
@[simp] theorem Mach.noteFlags_clk (m : Mach) (f : Fld) (v : Nat) : (m.noteFlags f v).clk = m.clk := by unfold Mach.noteFlags; split <;> rfl
@[simp] theorem Mach.noteFlags_pwr (m : Mach) (f : Fld) (v : Nat) : (m.noteFlags f v).pwr = m.pwr := by unfold Mach.noteFlags; split <;> rfl
@[simp] theorem Mach.noteFlags_pins (m : Mach) (f : Fld) (v : Nat) : (m.noteFlags f v).pins = m.pins := by unfold Mach.noteFlags; split <;> rfl
@[simp] theorem Mach.noteFlags_out (m : Mach) (f : Fld) (v : Nat) : (m.noteFlags f v).out = m.out := by unfold Mach.noteFlags; split <;> rfl
@[simp] theorem Mach.noteFlags_cores (m : Mach) (f : Fld) (v : Nat) : (m.noteFlags f v).cores = m.cores := by unfold Mach.noteFlags; split <;> rfl
@[simp] theorem Mach.noteFlags_heads (m : Mach) (f : Fld) (v : Nat) : (m.noteFlags f v).heads = m.heads := by unfold Mach.noteFlags; split <;> rfl
@[simp] theorem Mach.noteFlags_aux (m : Mach) (f : Fld) (v : Nat) : (m.noteFlags f v).aux = m.aux := by unfold Mach.noteFlags; split <;> rfl
@[simp] theorem Mach.noteFlags_trg (m : Mach) (f : Fld) (v : Nat) : (m.noteFlags f v).trg = m.trg := by unfold Mach.noteFlags; split <;> rfl
@[simp] theorem Mach.noteFlags_axes (m : Mach) (f : Fld) (v : Nat) : (m.noteFlags f v).axes = m.axes := by unfold Mach.noteFlags; split <;> rfl
@[simp] theorem Mach.noteFlags_reef (m : Mach) (f : Fld) (v : Nat) : (m.noteFlags f v).reef = m.reef := by unfold Mach.noteFlags; split <;> rfl
@[simp] theorem Mach.noteFlags_bc (m : Mach) (f : Fld) (v : Nat) : (m.noteFlags f v).bc = m.bc := by unfold Mach.noteFlags; split <;> rfl
@[simp] theorem Mach.noteFlags_ln (m : Mach) (f : Fld) (v : Nat) : (m.noteFlags f v).ln = m.ln := by unfold Mach.noteFlags; split <;> rfl
@[simp] theorem Mach.noteFlags_st (m : Mach) (f : Fld) (v : Nat) : (m.noteFlags f v).st = m.st := by unfold Mach.noteFlags; split <;> rfl
@[simp] theorem Mach.noteFlags_bwl (m : Mach) (f : Fld) (v : Nat) : (m.noteFlags f v).bwl = m.bwl := by unfold Mach.noteFlags; split <;> rfl
@[simp] theorem Mach.noteFlags_shr (m : Mach) (f : Fld) (v : Nat) : (m.noteFlags f v).shr = m.shr := by unfold Mach.noteFlags; split <;> rfl
@[simp] theorem Mach.noteFlags_nv (m : Mach) (f : Fld) (v : Nat) : (m.noteFlags f v).nv = m.nv := by unfold Mach.noteFlags; split <;> rfl
@[simp] theorem Mach.noteFlags_port (m : Mach) (f : Fld) (v : Nat) : (m.noteFlags f v).port = m.port := by unfold Mach.noteFlags; split <;> rfl
@[simp] theorem Mach.noteFlags_boot (m : Mach) (f : Fld) (v : Nat) : (m.noteFlags f v).boot = m.boot := by unfold Mach.noteFlags; split <;> rfl

@[simp] theorem Mach.put_regs (m : Mach) (f : Fld) (v : Nat) : (m.put f v).regs = Sparse.set regReset m.regs f.addr (BitVec.ofNat 32 (setBits (m.reg f.addr).toNat f.hi f.lo v)) := by simp [Mach.put]
@[simp] theorem Mach.put_pendSet (m : Mach) (f : Fld) (v : Nat) : (m.put f v).pendSet = m.pendSet := by simp [Mach.put]
@[simp] theorem Mach.put_actSet (m : Mach) (f : Fld) (v : Nat) : (m.put f v).actSet = m.actSet := by simp [Mach.put]
@[simp] theorem Mach.put_commits (m : Mach) (f : Fld) (v : Nat) : (m.put f v).commits = m.commits := by simp [Mach.put]
@[simp] theorem Mach.put_mem (m : Mach) (f : Fld) (v : Nat) : (m.put f v).mem = m.mem := by simp [Mach.put]
@[simp] theorem Mach.put_eccBad (m : Mach) (f : Fld) (v : Nat) : (m.put f v).eccBad = m.eccBad := by simp [Mach.put]
@[simp] theorem Mach.put_eccOne (m : Mach) (f : Fld) (v : Nat) : (m.put f v).eccOne = m.eccOne := by simp [Mach.put]
@[simp] theorem Mach.put_sysTime (m : Mach) (f : Fld) (v : Nat) : (m.put f v).sysTime = m.sysTime := by simp [Mach.put]
@[simp] theorem Mach.put_wraps (m : Mach) (f : Fld) (v : Nat) : (m.put f v).wraps = m.wraps := by simp [Mach.put]
@[simp] theorem Mach.put_freeCtr (m : Mach) (f : Fld) (v : Nat) : (m.put f v).freeCtr = m.freeCtr := by simp [Mach.put]
@[simp] theorem Mach.put_clk (m : Mach) (f : Fld) (v : Nat) : (m.put f v).clk = m.clk := by simp [Mach.put]
@[simp] theorem Mach.put_pwr (m : Mach) (f : Fld) (v : Nat) : (m.put f v).pwr = m.pwr := by simp [Mach.put]
@[simp] theorem Mach.put_pins (m : Mach) (f : Fld) (v : Nat) : (m.put f v).pins = m.pins := by simp [Mach.put]
@[simp] theorem Mach.put_out (m : Mach) (f : Fld) (v : Nat) : (m.put f v).out = m.out := by simp [Mach.put]
@[simp] theorem Mach.put_cores (m : Mach) (f : Fld) (v : Nat) : (m.put f v).cores = m.cores := by simp [Mach.put]
@[simp] theorem Mach.put_heads (m : Mach) (f : Fld) (v : Nat) : (m.put f v).heads = m.heads := by simp [Mach.put]
@[simp] theorem Mach.put_aux (m : Mach) (f : Fld) (v : Nat) : (m.put f v).aux = m.aux := by simp [Mach.put]
@[simp] theorem Mach.put_trg (m : Mach) (f : Fld) (v : Nat) : (m.put f v).trg = m.trg := by simp [Mach.put]
@[simp] theorem Mach.put_axes (m : Mach) (f : Fld) (v : Nat) : (m.put f v).axes = m.axes := by simp [Mach.put]
@[simp] theorem Mach.put_reef (m : Mach) (f : Fld) (v : Nat) : (m.put f v).reef = m.reef := by simp [Mach.put]
@[simp] theorem Mach.put_bc (m : Mach) (f : Fld) (v : Nat) : (m.put f v).bc = m.bc := by simp [Mach.put]
@[simp] theorem Mach.put_ln (m : Mach) (f : Fld) (v : Nat) : (m.put f v).ln = m.ln := by simp [Mach.put]
@[simp] theorem Mach.put_st (m : Mach) (f : Fld) (v : Nat) : (m.put f v).st = m.st := by simp [Mach.put]
@[simp] theorem Mach.put_bwl (m : Mach) (f : Fld) (v : Nat) : (m.put f v).bwl = m.bwl := by simp [Mach.put]
@[simp] theorem Mach.put_shr (m : Mach) (f : Fld) (v : Nat) : (m.put f v).shr = m.shr := by simp [Mach.put]
@[simp] theorem Mach.put_nv (m : Mach) (f : Fld) (v : Nat) : (m.put f v).nv = m.nv := by simp [Mach.put]
@[simp] theorem Mach.put_port (m : Mach) (f : Fld) (v : Nat) : (m.put f v).port = m.port := by simp [Mach.put]
@[simp] theorem Mach.put_boot (m : Mach) (f : Fld) (v : Nat) : (m.put f v).boot = m.boot := by simp [Mach.put]

/-- A field that is no W1C flag notes nothing (R16). -/
theorem Mach.put_beat (m : Mach) (f : Fld) (v : Nat) (h : f.w1c = false) : (m.put f v).beat = m.beat := by simp [Mach.put, Mach.noteFlags, h]

@[simp] theorem Mach.setNow_sysTime (m : Mach) (t : Nat) : (m.setNow t).sysTime = BitVec.ofNat 48 (t % 2 ^ 48) := rfl
@[simp] theorem Mach.setNow_wraps (m : Mach) (t : Nat) : (m.setNow t).wraps = BitVec.ofNat 16 (t / 2 ^ 48) := rfl

/-! ## Outcomes -/

@[simp] theorem State.run_eq (f : Mach → Mach) (s : State) : s.run f = .next { s with m := f s.m } := rfl
@[simp] theorem State.runF_eq (f : Fuses → Mach → Mach) (s : State) : s.runF f = .next { s with m := f s.fuses s.m } := rfl
@[simp] theorem State.runNv_eq (f : NvArr → Mach → NvArr × Mach) (s : State) :
    s.runNv f = .next { s with nvArr := (f s.nvArr s.m).1, m := (f s.nvArr s.m).2 } := rfl

end Sys2Proof.Machine
end

