-- ==== Sys2Proof/Laws/Ops.lean ====
section
/-!
SUPPORT. What the shared operations do: a register or field read after a write, memory after a store, the clock, event
lines, and the guards of the commands.
-/
namespace Sys2Proof.Machine

/-! ## Registers and fields -/

@[simp] theorem Mach.reg_setReg_self (m : Mach) (a : Nat) (v : Word) : (m.setReg a v).reg a = v := by
  simp [Mach.reg]

theorem Mach.reg_setReg_ne (m : Mach) {a b : Nat} (v : Word) (h : b ≠ a) : (m.setReg a v).reg b = m.reg b := by
  simp [Mach.reg, Sparse.get_set_ne _ _ _ h]

/-- Noting flags reads as nothing in the registers. -/
@[simp] theorem Mach.noteFlags_reg (m : Mach) (f : Fld) (v a : Nat) : (m.noteFlags f v).reg a = m.reg a := by simp [Mach.reg]

@[simp] theorem Mach.noteFlags_get (m : Mach) (f g : Fld) (v : Nat) : (m.noteFlags f v).get g = m.get g := by simp [Mach.get]

theorem Mach.reg_put_ne (m : Mach) (f : Fld) (v : Nat) {b : Nat} (h : b ≠ f.addr) : (m.put f v).reg b = m.reg b := by
  simp [Mach.put, Mach.reg_setReg_ne m _ h]

theorem Mach.reg_putBit_ne (m : Mach) (f : Fld) (i : Nat) {b : Nat} (h : b ≠ f.addr) : (m.putBit f i).reg b = m.reg b := by
  simp [Mach.putBit, Mach.reg_setReg_ne m _ h]

theorem Mach.reg_clear_ne (m : Mach) (f : Fld) (n : Nat) {b : Nat} (h : b ≠ f.addr) : (m.clear f n).reg b = m.reg b :=
  Mach.reg_setReg_ne m _ h

/-- A field of another register is unchanged. -/
theorem Mach.get_put_ne (m : Mach) (f g : Fld) (v : Nat) (h : g.addr ≠ f.addr) : (m.put f v).get g = m.get g := by
  simp [Mach.get, Mach.reg_put_ne m f v h]

theorem setBits_lt (n v hi lo x : Nat) (hv : v < 2 ^ n) (h1 : lo ≤ hi) (h2 : hi < n) : setBits v hi lo x < 2 ^ n := by
  have hb : bits v hi lo * 2 ^ lo ≤ v := by
    have h := Nat.div_mul_le_self v (2 ^ lo)
    have h' : bits v hi lo ≤ v / 2 ^ lo := by
      rw [bits, Nat.shiftRight_eq_div_pow]; exact Nat.mod_le _ _
    exact Nat.le_trans (Nat.mul_le_mul_right _ h') h
  -- split v as low part, field, high part
  have hsplit : v = v % 2 ^ lo + (bits v hi lo) * 2 ^ lo + (v / 2 ^ (hi + 1)) * 2 ^ (hi + 1) := by
    have e1 : v = v % 2 ^ lo + v / 2 ^ lo * 2 ^ lo := (Nat.mod_add_div' v (2 ^ lo)).symm
    have e2 : v / 2 ^ lo = bits v hi lo + v / 2 ^ (hi + 1) * 2 ^ (hi + 1 - lo) := by
      have := (Nat.mod_add_div' (v / 2 ^ lo) (2 ^ (hi + 1 - lo))).symm
      rw [Nat.div_div_eq_div_mul, ← Nat.pow_add, show lo + (hi + 1 - lo) = hi + 1 by omega] at this
      rw [bits, Nat.shiftRight_eq_div_pow]; exact this
    have e3 : 2 ^ (hi + 1 - lo) * 2 ^ lo = 2 ^ (hi + 1) := by rw [← Nat.pow_add]; congr 1; omega
    calc v = v % 2 ^ lo + v / 2 ^ lo * 2 ^ lo := e1
      _ = v % 2 ^ lo + (bits v hi lo + v / 2 ^ (hi + 1) * 2 ^ (hi + 1 - lo)) * 2 ^ lo := by rw [← e2]
      _ = _ := by rw [Nat.add_mul, Nat.mul_assoc, e3, Nat.add_assoc]
  have hx : x % 2 ^ (hi + 1 - lo) * 2 ^ lo + 2 ^ lo ≤ 2 ^ (hi + 1) := by
    have hlt : x % 2 ^ (hi + 1 - lo) + 1 ≤ 2 ^ (hi + 1 - lo) := Nat.mod_lt _ (Nat.two_pow_pos _)
    have e3 : 2 ^ (hi + 1 - lo) * 2 ^ lo = 2 ^ (hi + 1) := by rw [← Nat.pow_add]; congr 1; omega
    calc x % 2 ^ (hi + 1 - lo) * 2 ^ lo + 2 ^ lo = (x % 2 ^ (hi + 1 - lo) + 1) * 2 ^ lo := by rw [Nat.add_mul, Nat.one_mul]
      _ ≤ 2 ^ (hi + 1 - lo) * 2 ^ lo := Nat.mul_le_mul_right _ hlt
      _ = _ := e3
  have hlow : v % 2 ^ lo < 2 ^ lo := Nat.mod_lt _ (Nat.two_pow_pos _)
  have hq : v / 2 ^ (hi + 1) + 1 ≤ 2 ^ (n - (hi + 1)) := by
    apply Nat.div_lt_of_lt_mul
    rw [← Nat.pow_add, show hi + 1 + (n - (hi + 1)) = n by omega]; exact hv
  have hqq : (v / 2 ^ (hi + 1)) * 2 ^ (hi + 1) + 2 ^ (hi + 1) ≤ 2 ^ n := by
    calc (v / 2 ^ (hi + 1)) * 2 ^ (hi + 1) + 2 ^ (hi + 1) = (v / 2 ^ (hi + 1) + 1) * 2 ^ (hi + 1) := by
          rw [Nat.add_mul, Nat.one_mul]
      _ ≤ 2 ^ (n - (hi + 1)) * 2 ^ (hi + 1) := Nat.mul_le_mul_right _ hq
      _ = 2 ^ n := by rw [← Nat.pow_add]; congr 1; omega
  have hs : setBits v hi lo x = v - bits v hi lo * 2 ^ lo + x % 2 ^ (hi + 1 - lo) * 2 ^ lo := rfl
  omega

theorem bits_setBits (v hi lo x : Nat) (h : lo ≤ hi) : bits (setBits v hi lo x) hi lo = x % 2 ^ (hi + 1 - lo) := by
  have e1 : v = v % 2 ^ lo + v / 2 ^ lo * 2 ^ lo := (Nat.mod_add_div' v (2 ^ lo)).symm
  have hb : bits v hi lo = v / 2 ^ lo % 2 ^ (hi + 1 - lo) := by rw [bits, Nat.shiftRight_eq_div_pow]
  have e2 : v / 2 ^ lo = v / 2 ^ lo % 2 ^ (hi + 1 - lo) + v / 2 ^ lo / 2 ^ (hi + 1 - lo) * 2 ^ (hi + 1 - lo) :=
    (Nat.mod_add_div' _ _).symm
  have hle : bits v hi lo * 2 ^ lo ≤ v / 2 ^ lo * 2 ^ lo := by
    rw [hb]; exact Nat.mul_le_mul_right _ (Nat.mod_le _ _)
  have hs : setBits v hi lo x = v % 2 ^ lo + (v / 2 ^ lo / 2 ^ (hi + 1 - lo) * 2 ^ (hi + 1 - lo) + x % 2 ^ (hi + 1 - lo)) * 2 ^ lo := by
    have hd : v / 2 ^ lo * 2 ^ lo - bits v hi lo * 2 ^ lo = (v / 2 ^ lo / 2 ^ (hi + 1 - lo) * 2 ^ (hi + 1 - lo)) * 2 ^ lo := by
      rw [hb, ← Nat.sub_mul]; congr 1; omega
    rw [Nat.add_mul]
    have : setBits v hi lo x = v - bits v hi lo * 2 ^ lo + x % 2 ^ (hi + 1 - lo) * 2 ^ lo := rfl
    omega
  have _ := h
  rw [hs, bits, Nat.shiftRight_eq_div_pow, Nat.add_mul_div_right _ _ (Nat.two_pow_pos lo),
    Nat.div_eq_of_lt (Nat.mod_lt v (Nat.two_pow_pos lo)), Nat.zero_add, Nat.add_comm, Nat.add_mul_mod_self_right, Nat.mod_mod]

/-- A field reads back what was put into it, held to its width. -/
theorem Mach.get_put_self (m : Mach) (f : Fld) (v : Nat) (h : f.lo ≤ f.hi) (h2 : f.hi < 32) :
    (m.put f v).get f = v % 2 ^ (f.hi + 1 - f.lo) := by
  have hlt := setBits_lt 32 (m.reg f.addr).toNat f.hi f.lo v (m.reg f.addr).isLt h h2
  simp only [Mach.get, Mach.put, Mach.noteFlags_reg, Mach.reg_setReg_self, BitVec.toNat_ofNat]
  rw [Nat.mod_eq_of_lt hlt, bits_setBits _ _ _ _ h]

/-! ## Memory -/

@[simp] theorem Mach.byte_setByte_self (m : Mach) (a : Nat) (v : Byte) : (m.setByte a v).byte a = v := by
  simp [Mach.byte]

theorem Mach.byte_setByte_ne (m : Mach) {a b : Nat} (v : Byte) (h : b ≠ a) : (m.setByte a v).byte b = m.byte b := by
  simp [Mach.byte, Sparse.get_set_ne _ _ _ h]

/-- The canonical form of the core memories and the line store. -/
abbrev Mach.memWf (m : Mach) : Prop := Sparse.wf (fun _ => 0) m.mem = true

theorem Mach.setByte_wf (m : Mach) (a : Nat) (v : Byte) (h : m.memWf) : (m.setByte a v).memWf := Sparse.wf_set _ _ _ _ h

theorem Mach.storeN_wf (m : Mach) (a n v : Nat) (h : m.memWf) : (m.storeN a n v).memWf := by
  induction n generalizing m a v with
  | zero => exact h
  | succ n ih => exact ih _ _ _ (Mach.setByte_wf _ _ _ h)

theorem Mach.storeBytes_wf (m : Mach) (a : Nat) (l : List Byte) (h : m.memWf) : (m.storeBytes a l).memWf := by
  induction l generalizing m a with
  | nil => exact h
  | cons x t ih => exact ih _ _ (Mach.setByte_wf _ _ _ h)

/-- A store leaves every byte outside it alone. -/
theorem Mach.byte_storeN (m : Mach) (a n v b : Nat) (h : b < a ∨ a + n ≤ b) : (m.storeN a n v).byte b = m.byte b := by
  induction n generalizing m a v with
  | zero => rfl
  | succ n ih =>
    show ((m.setByte a (BitVec.ofNat 8 v)).storeN (a + 1) n (v / 256)).byte b = m.byte b
    rw [ih _ _ _ (by omega), Mach.byte_setByte_ne _ _ (by omega)]

theorem Mach.byte_storeBytes (m : Mach) (a : Nat) (l : List Byte) (b : Nat) (h : b < a ∨ a + l.length ≤ b) :
    (m.storeBytes a l).byte b = m.byte b := by
  induction l generalizing m a with
  | nil => rfl
  | cons x t ih =>
    show ((m.setByte a x).storeBytes (a + 1) t).byte b = m.byte b
    simp only [List.length_cons] at h
    rw [ih _ _ (by omega), Mach.byte_setByte_ne _ _ (by omega)]

/-! ## The clock -/

/-- The clock runs to a beat, or stays. -/
theorem Mach.runTo_cases (m : Mach) (t : Nat) : m.runTo t = m ∨ m.runTo t = m.setNow t := by
  unfold Mach.runTo; split <;> simp

@[simp] theorem Mach.runTo_regs (m : Mach) (t : Nat) : (m.runTo t).regs = m.regs := by
  rcases m.runTo_cases t with h | h <;> simp [h]

@[simp] theorem Mach.runTo_reg (m : Mach) (t a : Nat) : (m.runTo t).reg a = m.reg a := by simp [Mach.reg]
@[simp] theorem Mach.runTo_get (m : Mach) (t : Nat) (f : Fld) : (m.runTo t).get f = m.get f := by simp [Mach.get]

/-! ## Repetition -/

/-- What each step of a repetition keeps, the repetition keeps. -/
theorem Mach.each_keeps {α : Type} (P : Mach → Prop) (l : List α) (f : α → Mach → Mach) (h : ∀ x m, P m → P (f x m)) (m : Mach)
    (hm : P m) : P (m.each l f) := by
  induction l generalizing m with
  | nil => exact hm
  | cons x t ih => exact ih _ (h x m hm)

/-! ## Event lines -/

/-- `n` differs from `m` in registers, cores and what this beat has noted only, and in no register outside `0x400000` up. -/
structure Mach.CoresOnly (m n : Mach) : Prop where
  same : ∃ r x b, n = { m with regs := r, cores := x, beat := b }
  regs : ∀ a, a < 0x400000 → n.reg a = m.reg a

theorem Mach.CoresOnly.refl (m : Mach) : m.CoresOnly m := ⟨⟨m.regs, m.cores, m.beat, rfl⟩, fun _ _ => rfl⟩

theorem Mach.CoresOnly.noteFlags {m n : Mach} (h : m.CoresOnly n) (f : Fld) (v : Nat) : m.CoresOnly (n.noteFlags f v) := by
  refine ⟨?_, fun a ha => by rw [Mach.noteFlags_reg, h.regs a ha]⟩
  obtain ⟨r, x, b, rfl⟩ := h.same
  unfold Mach.noteFlags
  split
  · exact ⟨r, x, _, rfl⟩
  · exact ⟨r, x, b, rfl⟩

theorem Mach.CoresOnly.setReg {m n : Mach} (h : m.CoresOnly n) (a : Nat) (v : Word) (ha : 0x400000 ≤ a) : m.CoresOnly (n.setReg a v) := by
  refine ⟨?_, fun b hb => by rw [Mach.reg_setReg_ne _ _ (by omega), h.regs b hb]⟩
  obtain ⟨r, x, b, rfl⟩ := h.same
  exact ⟨_, x, b, rfl⟩

theorem Mach.CoresOnly.put {m n : Mach} (h : m.CoresOnly n) (f : Fld) (v : Nat) (ha : 0x400000 ≤ f.addr) : m.CoresOnly (n.put f v) :=
  (h.setReg _ _ ha).noteFlags _ _

theorem Mach.CoresOnly.putBit {m n : Mach} (h : m.CoresOnly n) (f : Fld) (i : Nat) (ha : 0x400000 ≤ f.addr) : m.CoresOnly (n.putBit f i) :=
  (h.setReg _ _ ha).noteFlags _ _

theorem Mach.CoresOnly.clear {m n : Mach} (h : m.CoresOnly n) (f : Fld) (k : Nat) (ha : 0x400000 ≤ f.addr) : m.CoresOnly (n.clear f k) :=
  h.setReg _ _ ha

theorem Mach.CoresOnly.setCore {m n : Mach} (h : m.CoresOnly n) (c : Fin 8) (y : CoreSt) : m.CoresOnly (n.setCore c y) := by
  refine ⟨?_, h.regs⟩
  obtain ⟨r, x, b, rfl⟩ := h.same
  exact ⟨r, _, b, rfl⟩

theorem pend_addr (c : Nat) : 0x400000 ≤ (F.C_EVT_PEND_PEND c).addr := by simp only [F.C_EVT_PEND_PEND, F.C_EVT_PEND_reg]; omega
theorem ovf_addr (c : Nat) : 0x400000 ≤ (F.C_EVT_OVF_OVF c).addr := by simp only [F.C_EVT_OVF_OVF, F.C_EVT_OVF_reg]; omega
theorem state_addr (c : Nat) : 0x400000 ≤ (F.C_STAT_STATE c).addr := by simp only [F.C_STAT_STATE, F.C_STAT_reg]; omega

/-- WAIT's completion changes the core and its registers only. -/
theorem Mach.CoresOnly.waitTake {m n : Mach} (h : m.CoresOnly n) (c : Fin 8) (e : Nat) : m.CoresOnly (n.waitTake c e) := by
  unfold Mach.waitTake
  dsimp only
  split <;> exact (h.put _ _ (state_addr c)).setCore _ _

theorem Mach.CoresOnly.wake {m n : Mach} (h : m.CoresOnly n) (c : Fin 8) : m.CoresOnly (n.wake c) := by
  unfold Mach.wake
  dsimp only
  split
  · split
    · split <;> exact ((by first | exact h.setCore _ _ | exact h : m.CoresOnly _).clear _ _ (pend_addr c)).waitTake _ _
    · exact h
  · exact h

/-- A pulse changes cores and their registers only. -/
theorem Mach.CoresOnly.pulse {m n : Mach} (h : m.CoresOnly n) (c : Fin 8) (e : Nat) : m.CoresOnly (n.pulse c e) := by
  unfold Mach.pulse
  dsimp only
  split
  · exact h
  · refine ((h.setCore _ _).putBit _ _ ?_).wake _
    split
    · exact ovf_addr c
    · exact pend_addr c

theorem Mach.CoresOnly.pulseHead {m n : Mach} (h : m.CoresOnly n) (k : Fin 6) (e : Nat) : m.CoresOnly (n.pulseHead k e) := by
  unfold Mach.pulseHead
  split
  · exact h
  · exact h.pulse _ _

/-- A pulse leaves every register below 0x400000 alone. -/
theorem Mach.pulse_reg (m : Mach) (c : Fin 8) (e a : Nat) (ha : a < 0x400000) : (m.pulse c e).reg a = m.reg a :=
  ((Mach.CoresOnly.refl m).pulse c e).regs a ha

theorem Mach.pulse_get (m : Mach) (c : Fin 8) (e : Nat) (f : Fld) (hf : f.addr < 0x400000) : (m.pulse c e).get f = m.get f := by
  simp [Mach.get, Mach.pulse_reg m c e _ hf]

theorem Mach.pulseHead_reg (m : Mach) (h : Fin 6) (e a : Nat) (ha : a < 0x400000) : (m.pulseHead h e).reg a = m.reg a :=
  ((Mach.CoresOnly.refl m).pulseHead h e).regs a ha

theorem Mach.pulseHead_get (m : Mach) (h : Fin 6) (e : Nat) (f : Fld) (hf : f.addr < 0x400000) :
    (m.pulseHead h e).get f = m.get f := by
  simp [Mach.get, Mach.pulseHead_reg m h e _ hf]

/-! ## Ticks and turns -/

@[simp] theorem Mach.atTick_get (m : Mach) (f : Fld) : m.atTick.get f = m.get f := by simp [Mach.atTick]

/-- A command that comes at a tick finds the clock there (R74). -/
theorem Mach.atTick_of (m : Mach) (h : m.now % 4 = 0) : m.atTick = m := by
  have : nextGrid 4 m.now = m.now := by simp only [nextGrid, ceilDiv]; omega
  simp [Mach.atTick, Mach.runTo, this]

@[simp] theorem Mach.turn_get (m : Mach) (r : Nat) (f : Fld) : (m.turn r).get f = m.get f := by
  unfold Mach.turn
  split
  · rfl
  · dsimp only
    split <;> simp [Mach.get, Mach.reg, Mach.atTick]

/-! ## Guards -/

@[simp] theorem Mach.ifLive_of (m : Mach) (f : Mach → Mach) (h : m.live = true) : m.ifLive f = f m := by simp [Mach.ifLive, h]

/-- A command's write acts at a tick while the blocks are live. -/
theorem Mach.writeCmd_of (m : Mach) (a : Nat) (f : Mach → Mach) (h : m.live = true) : m.writeCmd a f = f m.atTick := by
  simp only [Mach.live, Bool.and_eq_true, Bool.not_eq_true'] at h
  simp [Mach.writeCmd, Mach.reaches, Mach.busUp, h.1.1, h.1.2, h.2]

end Sys2Proof.Machine
end

