-- ==== Sys2Proof/Tests/Slice0.lean ====
section
/-!
SUPPORT. Tests: ill-formed operands, words written out from the spec's encodings, single steps whose results are worked out
from the spec's rules, and for every statement with hypotheses a state and operands that meet them.
-/
open Sys2Proof Sys2Proof.Machine

namespace Sys2Proof.Tests

set_option Elab.async false

/-- The reset state with registers of the map set. -/
def at0 (l : List (Fld × Nat)) (m : Mach := State.reset.m) : State :=
  { State.reset with m := l.foldl (fun (m : Mach) (p : Fld × Nat) => m.put p.1 p.2) m }

/-- A running device after hand-off, with registers of the map set: C7 runs firmware at PC 0. -/
def on (l : List (Fld × Nat)) (m : Mach := State.reset.m) : State :=
  at0 ((F.BOOT_STATUS_PHASE, 4) :: l) { m with boot := { m.boot with zeroDue := none } }

/-- A running device whose C7 is `x`. -/
def c7 (x : CoreSt) (l : List (Fld × Nat) := []) : State :=
  let s := on l
  { s with m := { s.m with cores := s.m.cores.set 7 x } }

/-- A register file with W3 and W4 set. -/
def w34 (a b : Word) : CoreSt := { w := ((Vector.replicate 16 0).set 3 a).set 4 b }

/-- The state that a command leads to, for the tests on one step. -/
def after (i : Instr) (s : State) : State := match exec i s with
  | .next t => t
  | .fault _ => s
  | .refused _ => s

/-! ## Ill-formed operands -/

theorem test_ill_port_command : (Instr.commandInvalid 0x02).wf = false := by decide
theorem test_ill_register_address : (Instr.registerWrite .port 0x3 0).wf = false := by decide
theorem test_ill_event_line : (Instr.eventPulse 0 31).wf = true ∧ (Instr.eventPulse 0 30).wf = false := by decide
theorem test_ill_scrub_address : (Instr.coreScrub 0x10000 .single none).wf = false := by decide
theorem test_ill_illegal_word : (Instr.illegalInstruction 0 0x35404001).wf = false := by decide
theorem test_ill_bit_field : (Instr.extu 0 1 2 31 1).wf = false ∧ (Instr.exts 0 1 2 31 1).wf = false ∧
    (Instr.ins 0 1 2 31 1).wf = false := by decide
theorem test_ill_time : (Instr.time 0 3 3).wf = false := by decide
theorem test_ill_commit : (Instr.commit 0 6).wf = false ∧ (Instr.commit 0 32).wf = false := by decide
theorem test_ill_fire : (Instr.fire 0 16).wf = false := by decide
theorem test_ill_hook_core : (Instr.posev 5 1 2 0).wf = false ∧ (Instr.lnrd 0 1 0).wf = false ∧
    (Instr.steprd 7 1 2 0).wf = false := by decide
theorem test_ill_steprd_pair : (Instr.steprd 6 2 2 0).wf = false := by decide
theorem test_ill_fields : (Instr.exposureStart 0 4 false).wf = false ∧ (Instr.exposureEnd 0 4 none).wf = false ∧
    (Instr.rowClose 0 4).wf = false ∧ (Instr.lineSync ⟨0, [[], [], [], [], []]⟩).wf = false := by decide
theorem test_ill_factors : (Instr.vadcCalDone 0 true []).wf = false := by decide
theorem test_ill_checks : (Instr.vadcCheckReport 0 (.level 4 0 [0, 0, 0, 0, 0, 0, 0, 0])).wf = false ∧
    (Instr.vadcCheckReport 0 (.level 0 1024 [0, 0, 0, 0, 0, 0, 0, 0])).wf = false ∧
    (Instr.vadcCheckReport 0 (.level 0 0 [])).wf = false ∧ (Instr.vadcCheckReport 0 (.dark 4)).wf = false ∧
    (Instr.vadcCheckReport 0 (.dup 4 0)).wf = false := by decide
theorem test_ill_cascade : (Instr.cascadeMark 0 (.on 4)).wf = false ∧ (Instr.cascadeMark 0 (.off 4)).wf = false := by decide
theorem test_ill_edges : (Instr.tpgEdge 0 (.entry 64)).wf = false ∧ (Instr.tpgEdge 0 (.rise 8 0 0)).wf = false ∧
    (Instr.tpgEdge 0 (.fall 0 4 0)).wf = false ∧ (Instr.tpgEdge 0 (.idle 8 0)).wf = false := by decide
theorem test_ill_release : (Instr.trgRingRelease 0 65536).wf = false := by decide
theorem test_ill_training_set : (Instr.trainingSetReceived 0 {} [] 0).wf = false := by decide
theorem test_ill_bowline : (Instr.bwlFrameReceive 0 []).wf = false ∧ (Instr.bwlFrameReturn 0 0 []).wf = false := by decide
theorem test_ill_fault_code : (Instr.faultDetect 0x0205).wf = false := by decide
theorem test_ill_conversion : (Instr.thermalConversion []).wf = false := by decide
theorem test_ill_scrub_place : (Instr.lineStoreScrub (.line 0x3000000 none) .single).wf = false := by decide
theorem test_ill_samples : (Instr.auxResult 0 [] []).wf = false := by decide
theorem test_ill_lines : (Instr.rxOpen { code := [], slots := [[.block 0]] }).wf = false := by decide

/-! ## Words written out from the encodings of chapters 07 and 08: OP | fields, from bit 31 down -/

/-- R format, OP 0x00: rd 1, ra 2, rb 3, bits 13:6 zero, fn 0x01 (ADD). -/
theorem test_word_add : decodeWord 0 0b000000_0001_0010_0011_00000000_000001#32 = some (.add 0 1 2 3) := by decide
/-- R format, OP 0x01: MUL, fn 0x01. -/
theorem test_word_mul : decodeWord 0 0b000001_0001_0010_0011_00000000_000001#32 = some (.mul 0 1 2 3) := by decide
/-- I format, a load. -/
theorem test_word_ldw : decodeWord 0 0x61940000#32 = some (.ldw 0 6 5 0) := by decide
/-- EMIT, WAIT, LUI, EXTU and JR, with the words that the spec's listings give. -/
theorem test_word_listed : decodeWord 0 0x35404001#32 = some (.lui 0 5 0x4001) ∧ decodeWord 0 0x399800E8#32 = some (.extu 0 6 6 7 8) ∧
    decodeWord 0 0x083C0001#32 = some (.jr 0 15) ∧ decodeWord 0 0xF4564001#32 = some (.emit 0 1 5 9) ∧
    decodeWord 0 0xE60C0001#32 = some (.wait 0 8 (some 3)) ∧ decodeWord 0 0x855BFFFD#32 = some (.bne 0 5 6 0x3FFFD) := by decide
/-- A nonzero reserved field is illegal (R246): ADD with bit 6 set. -/
theorem test_word_reserved : decodeWord 0 0b000000_0001_0010_0011_00000001_000001#32 = none := by decide
/-- U and J formats. -/
theorem test_word_call : decodeWord 0 0b110001_00000000000000000000000010#32 = some (.call 0 2) := by decide
/-- S format: STW W3, 8(W2). -/
theorem test_word_stw : decodeWord 0 0b011110_0011_0010_000000000000001000#32 = some (.stw 0 3 2 8) := by decide
/-- BI format: BEQI W4, -1, 2. -/
theorem test_word_beqi : decodeWord 0 0b101000_0100_11111111_00000000000010#32 = some (.beqi 0 4 0xFF 2) := by decide
/-- R277: HALT, and STEPRD W1, W2 of axis 1, which is legal only on C6 (R313). -/
theorem test_word_device : decodeWord 0 0b111000_0000_0000_0000_00000000_000001#32 = some (.halt 0) ∧
    decodeWord 6 0b111100_0001_0000_0010_00000000_000101#32 = some (.steprd 6 1 2 1) ∧
    decodeWord 0 0b111100_0001_0000_0010_00000000_000101#32 = none := by decide
/-- R277: CAS is the second atomic; R278: COMMIT 8 and FIRE 15. -/
theorem test_word_atomic : decodeWord 0 0b111110_0001_0010_0011_00000000_000010#32 = some (.cas 0 1 2 3) ∧
    decodeWord 0 0b111010_0000_0000_000000000000001000#32 = some (.commit 0 8) ∧
    decodeWord 0 0b111011_0000_0000_000000000000001111#32 = some (.fire 0 15) := by decide

/-! ## Single steps -/

/-- R253: 0xFFFF_FFFF + 1 wraps to 0. -/
theorem test_add_wraps : (after (.add 7 5 3 4) (c7 (w34 0xFFFFFFFF 1))).m.cores[7].w[5] = 0 := by decide +kernel
/-- R253: SLT compares signed, SLTU unsigned. -/
theorem test_slt_sign : (after (.slt 7 5 3 4) (c7 (w34 0xFFFFFFFF 1))).m.cores[7].w[5] = 1 ∧
    (after (.sltu 7 5 3 4) (c7 (w34 0xFFFFFFFF 1))).m.cores[7].w[5] = 0 := by decide +kernel
/-- R258: DIV of 0x8000_0000 by -1, and REM by 0. -/
theorem test_div_corner : (after (.div 7 5 3 4) (c7 (w34 0x80000000 0xFFFFFFFF))).m.cores[7].w[5] = 0x80000000 ∧
    (after (.rem 7 5 3 4) (c7 (w34 0x1234 0))).m.cores[7].w[5] = 0x1234 := by decide +kernel
/-- R257: DIV truncates towards zero, and REM takes the dividend's sign. -/
theorem test_div_sign : (after (.div 7 5 3 4) (c7 (w34 0xFFFFFFF9 2))).m.cores[7].w[5] = 0xFFFFFFFD ∧
    (after (.rem 7 5 3 4) (c7 (w34 0xFFFFFFF9 2))).m.cores[7].w[5] = 0xFFFFFFFF := by decide +kernel
/-- R270: a jump out of the IMEM halts with cause 0x7, and FAULT_ADDR holds the target. -/
theorem test_jump_out : (after (.jmp 7 0x2000) (c7 {})).m.get (F.C_STAT_CAUSE 7) = 7 ∧
    (after (.jmp 7 0x2000) (c7 {})).m.get (F.C_FAULT_ADDR_ADDR 7) = 0x8000 := by decide +kernel
/-- R261: a misaligned halfword store halts with cause 0x6. -/
theorem test_misaligned_store : (after (.sth 7 4 3 0) (c7 (w34 0x10000001 5))).m.get (F.C_STAT_CAUSE 7) = 6 := by decide +kernel
/-- R213: a pulse of a pending line sets its overflow bit. -/
theorem test_overflow : (after (.eventPulse 0 31) (on [(F.C_EVT_PEND_PEND 0, 0x80000000)])).m.get (F.C_EVT_OVF_OVF 0) = 0x80000000 := by
  decide +kernel
/-- R920: lockstep of C3 is code 0x0134. -/
theorem test_lockstep_code : (after (.lockstepMismatch 3) (on [(F.C_STAT_STATE 3, 1)])).m.get F.SHR_REC_PRIMARY = 0x134 := by
  decide +kernel
/-- R458: the light loop leaves K alone outside KMODE 2. -/
theorem test_kmode : after (.witnessMean 0 () ()) (on []) = on [] := by decide +kernel
/-- A step takes the front of the queue only (log entry 1). -/
theorem test_queue : (match step { c7 {} with pending := [.fence 7, .halt 7] } with
    | .next t => decide (t.pending = [.halt 7] ∧ t.m.cores[7].pc = 4)
    | _ => false) = true := by decide +kernel
/-- R228, R230: a second GO while one waits shows MISSED. -/
theorem test_missed : (after (.commitGo (.axis 0)) (after (.commitGo (.axis 0)) (on []))).m.get (F.HAL_AX_COMMIT_MISSED 0) = 1 := by
  decide +kernel
/-- R79: SYS_TIME wraps into WRAPS. -/
theorem test_wrap : (after .sysTimeWrap (on [])).m.wraps = 1 := by decide +kernel
/-- R222: a doorbell of the control port at C7 pulses CP_DB and sets bit 8. -/
theorem test_doorbell : (after (.doorbell 7 .port) (on [])).m.get (F.C_DB_PEND_PEND 7) = 256 ∧
    (after (.doorbell 7 .port) (on [])).m.get (F.C_EVT_PEND_PEND 7) = 0x20000 := by decide +kernel
/-- R590, R620: an illegal quadrature step sets QERR and counts. -/
theorem test_qerr : (after (.encoderCount 1 ⟨.illegal, 0⟩) (on [])).m.get (F.HAL_AX_FLT_QCNT 1) = 1 := by decide +kernel
/-- R923: 1,127 mV is below the window of supply 5: code 0x0350. -/
theorem test_supply_code : (after (.supplyWindowFault 5 1127) (on [])).m.get F.SHR_REC_PRIMARY = 0x350 := by decide +kernel
/-- R173: a BIT write that no arming write precedes is rejected. -/
theorem test_fuse_unarmed : (after (.fuseBit 0 true) (at0 [(F.BOOT_STATUS_PHASE, 1)])).m.get F.BOOT_FUSE_PGM_REJ = 1 := by decide +kernel

/-! ## What the hypotheses of the statements meet -/

/-- A step that the kernel runs, as the hypothesis of a statement about steps. -/
theorem step_of (s : State) (P : State → Bool) (h : (match step s with | .next t => P t | _ => false) = true) :
    ∃ t, step s = .next t ∧ P t = true := by
  split at h
  · exact ⟨_, by assumption, h⟩
  · cases h

/-- The reset state with a change of its machine. -/
def mach (l : List (Fld × Nat)) (f : Mach → Mach) : State :=
  let s := on l
  { s with m := f s.m }

/-- The same before hand-off, in a phase of the boot. -/
def booting (phase : Nat) (f : BootSt → BootSt) (l : List (Fld × Nat) := []) : State :=
  let s := at0 ((F.BOOT_STATUS_PHASE, phase) :: l)
  { s with m := { s.m with boot := f s.m.boot } }

theorem witness_StepRunsFront : ({ c7 {} with pending := [.fence 7] } : State).pending = [.fence 7] := by decide +kernel

theorem witness_EveryStepGoesOn : (State.reset.pending = [] ∧ State.reset.m.clk.running = true) ∧
    ((mach [] (fun m => { m with clk := { m.clk with running := false } })).pending = [] ∧
      (mach [] (fun m => { m with clk := { m.clk with running := false } })).m.clk.running = false) := by decide +kernel

/-- A blow that ends: the step changes the fuses. -/
theorem witness_FusesNeverClear : ∃ t, step { booting 1 (fun b => { b with blow := some (258, 0) }) with
    pending := [.fuseBlowDone] } = .next t ∧ decide (t.fuses ≠ 0) = true := step_of _ _ (by decide +kernel)

/-- NV work that ends well. -/
def endOk : NvEnd := { verify := true, corr := 0, badA := false, badB := false }

/-- A commit of 4 bytes to slot 127. -/
def nvCommit : NvCmd := { cmd := 2, slot := 127, len := 4, tag := 7, payload := [1, 2, 3, 4], start := 0 }

theorem witness_NvArrayStaysCanonical : State.reset.nvCanonical ∧ ∃ t, step { mach [] (fun m => { m with
      nv := { m.nv with cmd := some nvCommit } }) with pending := [.nvDone 0 endOk] } =
    .next t ∧ decide (t.nvArr ≠ []) = true := ⟨by unfold State.nvCanonical; decide +kernel, step_of _ _ (by decide +kernel)⟩

theorem witness_DecodeOfEncode : (Instr.add 7 15 15 15).wf = true ∧
    encode (.add 7 15 15 15) = some (7, 0b000000_1111_1111_1111_00000000_000001#32) ∧ (Instr.steprd 6 1 2 1).wf = true ∧
    (encode (.steprd 6 1 2 1)).isSome = true ∧ (Instr.commit 0 31).wf = true ∧ (encode (.commit 0 31)).isSome = true := by decide

theorem witness_ArithmeticAndLogic : (c7 (w34 1 2)).m.fetches 7 = true := by decide +kernel

theorem witness_BitFields : (c7 {}).m.fetches 7 = true ∧ (0#5).toNat + ((31#5).toNat + 1) ≤ 32 ∧
    (31#5).toNat + ((0#5).toNat + 1) ≤ 32 := by decide +kernel

theorem witness_MultiplyAndDivide : (c7 (w34 1 2)).m.fetches 7 = true ∧ (c7 (w34 1 2)).W 7 4 ≠ 0 := by decide +kernel

theorem witness_DivideSpecialCases : (c7 (w34 5 0)).m.fetches 7 = true ∧ (c7 (w34 5 0)).W 7 4 = 0 ∧
    (c7 (w34 0x80000000 0xFFFFFFFF)).m.fetches 7 = true ∧ (c7 (w34 0x80000000 0xFFFFFFFF)).W 7 3 = 0x80000000 ∧
    (c7 (w34 0x80000000 0xFFFFFFFF)).W 7 4 = 0xFFFFFFFF := by decide +kernel

/-- The last word of the IMEM and of the DMEM, and the last halfword of the DMEM. -/
theorem witness_OwnLoads : (c7 (w34 0x7FFC 0)).m.fetches 7 = true ∧ (c7 (w34 0x7FFC 0)).m.clean (portAddr 7 0x7FFC) = true ∧
    ((c7 (w34 0x7FFC 0)).W 7 3 + (0 : BitVec 18).signExtend 32).toNat = 0x7FFC ∧ 0x7FFC % 4 = 0 ∧
    (c7 (w34 0x10003FFE 0)).m.clean (portAddr 7 0x10003FFE) = true ∧
    ((c7 (w34 0x10003FFE 0)).W 7 3 + (0 : BitVec 18).signExtend 32).toNat = 0x10003FFE ∧ 0x10003FFE % 2 = 0 := by decide +kernel

theorem witness_Stores : (c7 (w34 0x10000000 0)).m.fetches 7 = true ∧
    ((c7 (w34 0x10000000 0)).W 7 3 + (0 : BitVec 18).signExtend 32).toNat = 0x10000000 ∧
    (c7 (w34 0x10000000 0)).m.clean (portAddr 7 0x10000000) = true ∧
    ((c7 (w34 0x20003FFC 0)).W 7 3 + (0 : BitVec 18).signExtend 32).toNat = 0x20003FFC ∧
    ((c7 (w34 0x40000010 0)).W 7 3 + (0 : BitVec 18).signExtend 32).toNat = 0x40000010 ∧
    (c7 (w34 0x40000010 0)).m.cores[7].sb.length < 4 ∧ mapped (0x40000010 - 0x40000000) = true := by decide +kernel

theorem witness_AccessChecks : (c7 (w34 0x10000001 0)).m.fetches 7 = true ∧
    ((c7 (w34 0x10000001 0)).W 7 3 + (0 : BitVec 18).signExtend 32).toNat % 2 ≠ 0 ∧
    0x4B000000 ≤ ((c7 (w34 0x4B000000 0)).W 7 3 + (0 : BitVec 18).signExtend 32).toNat := by decide +kernel

/-- Taken inside the IMEM, taken to 0x8000, and not taken. -/
theorem witness_Branches : (c7 (w34 5 5)).m.fetches 7 = true ∧ (c7 (w34 5 5)).W 7 3 = (c7 (w34 5 5)).W 7 4 ∧
    ((c7 (w34 5 5)).m.cores[7].pc + (0x1FFF : BitVec 18).signExtend 32 * 4).toNat < 0x8000 ∧
    0x8000 ≤ ((c7 (w34 5 5)).m.cores[7].pc + (0x2000 : BitVec 18).signExtend 32 * 4).toNat ∧
    (c7 (w34 5 6)).W 7 3 ≠ (c7 (w34 5 6)).W 7 4 ∧
    0x8000 ≤ ((c7 { w34 5 5 with pc := 4 }).m.cores[7].pc + (0x1FFF : BitVec 14).signExtend 32 * 4).toNat := by decide +kernel

theorem witness_Jumps : (c7 (w34 0x7FFC 0)).m.fetches 7 = true ∧ ((0x1FFF : BitVec 26).signExtend 32 * 4 : Word).toNat < 0x8000 ∧
    0x8000 ≤ ((0x2000 : BitVec 26).signExtend 32 * 4 : Word).toNat ∧ ((c7 (w34 0x7FFC 0)).W 7 3).toNat = 0x7FFC ∧
    ((c7 (w34 2 0)).W 7 3).toNat % 4 ≠ 0 ∧ ((c7 (w34 0x8000 0)).W 7 3).toNat = 0x8000 := by decide +kernel

theorem witness_HaltAndResume : (c7 {}).m.fetches 7 = true := by decide +kernel

/-- C6 runs with an empty store buffer. -/
def c6 (x : CoreSt) : State := mach [(F.C_STAT_STATE 6, 1)] (fun m => { m with cores := m.cores.set 6 x })

theorem witness_TimeFenceAndAxes : (c7 {}).m.fetches 7 = true ∧ (c7 {}).m.cores[7].sb = [] ∧ (4 : Rn) ≠ 3 ∧
    (c6 (w34 0x80000000 0)).m.fetches 6 = true ∧ (c6 (w34 0x80000000 0)).m.cores[6].sb = [] ∧
    (c6 (w34 0x80000000 0)).W 6 3 = 0x80000000 ∧ (c6 (w34 5 0)).W 6 3 ≠ 0x80000000 ∧
    (c6 (w34 5 0)).W 6 3 ≠ BitVec.ofInt 32 (c6 (w34 5 0)).m.axes[0].c := by decide +kernel

theorem witness_BufferedCommands : (c7 { sb := [.fire 0, .fire 1, .fire 2] }).m.fetches 7 = true ∧
    (c7 { sb := [.fire 0, .fire 1, .fire 2] }).m.cores[7].sb.length < 4 ∧ (15#18).toNat < 16 ∧ (5#18).toNat < 6 ∧
    (9#18).toNat = 9 ∧ 16 ≤ (31#18).toNat ∧ (31#18).toNat < 32 := by decide +kernel

theorem witness_Waiting : (c7 (w34 1 0)).m.fetches 7 = true ∧
    (c7 (w34 1 0)).m.get (F.C_EVT_EN_EN 7) &&& (c7 (w34 1 0)).m.get (F.C_EVT_PEND_PEND 7) = 0 ∧ 0 < ((c7 (w34 1 0)).W 7 3).toNat ∧
    (c7 (w34 1 0)).W 7 4 = 0 ∧
    (let s := c7 {} [(F.C_EVT_EN_EN 7, 0x80000002), (F.C_EVT_PEND_PEND 7, 0x80000002)]
     s.m.fetches 7 = true ∧ (s.m.get (F.C_EVT_EN_EN 7) &&& s.m.get (F.C_EVT_PEND_PEND 7)).testBit 1 = true ∧
       (s.m.get (F.C_EVT_EN_EN 7) &&& s.m.get (F.C_EVT_PEND_PEND 7)).testBit 0 = false) ∧
    (let s := c7 { waitRd := 15, waitUntil := some 400 } [(F.C_STAT_STATE 7, 2)]
     s.m.live = true ∧ s.m.get (F.C_STAT_STATE 7) = 2 ∧ s.m.cores[7].waitUntil = some 400 ∧ s.m.cores[7].waitRd < 16) := by
  decide +kernel

theorem witness_Atomics : (c7 (w34 0x20003FFC 0)).m.fetches 7 = true ∧ (c7 (w34 0x20003FFC 0)).m.cores[7].sb = [] ∧
    ((c7 (w34 0x20003FFC 0)).W 7 3).toNat = 0x20003FFC ∧
    (c7 (w34 0x20003FFC 0)).m.clean (0x480000 + (0x20003FFC - 0x20000000)) = true := by decide +kernel

theorem witness_AtomicChecks : (c7 (w34 0x20000002 0)).m.fetches 7 = true ∧ ((c7 (w34 0x20000002 0)).W 7 3).toNat % 4 ≠ 0 ∧
    ((c7 (w34 0x1FFFFFFC 0)).W 7 3).toNat = 0x1FFFFFFC ∧ ((c7 (w34 0x20004000 0)).W 7 3).toNat = 0x20004000 := by decide +kernel

/-- A descriptor with bit 29; one of 4 bytes at the top of the line store, with IMGRUN 0, and with everything that it needs. -/
theorem witness_Emit : (c7 (w34 0 0x20000000)).m.fetches 7 = true ∧ (c7 (w34 0 0x20000000)).m.cores[7].sb = [] ∧
    ((c7 (w34 0 0x20000000)).W 7 4).getLsbD 29 = true ∧
    (let s := c7 (w34 0x4AFFFFFC 4) [(F.ST_CTL_EN, 1), (F.ST_CTL_IMGRUN, 1), (F.ST_STAT_SESS, 2)]
     s.m.fetches 7 = true ∧ s.m.cores[7].sb = [] ∧ (s.W 7 4).extractLsb' 28 3 = 0 ∧ (s.W 7 4).toNat % 2 ^ 24 = 4 ∧
       (s.W 7 3).toNat % 4 = 0 ∧ 0x48000000 ≤ (s.W 7 3).toNat ∧ (s.W 7 3).toNat + 4 ≤ 0x4B000000 ∧ s.m.get F.ST_CTL_IMGRUN = 1 ∧
       s.m.get F.ST_CTL_EN = 1 ∧ s.m.get F.ST_STAT_SESS = 2 ∧ s.m.st.queue.length < 64) ∧
    (c7 (w34 0x4AFFFFFC 4)).m.get F.ST_CTL_IMGRUN = 0 := by decide +kernel

/-- A core beside C7 in a state, with a cause. -/
def c0 (st cause : Nat) (l : List (Fld × Nat) := []) : State := on ([(F.C_STAT_STATE 0, st), (F.C_STAT_CAUSE 0, cause)] ++ l)

theorem witness_CorePairs : ((c0 1 0).m.live = true ∧ (c0 1 0).m.get (F.C_STAT_STATE 0) = 1 ∧ (c0 0 0).m.get (F.C_STAT_STATE 0) = 0 ∧
      (c0 3 2).m.get (F.C_STAT_STATE 0) = 3 ∧ (c0 3 2).m.get (F.C_STAT_CAUSE 0) = 2 ∧ (c0 3 4).m.get (F.C_STAT_CAUSE 0) = 4 ∧
      (c0 3 8).m.get F.BOOT_STATUS_PHASE = 4 ∧
      ¬ ((c0 3 8).m.get (F.C_STAT_STATE 0) = 3 ∧ 4 ≤ (c0 3 8).m.get (F.C_STAT_CAUSE 0) ∧ (c0 3 8).m.get (F.C_STAT_CAUSE 0) ≤ 8 ∧
        (c0 3 8).m.get F.SHR_STATUS_HELD = 1) ∧ (c0 3 8 [(F.SHR_STATUS_HELD, 1)]).m.get F.SHR_STATUS_HELD = 1) ∧
    ((c0 2 0).m.get (F.C_STAT_STATE 0) = 2 ∧ (c7 {}).m.fetches 7 = true ∧ decodeWord 7 0 = none ∧
      (decodeWord 7 0x35404001).isSome = true ∧ (c7 { pc := 2 }).m.get (F.C_STAT_STATE 7) = 1 ∧
      (c7 { pc := 2 }).m.cores[7].pc.toNat % 4 ≠ 0 ∧ (c7 { pc := 0x8000 }).m.cores[7].pc.toNat = 0x8000 ∧
      (mach [] (fun m => { m with eccBad := [imemBase 7] })).m.isBad (imemBase 7 + 0) = true) := by decide +kernel

theorem witness_Events : wired 0 30 = false ∧ wired 0 31 = true ∧ (on []).m.live = true ∧ (on []).m.get (F.C_STAT_STATE 0) ≠ 2 ∧
    (let s := c0 2 0 [(F.C_EVT_EN_EN 0, 0x80000000)]
     s.m.get (F.C_STAT_STATE 0) = 2 ∧ (s.m.get (F.C_EVT_EN_EN 0)).testBit 31 = true ∧
       s.m.get (F.C_EVT_EN_EN 0) &&& s.m.get (F.C_EVT_PEND_PEND 0) = 0) ∧
    (0xFFFFFFFF#32).toNat &&& (c0 2 0).m.get (F.C_EVT_PEND_PEND 0) = 0 := by decide +kernel

/-- A commit register with GO set in tick 0, on the MI boundary at beat 3000. -/
def committed (r : CommitReg) (goFld : Fld) : State :=
  mach [(goFld, 1)] (fun m => { m with sysTime := 3000, commits := [(commitAddr r, 0)] })

theorem witness_Commits : (on []).m.live = true ∧ ((on []).m.reg (commitAddr (.head 0))).getLsbD 0 = false ∧
    ((committed (.axis 1) (F.HAL_AX_COMMIT_GO 1)).m.reg (commitAddr (.axis 1))).getLsbD 0 = true ∧
    ((committed (.head 0) (F.H_COMMIT_GO 0)).m.commitTick (commitAddr (.head 0)) = some 0 ∧
      ((committed (.head 0) (F.H_COMMIT_GO 0)).m.head 0).tpg.idle = true) ∧
    (let s := committed (.axis 1) (F.HAL_AX_COMMIT_GO 1)
     s.m.commitTick (commitAddr (.axis 1)) = some 0 ∧ s.m.axState 1 = 0 ∧ s.m.guardTrips 1 = false ∧ s.m.now % 3000 = 0 ∧
       0 + 4 ≤ s.m.now) ∧
    ((committed (.ctx 3) (F.BC_CTX_COMMIT_GO 3)).m.commitTick (commitAddr (.ctx 3)) = some 0 ∧
      (committed (.ctx 3) (F.BC_CTX_COMMIT_GO 3)).m.bcBusy 3 = false) := by decide +kernel

theorem witness_DrainAndScrub : (on []).m.live = true ∧ (on []).m.cores[0].sb = [] ∧
    (c7 { sb := [.store 0x20003FFC 5, .fire 1] }).m.cores[7].sb = .store 0x20003FFC 5 :: [.fire 1] ∧
    (0x20003FFC#32).toNat % 4 = 0 ∧ (on []).m.get F.SHR_CTL_SCRUBCM = 1 ∧ (on []).m.get F.SHR_CTL_SCRUBLS = 1 ∧
    (on [(F.SHR_CTL_SCRUBCM, 0)]).m.get F.SHR_CTL_SCRUBCM = 0 ∧ inCoreMem 0x480000 = true ∧ (on []).m.clean 0x480000 = true ∧
    0x2FFFFFF < lineSize ∧ (mach [] (fun m => { m with eccBad := [0x480000] })).m.isBad 0x480000 = true ∧
    (mach [] (fun m => { m with eccBad := [eccWord lineBase] })).m.isBad (lineBase + 4) = true := by decide +kernel

/-- The machine in power-on reset, with every supply good. -/
def inPor (f : ClkSt → ClkSt) : State := mach [] (fun m => { m with clk := f m.clk, pwr := { m.pwr with por := true } })

theorem witness_PowerAndResets :
    (let s := inPor (fun _ => { running := false, lockedOnce := false, refChosen := false })
     s.m.pwr.por = true ∧ s.m.coreGood = true ∧ s.m.clk.refChosen = false) ∧
    (let s := inPor (fun _ => { running := false, lockedOnce := false, refChosen := true })
     s.m.pwr.por = true ∧ s.m.coreGood = true ∧ s.m.clk.refChosen = true ∧ s.m.clk.lockedOnce = false) ∧
    (let s := inPor id
     s.m.pwr.good = 0x3F ∧ s.m.clk.lockedOnce = true ∧ s.m.clk.running = true ∧ s.m.pwr.pinRst = false ∧ s.m.pwr.softEnd = none ∧
       s.m.pwr.thermal = false ∧ s.m.pwr.resetn = true) ∧
    (mach [] (fun m => { m with pwr := { m.pwr with por := true, resetn := false } })).m.pwr.resetn = false ∧
    ((on []).m.boot.blow = none ∧ (on []).m.nv.cmd = none ∧ (on []).m.nv.entry = none ∧ (on []).m.clk.refChosen = true) ∧
    (let s := mach [] (fun m => { m with pwr := { m.pwr with pinRst := true, resetn := false } })
     s.m.clk.running = true ∧ s.m.pwr.por = false ∧ s.m.pwr.thermal = false ∧ s.m.pwr.pinRst = true ∧ s.m.pwr.resetn = false ∧
       s.m.pwr.softEnd = none) ∧
    (let s := mach [] (fun m => { m with pwr := { m.pwr with softEnd := some 256 } })
     s.m.pwr.pinRst = false ∧ s.m.pwr.porExt = false ∧ s.m.pwr.softEnd.isSome = true) ∧
    ((on []).m.live = true ∧ (on []).m.pwr.selfTest.isSome = true ∧ (on []).m.get F.SHR_STATUS_HELD = 0) := by decide +kernel

/-- The clock stands at beat 1. -/
def stopped : State := mach [] (fun m => { m with sysTime := 1, clk := { m.clk with running := false } })

theorem witness_ClockMonitorAndGates : ((on []).m.live = true ∧ (on []).m.monitored = true ∧ (on []).m.get F.CLK_STAT_LOCK = 1 ∧
      (on []).m.get F.CLK_STAT_REF_OK = 1 ∧ (on []).m.busUp = true ∧ (on []).m.get F.SHR_STATUS_HELD = 0) ∧
    (stopped.m.clk.running = false ∧ stopped.m.monitored = true ∧ stopped.m.get F.CLK_STAT_REF_OK = 1 ∧
      stopped.m.pwr.digPend = false ∧ stopped.m.inReset = false ∧ stopped.m.pwr.thermal = false ∧
      stopped.m.get F.BOOT_STATUS_PHASE = 4) ∧
    ((on []).m.headEn 0 = true ∧ (after (.headGate 0) (on [])).m.headEn 0 = false ∧
      ((after (.headGate 0) (on [])).m.head 0).tpg.stopped = false ∧ ((after (.headGate 0) (on [])).m.head 0).tpg.await = none ∧
      (∀ l ∈ ((after (.headGate 0) (on [])).m.head 0).tpg.lines, l.done = true) ∧
      (let s := after (.headStop 0) (after (.headGate 0) (on []))
       s.m.headEn 0 = false ∧ (s.m.head 0).tpg.stopped = true ∧ s.m.get F.SHR_STATUS_SAFE = 0) ∧
      (on []).m.get F.CLK_GATE_AUX_EN = 1 ∧ (on [(F.CLK_GATE_AUX_EN, 0)]).m.get F.CLK_GATE_AUX_EN = 0) := by decide +kernel

/-- The control port in a state of its own. -/
def port (p : PortSt) : State := mach [] (fun m => { m with port := p })
def word1 (a : Nat) : PortWrite := { addr := a, data := 5, ready := 0 }

theorem witness_ControlPort : ((on []).m.inReset = false ∧ (on []).m.port.sel = false ∧ (on []).m.port.wbuf.length < 16 ∧
      16 ≤ (port { wbuf := List.replicate 16 (word1 0x30) }).m.port.wbuf.length ∧ portCommands.contains (0x00#8).toNat = false) ∧
    (let s := port { sel := true, rd := some { addr := 0x30, inc := true, edge := none, got := some (0xA5, 7, 0) } }
     s.m.port.sel = true ∧ s.m.port.deaf = false ∧
       s.m.port.rd = some { addr := 0x30, inc := true, edge := none, got := some (0xA5, 7, 0) } ∧ 0 ≤ s.m.now) ∧
    ((port { sel := true, wr := some (0x34, 4) }).m.port.wr.isSome = true ∧ (port { sel := true, wr := some (0x34, 4) }).m.port.rd = none) ∧
    (stopped.m.clk.running = false ∧ stopped.m.inReset = false) ∧
    ((port { wbuf := [word1 2] }).m.clk.running = true ∧ mapped 2 = false ∧ (on []).m.get F.SYS_CP_STAT_ADERR = 0 ∧
      inLine 0x8000000 = true ∧ (0x8000000 : Nat) % 4 = 0 ∧ (on []).m.clean 0x8000000 = true ∧ inCoreMem 0x480000 = true ∧
      (on []).m.clean 0x480000 = true) ∧
    (let s := port { sel := true, rd := some { addr := 0x480000, inc := false, edge := some 0, got := none } }
     s.m.busUp = true ∧ s.m.pwr.thermal = false ∧ s.m.port.wbuf = [] ∧ s.m.port.orphans = [] ∧ s.m.clean 0x480000 = true) ∧
    findReg 0x2 = none := by decide +kernel

/-- The port in reset, deaf, and with its clock stopped; writes that wait at a clean word, at a bad one and at no register. -/
theorem witness_ControlPort_corners :
    ((inPor id).m.inReset = true ∧ (inPor id).m.port.sel = false) ∧
    ((port { sel := true, deaf := true }).m.port.sel = true ∧ (port { sel := true, deaf := true }).m.port.deaf = true) ∧
    (let r : PortRead := { addr := 0x30, inc := true, edge := none, got := none }
     let s : State := { stopped with m := { stopped.m with port := { sel := true, rd := some r } } }
     s.m.port.sel = true ∧ s.m.port.deaf = false ∧ s.m.inReset = false ∧ s.m.port.rd = some r ∧ s.m.clk.running = false) ∧
    (let s : State := { stopped with m := { stopped.m with port := { wbuf := [word1 0x30] } } }
     s.m.port.wbuf = word1 0x30 :: [] ∧ s.m.clk.running = false ∧ s.m.pwr.thermal = false ∧ s.m.boot.zeroDue = none) ∧
    (let s := port { wbuf := [word1 2] }
     s.m.port.wbuf = word1 2 :: [] ∧ s.m.inReset = false ∧ s.m.boot.zeroDue = none ∧ s.m.clk.running = true) ∧
    (let s := port { wbuf := [word1 0x480000] }
     (∀ h : Fin 6, (s.m.head h).tpg.lines = []) ∧ s.m.clean 0x480000 = true ∧ s.m.boot.zeroDue = none) ∧
    (let s := mach [] (fun m => { m with port := { wbuf := [word1 0x480000] }, eccBad := [0x480000] })
     (∀ h : Fin 6, (s.m.head h).tpg.lines = []) ∧ s.m.isBad 0x480000 = true ∧ s.m.boot.zeroDue = none) := by decide +kernel

theorem witness_BootLoading : ((booting 0 id).m.live = true ∧ (booting 0 id).m.boot.held = false ∧
      (booting 0 id).m.get F.BOOT_STATUS_PHASE = 0 ∧ (booting 0 id).m.get (F.C_STAT_STATE 7) = 1) ∧
    ((booting 1 id).m.live = true ∧ (booting 1 id).m.get (F.C_STAT_STATE 7) = 1) ∧
    (booting 1 id).m.get F.BOOT_STATUS_PHASE = 1 ∧ (booting 2 id).m.get F.BOOT_STATUS_PHASE = 2 ∧
    (booting 3 id).m.get F.BOOT_STATUS_PHASE = 3 ∧ (booting 7 id).m.get F.BOOT_STATUS_PHASE = 7 ∧ (5 : Word) ≠ 0xF1E1A632 ∧
    (let s := booting 1 (fun b => { b with laneArmed := true })
     s.m.boot.laneArmed = true ∧ s.m.boot.laneFrom = none) ∧
    (let s := booting 1 (fun b => { b with laneArmed := true, laneFrom := some 0 })
     s.m.boot.laneFrom = some 0 ∧ s.m.lnState ≠ 7) ∧
    (booting 1 (fun b => { b with laneFail := some 0 })).m.boot.laneFail = some 0 := by decide +kernel

/-- An image of 144 bytes, newest word first: the magic word, FLAGS with SIGNED, LENGTH, a public key (twice the generator) and
a signature of the SHA-256 of the bytes before it, made outside the model by the algorithm of FIPS 186. -/
def signedImage : List (BitVec 32) :=
  [0x0, 0xFDF9D227, 0x2ED41752, 0xFB858555, 0x938F8D7C, 0x27E8D226, 0xEF373B3C, 0x93A6CEA9, 0x2A70AED8, 0x6CFDE7C6, 0x1B6641FB,
   0x85A9ADEF, 0x21B7C6E6, 0x65F14B1D, 0x95EFF7C8, 0x440A33A6, 0xD1E4CB5E, 0xD1737822, 0x9DB7049E, 0x2982E93C, 0xE6AD7DBA,
   0xDB30749F, 0xC69A3D29, 0x40D08EDB, 0x10557707, 0x78996647, 0xFC480BA6, 0x351BF277, 0xE26989C0, 0xC31AB504, 0x338528A,
   0x7E4F038D, 0x187BF27C, 0x90, 0x10001, 0xF1E1A632]

/-- The check of the statement on an image. -/
def signed (img : List (BitVec 32)) : Bool :=
  let b := imgBytes img (imgLen img)
  let n := imgLen img
  ecdsaOk ((b.drop (n - 132)).take 64) ((b.drop (n - 68)).take 64) (sha256 (b.take (n - 68)))

theorem witness_BootChecking_signature : signed signedImage = true := by decide +kernel

/-- Nothing in the way of the calibrations of CHECKING. -/
theorem witness_BootChecking : (booting 3 id).m.live = true ∧ (booting 3 id).m.get (F.C_STAT_STATE 7) = 1 ∧
    (booting 3 id).m.boot.held = false ∧
    (booting 3 id).m.get F.BOOT_STATUS_PHASE = 3 ∧ (booting 3 id).m.boot.sigDone = false ∧ signed [] = false ∧
    (booting 3 id).m.boot.bistDone = false ∧ (∀ a ∈ (booting 3 id).m.eccBad, inCoreMem a = false) ∧
    (booting 3 id).m.boot.calBegun = false ∧ (booting 3 id).m.boot.vSince.isSome = true ∧ (booting 3 id).m.boot.aSince.isSome = true ∧
    imgNoCal (booting 3 id).m.boot.img = false ∧
    (∀ h : Fin 6, (booting 3 id).m.headEn h = true ∧ (booting 3 id).m.get (F.H_TPG_CTL_RUN h) = 0 ∧
      (booting 3 id).m.get (F.H_TPG_STAT_BUSY h) = 0 ∧ (booting 3 id).m.get (F.H_VADC_CTL_SWEEP h) = 0 ∧
      (booting 3 id).m.get (F.H_VADC_CTL_CAL h) = 0 ∧ ((booting 3 id).m.head h).vadc.calEnd = none) ∧
    (booting 3 id).m.get F.BOOT_ANA_VREF_EN = 1 ∧
    (let s := booting 3 (fun b => { b with sigDone := true, bistDone := true, calBegun := true })
     s.m.allPassed = true ∧ s.m.boot.laneFrom = none) := by decide +kernel

theorem witness_Fuses : (booting 1 id).m.live = true ∧ (booting 1 id).m.get F.BOOT_FUSE_PGM_BUSY = 0 ∧
    (let s := booting 1 (fun b => { b with arm := some 0 })
     (s.m.boot.arm = some 0 ∧ s.m.now ≤ 0 + 3000000) ∧ (258#9).toNat < 259 ∧ s.m.get F.BOOT_STATUS_PHASE = 1 ∧
       (BitVec.ofNat 16 (s.m.get F.SHR_TEMP_TEMP)).toInt ≤ 85 * 16) ∧
    ¬ (259#9).toNat < 259 ∧ (booting 1 (fun b => { b with blow := some (258, 0) })).m.boot.blow = some (258, 0) := by decide +kernel

/-- A set in which fields stand at values. -/
def setOf (l : List (Fld × Nat)) : Sparse 32 := (l.foldl (fun (m : Mach) (p : Fld × Nat) => m.put p.1 p.2) {}).regs

/-- Head 0 changed, with registers and active fields set. -/
def head0 (f : HeadSt → HeadSt) (l a : List (Fld × Nat)) : State :=
  mach l (fun m => { m with heads := m.heads.set 0 (f m.heads[0]), actSet := setOf a })

/-- A line of head 0 whose pattern runs. -/
def line0 (a : List (Fld × Nat)) : LineCtx :=
  { sync := 0, set := setOf a, pos := 0, late := false, lateDelay := 0, trans := false, drops := 0, cseq := none, slot := none,
    sweep := none, refRun := false, frame := false, lampoff := false, active := true, done := false }

def tpg0 (t : TpgSt) (l a : List (Fld × Nat)) : State := head0 (fun x => { x with tpg := t }) l a

/-- Head 0 runs under a valid pattern. -/
def goes : List (Fld × Nat) := [(F.H_TPG_CTL_RUN 0, 1), (F.H_TPG_STAT_PATERR 0, 0)]

/-- A running head whose pattern stands, not idle. -/
def busy : State := tpg0 { lines := [line0 []], held := some { sync := 16, pos := 0 } } goes []

theorem witness_LineTriggers : (on []).m.live = true ∧ (on []).m.accepts 0 = false ∧
    (let s := tpg0 {} goes []
     s.m.accepts 0 = true ∧ (s.m.head 0).tpg.lastTrig ≠ some s.m.now ∧ (s.m.head 0).tpg.await = none ∧
       (s.m.head 0).tpg.held = none ∧ (s.m.head 0).tpg.active = none) ∧
    (busy.m.accepts 0 = true ∧ (busy.m.head 0).tpg.lastTrig ≠ some busy.m.now ∧ (busy.m.head 0).tpg.active = some (line0 []) ∧
      busy.m.now < (line0 []).sync + patLen (line0 []).set 0 ∧ (busy.m.head 0).tpg.held.isSome = true ∧
      busy.m.get (F.H_TPG_CNT_DROP 0) < 0xFFFF) ∧
    (let s := tpg0 { lines := [line0 []] } goes []
     s.m.accepts 0 = true ∧ (s.m.head 0).tpg.active.isSome = true ∧ (s.m.head 0).tpg.held = none) ∧
    (tpg0 {} [] [(F.H_TPG_SYNC_SRC 0, 2)]).m.trigSrc 0 = 2 ∧ (on []).m.trigSrc 0 ≠ 2 ∧
    (let s := tpg0 { timerDue := some 0 } goes [(F.H_TPG_SYNC_SRC 0, 1)]
     s.m.trigSrc 0 = 1 ∧ (s.m.head 0).tpg.timerDue = some 0 ∧ 0 ≤ s.m.now ∧ s.m.accepts 0 = true ∧
       (s.m.head 0).tpg.lastTrig ≠ some s.m.now ∧ (s.m.head 0).tpg.await = none ∧ (s.m.head 0).tpg.held = none ∧
       (s.m.head 0).tpg.active = none) ∧
    busy.m.get (F.H_TPG_CTL_RUN 0) = 1 := by decide +kernel

theorem witness_Lines :
    (let w : Await := { sync := 0, pos := 5, late := some 16 }
     let s := tpg0 { await := some w } goes []
     s.m.live = true ∧ (s.m.head 0).tpg.await = some w ∧ 0 ≤ s.m.now ∧ s.m.commitTick (headCommit 0) = none ∧
       s.m.get (F.H_TPG_STAT_PATERR 0) = 0 ∧ s.m.get (F.H_TPG_CNT_LATE 0) < 0xFFFF ∧ (s.m.head 0).tpg.stopped = false) ∧
    (let s := tpg0 { await := some { sync := 0, pos := 5 } } [(F.H_TPG_CTL_RUN 0, 1), (F.H_TPG_STAT_PATERR 0, 3)] []
     s.m.get (F.H_TPG_STAT_PATERR 0) ≠ 0 ∧ (s.m.head 0).tpg.held = none) ∧
    (let s := mach [] (fun m => { m with sysTime := 100000, heads := m.heads.set 0 { m.heads[0] with tpg := { lines := [line0 []] } } })
     (s.m.head 0).tpg.active = some (line0 []) ∧ (line0 []).sync + patLen (line0 []).set 0 ≤ s.m.now) ∧
    (let l := { line0 [] with slot := some 0, cseq := some 1 }
     let s := tpg0 { lines := [l] } [] []
     (s.m.head 0).tpg.lines.find? (fun k => !k.done) = some l ∧ (s.m.head 0).shd.bad = [] ∧ (s.m.ring 0).pages = [] ∧
       s.m.pageState ≠ 3) ∧
    (let a : List (Fld × Nat) := [(F.H_TPG_EDGE_EN 0 63, 1), (F.H_TPG_EDGE_OUT 0 63, 8), (F.H_TPG_EDGE_LEVEL 0 63, 1)]
     ((tpg0 { lines := [line0 a] } [] []).m.head 0).tpg.active = some (line0 a) ∧
       edgeEffect (line0 a).set 0 (.entry 63) = some (8, true, 0) ∧ (on []).m.get F.SHR_STATUS_SAFE = 0) := by decide +kernel

theorem witness_FrontEnd :
    (let s := on goes
     s.m.live = true ∧ s.m.get (F.H_TPG_CTL_RUN 0) = 1 ∧ s.m.get (F.H_TPG_STAT_PATERR 0) = 0 ∧
       s.m.get (F.H_VADC_CTL_SWEEP 0) = 0 ∧ (s.m.head 0).vadc.calEnd = none ∧ s.m.get (F.H_VADC_CTL_CAL 0) = 0 ∧
       (s.m.head 0).tpg.stopped = false) ∧
    (let l := { line0 [] with sweep := some 15 }
     let s := tpg0 { lines := [l] } [(F.H_VADC_CTL_SWEEP 0, 1)] []
     (s.m.head 0).tpg.lines.find? (fun k => k.sweep = some 15) = some l ∧ s.m.get (F.H_VADC_CTL_SWEEP 0) = 1) ∧
    ((on []).m.get (F.H_TPG_CTL_RUN 0) = 0 ∧ (on []).m.get (F.H_TPG_STAT_BUSY 0) = 0 ∧ (on []).m.headEn 0 = true ∧
      (on []).m.get F.BOOT_ANA_VREF_EN = 1) ∧
    (let s := head0 (fun x => { x with vadc := { x.vadc with calEnd := some 0 } }) [] []
     (s.m.head 0).vadc.calEnd = some 0 ∧ s.m.get F.BOOT_STATUS_PHASE = 4 ∧ (s.m.head 0).tpg.stopped = false) ∧
    (let a : List (Fld × Nat) := [(F.H_TPG_LINE_DARK 0, 4), (F.H_VADC_DKWIN_DKLO 0, 5), (F.H_VADC_DKWIN_DKHI 0, 9)]
     let s := tpg0 { lines := [line0 a] } [] []
     let l := line0 a
     s.m.checkedLine 0 ((VadcCheck.dark 0).due 0) = some l ∧ (s.m.head 0).tpg.stopped = false ∧ (s.m.head 0).vadc.inject = none ∧
       0 ≤ setGet l.set (F.H_TPG_FIELDS_NFLD 0) ∧
       (List.range 8).any (fun j => slotFails (setGet l.set (F.H_AFE_OFS_OFS 0)) (setGet l.set (F.H_VADC_CHK_TOL 0)) j 0
         ([16383, 16383, 16383, 16383, 16383, 16383, 16383, 16383].getD j 0)) = true ∧
       darkM (setGet l.set (F.H_TPG_LINE_DARK 0)) = 2 ∧
       ([4, 4, 4, 4].take (2 ^ 2)).foldl (· + ·) 0 / 2 ^ 2 < setGet l.set (F.H_VADC_DKWIN_DKLO 0) ∧
       setGet l.set (F.H_VADC_DKWIN_DKHI 0) < ([10, 10, 10, 10].take (2 ^ 2)).foldl (· + ·) 0 / 2 ^ 2 ∧
       ¬ (([5, 5, 5, 9].take (2 ^ 2)).foldl (· + ·) 0 / 2 ^ 2 < setGet l.set (F.H_VADC_DKWIN_DKLO 0) ∨
         setGet l.set (F.H_VADC_DKWIN_DKHI 0) < ([5, 5, 5, 9].take (2 ^ 2)).foldl (· + ·) 0 / 2 ^ 2)) ∧
    darkM (setGet (line0 []).set (F.H_TPG_LINE_DARK 0)) = 0 := by decide +kernel

theorem witness_Shading :
    (let s := on [(F.H_SHD_PADDR_BANK 0, 1), (F.H_SHD_PADDR_INDEX 0, 16399)]
     s.m.live = true ∧ s.m.shdInRange 0 = true ∧ s.m.get (F.H_SHD_PADDR_BANK 0) = 1 ∧ s.m.shdLocked 0 1 = false ∧
       s.m.get (F.H_SHD_PADDR_AREA 0) = 0) ∧
    (let s := on [(F.H_SHD_PADDR_AREA 0, 1), (F.H_SHD_PADDR_BANK 0, 1), (F.H_SHD_PADDR_INDEX 0, 4095)]
     s.m.shdInRange 0 = true ∧ s.m.get (F.H_SHD_PADDR_AREA 0) = 1) ∧
    (on [(F.H_SHD_PADDR_INDEX 0, 16400)]).m.shdInRange 0 = false ∧ (on []).m.shdLocked 0 0 = true ∧
    (let s := on goes
     s.m.get (F.H_SHD_REF_GO 0) = 0 ∧ s.m.get (F.H_TPG_CTL_RUN 0) = 1 ∧ s.m.get (F.H_TPG_STAT_PATERR 0) = 0 ∧
       s.m.get (F.H_VADC_CTL_SWEEP 0) = 0 ∧ s.m.get (F.H_VADC_CTL_CAL 0) = 0 ∧ (8#4).toNat ≤ 8) ∧
    ((on []).m.get (F.H_TPG_CTL_RUN 0) = 0 ∧ ((on []).m.head 0).tpg.stopped = false) ∧
    (let s := head0 (fun x => { x with shd := { x.shd with runLeft := some 0, runBank := 1 } }) [(F.H_SHD_REF_GO 0, 1)] []
     (s.m.head 0).shd.runLeft = some 0 ∧ s.m.live = true ∧ (s.m.head 0).shd.runAccBad 0 = false ∧ (s.m.head 0).shd.runBank < 2 ∧
       (s.m.head 0).shd.runKind = 0 ∧ setGet (s.m.head 0).shd.runSet (F.H_TPG_LINE_NPIX 0) ≤ 16384) := by decide +kernel

/-- Head 0 with its lamp on, a line that runs under fields set, and ILL state. -/
def lamp (x : IllSt) (l a : List (Fld × Nat)) : State :=
  head0 (fun h => { h with tpg := { lines := [line0 a] }, ill := x }) ((F.H_ILL_CTL_EN 0, 1) :: l) a

theorem witness_LampWindows :
    (let a : List (Fld × Nat) := [(F.H_TPG_FLD_EXPS_EXPS 0 0, 16), (F.H_TPG_FLD_EXPE_EXPE 0 0, 32)]
     let s := lamp {} [] a
     s.m.live = true ∧ s.m.runField 0 0 = some (line0 a) ∧
       setGet (line0 a).set (F.H_TPG_FLD_EXPS_EXPS 0 0) < setGet (line0 a).set (F.H_TPG_FLD_EXPE_EXPE 0 0) ∧ s.m.lampOn 0 = true ∧
       (s.m.head 0).ill.dark = false) ∧
    (lamp { window := some 0 } [] []).m.runField 0 0 = some (line0 []) ∧
    ((lamp { window := some 0 } [] []).m.head 0).ill.window.isSome = true ∧ (on []).m.kmode 0 3 ≠ 2 ∧
    (lamp {} [] [(F.H_ILL_ROW_KMODE 0 3, 2)]).m.kmode 0 3 = 2 ∧ (on []).m.get (F.H_ILL_STAT_STBUSY 0) = 0 ∧
    (on []).m.get (F.H_ILL_CTL_EN 0) = 0 ∧
    ((lamp { boost := true } [] []).m.lampOn 0 = true ∧ ((lamp { boost := true } [] []).m.head 0).ill.boost = true) ∧
    (let s := lamp { window := some 3 } [] []
     (s.m.head 0).ill.window = some 3 ∧ s.m.lampOn 0 = true ∧ s.m.get (F.H_ILL_FLT_VALID 0) = 0) ∧
    (head0 (fun h => { h with ill := { window := some 3 } }) [] []).m.lampOn 0 = false := by decide +kernel

/-- Head 0 with its lamp off. -/
def dark (x : IllSt) (l a : List (Fld × Nat)) : State := head0 (fun h => { h with ill := x }) l a

theorem witness_LampFrames : (on []).m.live = true ∧ ¬ (on []).m.get (F.H_ILL_CTL_SWAP 0) = 1 ∧
    (let s := on [(F.H_ILL_CTL_SWAP 0, 1)]
     s.m.get (F.H_ILL_CTL_SWAP 0) = 1 ∧ s.m.act (F.H_ILL_CFG_SWSRC 0) = 0 ∧ (s.m.head 0).tpg.idle = true ∧
       (s.m.head 0).tpg.stopped = false ∧ s.m.get (F.H_ILL_CTL_SHAPE 0) = 0) ∧
    ((dark { shEnd := some 0 } [] []).m.head 0).ill.shEnd.isSome = true ∧ (on []).m.get (F.H_ILL_CTL_STEST 0) = 0 ∧
    (on []).m.get (F.H_ILL_STAT_STBUSY 0) = 0 ∧ (on []).m.get (F.H_ILL_CTL_EN 0) = 0 ∧
    (on [(F.H_ILL_CTL_EN 0, 1)]).m.get (F.H_ILL_CTL_EN 0) = 1 ∧
    (((dark { stEnd := some 0 } [] []).m.head 0).ill.stEnd.isSome = true ∧
      ((dark { stEnd := some 0 } [] []).m.head 0).ill.enHeld = false) ∧
    (on [(F.H_ILL_CTL_CASGO 0, 1)]).m.get (F.H_ILL_CTL_CASGO 0) = 1 ∧
    (dark {} [] [(F.H_ILL_CFG_CASEN 0, 1)]).m.act (F.H_ILL_CFG_CASEN 0) = 1 := by decide +kernel

/-- Sequencer 0 of the auxiliary converters changed. -/
def seq0 (x : AuxSeq) (l : List (Fld × Nat)) (f : AuxSt → AuxSt := id) : State :=
  mach l (fun m => { m with sysTime := 768, aux := f { m.aux with seq := m.aux.seq.set 0 x } })

theorem witness_AuxSequencers : ((on []).m.live = true ∧ (∀ c : Fin 2, ((on []).m.seq c).loop = none ∧ ((on []).m.seq c).run = none)) ∧
    ((on []).m.get F.AUX_CTL_CAL = 0 ∧ ((on []).m.seq 0).urg = none ∧ ((on []).m.seq 1).urg = none ∧
      ((on []).m.seq 0).urgEnd = none ∧ ((on []).m.seq 1).urgEnd = none ∧ (on []).m.get (F.AUX_SEQ_RUN 0) = 0 ∧
      (on []).m.get (F.AUX_SEQ_RUN 1) = 0 ∧ (on []).m.auxEn = true ∧ (on []).m.get F.BOOT_ANA_AREF_EN = 1) ∧
    (on [(F.AUX_SEQ_RUN 0, 1)]).m.get (F.AUX_SEQ_RUN 0) = 1 ∧
    ((seq0 {} [] (fun x => { x with calEnd := some 0 })).m.aux.calEnd = some 0 ∧ (on []).m.get F.BOOT_STATUS_PHASE = 4) ∧
    (let s := seq0 { nextStart := some 0 } [(F.AUX_SEQ_RUN 0, 1), (F.AUX_SEQ_START 0, 1)]
     s.m.get (F.AUX_SEQ_RUN 0) = 1 ∧ s.m.auxEn = true ∧ s.m.aux.calEnd = none ∧ s.m.get (F.AUX_SEQ_START 0) = 1 ∧
       (s.m.seq 0).held = false ∧ (s.m.seq 0).nextStart = some 0 ∧ 0 ≤ s.m.now ∧ (s.m.seq 0).free ≤ s.m.now) ∧
    (let s := seq0 {} [(F.AUX_SEQ_RUN 0, 1), (F.AUX_SEQ_START 0, 2), (F.AUX_SEQ_EVSRC 0, 3)]
     s.m.get (F.AUX_SEQ_START 0) = 2 ∧ s.m.get (F.AUX_SEQ_EVSRC 0) ≤ 3) ∧
    (let p : AuxPend := { ent := 31, lo := 0, hi := 0, sw := 0, pos := none, neg := none, slots := [64], urg := false, loop := 0 }
     let s := seq0 { land := [p] } []
     (s.m.seq 0).land = [p] ∧ recBlank p.lo = false ∧ p.ent < 32) ∧
    (on [(F.AUX_URG_GO 0, 1)]).m.get (F.AUX_URG_GO 0) = 1 ∧ (on []).m.get (F.AUX_URG_GO 0) = 0 ∧
    ((on [(F.AUX_ENTL_EN 0 31, 1)]).m.get (F.AUX_ENTL_EN 0 31) = 1 ∧ (on [(F.AUX_ENTL_EN 0 31, 1)]).m.half 0 31 = false ∧
      (on []).m.aux.calEnd = none ∧ (on []).m.get (F.AUX_ENTL_EN 0 31) = 0) ∧
    (let s := seq0 { urg := some (31, 0) } []
     (s.m.seq 0).urg = some ((31 : Fin 32).val, 0) ∧ 0 / 64 * 64 + 64 ≤ s.m.now ∧ s.m.auxEn = true) ∧
    (on []).m.get F.AUX_STAT_XARMED = 0 ∧ (on [(F.AUX_STAT_XARMED, 1)]).m.get F.AUX_STAT_XARMED = 1 := by decide +kernel

theorem witness_AuxEntries : (on []).m.live = true ∧ (∀ c : Fin 2, ((on []).m.seq c).loop = none) ∧
    (on []).m.get F.AUX_CFG_REFSEL ≠ ((0x40000000 : Word) >>> 30).toNat ∧ (on []).m.excOn 2 = false ∧
    (on [(F.AUX_VEX_EN, 1)]).m.excOn 2 = true ∧ (on []).m.get F.AUX_STAT_REFRDY = 0 ∧ (on []).m.get F.BOOT_ANA_AREF_EN = 1 := by
  decide +kernel

theorem witness_Triggers :
    (let s := on [(F.TRG_U_CFG_EN 0, 1), (F.TRG_U_LVL_L2 0, 0x8000), (F.TRG_U_LVL_L1 0, 0x8000)]
     s.m.live = true ∧ s.m.get (F.TRG_U_CFG_EN 0) = 1 ∧ s.m.get (F.TRG_U_CFG_KIND 0) = 0 ∧ s.m.get (F.TRG_U_LVL_L2 0) ≠ 0 ∧
       s.m.get (F.TRG_U_CFG_LEAVE 0) = 0 ∧ s.m.pageState = 0 ∧
       ((0x8000#16).toNat ^^^ s.m.get (F.TRG_U_LVL_L1 0)) &&& s.m.get (F.TRG_U_LVL_L2 0) = 0) ∧
    (let s := mach [(F.TRG_U_CFG_EN 7, 1), (F.TRG_U_CFG_KIND 7, 4)] (fun m => { m with
       trg := { m.trg with units := m.trg.units.set 7 { up1 := some 0, armed := true } } })
     (s.m.unit 7).up1 = some 0 ∧ (s.m.unit 7).armed = true ∧ s.m.get (F.TRG_U_CFG_EN 7) = 1 ∧
       s.m.get (F.TRG_U_CFG_KIND 7) = 4) ∧
    (let s := on [(F.TRG_STAT_STATE, 2), (F.TRG_CTL_PSSRC, 31), (F.TRG_R_CTL_EN 5, 1)]
     s.m.pageState = 2 ∧ s.m.get F.TRG_CTL_PSSRC = 16 + (15 : Fin 16).val ∧ s.m.trg.swtAt[15] ≠ s.m.now / 4 + 1 ∧
       s.m.trg.held = none ∧ s.m.ringOn 5 = true ∧ ∀ h : Fin 6, s.m.ringOn h = true → (s.m.ring h).syncs = []) ∧
    (let s := mach ([0, 1, 2, 3, 4, 5].flatMap (fun (h : Nat) => [(F.H_TPG_CTL_RUN h, 1), (F.H_TPG_STAT_PATERR h, 0)]))
       (fun m => { m with actSet := setOf ([0, 1, 2, 3, 4, 5].map (fun (h : Nat) => (F.H_TPG_SYNC_SRC h, 3))) })
     ∀ h : Fin 6, s.m.trigSrc h = 3 ∧ s.m.accepts h = true ∧ (s.m.head h).tpg.lastTrig ≠ some s.m.now ∧
       (s.m.head h).tpg.await = none ∧ (s.m.head h).tpg.held = none ∧ (s.m.head h).tpg.active = none) := by decide +kernel

/-- A ring of one slot of 64 bytes behind its page record. -/
def ringOk : List (Fld × Nat) := [(F.TRG_R_BASE_BASE 0, 0), (F.TRG_R_SLOT_SLOT 0, 256), (F.TRG_R_NSLOT_NSLOT 0, 4),
  (F.TRG_R_PRBASE_PRBASE 0, 0x10000), (F.TRG_R_PRE_PRE 0, 0)]

theorem witness_PagesAndRings : (on []).m.live = true ∧ (on [(F.TRG_STAT_STATE, 1)]).m.pageState = 1 ∧
    (on [(F.TRG_STAT_STATE, 2)]).m.pageState ≠ 1 ∧
    ((on [(F.TRG_STAT_STATE, 3)]).m.pageState = 3 ∧ (on [(F.TRG_STAT_STATE, 3)]).m.trg.held = none) ∧
    (on []).m.pageState ≠ 3 ∧ (on []).m.get F.TRG_CTL_EN = 0 ∧
    (let s := on [(F.TRG_STAT_STATE, 2), (F.TRG_CTL_AUTO, 1)]
     s.m.get F.TRG_CTL_AUTO = 1 ∧ s.m.pageState = 2 ∧ s.m.get F.TRG_CNT_AUTOS < 0xFFFF ∧ s.m.trg.held = none ∧
       ∀ h : Fin 6, s.m.ringOn h = true → (s.m.ring h).syncs = []) ∧
    (on []).m.get (F.TRG_R_CTL_EN 0) = 0 ∧ (on []).m.ringCheck 0 ≠ 0 ∧ (on ringOk).m.ringCheck 0 = 0 ∧
    (let s := on [(F.TRG_R_WCNT_N 0, 65535)]
     65535 ≤ s.m.fill 0 ∧ (s.m.ring 0).lines.length ≤ 65535 + s.m.get (F.TRG_R_PRE_HIST 0)) ∧
    (on []).m.fill 0 < 1 := by decide +kernel

/-- Axis 0 changed. -/
def axis0 (x : AxisSt) (l : List (Fld × Nat)) : State :=
  mach l (fun m => { m with sysTime := 3000, axes := m.axes.set 0 x })

theorem witness_MotionIntervals :
    (let s := axis0 { v := 2 ^ 40, moved := 1 } [(F.HAL_AX_STAT_STATE 0, 1)]
     s.m.live = true ∧ s.m.get F.BWL_CTL_EN = 0 ∧ s.m.miDue < 2 ^ 64 ∧ s.m.get (F.HAL_AX_CTL_ENC 0) = 0 ∧
       s.m.get (F.HAL_AX_CTL_ENC 1) = 0 ∧ s.m.bwl.pend = none ∧ s.m.bwl.stop = 0 ∧ s.m.reef.wrote = [] ∧
       s.m.get (F.HAL_AX_STAT_STATE 1) = 0 ∧ (s.m.axis 1).starting = false ∧ s.m.get (F.HAL_AX_CTL_HOLD 0) = 0 ∧
       s.m.schedHeads 0 = [] ∧ s.m.commitTick (axisCommit 0) = none ∧ s.m.get (F.HAL_AX_STAT_STATE 0) = 1 ∧
       (s.m.axis 0).starting = false ∧ s.m.act (F.HAL_AX_MODE_MODE 0) = 0 ∧ s.m.act (F.HAL_AX_MODE_REEFEN 0) = 0 ∧
       (s.m.axis 0).v ≠ 0) ∧
    (axis0 { starting := true } []).m.axes[0].starting = true ∧
    (mach [] (fun m => { m with reef := { m.reef with eff := setOf [(F.REEF_CTL_FORCE, 1)] } })).m.reefGet F.REEF_CTL_FORCE = 1 := by
  decide +kernel

/-- What arms Shroud. -/
def shroudArmed : List (Fld × Nat) := [(F.SHR_CTL_PROFILE, 1), (F.C_EVT_EN_EN 7, 1), (F.AUX_STAT_XARMED, 1)]

theorem witness_StepsAndEncoders : (on []).m.live = true ∧ ((on []).m.axis 0).due = [] ∧
    (let s := axis0 { due := [(10, true)] } []
     (s.m.axis 0).due = (10, true) :: [] ∧ (s.m.axis 0).posev = none) ∧
    (on []).m.get (F.HAL_HEAD_EN 0) = 0 ∧
    (let s := axis0 { schedOn := true, lps := 65536, next := (Vector.replicate 6 0).set 0 1,
                      hist := [(0, 65535 * 2 ^ 44)], p := 65536 * 2 ^ 44 } [(F.HAL_HEAD_EN 0, 1)]
     s.m.get (F.HAL_HEAD_EN 0) = 1 ∧ s.m.axisOf 0 = 0 ∧ (s.m.axis 0).schedOn = true ∧ s.m.get F.BWL_CTL_EN = 0 ∧
       (s.m.axis 0).lineAt (s.m.halPh 0) (s.m.axis 0).next[0] = some 65536 ∧
       (s.m.axis 0).segs.find? (fun g => decide (g.p0 < 65536 * 2 ^ 44) && decide (65536 * 2 ^ 44 ≤ g.p1)) =
         some { b0 := 0, len := 3000, p0 := 65535 * 2 ^ 44, p1 := 65536 * 2 ^ 44 }) ∧
    (tpg0 {} goes []).m.trigSrc 0 = 0 ∧ (on []).m.get (F.HAL_AX_FLT_QCNT 0) < 0xFFFF ∧
    ¬ ((on []).m.get (F.HAL_AX_CTL_ENC 0) = 1 ∧ (on []).m.armed = true) ∧
    ((on ((F.HAL_AX_CTL_ENC 0, 1) :: shroudArmed)).m.get (F.HAL_AX_CTL_ENC 0) = 1 ∧
      (on ((F.HAL_AX_CTL_ENC 0, 1) :: shroudArmed)).m.armed = true) := by decide +kernel

theorem witness_AxisCommands : (on []).m.live = true ∧ ((on []).m.axis 0).moving = false ∧
    ((axis0 { v := 1 } []).m.axis 0).moving = true ∧ (on [(F.HAL_AX_STAT_STATE 0, 5)]).m.get (F.HAL_AX_STAT_STATE 0) = 5 ∧
    (¬ (on []).m.get (F.HAL_AX_CTL_EN 0) = 1 ∧ ((on []).m.axis 0).needPlan = false ∧ (on []).m.get F.SHR_STATUS_SAFE = 0 ∧
      (on []).m.mirrored = false) ∧
    (let s := axis0 { v := 1 } [(F.HAL_AX_CTL_EN 0, 1), (F.HAL_AX_STAT_STATE 0, 1)]
     s.m.get (F.HAL_AX_CTL_EN 0) = 1 ∧ s.m.mirrored = false ∧ s.m.get (F.HAL_AX_STAT_STATE 0) ≠ 6 ∧ (s.m.axis 0).moving = true) ∧
    (let s := axis0 {} [(F.HAL_AX_CTL_EN 0, 1), (F.HAL_AX_STAT_STATE 0, 3)]
     (s.m.axis 0).moving = false ∧ s.m.get (F.HAL_AX_STAT_STATE 0) ≠ 0) ∧
    (on [(F.SHR_STATUS_SAFE, 1)]).m.get F.SHR_STATUS_SAFE = 1 ∧ ((on []).m.axis 0).dirFwd ≠ some false ∧
    ((on []).m.get (F.HAL_AX_STAT_STATE 0) = 0 ∧ ((on []).m.axis 0).posev = none) ∧
    ((on []).m.get (F.HAL_AX_CTL_EN 0) = 0 ∧ (on []).m.get (F.HAL_AX_CTL_EN 1) = 0) ∧
    ((on [(F.HAL_AX_CTL_EN 0, 1), (F.HAL_AX_CTL_EN 1, 1)]).m.get (F.HAL_AX_CTL_EN 0) = 1 ∧
      (on [(F.HAL_AX_CTL_EN 0, 1), (F.HAL_AX_CTL_EN 1, 1)]).m.get (F.HAL_AX_CTL_EN 1) = 1) := by decide +kernel

/-- A page of one line. -/
def page0 : HeadPage :=
  { pageno := 1, auto := false, startSrc := 0, startTime := 0, posRule := false, startPos := 0,
    endmode := false, first := some 0, last := some 0, closed := true }

/-- A linked picture of that page on the encode engine, one sample wide. -/
def pic0 : BcPic :=
  { ctx := 0, set := [], key := false, req := false, picno := 7, head := 0, pageno := 1, first := 0, y0 := 0,
    w := 1, bytes := 14, coded := none, out := [], grew := false }

def encoding (l : List (Fld × Nat)) (x : BcCtx) (p : BcPic) : State :=
  mach l (fun m => { m with bc := { m.bc with enc := some p, ctx := m.bc.ctx.set 0 x } })

def pages0 (s : State) : State :=
  { s with m := { s.m with trg := { s.m.trg with rings := s.m.trg.rings.set 0 { pages := [page0], lastC := some 0 } } } }

def encodingPage : State := pages0 (encoding [] { ref := some (0, 1) } pic0)

/-- A configuration that the checks of R712 pass. -/
def cfgOk : List (Fld × Nat) := [(F.BC_CTX_REFBASE_OFS 0, 0x10000), (F.BC_CTX_REFSIZE_SIZE 0, 0),
  (F.BC_CTX_IOBASE_OFS 0, 0x20000), (F.BC_CTX_IOSIZE_SIZE 0, 0x2000)]

def ctxOk : State := mach [] (fun m => { m with actSet := setOf cfgOk })

/-- Context 0 waits for a page that stands there. -/
def toEncode : State :=
  pages0 (mach [(F.BC_CTX_CTL_EN 0, 1), (F.BC_CTX_STAT_STATE 0, 1)] (fun m => { m with
    actSet := setOf cfgOk, bc := { m.bc with ctx := m.bc.ctx.set 0 { why := 1 } } }))

/-- A STREAM, a key picture's PIC, an END too short to read, and SEND: mode C completes the picture. -/
def stream0 : List Byte :=
  unitBytes 0xB0 (StreamHdr.payload { ctx := 0, depth := 0, npl := 0, prow := 0, w := 64, band := 0 }) ++
  unitBytes 0xB1 (PicHdr.payload { picno := 5, ptype := 0, req := 0, head := 0, pageno := 0, first := 0 }) ++
  unitBytes 0xB3 [0x80] ++ [0, 0, 1, 0xB4]

/-- Context 0 decodes from a ring of 256 bytes that holds these. -/
def input (b : List Byte) (dec : Option Nat) (l : List (Fld × Nat)) : State :=
  mach [(F.BC_CTX_CTL_EN 0, 1), (F.BC_CTX_STAT_STATE 0, 1), (F.BC_CTX_WP_WP 0, b.length)] (fun m =>
    { m.putBytes lineBase b with actSet := setOf ([(F.BC_CTX_CFG_DIR 0, 1), (F.BC_CTX_IOSIZE_SIZE 0, 256)] ++ l),
                                 bc := { m.bc with dec := dec } })

def decoding (b : List Byte) (l : List (Fld × Nat)) : State := input b (some 0) l
def toDecode : State := input stream0 none []

theorem witness_CodecContexts :
    (let s := on [(F.BC_CTX_REFSIZE_SIZE 15, 0)]
     s.m.live = true ∧ s.m.bcDec 15 = false ∧ s.m.get (F.BC_CTX_CTL_EN 15) = 0 ∧ s.m.bc.enc = none ∧ s.m.bcBusy 15 = false) ∧
    (on []).m.bcCheckCfg 0 ≠ 0 ∧ ctxOk.m.bcCheckCfg 0 = 0 ∧ (on [(F.BC_CTX_CTL_EN 0, 1)]).m.get (F.BC_CTX_CTL_EN 0) = 1 ∧
    (encoding [(F.BC_CTX_CTL_EN 0, 1)] {} pic0).m.bcBusy 0 = true ∧ (encoding [] {} pic0).m.bc.enc.isSome = true ∧
    (let s := mach [(F.BC_CTX_CTL_EN 0, 1)] (fun m => { m with actSet := setOf [(F.BC_CTX_CFG_DIR 0, 1)] })
     s.m.bcDec 0 = true ∧ s.m.get (F.BC_CTX_CTL_EN 0) = 1) ∧
    (let s := mach [] (fun m => { m with sysTime := 3072000, bc := { m.bc with capHi := true } })
     s.m.bc.capFrom + 3072000 ≤ s.m.now ∧ s.m.bc.capHi = true) ∧
    (let s := mach [] (fun m => { m with sysTime := 192000000 })
     s.m.bc.capHi = false ∧ s.m.bc.capBusy = false ∧ (∀ c, s.m.backlog c = 0) ∧ s.m.bc.capRise + 192000000 ≤ s.m.now) := by
  decide +kernel

theorem witness_Pictures_starts : (on []).m.live = true ∧ (encoding [] {} pic0).m.bc.enc.isSome = true ∧
    (decoding [] []).m.bc.dec.isSome = true ∧
    (toEncode.m.get F.CLK_GATE_BC_EN = 1 ∧ toEncode.m.bc.enc = none ∧ (∀ d, (toEncode.m.bcCtx d).units = []) ∧
      toEncode.m.encNext = some 0 ∧ (toEncode.m.bcCtx 0).why ≠ 0) ∧
    (toDecode.m.get F.CLK_GATE_BC_EN = 1 ∧ toDecode.m.bc.dec = none ∧
      (ctxOrder toDecode.m.bc.decLast).find? (fun d => toDecode.m.bcEn d && toDecode.m.bcDec d && decide (toDecode.m.bcState d = 1) &&
        (match nextUnit (toDecode.m.inputBytes d) with | some u => u.whole | none => false)) = some 0) := by decide +kernel

/-- A linked picture of one SKIP macroblock, one line high. -/
theorem witness_Pictures_encode :
    (let s := encodingPage
     let c : Fin 16 := 0
     let x := s.m.bcCtx c
     let ref := x.ref.getD (0, 1)
     s.m.bc.enc = some pic0 ∧ pic0.ctx = c.val ∧ pic0.coded = none ∧
       (s.m.ring (headFin pic0.head)).pages.find? (fun q => decide (q.pageno = pic0.pageno)) = some page0 ∧
       page0.picLines pic0.y0 (setGet pic0.set (F.BC_CTX_RATE_BAND c)) = some 1 ∧ page0.closed = true ∧
       [[true]].length = ceilDiv 1 16 ∧
       (codeRows pic0.set c pic0.key (s.m.get F.REEF_STAT_LEVEL) (bcPar pic0.set c pic0.w)
         (s.m.areaSample pic0.set c (bcPar pic0.set c pic0.w) ref.1 ref.2) 0 { b := pic0.bytes, last := x.q, fallback := false }
         [[true]]).isSome = true) ∧
    ((encoding [] {} pic0).m.get (F.BC_CTX_STAT_OSTALL 0) = 0) ∧
    (let p := { pic0 with set := setOf [(F.BC_CTX_IOSIZE_SIZE 0, 8192)], coded := some (1, true, false),
                          out := [{ bytes := [1], check := none }] }
     let s := encoding [(F.BC_CTX_STAT_OSTALL 0, 1)] {} p
     s.m.bc.enc = some p ∧ s.m.get (F.BC_CTX_STAT_OSTALL 0) = 1 ∧ (s.m.bcCtx 0).units = [] ∧
       max 4096 1 ≤ setGet p.set (F.BC_CTX_IOSIZE_SIZE 0)) := by decide +kernel

def check0 : BcCheck :=
  { ctx := 0, row := 0, ofs := 0, len := 0, linked := false, crc := 0, refHalf := 0, refH := 1, w := 64, set := [] }

/-- A run of the decoder over the input of context 0, as the statement has it. -/
def runOf (s : State) : DecRun :=
  let bytes := s.m.inputBytes 0
  decLoop s.m 0 (decide (s.m.act (F.BC_CTX_CFG_DMODE 0) = 1)) (bytes.length + 1) bytes
    { used := 0, cx := s.m.bcCtx 0, errs := [], pic := none, rows := [], conc := [], bytes := 0, save := none, stop := false,
      fin := none }

theorem witness_Pictures_decode : (decoding [] []).m.bc.dec = some 0 ∧ (decoding [] []).m.inputBytes 0 = [] ∧
    (let s := decoding stream0 []
     (runOf s).cx.closing = false ∧ (runOf s).fin.isSome = true ∧ (runOf s).pic.isSome = true ∧ (runOf s).cx.seq.isSome = true ∧
       s.m.act (F.BC_CTX_CMP_CMPEN 0) = 0) ∧
    (let s := decoding [0, 0, 1, 0xB0, 0, 0, 1, 0xB4] [(F.BC_CTX_CFG_DMODE 0, 1)]
     (runOf s).fin.isNone = true ∧ (runOf s).stop = true ∧ (runOf s).cx.closing = false) ∧ (on []).m.bc.checks = [] ∧
    (mach [] (fun m => { m with bc := { m.bc with checks := [check0] } })).m.bc.checks = check0 :: [] := by decide +kernel

/-- The lanes changed, with registers set. -/
def lanes (f : LnSt → LnSt) (l : List (Fld × Nat)) : State := mach l (fun m => { m with sysTime := 75000000, ln := f m.ln })

/-- A training set: STATE, lane and ACK, MAXRATE and RATE, MASK and WIDTH, requests, statuses. -/
def tset (s k r w q t : Byte) : List Byte :=
  let b := [1, s, k, r, w, q, t] ++ List.replicate 23 0
  b ++ [crc8 b]

theorem witness_LaneCommands : (on []).m.live = true ∧ (on []).m.anyTest = false ∧ ¬ (on []).m.get F.LN_CTL_EN = 1 ∧
    (let s := on [(F.LN_CTL_EN, 1), (F.LN_STAT_STATE, 2)]
     s.m.anyTest = false ∧ s.m.get F.LN_CTL_EN = 1 ∧ s.m.get F.LN_STAT_STATE ≠ 7 ∧ s.m.get F.LN_STAT_STATE ≠ 8) ∧
    ((on [(F.LNL_CTL_LOCKMODE 3, 1), (F.LN_CTL_TESTRATE, 1), (F.LNL_CTL_PRBSGEN 3, 1), (F.LN_STAT_STATE, 8)]).m.get (F.LNL_CTL_LOCKMODE 3) = 1 ∧
      (on [(F.LNL_CTL_LOCKMODE 3, 1), (F.LN_CTL_TESTRATE, 1), (F.LNL_CTL_PRBSGEN 3, 1), (F.LN_STAT_STATE, 8)]).m.lnRate ≠ 0) ∧
    (on []).m.get (F.LNL_CTL_LOCKMODE 3) = 0 ∧ bits (0x600#32).toNat 10 9 = 3 ∧ (on []).m.testRate = 0 ∧
    bits (0x10#32).toNat 5 4 = 1 ∧ (on [(F.LN_STAT_STATE, 7)]).m.get F.LN_STAT_STATE = 7 ∧
    (on [(F.LN_STAT_STATE, 7)]).m.anyTest = false := by decide +kernel

/-- LN_CTL as DETECT took it, with EN and a mask of one lane. -/
def up (st : Nat) (f : LnSt → LnSt) : State := lanes f [(F.LN_CTL_EN, 1), (F.LN_STAT_STATE, st)]

theorem witness_Training : ((up 1 id).m.live = true ∧ (up 1 id).m.anyTest = false ∧ (up 1 id).m.get F.LN_CTL_EN = 1) ∧
    (up 1 (fun x => { x with cfg := 0xFFFFFFFF })).m.ln.field F.LN_CTL_INIT = 1 ∧
    (let x := (up 1 id).m.ln
     x.field F.LN_CTL_INIT = 0 ∧ (up 1 id).m.get F.LN_STAT_STATE = 1 ∧ x.ref = true ∧ x.pllLock = true ∧ x.fresh = true ∧
       x.idleTo ≤ (up 1 id).m.now) ∧
    ((up 2 id).m.get F.LN_STAT_STATE = 2 ∧ (up 2 id).m.ln.entered + 75000000 ≤ (up 2 id).m.now) ∧
    ((up 6 id).m.get F.LN_STAT_STATE = 6 ∧ (up 6 id).m.ln.entered + 60000000 ≤ (up 6 id).m.now) ∧
    ((up 4 id).m.ln.ref = true ∧ (up 4 id).m.get F.LN_STAT_STATE = 4 ∧ (up 4 id).m.ln.entered + 12000 ≤ (up 4 id).m.now ∧
      (up 4 (fun x => { x with cfg := 0 })).m.ln.eqTable = false) ∧
    parseTs [] = none ∧ (parseTs (tset 2 0 0 1 0 0)).isSome = true ∧ ((up 2 id).m.lane 1).run < 7 ∧
    7 ≤ ((up 2 (fun x => { x with lane := x.lane.set 0 { run := 7 } })).m.lane 0).run ∧
    (let s := lanes (fun x => { x with ackFrom := some 0, peer := (0, 1), peerRun := 7, ackRun := 7, cfg := 0 })
       [(F.LN_CTL_EN, 1), (F.LN_STAT_STATE, 3), (F.LNL_STAT_BLOCK 0, 1)]
     let f := (parseTs (tset 3 0x80 0 0x11 0 0)).getD ⟨0, false, 0, 0, 0, 0, 0, 0, 0, false, 0, 0, false⟩
     s.m.get F.LN_STAT_STATE = 3 ∧ s.m.ln.ackFrom = some 0 ∧ s.m.lnAligned = s.m.ln.mask ∧ f.state = 3 ∧
       (f.maxRate, f.mask) = s.m.ln.peer ∧ f.ack = true ∧ f.rate = min s.m.ln.maxRate f.maxRate ∧
       f.width = widthOf (s.m.lnAligned &&& f.mask) ∧ 0 + 12288 ≤ s.m.now) ∧
    ((up 5 id).m.get F.LN_STAT_STATE = 5 ∧ (up 5 id).m.locked = false ∧ (up 5 id).m.get (F.LNL_STAT_BLOCK 3) = 0) ∧
    (let s := up 6 (fun x => { x with width := 4, cfg := 0 })
     let f := (parseTs (tset 6 1 0 1 0x90 0)).map (fun f => (f.reqTog, f.preset))
     s.m.get F.LN_STAT_STATE = 6 ∧ (1 : Fin 4).val < s.m.ln.width ∧ s.m.ln.eqTable = false ∧ f = some (true, 1) ∧
       (s.m.lane 1).ackTog = false) := by decide +kernel

theorem witness_LaneSignals : ((up 7 id).m.live = true ∧ (up 7 id).m.anyTest = false ∧ (up 7 id).m.get F.LN_CTL_EN = 1 ∧
      (up 7 id).m.get F.LN_STAT_STATE = 7) ∧
    ((up 7 (fun x => { x with gone := some 0 })).m.ln.gone = some 0 ∧ 0 + 3000 ≤ (up 7 id).m.now) ∧
    1 < (up 7 (fun x => { x with width := 4 })).m.ln.width ∧
    ((lanes id [(F.LN_STAT_STATE, 7), (F.LNL_STAT_BLOCK 0, 1)]).m.get (F.LNL_STAT_BLOCK 0) = 1 ∧ (0 : Fin 4).val < (up 7 id).m.ln.width) ∧
    (parseTs (tset 2 0 0 1 0 0)).map (fun f => (f.ack, f.state)) = some (false, 2) ∧
    (lanes id [(F.ST_STAT_SESS, 2), (F.ST_CTL_RESUMEEN, 1)]).m.get F.ST_CTL_RESUMEEN = 1 ∧
    (lanes id [(F.ST_CTL_RESUMEEN, 0)]).m.get F.ST_CTL_RESUMEEN = 0 ∧ (up 8 id).m.get F.LN_STAT_STATE = 8 ∧
    (up 2 id).m.get F.LN_STAT_STATE ≠ 7 ∧ (up 7 id).m.ln.width ≤ 1 ∧ (up 7 id).m.ln.gone = none ∧
    (on []).m.get (F.LNL_STAT_CDR 0) = 0 ∧ (on [(F.LNL_STAT_CDR 0, 1)]).m.get (F.LNL_STAT_CDR 0) = 1 ∧
    (lanes id [(F.LN_STAT_STATE, 2), (F.LNL_STAT_BLOCK 0, 1)]).m.get (F.LNL_ERR_N 0) < 2 ^ 31 ∧
    (on []).m.get (F.LNL_CTL_PRBSCHK 0) = 0 ∧ (on [(F.LNL_CTL_PRBSCHK 0, 2)]).m.get (F.LNL_CTL_PRBSCHK 0) = 2 := by decide +kernel

/-- ST changed, with an open session on a link that is up and registers set. -/
def st (x : StSt) (l : List (Fld × Nat)) : State :=
  mach ([(F.LN_STAT_STATE, 7), (F.ST_CTL_EN, 1), (F.ST_STAT_SESS, 2), (F.ST_ADV_IMG, 64), (F.ST_ADV_CTL, 64),
         (F.ST_CRDIMG_AVAIL, 32), (F.ST_CRDCTL_AVAIL, 32)] ++ l) (fun m => { m with sysTime := 30000000, st := x })

def frame (ty seq a b : Nat) (p : List Byte) : Frame := { ty := ty, flags := 0, seq := seq, ack := 65535, a := a, b := b, payload := p }

def entry (ctl : Bool) (n : Nat) : StEntry :=
  { id := 1, ctl := ctl, stream := 0, segs := [(lineBase, n)], len := n, last := true, coded := false }

theorem witness_FramesSent : (on []).m.live = true ∧ (on []).m.mayTx = false ∧
    (let s := st { queue := [entry false 8] } [(F.ST_CTL_IMGRUN, 1)]
     s.m.mayTx = true ∧ s.m.st.imgPick = some (entry false 8) ∧ s.m.get F.ST_CTL_IMGRUN = 1 ∧ s.m.ctlCan = false ∧
       s.m.sendable false (entry false 8).nextLen = true ∧ (∀ a ∈ segAddrs (entry false 8).segs 0 8, s.m.clean a = true)) ∧
    (let s := st { hcpl := [frame 4 0 0 0 []] } []
     s.m.mayTx = true ∧ s.m.st.hcpl = frame 4 0 0 0 [] :: [] ∧ s.m.sendable true 0 = true) ∧
    (let s := st { queue := [entry true 16] } []
     s.m.mayTx = true ∧ s.m.st.hcpl = [] ∧ s.m.st.queue.find? (fun e => e.ctl) = some (entry true 16) ∧
       (entry true 16).started = false ∧ 16 ≤ (entry true 16).len ∧ s.m.sendable true (entry true 16).nextLen = true ∧
       (∀ a ∈ segAddrs (entry true 16).segs 0 16, s.m.clean a = true)) ∧
    (let s := st { rdreq := [63] } []
     s.m.mayTx = true ∧ s.m.st.rdreq = (63 : Fin 64).val :: [] ∧ s.m.sendable true 16 = true) ∧
    (let h : StHeld := { f := frame 1 0 0 0 [], ctl := false, owe := false }
     let s := st { held := [h], replay := true } []
     s.m.sess = 2 ∧ s.m.linkUp = true ∧ s.m.st.held ≠ [] ∧ s.m.st.replay = true ∧ (∀ h ∈ s.m.st.held, h.owe = false) ∧
       (let s := st { held := [h], rounds := 4 } []
        s.m.st.replay = false ∧ s.m.st.ackAt + 3000 * s.m.get F.ST_RPLYT_T ≤ s.m.now ∧ 4 ≤ s.m.st.rounds) ∧
       (st { held := [h], rounds := 3 } []).m.st.rounds < 4) ∧
    (on []).m.offering = false ∧
    ((st {} [(F.ST_STAT_SESS, 0)]).m.offering = true ∧ (st {} [(F.ST_STAT_SESS, 0)]).m.st.offerAt = none) ∧
    (on []).m.st.noticeAt = none ∧
    (let s := st { noticeAt := some 0 } [(F.SHR_STATUS_HELD, 1)]
     s.m.st.noticeAt = some 0 ∧ 0 + 30000000 ≤ s.m.now ∧ s.m.get F.SHR_STATUS_HELD = 1) := by decide +kernel

/-- OPEN: the session, ADV and FREE of both classes, NEXT, and whether it resumes. -/
def openFrame (sid advI freeI resume : Nat) : Frame :=
  frame 0x39 0 0 0 (leBytes 4 sid ++ leBytes 2 advI ++ leBytes 2 64 ++ leBytes 2 freeI ++ leBytes 2 64 ++ leBytes 2 0 ++
    leBytes 1 resume ++ leBytes 1 0)

theorem witness_Sessions : (on []).m.live = true ∧ (st {} []).m.hasSess = true ∧ (on []).m.hasSess = false ∧ (on []).m.sess ≠ 3 ∧
    (let s := st {} [(F.ST_STAT_SESS, 3), (F.ST_RETRY_T, 1)]
     s.m.sess = 3 ∧ s.m.st.suspendAt + 30000000 * s.m.retryOf ≤ s.m.now) ∧
    ((st {} [(F.ST_STAT_SESS, 1)]).m.linkUp = true ∧ (st {} [(F.ST_STAT_SESS, 1)]).m.stOn = true ∧
      (st {} [(F.ST_STAT_SESS, 1)]).m.sess = 1) ∧
    (parseFrame (openFrame 5 4096 4096 0).bytes = .good (openFrame 5 4096 4096 0) true ∧ (openFrame 5 4096 4096 0).broken true = false ∧
      leNat ((openFrame 5 4096 4096 0).payload.take 4) = 5) ∧
    (parseFrame (openFrame 0 64 64 0).bytes = .good (openFrame 0 64 64 0) true ∧ (openFrame 0 64 64 0).broken true = false ∧
      leNat ((openFrame 0 64 64 0).payload.take 4) = 0) ∧
    (parseFrame (openFrame 5 64 64 1).bytes = .good (openFrame 5 64 64 1) true ∧ (openFrame 5 64 64 1).broken true = false ∧
      leNat (((openFrame 5 64 64 1).payload.drop 14).take 1) = 1 ∧ (st {} [(F.ST_STAT_SESS, 3), (F.ST_SID_SID, 5)]).m.sess = 3 ∧
      (st {} [(F.ST_STAT_SESS, 3), (F.ST_SID_SID, 5)]).m.get F.ST_SID_SID = 5) ∧
    (parseFrame (frame 0x3C 0 5 0 []).bytes = .good (frame 0x3C 0 5 0 []) true ∧ (frame 0x3C 0 5 0 []).broken true = false ∧
      (st {} [(F.ST_SID_SID, 5)]).m.get F.ST_SID_SID = 5) := by decide +kernel

/-- A read descriptor at the start of the mailbox: a destination in C0's DMEM, and a length. -/
def rdq (len dest : Nat) (x : StSt) : State :=
  let s := st x []
  { s with m := s.m.putBytes mbxBase (leBytes 8 0x1234 ++ leBytes 4 len ++ leBytes 4 dest ++ [0, 0, 0, 0]) }

theorem witness_ReadsAndRing : (rdq 4096 0x20001000 {}).m.live = true ∧ (0x20000000#32).toNat = 0x20000000 + 8 * 0 ∧
    8 * 0 + 24 ≤ 0x4000 ∧ (∀ i, i < 16 → (rdq 4096 0x20001000 {}).m.clean (mbxBase + 8 * 0 + i) = true) ∧
    leNat ((rdq 0 0 {}).m.loadBytes (mbxBase + 8) 4) = 0 ∧
    (let s := rdq 4096 0x20001000 {}
     (stDest (leNat (s.m.loadBytes (mbxBase + 12) 4)) (leNat (s.m.loadBytes (mbxBase + 8) 4))).isSome = true ∧
       leNat (s.m.loadBytes (mbxBase + 8) 4) = 4096 ∧ s.m.hasSess = true ∧ s.m.stOn = true ∧ s.m.freeTags ≠ []) ∧
    (rdq 4 0x20001000 { tags := Vector.replicate 64 { st := 1 } }).m.freeTags = [] ∧ (on []).m.hasSess = false ∧
    (on []).m.st.tags[63].sent = none ∧
    (let s := st { tags := Vector.replicate 64 { st := 1, sent := some 0, time := 5 } } []
     s.m.st.tags[63].sent = some 0 ∧ s.m.st.tags[63].st = 1 ∧ 0 + s.m.st.tags[63].time ≤ s.m.now) ∧
    (on []).m.st.tags[63].st ≠ 2 ∧
    (let s := st { tags := Vector.replicate 64 { st := 2, quarAt := 0, time := 5 } } []
     s.m.st.tags[63].st = 2 ∧ s.m.st.tags[63].quarAt + 2 * s.m.st.tags[63].time ≤ s.m.now) ∧
    (let s := st { recs := [(32, 1), (64, 1)], linW := 64, linR := 0 } [(F.ST_RXSIZE_SIZE, 4096)]
     let size := max 16 s.m.rxSize
     let lin := s.m.st.linR + min (((32#32).toNat % size + size - s.m.get F.ST_RXRP_OFS % size) % size) (s.m.st.linW - s.m.st.linR)
     ((s.m.st.recs.filter (fun r => decide (r.1 ≤ lin))).map (·.2)).sum ≠ 0 ∧ s.m.sess = 2) := by decide +kernel

/-- Bowline changed, with registers set. -/
def ring (x : BwlSt) (l : List (Fld × Nat)) : State := mach l (fun m => { m with bwl := x })

/-- A follower, and a master, in a state of Bowline. -/
def follower (s : Nat) (x : BwlSt) (l : List (Fld × Nat) := []) : State :=
  ring x ([(F.BWL_CTL_EN, 1), (F.BWL_CTL_ROLE, 0), (F.BWL_STAT_STATE, s), (F.BWL_STAT_UNIT, 1)] ++ l)
def master (s : Nat) (x : BwlSt) : State := ring x [(F.BWL_CTL_EN, 1), (F.BWL_CTL_ROLE, 1), (F.BWL_STAT_STATE, s)]

/-- Bytes 1-88 of a frame: FLAGS, HOPC, the first bytes of its body, zeros and the check byte. -/
def bwlBytes (flags hopc : Byte) (body : List Byte) (check : Byte) : List Byte :=
  [flags, hopc] ++ body ++ List.replicate (85 - body.length) 0 ++ [check]

/-- A frame is valid when its check byte comes out in two halves, which the kernel can evaluate one after the other. -/
theorem valid_of (l : List Byte) (v c : BitVec 8) (h1 : ((l.take 87).take 44).foldl crc8Byte 0 = v)
    (h2 : ((l.take 87).drop 44).foldl crc8Byte v = c)
    (h : (l.length = 88 && c = l.getD 87 0 && fb l 1 < 128 && fb l 1 % 4 != 3) = true) : bwlValid l false = true := by
  have hc : crc8 (l.take 87) = c := by
    rw [crc8, ← List.take_append_drop 44 (l.take 87), List.foldl_append, h1, h2]
  rw [bwlValid, hc]
  simpa using h

/-- The offset of the statement, for an epoch frame. -/
def epochAt (s : State) (l : List Byte) : Nat :=
  let f := parseBwl l
  let totlen := leNat ((f.body.drop 6).take 2)
  let ofs := (2 * leNat ((f.body.drop 8).take 2) * ((f.hopSum + s.m.hopLen) % 2 ^ 16) + totlen) / (2 * totlen) + 80 * (s.m.bwlUnit - 1)
  leNat ((f.body.drop 10).take 2) * 2 ^ 48 + leNat (f.body.take 6) + ofs

/-- DISCOVER frames with HOPC 6 and 7, and a MOTION frame at rest. -/
def join6 : List Byte := bwlBytes 1 6 [] 0x3B
def join7 : List Byte := bwlBytes 1 7 [] 0x00
def motion0 : List Byte := bwlBytes 0 0 [] 0

/-- Epochs 0 and 1,000, with TOTLEN 1. -/
def epoch0 : List Byte := bwlBytes 2 0 [0, 0, 0, 0, 0, 0, 1, 0, 0, 0, 0, 0] 0x24
def epoch1000 : List Byte := bwlBytes 2 0 [0xE8, 3, 0, 0, 0, 0, 1, 0, 0, 0, 0, 0] 0x2D

theorem witness_Bowline_frames : ((on []).m.live = true ∧ (on []).m.get F.BWL_CTL_EN = 0 ∧ (on []).m.bwlMaster = false ∧
      (master 1 {}).m.bwlMaster = true ∧ (on []).m.bwlFollower = false ∧ (follower 1 {}).m.bwlFollower = true ∧
      (follower 1 { mute := true }).m.bwl.mute = true ∧ (follower 1 {}).m.bwl.mute = false ∧ bwlValid [] false = false ∧
      (follower 1 {}).m.get F.BWL_STAT_STATE ≠ 4 ∧ (follower 4 {}).m.get F.BWL_CTL_MIRROR = 0) ∧
    ((parseBwl join6).flags % 4 = 1 ∧ (follower 1 {}).m.bwl.known = false ∧
      (parseBwl join6).hopc < 7 ∧ (parseBwl join7).flags % 4 = 1 ∧
      7 ≤ (parseBwl join7).hopc ∧ (follower 1 {}).m.get F.BWL_STAT_STATE = 1) ∧
    ((parseBwl motion0).flags % 4 = 0 ∧
      (follower 4 { known := true }).m.get F.BWL_STAT_STATE = 4 ∧ (follower 4 { known := true }).m.bwl.known = true) ∧
    (follower 2 { known := true } [(F.H_ILL_CTL_EN 5, 1)]).m.unitIdle = false := by decide +kernel

theorem witness_join6 : bwlValid join6 false = true :=
  valid_of join6 0x7C 0x3B (by decide +kernel) (by decide +kernel) (by decide +kernel)
theorem witness_join7 : bwlValid join7 false = true :=
  valid_of join7 0x00 0x00 (by decide +kernel) (by decide +kernel) (by decide +kernel)
theorem witness_motion0 : bwlValid motion0 false = true :=
  valid_of motion0 0x00 0x00 (by decide +kernel) (by decide +kernel) (by decide +kernel)
theorem witness_epoch0 : bwlValid epoch0 false = true :=
  valid_of epoch0 0xBE 0x24 (by decide +kernel) (by decide +kernel) (by decide +kernel)
theorem witness_epoch1000 : bwlValid epoch1000 false = true :=
  valid_of epoch1000 0x12 0x2D (by decide +kernel) (by decide +kernel) (by decide +kernel)

theorem witness_Bowline_epoch :
    (let s := follower 2 { known := true }
     (parseBwl epoch0).flags % 4 = 2 ∧ s.m.bwl.known = true ∧ leNat (((parseBwl epoch0).body.drop 6).take 2) ≠ 0 ∧
       s.m.now ≤ epochAt s epoch0 + 1 ∧ epochAt s epoch0 ≤ s.m.now + 1 ∧ s.m.now + 1 < epochAt s epoch1000 ∧ s.m.unitIdle = true ∧
       nextGrid 64 (epochAt s epoch1000) < 2 ^ 64) := by decide +kernel

theorem witness_Bowline_ring : ((on []).m.bwl.out.find? (fun o => !o.2) = none ∧
      (master 2 { out := [(0, false)] }).m.bwl.out.find? (fun o => !o.2) = some (0, false) ∧
      (master 2 { out := [(0, false)] }).m.get F.BWL_STAT_STATE = 2 ∧ (master 2 { rets := [] }).m.bwl.rets.length < 63 ∧
      (master 4 { out := [(0, false)] }).m.get F.BWL_STAT_STATE = 4) ∧
    ((missFrames 1 (master 2 { out := [(0, false)] }).m.bwl.out).find? (fun o => !o.2) = none ∧
      (missFrames 1 (master 2 { out := [(0, false), (3000, false)] }).m.bwl.out).find? (fun o => !o.2) = some (3000, false)) ∧
    (on []).m.bwl.due = [] ∧
    (let e : BwlEvent := { ch := 7, origin := 1, time := 0 }
     let s (l : List (Fld × Nat)) : State := ring { due := [(0, e)] } ([(F.TRG_STAT_STATE, 2), (F.TRG_CTL_PSSRC, 31)] ++ l)
     (s []).m.bwl.due = [(0, e)] ∧ 0 ≤ (s []).m.now ∧ (s []).m.get (F.BWL_RX_ACT 7) = 0 ∧
       (s [(F.BWL_RX_ACT 7, 2)]).m.get (F.BWL_RX_ACT 7) = 2 ∧ (s [(F.BWL_RX_ACT 7, 1), (F.BWL_RX_SWT 7, 15)]).m.get (F.BWL_RX_ACT 7) = 1 ∧
       (s []).m.pageState = 2 ∧
       (s []).m.get F.TRG_CTL_PSSRC = 16 + (Fin.ofNat 16 ((s [(F.BWL_RX_SWT 7, 15)]).m.get (F.BWL_RX_SWT 7))).val ∧
       (s []).m.trg.swtAt[15] ≠ (s []).m.now / 4 + 1 ∧ ∀ h : Fin 6, (s []).m.ringOn h = true → ((s []).m.ring h).syncs = []) ∧
    (on []).m.get F.BWL_STAT_STATE ≠ 4 ∧
    (let s : State := { follower 4 {} with m := { (follower 4 {}).m with sysTime := 3000 } }
     s.m.get F.BWL_STAT_STATE = 4 ∧ s.m.bwlFollower = true ∧ s.m.bwl.lastK + 3000 ≤ s.m.now ∧ s.m.get F.BWL_CTL_MIRROR = 0) ∧
    (follower 4 {} [(F.BWL_CTL_MIRROR, 1)]).m.get F.BWL_CTL_MIRROR = 1 ∧
    (let s : State := { master 4 { out := [(0, true)] } with m := { (master 4 { out := [(0, true)] }).m with sysTime := 6000 } }
     s.m.get F.BWL_STAT_STATE = 4 ∧ s.m.bwlMaster = true ∧ s.m.bwl.out = (0, true) :: [] ∧ 0 + 6000 ≤ s.m.now) := by decide +kernel

/-- Shroud changed, with registers set, at beat 36,000. -/
def shr (x : ShrSt) (l : List (Fld × Nat)) : State := mach l (fun m => { m with sysTime := 36000, shr := x })

theorem witness_Shroud : (on []).m.live = true ∧ knownCode (0x0205#16).toNat = false ∧
    (knownCode (0x0B0F#16).toNat = true ∧ ¬ ((0x0B0F#16).toNat / 256 ≤ 5 ∨ (on []).m.armed = true)) ∧
    ((on shroudArmed).m.armed = true ∧ (0x0B0F#16).toNat / 256 ≠ 2 ∧ ¬ (on shroudArmed).m.get F.SHR_STATUS_HELD = 1) ∧
    (knownCode (0x0507#16).toNat = true ∧ (0x0507#16).toNat / 256 ≤ 5) ∧
    (let s := shr { codes := [0x104], latchTick := some 0 } [(F.SHR_STATUS_HELD, 1)]
     s.m.get F.SHR_STATUS_HELD = 1 ∧ (0x0507#16).toNat ∉ s.m.shr.codes ∧ s.m.shr.latchTick ≠ some (s.m.now / 4) ∧
       s.m.get F.SHR_REC_NSEC < 16) ∧
    ((0x15C#32).toNat % 256 = 0x5C ∧ (0x5D#32).toNat % 256 ≠ 0x5C) ∧
    (let s := shr { mask := [8] } [(F.SHR_STATUS_HELD, 1), (F.AUX_EXCSTAT_FAULTS, 1)]
     s.m.get F.SHR_STATUS_HELD = 1 ∧ ∃ c ∈ s.m.shr.mask, s.m.reports c = true) ∧
    (let s := shr { mask := [8] } [(F.SHR_STATUS_HELD, 1)]
     (∀ c ∈ s.m.shr.mask, s.m.reports c = false) ∧ s.m.shr.latchAt + 5820 ≤ s.m.now ∧ s.m.pwr.stFailed = false) ∧
    (4 < (5#4).toNat ∧ ¬ (on []).m.get F.SHR_STATUS_HELD = 1 ∧ (on []).m.now + 4 < 2 ^ 48) ∧
    (hottest ([0, 1999, 0, 0, 0, 0, 0, 0].take 8) 0 = some (1999, 1) ∧ (1999 : Int) < 2000) ∧
    (hottest ([0, 0, 0, 0, 0, 0, 0, 2000].take 8) 0 = some (2000, 7) ∧ (shr { hold125 := 3 } []).m.shr.hold125 = 3) ∧
    (on []).m.shr.shutdownWait = none ∧
    (let s := shr { shutdownWait := some 0 } []
     s.m.shr.shutdownWait = some 0 ∧ 0 + 36000 ≤ s.m.now ∧ s.m.nv.cmd = none ∧ s.m.nv.entry = none ∧ s.m.nv.recDue = false) := by
  decide +kernel

/-- NV with a command in progress. -/
def nvRuns (cmd slot len : Nat) : State :=
  mach [] (fun m => { m with nv := { m.nv with cmd := some { nvCommit with cmd := cmd, slot := slot, len := len } } })

/-- A log entry in progress. -/
def entry0 : NvEntry := { kind := 1, bytes := List.replicate 0x178 5, start := 0 }
def logs : State := mach [] (fun m => { m with nv := { m.nv with entry := some entry0 } })

theorem witness_NvStore : (on []).m.live = true ∧ ((on [(F.NV_STAT_READY, 1)]).m.get F.NV_STAT_READY = 1 ∧
      (on []).m.get F.NV_STAT_BUSY = 0 ∧ (on []).m.get F.NV_STAT_READY = 0 ∧ (on []).m.nv.cmd = none) ∧
    ((nvRuns 1 127 4).m.nv.cmd = some { nvCommit with cmd := 1 } ∧ nvCommit.start + 0 ≤ (nvRuns 1 127 4).m.now ∧
      (nvRuns 1 127 4).m.nv.resetDue = false ∧ nvCommit.slot < 128 ∧ recordSlot 127 = true ∧ recordSlot 31 = false ∧
      NvArr.current [] 127 false false = none ∧ NvArr.current (after (.nvDone 0 endOk) (nvRuns 2 127 4)).nvArr 127 false false = some false) ∧
    (nvCommit.len ≤ 992 ∧ nvCommit.payload.length = nvCommit.len ∧ endOk.verify = true) ∧
    (on []).m.nv.entry = none ∧
    (logs.m.nv.entry = some entry0 ∧ entry0.start + 0 ≤ logs.m.now ∧ logs.m.nv.resetDue = false ∧ entry0.bytes.length = 0x178) ∧
    (mach [] (fun m => { m with nv := { m.nv with search := none } })).m.nv.search = none ∧
    ((on []).m.nv.search = some 0 ∧ 0 + 0 ≤ (on []).m.now ∧ NvArr.newest [] [] = none) ∧
    NvArr.newest [(0x4004, 5), (0x417C, 0xFA), (0x417D, 0xFF), (0x417E, 0xFF), (0x417F, 0xFF)] [] = some (0, 5) := by decide +kernel

/-! ## Further clauses of the statements, each with a state and operands that meet its hypotheses -/

theorem witness_OwnLoads_buffered :
    (let s := c7 { w34 0x20 0 with sb := [.store 0x20003FFC 5] }
     s.m.fetches 7 = true ∧ (s.W 7 3 + (0 : BitVec 18).signExtend 32).toNat = 0x20 ∧ s.m.clean (portAddr 7 0x20) = true ∧
       s.m.cores[7].sb = [.store 0x20003FFC 5] ∧ (0x20003FFC#32).toNat % 4 = 0) := by decide +kernel

/-- A pair with both lines pending in a later tick than its events, and one whose line pulsed in this tick. -/
theorem witness_Waiting_ticks :
    (let s (x : CoreSt) : State := { c7 x [(F.C_EVT_EN_EN 7, 0x80000002), (F.C_EVT_PEND_PEND 7, 0x80000002)] with
       m := { (c7 x [(F.C_EVT_EN_EN 7, 0x80000002), (F.C_EVT_PEND_PEND 7, 0x80000002)]).m with sysTime := 400 } }
     (s {}).m.fetches 7 = true ∧ ((s {}).turn 7).m.cores[7].evAt ≠ ((s {}).turn 7).m.tickNo ∧
       ((s { evAt := 101, evSet := 2 }).turn 7).m.cores[7].evAt = ((s { evAt := 101, evSet := 2 }).turn 7).m.tickNo ∧
       (s { evAt := 101, evSet := 2 }).m.cores[7].evSet.getLsbD 1 = true) := by decide +kernel

theorem witness_CorePairs_primary :
    (let s : State := { c7 { pc := 4 } with m := { (c7 { pc := 4 }).m with eccBad := [imemBase 7 + 4] } }
     s.m.live = true ∧ s.m.get F.BOOT_STATUS_PHASE = 4 ∧ s.m.get (F.C_STAT_STATE 7) = 1 ∧ s.m.get F.SHR_STATUS_HELD = 0 ∧
       s.m.isBad (imemBase 7 + s.m.cores[7].pc.toNat) = true) := by decide +kernel

theorem witness_Commits_head : (let s := committed (.head 0) (F.H_COMMIT_GO 0)
     (s.m.head 0).tpg.stopped = false ∧ inCommit (commitAddr (.head 0)) (F.H_TPG_SYNC_reg 0) = true) ∧
    (committed (.ctx 3) (F.BC_CTX_COMMIT_GO 3)).m.bcStopped = false := by decide +kernel

/-- Scrubbing off, and on over a mailbox word that is bad. -/
theorem witness_DrainAndScrub_places : (let s := mach [(F.SHR_CTL_SCRUBCM, 0), (F.SHR_CTL_SCRUBLS, 0)] id
     s.m.get F.SHR_CTL_SCRUBCM = 0 ∧ s.m.get F.SHR_CTL_SCRUBLS = 0 ∧ inCoreMem 0x483FFC = true ∧ lineSize - 4 < lineSize) ∧
    (let s := mach [] (fun m => { m with eccBad := [0x483FFC, eccWord (lineBase + 4)] })
     s.m.isBad 0x483FFC = true ∧ s.m.isBad (lineBase + 4) = true ∧ s.m.clean 0x483FF8 = true ∧ (∀ h : Fin 6, (s.m.head h).tpg.lines = []) ∧
       s.m.get F.SHR_STATUS_HELD = 0) := by decide +kernel

theorem witness_ClockMonitorAndGates_fast : (49 : Nat) > 48 ∧ (on []).m.clk.refChosen = true ∧ stopped.m.coreGood = true ∧
    (on []).m.bc.stopAt = none := by decide +kernel

theorem witness_BootLoading_ready : (let s := booting 0 (fun b => { b with zeroDue := some 16388 })
     s.m.live = true ∧ s.m.get (F.C_STAT_STATE 7) = 1 ∧ s.m.boot.held = false ∧ s.m.get F.BOOT_STATUS_PHASE = 0 ∧
       s.m.boot.zeroDue = some 16388 ∧ 16388 ≤ s.m.boot.began + (if s.m.boot.restart then 16384 else 16388) ∧
       s.m.boot.began + 60000 < 2 ^ 64) ∧
    (let s := booting 0 (fun b => { b with zeroDue := some 16384, restart := true })
     s.m.boot.zeroDue = some 16384 ∧ 16384 ≤ s.m.boot.began + (if s.m.boot.restart then 16384 else 16388)) := by decide +kernel

/-- A signed image stands in CHECKING (`witness_BootChecking_signature`), and a core memory whose march test met a bad word. -/
theorem witness_BootChecking_tests : (let s := booting 3 (fun b => { b with img := signedImage })
     s.m.live = true ∧ s.m.boot.img = signedImage ∧ s.m.boot.sigDone = false ∧ imgLen signedImage = 144) ∧
    (let s := booting 3 (fun b => { b with coreBad := true })
     s.m.live = true ∧ s.m.boot.bistDone = false ∧ s.m.boot.coreBad = true) := by decide +kernel

theorem witness_AuxSequencers_more :
    ((on [(F.BOOT_ANA_AREF_EN, 0)]).m.get F.BOOT_ANA_AREF_EN = 0 ∧ (on [(F.BOOT_ANA_AREF_EN, 0)]).m.auxEn = true) ∧
    (let s := seq0 { evDue := [704] } [(F.AUX_SEQ_RUN 0, 1), (F.AUX_SEQ_START 0, 2)]
     s.m.auxEn = true ∧ s.m.aux.calEnd = none ∧ (s.m.seq 0).held = false ∧ (s.m.seq 0).evDue = 704 :: []) ∧
    (let p : AuxPend := { ent := 31, lo := 0, hi := 0, sw := 64, pos := some (.pin 3), neg := some .agnd, slots := [128], urg := true,
                          loop := 0 }
     let s := seq0 { land := [p] } []
     let v : List AuxVolts := [[(.pin 3, 1250000)]]
     (s.m.seq 0).land = [p] ∧ recBlank p.lo = false ∧ p.ent < 32 ∧ v.length = 1) ∧
    (let s := mach [(F.AUX_STAT_XARMED, 1)] (fun m => { m with aux := { m.aux with xSince := some 0 } })
     s.m.get F.AUX_STAT_XARMED = 1 ∧ s.m.aux.xSince.isSome = true) := by decide +kernel

/-- VEX is connected, and 64 samples of 25 mA hold its check; 64 samples of 1.46 V hold that of IEX1. -/
theorem witness_AuxEntries_checks :
    (let s := mach [(F.AUX_VEX_EN, 1), (F.AUX_EXC1_EN, 1)] id
     (s.m.excPin 2).isSome = true ∧ (s.m.excPin 1).isSome = true ∧ (List.replicate 64 25000).length = 64 ∧
       (∀ x ∈ List.replicate 64 25000, s.m.checkHolds 2 true x = true) ∧
       (∀ x ∈ List.replicate 64 1460000, s.m.checkHolds 1 false x = true) ∧ s.m.checkHolds 2 true 24999 = false) ∧
    (on []).m.excPin 2 = none ∧ (on []).tick.m.beat.marked (on []).tick.m.now F.AUX_EXCSTAT_reg = 0 := by decide +kernel

theorem witness_Triggers_history :
    (let h : List (BitVec 16 × Nat) := [(0, 1), (0x8000, 1)]
     let s := mach [(F.TRG_U_CFG_EN 0, 1), (F.TRG_U_LVL_L2 0, 0x8000), (F.TRG_U_LVL_L1 0, 0x8000)] (fun m => { m with sysTime := 8 })
     let r : PatRun := h.foldl (fun r e => r.add (s.m.patternHolds 0 e.1) e.2) {}
     s.m.get (F.TRG_U_CFG_KIND 0) = 0 ∧ s.m.get (F.TRG_U_CFG_LEAVE 0) = 0 ∧ s.m.pageState = 0 ∧
       r.run = s.m.get (F.TRG_U_WMIN_WMIN 0) % 2 ^ 24 + 1 ∧ (s.m.unit 0).since + 2 ≤ s.m.now + 1) ∧
    (let h : List (BitVec 16 × Nat) := [(0, 1), (0x8000, 2), (0, 1)]
     let s := mach [(F.TRG_U_CFG_EN 0, 1), (F.TRG_U_CFG_LEAVE 0, 1), (F.TRG_U_LVL_L2 0, 0x8000), (F.TRG_U_LVL_L1 0, 0x8000)]
       (fun m => { m with sysTime := 8 })
     let r : PatRun := h.foldl (fun r e => r.add (s.m.patternHolds 0 e.1) e.2) {}
     s.m.get (F.TRG_U_CFG_LEAVE 0) = 1 ∧ s.m.pageState = 0 ∧ r.off = 1 ∧ s.m.get (F.TRG_U_WMIN_WMIN 0) % 2 ^ 24 + 1 ≤ r.prev) := by
  decide +kernel

theorem witness_PagesAndRings_on : (on [(F.TRG_CTL_EN, 1)]).m.get F.TRG_CTL_EN = 1 ∧
    (on [(F.TRG_R_CTL_EN 0, 1)]).m.get (F.TRG_R_CTL_EN 0) = 1 ∧ (on [(F.TRG_R_CTL_EN 0, 1)]).m.live = true := by decide +kernel

theorem witness_AxisCommands_off : (let s := axis0 { v := 1, offAfter := true } [(F.HAL_AX_CTL_EN 0, 1), (F.HAL_AX_STAT_STATE 0, 2)]
     s.m.get (F.HAL_AX_CTL_EN 0) = 1 ∧ s.m.mirrored = false ∧ (s.m.axis 0).offAfter = true ∧ (s.m.axis 0).moving = true) := by
  decide +kernel

theorem witness_Events_twice : (let s : State := { c7 { evAt := 1, evSet := 2 } with m := { (c7 { evAt := 1, evSet := 2 }).m with sysTime := 0 } }
     s.m.cores[7].evAt = s.m.tickNo ∧ s.m.cores[7].evSet.getLsbD 1 = true) := by decide +kernel

/-- Test slots at their ideal codes, and a mismatch in the last of them; a head whose analog part is being calibrated. -/
theorem witness_FrontEnd_checks :
    (let a : List (Fld × Nat) := [(F.H_VADC_CHK_TOL 0, 5)]
     let s := tpg0 { lines := [line0 a] } [] []
     let k := VadcCheck.level 0 0 [517, 3583, 4608, 7679, 8704, 11775, 12800, 15866]
     s.m.live = true ∧ s.m.checkedLine 0 (k.due 0) = some (line0 a) ∧ k.field ≤ (line0 a).nfld 0 ∧ k.due 0 (line0 a) < 2 ^ 64 ∧
       (List.range 8).any (fun j => slotFails (setGet (line0 a).set (F.H_AFE_OFS_OFS 0)) (setGet (line0 a).set (F.H_VADC_CHK_TOL 0)) j 0
         ([517, 3583, 4608, 7679, 8704, 11775, 12800, 15866].getD j 0)) = false ∧
       s.m.checkedLine 0 ((VadcCheck.dup 0 5).due 0) = some (line0 a)) ∧
    (let s := head0 (fun x => { x with vadc := { x.vadc with calEnd := some 0 } }) [(F.H_VADC_CTL_CAL 0, 1)] []
     (s.m.head 0).vadc.calEnd = some 0 ∧ s.m.live = true) ∧
    (let l := { line0 [(F.H_TPG_LINE_DARK 0, 4), (F.H_AFE_CFG_SIGPOS 0, 12)] with wave := [List.replicate 200 500000000] }
     l.cut = false ∧ l.saturates 0 0 4 = false) := by decide +kernel

/-- A line whose dark samples stand above the window, and one where they stand in it. -/
theorem witness_FrontEnd_dark :
    (let a (lo hi : Nat) : List (Fld × Nat) := [(F.H_TPG_LINE_DARK 0, 4), (F.H_VADC_DKWIN_DKLO 0, lo), (F.H_VADC_DKWIN_DKHI 0, hi)]
     let s (lo hi : Nat) : State := tpg0 { lines := [line0 (a lo hi)] } [] []
     let mean (lo hi : Nat) : Nat := ((List.range (2 ^ 2)).map (fun i => ((line0 (a lo hi)).code 0 0 i).1)).foldl (· + ·) 0 / 2 ^ 2
     (s 5 9).m.checkedLine 0 ((VadcCheck.dark 0).due 0) = some (line0 (a 5 9)) ∧ mean 5 9 < 5 ∧ darkM ((line0 (a 5 9)).darkN 0) = 2 ∧
       (s 0 9).m.checkedLine 0 ((VadcCheck.dark 0).due 0) = some (line0 (a 0 9)) ∧ ¬ (mean 0 9 < 0 ∨ 9 < mean 0 9)) := by
  decide +kernel

/-- A coefficient word that cannot be corrected under PADDR, and a reference run asked for during a sweep or beyond K 8. -/
theorem witness_Shading_refused :
    (let s := head0 (fun x => { x with shd := { x.shd with bad := [shdCoefWord 1 0 3] } })
       [(F.H_SHD_PADDR_BANK 0, 1), (F.H_SHD_PADDR_INDEX 0, 3)] []
     s.m.live = true ∧ s.m.shdPortBad 0 = true) ∧
    (let s := on ((F.H_VADC_CTL_SWEEP 0, 1) :: goes)
     s.m.get (F.H_SHD_REF_GO 0) = 0 ∧ s.m.get (F.H_TPG_CTL_RUN 0) = 1 ∧ s.m.get (F.H_TPG_STAT_PATERR 0) = 0 ∧
       ¬ (s.m.get (F.H_VADC_CTL_SWEEP 0) = 0 ∧ s.m.get (F.H_VADC_CTL_CAL 0) = 0)) ∧ 8 < (9#4).toNat ∧
    (on [(F.H_SHD_REF_GO 0, 1)]).m.get (F.H_SHD_REF_GO 0) = 1 := by decide +kernel

/-- A finished field whose row learns K, in KMODE 2. -/
theorem witness_LampWindows_learn :
    (let a : List (Fld × Nat) := [(F.H_ILL_ROW_KMODE 0 0, 2), (F.H_ILL_KL_WREF 0 0, 5000), (F.H_ILL_KL_LGAIN 0 0, 100), (F.H_ILL_KLIM_KMAX 0, 0x8000)]
     let s := lamp {} [] a
     s.m.live = true ∧ (s.m.head 0).tpg.oldest = some (line0 a) ∧ (line0 a).gone = false ∧ (line0 a).wit ≤ (line0 a).nfld 0 ∧
       s.m.kmode 0 ((line0 a).row 0 0) = 2 ∧ (s.m.head 0).shd.witnessBad (line0 a).set 0 0 = false ∧
       -65536 ≤ shdWitness (s.m.head 0).shd (line0 a).set 0 0 ((line0 a).codes 0 0) ∧
       shdWitness (s.m.head 0).shd (line0 a).set 0 0 ((line0 a).codes 0 0) ≤ 65535) ∧
    (dark { stEnd := some 0 } [(F.H_ILL_STAT_STBUSY 0, 1)] []).m.get (F.H_ILL_STAT_STBUSY 0) = 1 := by decide +kernel

/-- An open window with a lit slice of segment 3 still to come, and a closed row with a sink that is dark. -/
theorem witness_LampWindows_samples :
    (let a : List (Fld × Nat) := [(F.H_TPG_FLD_EXPS_EXPS 0 0, 16), (F.H_TPG_FLD_EXPE_EXPE 0 0, 4096)]
     let s := lamp { window := some 0, rowClosed := some 0, words := List.replicate 16 4095 } [(F.H_ILL_STAT_BRDY 0, 1)] a
     s.m.lampOn 0 = true ∧ s.m.get (F.H_ILL_FLT_VALID 0) = 0 ∧ (s.m.head 0).ill.window = some 0 ∧ (s.m.nextProbe 0 3).isSome = true ∧
       (s.m.nextProbe 0 15).isSome = true ∧ (s.m.runField 0 (s.m.head 0).ill.winF).isSome = true ∧
       (s.m.head 0).ill.rowClosed = some 0 ∧ s.m.get (F.H_ILL_STAT_BRDY 0) = 1) ∧
    (let s := lamp { rowClosed := some 3 } [] []
     s.m.sinkOn 0 15 (nextGrid 64 s.m.now) = false ∧ (s.m.head 0).ill.rowClosed = some 3 ∧ s.m.get (F.H_ILL_FLT_VALID 0) = 0) := by
  decide +kernel

/-- A swap that waits with the cascade on, a short test that ends with EN held, and the cascade's frames. -/
theorem witness_LampFrames_cascade :
    (let s := dark {} [(F.H_ILL_CTL_SWAP 0, 1)] [(F.H_ILL_CFG_CASEN 0, 1)]
     s.m.get (F.H_ILL_CTL_SWAP 0) = 1 ∧ s.m.act (F.H_ILL_CFG_SWSRC 0) = 0 ∧ (s.m.head 0).tpg.idle = true ∧
       s.m.act (F.H_ILL_CFG_CASEN 0) = 1 ∧ s.m.get F.SHR_STATUS_SAFE = 0) ∧
    ((dark { stEnd := some 0, enHeld := true } [] []).m.head 0).ill.enHeld = true ∧
    (on [(F.SHR_STATUS_SAFE, 1)]).m.get F.SHR_STATUS_SAFE = 1 ∧
    (let s := dark { casReq := some [0, 0x123456] } [(F.H_ILL_CTL_CASGO 0, 1)] []
     (s.m.head 0).ill.casReq = some [0, 0x123456] ∧ (s.m.head 0).ill.casEnd = none) ∧
    ((dark { casEnd := some 500 } [(F.H_ILL_CTL_CASGO 0, 1)] []).m.head 0).ill.casEnd = some 500 ∧
    (let y : CasAt := ⟨.apply, 600, 480, 11⟩
     ((dark { cas := [y] } [] []).m.head 0).ill.cas.find? (fun y => y.frame = .apply) = some y) ∧
    (let a : List (Fld × Nat) := [(F.H_TPG_FLD_EXPS_EXPS 0 0, 16000), (F.H_TPG_FLD_EXPE_EXPE 0 0, 48000), (F.H_ILL_CFG_CASEN 0, 1)]
     let s := lamp {} [] a
     s.m.runField 0 0 = some (line0 a) ∧ s.m.casOn 0 (line0 a) = true ∧ (line0 a).lit 0 0 = true ∧
       (s.m.head 0).ill.casMarks.contains ((line0 a).casAim 0 0 true, true) = false ∧
       (s.m.head 0).ill.casMarks.contains ((line0 a).casAim 0 0 false, false) = false) := by decide +kernel

/-- A code of a running pair, fresh and as a secondary; an axis code that needs the encoder; a clear refused while ALLOFF runs. -/
theorem witness_Shroud_codes : knownCode (0x0174#16).toNat = true ∧ (0x0174#16).toNat / 256 = 1 ∧ (0x0174#16).toNat % 256 < 0x80 ∧
    (on []).m.get (F.C_STAT_STATE 7) = 1 ∧ knownCode (0x0A10#16).toNat = true ∧
    ((on ((F.HAL_AX_CTL_ENC 1, 1) :: shroudArmed)).m.armed = true ∧ (on ((F.HAL_AX_CTL_ENC 1, 1) :: shroudArmed)).m.get (F.HAL_AX_CTL_ENC 1) = 1) ∧
    (let s := head0 (fun h => { h with ill := { cas := [⟨.alloff, 0, 480, 11⟩] } }) [(F.SHR_STATUS_HELD, 1)] []
     s.m.get F.SHR_STATUS_HELD = 1 ∧ s.tick.m.reacting = true) := by decide +kernel

/-- A supply back in its window and above it, and a thermal shutdown that waits for the record's entry. -/
theorem witness_Shroud_supplies : windowOf 5 1200 = .inside ∧ windowOf 0 1200 = .above ∧ windowOf 5 1127 = .under ∧
    windowOf 5 1128 = .inside ∧ windowOf 5 1272 = .inside ∧ windowOf 5 1273 = .above ∧
    (let s := mach [] (fun m => { m with sysTime := 36000, shr := { m.shr with shutdownWait := some 0 }, nv := { m.nv with recDue := true } })
     s.m.shr.shutdownWait = some 0 ∧ s.m.nvHolds 0 = true) := by decide +kernel

/-- A line of axis 0 for a head that takes it, and an input filter that rejects a level of 0 samples. -/
theorem witness_StepsAndEncoders_line :
    (let s := axis0 { schedOn := true, lps := 65536, next := (Vector.replicate 6 0).set 0 1,
                      hist := [(0, 65535 * 2 ^ 44)], p := 65536 * 2 ^ 44 } ((F.HAL_HEAD_EN 0, 1) :: goes)
     s.m.trigSrc 0 = 0 ∧ s.m.accepts 0 = true ∧ (s.m.head 0).tpg.lastTrig = none ∧ (s.m.head 0).tpg.await = none ∧
       (s.m.head 0).tpg.held = none ∧ (s.m.head 0).tpg.active = none ∧
       (s.m.axis 0).lineAt (s.m.halPh 0) (s.m.axis 0).next[0] = some 65536) ∧
    (let s := mach [] (fun m => { m with actSet := setOf [(F.HAL_AX_EFLT_EFLT 0, 2)] })
     ¬ s.m.act (F.HAL_AX_EFLT_EFLT 0) ≤ 1 ∧ s.m.act (F.HAL_AX_EFLT_EFLT 0) ≤ 5) := by decide +kernel

/-- A good descriptor with no session. -/
theorem witness_ReadsAndRing_closed : (let s : State := { rdq 4096 0x20001000 {} with m := (rdq 4096 0x20001000 {}).m.put F.ST_STAT_SESS 0 }
     s.m.hasSess = false ∧ (stDest (leNat (s.m.loadBytes (mbxBase + 12) 4)) (leNat (s.m.loadBytes (mbxBase + 8) 4))).isSome = true) ∧
    (let s := rdq 4096 0x20001000 { tags := Vector.replicate 64 { st := 1 } }
     s.m.hasSess = true ∧ s.m.stOn = true ∧ s.tick.m.freeTags = []) := by decide +kernel

theorem witness_LaneCommands_active : (let s := on [(F.LN_CTL_EN, 1), (F.LN_STAT_STATE, 7)]
     s.m.anyTest = false ∧ s.m.get F.LN_CTL_EN = 1 ∧ s.m.get F.LN_STAT_STATE = 7) := by decide +kernel

/-- Picture 3 of a self-check interval in progress, and a stopped codec. -/
theorem witness_CodecContexts_timers :
    (mach [] (fun m => { m with sysTime := 3072000, bc := { m.bc with encFrom := some 0 } })).m.bc.encFrom.isSome = true ∧
    (let s := mach [(F.CLK_GATE_BC_EN, 0)] (fun m => { m with bc := { m.bc with stopAt := some 0 } })
     s.m.bcStopped = true ∧ s.m.live = true) ∧
    (let s := mach [] (fun m => { m with sysTime := 3072000, bc := { m.bc with capRise := 1000 } })
     s.m.bc.capHi = false ∧ s.m.bcStopped = false) := by decide +kernel

/-- The record that a commit to slot 127 leaves, with a command in progress. -/
def stored (cmd slot len : Nat) : State := match execNvDone 0 endOk (nvRuns 2 127 4) with
  | .next t => { t with m := (nvRuns cmd slot len).m }
  | _ => on []

/-- A read of a record, a second commit and one that fails its verify, an erase, a command on slot 31, which holds no record. -/
theorem witness_NvStore_records :
    NvArr.current (stored 1 127 4).nvArr 127 endOk.badA endOk.badB = some false ∧
    ((stored 1 127 4).m.nv.cmd = some { nvCommit with cmd := 1 } ∧ (stored 2 127 4).m.nv.cmd = some nvCommit ∧
      (stored 3 127 4).m.nv.cmd = some { nvCommit with cmd := 3 } ∧ (nvRuns 3 31 0).m.nv.cmd = some { nvCommit with cmd := 3, slot := 31, len := 0 }) ∧
    ({ endOk with verify := false }).verify = false ∧ (stored 4 0 4).m.nv.cmd = some { nvCommit with cmd := 4, slot := 0 } := by
  decide +kernel

/-- A log entry to write after the search, and a search that finds one. -/
theorem witness_NvStore_log :
    (let s : State := { logs with m := { logs.m with nv := { logs.m.nv with search := none } } }
     s.m.nv.entry = some entry0 ∧ s.m.nv.search = none ∧ s.m.nv.resetDue = false) ∧
    (let s : State := { on [] with nvArr := [(0x4004, 5), (0x417C, 0xFA), (0x417D, 0xFF), (0x417E, 0xFF), (0x417F, 0xFF)] }
     s.m.nv.search = some 0 ∧ NvArr.newest s.nvArr [] = some (0, 5)) := by decide +kernel

/-- No word more from the lanes, and a state in which they have carried a burst. -/
def noLines : RxLines := { code := [], slots := [] }
def heard (s : State) (b : List Byte) : State :=
  { s with m := { s.m with ln := { s.m.ln with rxIn := [{ bytes := b, ended := true }] } } }

/-- A frame of R805's form stands in the burst, with every hypothesis that the statements have on it. -/
def arrives (s : State) (f : Frame) : Bool :=
  decide (parseFrame f.bytes = .good f true) && !f.broken true && decide (s.m.takeAck f.ack = s.m) && s.m.live &&
    s.m.carries noLines f.bytes && decide (s.m.sess = 2)

def hears (x : StSt) (l : List (Fld × Nat)) (f : Frame) : State := heard (st x l) f.bytes

/-- Frames that fail their checks, a frame of a type that another row takes, and one that breaks R805. -/
theorem witness_FramesReceived_bad :
    ((on []).m.rxUp = false ∧ (st {} []).m.rxUp = true) ∧
    (let raw := (frame 0x11 0 0 0 []).header ++ [0, 0, 0, 0]
     parseFrame raw = .badCrc ∧ ((heard (st {} []) raw).m.rxLines noLines).rxUp = true ∧
       ((heard (st {} []) raw).m.rxLines noLines).ln.rxIn = [{ bytes := raw, ended := true }] ∧ (heard (st {} []) raw).m.st.nakAt = none) ∧
    (let raw : List Byte := [0x11, 0]
     raw ≠ [] ∧ parseFrame (raw.take (20 + lenP (leNat ((raw.drop 2).take 2)))) = .framing ∧
       ((heard (st {} []) raw).m.rxLines noLines).ln.rxIn = [{ bytes := raw, ended := true }]) ∧
    (let f := frame 0x30 0 2 0 []
     parseFrame f.bytes = .good f true ∧ f.broken true = true ∧ f.ty ∈ hostTypes ∧ (hears {} [] f).m.carries noLines f.bytes = true) ∧
    (let f := frame 0x39 0 1 0 []
     parseFrame f.bytes = .good f true ∧ f.broken true = true ∧ (hears {} [] f).m.carries noLines f.bytes = true) ∧
    (let f := frame 0x3C 7 5 0 []
     parseFrame f.bytes = .good f true ∧ f.broken true = true ∧ (hears {} [] f).m.carries noLines f.bytes = true) ∧
    (let f := frame 0x31 0 0 0 [1]
     parseFrame f.bytes = .good f true ∧ f.broken true = true ∧ (hears {} [] f).m.carries noLines f.bytes = true) := by decide +kernel

/-- A duplicate and a gap of each sequenced type, and each type in sequence: stored, dropped for want of room, and in READY. -/
theorem witness_FramesReceived_data :
    ([frame 0x11 0 0 0 [], frame 0x12 0 0 0 [1, 2, 3, 4], frame 0x13 0 0 4 [], frame 0x14 0 63 0 [1]].all (fun f =>
      arrives (hears { rxSeq := 1 } [] f) f && decide (seqDist f.seq 1 = 1)) = true) ∧
    ([frame 0x11 5 0 0 [], frame 0x12 5 0 0 [1, 2, 3, 4], frame 0x13 5 0 4 [], frame 0x14 5 63 0 [1]].all (fun f =>
      arrives (hears {} [] f) f && decide (32768 < seqDist f.seq 0)) = true) ∧
    ([frame 0x11 0 0 0 [1], frame 0x12 0 0 0 [1, 2, 3, 4], frame 0x13 0 0 4 []].all (fun f =>
      arrives (hears {} [(F.ST_RXSIZE_SIZE, 4096)] f) f && arrives (hears {} [(F.ST_RXSIZE_SIZE, 2048)] f) f) = true) ∧
    (let s := hears {} [(F.ST_RXSIZE_SIZE, 4096)] (frame 0x11 0 0 0 [1])
     let bytes := padTo 16 ((frame 0x11 0 0 0 [1]).header ++ [1])
     s.m.get F.BOOT_STATUS_PHASE = 4 ∧ s.m.rxSize = 4096 ∧ s.m.st.linW - s.m.st.linR + bytes.length + 2048 ≤ s.m.rxSize - 16 ∧
       bytes.length ≤ s.m.rxSize - s.m.get F.ST_RXWP_OFS) ∧
    (let s := hears {} [(F.ST_RXSIZE_SIZE, 2048)] (frame 0x11 0 0 0 [1])
     s.m.rxSize - 16 < s.m.st.linW - s.m.st.linR + (padTo 16 ((frame 0x11 0 0 0 [1]).header ++ [1])).length + 2048) ∧
    (let f := frame 0x11 0 0 0 [1]
     let s := hears {} [(F.BOOT_STATUS_PHASE, 2)] f
     arrives s f = true ∧ s.m.get F.BOOT_STATUS_PHASE ≠ 4) := by decide +kernel

/-- Completions for a tag that is free, that waits, in the middle and at the end, and that is quarantined. -/
theorem witness_FramesReceived_completions :
    (let g : RdTag := { st := 1, dest := mbxBase, len := 8 }
     let f (b : Nat) := frame 0x14 0 63 b [1, 2, 3, 4]
     let s (g : RdTag) (b : Nat) : State := hears { tags := (Vector.replicate 64 {}).set 63 g } [] (f b)
     arrives (s g 0) (f 0) = true ∧ (s g 0).m.st.tags[63] = g ∧ g.got + 4 < g.len ∧ arrives (s { g with got := 4 } 4) (f 4) = true ∧
       arrives (s { st := 2 } 0) (f 0) = true ∧ arrives (s {} 0) (f 0) = true ∧ (s {} 0).m.st.tags[63].st = 0) := by decide +kernel

/-- A NAK while frames are held, an acknowledgement of the one held, and credits that fit and that go beyond ADV. -/
theorem witness_FramesReceived_link :
    (let h : StHeld := { f := frame 1 0 0 0 [], ctl := false, owe := false }
     let f := { frame 0x30 0 0 0 [] with ack := 1 }
     let s : State := hears { held := [h], rounds := 3 } [] (frame 0x30 0 1 0 [])
     arrives s (frame 0x30 0 1 0 []) = true ∧ s.m.st.rounds < 4 ∧ parseFrame f.bytes = .good f true ∧ f.broken true = false ∧
       (hears { held := [h] } [] f).m.carries noLines f.bytes = true ∧ (hears { held := [h] } [] f).m.st.held = h :: [] ∧
       0 < seqDist h.f.seq f.ack ∧ seqDist h.f.seq f.ack ≤ 1) ∧
    (let s := hears {} [] (frame 0x31 0 5 5 [])
     arrives s (frame 0x31 0 5 5 []) = true ∧ 5 = (s.m.st.crImg + 5) % 2 ^ 24 ∧ s.m.availOf true + 5 ≤ s.m.advOf true ∧
       s.m.availOf false + 5 ≤ s.m.advOf false) ∧
    (let s := hears {} [(F.ST_CRDIMG_AVAIL, 64)] (frame 0x31 0 16 16 [])
     arrives s (frame 0x31 0 16 16 []) = true ∧ s.m.availOf true + 16 ≤ s.m.advOf true ∧ s.m.advOf false < s.m.availOf false + 16) := by
  decide +kernel

/-- A burst of one frame that comes in over lane 0 at L0, symbol by symbol, with the IDLE word that ends it. -/
def lineOf (rate : Nat) (b : List Byte) : RxLines :=
  { code := [{}], slots := (sendLines rate (burstWords b.length b ++ [.idle]) {}).map (fun w => [w]) }

theorem witness_FramesReceived_symbols : (let f := frame 0x30 0 1 0 []
     (st {} []).m.carries (lineOf 0 f.bytes) f.bytes = true ∧ (st {} []).m.sess = 2) := by decide +kernel

/-- OPEN as a new session, refused, resumed and not resumable; CLOSE for this session and for another. -/
theorem witness_Sessions_open :
    (let f := openFrame 0 64 64 0
     (hears {} [(F.ST_STAT_SESS, 1)] f).m.carries noLines f.bytes = true ∧ (hears {} [(F.ST_STAT_SESS, 1)] f).m.sess = 1 ∧
       parseFrame f.bytes = .good f true ∧ f.broken true = false) ∧
    (let f := openFrame 5 4096 4096 0
     (hears {} [(F.ST_STAT_SESS, 1)] f).m.carries noLines f.bytes = true ∧ parseFrame f.bytes = .good f true ∧
       (let s := hears {} [(F.ST_STAT_SESS, 3), (F.ST_RETRY_T, 100)] f
        s.m.carries noLines f.bytes = true ∧ s.m.sess = 3 ∧ ¬ (s.m.st.suspendAt + 30000000 * s.m.retryOf) / 4 ≤ s.m.now / 4)) ∧
    (let f := openFrame 5 64 64 1
     (hears {} [(F.ST_STAT_SESS, 1)] f).m.carries noLines f.bytes = true ∧ parseFrame f.bytes = .good f true ∧
       (let s := hears {} [(F.ST_STAT_SESS, 3), (F.ST_RETRY_T, 100), (F.ST_SID_SID, 5)] f
        s.m.carries noLines f.bytes = true ∧ s.m.get F.ST_SID_SID = 5) ∧
       (let s := hears {} [(F.ST_STAT_SESS, 3), (F.ST_RETRY_T, 1), (F.ST_SID_SID, 5)] f
        s.m.carries noLines f.bytes = true ∧ (s.m.st.suspendAt + 30000000 * s.m.retryOf) / 4 ≤ (s.m.rxLines noLines).now / 4)) ∧
    (let f := openFrame 5 64 64 0
     (hears {} [(F.ST_SID_SID, 5)] f).m.carries noLines f.bytes = true ∧ (hears {} [(F.ST_SID_SID, 5)] f).m.sess = 2 ∧
       (hears {} [(F.ST_SID_SID, 5)] f).m.takeAck f.ack = (hears {} [(F.ST_SID_SID, 5)] f).m) := by decide +kernel

theorem witness_Sessions_close :
    (let f := frame 0x3C 0 5 0 []
     (hears {} [(F.ST_SID_SID, 5)] f).m.carries noLines f.bytes = true ∧ (hears {} [(F.ST_SID_SID, 5)] f).m.hasSess = true ∧
       (hears {} [(F.ST_STAT_SESS, 1)] f).m.carries noLines f.bytes = true ∧ (hears {} [(F.ST_STAT_SESS, 1)] f).m.get F.ST_SID_SID ≠ 5) := by
  decide +kernel

/-- What a lane carries for a training set at a rate. -/
def tsLine (rate : Nat) (b : List Byte) : List LineWord := sendLines rate (tsWords b) {}

/-- What no training set is: a symbol outside the code, and nothing. -/
theorem witness_Training_none : (let s := up 2 id
     (s.m.laneWords 1 {} [.syms [0]]).2 = 1 ∧ (s.m.laneWords 1 {} []).2 = 0 ∧ parseTs (tsBytes (s.m.laneWords 1 {} []).1) = none) ∧
    ((up 4 (fun x => { x with ref := false })).m.ln.ref = false) ∧ (up 4 id).m.get F.LN_STAT_STATE = 4 ∧
    (up 4 (fun x => { x with cfg := 0 })).m.ln.eqTable = false := by decide +kernel

/-- Sets that start an attempt in DETECT, that count in ALIGN, and that end it. -/
theorem witness_Training_align :
    (let w := tsLine 0 (tset 2 0 0 1 0 0)
     let s1 := up 1 (fun x => { x with cfg := 0xFFFFFFFF })
     let s2 (n : Nat) : State := up 2 (fun x => { x with lane := x.lane.set 0 { run := n } })
     (s1.m.laneWords 0 {} w).2 = 0 ∧ (parseTs (tsBytes (s1.m.laneWords 0 {} w).1)).isSome = true ∧ s1.m.attemptAt.isSome = true ∧
       s1.m.ln.field F.LN_CTL_INIT = 1 ∧
       ((s2 6).m.laneWords 0 {} w).2 = 0 ∧ (parseTs (tsBytes ((s2 6).m.laneWords 0 {} w).1)).isSome = true ∧ ((s2 6).m.lane 0).run < 7 ∧
       ((s2 7).m.laneWords 0 {} w).2 = 0 ∧ 7 ≤ ((s2 7).m.lane 0).run) := by decide +kernel

/-- The set that completes PARAM, for a higher rate and for L0. -/
theorem witness_Training_param :
    (let s := lanes (fun x => { x with ackFrom := some 0, peer := (0, 1), peerRun := 7, ackRun := 7, cfg := 0 })
       [(F.LN_CTL_EN, 1), (F.LN_STAT_STATE, 3), (F.LNL_STAT_BLOCK 0, 1)]
     let w := tsLine 0 (tset 3 0x80 0 0x11 0 0)
     (s.m.laneWords 0 {} w).2 = 0 ∧ (parseTs (tsBytes (s.m.laneWords 0 {} w).1)).isSome = true ∧
       (parseTs (tsBytes (s.m.laneWords 0 {} w).1)).map (fun f => (f.state, f.ack, f.maxRate, f.mask)) = some (3, true, 0, 1)) := by
  decide +kernel

/-- Sets of RATE and of EQ at L1: a skew, and a preset that is asked for. -/
theorem witness_Training_rate :
    (let s := up 5 (fun x => { x with rate := 1 })
     let w := tsLine 1 (tset 5 2 1 1 0 0)
     s.m.locked = false ∧ s.m.get (F.LNL_STAT_BLOCK 2) = 0 ∧ (s.m.laneWords 2 {} w).2 = 0 ∧
       (parseTs (tsBytes (s.m.laneWords 2 {} w).1)).isSome = true) ∧
    (let s := up 6 (fun x => { x with width := 4, cfg := 0, rate := 1 })
     let w := tsLine 1 (tset 6 1 1 1 0x90 0)
     s.m.ln.eqTable = false ∧ (s.m.laneWords 1 {} w).2 = 0 ∧
       (parseTs (tsBytes (s.m.laneWords 1 {} w).1)).map (fun f => (f.reqTog, f.preset)) = some (true, 1)) := by decide +kernel

/-- An ACTIVE link with each state of the session, RESUMEEN set and clear, a lane whose signal is gone, and a lane with block lock. -/
theorem witness_LaneSignals_sessions :
    (let s (l : List (Fld × Nat)) : State := lanes (fun x => { x with gone := some 0, width := 4 })
       ([(F.LN_CTL_EN, 1), (F.LN_STAT_STATE, 7), (F.LNL_STAT_BLOCK 0, 1)] ++ l)
     let s1 := s [(F.ST_STAT_SESS, 1)]
     let s2 := s [(F.ST_STAT_SESS, 2), (F.ST_CTL_RESUMEEN, 1)]
     let s3 := s [(F.ST_STAT_SESS, 2), (F.ST_CTL_RESUMEEN, 0)]
     s1.m.get F.ST_STAT_SESS = 1 ∧ s2.m.get F.ST_CTL_RESUMEEN = 1 ∧ s3.m.get F.ST_CTL_RESUMEEN = 0 ∧
       s3.m.get F.ST_STAT_SESS = 2 ∧ s1.m.ln.gone.isSome = true ∧ s1.m.get (F.LNL_STAT_BLOCK 0) = 1 ∧ s1.m.lnUp = true) := by decide +kernel

/-- A training set on lane 0 of an ACTIVE link, and a lane that finds its commas inverted. -/
theorem witness_LaneSignals_sets :
    (let s := up 7 id
     let w := tsLine 0 (tset 2 0 0 1 0 0)
     (s.m.laneWords 0 {} w).2 = 0 ∧ (parseTs (tsBytes (s.m.laneWords 0 {} w).1)).map (fun f => (f.ack, f.state)) = some (false, 2)) ∧
    (let s := lanes id [(F.LN_STAT_STATE, 2), (F.LNL_STAT_CDR 3, 1)]
     s.m.get (F.LNL_STAT_CDR 3) = 1 ∧ s.m.get (F.LNL_STAT_BLOCK 3) = 0 ∧ s.m.get F.LN_STAT_STATE = 2) ∧
    (let s := lanes id [(F.LN_STAT_STATE, 7), (F.LNL_STAT_CDR 3, 1), (F.LNL_STAT_BLOCK 3, 1)]
     s.m.get (F.LNL_STAT_BLOCK 3) = 1) ∧ (lanes id [(F.LN_STAT_STATE, 5), (F.LN_CTL_EN, 1)]).m.get F.LN_STAT_STATE = 5 := by
  decide +kernel

/-- A context that is to close, with its output stalled and EN clear. -/
theorem witness_Pictures_closing :
    (let p := { pic0 with set := setOf [(F.BC_CTX_IOSIZE_SIZE 0, 8192)], coded := some (1, true, false),
                          out := [{ bytes := [1], check := none }] }
     let s := encoding [(F.BC_CTX_STAT_OSTALL 0, 1)] { closing := true } p
     s.m.bc.enc = some p ∧ (s.m.bcCtx 0).closing = true ∧ s.m.get (F.BC_CTX_CTL_EN 0) = 0) := by decide +kernel

/-- The symbols of a frame whose bytes 1-88 are given. -/
def syms (l : List Byte) : List (BitVec 10) := (frameSyms l false).1

/-- The frames of the next witnesses come out of their symbols. -/
theorem witness_Bowline_join6 : frameOf (syms join6) = (join6, false) := by decide +kernel
theorem witness_Bowline_join7 : frameOf (syms join7) = (join7, false) := by decide +kernel
theorem witness_Bowline_motion0 : frameOf (syms motion0) = (motion0, false) := by decide +kernel
theorem witness_Bowline_epoch0 : frameOf (syms epoch0) = (epoch0, false) := by decide +kernel
theorem witness_Bowline_epoch1000 : frameOf (syms epoch1000) = (epoch1000, false) := by decide +kernel

/-- EN set as the master; a follower that knows its number and is not idle; returns in DISCOVER, NUMBERED and RUN. -/
theorem witness_Bowline_more :
    (on [(F.BWL_CTL_ROLE, 1)]).m.get F.BWL_CTL_ROLE = 1 ∧
    (follower 2 { known := true } [(F.H_ILL_CTL_EN 5, 1)]).m.unitIdle = false ∧ (follower 1 { known := true }).m.bwl.known = true ∧
    (follower 4 { known := true }).m.get F.BWL_STAT_STATE = 4 ∧
    (master 1 { out := [(0, false)] }).m.bwl.out.find? (fun o => !o.2) = some (0, false) ∧
    (master 1 { out := [(0, false)] }).m.get F.BWL_STAT_STATE = 1 ∧ (master 4 { out := [(0, false), (3000, false)] }).m.bwlMaster = true := by
  decide +kernel

theorem witness_PowerAndResets_release :
    (let s := inPor (fun x => { x with lockedOnce := true })
     s.m.pwr.goodPre = false ∧ s.m.pwr.goodAt + 300004 < 2 ^ 64) ∧
    (let s : State := { inPor id with m := { (inPor id).m with pwr := { (inPor id).m.pwr with resetn := false } } }
     s.m.pwr.por = true ∧ s.m.pwr.good = 0x3F ∧ s.m.pwr.resetn = false) ∧
    (mach [] (fun m => { m with pwr := { m.pwr with good := 0x3E } })).m.pwr.good ≠ 0x3F ∧
    (mach [] (fun m => { m with pwr := { m.pwr with good := 0x1F } })).m.pwr.good = 0x1F := by decide +kernel

end Sys2Proof.Tests
end

section
/-!
Settles the family of the Felwen base instructions: what the two null words decode to (R247), and what the divide
instructions give in their special cases (R258).
-/

/-! ## The decoder -/

namespace Sys2Proof

/-- OP 0x3F is assigned to no instruction, so every word that holds it is illegal (R246, R273). -/
theorem decodeWord_of_wOp_0x3F (c : Fin 8) {w : Word} (hop : wOp w = 0x3F) : decodeWord c w = none := by
  simp [decodeWord, decodeR, hop]

/-- No instruction of OP 0x00 has the function code 0x00 (R274). -/
theorem decodeWord_of_wOp_zero_wFn_zero (c : Fin 8) {w : Word} (hop : wOp w = 0) (hfn : wFn w = 0) :
    decodeWord c w = none := by
  simp [decodeWord, decodeR, decodeAlu, hop, hfn]

/-- Settles O8: the word of zeros holds OP 0x00 with function code 0x00, the word of ones OP 0x3F. -/
theorem nullWordsIllegal : Obligations.NullWordsIllegal := fun c =>
  ⟨decodeWord_of_wOp_zero_wFn_zero c (by decide) (by decide), decodeWord_of_wOp_0x3F c (by decide)⟩

end Sys2Proof

namespace Sys2Proof.Machine

/-! ## What a core's turn leaves alone -/

/-- Running the clock on changes the count only. -/
theorem Mach.runTo_changes (m : Mach) (t : Nat) : ∃ n w, m.runTo t = { m with sysTime := n, wraps := w } := by
  obtain h | h := m.runTo_cases t
  · exact ⟨_, _, h⟩
  · exact ⟨_, _, h⟩

/-- The turn of an agent changes the count, and what the model notes of the beat, only (R74). -/
theorem Mach.turn_changes (m : Mach) (r : Nat) :
    ∃ n w b, m.turn r = { m with sysTime := n, wraps := w, beat := b } := by
  obtain ⟨n, w, htick⟩ := m.runTo_changes (nextGrid 4 m.now)
  unfold Mach.turn
  split
  · exact ⟨_, _, _, rfl⟩
  · dsimp only
    split
    · obtain ⟨n', w', hnext⟩ := m.atTick.runTo_changes (m.atTick.now + 4)
      rw [hnext, Mach.atTick, htick]
      exact ⟨_, _, _, rfl⟩
    · rw [Mach.atTick, htick]
      exact ⟨_, _, _, rfl⟩

@[simp] theorem Mach.core_setCore_self (m : Mach) (c : Fin 8) (x : CoreSt) : (m.setCore c x).core c = x := by
  simp [Mach.core, Mach.setCore]

@[simp] theorem Mach.setCore_setCore (m : Mach) (c : Fin 8) (x y : CoreSt) :
    (m.setCore c x).setCore c y = m.setCore c y := by
  simp [Mach.setCore]

@[simp] theorem Mach.turn_core (m : Mach) (r : Nat) (c : Fin 8) : (m.turn r).core c = m.core c := by
  obtain ⟨n, w, b, h⟩ := m.turn_changes r
  rw [h]; rfl

@[simp] theorem Mach.takeTurn_core (m : Mach) (c : Fin 8) :
    (m.takeTurn c).core c = { m.core c with lateAt := none } := by
  simp [Mach.takeTurn]

@[simp] theorem Mach.takeTurn_clean (m : Mach) (c : Fin 8) (a : Nat) : (m.takeTurn c).clean a = m.clean a := by
  obtain ⟨n, w, b, h⟩ := m.turn_changes (c.val + 1)
  rw [Mach.takeTurn, h]; rfl

/-! ## The issue of an instruction -/

theorem Mach.clean_iff (m : Mach) (a : Nat) :
    m.clean a = true ↔ m.isBad a = false ∧ m.eccOne.contains (eccWord a) = false := by
  simp [Mach.clean, Mach.isBad]

/-- The premise of the statements about instructions, by the checks of `Mach.issue`. -/
theorem Mach.fetches_iff (m : Mach) (c : Fin 8) : m.fetches c = true ↔
    m.canRun c = true ∧ (m.core c).pc.toNat % 4 = 0 ∧ (m.core c).pc.toNat < 0x8000 ∧
      m.clean (imemBase c + (m.core c).pc.toNat) = true := by
  change (m.canRun c && decide ((m.core c).pc.toNat % 4 = 0) && decide ((m.core c).pc.toNat < 0x8000) &&
    m.clean (imemBase c + (m.core c).pc.toNat)) = true ↔ _
  simp only [Bool.and_eq_true, decide_eq_true_eq, and_assoc]

/-- A word free of errors reads without a correction (R196). -/
theorem Mach.touch_of_clean (m : Mach) (a : Nat) (h : m.clean a = true) : m.touch a = m := by
  obtain ⟨-, hone⟩ := (m.clean_iff a).1 h
  rw [Mach.touch, hone]
  rfl

/-- An instruction whose fetch passes every check executes in the core's turn. -/
theorem Mach.issue_of_fetches (m : Mach) (c : Fin 8) (f : Mach → Mach) (h : m.fetches c = true) :
    m.issue c f = f (m.takeTurn c) := by
  obtain ⟨hrun, halign, himem, hclean⟩ := (m.fetches_iff c).1 h
  have hturn : (m.takeTurn c).clean (imemBase c + (m.core c).pc.toNat) = true := by simpa using hclean
  obtain ⟨hbad, -⟩ := (Mach.clean_iff _ _).1 hturn
  simp [Mach.issue, hrun, halign, Nat.not_le.2 himem, hbad, Mach.touch_of_clean _ _ hturn]

/-! ## Reading and writing W -/

theorem rnum_eq_zero (r : Rn) : rnum r = 0 ↔ r = 0 := BitVec.toFin_inj (y := 0)

/-- A register reads in the core's turn as it does before it. -/
@[simp] theorem State.takeTurn_w (s : State) (c : Fin 8) (r : Rn) : (s.m.takeTurn c).w c r = s.W c r := by
  simp only [Mach.w, Mach.rW, CoreSt.readW, State.W, rnum_eq_zero, Mach.takeTurn_core]
  rfl

theorem CoreSt.writeW_rnum (x : CoreSt) (rd : Rn) (v : Word) : x.writeW (rnum rd) v = { x with w := putW x.w rd v } := by
  by_cases h : rd = 0
  · simp only [CoreSt.writeW, putW, rnum_eq_zero, h, if_true]
  · simp only [CoreSt.writeW, putW, rnum_eq_zero, h, if_false]
    rfl

/-- W[rd] is written and the PC goes on by 4 (R253). -/
theorem Mach.next_setW (m : Mach) (c : Fin 8) (rd : Rn) (v : Word) : (m.setW c rd v).next c =
    m.setCore c { m.core c with w := putW (m.core c).w rd v, pc := (m.core c).pc + 4 } := by
  simp [Mach.next, Mach.setPc, Mach.setW, Mach.wW, CoreSt.writeW_rnum]

/-- An instruction that computes one register from registers and immediates: it retires in the core's turn. -/
theorem State.run_compute (s : State) (c : Fin 8) (rd : Rn) (v : Mach → Word) (h : s.m.fetches c = true) :
    s.run (fun m => m.compute c rd v) = .next ((s.turn c).retire c rd (v (s.m.takeTurn c))) := by
  simp only [State.run_eq, Mach.compute, Mach.issue_of_fetches _ _ _ h, Mach.next_setW]
  rfl

/-- A register-register instruction retires with its operation on W[ra] and W[rb]. -/
theorem State.run_alu (s : State) (c : Fin 8) (rd ra rb : Rn) (op : Word → Word → Word) (h : s.m.fetches c = true) :
    s.run (fun m => m.alu c rd ra rb op) = .next ((s.turn c).retire c rd (op (s.W c ra) (s.W c rb))) := by
  simp only [Mach.alu, s.run_compute c rd _ h, State.takeTurn_w]

/-! ## The divide instructions -/

theorem exec_div (s : State) (c : Fin 8) (rd ra rb : Rn) (h : s.m.fetches c = true) :
    exec (.div c rd ra rb) s = .next ((s.turn c).retire c rd (divS (s.W c ra) (s.W c rb))) :=
  s.run_alu c rd ra rb divS h

theorem exec_divu (s : State) (c : Fin 8) (rd ra rb : Rn) (h : s.m.fetches c = true) :
    exec (.divu c rd ra rb) s = .next ((s.turn c).retire c rd (divU (s.W c ra) (s.W c rb))) :=
  s.run_alu c rd ra rb divU h

theorem exec_rem (s : State) (c : Fin 8) (rd ra rb : Rn) (h : s.m.fetches c = true) :
    exec (.rem c rd ra rb) s = .next ((s.turn c).retire c rd (remS (s.W c ra) (s.W c rb))) :=
  s.run_alu c rd ra rb remS h

theorem exec_remu (s : State) (c : Fin 8) (rd ra rb : Rn) (h : s.m.fetches c = true) :
    exec (.remu c rd ra rb) s = .next ((s.turn c).retire c rd (remU (s.W c ra) (s.W c rb))) :=
  s.run_alu c rd ra rb remU h

theorem divS_zero (a : Word) : divS a 0 = 0xFFFFFFFF := rfl
theorem divU_zero (a : Word) : divU a 0 = 0xFFFFFFFF := rfl
theorem remS_zero (a : Word) : remS a 0 = a := rfl
theorem remU_zero (a : Word) : remU a 0 = a := rfl

/-- The quotient of the lowest word by -1 does not fit and wraps back to the lowest word (R258). -/
theorem divS_min_neg_one : divS 0x80000000 0xFFFFFFFF = 0x80000000 := by decide
theorem divU_min_max : divU 0x80000000 0xFFFFFFFF = 0 := by decide
theorem remS_min_neg_one : remS 0x80000000 0xFFFFFFFF = 0 := by decide
theorem remU_min_max : remU 0x80000000 0xFFFFFFFF = 0x80000000 := by decide

/-- Settles O13: each instruction retires with its quotient or remainder, which R258's two cases fix. -/
theorem divideSpecialCases : Obligations.DivideSpecialCases := by
  intro c rd ra rb s hfetch
  refine ⟨fun hzero => ?_, fun hmin hneg => ?_⟩
  · simp only [exec_div, exec_divu, exec_rem, exec_remu, hfetch, hzero, divS_zero, divU_zero, remS_zero, remU_zero, and_self]
  · simp only [exec_div, exec_divu, exec_rem, exec_remu, hfetch, hmin, hneg,
      divS_min_neg_one, divU_min_max, remS_min_neg_one, remU_min_max, and_self]

end Sys2Proof.Machine
end

section
/-!
Settles the family of the Felwen device instructions: HALT with the RESUME behind it (R300), and the checks of the atomics'
addresses (R303).
-/

/-! ## The fields below a replaced one -/

namespace Sys2Proof

theorem bits_mul_le (v hi lo : Nat) : bits v hi lo * 2 ^ lo ≤ v := by
  have hbits : bits v hi lo ≤ v / 2 ^ lo := by
    rw [bits, Nat.shiftRight_eq_div_pow]
    exact Nat.mod_le _ _
  exact (Nat.mul_le_mul_right _ hbits).trans (Nat.div_mul_le_self v _)

theorem testBit_bits (v hi lo i : Nat) : (bits v hi lo).testBit i = (decide (i < hi + 1 - lo) && v.testBit (lo + i)) := by
  rw [bits, Nat.testBit_mod_two_pow, Nat.testBit_shiftRight]

theorem testBit_setBits_of_lt (v hi lo x : Nat) {i : Nat} (h : i < lo) : (setBits v hi lo x).testBit i = v.testBit i := by
  have hlow : setBits v hi lo x % 2 ^ lo = v % 2 ^ lo := by
    rw [setBits, Nat.add_mul_mod_self_right, mul_comm, Nat.sub_mul_mod (by rw [mul_comm]; exact bits_mul_le v hi lo)]
  simpa [Nat.testBit_mod_two_pow, h] using congrArg (·.testBit i) hlow

theorem bits_setBits_of_lt (v hi lo x : Nat) {hi' : Nat} (lo' : Nat) (h : hi' < lo) :
    bits (setBits v hi lo x) hi' lo' = bits v hi' lo' := by
  refine Nat.eq_of_testBit_eq fun i => ?_
  rw [testBit_bits, testBit_bits]
  by_cases hi : i < hi' + 1 - lo'
  · rw [testBit_setBits_of_lt v _ lo x (by omega)]
  · simp [hi]

end Sys2Proof

namespace Sys2Proof.Machine

/-- A put leaves the fields of the same register below its own alone. -/
theorem Mach.get_put_of_lt (m : Mach) (f g : Fld) (v : Nat) (hreg : g.addr = f.addr) (hlt : g.hi < f.lo)
    (hle : f.lo ≤ f.hi) (h32 : f.hi < 32) : (m.put f v).get g = m.get g := by
  have hbound := setBits_lt 32 (m.reg f.addr).toNat f.hi f.lo v (m.reg f.addr).isLt hle h32
  simp only [Mach.get, Mach.put, Mach.noteFlags_reg, hreg, Mach.reg_setReg_self, BitVec.toNat_ofNat]
  rw [Nat.mod_eq_of_lt hbound, bits_setBits_of_lt _ _ _ _ _ hlt]

/-! ## STAT of a pair -/

theorem Mach.get_setPair_state (m : Mach) (c : Fin 8) (state cause : Nat) :
    (m.setPair c state cause).get (F.C_STAT_STATE c) = state % 4 := by
  have hbelow := (m.put (F.C_STAT_STATE c) state).get_put_of_lt (F.C_STAT_CAUSE c) (F.C_STAT_STATE c) cause rfl
    (by decide : 1 < 8) (by decide : 8 ≤ 11) (by decide : 11 < 32)
  exact hbelow.trans (m.get_put_self _ _ (by decide : 0 ≤ 1) (by decide : 1 < 32))

theorem Mach.get_setPair_cause (m : Mach) (c : Fin 8) (state cause : Nat) :
    (m.setPair c state cause).get (F.C_STAT_CAUSE c) = cause % 16 :=
  Mach.get_put_self _ _ _ (by decide : 8 ≤ 11) (by decide : 11 < 32)

theorem Mach.reg_setPair_ne (m : Mach) (c : Fin 8) (state cause : Nat) {a : Nat} (h : a ≠ F.C_STAT_reg c) :
    (m.setPair c state cause).reg a = m.reg a := by
  rw [Mach.setPair, Mach.reg_put_ne _ (F.C_STAT_CAUSE c) _ h, Mach.reg_put_ne _ (F.C_STAT_STATE c) _ h]

@[simp] theorem Mach.setPair_cores (m : Mach) (c : Fin 8) (state cause : Nat) : (m.setPair c state cause).cores = m.cores := by
  simp only [Mach.setPair, Mach.put_cores]

theorem Mach.CoresOnly.setPair {m n : Mach} (h : m.CoresOnly n) (c : Fin 8) (state cause : Nat) :
    m.CoresOnly (n.setPair c state cause) :=
  (h.put (F.C_STAT_STATE c) _ (state_addr c)).put (F.C_STAT_CAUSE c) _ (state_addr c)

/-! ## Halts -/

/-- A halt shows in STAT with its cause (R234). -/
theorem Mach.halt_haltedBy (m : Mach) (c : Fin 8) {cause : Nat} (h : cause < 16) : (m.halt c cause).haltedBy c cause :=
  ⟨m.get_setPair_state c 3 cause, (m.get_setPair_cause c 3 cause).trans (Nat.mod_eq_of_lt h)⟩

theorem Mach.reg_halt_ne (m : Mach) (c : Fin 8) (cause : Nat) {a : Nat} (h : a ≠ F.C_STAT_reg c) :
    (m.halt c cause).reg a = m.reg a :=
  m.reg_setPair_ne c 3 cause h

@[simp] theorem Mach.halt_cores (m : Mach) (c : Fin 8) (cause : Nat) :
    (m.halt c cause).cores = m.cores.set c { m.core c with waitUntil := none, lateAt := none } := by
  simp only [Mach.halt, Mach.setCore, Mach.setPair_cores]

theorem Mach.CoresOnly.halt {m n : Mach} (h : m.CoresOnly n) (c : Fin 8) (cause : Nat) : m.CoresOnly (n.halt c cause) :=
  (h.setPair c 3 cause).setCore _ _

/-! ## What a core's turn and its next word change -/

@[simp] theorem Mach.takeTurn_reg (m : Mach) (c : Fin 8) (a : Nat) : (m.takeTurn c).reg a = m.reg a := by
  obtain ⟨n, w, b, h⟩ := m.turn_changes (c.val + 1)
  rw [Mach.takeTurn, h]; rfl

@[simp] theorem Mach.takeTurn_cores (m : Mach) (c : Fin 8) :
    (m.takeTurn c).cores = m.cores.set c { m.core c with lateAt := none } := by
  obtain ⟨n, w, b, h⟩ := m.turn_changes (c.val + 1)
  rw [Mach.takeTurn, h]; rfl

@[simp] theorem Mach.next_reg (m : Mach) (c : Fin 8) (a : Nat) : (m.next c).reg a = m.reg a := rfl

@[simp] theorem Mach.next_cores (m : Mach) (c : Fin 8) :
    (m.next c).cores = m.cores.set c { m.core c with pc := (m.core c).pc + 4 } := rfl

@[simp] theorem Mach.next_core_self (m : Mach) (c : Fin 8) : (m.next c).core c = { m.core c with pc := (m.core c).pc + 4 } :=
  m.core_setCore_self c _

/-- What changes cores and their registers in a core's turn is a change of these alone, apart from the count. -/
theorem Mach.CoresOnly.onlyCores {s : State} {c : Fin 8} {n : Mach} (h : (s.m.takeTurn c).CoresOnly n) :
    OnlyCores s { s with m := n } := by
  obtain ⟨r, x, b, rfl⟩ := h.same
  obtain ⟨k, w, b', hturn⟩ := s.m.turn_changes (c.val + 1)
  rw [Mach.takeTurn, hturn]
  rfl

theorem OnlyCores.live {s t : State} (h : OnlyCores s t) : t.m.live = s.m.live := by
  rw [h]; rfl

/-! ## HALT and RESUME -/

/-- The machine after a HALT of core `c`: in the core's turn the PC goes on, and the pair halts with cause 0x2 (R300). -/
def Mach.haltInTurn (m : Mach) (c : Fin 8) : Mach := ((m.takeTurn c).next c).halt c 2

theorem exec_halt (s : State) (c : Fin 8) (h : s.m.fetches c = true) :
    exec (.halt c) s = .next { s with m := s.m.haltInTurn c } := by
  change s.run (fun m => m.issue c (fun m => (m.next c).halt c 2)) = _
  rw [State.run_eq, Mach.issue_of_fetches _ _ _ h, Mach.haltInTurn]

theorem Mach.reg_haltInTurn_ne (m : Mach) (c : Fin 8) {a : Nat} (h : a ≠ F.C_STAT_reg c) :
    (m.haltInTurn c).reg a = m.reg a := by
  rw [Mach.haltInTurn, Mach.reg_halt_ne _ _ _ h, Mach.next_reg, Mach.takeTurn_reg]

theorem Mach.haltInTurn_cores (m : Mach) (c : Fin 8) : (m.haltInTurn c).cores =
    m.cores.set c { m.core c with pc := (m.core c).pc + 4, waitUntil := none, lateAt := none } := by
  simp [Mach.haltInTurn]

theorem Mach.haltInTurn_onlyCores (s : State) (c : Fin 8) : OnlyCores s { s with m := s.m.haltInTurn c } :=
  ((Mach.CoresOnly.refl (s.m.takeTurn c)).setCore c _ |>.halt c 2).onlyCores

theorem Mach.haltInTurn_phase (m : Mach) (c : Fin 8) : (m.haltInTurn c).phase = m.phase := by
  have hreg : F.BOOT_STATUS_reg ≠ F.C_STAT_reg c := by simp only [F.BOOT_STATUS_reg, F.C_STAT_reg]; omega
  exact congrArg (fun v : Word => bits v.toNat 2 0) (m.reg_haltInTurn_ne c hreg)

@[simp] theorem Mach.atTick_cores (m : Mach) : m.atTick.cores = m.cores := by
  obtain ⟨n, w, h⟩ := m.runTo_changes (nextGrid 4 m.now)
  rw [Mach.atTick, h]

/-- RESUME of a pair that its own HALT has stopped: it runs again, and no core has moved (R238). -/
theorem does_cmdResume_of_haltedBy {t : State} {c : Fin 8} (hlive : t.m.live = true) (hphase : t.m.phase = 4)
    (hhalt : t.m.haltedBy c 2) :
    Does (.cmdResume c) t (fun u => u.m.get (F.C_STAT_STATE c) = 1 ∧ u.m.cores = t.m.cores) := by
  obtain ⟨hstate, hcause⟩ := hhalt
  have hresume : t.m.atTick.cmdResume c = t.m.atTick.setPair c 1 0 := by
    have hphase' : t.m.atTick.phase = 4 := (t.m.atTick_get _).trans hphase
    simp [Mach.cmdResume, Mach.pairState, Mach.pairCause, hphase', hstate, hcause]
  refine ⟨{ t with m := t.m.atTick.cmdResume c }, ?_, ?_, ?_⟩
  · change t.run (fun m => m.ifLive (fun m => m.atTick.cmdResume c)) = _
    rw [State.run_eq, Mach.ifLive_of _ _ hlive]
  · simp only [hresume, Mach.get_setPair_state]
  · simp only [hresume, Mach.setPair_cores, Mach.atTick_cores]

/-- Settles O19: HALT changes the count, STAT and its core alone, so that RESUME finds the pair halted by it. -/
theorem haltAndResume : Obligations.HaltAndResume := by
  intro c s hfetch
  obtain ⟨hrun, -⟩ := (Mach.fetches_iff _ _).1 hfetch
  obtain ⟨⟨hlive, hphase⟩, -⟩ : (s.m.live = true ∧ s.m.phase = 4) ∧ s.m.pairState c = 1 := by
    simpa [Mach.canRun] using hrun
  have hhalt : (s.m.haltInTurn c).haltedBy c 2 := Mach.halt_haltedBy _ c (by decide)
  have hpc : (s.m.haltInTurn c).cores[c].pc = s.m.cores[c].pc + 4 := by simp [Mach.haltInTurn_cores, Mach.core]
  have honly := Mach.haltInTurn_onlyCores s c
  refine ⟨_, exec_halt s c hfetch, hhalt, hpc, ?_, fun a ha => s.m.reg_haltInTurn_ne c ha, honly, fun d hd => ?_, ?_⟩
  · simp [Mach.haltInTurn_cores, Mach.core]
  · have hval : c.val ≠ d.val := fun e => hd (Fin.ext e.symm)
    simp [Mach.haltInTurn_cores, Vector.getElem_set_ne _ _ hval]
  · obtain ⟨u, hexec, hstate, hcores⟩ := does_cmdResume_of_haltedBy (t := { s with m := s.m.haltInTurn c })
      (honly.live.trans hlive) ((s.m.haltInTurn_phase c).trans hphase) hhalt
    exact ⟨u, hexec, hstate, by rw [hcores]; exact hpc⟩

/-! ## Atomics -/

theorem exec_swap (s : State) (c : Fin 8) (rd ra rb : Rn) : exec (.swap c rd ra rb) s =
    .next { s with m := s.m.atomic s.fuses c rd ra (fun m _ => some (m.w c rb)) } := rfl

/-- A bank number of a reference run, beyond the two banks of R401, under which head 0's BLEN is STAT of C7. -/
def strayBank : Nat := (F.C_STAT_reg 7 - F.H_SHD_BLEN_reg 0 0) / 4

theorem blen_reg_strayBank : F.H_SHD_BLEN_reg 0 strayBank = F.C_STAT_reg 7 := by decide

/-- After hand-off C7 runs firmware at PC 0 with a misaligned mailbox address in W3, and head 0 is in a reference run of
that bank. -/
def strayRun : State :=
  let m := State.reset.m.put F.BOOT_STATUS_PHASE 4
  let m := m.setCore 7 { w := (Vector.replicate 16 0).set 3 0x20000002 }
  { State.reset with m := m.setShd 0 { runLeft := some 1, runBank := strayBank } }

theorem strayRun_fetches : strayRun.m.fetches 7 = true := by decide +kernel

theorem strayRun_misaligned : (strayRun.W 7 3).toNat % 4 ≠ 0 := by decide +kernel

/-- The class 1 fault of the halt enters the safe state, which aborts head 0's run and clears its BLEN (R50, R423): by
`blen_reg_strayBank`, STAT of C7. -/
theorem strayRun_swap_state : (strayRun.m.atomic strayRun.fuses 7 0 3 (fun m _ => some (m.w 7 4))).get (F.C_STAT_STATE 7) = 0 := by
  decide +kernel

/-- Refutes O24: the statement takes every state, also one in which the bank number of head 0's reference run is no bank.
The safe state's abort of that run then clears C7's STAT, and the misaligned SWAP does not leave the pair halted. -/
theorem not_atomicChecks : ¬ Obligations.AtomicChecks := by
  intro h
  obtain ⟨hmisaligned, -⟩ := h 7 0 3 4 strayRun strayRun_fetches
  obtain ⟨t, hexec, ⟨hstate, -⟩, -⟩ := hmisaligned strayRun_misaligned (.swap 7 0 3 4) List.mem_cons_self
  rw [exec_swap] at hexec
  cases hexec
  exact absurd (strayRun_swap_state.symm.trans hstate) (by decide)

end Sys2Proof.Machine
end

section
/-!
Settles the family of the block as a whole: what a step may change of the fuses and the NV array, that every command has a next
state, and what holds after reset.
-/

namespace Sys2Proof.Machine

/-! ## Writes of the NV array -/

theorem NvArr.apply_append (x : NvArr) (v w : NvWrites) : NvArr.apply (NvArr.apply x v) w = NvArr.apply x (v ++ w) :=
  (List.foldl_append ..).symm

theorem NvArr.wf_put (x : NvArr) (a : Nat) (l : List Byte) (h : Sparse.wf (fun _ => 0) x = true) :
    Sparse.wf (fun _ => 0) (NvArr.put x a l) = true := by
  induction l generalizing x a with
  | nil => exact h
  | cons b t ih => exact ih _ _ (Sparse.wf_set _ _ _ _ h)

theorem NvArr.wf_apply (x : NvArr) (w : NvWrites) (h : Sparse.wf (fun _ => 0) x = true) :
    Sparse.wf (fun _ => 0) (NvArr.apply x w) = true := by
  induction w generalizing x with
  | nil => exact h
  | cons p t ih => exact ih _ (NvArr.wf_put _ _ _ h)

/-- The end of an NV command leaves word writes of the array only (R939-R942). -/
theorem nvDone_writes (x : NvArr) (m : Mach) (d : Nat) (e : NvEnd) : ∃ w, (nvDone x m d e).1 = NvArr.apply x w := by
  unfold nvDone
  split
  · exact ⟨[], rfl⟩
  · next c _ =>
    split
    · exact ⟨[], rfl⟩
    · extract_lets _ _ m cur res
      clear_value m cur res
      by_cases hlog : c.cmd = 4
      · exact ⟨[], by simp only [hlog, if_true]; rfl⟩
      · simp only [hlog, if_false]
        split
        · exact ⟨[], rfl⟩
        · split
          · cases cur <;> exact ⟨[], rfl⟩
          · split
            · split
              · exact ⟨_, NvArr.apply_append _ _ _⟩
              · exact ⟨_, rfl⟩
            · exact ⟨_, rfl⟩

/-- The end of a log entry leaves word writes of the array only (R943). -/
theorem nvLogEntry_writes (x : NvArr) (m : Mach) (d : Nat) : ∃ w, (nvLogEntry x m d).1 = NvArr.apply x w := by
  unfold nvLogEntry
  split
  · exact ⟨[], rfl⟩
  · dsimp only
    split
    · exact ⟨[], rfl⟩
    · exact ⟨_, NvArr.apply_append _ _ _⟩

/-! ## What a command may change of the fuses and the NV array -/

/-- The bits that a command joins to the blown fuses, and the words it writes to the NV array. -/
def State.After (s : State) (f : BitVec 259) (w : NvWrites) (t : State) : Prop :=
  t.fuses = s.fuses ||| f ∧ t.nvArr = NvArr.apply s.nvArr w ∧ t.pending = s.pending

theorem State.After.machine (s : State) (m : Mach) : s.After 0#259 [] { s with m := m } :=
  ⟨BitVec.or_zero.symm, rfl, rfl⟩

theorem State.cutBlow_after (s : State) : ∃ f, s.After f [] s.cutBlow := by
  unfold State.cutBlow
  split
  · exact ⟨_, rfl, rfl, rfl⟩
  · exact ⟨0#259, State.After.machine s s.m⟩

/-- A command blows fuses by an `or` onto those that are blown, and writes the NV array by word writes; only the rows of
`blowsFuse` and `writesNv` do either. -/
theorem exec_after (i : Instr) (s : State) : ∃ f w t, exec i s = .next t ∧ s.After f w t ∧
    (blowsFuse i = false → f = 0#259) ∧ (writesNv i = false → w = []) := by
  cases i with
  | powerOnResetAssert supply cut =>
    obtain ⟨f, hfuses, hnv, hpending⟩ := s.cutBlow_after
    exact ⟨f, _, _, rfl, ⟨hfuses, congrArg (NvArr.apply · _) hnv, hpending⟩, nofun, nofun⟩
  | fuseBlowDone =>
    refine ⟨match s.m.fuseDone.1 with | some b => (1#259) <<< b | none => 0#259, [], _, rfl, ⟨?_, rfl, rfl⟩, nofun, fun _ => rfl⟩
    dsimp only
    cases s.m.fuseDone.1 with
    | some b => rfl
    | none => exact BitVec.or_zero.symm
  | nvDone beats e =>
    obtain ⟨w, hw⟩ := nvDone_writes s.nvArr s.m beats e
    exact ⟨0#259, w, _, rfl, ⟨BitVec.or_zero.symm, hw, rfl⟩, fun _ => rfl, nofun⟩
  | nvLogEntry beats =>
    obtain ⟨w, hw⟩ := nvLogEntry_writes s.nvArr s.m beats
    exact ⟨0#259, w, _, rfl, ⟨BitVec.or_zero.symm, hw, rfl⟩, fun _ => rfl, nofun⟩
  | _ => exact ⟨0#259, [], _, rfl, State.After.machine s _, fun _ => rfl, fun _ => rfl⟩

/-- A step changes the fuses and the NV array as the command in front does, and not at all with an empty queue. -/
theorem step_after {s t : State} (h : step s = .next t) : ∃ f w,
    t.fuses = s.fuses ||| f ∧ t.nvArr = NvArr.apply s.nvArr w ∧
      (f ≠ 0#259 → ∃ i rest, s.pending = i :: rest ∧ blowsFuse i = true) ∧
      (w ≠ [] → ∃ i rest, s.pending = i :: rest ∧ writesNv i = true) := by
  unfold step at h
  split at h
  · cases h
    obtain ⟨hfuses, hnv⟩ : s.idle.fuses = s.fuses ∧ s.idle.nvArr = s.nvArr := by
      unfold State.idle
      split <;> exact ⟨rfl, rfl⟩
    exact ⟨0#259, [], by rw [hfuses, BitVec.or_zero], hnv, fun hne => absurd rfl hne, fun hne => absurd rfl hne⟩
  · next i rest hpending =>
    obtain ⟨f, w, u, hexec, ⟨hfuses, hnv, -⟩, hf, hw⟩ := exec_after i { s with pending := rest }
    obtain rfl : u = t := by simpa [hexec] using h
    exact ⟨f, w, hfuses, hnv,
      fun hne => ⟨i, rest, hpending, by by_contra hno; exact hne (hf (by simpa using hno))⟩,
      fun hne => ⟨i, rest, hpending, by by_contra hno; exact hne (hw (by simpa using hno))⟩⟩

/-- Settles O3: a command only ever joins bits to the blown fuses, and joins none unless it is a row of `blowsFuse`. -/
theorem fusesNeverClear : Obligations.FusesNeverClear := by
  intro s t hstep
  obtain ⟨f, w, hfuses, -, hblows, -⟩ := step_after hstep
  refine ⟨fun i hi => ?_, fun hne => hblows ?_⟩
  · rw [hfuses, BitVec.getLsbD_or, hi, Bool.true_or]
  · rintro rfl
    exact hne (by rw [hfuses, BitVec.or_zero])

/-- Settles O4: a command changes the NV array by writes of words, each of which keeps the canonical form. -/
theorem nvArrayStaysCanonical : Obligations.NvArrayStaysCanonical := by
  intro s t hcanonical hstep
  obtain ⟨f, w, -, hnv, -, hwrites⟩ := step_after hstep
  refine ⟨?_, fun hne => hwrites ?_⟩
  · rw [State.nvCanonical, hnv]
    exact NvArr.wf_apply _ _ hcanonical
  · rintro rfl
    exact hne hnv

/-! ## The passing of time -/

theorem Mach.now_setNow (m : Mach) (t : Nat) : (m.setNow t).now = t % 2 ^ 64 := by
  have hcount : (m.setNow t).now = t / 2 ^ 48 % 2 ^ 16 * 2 ^ 48 + t % 2 ^ 48 % 2 ^ 48 := rfl
  omega

/-- A running clock goes on to a beat that its count can hold, or stays where it is past it. -/
theorem Mach.now_runTo (m : Mach) {t : Nat} (hrun : m.clk.running = true) (ht : t < 2 ^ 64) : (m.runTo t).now = max m.now t := by
  unfold Mach.runTo
  split
  · next h =>
    obtain ⟨-, hlt⟩ : m.clk.running = true ∧ m.now < t := by simpa using h
    rw [Mach.now_setNow, Nat.mod_eq_of_lt ht, max_eq_right hlt.le]
  · next h =>
    have hle : t ≤ m.now := by simpa [hrun] using h
    exact (max_eq_left hle).symm

@[simp] theorem Mach.runTo_clk (m : Mach) (t : Nat) : (m.runTo t).clk = m.clk := by
  obtain ⟨n, w, h⟩ := m.runTo_changes t
  rw [h]

theorem le_nextGrid_four (n : Nat) : n ≤ nextGrid 4 n ∧ nextGrid 4 n < n + 4 ∧ nextGrid 4 n % 4 = 0 := by
  simp only [nextGrid, ceilDiv]
  omega

theorem Mach.now_atTick (m : Mach) (hrun : m.clk.running = true) (hnow : m.now + 4 ≤ 2 ^ 64) : m.atTick.now = nextGrid 4 m.now := by
  have hgrid := le_nextGrid_four m.now
  rw [Mach.atTick, Mach.now_runTo _ hrun (by omega)]
  omega

@[simp] theorem Mach.now_withBeat (m : Mach) (b : BeatSt) : Mach.now { m with beat := b } = m.now := rfl

@[simp] theorem Mach.setCore_now (m : Mach) (c : Fin 8) (x : CoreSt) : (m.setCore c x).now = m.now := rfl

/-- A turn while the clock runs: the first beat of a tick, or of the next where the agent is past its turn (R31, R74). -/
theorem Mach.turn_of_running (m : Mach) (r : Nat) (hrun : m.clk.running = true) : ∃ b,
    m.turn r = { m.atTick with beat := b } ∨ m.turn r = { m.atTick.runTo (m.atTick.now + 4) with beat := b } := by
  unfold Mach.turn
  cases hpast : m.atTick.beat.turnAt = m.atTick.now / 4 + 1 && decide (r ≤ m.atTick.beat.turnBy)
  · simp only [hrun, hpast, Bool.not_true, Bool.false_eq_true, if_false]
    exact ⟨_, Or.inl rfl⟩
  · simp only [hrun, hpast, Bool.not_true, Bool.false_eq_true, if_false, if_true]
    exact ⟨_, Or.inr rfl⟩

theorem Mach.now_turn (m : Mach) (r : Nat) (hrun : m.clk.running = true) (hnow : m.now + 8 ≤ 2 ^ 64) :
    (m.turn r).now = nextGrid 4 m.now ∨ (m.turn r).now = nextGrid 4 m.now + 4 := by
  have hgrid := le_nextGrid_four m.now
  have htick := m.now_atTick hrun (by omega)
  have hrun' : m.atTick.clk.running = true := by rw [Mach.atTick, Mach.runTo_clk, hrun]
  obtain ⟨b, hturn | hturn⟩ := m.turn_of_running r hrun
  · exact Or.inl (by rw [hturn, Mach.now_withBeat, htick])
  · right
    rw [hturn, Mach.now_withBeat, Mach.now_runTo _ hrun' (by omega), htick]
    omega

theorem Mach.live_iff (m : Mach) : m.live = true ↔ m.clk.running = true ∧ m.inReset = false ∧ m.pwr.thermal = false := by
  simp [Mach.live, and_assoc]

theorem Mach.takeTurn_changes (m : Mach) (c : Fin 8) : ∃ n w b, m.takeTurn c =
    { m with sysTime := n, wraps := w, beat := b, cores := m.cores.set c { m.cores[c] with lateAt := none } } := by
  obtain ⟨n, w, b, h⟩ := m.turn_changes (c.val + 1)
  exact ⟨n, w, b, by rw [Mach.takeTurn, h]; rfl⟩

/-- Settles O2: no arm of `exec` stops or touches the queue, an empty queue lets a beat pass, and a turn runs the clock on to the
first beat of this tick or of the next. -/
theorem everyStepGoesOn : Obligations.EveryStepGoesOn := by
  refine ⟨fun s hpending => ?_, fun i s => ?_, fun c s hlive hnow => ?_⟩
  · refine ⟨s.idle, by rw [step, hpending], fun hrun => ?_, fun hstop => ?_, ?_⟩
    · rw [State.idle, if_pos hrun]
      exact s.m.now_setNow _
    · rw [State.idle, hstop]
      rfl
    · unfold State.idle
      split <;> rfl
  · obtain ⟨f, w, t, hexec, ⟨-, -, hpending⟩, -⟩ := exec_after i s
    exact ⟨t, hexec, hpending⟩
  · obtain ⟨hrun, -⟩ := s.m.live_iff.1 hlive
    have hgrid := le_nextGrid_four s.m.now
    have hturn : (s.m.takeTurn c).now = nextGrid 4 s.m.now ∨ (s.m.takeTurn c).now = nextGrid 4 s.m.now + 4 :=
      s.m.now_turn (c.val + 1) hrun hnow
    obtain ⟨n, w, b, hchanges⟩ := s.m.takeTurn_changes c
    refine ⟨?_, ?_, ?_, ?_⟩
    · change (s.m.takeTurn c).now % 4 = 0
      omega
    · change s.m.now ≤ (s.m.takeTurn c).now
      omega
    · change (s.m.takeTurn c).now < _
      omega
    · simp only [State.turn, hchanges]

/-- Settles O1: by the definition of a step. -/
theorem stepRunsFront : Obligations.StepRunsFront := by
  intro c rest s hpending
  rw [step, hpending]

/-! ## After reset -/

/-- Settles O5. -/
theorem resetHasInvariants : Obligations.ResetHasInvariants :=
  ⟨rfl, rfl, by decide +kernel, rfl, rfl⟩

/-- The three registers that stand apart from their reset values after reset are the ones that `State.reset` lists (log entry 4). -/
theorem reg_reset (a : Nat) (hclk : a ≠ F.CLK_STAT_reg) (hana : a ≠ F.BOOT_ANA_reg) (hstat : a ≠ F.C_STAT_reg 7) :
    State.reset.m.reg a = regReset a := by
  change a ≠ 0x10000 at hclk
  change a ≠ 0x20040 at hana
  change a ≠ 0x47C004 at hstat
  simp only [Mach.reg, State.reset, Sparse.get, hclk, hana, hstat, if_false]

/-- Settles O6: the fields by evaluation, every other register by its absence from the list of `State.reset`. -/
theorem resetState : Obligations.ResetState :=
  ⟨rfl, rfl, rfl, rfl, rfl, rfl, by decide +kernel, by decide +kernel, by decide +kernel, by decide +kernel, reg_reset⟩

end Sys2Proof.Machine

namespace Sys2Proof

/-- Settles O7: each word is decoded by its fields. -/
theorem wordsDecode : Obligations.WordsDecode := by
  refine ⟨?_, ?_, ?_, ?_, ?_, ?_⟩ <;> decide

end Sys2Proof
end

section
/-!
Settles the decoder: decoding an encoded instruction gives it back.
-/

namespace Sys2Proof

/-! ## The fields of a composed word (R243) -/

section
variable (op : BitVec 6) (rd ra rb : Rn) (fn : BitVec 6)

@[simp] theorem wOp_fmtR : wOp (fmtR op rd ra rb fn) = op.toNat := by
  simp [wOp, fmtR, BitVec.extractLsb'_append_eq_ite, -Nat.reduceAdd]

@[simp] theorem wRd_fmtR : wRd (fmtR op rd ra rb fn) = rd := by
  simp [wRd, fmtR, BitVec.extractLsb'_append_eq_ite, -Nat.reduceAdd]

@[simp] theorem wRa_fmtR : wRa (fmtR op rd ra rb fn) = ra := by
  simp [wRa, fmtR, BitVec.extractLsb'_append_eq_ite, -Nat.reduceAdd]

@[simp] theorem wRb_fmtR : wRb (fmtR op rd ra rb fn) = rb := by
  simp [wRb, fmtR, BitVec.extractLsb'_append_eq_ite, -Nat.reduceAdd]

@[simp] theorem wMid_fmtR : wMid (fmtR op rd ra rb fn) = 0 := by
  simp [wMid, fmtR, BitVec.extractLsb'_append_eq_ite, -Nat.reduceAdd]

@[simp] theorem wFn_fmtR : wFn (fmtR op rd ra rb fn) = fn.toNat := by
  simp [wFn, fmtR, BitVec.extractLsb'_append_eq_ite, -Nat.reduceAdd]

end

section
variable (op : BitVec 6) (rd ra : Rn) (imm : BitVec 18)

@[simp] theorem wOp_fmtI : wOp (fmtI op rd ra imm) = op.toNat := by
  simp [wOp, fmtI, BitVec.extractLsb'_append_eq_ite, -Nat.reduceAdd]

@[simp] theorem wRd_fmtI : wRd (fmtI op rd ra imm) = rd := by
  simp [wRd, fmtI, BitVec.extractLsb'_append_eq_ite, -Nat.reduceAdd]

@[simp] theorem wRa_fmtI : wRa (fmtI op rd ra imm) = ra := by
  simp [wRa, fmtI, BitVec.extractLsb'_append_eq_ite, -Nat.reduceAdd]

@[simp] theorem wImm18_fmtI : wImm18 (fmtI op rd ra imm) = imm := by
  simp [wImm18, fmtI, BitVec.extractLsb'_append_eq_ite, -Nat.reduceAdd]

/-- An immediate shift keeps its amount, and bits 17:5 are 0 (R246, R254). -/
@[simp] theorem decodeShift_fmtI (sh : BitVec 5) (mk : BitVec 5 → Instr) :
    decodeShift (fmtI op rd ra (immSh sh)) mk = some (mk sh) := by
  simp [decodeShift, fmtI, immSh, BitVec.extractLsb'_append_eq_ite, -Nat.reduceAdd]

/-- A bit field that fits the word keeps its place and width, and bits 17:10 are 0 (R246, R254). -/
theorem decodeField_fmtI (w1 pos : BitVec 5) (mk : BitVec 5 → BitVec 5 → Instr) (h : Machine.fieldOk w1 pos = true) :
    decodeField (fmtI op rd ra (immField w1 pos)) mk = some (mk w1 pos) := by
  have hfits : pos.toNat + w1.toNat + 1 ≤ 32 := by simpa [Machine.fieldOk] using h
  simp [decodeField, fmtI, immField, BitVec.extractLsb'_append_eq_ite, hfits, -Nat.reduceAdd]

end

section
variable (op : BitVec 6) (rd : Rn)

@[simp] theorem wOp_fmtU (imm : BitVec 16) : wOp (fmtU op rd imm) = op.toNat := by
  simp [wOp, fmtU, BitVec.extractLsb'_append_eq_ite, -Nat.reduceAdd]

@[simp] theorem wRd_fmtU (imm : BitVec 16) : wRd (fmtU op rd imm) = rd := by
  simp [wRd, fmtU, BitVec.extractLsb'_append_eq_ite, -Nat.reduceAdd]

@[simp] theorem zeros_fmtU (imm : BitVec 16) : (fmtU op rd imm).extractLsb' 16 6 = 0 := by
  simp [fmtU, BitVec.extractLsb'_append_eq_ite, -Nat.reduceAdd]

@[simp] theorem imm_fmtU (imm : BitVec 16) : (fmtU op rd imm).extractLsb' 0 16 = imm := by
  simp [fmtU, BitVec.extractLsb'_append_eq_ite, -Nat.reduceAdd]

@[simp] theorem wOp_fmtBI (imm : BitVec 8) (off : BitVec 14) : wOp (fmtBI op rd imm off) = op.toNat := by
  simp [wOp, fmtBI, BitVec.extractLsb'_append_eq_ite, -Nat.reduceAdd]

@[simp] theorem wRd_fmtBI (imm : BitVec 8) (off : BitVec 14) : wRd (fmtBI op rd imm off) = rd := by
  simp [wRd, fmtBI, BitVec.extractLsb'_append_eq_ite, -Nat.reduceAdd]

@[simp] theorem imm_fmtBI (imm : BitVec 8) (off : BitVec 14) : (fmtBI op rd imm off).extractLsb' 14 8 = imm := by
  simp [fmtBI, BitVec.extractLsb'_append_eq_ite, -Nat.reduceAdd]

@[simp] theorem off_fmtBI (imm : BitVec 8) (off : BitVec 14) : (fmtBI op rd imm off).extractLsb' 0 14 = off := by
  simp [fmtBI, BitVec.extractLsb'_append_eq_ite, -Nat.reduceAdd]

@[simp] theorem wOp_fmtJ (off : BitVec 26) : wOp (fmtJ op off) = op.toNat := by
  simp [wOp, fmtJ, BitVec.extractLsb'_append_eq_ite, -Nat.reduceAdd]

@[simp] theorem off_fmtJ (off : BitVec 26) : (fmtJ op off).extractLsb' 0 26 = off := by
  simp [fmtJ, BitVec.extractLsb'_append_eq_ite, -Nat.reduceAdd]

end

/-! ## Every format decoded -/

/-- Settles O9: by the fields of each instruction's format; a bit field that fits, two different registers, a legal k and C6 are
what the well-formed operands of some ensure. -/
theorem decodeOfEncode : Obligations.DecodeOfEncode := by
  intro i c w hwf hencode
  cases i with
  | add | sub | and | or | xor | andn | nor | sll | srl | sra | slt | sltu | min | max | minu | maxu =>
    cases hencode
    simp [decodeWord, decodeR, decodeAlu]
  | mul | mulh | mulhu | div | divu | rem | remu =>
    cases hencode
    simp [decodeWord, decodeR, decodeMulDiv]
  | jr | callr =>
    cases hencode
    simp [decodeWord, decodeR, decodeJreg]
  | emit =>
    cases hencode
    simp [decodeWord, decodeR]
  | swap | cas | fadd | fand | fOr | fxor =>
    cases hencode
    simp [decodeWord, decodeR, decodeAtom]
  | halt | fence | raise =>
    cases hencode
    simp [decodeWord, decodeR, decodeSys]
  | time c rd rb =>
    cases hencode
    have hne : rb ≠ rd := by simpa [Instr.wf] using hwf
    simp [decodeWord, decodeR, decodeSys, hne]
  | posev c rd ra a | lnrd c rd a =>
    cases hencode
    obtain rfl : c = 6 := by simpa [Instr.wf] using hwf
    fin_cases a <;> simp [decodeWord, decodeR, decodeHaly, halyFn]
  | steprd c rd rb a =>
    cases hencode
    obtain ⟨rfl, hne⟩ : c = 6 ∧ rb ≠ rd := by simpa [Instr.wf] using hwf
    fin_cases a <;> simp [decodeWord, decodeR, decodeHaly, halyFn, hne]
  | addi | slti | sltiu | andi | ori | xori | ldb | ldbu | ldh | ldhu | ldw | stb | sth | stw
  | beq | bne | blt | bge | bltu | bgeu | slli | srli | srai =>
    cases hencode
    simp [decodeWord]
  | extu c rd ra w1 pos | exts c rd ra w1 pos | ins c rd ra w1 pos =>
    cases hencode
    simp [decodeWord, decodeField_fmtI _ _ _ _ _ _ hwf]
  | lui | beqi | bnei | blti | bgei | bltui | bgeui | jmp | call =>
    cases hencode
    simp [decodeWord]
  | wait c rd deadline =>
    cases deadline <;> cases hencode <;> simp [decodeWord, decodeWait]
  | commit c k =>
    cases hencode
    have hk : commitK k.toNat = true := hwf
    simp [decodeWord, hk]
  | fire c k =>
    cases hencode
    have hk : k.toNat < 16 := by simpa [Instr.wf] using hwf
    simp [decodeWord, hk]
  | _ => cases hencode

end Sys2Proof
end

section
/-!
Settles the Felwen register instructions: arithmetic and logic, bit fields, multiply and divide (R253-R257).
-/

namespace Sys2Proof.Machine

/-! ## Values -/

theorem ofNat_wrapInt (n : Nat) (x : Int) : BitVec.ofNat n (wrapInt n x) = BitVec.ofInt n x := by
  apply BitVec.eq_of_toNat_eq
  have hpos : (0 : Int) < (2 ^ n : Nat) := by positivity
  have hlt := Int.emod_lt_of_pos x hpos
  have hnonneg := Int.emod_nonneg x hpos.ne'
  rw [BitVec.toNat_ofNat, BitVec.toNat_ofInt, wrapInt, Nat.mod_eq_of_lt (by omega)]

theorem bitOf_ltS (a b : Word) : bitOf (ltS a b) = if a.toInt < b.toInt then 1 else 0 := by
  simp [bitOf, ltS]

theorem bitOf_ltU (a b : Word) : bitOf (ltU a b) = if a.toNat < b.toNat then 1 else 0 := by
  simp [bitOf, ltU]

/-- Words neither of which is less than the other are equal, so that either comparison gives the lesser one. -/
theorem min_signed (a b : Word) : (if ltS a b then a else b) = if b.slt a then b else a := by
  simp only [ltS, BitVec.slt, decide_eq_true_eq]
  split <;> split <;> first | rfl | omega | exact BitVec.eq_of_toInt_eq (by omega)

theorem min_unsigned (a b : Word) : (if ltU a b then a else b) = if b.ult a then b else a := by
  simp only [ltU, BitVec.ult, decide_eq_true_eq]
  split <;> split <;> first | rfl | omega | exact BitVec.eq_of_toNat_eq (by omega)

theorem append_zeros (hi : BitVec 16) : hi ++ (0 : BitVec 16) = (hi.zeroExtend 32 <<< 16 : Word) := by
  apply BitVec.eq_of_getLsbD_eq
  intro i hi32
  rw [BitVec.getLsbD_append, BitVec.getLsbD_shiftLeft]
  by_cases h : i < 16
  · simp [h]
  · simp [h, hi32, show i - 16 < 32 by omega]

theorem mulHigh_eq (a b : Word) : mulHigh a b = (a.signExtend 64 * b.signExtend 64).extractLsb' 32 32 := by
  have hproduct : a.signExtend 64 * b.signExtend 64 = BitVec.ofNat 64 (wrapInt 64 (a.toInt * b.toInt)) := by
    rw [ofNat_wrapInt, BitVec.ofInt_mul]
    rfl
  have hlt : wrapInt 64 (a.toInt * b.toInt) < 2 ^ 64 := by
    simp only [wrapInt]
    omega
  apply BitVec.eq_of_toNat_eq
  rw [hproduct, mulHigh, BitVec.extractLsb'_toNat, BitVec.toNat_ofNat, BitVec.toNat_ofNat, Nat.mod_eq_of_lt hlt,
    Nat.shiftRight_eq_div_pow]

theorem mulHighU_eq (a b : Word) : mulHighU a b = (a.zeroExtend 64 * b.zeroExtend 64).extractLsb' 32 32 := by
  have hlt : a.toNat * b.toNat < 2 ^ 64 := by
    calc a.toNat * b.toNat < 2 ^ 32 * 2 ^ 32 := Nat.mul_lt_mul'' a.isLt b.isLt
      _ = 2 ^ 64 := by norm_num
  have hproduct : (a.zeroExtend 64 * b.zeroExtend 64).toNat = a.toNat * b.toNat := by
    simp only [BitVec.toNat_mul, BitVec.toNat_setWidth]
    rw [Nat.mod_eq_of_lt (a := a.toNat) (by omega), Nat.mod_eq_of_lt (a := b.toNat) (by omega), Nat.mod_eq_of_lt hlt]
  apply BitVec.eq_of_toNat_eq
  rw [mulHighU, BitVec.extractLsb'_toNat, BitVec.toNat_ofNat, hproduct, Nat.shiftRight_eq_div_pow]

/-- The divide instructions by other than 0 (R257). -/
theorem divS_of_ne (a : Word) {b : Word} (h : b ≠ 0) : divS a b = BitVec.ofInt 32 (a.toInt.tdiv b.toInt) := by
  rw [divS, if_neg h, ofNat_wrapInt]

theorem remS_of_ne (a : Word) {b : Word} (h : b ≠ 0) : remS a b = BitVec.ofInt 32 (a.toInt.tmod b.toInt) := by
  rw [remS, if_neg h, ofNat_wrapInt]

theorem divU_of_ne (a : Word) {b : Word} (h : b ≠ 0) : divU a b = a / b := by
  rw [divU, if_neg h, ← BitVec.toNat_udiv, BitVec.ofNat_toNat, BitVec.setWidth_eq]

theorem remU_of_ne (a : Word) {b : Word} (h : b ≠ 0) : remU a b = a % b := by
  rw [remU, if_neg h, ← BitVec.toNat_umod, BitVec.ofNat_toNat, BitVec.setWidth_eq]

/-! ## Bit fields -/

theorem getLsbD_fmask (w1 : BitVec 5) (i : Nat) : (fmask w1).getLsbD i = decide (i < w1.toNat + 1) := by
  have := w1.isLt
  rw [fmask, BitVec.getLsbD_ofNat, Nat.testBit_two_pow_sub_one]
  by_cases h : i < w1.toNat + 1
  · simp [h, show i < 32 by omega]
  · simp [h]

/-- The bits of a field, with zeros above. -/
theorem shift_and_fmask (x : Word) (w1 : BitVec 5) (pos : Nat) :
    (x >>> pos) &&& fmask w1 = (x.extractLsb' pos (w1.toNat + 1)).zeroExtend 32 := by
  apply BitVec.eq_of_getLsbD_eq
  intro i hi
  simp only [BitVec.getLsbD_and, BitVec.getLsbD_ushiftRight, getLsbD_fmask, BitVec.getLsbD_setWidth, BitVec.getLsbD_extractLsb', hi,
    decide_true, Bool.true_and]
  exact Bool.and_comm ..

/-- `sext` is the two's complement reading of a word of its width. -/
theorem sext_toNat {n : Nat} (hn : 0 < n) (x : BitVec n) : sext n x.toNat = x.toInt := by
  obtain ⟨k, rfl⟩ : ∃ k, n = k + 1 := ⟨n - 1, by omega⟩
  rw [sext, BitVec.toInt_eq_toNat_cond, Nat.mod_eq_of_lt x.isLt, Nat.add_sub_cancel]
  have htwice : 2 ^ (k + 1) = 2 * 2 ^ k := Nat.pow_succ'
  by_cases h : x.toNat < 2 ^ k
  · rw [if_pos h, if_pos (by omega)]
  · rw [if_neg h, if_neg (by omega)]

theorem signExtend_field (x : Word) (w1 pos : BitVec 5) :
    BitVec.ofNat 32 (wrapInt 32 (sext (w1.toNat + 1) ((x >>> pos.toNat) &&& fmask w1).toNat)) =
      (x.extractLsb' pos.toNat (w1.toNat + 1)).signExtend 32 := by
  have hw := w1.isLt
  have hfield : ((x.extractLsb' pos.toNat (w1.toNat + 1)).zeroExtend 32).toNat = (x.extractLsb' pos.toNat (w1.toNat + 1)).toNat := by
    rw [BitVec.toNat_setWidth, Nat.mod_eq_of_lt]
    exact (BitVec.isLt _).trans_le (Nat.pow_le_pow_right (by decide) (by omega))
  rw [ofNat_wrapInt, shift_and_fmask, hfield, sext_toNat (Nat.succ_pos _)]
  rfl

/-- The word that INS writes: the low bits of `a` from `pos` up, those of `d` elsewhere (R254). -/
def insertField (d a : Word) (w1 pos : BitVec 5) : Word :=
  (d &&& ~~~(fmask w1 <<< pos.toNat)) ||| ((a <<< pos.toNat) &&& (fmask w1 <<< pos.toNat))

theorem getLsbD_insertField (d a : Word) (w1 pos : BitVec 5) {i : Nat} (hi : i < 32) : (insertField d a w1 pos).getLsbD i =
    if pos.toNat ≤ i ∧ i < pos.toNat + (w1.toNat + 1) then a.getLsbD (i - pos.toNat) else d.getLsbD i := by
  simp only [insertField, BitVec.getLsbD_or, BitVec.getLsbD_and, BitVec.getLsbD_not, BitVec.getLsbD_shiftLeft, getLsbD_fmask, hi,
    decide_true, Bool.true_and]
  by_cases hlow : i < pos.toNat
  · simp [hlow, Nat.not_le.2 hlow]
  · have hle : pos.toNat ≤ i := Nat.not_lt.1 hlow
    by_cases hin : i < pos.toNat + (w1.toNat + 1)
    · simp [hlow, hle, hin, show i - pos.toNat < w1.toNat + 1 by omega]
    · simp [hlow, hle, hin, show ¬ i - pos.toNat < w1.toNat + 1 by omega]

/-! ## The instructions -/

/-- A register-immediate instruction retires with its operation on W[ra] and the immediate. -/
theorem State.run_alui (s : State) (c : Fin 8) (rd ra : Rn) (imm : Word) (op : Word → Word → Word) (h : s.m.fetches c = true) :
    s.run (fun m => m.alui c rd ra imm op) = .next ((s.turn c).retire c rd (op (s.W c ra) imm)) := by
  simp only [Mach.alui, s.run_compute c rd _ h, State.takeTurn_w]

/-- A bit-field instruction whose field fits retires with the field's word. -/
theorem State.run_field (s : State) (c : Fin 8) (rd : Rn) (w1 pos : BitVec 5) (v : Mach → Word) (h : s.m.fetches c = true)
    (hfits : fieldOk w1 pos = true) :
    s.run (fun m => m.field c rd w1 pos v) = .next ((s.turn c).retire c rd (v (s.m.takeTurn c))) := by
  simp only [Mach.field, Mach.issueIf, hfits, if_true]
  exact s.run_compute c rd v h

/-- Settles O10: each instruction retires with its operation. -/
theorem arithmeticAndLogic : Obligations.ArithmeticAndLogic := by
  refine ⟨fun c rd ra rb s h => ?_, fun c rd ra imm hi sh s h => ?_⟩
  · refine ⟨s.run_alu c rd ra rb (· + ·) h, s.run_alu c rd ra rb (· - ·) h, s.run_alu c rd ra rb (· &&& ·) h,
      s.run_alu c rd ra rb (· ||| ·) h, s.run_alu c rd ra rb (· ^^^ ·) h, s.run_alu c rd ra rb (fun a b => a &&& ~~~b) h,
      s.run_alu c rd ra rb (fun a b => ~~~(a ||| b)) h, s.run_alu c rd ra rb (fun a b => a <<< amt b) h,
      s.run_alu c rd ra rb (fun a b => a >>> amt b) h, s.run_alu c rd ra rb (fun a b => a.sshiftRight (amt b)) h,
      ?_, ?_, ?_, s.run_alu c rd ra rb (fun a b => if ltS a b then b else a) h, ?_,
      s.run_alu c rd ra rb (fun a b => if ltU a b then b else a) h⟩
    · rw [← bitOf_ltS]
      exact s.run_alu c rd ra rb (fun a b => bitOf (ltS a b)) h
    · rw [← bitOf_ltU]
      exact s.run_alu c rd ra rb (fun a b => bitOf (ltU a b)) h
    · rw [← min_signed]
      exact s.run_alu c rd ra rb (fun a b => if ltS a b then a else b) h
    · rw [← min_unsigned]
      exact s.run_alu c rd ra rb (fun a b => if ltU a b then a else b) h
  · refine ⟨s.run_alui c rd ra (sx18 imm) (· + ·) h, ?_, ?_, s.run_alui c rd ra (zx18 imm) (· &&& ·) h,
      s.run_alui c rd ra (zx18 imm) (· ||| ·) h, s.run_alui c rd ra (zx18 imm) (· ^^^ ·) h, ?_,
      s.run_alui c rd ra 0 (fun a _ => a <<< sh.toNat) h, s.run_alui c rd ra 0 (fun a _ => a >>> sh.toNat) h,
      s.run_alui c rd ra 0 (fun a _ => a.sshiftRight sh.toNat) h⟩
    · rw [← bitOf_ltS]
      exact s.run_alui c rd ra (sx18 imm) (fun a b => bitOf (ltS a b)) h
    · rw [← bitOf_ltU]
      exact s.run_alui c rd ra (sx18 imm) (fun a b => bitOf (ltU a b)) h
    · rw [← append_zeros]
      exact s.run_compute c rd (fun _ => hi ++ (0 : BitVec 16)) h

/-- Settles O11: the field is cut out by its mask, with its sign or zeros above, or put in its place. -/
theorem bitFields : Obligations.BitFields := by
  intro c rd ra w1 pos s h hle
  have hfits : fieldOk w1 pos = true := by simpa [fieldOk, Nat.add_assoc] using hle
  refine ⟨?_, ?_, insertField (s.W c rd) (s.W c ra) w1 pos, ?_, fun i hi => getLsbD_insertField _ _ _ _ hi⟩
  · rw [← shift_and_fmask, ← State.takeTurn_w]
    exact s.run_field c rd w1 pos (fun m => (m.w c ra >>> pos.toNat) &&& fmask w1) h hfits
  · rw [← signExtend_field, ← State.takeTurn_w]
    exact s.run_field c rd w1 pos (fun m =>
      BitVec.ofNat 32 (wrapInt 32 (sext (w1.toNat + 1) ((m.w c ra >>> pos.toNat) &&& fmask w1).toNat))) h hfits
  · rw [← State.takeTurn_w, ← State.takeTurn_w]
    exact s.run_field c rd w1 pos (fun m => insertField (m.w c rd) (m.w c ra) w1 pos) h hfits

/-- Settles O12: each instruction retires with its product, quotient or remainder. -/
theorem multiplyAndDivide : Obligations.MultiplyAndDivide := by
  intro c rd ra rb s h
  refine ⟨s.run_alu c rd ra rb (· * ·) h, ?_, ?_, fun hne => ⟨?_, ?_, ?_, ?_⟩⟩
  · rw [← mulHigh_eq]
    exact s.run_alu c rd ra rb mulHigh h
  · rw [← mulHighU_eq]
    exact s.run_alu c rd ra rb mulHighU h
  · rw [exec_div s c rd ra rb h, divS_of_ne _ hne]
  · rw [exec_divu s c rd ra rb h, divU_of_ne _ hne]
  · rw [exec_rem s c rd ra rb h, remS_of_ne _ hne]
  · rw [exec_remu s c rd ra rb h, remU_of_ne _ hne]

end Sys2Proof.Machine
end

section
/-!
Refutes the statements that a reference run of an impossible bank breaks.  The model keeps the bank of a run as a number, and
the statements take every state, also one in which that number is no bank (R401): the abort of the run then clears bits 14:0 of the
register that stands where BLEN of that bank would.  Entering the safe state, a relock and a commit abort a run (R50, R423).
-/

namespace Sys2Proof.Machine

-- the evaluations below wait for the kernel one after another; in threads of their own they would hold a stack each
set_option Elab.async false

/-! ## What a field reads after a command -/

/-- What a field reads in the next state. -/
def getAfter (i : Instr) (s : State) (f : Fld) : Option Nat :=
  match exec i s with
  | .next t => some (t.m.get f)
  | _ => none

theorem getAfter_of_exec {i : Instr} {s t : State} (h : exec i s = .next t) (f : Fld) : getAfter i s f = some (t.m.get f) := by
  simp only [getAfter, h]

/-- A command does not do what needs another value of a field than the one that it leaves. -/
theorem not_does_of_getAfter {i : Instr} {s : State} {P : State → Prop} {f : Fld} {v : Nat} (hget : getAfter i s f = some v)
    (hP : ∀ t, P t → t.m.get f ≠ v) : ¬ Does i s P := by
  rintro ⟨t, hexec, ht⟩
  exact hP t ht (Option.some.inj ((getAfter_of_exec hexec f).symm.trans hget))

/-- A line that reads as not pending after a command of the first tick has not pulsed. -/
theorem not_pulsed {s t : State} {c : Fin 8} {e v : Nat} (hpend : t.m.get (F.C_EVT_PEND_PEND c) = v) (hbit : v.testBit e = false)
    (hstate : s.m.get (F.C_STAT_STATE c) ≠ 2) (hstart : s.m.tickNo = 1) (hset : (s.m.core c).evSet = 0)
    (hlate : (s.m.core c).lateAt = none) : ¬ Pulsed s t c e := by
  intro hpulsed
  have htick : s.m.tickNo ≤ t.m.tickNo := hstart.trans_le (Nat.le_add_left 1 _)
  have hnew : (s.m.core c).evSet.getLsbD e = true → (s.m.core c).evAt < s.m.tickNo := by simp [hset]
  have hearly : ∀ n, (s.m.core c).lateAt = some n → n < s.m.tickNo := by simp [hlate]
  have hpending := hpulsed hstate htick hnew hearly
  simp [hpend, hbit] at hpending

/-! ## Stray runs -/

/-- The bank number under which head 0's BLEN is the register at `a`. -/
def bankOf (a : Nat) : Nat := (a - F.H_SHD_BLEN_reg 0 0) / 4

theorem blen_reg_bankOf_status : F.H_SHD_BLEN_reg 0 (bankOf F.SHR_STATUS_reg) = F.SHR_STATUS_reg := by decide

theorem blen_reg_bankOf_evtPend : F.H_SHD_BLEN_reg 0 (bankOf (F.C_EVT_PEND_reg 0)) = F.C_EVT_PEND_reg 0 := by decide

/-- Head 0 is in a reference run of the bank whose BLEN is the register at `a`. -/
def Mach.strayInto (m : Mach) (a : Nat) : Mach := m.setShd 0 { runLeft := some 1, runBank := bankOf a, runToStart := 1 }

/-- A state in which the abort of head 0's run clears HELD. -/
def heldRun (m : Mach) : State := { State.reset with m := m.strayInto F.SHR_STATUS_reg }

/-- After hand-off. -/
def running : Mach := { State.reset.m.put F.BOOT_STATUS_PHASE 4 with boot := {} }

/-- After hand-off, with Shroud armed (R921). -/
def armedMach : Mach :=
  ((((running.put F.SHR_CTL_PROFILE 1).put F.SHR_CTL_SCRUBLS 1).put F.SHR_CTL_SCRUBCM 1).put (F.C_EVT_EN_EN 7) 1).put
    F.AUX_STAT_XARMED 1

/-! ## Cores -/

/-- Refutes O16: by `blen_reg_strayBank` the misaligned load of C7 leaves its pair in state 0. -/
theorem not_accessChecks : ¬ Obligations.AccessChecks := by
  intro h
  obtain ⟨hword, -⟩ := h 7 0 3 0 strayRun strayRun_fetches
  obtain ⟨hload, -⟩ := hword (by decide +kernel)
  exact not_does_of_getAfter (by decide +kernel : getAfter (.ldw 7 0 3 0) strayRun (F.C_STAT_STATE 7) = some 0)
    (fun t ⟨⟨hstate, _⟩, _⟩ => ne_of_eq_of_ne hstate (by decide)) hload

/-- Refutes O17: by `blen_reg_strayBank` the branch of C7 beyond its IMEM leaves its pair in state 0. -/
theorem not_branches : ¬ Obligations.Branches := by
  intro h
  obtain ⟨⟨-, -, htraps⟩, -⟩ := h.1 7 0 0 0x2000 strayRun strayRun_fetches
  exact not_does_of_getAfter (by decide +kernel : getAfter (.beq 7 0 0 0x2000) strayRun (F.C_STAT_STATE 7) = some 0)
    (fun t ⟨⟨hstate, _⟩, _⟩ => ne_of_eq_of_ne hstate (by decide)) (htraps rfl (by decide +kernel))

/-- Refutes O18: by `blen_reg_strayBank` the jump of C7 to a misaligned target leaves its pair in state 0. -/
theorem not_jumps : ¬ Obligations.Jumps := by
  intro h
  obtain ⟨-, -, -, hmisaligned, -⟩ := h 7 3 0 strayRun strayRun_fetches
  exact not_does_of_getAfter (by decide +kernel : getAfter (.jr 7 3) strayRun (F.C_STAT_STATE 7) = some 0)
    (fun t ⟨⟨hstate, _⟩, _⟩ => ne_of_eq_of_ne hstate (by decide)) (hmisaligned strayRun_misaligned).1

/-- Refutes O26: by `blen_reg_strayBank` a lockstep mismatch of C7 leaves its pair in state 0. -/
theorem not_corePairs : ¬ Obligations.CorePairs := by
  intro h
  obtain ⟨hmismatch, -⟩ := h.2 7 strayRun (by decide +kernel)
  exact not_does_of_getAfter (by decide +kernel : getAfter (.lockstepMismatch 7) strayRun (F.C_STAT_STATE 7) = some 0)
    (fun t ⟨⟨hstate, _⟩, _⟩ => ne_of_eq_of_ne hstate (by decide)) (hmismatch (Or.inl (by decide +kernel)))

/-! ## Faults that every state takes -/

/-- C0's IMEM holds an uncorrectable word, which a buffered write of the port meets. -/
def badWordRun : State :=
  heldRun { running.put F.SHR_CTL_SCRUBCM 1 with
    eccBad := [0x400000], port := { running.port with wbuf := [{ addr := 0x400000, data := 0, ready := 0 }] } }

/-- Refutes O29: the scrubber's uncorrectable word latches a record, and the abort of head 0's run clears HELD. -/
theorem not_drainAndScrub : ¬ Obligations.DrainAndScrub := by
  intro h
  obtain ⟨-, -, hcore, -⟩ := h 0 badWordRun (by decide +kernel)
  obtain ⟨-, -, hbad⟩ := hcore 0x400000 (by decide)
  exact not_does_of_getAfter
    (by decide +kernel : getAfter (.coreScrub 0x400000 .single none) badWordRun F.SHR_STATUS_HELD = some 0)
    (fun t ⟨hheld, _⟩ => ne_of_eq_of_ne hheld Nat.one_ne_zero) (hbad (by decide +kernel) (by decide +kernel))

/-- Refutes O32: the port's write of an uncorrectable word latches a record, and the abort of head 0's run clears HELD. -/
theorem not_controlPort : ¬ Obligations.ControlPort := by
  intro h
  obtain ⟨hwrites, -⟩ := h.2 badWordRun (by decide +kernel) (by decide +kernel)
  obtain ⟨-, -, hstore⟩ := hwrites { addr := 0x400000, data := 0, ready := 0 } [] rfl (by decide +kernel)
  have hnone : ∀ k : Fin 6, (badWordRun.m.head k).tpg.lines.all (fun l => l.done) = true := by decide +kernel
  obtain ⟨-, hbad⟩ := hstore (by decide +kernel) (by decide) (fun k l hl => Or.inl (List.all_eq_true.1 (hnone k) l hl))
  exact not_does_of_getAfter (by decide +kernel : getAfter .portWriteApply badWordRun F.SHR_STATUS_HELD = some 0)
    (fun t ⟨_, _, hheld, _⟩ => ne_of_eq_of_ne hheld Nat.one_ne_zero) (hbad (by decide +kernel))

/-- The self-test runs. -/
def selfTestRun : State := heldRun { State.reset.m with pwr := { State.reset.m.pwr with selfTest := some 0 } }

/-- Refutes O30: the self-test's failure latches a record, and the abort of head 0's run clears HELD. -/
theorem not_powerAndResets : ¬ Obligations.PowerAndResets := by
  intro h
  obtain ⟨-, -, -, hselftest⟩ := h.2 selfTestRun
  obtain ⟨-, hfails⟩ := hselftest (by decide +kernel) (by decide +kernel)
  exact not_does_of_getAfter (by decide +kernel : getAfter (.selftestDone false) selfTestRun F.SHR_STATUS_HELD = some 0)
    (fun t ⟨_, _, hheld, _⟩ => ne_of_eq_of_ne hheld Nat.one_ne_zero) hfails

/-- The boot ROM checks the image. -/
def checkingRun : State := heldRun (State.reset.m.put F.BOOT_STATUS_PHASE 3)

/-- Refutes O34: the memory test's failure latches a record, and the abort of head 0's run clears HELD. -/
theorem not_bootChecking : ¬ Obligations.BootChecking := by
  intro h
  obtain ⟨-, hbist, -⟩ := h checkingRun (by decide +kernel) (by decide +kernel) (by decide +kernel) (by decide +kernel)
  obtain ⟨-, -, hfails⟩ := hbist (by decide +kernel) 0
  exact not_does_of_getAfter (by decide +kernel : getAfter (.bistDone false 0) checkingRun F.SHR_STATUS_HELD = some 0)
    (fun t ⟨_, hheld⟩ => ne_of_eq_of_ne hheld Nat.one_ne_zero) hfails

/-- Head 1's first coefficient is uncorrectable. -/
def badCoefRun : State := heldRun (running.setShd 1 { bad := [shdCoefWord 0 0 0] })

/-- Refutes O39: the port's read of an uncorrectable coefficient latches a record, and the abort of head 0's run clears
HELD. -/
theorem not_shading : ¬ Obligations.Shading := by
  intro h
  obtain ⟨-, -, hread, -⟩ := h 1 badCoefRun (by decide +kernel)
  exact not_does_of_getAfter (by decide +kernel : getAfter (.shdPdataRead 1) badCoefRun F.SHR_STATUS_HELD = some 0)
    (fun t ⟨_, hheld, _⟩ => ne_of_eq_of_ne hheld Nat.one_ne_zero) (hread (by decide +kernel))

/-- Refutes O59: a detection latches a record, and the abort of head 0's run clears HELD. -/
theorem not_shroud : ¬ Obligations.Shroud := by
  intro h
  obtain ⟨hdetect, -⟩ := h (heldRun running) (by decide +kernel)
  obtain ⟨-, -, hlatch, -⟩ := hdetect 0x0300
  exact not_does_of_getAfter
    (by decide +kernel : getAfter (.faultDetect 0x0300) (heldRun running) F.SHR_STATUS_HELD = some 0)
    (fun t ⟨⟨hheld, _⟩, _⟩ => ne_of_eq_of_ne hheld Nat.one_ne_zero)
    (hlatch (by decide) (by decide) (Or.inl (by decide)) (by decide +kernel))

/-! ## Faults that Shroud takes when armed -/

/-- A line of head 1 under the reset values, to be checked. -/
def checkedLine : LineCtx :=
  { sync := 0, set := [], pos := 0, late := false, lateDelay := 0, trans := false, drops := 0, cseq := none, slot := none,
    sweep := none, refRun := false, frame := false, lampoff := false, active := false, done := false }

/-- Head 1 checks that line; its earlier lines have started in beats 1 and 2. -/
def checkedLineRun : State := heldRun ({ armedMach with sysTime := 10 }.putTpg 1 { lines := [checkedLine], starts := [2, 1] })

/-- Refutes O38: the failed duplicate check is a fault with Shroud armed, and the abort of head 0's run clears HELD. -/
theorem not_frontEnd : ¬ Obligations.FrontEnd := by
  intro h
  obtain ⟨-, -, -, -, hchecks, -⟩ := h 1 checkedLineRun (by decide +kernel)
  have hline : (checkedLineRun.m.checkedLine 1 ((VadcCheck.dup 0 0).due 1)).any
      (fun l => decide ((VadcCheck.dup 0 0).due 1 l < 2 ^ 64)) = true := by decide +kernel
  obtain ⟨l, hl, hdue⟩ := Option.any_eq_true _ _ |>.1 hline
  obtain ⟨hdup, -⟩ := hchecks (.dup 0 0) l hl (Nat.zero_le _) (of_decide_eq_true hdue) (by decide +kernel) (by decide +kernel)
  have harmed : checkedLineRun.m.armed = true := by decide +kernel
  exact not_does_of_getAfter
    (by decide +kernel : getAfter (.vadcCheckReport 1 (.dup 0 0)) checkedLineRun F.SHR_STATUS_HELD = some 0)
    (fun t ⟨_, _, _, hheld, _⟩ => by simp [hheld, harmed]) (hdup 0 0 rfl)

/-- Head 1's lamp is on with row 0 closed; its earlier lines have started in beats 1 and 2. -/
def lampRun : State :=
  heldRun ((({ armedMach with sysTime := 10 }.put (F.H_ILL_CTL_EN 1) 1).setIll 1 { rowClosed := some 0 }).putTpg 1 { starts := [2, 1] })

/-- Refutes O40: the failed sample of a sink that leaks is a fault with Shroud armed, and the abort of head 0's run clears HELD. -/
theorem not_lampWindows : ¬ Obligations.LampWindows := by
  intro h
  obtain ⟨-, -, -, -, -, -, -, -, hmonitor⟩ := h 1 lampRun (by decide +kernel)
  obtain ⟨-, hclosed, -⟩ := hmonitor (by decide +kernel) (by decide +kernel)
  obtain ⟨hleak, -⟩ := hclosed 0 0 (by decide +kernel) (by decide)
  have harmed : lampRun.m.armed = true := by decide +kernel
  exact not_does_of_getAfter (by decide +kernel : getAfter (.illMonitorSample 1 (.sinkLeak 0)) lampRun F.SHR_STATUS_HELD = some 0)
    (fun t ⟨_, _, _, _, _, hheld⟩ => by simp [hheld, harmed]) (hleak (by decide +kernel))

/-- The cross-check waits for its answer. -/
def crossCheckRun : State := heldRun { armedMach with aux := { armedMach.aux with xSince := some 0 } }

/-- Refutes O42: the late cross-check is a fault with Shroud armed, and the abort of head 0's run clears HELD. -/
theorem not_auxSequencers : ¬ Obligations.AuxSequencers := by
  intro h
  obtain ⟨-, -, -, -, -, -, -, hlate⟩ := h crossCheckRun (by decide +kernel) (by decide +kernel)
  have harmed : crossCheckRun.m.armed = true := by decide +kernel
  exact not_does_of_getAfter (by decide +kernel : getAfter .xcheckLate crossCheckRun F.SHR_STATUS_HELD = some 0)
    (fun t ⟨_, hheld, _⟩ => by simp [hheld, harmed]) (hlate (by decide +kernel) (by decide +kernel))

/-- EXC1 is on. -/
def excitedRun : State := heldRun (armedMach.put F.AUX_EXC1_EN 1)

/-- Refutes O43: the open source is a fault with Shroud armed, and the abort of head 0's run clears HELD. -/
theorem not_auxEntries : ¬ Obligations.AuxEntries := by
  intro h
  obtain ⟨-, -, -, hfault, -⟩ := h excitedRun (by decide +kernel) (by decide +kernel)
  obtain ⟨-, hopen⟩ := hfault 1 false (List.replicate 64 2000000)
  have harmed : excitedRun.m.armed = true := by decide +kernel
  exact not_does_of_getAfter
    (by decide +kernel : getAfter (.excitationFault 1 ⟨false, List.replicate 64 2000000⟩) excitedRun F.SHR_STATUS_HELD = some 0)
    (fun t ⟨_, _, _, _, _, hheld⟩ => by simp [hheld, harmed]) (hopen (by decide +kernel) (by decide +kernel))

/-- Axis 0 has an encoder. -/
def encoderRun : State := heldRun (armedMach.put (F.HAL_AX_CTL_ENC 0) 1)

/-- Refutes O47: the drive's fault is a fault with an encoder and Shroud armed, and the abort of head 0's run clears HELD. -/
theorem not_stepsAndEncoders : ¬ Obligations.StepsAndEncoders := by
  intro h
  obtain ⟨-, -, -, -, -, -, -, -, hfault⟩ := h 0 encoderRun (by decide +kernel)
  exact not_does_of_getAfter (by decide +kernel : getAfter (.mfltFault 0) encoderRun F.SHR_STATUS_HELD = some 0)
    (fun t ⟨_, _, _, _, _, _, _, _, hcaught⟩ => ne_of_eq_of_ne (hcaught ⟨by decide +kernel, by decide +kernel⟩) Nat.one_ne_zero) hfault

/-- An empty row of context 0. -/
def emptyRow : BcCheck :=
  { ctx := 0, row := 0, ofs := 0, len := 0, linked := false, crc := 0, refHalf := 0, refH := 0, w := 0, set := [] }

/-- The self-check of that row is due. -/
def selfCheckRun : State := heldRun { armedMach with bc := { armedMach.bc with checks := [emptyRow] } }

/-- The state in which the self-check runs. -/
def selfCheckStart : State := { selfCheckRun with m := selfCheckRun.m.catchUp.bcCommits }

theorem selfCheckStart_fails : (selfCheckStart.m.selfCheck.1.isSome && selfCheckStart.m.armed) = true := by decide +kernel

/-- Refutes O50: the failed self-check is a fault with Shroud armed, and the abort of head 0's run clears HELD. -/
theorem not_pictures : ¬ Obligations.Pictures := by
  intro h
  obtain ⟨-, -, -, -, -, -, -, hcheck⟩ := h selfCheckRun (by decide +kernel)
  exact not_does_of_getAfter (by decide +kernel : getAfter .bcSelfCheck selfCheckRun F.SHR_STATUS_HELD = some 0)
    (fun t ⟨_, _, _, _, _, _, _, hheld⟩ => ne_of_eq_of_ne (hheld.trans (if_pos selfCheckStart_fails)) Nat.one_ne_zero)
    (hcheck emptyRow [] rfl)

/-! ## Aborts without a fault -/

/-- The clock has stopped in a reference run of the bank whose BLEN is EVT_PEND of C7. -/
def stoppedRun : State :=
  { State.reset with m := ({ running with clk := { running.clk with running := false } }).strayInto (F.C_EVT_PEND_reg 7) }

theorem stoppedRun_relock : getAfter .relock stoppedRun (F.C_EVT_PEND_PEND 7) = some 0 := by decide +kernel

/-- Refutes O31: the relock pulses line 1 of C7 and then aborts head 0's run, which clears the pending bit. -/
theorem not_clockMonitorAndGates : ¬ Obligations.ClockMonitorAndGates := by
  intro h
  obtain ⟨-, -, hrelock, -⟩ := h.1 stoppedRun
  exact not_does_of_getAfter stoppedRun_relock
    (fun t ⟨_, _, _, _, _, hpulsed, _⟩ hpend => not_pulsed hpend (by decide) (by decide +kernel) (by decide +kernel)
      (by decide +kernel) (by decide +kernel) hpulsed)
    (hrelock (by decide +kernel) (by decide +kernel) (by decide +kernel) (by decide +kernel) (by decide +kernel)
      (by decide +kernel) (by decide +kernel))

/-- Head 0 waits for its commit, in a reference run, with lines to come, of the bank whose BLEN is EVT_PEND of C0. -/
def commitRun : State :=
  { State.reset with m := ({ running with commits := [(commitAddr (.head 0), 0)] }).strayInto (F.C_EVT_PEND_reg 0) }

theorem commitRun_apply : getAfter (.commitApply (.head 0)) commitRun (F.C_EVT_PEND_PEND 0) = some 160 := by decide +kernel

/-- Refutes O28: the commit pulses line 2 of C0 and then aborts head 0's run, which clears the pending bit. -/
theorem not_commits : ¬ Obligations.Commits := by
  intro h
  obtain ⟨-, -, happly⟩ := h (.head 0) commitRun (by decide +kernel)
  exact not_does_of_getAfter commitRun_apply
    (fun t ⟨_, _, _, _, _, _, hpulsed⟩ hpend => not_pulsed hpend (by decide) (by decide +kernel) (by decide +kernel)
      (by decide +kernel) (by decide +kernel) hpulsed)
    (happly 0 (by decide +kernel) (by decide +kernel))

end Sys2Proof.Machine
end
section
/-!
Refutes the statements of the line triggers, the line's end, the lane path of the boot, the lanes and the sessions.  Each statement takes every
state of the model, and the states below are ones that a run of the device does not reach, or that its sentence does not speak of.
-/

namespace Sys2Proof.Machine

-- the evaluations below wait for the kernel one after another; in threads of their own they would hold a stack each
set_option Elab.async false

/-! ## What the next state shows -/

/-- What `g` shows of the next state. -/
def seenAfter {α : Type} (i : Instr) (s : State) (g : State → α) : Option α :=
  match exec i s with
  | .next t => some (g t)
  | _ => none

/-- A command does not do what needs another value of `g` than the one that it leaves. -/
theorem not_does_of_seenAfter {α : Type} {i : Instr} {s : State} {P : State → Prop} {g : State → α} {v : α}
    (hseen : seenAfter i s g = some v) (hP : ∀ t, P t → g t ≠ v) : ¬ Does i s P := by
  rintro ⟨t, hexec, ht⟩
  have hg : seenAfter i s g = some (g t) := by simp only [seenAfter, hexec]
  exact hP t ht (Option.some.inj (hg.symm.trans hseen))

/-! ## Lines -/

/-- A line of head 0 that has started at `sync` under the words `set`. -/
def startedLine (sync : Nat) (set : Sparse 32) (refRun : Bool) : LineCtx :=
  { sync := sync, set := set, pos := 0, late := false, lateDelay := 0, trans := false, drops := 0, cseq := none, slot := none,
    sweep := none, refRun := refRun, frame := false, lampoff := false, active := false, done := false, wrote := sync }

/-- Head 0 runs, in a reference run one of whose lines has started. -/
def runningRefRun : State :=
  let n := (running.put (F.H_TPG_CTL_RUN 0) 1).setShd 0 { runLeft := some 1 }
  { State.reset with m := n.setTpg 0 { lines := [startedLine 0 [] true] } }

/-- Refutes O36: RUN cleared in a reference run aborts the run, and the run's lines are a run's no more (R423). -/
theorem not_lineTriggers : ¬ Obligations.LineTriggers := by
  intro h
  obtain ⟨-, -, -, -, -, -, -, hrun⟩ := h 0 0 runningRefRun (by decide +kernel)
  exact not_does_of_seenAfter
    (by decide +kernel : seenAfter (.tpgRun 0 false) runningRefRun (fun t => (t.m.head 0).tpg.lines.any (·.refRun)) = some false)
    (fun t ⟨_, htpg, _⟩ => by rw [htpg]; decide +kernel) (hrun (by decide +kernel))

/-- Two fields, of which the second starts 0x1000 ticks into the line. -/
def longSet : Sparse 32 :=
  Sparse.set regReset (Sparse.set regReset [] (F.H_TPG_FLD_RD_reg 0 0) 0x1000) (F.H_TPG_FIELDS_reg 0) 1

/-- The count stands in the tick before SYS_TIME and WRAPS both go on to 0, and head 0 has a line that began 2,000 beats before their end. -/
def lastTick : State :=
  let n : Mach := { State.reset.m with sysTime := 0xFFFFFFFFFFFF, wraps := 0xFFFF }
  { State.reset with m := n.setTpg 0 { lines := [startedLine (2 ^ 64 - 2000) longSet false] } }

/-- Refutes O37: the count goes on to 0 while the line is read, so that LINE_DONE comes at a lower count than the command. -/
theorem not_lines : ¬ Obligations.Lines := by
  intro h
  obtain ⟨-, -, hdone, -⟩ := h 0 lastTick (by decide +kernel)
  have hothers : ∀ k : Fin 6, k ≠ 0 → (lastTick.m.head k).tpg.lines = [] := by decide +kernel
  exact not_does_of_seenAfter (by decide +kernel : seenAfter (.lineDone 0 ()) lastTick (fun t => decide (lastTick.m.now ≤ t.m.now)) = some false)
    (fun t ⟨hlater, _⟩ => by simp [hlater])
    (hdone (startedLine (2 ^ 64 - 2000) longSet false) (by decide +kernel) rfl rfl
      (fun k hk => Or.inl (List.mem_singleton.1 hk))
      (fun k hk y hy => by rw [hothers k hk] at hy; cases hy) (by decide +kernel) (by decide +kernel) (by decide +kernel)
      (by decide +kernel))

/-! ## Sessions -/

/-- ST holds an open session over an ACTIVE link, whose loss closes it (R780, R836). -/
def Mach.inSession (m : Mach) : Mach :=
  (((m.put F.ST_STAT_SESS 2).put F.ST_CTL_RESUMEEN 0).put F.LN_STAT_STATE 7).put F.LN_CTL_EN 1

/-- The lane path of the boot is open, in such a session with a ring of 64 bytes, and no attempt has reached ACTIVE as the model notes it. -/
def laneBoot : State :=
  let n := ((State.reset.m.inSession).put F.ST_RXSIZE_SIZE 64).put F.BOOT_STATUS_PHASE 1
  { State.reset with m := { n with boot := { laneFrom := some 0 } } }

/-- Refutes O33: the timeout ends the session, whose SESSION record goes into the mailbox. -/
theorem not_bootLoading : ¬ Obligations.BootLoading := by
  intro h
  obtain ⟨-, htimeout, -⟩ := h.2 laneBoot (by decide +kernel) (by decide +kernel) (by decide +kernel)
  have hbefore : laneBoot.m.byte mbxBase = 0 := by decide +kernel
  exact not_does_of_seenAfter
    (by decide +kernel : seenAfter .laneBootTimeout laneBoot (fun t => decide (t.m.byte mbxBase = 0)) = some false)
    (fun t ⟨_, _, _, _, _, hmem, _⟩ => by simp [hmem mbxBase, hbefore]) (htimeout 0 rfl rfl)

/-- The stream whose DONE would be C7's STAT. -/
def statStream : Nat := (F.C_STAT_reg 7 - F.ST_DONE_reg 0) / 16

/-- The model keeps an entry's stream as a number, and the statements take every number. -/
theorem done_reg_statStream : F.ST_DONE_reg statStream = F.C_STAT_reg 7 := by decide

/-- An entry of that stream. -/
def strayEntry : StEntry :=
  { id := 0, ctl := false, stream := statStream, segs := [], len := 0, last := false, coded := false, eseq := 0 }

/-- Such a session with that entry in the queue; line `e` of C7 is enabled. The session's end counts the entry as done, C7 then waits, and
takes its line. -/
def strayClose (e : Nat) : State :=
  let n := running.inSession.put (F.C_EVT_EN_EN 7) (2 ^ e)
  { State.reset with m := { n with
      st := { n.st with queue := [strayEntry], ledger := [{ id := 0, stream := statStream, done := false, lost := false }] } } }

/-- Refutes O55: by `done_reg_statStream` the CLOSE lets C7 wait, and C7 takes line 13. -/
theorem not_sessions : ¬ Obligations.Sessions := by
  intro h
  obtain ⟨hclose, -⟩ := h (strayClose 13) (by decide +kernel)
  exact not_does_of_getAfter (by decide +kernel : getAfter .stClose (strayClose 13) (F.C_EVT_PEND_PEND 7) = some 0)
    (fun t ⟨_, _, _, _, _, _, _, hpulsed, _⟩ hpend => not_pulsed hpend (by decide) (by decide +kernel) (by decide +kernel)
      (by decide +kernel) (by decide +kernel) hpulsed)
    (hclose (by decide +kernel)).1

/-- Refutes O51: by `done_reg_statStream` the link's end lets C7 wait, and C7 takes line 11. -/
theorem not_laneCommands : ¬ Obligations.LaneCommands := by
  intro h
  obtain ⟨-, -, hoff, -⟩ := h (strayClose 11) (by decide +kernel)
  exact not_does_of_getAfter (by decide +kernel : getAfter (.lnEn false) (strayClose 11) (F.C_EVT_PEND_PEND 7) = some 8192)
    (fun t ⟨_, _, _, _, hpulsed, _⟩ hpend => not_pulsed hpend (by decide) (by decide +kernel) (by decide +kernel)
      (by decide +kernel) (by decide +kernel) hpulsed)
    (hoff (by decide +kernel) (by decide +kernel) (by decide +kernel))

/-- Refutes O53: by `done_reg_statStream` the link's loss lets C7 wait, and C7 takes line 11. -/
theorem not_laneSignals : ¬ Obligations.LaneSignals := by
  intro h
  obtain ⟨hactive, -⟩ := h (strayClose 11) (by decide +kernel) (by decide +kernel)
  exact not_does_of_getAfter (by decide +kernel : getAfter .lnRetrain (strayClose 11) (F.C_EVT_PEND_PEND 7) = some 8192)
    (fun t ⟨_, _, _, _, _, _, _, hpulsed, _⟩ hpend => not_pulsed hpend (by decide) (by decide +kernel) (by decide +kernel)
      (by decide +kernel) (by decide +kernel) hpulsed)
    (hactive (by decide +kernel) (by decide +kernel) (by decide +kernel)).1

end Sys2Proof.Machine
end
section
/-!
Refutes the statement of the codec contexts: a context that closes hands its SEND to ST, and what ST does with it frees units of every
context.
-/

namespace Sys2Proof.Machine

-- the evaluations below wait for the kernel one after another; in threads of their own they would hold a stack each
set_option Elab.async false

/-- A unit of an output ring that nothing needs any more. -/
def spentUnit : BcUnit := { ofs := 0, len := 0, entry := none, check := false }

/-- Context 0 is idle, and the first unit of context 1's ring is still to be freed. -/
def closingCtx : State :=
  { State.reset with m := (State.reset.m.put (F.BC_CTX_CTL_EN 0) 1).setBcCtx 1 { units := [spentUnit] } }

/-- Refutes O49: context 0 closes without a session, its SEND is lost at once, and that frees the unit of context 1 (R733). -/
theorem not_codecContexts : ¬ Obligations.CodecContexts := by
  intro h
  obtain ⟨-, hctx, -⟩ := h closingCtx (by decide +kernel)
  obtain ⟨-, hoff, -⟩ := hctx 0
  obtain ⟨-, hidle⟩ := hoff (by decide +kernel)
  have hunits : (({ closingCtx with m := closingCtx.tick.m.bcCommits } : State).m.bcCtx 1).units = [spentUnit] := by decide +kernel
  exact not_does_of_seenAfter
    (by decide +kernel : seenAfter (.bcCtxEn 0 false) closingCtx (fun t => (t.m.bcCtx 1).units) = some [])
    (fun t ⟨_, _, hothers, _⟩ => by rw [hothers 1 (by decide), hunits]; decide)
    (hidle (Or.inr ⟨by decide +kernel, by decide +kernel⟩))

end Sys2Proof.Machine
end

section
/-!
Settles the Felwen device instructions that neither wait nor touch memory: the stores that RAISE, COMMIT and FIRE enter into the
buffer, TIME and FENCE, and the axis hooks of C6 (R223, R287-R299, R313-R318).
-/

namespace Sys2Proof.Machine

/-! ## Instructions of a core's turn -/

/-- An instruction that reaches execution leaves what its meaning makes of the core's turn. -/
theorem State.runF_issue (s : State) (c : Fin 8) (g : Fuses → Mach → Mach) (h : s.m.fetches c = true) :
    s.runF (fun f m => m.issue c (g f)) = .next { s with m := g s.fuses (s.m.takeTurn c) } := by
  simp only [State.runF_eq, Mach.issue_of_fetches _ _ _ h]

theorem State.runF_issueIf (s : State) (c : Fin 8) {ok : Bool} (g : Fuses → Mach → Mach) (h : s.m.fetches c = true) (hok : ok = true) :
    s.runF (fun f m => m.issueIf c ok (g f)) = .next { s with m := g s.fuses (s.m.takeTurn c) } := by
  simp only [State.runF_eq, Mach.issueIf, Mach.issue_of_fetches _ _ _ h, hok, if_true]

/-- With an empty store buffer an access that waits for its stores goes on at once (R224). -/
theorem Mach.drained_of_empty (m : Mach) (f : Fuses) (c : Fin 8) (g : Mach → Mach) (h : (m.core c).sb = []) : m.drained f c g = g m := by
  rw [Mach.drained, if_pos h]

theorem Mach.takeTurn_sb (m : Mach) (c : Fin 8) : ((m.takeTurn c).core c).sb = (m.core c).sb := by
  rw [Mach.takeTurn_core]

theorem Mach.takeTurn_pc (m : Mach) (c : Fin 8) : ((m.takeTurn c).core c).pc = (m.core c).pc := by
  rw [Mach.takeTurn_core]

theorem Mach.takeTurn_file (m : Mach) (c : Fin 8) : ((m.takeTurn c).core c).w = (m.core c).w := by
  rw [Mach.takeTurn_core]

theorem Mach.reg_setCore (m : Mach) (c : Fin 8) (x : CoreSt) (a : Nat) : (m.setCore c x).reg a = m.reg a := rfl

theorem Mach.get_setCore (m : Mach) (c : Fin 8) (x : CoreSt) (f : Fld) : (m.setCore c x).get f = m.get f := rfl

theorem Mach.core_setCore_ne (m : Mach) {c d : Fin 8} (x : CoreSt) (h : d ≠ c) : (m.setCore c x).core d = m.core d := by
  have hval : c.val ≠ d.val := fun e => h (Fin.ext e.symm)
  simp [Mach.core, Mach.setCore, Vector.getElem_set_ne _ _ hval]

theorem State.core_self (s : State) (c : Fin 8) (x : CoreSt) : (s.core c x).m.cores[c] = x := by
  simp [State.core]

/-- What retires an instruction in the model is the statements' `retire`. -/
theorem State.retire_eq (s : State) (c : Fin 8) (rd : Rn) (v : Word) : { s with m := (s.m.setW c rd v).next c } = s.retire c rd v := by
  rw [Mach.next_setW]
  rfl

theorem State.goto_next (s : State) (c : Fin 8) : { s with m := (s.m.takeTurn c).next c } = (s.turn c).goto c (s.m.cores[c].pc + 4) := by
  rw [Mach.next, Mach.takeTurn_pc]
  rfl

/-! ## Stores into the buffer -/

/-- An entry joins a buffer that has room, behind the earlier stores (R223). -/
theorem State.enqueue_of_room (s : State) (c : Fin 8) (f : Fuses) (e : SbEntry) (h : s.m.cores[c].sb.length < 4) :
    { s with m := (s.m.takeTurn c).enqueue f c e } =
      (s.turn c).core c { (s.turn c).m.cores[c] with sb := s.m.cores[c].sb ++ [e], pc := s.m.cores[c].pc + 4 } := by
  have hsb : ((s.m.takeTurn c).core c).sb = s.m.cores[c].sb := s.m.takeTurn_sb c
  simp only [Mach.enqueue, hsb, h, if_true, Mach.next, Mach.setPc, Mach.core_setCore_self, Mach.setCore_setCore, Mach.takeTurn_pc]
  rfl

/-- The commit registers of R289: heads, axes and codec contexts. -/
theorem commitPlace_head {k : Nat} (h : k < 6) : commitPlace k = BitVec.ofNat 32 (0x40100004 + 0x10000 * k) := by
  rw [commitPlace, if_pos h]
  interval_cases k <;> rfl

theorem commitPlace_axis {k : Nat} (h : k = 8 ∨ k = 9) : commitPlace k = BitVec.ofNat 32 (0x40220104 + 0x100 * (k - 8)) := by
  obtain rfl | rfl := h <;> rfl

theorem commitPlace_context {k : Nat} (h : 16 ≤ k) (hlt : k < 32) : commitPlace k = BitVec.ofNat 32 (0x40241004 + 0x100 * (k - 16)) := by
  interval_cases k <;> rfl

theorem exec_commit (s : State) (c : Fin 8) (k : BitVec 18) (h : s.m.fetches c = true) (hroom : s.m.cores[c].sb.length < 4)
    (hk : commitK k.toNat = true) : exec (.commit c k) s = .next ((s.turn c).core c { (s.turn c).m.cores[c] with
      sb := s.m.cores[c].sb ++ [.store (commitPlace k.toNat) 1], pc := s.m.cores[c].pc + 4 }) :=
  (s.runF_issueIf c (fun f m => m.enqueue f c (.store (commitPlace k.toNat) 1)) h hk).trans
    (congrArg Host.Outcome.next (s.enqueue_of_room c s.fuses _ hroom))

theorem exec_fire (s : State) (c : Fin 8) (k : BitVec 18) (h : s.m.fetches c = true) (hroom : s.m.cores[c].sb.length < 4)
    (hk : k.toNat < 16) : exec (.fire c k) s = .next ((s.turn c).core c { (s.turn c).m.cores[c] with
      sb := s.m.cores[c].sb ++ [.fire k.toNat], pc := s.m.cores[c].pc + 4 }) :=
  (s.runF_issueIf c (fun f m => m.enqueue f c (.fire k.toNat)) h (decide_eq_true hk)).trans
    (congrArg Host.Outcome.next (s.enqueue_of_room c s.fuses _ hroom))

theorem exec_raise (s : State) (c : Fin 8) (ra : Rn) (h : s.m.fetches c = true) (hroom : s.m.cores[c].sb.length < 4) :
    exec (.raise c ra) s = .next ((s.turn c).core c { (s.turn c).m.cores[c] with
      sb := s.m.cores[c].sb ++ [.raise (s.W c ra)], pc := s.m.cores[c].pc + 4 }) := by
  have hexec := s.runF_issue c (fun f m => m.enqueue f c (.raise (m.w c ra))) h
  rw [State.takeTurn_w] at hexec
  exact hexec.trans (congrArg Host.Outcome.next (s.enqueue_of_room c s.fuses _ hroom))

/-- Settles O21: each of the three enters the buffer in its core's turn, a COMMIT as a store to the place that R289 gives. -/
theorem bufferedCommands : Obligations.BufferedCommands := by
  intro c ra k s h hroom
  refine ⟨exec_raise s c ra h hroom, exec_fire s c k h hroom, fun hk => ?_, fun hk => ?_, fun hk hlt => ?_⟩
  · rw [← commitPlace_head hk]
    exact exec_commit s c k h hroom (by simp [commitK, hk])
  · rw [← commitPlace_axis hk]
    exact exec_commit s c k h hroom (by obtain hk | hk := hk <;> simp [commitK, hk])
  · rw [← commitPlace_context hk hlt]
    exact exec_commit s c k h hroom (by simp [commitK, hk, hlt])

/-! ## TIME -/

/-- The count modulo 4 is that of SYS_TIME: the wraps weigh multiples of 4. -/
theorem Mach.sysTime_mod_four (m : Mach) : m.sysTime.toNat % 4 = m.now % 4 := by
  simp only [Mach.now]
  omega

theorem Mach.now_runTo_mod_four (m : Mach) {t : Nat} (ht : t % 4 = 0) (hnow : m.now < t ∨ m.now % 4 = 0) (hrun : m.clk.running = true) :
    (m.runTo t).now % 4 = 0 := by
  unfold Mach.runTo
  split
  · rw [Mach.now_setNow]
    omega
  · next h =>
    have hle : t ≤ m.now := by simpa [hrun] using h
    omega

/-- A turn stands at the first beat of a tick, also where the count comes round (R31, R74). -/
theorem Mach.now_turn_mod_four (m : Mach) (r : Nat) (hrun : m.clk.running = true) : (m.turn r).now % 4 = 0 := by
  have hgrid := le_nextGrid_four m.now
  have htick : m.atTick.now % 4 = 0 := m.now_runTo_mod_four hgrid.2.2 (by omega) hrun
  have hrun' : m.atTick.clk.running = true := by rw [Mach.atTick, Mach.runTo_clk, hrun]
  obtain ⟨b, hturn | hturn⟩ := m.turn_of_running r hrun
  · rw [hturn, Mach.now_withBeat, htick]
  · rw [hturn, Mach.now_withBeat]
    exact m.atTick.now_runTo_mod_four (by omega) (by omega) hrun'

theorem Mach.running_of_fetches {m : Mach} {c : Fin 8} (h : m.fetches c = true) : m.clk.running = true := by
  obtain ⟨hrun, -⟩ := (m.fetches_iff c).1 h
  obtain ⟨⟨hlive, -⟩, -⟩ : (m.live = true ∧ m.phase = 4) ∧ m.pairState c = 1 := by simpa [Mach.canRun] using hrun
  exact (m.live_iff.1 hlive).1

/-- TIME reads the count of the tick in which it issues (R298). -/
theorem Mach.tickTime_takeTurn {m : Mach} {c : Fin 8} (h : m.fetches c = true) :
    (m.takeTurn c).tickTime = (m.takeTurn c).sysTime.toNat := by
  have hgrid : (m.takeTurn c).now % 4 = 0 := m.now_turn_mod_four _ (Mach.running_of_fetches h)
  have hmod := (m.takeTurn c).sysTime_mod_four
  rw [Mach.tickTime]
  omega

/-- The second word of TIME: 16 bits of the wraps above the upper 16 bits of the count. -/
theorem Mach.timeHigh_eq (m : Mach) (h : m.tickTime = m.sysTime.toNat) :
    m.timeHigh = m.wraps ++ (BitVec.ofNat 48 m.sysTime.toNat).extractLsb' 32 16 := by
  have htime := m.sysTime.isLt
  apply BitVec.eq_of_toNat_eq
  rw [Mach.timeHigh, h, BitVec.toNat_append, BitVec.extractLsb'_toNat, BitVec.ofNat_toNat, BitVec.setWidth_eq,
    Nat.shiftRight_eq_div_pow, ← Nat.shiftLeft_add_eq_or_of_lt (Nat.mod_lt _ (by decide)), Nat.shiftLeft_eq, BitVec.toNat_ofNat]
  have hwraps := m.wraps.isLt
  omega

/-! ## Two registers written -/

/-- W[rd] and then W[rb] are written, and the PC goes on by 4. -/
theorem Mach.next_setW_setW (m : Mach) (c : Fin 8) (rd rb : Rn) (v x : Word) : ((m.setW c rd v).setW c rb x).next c =
    m.setCore c { m.core c with w := putW (putW (m.core c).w rd v) rb x, pc := (m.core c).pc + 4 } := by
  rw [Mach.next_setW]
  simp only [Mach.setW, Mach.wW, Mach.core_setCore_self, Mach.setCore_setCore, CoreSt.writeW_rnum]

theorem exec_time (s : State) (c : Fin 8) (rd rb : Rn) (h : s.m.fetches c = true) (hne : rb ≠ rd) :
    exec (.time c rd rb) s = .next ((s.turn c).core c { (s.turn c).m.cores[c] with
      w := putW (putW s.m.cores[c].w rd (BitVec.ofNat 32 (s.m.takeTurn c).sysTime.toNat)) rb (s.m.takeTurn c).timeHigh,
      pc := s.m.cores[c].pc + 4 }) := by
  have hexec : exec (.time c rd rb) s = .next { s with m := (((s.m.takeTurn c).setW c rd
      (BitVec.ofNat 32 (s.m.takeTurn c).tickTime)).setW c rb (s.m.takeTurn c).timeHigh).next c } :=
    s.runF_issueIf c (fun _ m => ((m.setW c rd (BitVec.ofNat 32 m.tickTime)).setW c rb m.timeHigh).next c) h (bne_iff_ne.2 hne)
  rw [hexec, Mach.next_setW_setW, Mach.tickTime_takeTurn h, Mach.takeTurn_pc, Mach.takeTurn_file]
  rfl

theorem exec_fence (s : State) (c : Fin 8) (h : s.m.fetches c = true) (hempty : s.m.cores[c].sb = []) :
    exec (.fence c) s = .next ((s.turn c).goto c (s.m.cores[c].pc + 4)) := by
  rw [← State.goto_next, ← Mach.drained_of_empty (s.m.takeTurn c) s.fuses c (fun m => m.next c) ((s.m.takeTurn_sb c).trans hempty)]
  exact s.runF_issue c (fun f m => m.drained f c (fun m => m.next c)) h

/-! ## The axis hooks of C6 -/

/-- An instruction of C6 alone that waits for the core's stores, with none waiting. -/
theorem State.runF_hook (s : State) {ok : Bool} (g : Mach → Mach) (h : s.m.fetches 6 = true) (hempty : s.m.cores[6].sb = [])
    (hok : ok = true) : s.runF (fun f m => m.issueIf 6 ok (fun m => m.drained f 6 g)) = .next { s with m := g (s.m.takeTurn 6) } := by
  rw [s.runF_issueIf 6 (fun f m => m.drained f 6 g) h hok, Mach.drained_of_empty _ _ _ _ ((s.m.takeTurn_sb 6).trans hempty)]

theorem exec_lnrd (s : State) (rd : Rn) (a : Fin 2) (h : s.m.fetches 6 = true) (hempty : s.m.cores[6].sb = []) :
    exec (.lnrd 6 rd a) s = .next ((s.turn 6).retire 6 rd (BitVec.ofNat 32 ((s.turn 6).m.lnext a))) :=
  (s.runF_hook (fun m => (m.setW 6 rd (BitVec.ofNat 32 (m.lnext a))).next 6) h hempty rfl).trans
    (congrArg Host.Outcome.next ((s.turn 6).retire_eq 6 rd _))

theorem exec_steprd (s : State) (rd rb : Rn) (a : Fin 2) (h : s.m.fetches 6 = true) (hempty : s.m.cores[6].sb = []) (hne : rb ≠ rd) :
    exec (.steprd 6 rd rb a) s = .next ((s.turn 6).core 6 { (s.turn 6).m.cores[6] with
      w := putW (putW s.m.cores[6].w rd (BitVec.ofInt 32 ((s.m.takeTurn 6).axis a).c)) rb (BitVec.ofInt 32 ((s.m.takeTurn 6).obs a)),
      pc := s.m.cores[6].pc + 4 }) := by
  have hok : ((6 : Fin 8) == 6 && rb != rd) = true := by simpa using hne
  have hexec := s.runF_hook (fun m => ((m.setW 6 rd (BitVec.ofNat 32 (wrapInt 32 (m.axis a).c))).setW 6 rb
    (BitVec.ofNat 32 (wrapInt 32 (m.obs a)))).next 6) h hempty hok
  rw [Mach.next_setW_setW, ofNat_wrapInt, ofNat_wrapInt, Mach.takeTurn_pc, Mach.takeTurn_file] at hexec
  exact hexec

theorem exec_posev (s : State) (rd ra : Rn) (a : Fin 2) (h : s.m.fetches 6 = true) (hempty : s.m.cores[6].sb = []) :
    exec (.posev 6 rd ra a) s = .next { s with m := (((s.m.takeTurn 6).posevArm a (s.W 6 ra)).2.setW 6 rd
      ((s.m.takeTurn 6).posevArm a (s.W 6 ra)).1).next 6 } := by
  rw [← State.takeTurn_w]
  exact s.runF_hook (fun m => ((m.posevArm a (m.w 6 ra)).2.setW 6 rd (m.posevArm a (m.w 6 ra)).1).next 6) h hempty rfl

theorem Mach.takeTurn_axis (m : Mach) (c : Fin 8) (a : Fin 2) : (m.takeTurn c).axis a = m.axes[a] := by
  obtain ⟨n, w, b, hturn⟩ := m.takeTurn_changes c
  rw [hturn]
  rfl

theorem sext_wrapInt (x : Int) : sext 32 (wrapInt 32 x) = (BitVec.ofInt 32 x).toInt := by
  rw [← sext_toNat (by decide), BitVec.toNat_ofInt]
  rfl

/-- An arm of a position other than C stands and is not met (R314, R316). -/
theorem Mach.posevArm_of_ne (m : Mach) (a : Fin 2) {v : Word} (hv : v ≠ 0x80000000) (hc : v ≠ BitVec.ofInt 32 (m.axis a).c) :
    m.posevArm a v = (bitOf (m.axis a).posev.isSome, m.setAxis a { m.axis a with posev := some v.toInt }) := by
  have haxis : ∀ x, (m.setAxis a x).axis a = x := fun x => by simp [Mach.axis, Mach.setAxis]
  have hfar : some v.toInt ≠ some (sext 32 (wrapInt 32 (m.axis a).c)) := fun heq =>
    hc (BitVec.eq_of_toInt_eq (by rw [← sext_wrapInt]; exact Option.some.inj heq))
  rw [Mach.posevArm, if_neg hv, Mach.posevCheck, haxis, if_neg hfar]

theorem Mach.posevArm_disarm (m : Mach) (a : Fin 2) :
    m.posevArm a 0x80000000 = (bitOf (m.axis a).posev.isSome, m.setAxis a { m.axis a with posev := none }) := by
  rw [Mach.posevArm, if_pos rfl]

/-- POSEV with an arm that is not met: the axis holds it, W[rd] gets whether one stood, and nothing else changes. -/
theorem does_posev {s : State} {rd ra : Rn} {a : Fin 2} {p : Option Int} (h : s.m.fetches 6 = true) (hempty : s.m.cores[6].sb = [])
    (harm : (s.m.takeTurn 6).posevArm a (s.W 6 ra) =
      (bitOf (s.m.axes[a]).posev.isSome, (s.m.takeTurn 6).setAxis a { (s.m.takeTurn 6).axis a with posev := p })) :
    Does (.posev 6 rd ra a) s (fun t => t.m.axes[a].posev = p ∧
      t.m.cores = ((s.turn 6).retire 6 rd (if s.m.axes[a].posev.isSome then 1 else 0)).m.cores ∧ SameRegs (fun _ => False) s t ∧ SameMem s t) := by
  have hexec := exec_posev s rd ra a h hempty
  rw [harm, Mach.next_setW] at hexec
  refine ⟨_, hexec, ?_, rfl, fun b _ => ?_, fun b => ?_⟩
  · simp [Mach.setCore, Mach.setAxis]
  · exact s.m.takeTurn_reg 6 b
  · obtain ⟨n, w, x, hturn⟩ := s.m.takeTurn_changes 6
    rw [hturn]
    rfl

/-- Settles O20: each instruction acts in its core's turn, on the count and on the axes as that turn finds them. -/
theorem timeFenceAndAxes : Obligations.TimeFenceAndAxes := by
  refine ⟨fun c rd rb s h => ⟨fun hne => ?_, exec_fence s c h⟩, fun rd ra rb a s h hempty => ?_⟩
  · rw [exec_time s c rd rb h hne, Mach.timeHigh_eq _ (Mach.tickTime_takeTurn h)]
    rfl
  · have haxis := s.m.takeTurn_axis 6 a
    refine ⟨fun hdis => ?_, fun hv hc => ?_, fun hne => ?_, exec_lnrd s rd a h hempty⟩
    · exact does_posev h hempty (by rw [hdis, Mach.posevArm_disarm, haxis])
    · exact does_posev h hempty (by rw [Mach.posevArm_of_ne _ _ hv (by rwa [haxis]), haxis])
    · refine ⟨_, exec_steprd s rd rb a h hempty hne, ?_, ?_, ?_, fun b _ => s.m.takeTurn_reg 6 b⟩
      · exact congrArg CoreSt.pc ((s.turn 6).core_self 6 _)
      · exact (congrArg CoreSt.w ((s.turn 6).core_self 6 _)).trans (by rw [haxis]; rfl)
      · exact ((Mach.CoresOnly.refl _).setCore 6 _).onlyCores

end Sys2Proof.Machine
end

section
/-!
Settles the Felwen accesses to the core memories: the mailbox atomics, the loads and the stores of a core's own memories, and the
word stores that enter the buffer (R200, R223, R224, R251, R260, R301, R302).
-/

namespace Sys2Proof.Machine

/-! ## Words of bytes -/

theorem toNat_append_byte {n : Nat} (x : BitVec n) (y : Byte) : (x ++ y).toNat = x.toNat * 256 + y.toNat := by
  rw [BitVec.toNat_append, ← Nat.shiftLeft_add_eq_or_of_lt y.isLt, Nat.shiftLeft_eq]

theorem toNat_append_bytes (d c b a : Byte) :
    (d ++ c ++ b ++ a : Word).toNat = ((d.toNat * 256 + c.toNat) * 256 + b.toNat) * 256 + a.toNat := by
  rw [toNat_append_byte, toNat_append_byte, toNat_append_byte]

/-- The word whose little-endian bytes stand from `a` up (R260). -/
def Mach.wordAt (m : Mach) (a : Nat) : Word := m.byte (a + 3) ++ m.byte (a + 2) ++ m.byte (a + 1) ++ m.byte a

theorem Mach.load_lt (m : Mach) (a n : Nat) : m.load a n < 256 ^ n := by
  induction n generalizing a with
  | zero => exact Nat.one_pos
  | succ n ih =>
    have hbyte := (m.byte a).isLt
    have hrest := ih (a + 1)
    rw [Mach.load, Nat.pow_succ]
    omega

theorem Mach.toNat_wordAt (m : Mach) (a : Nat) : (m.wordAt a).toNat = m.load a 4 := by
  simp only [Mach.wordAt, toNat_append_bytes, Mach.load, Nat.add_assoc, Nat.reduceAdd]
  omega

theorem Mach.ofNat_load_four (m : Mach) (a : Nat) : BitVec.ofNat 32 (m.load a 4) = m.wordAt a := by
  rw [← Mach.toNat_wordAt, BitVec.ofNat_toNat, BitVec.setWidth_eq]

/-- A store leaves its bytes from `a` up, little-endian. -/
theorem Mach.byte_storeN_mem (m : Mach) (a n v : Nat) {i : Nat} (hi : i < n) :
    (m.storeN a n v).byte (a + i) = BitVec.ofNat 8 (v / 256 ^ i) := by
  induction n generalizing m a v i with
  | zero => omega
  | succ n ih =>
    rw [Mach.storeN]
    cases i with
    | zero =>
      rw [Mach.byte_storeN _ _ _ _ _ (Or.inl (by omega)), Nat.add_zero, Mach.byte_setByte_self, Nat.pow_zero, Nat.div_one]
    | succ i =>
      rw [show a + (i + 1) = a + 1 + i by omega, ih _ _ _ (by omega), Nat.div_div_eq_div_mul, Nat.pow_succ']

theorem extractLsb'_byte (v : Word) (i : Nat) : v.extractLsb' (8 * i) 8 = BitVec.ofNat 8 (v.toNat / 256 ^ i) := by
  apply BitVec.eq_of_toNat_eq
  rw [BitVec.extractLsb'_toNat, BitVec.toNat_ofNat, Nat.shiftRight_eq_div_pow, Nat.pow_mul]

theorem Mach.wordAt_storeN (m : Mach) (a : Nat) (v : Word) : (m.storeN a 4 v.toNat).wordAt a = v := by
  have hv := v.isLt
  have hbyte : ∀ i, i < 4 → ((m.storeN a 4 v.toNat).byte (a + i)).toNat = v.toNat / 256 ^ i % 256 := fun i hi => by
    rw [Mach.byte_storeN_mem _ _ _ _ hi, BitVec.toNat_ofNat]
  have h0 := hbyte 0 (by decide)
  have h1 := hbyte 1 (by decide)
  have h2 := hbyte 2 (by decide)
  have h3 := hbyte 3 (by decide)
  apply BitVec.eq_of_toNat_eq
  rw [Mach.wordAt, toNat_append_bytes]
  simp only [Nat.add_zero] at h0
  omega

/-! ## What a store changes -/

theorem Mach.storeN_changes (m : Mach) (a n v : Nat) : ∃ x, m.storeN a n v = { m with mem := x } := by
  induction n generalizing m a v with
  | zero => exact ⟨m.mem, rfl⟩
  | succ n ih =>
    obtain ⟨x, h⟩ := ih (m.setByte a (BitVec.ofNat 8 v)) (a + 1) (v / 256)
    exact ⟨x, by rw [Mach.storeN, h]; rfl⟩

theorem Mach.storeWord_changes (m : Mach) (a : Nat) (v : Word) : ∃ x y z,
    m.storeWord a v = { m with mem := x, eccBad := y, eccOne := z } := by
  unfold Mach.storeWord
  extract_lets n
  obtain ⟨x, h⟩ := n.storeN_changes a 4 v.toNat
  exact ⟨x, _, _, by rw [h]⟩

theorem Mach.wordAt_storeWord (m : Mach) (a : Nat) (v : Word) : (m.storeWord a v).wordAt a = v := Mach.wordAt_storeN _ _ _

theorem Mach.byte_storeWord (m : Mach) (a : Nat) (v : Word) (b : Nat) (h : b < a ∨ a + 4 ≤ b) :
    (m.storeWord a v).byte b = m.byte b := Mach.byte_storeN _ _ _ _ _ h

/-- A word store leaves its word free of errors (R196; log entry 83). -/
theorem Mach.storeWord_clean (m : Mach) (a : Nat) (v : Word) : (m.storeWord a v).clean a = true := by
  unfold Mach.storeWord
  extract_lets n
  obtain ⟨x, h⟩ := n.storeN_changes a 4 v.toNat
  rw [h]
  simp [Mach.clean, n]

/-! ## Reads of a clean word -/

theorem Mach.readMem_of_clean (m : Mach) (c : Fin 8) (ea n : Nat) (k : Nat → Mach → Mach) (h : m.clean (portAddr c ea) = true) :
    m.readMem c ea n k = k (m.load (portAddr c ea) n) m := by
  obtain ⟨hbad, -⟩ := (m.clean_iff _).1 h
  rw [Mach.readMem, hbad, Mach.touch_of_clean _ _ h]
  rfl

theorem Mach.takeTurn_byte (m : Mach) (c : Fin 8) (a : Nat) : (m.takeTurn c).byte a = m.byte a := by
  obtain ⟨n, w, b, hturn⟩ := m.takeTurn_changes c
  rw [hturn]
  rfl

theorem Mach.takeTurn_wordAt (m : Mach) (c : Fin 8) (a : Nat) : (m.takeTurn c).wordAt a = m.wordAt a := by
  simp only [Mach.wordAt, Mach.takeTurn_byte]

theorem region_mailbox {ea : Nat} (hlo : 0x20000000 ≤ ea) (hhi : ea < 0x20004000) : region ea = .mailbox := by
  rw [region, if_neg (by omega), if_neg (by simp; omega), if_pos (by simp; omega)]

theorem portAddr_mailbox (c : Fin 8) {ea : Nat} (hlo : 0x20000000 ≤ ea) (hhi : ea < 0x20004000) :
    portAddr c ea = 0x480000 + (ea - 0x20000000) := by
  rw [portAddr, region_mailbox hlo hhi]
  rfl

/-! ## Atomics -/

/-- The memory after an atomic that writes `x`, if it writes at all. -/
def Mach.storeWord? (m : Mach) (a : Nat) : Option Word → Mach
  | some v => m.storeWord a v
  | none => m

theorem Mach.storeWord?_changes (m : Mach) (a : Nat) (o : Option Word) : ∃ x y z,
    m.storeWord? a o = { m with mem := x, eccBad := y, eccOne := z } := by
  cases o with
  | none => exact ⟨m.mem, m.eccBad, m.eccOne, rfl⟩
  | some v => exact m.storeWord_changes a v

theorem Mach.wordAt_storeWord? (m : Mach) (a : Nat) (o : Option Word) : (m.storeWord? a o).wordAt a = o.getD (m.wordAt a) := by
  cases o with
  | none => rfl
  | some v => exact m.wordAt_storeWord a v

theorem Mach.byte_storeWord? (m : Mach) (a : Nat) (o : Option Word) (b : Nat) (h : b < a ∨ a + 4 ≤ b) :
    (m.storeWord? a o).byte b = m.byte b := by
  cases o with
  | none => rfl
  | some v => exact m.byte_storeWord a v b h

/-- The machine after an atomic at the word of control-port address `a`. -/
def Mach.atomicAt (m : Mach) (c : Fin 8) (rd : Rn) (a : Nat) (op : Mach → Word → Option Word) : Mach :=
  ((m.storeWord? a (op m (m.wordAt a))).setW c rd (m.wordAt a)).next c

/-- An atomic on a clean mailbox word with no store waiting: the word is replaced, and W[rd] gets the old one (R301, R302). -/
theorem State.run_atomic (s : State) (c : Fin 8) (rd ra : Rn) (op : Mach → Word → Option Word) (h : s.m.fetches c = true)
    (hempty : s.m.cores[c].sb = []) (halign : (s.W c ra).toNat % 4 = 0) (hlo : 0x20000000 ≤ (s.W c ra).toNat)
    (hhi : (s.W c ra).toNat < 0x20004000) (hclean : s.m.clean (0x480000 + ((s.W c ra).toNat - 0x20000000)) = true) :
    s.runF (fun f m => m.atomic f c rd ra op) =
      .next { s with m := (s.m.takeTurn c).atomicAt c rd (0x480000 + ((s.W c ra).toNat - 0x20000000)) op } := by
  have hport := portAddr_mailbox c hlo hhi
  have hclean' : (s.m.takeTurn c).clean (portAddr c (s.W c ra).toNat) = true := by rw [Mach.takeTurn_clean, hport, hclean]
  have hregion := region_mailbox hlo hhi
  simp only [State.runF_eq, Mach.atomic, Mach.issue_of_fetches _ _ _ h, State.takeTurn_w, halign, hregion, bne_self_eq_false,
    Bool.false_eq_true, if_false, Mach.drained_of_empty _ _ _ _ ((s.m.takeTurn_sb c).trans hempty),
    Mach.readMem_of_clean _ _ _ _ _ hclean', Mach.ofNat_load_four, hport, Mach.atomicAt]
  cases op (s.m.takeTurn c) ((s.m.takeTurn c).wordAt (0x480000 + ((s.W c ra).toNat - 0x20000000))) <;> rfl

/-- What an atomic leaves: the word that it writes, W[rd] the old one, and everything else as it was. -/
theorem does_atomic {s : State} {i : Instr} {c : Fin 8} {rd : Rn} {a : Nat} {op : Mach → Word → Option Word} {new : Word}
    (hexec : exec i s = .next { s with m := (s.m.takeTurn c).atomicAt c rd a op })
    (hnew : (op (s.m.takeTurn c) (s.m.wordAt a)).getD (s.m.wordAt a) = new) :
    Does i s (fun t => t.m.wordAt a = new ∧ (∀ x, x < a ∨ a + 4 ≤ x → t.m.byte x = s.m.byte x) ∧
      t.m.cores = ((s.turn c).retire c rd (s.m.wordAt a)).m.cores ∧
      t = { s.turn c with m := { (s.turn c).m with cores := t.m.cores, mem := t.m.mem, eccBad := t.m.eccBad, eccOne := t.m.eccOne } }) := by
  have hword := (s.m.takeTurn c).wordAt_storeWord? a (op (s.m.takeTurn c) (s.m.wordAt a))
  have hbyte := (s.m.takeTurn c).byte_storeWord? a (op (s.m.takeTurn c) (s.m.wordAt a))
  rw [Mach.takeTurn_wordAt, hnew] at hword
  obtain ⟨x, y, z, hchanges⟩ := (s.m.takeTurn c).storeWord?_changes a (op (s.m.takeTurn c) (s.m.wordAt a))
  rw [hchanges] at hword hbyte
  rw [Mach.atomicAt, Mach.takeTurn_wordAt, hchanges, Mach.next_setW] at hexec
  exact ⟨_, hexec, hword, fun b hb => (hbyte b hb).trans (s.m.takeTurn_byte c b), rfl, rfl⟩

/-- Settles O23: each atomic writes what its operation makes of the old word, and CAS writes nothing when the words differ. -/
theorem atomics : Obligations.Atomics := by
  intro c rd ra rb s h hempty u ea a word old b halign hlo hhi hclean
  have hexec := fun op => s.run_atomic c rd ra op h hempty halign hlo hhi hclean
  have hb := s.takeTurn_w c rb
  refine ⟨does_atomic (hexec (fun m _ => some (m.w c rb))) hb, ?_,
    does_atomic (hexec (fun m t => some (t + m.w c rb))) (congrArg (old + ·) hb),
    does_atomic (hexec (fun m t => some (t &&& m.w c rb))) (congrArg (old &&& ·) hb),
    does_atomic (hexec (fun m t => some (t ||| m.w c rb))) (congrArg (old ||| ·) hb),
    does_atomic (hexec (fun m t => some (t ^^^ m.w c rb))) (congrArg (old ^^^ ·) hb)⟩
  refine does_atomic (hexec (fun m t => if t = m.w c rb then some (m.w c rd) else none)) ?_
  rw [hb, State.takeTurn_w]
  change Option.getD (if old = b then some (s.W c rd) else none) old = if old = b then s.W c rd else old
  split <;> rfl

end Sys2Proof.Machine
end

section
/-!
Settles the loads and stores of a core's own memories, and the word stores that enter the buffer (R196, R200, R223, R224, R251, R260).
-/

namespace Sys2Proof.Machine

/-! ## Addresses of a core's own memories -/

/-- A core address in the core's own IMEM or DMEM (R200). -/
def ownAddr (ea : Nat) : Prop := ea < 0x8000 ∨ (0x10000000 ≤ ea ∧ ea < 0x10004000)

theorem region_imem {ea : Nat} (h : ea < 0x8000) : region ea = .imem := if_pos h

theorem region_dmem {ea : Nat} (hlo : 0x10000000 ≤ ea) (hhi : ea < 0x10004000) : region ea = .dmem := by
  rw [region, if_neg (by omega), if_pos (by simp [hlo, hhi])]

theorem region_own {ea : Nat} (h : ownAddr ea) : region ea = .imem ∨ region ea = .dmem := by
  obtain h | ⟨hlo, hhi⟩ := h
  · exact Or.inl (region_imem h)
  · exact Or.inr (region_dmem hlo hhi)

/-- The own memories lie below the mailbox on the control port (R203). -/
theorem portAddr_own_lt (c : Fin 8) {ea : Nat} (h : ownAddr ea) : portAddr c ea + 3 < 0x480000 := by
  have hc := c.isLt
  obtain h | ⟨hlo, hhi⟩ := h
  · simp only [portAddr, region_imem h, imemBase]
    omega
  · simp only [portAddr, region_dmem hlo hhi, dmemBase]
    omega

theorem accessCause_own {ea n : Nat} (h : ownAddr ea) (halign : ea % n = 0) : accessCause ea n = 0 := by
  obtain hregion | hregion := region_own h <;> simp [accessCause, halign, hregion]

theorem Mach.checked_own (m : Mach) (c : Fin 8) {ea n : Nat} (g : Mach → Mach) (h : ownAddr ea) (halign : ea % n = 0) :
    m.checked c ea n g = g m := by
  rw [Mach.checked, if_pos (accessCause_own h halign)]

/-! ## Values of loads -/

theorem Mach.load_takeTurn (m : Mach) (c : Fin 8) (a n : Nat) : (m.takeTurn c).load a n = m.load a n := by
  induction n generalizing a with
  | zero => rfl
  | succ n ih => rw [Mach.load, Mach.load, Mach.takeTurn_byte, ih]

theorem extS_of_toNat {n v : Nat} (hn : 0 < n) (x : BitVec (8 * n)) (h : x.toNat = v) : extS n v = x.signExtend 32 := by
  rw [extS, ofNat_wrapInt, ← h, sext_toNat (by omega)]
  rfl

theorem extU_of_toNat {n v : Nat} (x : BitVec (8 * n)) (h : x.toNat = v) : extU n v = x.zeroExtend 32 := by
  apply BitVec.eq_of_toNat_eq
  rw [extU, ← h, Nat.mod_eq_of_lt x.isLt, BitVec.toNat_ofNat, BitVec.toNat_setWidth]

theorem extU_four (v : Nat) : extU 4 v = BitVec.ofNat 32 v := by
  apply BitVec.eq_of_toNat_eq
  rw [extU, BitVec.toNat_ofNat, BitVec.toNat_ofNat, Nat.mod_mod]

theorem Mach.load_one (m : Mach) (a : Nat) : (m.byte a).toNat = m.load a 1 := (Nat.add_zero _).symm

theorem Mach.load_two (m : Mach) (a : Nat) : (m.byte (a + 1) ++ m.byte a).toNat = m.load a 2 := by
  rw [toNat_append_byte, Mach.load, ← Mach.load_one]
  omega

/-! ## Loads -/

theorem State.takeTurn_ea (s : State) (c : Fin 8) (ra : Rn) (imm : BitVec 18) :
    (s.m.takeTurn c).ea c ra imm = s.W c ra + imm.signExtend 32 := by
  rw [Mach.ea, State.takeTurn_w]
  rfl

/-- A load of an own memory with no store waiting retires with its extended bytes (R260). -/
theorem State.run_load (s : State) (c : Fin 8) (rd ra : Rn) (imm : BitVec 18) {n : Nat} (ext : Nat → Word) {v : Word}
    (h : s.m.fetches c = true) (hempty : s.m.cores[c].sb = []) (hown : ownAddr (s.W c ra + imm.signExtend 32).toNat)
    (hclean : s.m.clean (portAddr c (s.W c ra + imm.signExtend 32).toNat) = true)
    (halign : (s.W c ra + imm.signExtend 32).toNat % n = 0)
    (hv : ext (s.m.load (portAddr c (s.W c ra + imm.signExtend 32).toNat) n) = v) :
    s.runF (fun f m => m.loadOp f c rd ra imm n ext) = .next ((s.turn c).retire c rd v) := by
  have hclean' : (s.m.takeTurn c).clean (portAddr c (s.W c ra + imm.signExtend 32).toNat) = true := by rw [Mach.takeTurn_clean, hclean]
  simp only [State.runF_eq, Mach.loadOp, Mach.issue_of_fetches _ _ _ h, State.takeTurn_ea, Mach.checked_own _ _ _ hown halign,
    Mach.drained_of_empty _ _ _ _ ((s.m.takeTurn_sb c).trans hempty)]
  obtain hregion | hregion := region_own hown
  all_goals
    simp only [hregion, Mach.readMem_of_clean _ _ _ _ _ hclean', Mach.load_takeTurn, hv]
    exact congrArg Host.Outcome.next ((s.turn c).retire_eq c rd v)

theorem Mach.takeTurn_core_ne (m : Mach) {c d : Fin 8} (h : d ≠ c) : (m.takeTurn c).core d = m.core d := by
  rw [Mach.takeTurn, Mach.core_setCore_ne _ _ h, Mach.turn_core]

/-! ## A load behind a store to the mailbox -/

/-- The head of the buffer, a word store to the mailbox, takes effect in a turn of the core (R31, R223). -/
theorem Mach.drainOne_mailbox (m : Mach) (f : Fuses) (c : Fin 8) {b v : Word} {rest : List SbEntry}
    (h : (m.core c).sb = .store b v :: rest) (hlo : 0x20000000 ≤ b.toNat) (hhi : b.toNat < 0x20004000) :
    m.drainOne f c = ((m.turn (c.val + 1)).setCore c { m.core c with sb := rest }).storeWord (portAddr c b.toNat) v := by
  rw [Mach.drainOne, h]
  simp only [Mach.turn_core, Mach.sbApply, region_mailbox hlo hhi]

theorem Mach.clean_storeWord (m : Mach) (a : Nat) (v : Word) {b : Nat} (h : m.clean b = true) : (m.storeWord a v).clean b = true := by
  unfold Mach.storeWord
  extract_lets n
  obtain ⟨x, hchanges⟩ := n.storeN_changes a 4 v.toNat
  rw [hchanges]
  simp only [Mach.clean, List.contains_eq_mem, Bool.and_eq_true, Bool.not_eq_true', decide_eq_false_iff_not] at h ⊢
  simp [n, h]

/-- The machine once a word store to the mailbox, alone in the buffer, has taken effect in the core's turn. -/
def Mach.afterStore (m : Mach) (c : Fin 8) (b v : Word) : Mach :=
  ((m.turn (c.val + 1)).setCore c { m.core c with sb := [] }).storeWord (portAddr c b.toNat) v

theorem Mach.afterStore_changes (m : Mach) (c : Fin 8) (b v : Word) : ∃ n w x p q r, m.afterStore c b v =
    { m with sysTime := n, wraps := w, beat := x, mem := p, eccBad := q, eccOne := r, cores := m.cores.set c { m.core c with sb := [] } } := by
  obtain ⟨n, w, x, hturn⟩ := m.turn_changes (c.val + 1)
  obtain ⟨p, q, r, hstore⟩ := ((m.turn (c.val + 1)).setCore c { m.core c with sb := [] }).storeWord_changes (portAddr c b.toNat) v
  exact ⟨n, w, x, p, q, r, by rw [Mach.afterStore, hstore, hturn]; rfl⟩

theorem Mach.afterStore_core (m : Mach) (c : Fin 8) (b v : Word) : (m.afterStore c b v).core c = { m.core c with sb := [] } := by
  obtain ⟨n, w, x, p, q, r, h⟩ := m.afterStore_changes c b v
  rw [h]
  exact m.core_setCore_self c _

/-- An access behind one store to the mailbox takes place once that store has taken effect (R224; log entry 14). -/
theorem Mach.drained_mailbox (m : Mach) (f : Fuses) (c : Fin 8) {b v : Word} (g : Mach → Mach) (hrun : m.canRun c = true)
    (h : (m.core c).sb = [.store b v]) (hlo : 0x20000000 ≤ b.toNat) (hhi : b.toNat < 0x20004000) :
    m.drained f c g = g ((m.afterStore c b v).takeTurn c) := by
  have hone : m.drainOne f c = m.afterStore c b v := m.drainOne_mailbox f c h hlo hhi
  have hcore := m.afterStore_core c b v
  have hrun' : (m.afterStore c b v).canRun c = true := by
    obtain ⟨n, w, x, p, q, r, hchanges⟩ := m.afterStore_changes c b v
    rw [hchanges]
    exact hrun
  have hdrain : m.drain f c 4 = m.afterStore c b v := by
    rw [Mach.drain, h, if_neg (List.cons_ne_nil _ _), hone, Mach.drain, hcore, if_pos rfl]
  rw [Mach.drained, h, if_neg (List.cons_ne_nil _ _), hdrain]
  simp [Mach.stands, hcore, hrun']

theorem Mach.afterStore_clean (m : Mach) (c : Fin 8) (b v : Word) {a : Nat} (h : m.clean a = true) :
    (m.afterStore c b v).clean a = true := by
  refine Mach.clean_storeWord _ _ _ ?_
  obtain ⟨n, w, x, hturn⟩ := m.turn_changes (c.val + 1)
  rw [hturn]
  exact h

theorem Mach.wordAt_afterStore (m : Mach) (c : Fin 8) (b v : Word) : (m.afterStore c b v).wordAt (portAddr c b.toNat) = v :=
  Mach.wordAt_storeWord _ _ _

theorem Mach.wordAt_afterStore_below (m : Mach) (c : Fin 8) (b v : Word) {a : Nat} (h : a + 3 < portAddr c b.toNat) :
    (m.afterStore c b v).wordAt a = m.wordAt a := by
  have hbyte : ∀ x, x < portAddr c b.toNat → (m.afterStore c b v).byte x = m.byte x := fun x hx => by
    obtain ⟨n, w, y, hturn⟩ := m.turn_changes (c.val + 1)
    rw [Mach.afterStore, Mach.byte_storeWord _ _ _ _ (Or.inl hx), hturn]
    rfl
  simp only [Mach.wordAt, hbyte _ h, hbyte (a + 2) (by omega), hbyte (a + 1) (by omega), hbyte a (by omega)]

/-- A word load of an own memory behind one store to the mailbox: the store takes effect, and then the load retires (R224). -/
theorem does_ldw_behind {s : State} {c : Fin 8} {rd ra : Rn} {imm : BitVec 18} {b v : Word} (h : s.m.fetches c = true)
    (hsb : s.m.cores[c].sb = [.store b v]) (hlo : 0x20000000 ≤ b.toNat) (hhi : b.toNat < 0x20004000)
    (hown : ownAddr (s.W c ra + imm.signExtend 32).toNat) (halign : (s.W c ra + imm.signExtend 32).toNat % 4 = 0)
    (hclean : s.m.clean (portAddr c (s.W c ra + imm.signExtend 32).toNat) = true) :
    Does (.ldw c rd ra imm) s (fun t => t.m.wordAt (portAddr c b.toNat) = v ∧ t.m.cores[c].sb = [] ∧
      t.m.cores[c].w = putW s.m.cores[c].w rd (s.m.wordAt (portAddr c (s.W c ra + imm.signExtend 32).toNat)) ∧
      t.m.cores[c].pc = s.m.cores[c].pc + 4 ∧ OtherCores c s t ∧ SameRegs (fun _ => False) s t ∧ SameStores s t) := by
  obtain ⟨m, hm⟩ : ∃ m, m = ((s.m.takeTurn c).afterStore c b v).takeTurn c := ⟨_, rfl⟩
  have hrun : (s.m.takeTurn c).canRun c = true := by
    obtain ⟨n, w, x, hturn⟩ := s.m.takeTurn_changes c
    rw [hturn]
    exact ((s.m.fetches_iff c).1 h).1
  have hclean' : m.clean (portAddr c (s.W c ra + imm.signExtend 32).toNat) = true := by
    rw [hm, Mach.takeTurn_clean]
    exact Mach.afterStore_clean _ _ _ _ (by rw [Mach.takeTurn_clean, hclean])
  have hbelow : portAddr c (s.W c ra + imm.signExtend 32).toNat + 3 < portAddr c b.toNat := by
    rw [portAddr_mailbox c hlo hhi]
    exact (portAddr_own_lt c hown).trans_le (Nat.le_add_right _ _)
  have hcore : m.core c = { s.m.core c with sb := [], lateAt := none } := by
    rw [hm, Mach.takeTurn_core, Mach.afterStore_core, Mach.takeTurn_core]
  have hload : extU 4 (m.load (portAddr c (s.W c ra + imm.signExtend 32).toNat) 4) =
      s.m.wordAt (portAddr c (s.W c ra + imm.signExtend 32).toNat) := by
    rw [hm, extU_four, Mach.ofNat_load_four, Mach.takeTurn_wordAt, Mach.wordAt_afterStore_below _ _ _ _ hbelow, Mach.takeTurn_wordAt]
  have hexec : exec (.ldw c rd ra imm) s = .next { s with m := m.setCore c { m.core c with
      w := putW (m.core c).w rd (s.m.wordAt (portAddr c (s.W c ra + imm.signExtend 32).toNat)), pc := (m.core c).pc + 4 } } := by
    change s.runF (fun f m => m.loadOp f c rd ra imm 4 (extU 4)) = _
    simp only [State.runF_eq, Mach.loadOp, Mach.issue_of_fetches _ _ _ h, State.takeTurn_ea, Mach.checked_own _ _ _ hown halign,
      Mach.drained_mailbox _ _ _ _ hrun ((s.m.takeTurn_sb c).trans hsb) hlo hhi]
    rw [← hm]
    obtain hregion | hregion := region_own hown
    all_goals simp only [hregion, Mach.readMem_of_clean _ _ _ _ _ hclean', Mach.next_setW, hload]
  have hcores : ∀ d, d ≠ c → m.core d = s.m.core d := fun d hd => by
    obtain ⟨n, w, x, p, q, r, hstore⟩ := (s.m.takeTurn c).afterStore_changes c b v
    rw [hm, Mach.takeTurn_core_ne _ hd, hstore]
    exact ((s.m.takeTurn c).core_setCore_ne _ hd).trans (s.m.takeTurn_core_ne hd)
  have hregs : ∀ a, m.reg a = s.m.reg a := fun a => by
    obtain ⟨n, w, x, p, q, r, hstore⟩ := (s.m.takeTurn c).afterStore_changes c b v
    rw [hm, Mach.takeTurn_reg, hstore]
    exact s.m.takeTurn_reg c a
  have hself := m.core_setCore_self c { m.core c with
    w := putW (m.core c).w rd (s.m.wordAt (portAddr c (s.W c ra + imm.signExtend 32).toNat)), pc := (m.core c).pc + 4 }
  refine ⟨_, hexec, ?_, (congrArg CoreSt.sb hself).trans ?_, (congrArg CoreSt.w hself).trans ?_, (congrArg CoreSt.pc hself).trans ?_,
    fun d hd => ?_, fun a _ => hregs a, rfl, rfl, rfl⟩
  · change m.wordAt _ = v
    rw [hm, Mach.takeTurn_wordAt, Mach.wordAt_afterStore]
  · rw [hcore]
  · rw [hcore]
    rfl
  · rw [hcore]
    rfl
  · exact (m.core_setCore_ne _ hd).trans (hcores d hd)

/-- Settles O14: a load reads the bytes at its address once no store of the core is waiting. -/
theorem ownLoads : Obligations.OwnLoads := by
  intro c rd ra imm s h u ea a word hown hclean
  refine ⟨fun hempty => ?_, fun b v hsb hlo hhi _ halign => does_ldw_behind h hsb hlo hhi hown halign hclean⟩
  have hload := fun n ext v => s.run_load c rd ra imm (n := n) ext (v := v) h hempty hown hclean
  refine ⟨hload 1 (extS 1) _ (Nat.mod_one _) ?_, hload 1 (extU 1) _ (Nat.mod_one _) ?_,
    fun halign => ⟨hload 2 (extS 2) _ halign ?_, hload 2 (extU 2) _ halign ?_⟩, fun halign => hload 4 (extU 4) _ halign ?_⟩
  · exact extS_of_toNat (n := 1) Nat.one_pos _ (s.m.load_one a)
  · exact extU_of_toNat (n := 1) _ (s.m.load_one a)
  · exact extS_of_toNat (n := 2) Nat.two_pos _ (s.m.load_two a)
  · exact extU_of_toNat (n := 2) _ (s.m.load_two a)
  · exact (extU_four _).trans (s.m.ofNat_load_four a)

/-! ## Stores -/

theorem State.run_store (s : State) (c : Fin 8) (rs ra : Rn) (imm : BitVec 18) {n : Nat} (h : s.m.fetches c = true)
    (hown : ownAddr (s.W c ra + imm.signExtend 32).toNat) (halign : (s.W c ra + imm.signExtend 32).toNat % n = 0) :
    s.runF (fun f m => m.storeOp f c rs ra imm n) =
      .next { s with m := (s.m.takeTurn c).writeMem c (s.W c ra + imm.signExtend 32).toNat n (s.W c rs) } := by
  simp only [State.runF_eq, Mach.storeOp, Mach.issue_of_fetches _ _ _ h, State.takeTurn_ea, State.takeTurn_w,
    Mach.checked_own _ _ _ hown halign]
  obtain hregion | hregion := region_own hown
  all_goals simp only [hregion]

/-- A narrow store to a word free of errors puts its bytes (R263). -/
theorem Mach.writeMem_narrow (m : Mach) (c : Fin 8) {ea n : Nat} (v : Word) (hn : n ≠ 4) (hclean : m.clean (portAddr c ea) = true) :
    m.writeMem c ea n v = (m.storeN (portAddr c ea) n v.toNat).next c := by
  obtain ⟨hbad, -⟩ := (m.clean_iff _).1 hclean
  rw [Mach.writeMem, if_neg hn, hbad, Mach.touch_of_clean _ _ hclean]
  rfl

/-- What a store of `n` bytes of `v` at `a` leaves: the bytes, the PC of the next word, and everything else as it was. -/
def State.Stored (s : State) (c : Fin 8) (a : Nat) (v : Word) (n : Nat) (t : State) : Prop :=
  (∀ i, i < n → t.m.byte (a + i) = v.extractLsb' (8 * i) 8) ∧ (∀ b, b < a ∨ a + n ≤ b → t.m.byte b = s.m.byte b) ∧
    t = { (s.turn c).goto c (s.m.cores[c].pc + 4) with
          m := { ((s.turn c).goto c (s.m.cores[c].pc + 4)).m with mem := t.m.mem, eccBad := t.m.eccBad, eccOne := t.m.eccOne } }

theorem State.stored_of_bytes {s : State} {c : Fin 8} {a : Nat} {v : Word} {n : Nat} {m : Mach}
    (hchanges : ∃ x y z, m = { s.m.takeTurn c with mem := x, eccBad := y, eccOne := z })
    (hin : ∀ i, i < n → m.byte (a + i) = BitVec.ofNat 8 (v.toNat / 256 ^ i))
    (hout : ∀ b, b < a ∨ a + n ≤ b → m.byte b = (s.m.takeTurn c).byte b) : s.Stored c a v n { s with m := m.next c } := by
  refine ⟨fun i hi => (hin i hi).trans (extractLsb'_byte v i).symm, fun b hb => (hout b hb).trans (s.m.takeTurn_byte c b), ?_⟩
  obtain ⟨x, y, z, rfl⟩ := hchanges
  rw [← State.goto_next]
  rfl

/-- A store of one or two bytes to a word free of errors. -/
theorem stored_narrow {s : State} {c : Fin 8} {ea n : Nat} {v : Word} (hn : n ≠ 4) (hclean : s.m.clean (portAddr c ea) = true) :
    s.Stored c (portAddr c ea) v n { s with m := (s.m.takeTurn c).writeMem c ea n v } := by
  rw [Mach.writeMem_narrow _ _ _ hn (by rw [Mach.takeTurn_clean, hclean])]
  obtain ⟨x, hx⟩ := (s.m.takeTurn c).storeN_changes (portAddr c ea) n v.toNat
  exact State.stored_of_bytes ⟨x, _, _, hx⟩ (fun i hi => Mach.byte_storeN_mem _ _ _ _ hi) (fun b hb => Mach.byte_storeN _ _ _ _ _ hb)

/-- A word store, whatever errors its word held. -/
theorem stored_word (s : State) (c : Fin 8) (ea : Nat) (v : Word) :
    s.Stored c (portAddr c ea) v 4 { s with m := (s.m.takeTurn c).writeMem c ea 4 v } :=
  State.stored_of_bytes (Mach.storeWord_changes _ _ _) (fun _ hi => Mach.byte_storeN_mem _ _ _ _ hi) (fun _ hb => Mach.byte_storeWord _ _ _ _ hb)

/-! ## Stores that enter the buffer -/

theorem region_device {ea : Nat} (hlo : 0x40000000 ≤ ea) (hhi : ea < 0x48000000) : region ea = .device := by
  rw [region, if_neg (by omega), if_neg (by simp; omega), if_neg (by simp; omega), if_pos (by simp [hlo, hhi])]

theorem accessCause_mailbox {ea : Nat} (halign : ea % 4 = 0) (hregion : region ea = .mailbox) : accessCause ea 4 = 0 := by
  simp [accessCause, halign, hregion]

theorem accessCause_device {ea : Nat} (halign : ea % 4 = 0) (hregion : region ea = .device) (hmapped : mapped (ea - 0x40000000) = true) :
    accessCause ea 4 = 0 := by
  simp [accessCause, halign, hregion, hmapped]

/-- A word store to the mailbox or to a mapped register joins a buffer that has room (R223). -/
theorem State.run_store_buffered (s : State) (c : Fin 8) (rs ra : Rn) (imm : BitVec 18) (h : s.m.fetches c = true)
    (hroom : s.m.cores[c].sb.length < 4) (hcause : accessCause (s.W c ra + imm.signExtend 32).toNat 4 = 0)
    (hregion : region (s.W c ra + imm.signExtend 32).toNat = .mailbox ∨ region (s.W c ra + imm.signExtend 32).toNat = .device) :
    s.runF (fun f m => m.storeOp f c rs ra imm 4) = .next ((s.turn c).core c { (s.turn c).m.cores[c] with
      sb := s.m.cores[c].sb ++ [.store (s.W c ra + imm.signExtend 32) (s.W c rs)], pc := s.m.cores[c].pc + 4 }) := by
  rw [← s.enqueue_of_room c s.fuses _ hroom]
  simp only [State.runF_eq, Mach.storeOp, Mach.issue_of_fetches _ _ _ h, State.takeTurn_ea, State.takeTurn_w, Mach.checked, hcause,
    if_true]
  obtain hregion | hregion := hregion <;> simp only [hregion]

/-- Settles O15: a store of an own memory writes at once; a word store to the mailbox or a register enters the buffer. -/
theorem stores : Obligations.Stores := by
  refine ⟨fun c rs ra imm s h => ?_, fun c rs ra imm s h => ?_⟩
  · intro u ea a v after hown
    refine ⟨fun hclean => ⟨⟨_, s.run_store c rs ra imm h hown (Nat.mod_one _), ?_⟩,
      fun halign => ⟨_, s.run_store c rs ra imm h hown halign, ?_⟩⟩, fun halign => ⟨_, s.run_store c rs ra imm h hown halign, ?_, ?_⟩⟩
    · exact stored_narrow (by decide) hclean
    · exact stored_narrow (by decide) hclean
    · exact stored_word s c ea v
    · exact (s.m.takeTurn c).storeWord_clean a v
  · intro u ea halign hroom hplace
    obtain ⟨hlo, hhi⟩ | ⟨hlo, hhi, hmapped⟩ := hplace
    · have hregion := region_mailbox hlo hhi
      exact s.run_store_buffered c rs ra imm h hroom (accessCause_mailbox halign hregion) (Or.inl hregion)
    · have hregion := region_device hlo hhi
      exact s.run_store_buffered c rs ra imm h hroom (accessCause_device halign hregion hmapped) (Or.inr hregion)

end Sys2Proof.Machine
end

section
/-!
Settles WAIT: the wait itself, the line that is taken at once, and the deadline (R212, R215, R280-R286).
-/

namespace Sys2Proof.Machine

/-! ## Bits -/

/-- Clearing the bits of a mask by a subtraction. -/
theorem testBit_sub_and (g m k : Nat) : (g - (g &&& m)).testBit k = (g.testBit k && !m.testBit k) := by
  induction k generalizing g m with
  | zero =>
    have hmod : (g &&& m) % 2 = g % 2 &&& m % 2 := Nat.and_mod_two_pow (n := 1)
    have hle : g &&& m ≤ g := Nat.and_le_left
    generalize g &&& m = x at hmod hle
    rw [Nat.testBit_zero, Nat.testBit_zero, Nat.testBit_zero]
    obtain hg | hg := Nat.mod_two_eq_zero_or_one g
    · have hx : (g - x) % 2 = 0 := by
        rw [hg, Nat.zero_and] at hmod
        omega
      simp [hg, hx]
    · have hx : (g - x) % 2 = 1 - m % 2 := by
        obtain hm | hm := Nat.mod_two_eq_zero_or_one m <;> rw [hg, hm] at hmod <;> simp at hmod <;> omega
      obtain hm | hm := Nat.mod_two_eq_zero_or_one m <;> simp [hg, hm, hx]
  | succ k ih =>
    have hhalf : (g &&& m) / 2 = g / 2 &&& m / 2 := Nat.and_div_two
    have hmod : (g &&& m) % 2 ≤ g % 2 := by
      rw [show (g &&& m) % 2 = g % 2 &&& m % 2 from Nat.and_mod_two_pow (n := 1)]
      exact Nat.and_le_left
    have hle : g &&& m ≤ g := Nat.and_le_left
    have hsub : (g - (g &&& m)) / 2 = g / 2 - (g &&& m) / 2 := by
      generalize g &&& m = x at hmod hle
      omega
    rw [Nat.testBit_add_one, Nat.testBit_add_one, Nat.testBit_add_one, ← ih, ← hhalf, hsub]

theorem lowestBit_of_zero (i n : Nat) : lowestBit 0 i n = none := by
  induction n generalizing i with
  | zero => rfl
  | succ n ih => simp [lowestBit, ih]

/-- The lowest bit that is set (R215). -/
theorem lowestBit_eq_some {v i n e : Nat} (hle : i ≤ e) (hlt : e < i + n) (hset : v.testBit e = true)
    (hlow : ∀ k, i ≤ k → k < e → v.testBit k = false) : lowestBit v i n = some e := by
  induction n generalizing i with
  | zero => omega
  | succ n ih =>
    obtain rfl | hne := eq_or_ne i e
    · rw [lowestBit, if_pos hset]
    · rw [lowestBit, if_neg (by simp [hlow i le_rfl (by omega)])]
      exact ih (by omega) (by omega) (fun k hk => hlow k (by omega))

/-- A field that fills its register reads back what a clear leaves. -/
theorem Mach.get_clear_self (m : Mach) (f : Fld) (mask : Nat) (hlo : f.lo ≤ f.hi) (hhi : f.hi < 32) :
    (m.clear f mask).get f = m.get f - (m.get f &&& mask) := by
  have hlt := setBits_lt 32 (m.reg f.addr).toNat f.hi f.lo (m.get f - (m.get f &&& mask)) (m.reg f.addr).isLt hlo hhi
  have hbits : m.get f < 2 ^ (f.hi + 1 - f.lo) := Nat.mod_lt _ (Nat.two_pow_pos _)
  rw [Mach.get, Mach.clear, Mach.reg_setReg_self, BitVec.toNat_ofNat, Nat.mod_eq_of_lt hlt, bits_setBits _ _ _ _ hlo,
    Nat.mod_eq_of_lt (by omega)]

/-! ## WAIT as it issues -/

/-- Core `c` stands at its WAIT, which remembers its register. -/
def Mach.atWait (m : Mach) (c : Fin 8) (rd : Rn) : Mach :=
  (m.takeTurn c).setCore c { (m.takeTurn c).core c with waitRd := rd.toNat }

theorem Mach.atWait_reg (m : Mach) (c : Fin 8) (rd : Rn) (a : Nat) : (m.atWait c rd).reg a = m.reg a := m.takeTurn_reg c a

theorem Mach.atWait_get (m : Mach) (c : Fin 8) (rd : Rn) (f : Fld) : (m.atWait c rd).get f = m.get f := by
  rw [Mach.get, Mach.atWait_reg]
  rfl

theorem Mach.atWait_core (m : Mach) (c : Fin 8) (rd : Rn) :
    (m.atWait c rd).core c = { m.core c with lateAt := none, waitRd := rd.toNat } := by
  rw [Mach.atWait, Mach.core_setCore_self, Mach.takeTurn_core]

theorem Mach.atWait_coresOnly (m : Mach) (c : Fin 8) (rd : Rn) : (m.takeTurn c).CoresOnly (m.atWait c rd) :=
  (Mach.CoresOnly.refl _).setCore c _

theorem Mach.atWait_w (s : State) (c : Fin 8) (rd ra : Rn) : (s.m.atWait c rd).w c ra = s.W c ra := by
  rw [← State.takeTurn_w, Mach.w, Mach.rW, Mach.atWait_core, Mach.w, Mach.rW, Mach.takeTurn_core]
  rfl

/-- The lines of core `c` that are both enabled and pending (R215). -/
def Mach.readyBits (m : Mach) (c : Fin 8) : Nat := m.get (F.C_EVT_EN_EN c) &&& m.get (F.C_EVT_PEND_PEND c)

theorem Mach.atWait_readyLine (m : Mach) (c : Fin 8) (rd : Rn) : (m.atWait c rd).readyLine c = lowestBit (m.readyBits c) 0 32 := by
  rw [Mach.readyLine, Mach.atWait_get, Mach.atWait_get]
  rfl

section
variable {s : State} {c : Fin 8} {rd : Rn}

theorem exec_wait_forever (h : s.m.fetches c = true) (hready : s.m.readyBits c = 0) : exec (.wait c rd none) s = .next { s with
    m := ((s.m.atWait c rd).put (F.C_STAT_STATE c) 2).setCore c { (s.m.atWait c rd).core c with waitUntil := none } } := by
  have hline : (s.m.atWait c rd).readyLine c = none := by rw [Mach.atWait_readyLine, hready, lowestBit_of_zero]
  rw [Mach.atWait] at hline
  change s.run (fun m => m.waitOp c rd none) = _
  simp only [State.run_eq, Mach.waitOp, Mach.issue_of_fetches _ _ _ h, hline, Mach.atWait]

theorem exec_wait_deadline {ra : Rn} (h : s.m.fetches c = true) (hready : s.m.readyBits c = 0) (hn : (s.W c ra).toNat ≠ 0) :
    exec (.wait c rd (some ra)) s = .next { s with
      m := ((s.m.atWait c rd).put (F.C_STAT_STATE c) 2).setCore c
        { (s.m.atWait c rd).core c with waitUntil := some (((s.m.takeTurn c).now / 4 + (s.W c ra).toNat) * 4) } } := by
  have hline : (s.m.atWait c rd).readyLine c = none := by rw [Mach.atWait_readyLine, hready, lowestBit_of_zero]
  have hw := Mach.atWait_w s c rd ra
  rw [Mach.atWait] at hline hw
  change s.run (fun m => m.waitOp c rd (some ra)) = _
  simp only [State.run_eq, Mach.waitOp, Mach.issue_of_fetches _ _ _ h, hline, hw, hn, if_false, Mach.atWait, Mach.setCore_now]

theorem exec_wait_at_once {ra : Rn} (h : s.m.fetches c = true) (hready : s.m.readyBits c = 0) (hn : (s.W c ra).toNat = 0) :
    exec (.wait c rd (some ra)) s = .next { s with m := ((s.m.atWait c rd).setW c rd 32).next c } := by
  have hline : (s.m.atWait c rd).readyLine c = none := by rw [Mach.atWait_readyLine, hready, lowestBit_of_zero]
  have hw := Mach.atWait_w s c rd ra
  rw [Mach.atWait] at hline hw
  change s.run (fun m => m.waitOp c rd (some ra)) = _
  simp only [State.run_eq, Mach.waitOp, Mach.issue_of_fetches _ _ _ h, hline, hw, hn, if_true, Mach.atWait]

theorem exec_wait_ready {e : Nat} (dl : Option Rn) (h : s.m.fetches c = true) (hready : lowestBit (s.m.readyBits c) 0 32 = some e) :
    exec (.wait c rd dl) s = .next { s with m := ((s.m.atWait c rd).clearPend c (2 ^ e)).waitTake c e } := by
  have hline : (s.m.atWait c rd).readyLine c = some e := by rw [Mach.atWait_readyLine, hready]
  rw [Mach.atWait] at hline
  change s.run (fun m => m.waitOp c rd dl) = _
  simp only [State.run_eq, Mach.waitOp, Mach.issue_of_fetches _ _ _ h, hline, Mach.atWait]

end

/-! ## A pair that waits -/

theorem Mach.now_put (m : Mach) (f : Fld) (v : Nat) : (m.put f v).now = m.now := by
  rw [Mach.now, Mach.put_wraps, Mach.put_sysTime]
  rfl

theorem Mach.get_put_state (m : Mach) (c : Fin 8) (v : Nat) : (m.put (F.C_STAT_STATE c) v).get (F.C_STAT_STATE c) = v % 4 :=
  m.get_put_self _ _ (by decide : 0 ≤ 1) (by decide : 1 < 32)

/-- What a WAIT that waits leaves of the registers. -/
theorem Mach.reg_put_atWait_ne (m : Mach) (c : Fin 8) (rd : Rn) (v : Nat) {a : Nat} (ha : a ≠ F.C_STAT_reg c) :
    ((m.atWait c rd).put (F.C_STAT_STATE c) v).reg a = m.reg a := by
  rw [Mach.reg_put_ne _ _ _ ha, Mach.atWait_reg]

/-! ## A line that is taken -/

theorem finOfNat_toNat (rd : Rn) : Fin.ofNat 16 rd.toNat = rnum rd := Fin.ext (Nat.mod_eq_of_lt rd.isLt)

/-- A WAIT takes a line that does not enter C7's handler (R215, R285). -/
theorem Mach.waitTake_eq (m : Mach) {c : Fin 8} {e : Nat} (hne : c ≠ 7 ∨ e ≠ 0) : m.waitTake c e =
    (m.put (F.C_STAT_STATE c) 1).setCore c { (m.core c).writeW (Fin.ofNat 16 (m.core c).waitRd) (BitVec.ofNat 32 e) with
      pc := (m.core c).pc + 4, waitUntil := none, lateAt := none } := by
  have hno : (decide (c = 7) && decide (e = 0)) = false := by
    obtain h | h := hne <;> simp [h]
  simp [Mach.waitTake, hno]

theorem CoreSt.inTick_fields (x : CoreSt) (k : Nat) :
    (x.inTick k).w = x.w ∧ (x.inTick k).pc = x.pc ∧ (x.inTick k).waitRd = x.waitRd := by
  unfold CoreSt.inTick
  split <;> exact ⟨rfl, rfl, rfl⟩

/-- Clearing pending bits leaves what the core executes with alone. -/
theorem Mach.clearPend_fields (m : Mach) (c : Fin 8) (mask : Nat) : ((m.clearPend c mask).core c).w = (m.core c).w ∧
    ((m.clearPend c mask).core c).pc = (m.core c).pc ∧ ((m.clearPend c mask).core c).waitRd = (m.core c).waitRd := by
  unfold Mach.clearPend
  extract_lets x stay n gone
  split
  · exact ⟨rfl, rfl, rfl⟩
  · rw [Mach.core_setCore_self]
    exact (m.core c).inTick_fields m.tickNo

/-- In a tick in which no line of the core has pulsed, the pending bits of the mask clear and nothing else changes (R212). -/
theorem Mach.clearPend_of_quiet (m : Mach) (c : Fin 8) {mask : Nat} (hmask : mask < 2 ^ 32) (h : (m.core c).evAt ≠ m.tickNo) :
    m.clearPend c mask = m.clear (F.C_EVT_PEND_PEND c) mask := by
  have hin : (m.core c).inTick m.tickNo = { m.core c with evAt := m.tickNo, evSet := 0, evOvf := 0 } := if_neg h
  simp [Mach.clearPend, hin, Nat.and_two_pow_sub_one_of_lt_two_pow hmask]

/-- A line that has pulsed in this tick stays pending (R212). -/
theorem Mach.get_clearPend_of_pulsed (m : Mach) (c : Fin 8) {e : Nat} (hat : (m.core c).evAt = m.tickNo)
    (hset : (m.core c).evSet.getLsbD e = true) :
    (m.clearPend c (2 ^ e)).get (F.C_EVT_PEND_PEND c) = m.get (F.C_EVT_PEND_PEND c) := by
  have hin : (m.core c).inTick m.tickNo = m.core c := if_pos hat
  have hmask : 2 ^ e &&& (2 ^ 32 - 1 - (m.core c).evSet.toNat) = 0 := by
    refine Nat.eq_of_testBit_eq fun k => ?_
    rw [Nat.sub_sub, Nat.add_comm 1, Nat.testBit_and, Nat.testBit_two_pow_sub_succ (m.core c).evSet.isLt, Nat.testBit_two_pow]
    obtain rfl | hk := eq_or_ne e k
    · rw [← BitVec.testBit_toNat] at hset
      simp [hset]
    · simp [hk]
  have hclear : (m.clear (F.C_EVT_PEND_PEND c) 0).get (F.C_EVT_PEND_PEND c) = m.get (F.C_EVT_PEND_PEND c) := by
    rw [Mach.get_clear_self _ _ _ (by decide : 0 ≤ 31) (by decide : 31 < 32), Nat.and_zero, Nat.sub_zero]
  have hne : (F.C_EVT_PEND_PEND c).addr ≠ (F.C_EVT_OVF_OVF c).addr := by
    simp only [F.C_EVT_PEND_PEND, F.C_EVT_PEND_reg, F.C_EVT_OVF_OVF, F.C_EVT_OVF_reg]
    omega
  unfold Mach.clearPend
  simp only [hin, hmask]
  split
  · exact hclear
  · refine Eq.trans ?_ hclear
    exact congrArg (fun v : Word => bits v.toNat _ _) (Mach.reg_clear_ne _ _ _ hne)

section
variable {s : State} {c : Fin 8} {rd : Rn} {e : Nat}

/-- The core after it has taken line `e` at its WAIT: W[rd] holds the line, and the PC goes on by 4 (R285). -/
theorem waitTake_atWait_core (hne : c ≠ 7 ∨ e ≠ 0) : (((s.m.atWait c rd).clearPend c (2 ^ e)).waitTake c e).core c =
    { ((s.m.atWait c rd).clearPend c (2 ^ e)).core c with
      w := putW s.m.cores[c].w rd (BitVec.ofNat 32 e), pc := s.m.cores[c].pc + 4, waitUntil := none, lateAt := none } := by
  obtain ⟨hw, hpc, hrd⟩ := (s.m.atWait c rd).clearPend_fields c (2 ^ e)
  rw [Mach.atWait_core] at hw hpc hrd
  rw [Mach.waitTake_eq _ hne, Mach.core_setCore_self, hrd, finOfNat_toNat, CoreSt.writeW_rnum, hw, hpc]
  rfl

end

/-- The pair's deadline comes: it runs again behind its WAIT, with 32 in the WAIT's register (R282, R286). -/
theorem exec_waitDeadline {s : State} {c : Fin 8} {d : Nat} (hlive : s.m.live = true) (hstate : s.m.get (F.C_STAT_STATE c) = 2)
    (hd : s.m.cores[c].waitUntil = some d) : exec (.waitDeadline c) s = .next { s with
      m := ((s.m.runTo d).put (F.C_STAT_STATE c) 1).setCore c { s.m.core c with
        w := putW (s.m.core c).w (BitVec.ofNat 4 (s.m.core c).waitRd) 32, pc := (s.m.core c).pc + 4, waitUntil := none,
        lateAt := some (ceilDiv d 4 + 1) } } := by
  have hcore : ((s.m.runTo d).put (F.C_STAT_STATE c) 1).core c = s.m.core c := by
    obtain ⟨n, w, hrun⟩ := s.m.runTo_changes d
    rw [Mach.core, hrun]
    simp [Mach.core]
  have hrd : Fin.ofNat 16 (s.m.core c).waitRd = rnum (BitVec.ofNat 4 (s.m.core c).waitRd) := rfl
  have hd' : (s.m.core c).waitUntil = some d := hd
  change s.run (fun m => m.waitExpire c) = _
  simp only [State.run_eq, Mach.waitExpire, hlive, Mach.pairState, hstate, hd', hcore, hrd, CoreSt.writeW_rnum]
  rfl

/-- A WAIT with no line pending that is enabled (R280-R282). -/
theorem does_wait_none {s : State} {c : Fin 8} {rd ra : Rn} (h : s.m.fetches c = true) (hready : s.m.readyBits c = 0) :
    Does (.wait c rd none) s (fun t => t.m.get (F.C_STAT_STATE c) = 2 ∧ t.m.cores[c].waitUntil = none ∧
      t.m.cores[c].w = s.m.cores[c].w ∧ SameRegs (fun a => a = F.C_STAT_reg c) s t ∧ OnlyCores s t) ∧
    (0 < (s.W c ra).toNat → Does (.wait c rd (some ra)) s (fun t => t.m.get (F.C_STAT_STATE c) = 2 ∧
      t.m.cores[c].waitUntil = some (((s.turn c).m.now / 4 + (s.W c ra).toNat) * 4) ∧ OnlyCores s t)) ∧
    (s.W c ra = 0 → Does (.wait c rd (some ra)) s (fun t => t.m.cores[c].w = putW s.m.cores[c].w rd 32 ∧
      t.m.cores[c].pc = s.m.cores[c].pc + 4 ∧ SameRegs (fun _ => False) s t ∧ OnlyCores s t)) := by
  have hcore := s.m.atWait_core c rd
  have honly := s.m.atWait_coresOnly c rd
  refine ⟨⟨_, exec_wait_forever h hready, ?_, ?_, ?_, fun a ha => ?_,
    ((honly.put _ _ (state_addr c)).setCore c _).onlyCores⟩, fun hn => ⟨_, exec_wait_deadline h hready hn.ne', ?_, ?_,
    ((honly.put _ _ (state_addr c)).setCore c _).onlyCores⟩, fun hn => ?_⟩
  · rw [Mach.get_setCore, Mach.get_put_state]
  · exact congrArg CoreSt.waitUntil (Mach.core_setCore_self _ c _)
  · have hw : ((s.m.atWait c rd).core c).w = s.m.cores[c].w := by
      rw [hcore]
      rfl
    exact (congrArg CoreSt.w (Mach.core_setCore_self _ c _)).trans hw
  · rw [Mach.reg_setCore, s.m.reg_put_atWait_ne c rd 2 ha]
  · rw [Mach.get_setCore, Mach.get_put_state]
  · exact congrArg CoreSt.waitUntil (Mach.core_setCore_self _ c _)
  · have hexec := exec_wait_at_once (rd := rd) h hready (congrArg BitVec.toNat hn)
    rw [Mach.next_setW, hcore] at hexec
    exact ⟨_, hexec, congrArg CoreSt.w (Mach.core_setCore_self _ c _), congrArg CoreSt.pc (Mach.core_setCore_self _ c _),
      fun a _ => s.m.atWait_reg c rd a, (honly.setCore c _).onlyCores⟩

/-- A WAIT with an enabled line pending (R212, R215, R285). -/
theorem does_wait_ready {s : State} {c : Fin 8} {rd : Rn} {e : Nat} {d : Option Rn} (h : s.m.fetches c = true) (he : e < 32)
    (hready : lowestBit (s.m.readyBits c) 0 32 = some e) (hne : c ≠ 7 ∨ e ≠ 0) :
    ((s.turn c).m.cores[c].evAt = (s.turn c).m.tickNo → (s.turn c).m.cores[c].evSet.getLsbD e = true → Does (.wait c rd d) s (fun t =>
      t.m.cores[c].w = putW s.m.cores[c].w rd (BitVec.ofNat 32 e) ∧ t.m.cores[c].pc = s.m.cores[c].pc + 4 ∧
      t.m.get (F.C_EVT_PEND_PEND c) = s.m.get (F.C_EVT_PEND_PEND c))) ∧
    ((s.turn c).m.cores[c].evAt ≠ (s.turn c).m.tickNo → Does (.wait c rd d) s (fun t =>
      t.m.cores[c].w = putW s.m.cores[c].w rd (BitVec.ofNat 32 e) ∧ t.m.cores[c].pc = s.m.cores[c].pc + 4 ∧
      (∀ k, (t.m.get (F.C_EVT_PEND_PEND c)).testBit k = (decide (k ≠ e) && (s.m.get (F.C_EVT_PEND_PEND c)).testBit k)) ∧
      SameRegs (fun a => a = F.C_EVT_PEND_reg c ∨ a = F.C_STAT_reg c) s t ∧ OnlyCores s t)) := by
  have hexec := exec_wait_ready (rd := rd) d h hready
  have hcore := waitTake_atWait_core (s := s) (rd := rd) hne
  have htick : (s.m.atWait c rd).tickNo = (s.m.takeTurn c).tickNo := rfl
  have hev : (s.m.atWait c rd).core c = { (s.m.takeTurn c).core c with waitRd := rd.toNat } := Mach.core_setCore_self _ c _
  have hpend : F.C_EVT_PEND_reg c ≠ F.C_STAT_reg c := by
    simp only [F.C_EVT_PEND_reg, F.C_STAT_reg]
    omega
  have hget : ∀ m : Mach, (m.waitTake c e).get (F.C_EVT_PEND_PEND c) = m.get (F.C_EVT_PEND_PEND c) := fun m => by
    rw [Mach.waitTake_eq _ hne]
    exact m.get_put_ne _ _ _ hpend
  refine ⟨fun hat hset => ⟨_, hexec, congrArg CoreSt.w hcore, congrArg CoreSt.pc hcore, ?_⟩,
    fun hat => ⟨_, hexec, congrArg CoreSt.w hcore, congrArg CoreSt.pc hcore, fun k => ?_, fun a ha => ?_, ?_⟩⟩
  · exact (hget _).trans ((Mach.get_clearPend_of_pulsed _ c (by rw [hev]; exact hat) (by rw [hev]; exact hset)).trans (s.m.atWait_get c rd _))
  all_goals rw [Mach.clearPend_of_quiet _ c (Nat.pow_lt_pow_right (by decide) he) (by rw [hev]; exact hat)]
  · rw [hget, Mach.get_clear_self _ _ _ (by decide : 0 ≤ 31) (by decide : 31 < 32), testBit_sub_and, Mach.atWait_get,
      Nat.testBit_two_pow, Bool.and_comm]
    simp [eq_comm]
  · rw [Mach.waitTake_eq _ hne]
    rw [Mach.reg_setCore, Mach.reg_put_ne _ (F.C_STAT_STATE c) _ (fun e => ha (Or.inr e)),
      Mach.reg_clear_ne _ (F.C_EVT_PEND_PEND c) _ (fun e => ha (Or.inl e)), Mach.atWait_reg]
  · exact (((s.m.atWait_coresOnly c rd).clear _ _ (pend_addr c)).waitTake c e).onlyCores

/-- Settles O22: a WAIT finds the lowest line that is enabled and pending, or waits; the deadline ends a wait with 32. -/
theorem waiting : Obligations.Waiting := by
  refine ⟨fun c rd ra s h => ⟨fun hready => does_wait_none h hready, fun e he hlow hne d => ?_⟩, fun c s d hlive hstate hd _ => ?_⟩
  · exact does_wait_ready h e.isLt (lowestBit_eq_some (Nat.zero_le _) (by omega) he (fun k _ hk => hlow k hk))
      (hne.imp_right fun hne => fun hzero => hne (Fin.ext hzero))
  · have hself := Mach.core_setCore_self ((s.m.runTo d).put (F.C_STAT_STATE c) 1) c { s.m.core c with
      w := putW (s.m.core c).w (BitVec.ofNat 4 (s.m.core c).waitRd) 32, pc := (s.m.core c).pc + 4, waitUntil := none,
      lateAt := some (ceilDiv d 4 + 1) }
    have hrun := (s.m.live_iff.1 hlive).1
    obtain ⟨n, w, hchanges⟩ := s.m.runTo_changes d
    refine ⟨_, exec_waitDeadline hlive hstate hd, ?_, congrArg CoreSt.pc hself, congrArg CoreSt.w hself,
      congrArg CoreSt.waitUntil hself, fun hlt => ?_, fun a ha => ?_, fun k hk => ?_, fun a => ?_⟩
    · rw [Mach.get_setCore, Mach.get_put_state]
    · rw [Mach.setCore_now, Mach.now_put, s.m.now_runTo hrun hlt]
    · rw [Mach.reg_setCore, Mach.reg_put_ne _ (F.C_STAT_STATE c) _ ha, Mach.runTo_reg]
    · refine (Mach.core_setCore_ne _ _ hk).trans ?_
      rw [Mach.core, Mach.put_cores, hchanges]
    · simp [Mach.byte, hchanges]

end Sys2Proof.Machine
end

section
/-!
Settles EMIT: its statuses, and the entry that it adds to the queue of ST (R305-R311).
-/

namespace Sys2Proof.Machine

/-! ## A pulse and the core that runs -/

theorem Mach.takeTurn_get (m : Mach) (c : Fin 8) (f : Fld) : (m.takeTurn c).get f = m.get f := by
  rw [Mach.get, Mach.takeTurn_reg]
  rfl

/-- A pair that runs and whose deadline has not just come takes no line (R216, R283). -/
theorem Mach.wake_of_running (m : Mach) (c : Fin 8) (hstate : m.get (F.C_STAT_STATE c) = 1) (hlate : (m.core c).lateAt = none) :
    m.wake c = m := by
  simp [Mach.wake, hstate, hlate]

theorem stat_ne_pend (c : Nat) : F.C_STAT_reg c ≠ F.C_EVT_PEND_reg c := by
  simp only [F.C_STAT_reg, F.C_EVT_PEND_reg]
  omega

theorem stat_ne_ovf (c : Nat) : F.C_STAT_reg c ≠ F.C_EVT_OVF_reg c := by
  simp only [F.C_STAT_reg, F.C_EVT_OVF_reg]
  omega

/-- A pulse of a core that runs changes only what the core notes of its lines. -/
theorem Mach.pulse_core_of_running (m : Mach) (c : Fin 8) (e : Nat) (hstate : m.get (F.C_STAT_STATE c) = 1)
    (hlate : (m.core c).lateAt = none) : ∃ t v o, (m.pulse c e).core c = { m.core c with evAt := t, evSet := v, evOvf := o } := by
  have hin : ∃ t v o, (m.core c).inTick m.tickNo = { m.core c with evAt := t, evSet := v, evOvf := o } := by
    unfold CoreSt.inTick
    split <;> exact ⟨_, _, _, rfl⟩
  unfold Mach.pulse
  extract_lets x bit again ovf n
  split
  · exact ⟨_, _, _, rfl⟩
  · obtain ⟨t, v, o, hx⟩ := hin
    have hx' : x = { m.core c with evAt := t, evSet := v, evOvf := o } := hx
    have hn : n.core c = { x with evSet := x.evSet ||| bit, evOvf := if ovf then x.evOvf ||| bit else x.evOvf } :=
      m.core_setCore_self c _
    have hput : ∀ f : Fld, (n.putBit f e).core c = n.core c := fun f => by simp [Mach.core, Mach.putBit]
    rw [Mach.wake_of_running]
    · rw [hput, hn, hx']
      exact ⟨_, _, _, rfl⟩
    · have hne : (F.C_STAT_STATE c).addr ≠ (if again then F.C_EVT_OVF_OVF c else F.C_EVT_PEND_PEND c).addr := by
        cases again
        · exact stat_ne_pend c
        · exact stat_ne_ovf c
      rw [Mach.get, Mach.reg_putBit_ne _ _ _ hne]
      exact hstate
    · rw [hput, hn, hx']
      exact hlate

/-- What one core does with a line leaves the others alone. -/
theorem Mach.waitTake_core_ne (m : Mach) {c d : Fin 8} (e : Nat) (h : d ≠ c) : (m.waitTake c e).core d = m.core d := by
  unfold Mach.waitTake
  extract_lets x rd next n
  split <;> rw [Mach.core_setCore_ne _ _ h] <;> simp [Mach.core, n]

theorem Mach.wake_core_ne (m : Mach) {c d : Fin 8} (h : d ≠ c) : (m.wake c).core d = m.core d := by
  unfold Mach.wake
  extract_lets x late
  split
  · split
    · rw [Mach.waitWoken, Mach.waitTake_core_ne _ _ h]
      change (if late then _ else m : Mach).core d = m.core d
      split
      · exact m.core_setCore_ne _ h
      · rfl
    · rfl
  · rfl

theorem Mach.pulse_core_ne (m : Mach) {c d : Fin 8} (e : Nat) (h : d ≠ c) : (m.pulse c e).core d = m.core d := by
  unfold Mach.pulse
  extract_lets x bit again ovf n
  split
  · rfl
  · rw [Mach.wake_core_ne _ h]
    have hput : ∀ f : Fld, (n.putBit f e).core d = n.core d := fun f => by simp [Mach.core, Mach.putBit]
    rw [hput]
    exact m.core_setCore_ne _ h

/-- A pulse of any core leaves a core that runs at its instruction. -/
theorem Mach.pulse_core (m : Mach) (c d : Fin 8) (e : Nat) (hstate : m.get (F.C_STAT_STATE c) = 1) (hlate : (m.core c).lateAt = none) :
    ∃ t v o, (m.pulse d e).core c = { m.core c with evAt := t, evSet := v, evOvf := o } := by
  by_cases h : c = d
  · subst h
    exact m.pulse_core_of_running c e hstate hlate
  · exact ⟨_, _, _, m.pulse_core_ne e h⟩

/-! ## What an accepted entry changes -/

/-- After a change in ST its notes of starving follow, with a pulse of C7 at most (R812); the queue stays. -/
theorem Mach.stSync_eq (m : Mach) : ∃ x : StSt, x.queue = m.st.queue ∧
    (m.stSync = { m with st := x } ∨ m.stSync = Mach.pulse { m with st := x } 7 13) := by
  unfold Mach.stSync
  extract_lets s c x pulse y n
  refine ⟨{ y with ctlOk := c }, ?_, ?_⟩
  · simp only [y]
    split <;> rfl
  · cases pulse
    · exact Or.inl rfl
    · exact Or.inr rfl

theorem Mach.stSync_queue (m : Mach) : m.stSync.st.queue = m.st.queue := by
  obtain ⟨x, hx, h | h⟩ := m.stSync_eq
  · rw [h, hx]
  · obtain ⟨r, y, b, hpulse⟩ := ((Mach.CoresOnly.refl { m with st := x }).pulse 7 13).same
    rw [h, hpulse]
    exact hx

theorem Mach.stSync_get (m : Mach) (f : Fld) (hf : f.addr < 0x400000) : m.stSync.get f = m.get f := by
  obtain ⟨x, -, h | h⟩ := m.stSync_eq
  · rw [h]
    rfl
  · rw [h, Mach.pulse_get _ _ _ _ hf]
    rfl

theorem Mach.stSync_byte (m : Mach) (a : Nat) : m.stSync.byte a = m.byte a := by
  obtain ⟨x, -, h | h⟩ := m.stSync_eq
  · rw [h]
    rfl
  · obtain ⟨r, y, b, hpulse⟩ := ((Mach.CoresOnly.refl { m with st := x }).pulse 7 13).same
    rw [h, hpulse]
    rfl

theorem Mach.stSync_core (m : Mach) (c : Fin 8) (hstate : m.get (F.C_STAT_STATE c) = 1) (hlate : (m.core c).lateAt = none) :
    ∃ t v o, m.stSync.core c = { m.core c with evAt := t, evSet := v, evOvf := o } := by
  obtain ⟨x, -, h | h⟩ := m.stSync_eq
  · rw [h]
    exact ⟨_, _, _, rfl⟩
  · rw [h]
    exact Mach.pulse_core _ c 7 13 hstate hlate

/-- The entry that EMIT makes of an image range (R310, R311). -/
def StSt.imageEntry (x : StSt) (stream port len : Nat) (last : Bool) : StEntry :=
  { id := x.nextId, ctl := false, stream := stream, segs := [(port, len)], len := len, last := last, coded := false,
    eseq := x.eseq[Fin.ofNat 16 stream] }

/-- The machine once an image entry has joined the queue and counts (R310, R311). -/
def Mach.emitted (m : Mach) (c : Fin 8) (stream port len : Nat) (last : Bool) : Mach :=
  ((m.accept false stream [(port, len)] len last false).2.countMod (F.ST_EMITS_N c) 1).stSync

section
variable (m : Mach) (c : Fin 8) (stream port len : Nat) (last : Bool)

theorem Mach.accept_eq : ∃ x : StSt, x.queue = m.st.queue ++ [m.st.imageEntry stream port len last] ∧
    (m.accept false stream [(port, len)] len last false).2 = Mach.countMod { m with st := x } (F.ST_ACC_N stream) 1 :=
  ⟨_, rfl, rfl⟩

theorem Mach.emitted_queue : (m.emitted c stream port len last).st.queue = m.st.queue ++ [m.st.imageEntry stream port len last] := by
  obtain ⟨x, hqueue, haccept⟩ := m.accept_eq stream port len last
  rw [Mach.emitted, Mach.stSync_queue, haccept, ← hqueue]
  simp [Mach.countMod]

theorem Mach.emitted_byte (a : Nat) : (m.emitted c stream port len last).byte a = m.byte a := by
  obtain ⟨x, -, haccept⟩ := m.accept_eq stream port len last
  rw [Mach.emitted, Mach.stSync_byte, haccept]
  simp [Mach.countMod, Mach.byte]

theorem Mach.emitted_count : (m.emitted c stream port len last).get (F.ST_EMITS_N c) = (m.get (F.ST_EMITS_N c) + 1) % 2 ^ 32 := by
  have hc := c.isLt
  obtain ⟨x, -, haccept⟩ := m.accept_eq stream port len last
  have hne : (F.ST_EMITS_N c).addr ≠ (F.ST_ACC_N stream).addr := by
    simp only [F.ST_EMITS_N, F.ST_EMITS_reg, F.ST_ACC_N, F.ST_ACC_reg]
    omega
  have hlow : (F.ST_EMITS_N c).addr < 0x400000 := by
    simp only [F.ST_EMITS_N, F.ST_EMITS_reg]
    omega
  rw [Mach.emitted, Mach.stSync_get _ _ hlow, Mach.countMod, Mach.get_put_self _ _ _ (by decide : 0 ≤ 31) (by decide : 31 < 32), haccept,
    Mach.countMod, Mach.get_put_ne _ _ _ _ hne]
  rfl

theorem Mach.emitted_core (hstate : m.get (F.C_STAT_STATE c) = 1) (hlate : (m.core c).lateAt = none) :
    ∃ t v o, (m.emitted c stream port len last).core c = { m.core c with evAt := t, evSet := v, evOvf := o } := by
  have hc := c.isLt
  obtain ⟨x, -, haccept⟩ := m.accept_eq stream port len last
  have hcore : ((m.accept false stream [(port, len)] len last false).2.countMod (F.ST_EMITS_N c) 1).core c = m.core c := by
    rw [haccept]
    simp [Mach.core, Mach.countMod]
  have hstate' : ((m.accept false stream [(port, len)] len last false).2.countMod (F.ST_EMITS_N c) 1).get (F.C_STAT_STATE c) = 1 := by
    rw [haccept, Mach.countMod, Mach.get_put_ne, Mach.countMod, Mach.get_put_ne]
    · exact hstate
    · simp only [F.C_STAT_STATE, F.C_STAT_reg, F.ST_ACC_N, F.ST_ACC_reg]
      omega
    · simp only [F.C_STAT_STATE, F.C_STAT_reg, F.ST_EMITS_N, F.ST_EMITS_reg]
      omega
  obtain ⟨t, v, o, h⟩ := Mach.stSync_core _ c hstate' (by rw [hcore, hlate])
  exact ⟨t, v, o, by rw [Mach.emitted, h, hcore]⟩

end

/-! ## The statuses -/

theorem bits_eq_extract (w : Word) (hi lo : Nat) : bits w.toNat hi lo = (w.extractLsb' lo (hi + 1 - lo)).toNat := by
  rw [bits, BitVec.extractLsb'_toNat]

/-- The reserved bits of a descriptor (R305). -/
theorem reserved_eq_zero_iff (n : Nat) : bits n 30 29 = 0 ↔ n.testBit 29 = false ∧ n.testBit 30 = false := by
  refine ⟨fun h => ?_, fun ⟨h29, h30⟩ => Nat.eq_of_testBit_eq fun i => ?_⟩
  · have hbit : ∀ i, i < 2 → n.testBit (29 + i) = false := fun i hi => by
      have hfield := testBit_bits n 30 29 i
      rw [h, Nat.zero_testBit, decide_eq_true hi, Bool.true_and] at hfield
      exact hfield.symm
    exact ⟨hbit 0 (by decide), hbit 1 (by decide)⟩
  · rw [testBit_bits, Nat.zero_testBit]
    obtain rfl | rfl | hi : i = 0 ∨ i = 1 ∨ 2 ≤ i := by omega
    · rw [h29, Bool.and_false]
    · rw [h30, Bool.and_false]
    · rw [decide_eq_false (by omega), Bool.false_and]

theorem Mach.emit_reserved (m : Mach) (c : Fin 8) (addr : Nat) {desc : Word} (h : desc.getLsbD 29 = true ∨ desc.getLsbD 30 = true) :
    m.emit c addr desc.toNat = (3, m) := by
  have hbits : bits desc.toNat 30 29 ≠ 0 := fun hzero => by
    obtain ⟨h29, h30⟩ := (reserved_eq_zero_iff _).1 hzero
    rw [BitVec.testBit_toNat] at h29 h30
    rw [h29, h30] at h
    simp at h
  simp [Mach.emit, hbits]

/-- An image range inside the line store (R305, R307). -/
structure ImageRange (addr : Nat) (desc : Word) : Prop where
  kind : desc.extractLsb' 28 3 = 0
  some : desc.toNat % 2 ^ 24 ≠ 0
  words : desc.toNat % 2 ^ 24 % 4 = 0
  aligned : addr % 4 = 0
  above : 0x48000000 ≤ addr
  below : addr + desc.toNat % 2 ^ 24 ≤ 0x4B000000

theorem ImageRange.image {addr : Nat} {desc : Word} (h : ImageRange addr desc) :
    desc.toNat.testBit 28 = false ∧ bits desc.toNat 30 29 = 0 := by
  have hbit : ∀ i, i < 3 → desc.toNat.testBit (28 + i) = false := fun i hi => by
    have := congrArg (fun v : BitVec 3 => v.getLsbD i) h.kind
    simpa [BitVec.getLsbD_extractLsb', hi, BitVec.testBit_toNat] using this
  exact ⟨hbit 0 (by decide), (reserved_eq_zero_iff _).2 ⟨hbit 1 (by decide), hbit 2 (by decide)⟩⟩

/-- EMIT of an image range: paused, full, or accepted (R307-R311). -/
theorem Mach.emit_image (m : Mach) (c : Fin 8) {addr : Nat} {desc : Word} (h : ImageRange addr desc) : m.emit c addr desc.toNat =
    if !m.stOn || !m.hasSess || !m.is F.ST_CTL_IMGRUN then (2, m)
    else if 64 ≤ (m.st.queue.filter (fun e => !e.coded)).length then (1, m)
    else (0, m.emitted c (bits desc.toNat 27 24) (addr - 0x40000000) (desc.toNat % 2 ^ 24) (desc.toNat.testBit 31)) := by
  obtain ⟨hctl, hres⟩ := h.image
  have hlo : ¬ addr < 0x48000000 := Nat.not_lt.2 h.above
  have hhi : ¬ 0x48000000 + lineSize < addr + desc.toNat % 2 ^ 24 := Nat.not_lt.2 h.below
  simp only [Mach.emit, hctl, hres, h.some, h.words, h.aligned, hlo, hhi, bne_self_eq_false, decide_false, Bool.or_false,
    Bool.false_eq_true, if_false, Bool.not_false, Bool.true_and]
  rfl

theorem Mach.emit_paused (m : Mach) (c : Fin 8) {addr : Nat} {desc : Word} (h : ImageRange addr desc) (hrun : m.get F.ST_CTL_IMGRUN = 0) :
    m.emit c addr desc.toNat = (2, m) := by
  rw [m.emit_image c h, Mach.is, hrun]
  simp

theorem Mach.emit_accepted (m : Mach) (c : Fin 8) {addr : Nat} {desc : Word} (h : ImageRange addr desc) (hrun : m.get F.ST_CTL_IMGRUN = 1)
    (hon : m.get F.ST_CTL_EN = 1) (hsess : m.get F.ST_STAT_SESS = 2 ∨ m.get F.ST_STAT_SESS = 3) (hroom : m.st.queue.length < 64) :
    m.emit c addr desc.toNat =
      (0, m.emitted c (bits desc.toNat 27 24) (addr - 0x40000000) (desc.toNat % 2 ^ 24) (desc.toNat.testBit 31)) := by
  have hfew : ¬ 64 ≤ (m.st.queue.filter (fun e => !e.coded)).length := Nat.not_le.2 ((List.length_filter_le _ _).trans_lt hroom)
  have hhas : m.hasSess = true := Bool.or_eq_true_iff.2 (hsess.imp decide_eq_true decide_eq_true)
  rw [m.emit_image c h, Mach.stOn, Mach.is, hon, Mach.is, hrun, hhas, if_neg (by decide), if_neg hfew]

/-! ## EMIT -/

theorem CoreSt.eq_with_own_events {x y : CoreSt} {t : Nat} {v o : BitVec 32} (h : x = { y with evAt := t, evSet := v, evOvf := o }) :
    x = { y with evAt := x.evAt, evSet := x.evSet, evOvf := x.evOvf } := by
  subst h
  rfl

/-- EMIT with no store waiting retires with its status, from what its effect leaves. -/
theorem exec_emit (s : State) (c : Fin 8) (rd ra rb : Rn) (h : s.m.fetches c = true) (hempty : s.m.cores[c].sb = []) {st : Nat} {m : Mach}
    (hemit : (s.m.takeTurn c).emit c (s.W c ra).toNat (s.W c rb).toNat = (st, m)) :
    exec (.emit c rd ra rb) s = .next { s with m := (m.setW c rd (BitVec.ofNat 32 st)).next c } := by
  change s.runF (fun f m => m.issue c (fun m => m.drained f c (fun m =>
    ((m.emit c (m.w c ra).toNat (m.w c rb).toNat).2.setW c rd (BitVec.ofNat 32 (m.emit c (m.w c ra).toNat (m.w c rb).toNat).1)).next c))) = _
  rw [s.runF_issue c _ h, Mach.drained_of_empty _ _ _ _ ((s.m.takeTurn_sb c).trans hempty), State.takeTurn_w, State.takeTurn_w, hemit]

/-- Settles O25: the descriptor and ST's registers give the status; an accepted entry stands at the end of the queue. -/
theorem emit : Obligations.Emit := by
  intro c rd ra rb s h hempty u addr desc len
  have hget : ∀ f, (s.m.takeTurn c).get f = s.m.get f := s.m.takeTurn_get c
  have hst : (s.m.takeTurn c).st = s.m.st := by
    obtain ⟨n, w, b, hturn⟩ := s.m.takeTurn_changes c
    rw [hturn]
  refine ⟨fun hres => ?_, fun hkind hsome hwords haligned habove hbelow => ?_⟩
  · rw [exec_emit s c rd ra rb h hempty (Mach.emit_reserved _ c _ hres)]
    exact congrArg Host.Outcome.next (u.retire_eq c rd 3)
  · have himage : ImageRange addr desc := ⟨hkind, hsome, hwords, haligned, habove, hbelow⟩
    refine ⟨fun hrun => ?_, fun hrun hon hsess hroom => ?_⟩
    · rw [exec_emit s c rd ra rb h hempty (Mach.emit_paused _ c himage (by rw [hget, hrun]))]
      exact congrArg Host.Outcome.next (u.retire_eq c rd 2)
    · have hexec := exec_emit s c rd ra rb h hempty (Mach.emit_accepted _ c himage (by rw [hget, hrun]) (by rw [hget, hon])
        (by rw [hget]; exact hsess) (by rw [hst]; exact hroom))
      obtain ⟨m, hm⟩ : ∃ m, m = (s.m.takeTurn c).emitted c (bits desc.toNat 27 24) (addr - 0x40000000) len (desc.toNat.testBit 31) := ⟨_, rfl⟩
      rw [Mach.next_setW, ← hm] at hexec
      have hstate : s.m.get (F.C_STAT_STATE c) = 1 := by
        obtain ⟨hrun, -⟩ := (s.m.fetches_iff c).1 h
        exact of_decide_eq_true (Bool.and_eq_true_iff.1 hrun).2
      obtain ⟨t, v, o, hcore⟩ := (s.m.takeTurn c).emitted_core c (bits desc.toNat 27 24) (addr - 0x40000000) len (desc.toNat.testBit 31)
        (by rw [hget, hstate]) (by rw [Mach.takeTurn_core])
      rw [← hm] at hcore
      refine ⟨_, hexec, ?_, fun a => ?_, ⟨rfl, rfl, rfl⟩, ?_, s.m.st.imageEntry (bits desc.toNat 27 24) (addr - 0x40000000) len
        (desc.toNat.testBit 31), ?_, rfl, rfl, rfl, bits_eq_extract desc 27 24, BitVec.testBit_toNat .., rfl⟩
      · have hretire : (u.retire c rd 0).m.cores[c] = { u.m.cores[c] with w := putW u.m.cores[c].w rd 0, pc := u.m.cores[c].pc + 4 } :=
          u.core_self c _
        refine CoreSt.eq_with_own_events (t := t) (v := v) (o := o) ((m.core_setCore_self c _).trans ?_)
        rw [hretire, hcore]
        rfl
      · change m.byte a = _
        rw [hm, Mach.emitted_byte, Mach.takeTurn_byte]
      · change m.get _ = _
        rw [hm, Mach.emitted_count, hget]
      · change m.st.queue = _
        rw [hm, Mach.emitted_queue, hst]

end Sys2Proof.Machine
end

section
/-!
Settles the event lines: pulses, EVT_EN, doorbells and HOSTDB (R209-R217, R222, R874).
-/

namespace Sys2Proof.Machine

/-! ## One bit of a field -/

theorem Mach.get_lt (m : Mach) (f : Fld) : m.get f < 2 ^ (f.hi + 1 - f.lo) := Nat.mod_lt _ (Nat.two_pow_pos _)

theorem Mach.get_putBit_self (m : Mach) (f : Fld) {i : Nat} (hlo : f.lo ≤ f.hi) (hhi : f.hi < 32) (hi : i < f.hi + 1 - f.lo) :
    (m.putBit f i).get f = m.get f ||| 2 ^ i := by
  have hlt := setBits_lt 32 (m.reg f.addr).toNat f.hi f.lo (m.get f ||| 2 ^ i) (m.reg f.addr).isLt hlo hhi
  have hor : m.get f ||| 2 ^ i < 2 ^ (f.hi + 1 - f.lo) := Nat.or_lt_two_pow (m.get_lt f) (Nat.pow_lt_pow_right (by decide) hi)
  rw [Mach.putBit, Mach.noteFlags_get, Mach.get, Mach.reg_setReg_self, BitVec.toNat_ofNat, Nat.mod_eq_of_lt hlt, bits_setBits _ _ _ _ hlo,
    Nat.mod_eq_of_lt hor]

theorem Mach.get_putBit_ne (m : Mach) (f g : Fld) (i : Nat) (h : g.addr ≠ f.addr) : (m.putBit f i).get g = m.get g := by
  rw [Mach.get, Mach.reg_putBit_ne _ _ _ h]
  rfl

@[simp] theorem Mach.putBit_cores (m : Mach) (f : Fld) (i : Nat) : (m.putBit f i).cores = m.cores := by simp [Mach.putBit]

theorem Mach.putBit_changes (m : Mach) (f : Fld) (i : Nat) : ∃ r b, m.putBit f i = { m with regs := r, beat := b } := by
  unfold Mach.putBit Mach.noteFlags
  split <;> exact ⟨_, _, rfl⟩

theorem Mach.putBit_tickNo (m : Mach) (f : Fld) (i : Nat) : (m.putBit f i).tickNo = m.tickNo := by
  simp [Mach.putBit, Mach.tickNo, Mach.now]

theorem or_two_pow_of_testBit {n e : Nat} (h : n.testBit e = true) : n ||| 2 ^ e = n := by
  refine Nat.eq_of_testBit_eq fun i => ?_
  rw [Nat.testBit_or, Nat.testBit_two_pow]
  by_cases hi : e = i
  · rw [← hi, h, Bool.true_or]
  · rw [decide_eq_false hi, Bool.or_false]

theorem pend_ne_ovf (c : Nat) : F.C_EVT_PEND_reg c ≠ F.C_EVT_OVF_reg c := by
  simp only [F.C_EVT_PEND_reg, F.C_EVT_OVF_reg]
  omega

/-! ## A pulse in a tick of its own -/

/-- The field of line `e` that a pulse sets: OVF when the line is pending, PEND otherwise (R213). -/
def Mach.eventField (m : Mach) (c : Fin 8) (e : Nat) : Fld :=
  if (m.get (F.C_EVT_PEND_PEND c)).testBit e then F.C_EVT_OVF_OVF c else F.C_EVT_PEND_PEND c

theorem Mach.stat_ne_eventField (m : Mach) (c : Fin 8) (e : Nat) : F.C_STAT_reg c ≠ (m.eventField c e).addr := by
  unfold Mach.eventField
  split
  · exact stat_ne_ovf c
  · exact stat_ne_pend c

/-- A pulse that is the first of its line in this tick sets the line's bit, and the core takes it if it waits (R210, R213, R216). -/
theorem Mach.pulse_eq (m : Mach) (c : Fin 8) (e : Nat) (hlive : m.live = true) (hev : m.cores[c].evAt ≠ m.tickNo) : ∃ t v o,
    m.pulse c e = ((m.setCore c { m.core c with evAt := t, evSet := v, evOvf := o }).putBit (m.eventField c e) e).wake c := by
  obtain ⟨-, hreset, hthermal⟩ := m.live_iff.1 hlive
  have hin : (m.core c).inTick m.tickNo = { m.core c with evAt := m.tickNo, evSet := 0, evOvf := 0 } := if_neg hev
  unfold Mach.pulse
  rw [hreset, hthermal, hin]
  dsimp only
  rw [if_neg (by simp)]
  exact ⟨_, _, _, rfl⟩

theorem Mach.quiet_iff (m : Mach) (c : Fin 8) : m.quiet c = true ↔ m.cores[c].evAt ≠ m.tickNo ∧ m.cores[c].lateAt ≠ some m.tickNo := by
  rw [Mach.quiet, Bool.and_eq_true, bne_iff_ne, bne_iff_ne]

/-- A core that neither waits nor has just stopped waiting takes no line (R216, R283). -/
theorem Mach.wake_of_awake (m : Mach) (c : Fin 8) (hstate : m.get (F.C_STAT_STATE c) ≠ 2) (hlate : (m.core c).lateAt ≠ some m.tickNo) :
    m.wake c = m := by
  simp [Mach.wake, hstate, hlate]

theorem Mach.pulse_of_awake (m : Mach) (c : Fin 8) (e : Nat) (hlive : m.live = true) (hquiet : m.quiet c = true)
    (hstate : m.get (F.C_STAT_STATE c) ≠ 2) : ∃ t v o,
    m.pulse c e = (m.setCore c { m.core c with evAt := t, evSet := v, evOvf := o }).putBit (m.eventField c e) e := by
  obtain ⟨hev, hlate⟩ := (m.quiet_iff c).1 hquiet
  obtain ⟨t, v, o, hpulse⟩ := m.pulse_eq c e hlive hev
  refine ⟨t, v, o, hpulse.trans (Mach.wake_of_awake _ c ?_ ?_)⟩
  · rw [Mach.get_putBit_ne _ _ _ _ (m.stat_ne_eventField c e)]
    exact hstate
  · rw [Mach.core, Mach.putBit_cores, Mach.putBit_tickNo]
    change ((m.setCore c _).core c).lateAt ≠ _
    rw [Mach.core_setCore_self]
    exact hlate

section
variable (m : Mach) (c : Fin 8) (t : Nat) (v o : BitVec 32) {e : Nat} (he : e < 32)
include he

/-- The pending and overflow bits after a pulse (R213). -/
theorem Mach.pend_after_pulse : ((m.setCore c { m.core c with evAt := t, evSet := v, evOvf := o }).putBit (m.eventField c e) e).get
    (F.C_EVT_PEND_PEND c) = m.get (F.C_EVT_PEND_PEND c) ||| 2 ^ e := by
  unfold Mach.eventField
  split
  · next hpend =>
    rw [Mach.get_putBit_ne _ _ _ _ (pend_ne_ovf c)]
    exact (or_two_pow_of_testBit hpend).symm
  · exact Mach.get_putBit_self _ _ (by decide : 0 ≤ 31) (by decide : 31 < 32) he

theorem Mach.ovf_after_pulse : ((m.setCore c { m.core c with evAt := t, evSet := v, evOvf := o }).putBit (m.eventField c e) e).get
    (F.C_EVT_OVF_OVF c) = (m.get (F.C_EVT_OVF_OVF c) ||| if (m.get (F.C_EVT_PEND_PEND c)).testBit e then 2 ^ e else 0) := by
  unfold Mach.eventField
  split
  · exact Mach.get_putBit_self _ _ (by decide : 0 ≤ 31) (by decide : 31 < 32) he
  · rw [Mach.get_putBit_ne _ _ _ _ (pend_ne_ovf c).symm, Nat.or_zero]
    rfl

end

/-- What a pulse leaves of a core that takes no line: registers of the core, and what it notes of its lines. -/
theorem State.pulse_frame (s : State) (c : Fin 8) (e : Nat) {n : Mach} {t : Nat} {v o : BitVec 32} (f : Fld)
    (hn : n = (s.m.setCore c { s.m.core c with evAt := t, evSet := v, evOvf := o }).putBit f e) :
    OtherCores c s { s with m := n } ∧
      n.cores[c] = { s.m.cores[c] with evAt := n.cores[c].evAt, evSet := n.cores[c].evSet, evOvf := n.cores[c].evOvf } := by
  have hcores : n.cores = (s.m.setCore c { s.m.core c with evAt := t, evSet := v, evOvf := o }).cores := by rw [hn, Mach.putBit_cores]
  refine ⟨fun d hd => ?_, CoreSt.eq_with_own_events (t := t) (v := v) (o := o) ?_⟩
  · change n.cores[d] = _
    rw [hcores]
    exact s.m.core_setCore_ne _ hd
  · rw [hcores]
    exact s.m.core_setCore_self c _

theorem Mach.CoresOnly.onlyCores_here {s : State} {n : Mach} (h : s.m.CoresOnly n) : OnlyCores s { s with m := n } := by
  obtain ⟨r, x, b, rfl⟩ := h.same
  rfl

/-! ## EVENT_PULSE -/

theorem exec_eventPulse {s : State} (c : Fin 8) (e : Fin 32) (hlive : s.m.live = true) :
    exec (.eventPulse c e) s = .next { s with m := if wired c e then s.m.pulse c e else s.m } := by
  change s.run (fun m => m.ifLive (fun m => if wired c e then m.pulse c e else m)) = _
  rw [State.run_eq, Mach.ifLive_of _ _ hlive]

theorem does_eventPulse_awake {s : State} {c : Fin 8} {e : Fin 32} (hlive : s.m.live = true) (hwired : wired c e = true)
    (hquiet : s.m.quiet c = true) (hstate : s.m.get (F.C_STAT_STATE c) ≠ 2) : Does (.eventPulse c e) s (fun t =>
      t.m.get (F.C_EVT_PEND_PEND c) = s.m.get (F.C_EVT_PEND_PEND c) ||| 2 ^ e.val ∧
      t.m.get (F.C_EVT_OVF_OVF c) =
        (s.m.get (F.C_EVT_OVF_OVF c) ||| if (s.m.get (F.C_EVT_PEND_PEND c)).testBit e then 2 ^ e.val else 0) ∧
      OnlyCores s t ∧ OtherCores c s t ∧ SameRegs (fun a => a = F.C_EVT_PEND_reg c ∨ a = F.C_EVT_OVF_reg c) s t ∧
      t.m.cores[c] = { s.m.cores[c] with evAt := t.m.cores[c].evAt, evSet := t.m.cores[c].evSet, evOvf := t.m.cores[c].evOvf }) := by
  obtain ⟨t, v, o, hpulse⟩ := s.m.pulse_of_awake c e hlive hquiet hstate
  have hexec := exec_eventPulse c e hlive
  rw [hwired, if_pos rfl] at hexec
  obtain ⟨hothers, hcore⟩ := s.pulse_frame c e _ hpulse
  refine ⟨_, hexec, ?_, ?_, ((Mach.CoresOnly.refl s.m).pulse c e).onlyCores_here, hothers, fun a ha => ?_, hcore⟩
  · change (s.m.pulse c e).get _ = _
    rw [hpulse, Mach.pend_after_pulse _ _ _ _ _ e.isLt]
  · change (s.m.pulse c e).get _ = _
    rw [hpulse, Mach.ovf_after_pulse _ _ _ _ _ e.isLt]
  · change (s.m.pulse c e).reg a = _
    rw [hpulse, Mach.reg_putBit_ne]
    · rfl
    · unfold Mach.eventField
      split
      · exact fun h => ha (Or.inr h)
      · exact fun h => ha (Or.inl h)

/-- What pulses a line again in the same tick adds nothing (R213). -/
theorem Mach.pulse_again (m : Mach) (c : Fin 8) (e : Nat) (hat : m.cores[c].evAt = m.tickNo)
    (hset : m.cores[c].evSet.getLsbD e = true) : m.pulse c e = m := by
  have hin : (m.core c).inTick m.tickNo = m.core c := if_pos hat
  have hset' : (m.core c).evSet.getLsbD e = true := hset
  simp [Mach.pulse, hin, hset']

/-- A waiting core whose lowest ready line is `e` takes it (R216). -/
theorem Mach.wake_of_waiting (m : Mach) (c : Fin 8) {e : Nat} (hrun : m.clk.running = true) (hstate : m.get (F.C_STAT_STATE c) = 2)
    (hready : m.readyLine c = some e) : m.wake c = m.waitWoken c e := by
  simp [Mach.wake, hrun, hstate, hready]

/-- The bits that are ready once line `e`, alone enabled and pending, is pending. -/
theorem lowestBit_of_fresh {en pend e : Nat} (he : e < 32) (hen : en.testBit e = true) (hnone : en &&& pend = 0) :
    lowestBit (en &&& (pend ||| 2 ^ e)) 0 32 = some e := by
  have hbit : ∀ k, (en &&& (pend ||| 2 ^ e)).testBit k = (en.testBit k && decide (e = k)) := fun k => by
    have hk : (en &&& pend).testBit k = false := by rw [hnone, Nat.zero_testBit]
    rw [Nat.testBit_and] at hk
    rw [Nat.testBit_and, Nat.testBit_or, Nat.testBit_two_pow, Bool.and_or_distrib_left, hk, Bool.false_or]
  refine lowestBit_eq_some (Nat.zero_le _) (by omega) ?_ fun k _ hk => ?_
  · rw [hbit, hen, decide_eq_true rfl, Bool.and_true]
  · rw [hbit, decide_eq_false (by omega), Bool.and_false]

theorem testBit_of_and_eq_zero {en pend e : Nat} (hen : en.testBit e = true) (hnone : en &&& pend = 0) : pend.testBit e = false := by
  have hboth := congrArg (fun n => n.testBit e) hnone
  rw [Nat.testBit_and, hen, Bool.true_and, Nat.zero_testBit] at hboth
  exact hboth

theorem or_sub_and_two_pow {n e : Nat} (h : n.testBit e = false) : (n ||| 2 ^ e) - ((n ||| 2 ^ e) &&& 2 ^ e) = n := by
  refine Nat.eq_of_testBit_eq fun k => ?_
  rw [testBit_sub_and, Nat.testBit_or, Nat.testBit_two_pow]
  by_cases hk : e = k
  · simp [← hk, h]
  · simp [hk]

section
variable {s : State} {c : Fin 8} {e : Fin 32} (hlive : s.m.live = true) (hquiet : s.m.quiet c = true)
  (hstate : s.m.get (F.C_STAT_STATE c) = 2) (hen : (s.m.get (F.C_EVT_EN_EN c)).testBit e = true)
  (hnone : s.m.get (F.C_EVT_EN_EN c) &&& s.m.get (F.C_EVT_PEND_PEND c) = 0) (hne : c ≠ 7 ∨ e ≠ 0)
include hlive hquiet hstate hen hnone hne

/-- A pulse of an enabled line of a waiting core, with no other line ready: the core takes it at once (R216). -/
theorem pulse_of_waiting : ∃ t v o, s.m.pulse c e =
    ((((s.m.setCore c { s.m.core c with evAt := t, evSet := v, evOvf := o }).putBit (F.C_EVT_PEND_PEND c) e).clear
      (F.C_EVT_PEND_PEND c) (2 ^ e.val)).put (F.C_STAT_STATE c) 1).setCore c { s.m.core c with
        evAt := t, evSet := v, evOvf := o, w := putW (s.m.core c).w (BitVec.ofNat 4 (s.m.core c).waitRd) (BitVec.ofNat 32 e),
        pc := (s.m.core c).pc + 4, waitUntil := none, lateAt := none } := by
  obtain ⟨hev, -⟩ := (s.m.quiet_iff c).1 hquiet
  obtain ⟨t, v, o, hpulse⟩ := s.m.pulse_eq c e hlive hev
  have hidle := testBit_of_and_eq_zero hen hnone
  have hfield : s.m.eventField c e = F.C_EVT_PEND_PEND c := if_neg (by rw [hidle]; decide)
  rw [hfield] at hpulse
  refine ⟨t, v, o, ?_⟩
  obtain ⟨n, hn⟩ : ∃ n, n = (s.m.setCore c { s.m.core c with evAt := t, evSet := v, evOvf := o }).putBit (F.C_EVT_PEND_PEND c) e := ⟨_, rfl⟩
  have hcore : n.core c = { s.m.core c with evAt := t, evSet := v, evOvf := o } := by
    rw [hn, Mach.core, Mach.putBit_cores]
    exact s.m.core_setCore_self c _
  have hstate' : n.get (F.C_STAT_STATE c) = 2 := by
    rw [hn, Mach.get_putBit_ne _ _ _ _ (stat_ne_pend c)]
    exact hstate
  have hready : n.readyLine c = some e.val := by
    have hen' : n.get (F.C_EVT_EN_EN c) = s.m.get (F.C_EVT_EN_EN c) := by
      rw [hn, Mach.get_putBit_ne]
      · rfl
      · simp only [F.C_EVT_EN_EN, F.C_EVT_EN_reg, F.C_EVT_PEND_PEND, F.C_EVT_PEND_reg]
        omega
    have hpend : n.get (F.C_EVT_PEND_PEND c) = s.m.get (F.C_EVT_PEND_PEND c) ||| 2 ^ e.val := by
      rw [hn]
      exact Mach.get_putBit_self _ _ (by decide : 0 ≤ 31) (by decide : 31 < 32) e.isLt
    rw [Mach.readyLine, hen', hpend]
    exact lowestBit_of_fresh e.isLt hen hnone
  have hrun : n.clk.running = true := by
    rw [hn]
    simpa [Mach.putBit] using (s.m.live_iff.1 hlive).1
  have hne' : c ≠ 7 ∨ e.val ≠ 0 := hne.imp_right fun h hzero => h (Fin.ext hzero)
  rw [hpulse, ← hn, Mach.wake_of_waiting _ _ hrun hstate' hready, Mach.waitWoken, Mach.waitTake_eq _ hne']
  change (Mach.put _ _ _).setCore c { (n.core c).writeW (rnum (BitVec.ofNat 4 (n.core c).waitRd)) _ with
    pc := (n.core c).pc + 4, waitUntil := none, lateAt := none } = _
  rw [hcore, CoreSt.writeW_rnum]

theorem does_eventPulse_waiting (hwired : wired c e = true) : Does (.eventPulse c e) s (fun t => t.m.get (F.C_STAT_STATE c) = 1 ∧
    t.m.get (F.C_EVT_PEND_PEND c) = s.m.get (F.C_EVT_PEND_PEND c) ∧ t.m.cores[c].pc = s.m.cores[c].pc + 4 ∧
    t.m.cores[c].w = putW s.m.cores[c].w (BitVec.ofNat 4 s.m.cores[c].waitRd) (BitVec.ofNat 32 e) ∧
    OnlyCores s t ∧ OtherCores c s t ∧ SameRegs (fun a => a = F.C_STAT_reg c ∨ a = F.C_EVT_PEND_reg c) s t) := by
  obtain ⟨t, v, o, hpulse⟩ := pulse_of_waiting hlive hquiet hstate hen hnone hne
  have hexec := exec_eventPulse c e hlive
  rw [hwired, if_pos rfl] at hexec
  refine ⟨_, hexec, ?_, ?_, ?_, ?_, ((Mach.CoresOnly.refl s.m).pulse c e).onlyCores_here, fun d hd => ?_, fun a ha => ?_⟩
  · change (s.m.pulse c e).get _ = _
    rw [hpulse, Mach.get_setCore, Mach.get_put_state]
  · change (s.m.pulse c e).get _ = _
    rw [hpulse, Mach.get_setCore, Mach.get_put_ne _ (F.C_STAT_STATE c) _ 1 (stat_ne_pend c).symm, Mach.get_clear_self _ _ _ (by decide : 0 ≤ 31) (by decide : 31 < 32),
      Mach.get_putBit_self _ _ (by decide : 0 ≤ 31) (by decide : 31 < 32) e.isLt, Mach.get_setCore]
    exact or_sub_and_two_pow (testBit_of_and_eq_zero hen hnone)
  · change ((s.m.pulse c e).core c).pc = _
    rw [hpulse, Mach.core_setCore_self]
    rfl
  · change ((s.m.pulse c e).core c).w = _
    rw [hpulse, Mach.core_setCore_self]
    rfl
  · exact s.m.pulse_core_ne e hd
  · change (s.m.pulse c e).reg a = _
    rw [hpulse, Mach.reg_setCore, Mach.reg_put_ne _ (F.C_STAT_STATE c) _ (fun h => ha (Or.inl h)),
      Mach.reg_clear_ne _ (F.C_EVT_PEND_PEND c) _ (fun h => ha (Or.inr h)),
      Mach.reg_putBit_ne _ (F.C_EVT_PEND_PEND c) _ (fun h => ha (Or.inr h)), Mach.reg_setCore]

end

/-! ## EVT_EN, doorbells and HOSTDB -/

/-- A core for which no line is ready takes none. -/
theorem Mach.wake_of_none (m : Mach) (c : Fin 8) (h : m.readyLine c = none) : m.wake c = m := by
  simp only [Mach.wake, h, ite_self]

theorem does_evtEnWrite {s : State} {c : Fin 8} {v : Word} (hlive : s.m.live = true) (hquiet : s.tick.m.quiet c = true)
    (hnone : s.m.get (F.C_STAT_STATE c) ≠ 2 ∨ v.toNat &&& s.m.get (F.C_EVT_PEND_PEND c) = 0) : Does (.evtEnWrite c v) s (fun t =>
      t.m.get (F.C_EVT_EN_EN c) = v.toNat ∧ OnlyRegs s t ∧ SameRegs (· = F.C_EVT_EN_reg c) s t) := by
  obtain ⟨-, hlate⟩ := (s.tick.m.quiet_iff c).1 hquiet
  obtain ⟨n, w, htick⟩ := s.m.runTo_changes (nextGrid 4 s.m.now)
  have hne : F.C_EVT_EN_reg c ≠ F.C_STAT_reg c ∧ F.C_EVT_EN_reg c ≠ F.C_EVT_PEND_reg c := by
    simp only [F.C_EVT_EN_reg, F.C_STAT_reg, F.C_EVT_PEND_reg]
    omega
  have hget : ∀ f : Fld, f.addr ≠ F.C_EVT_EN_reg c → (s.m.atTick.setReg (F.C_EVT_EN_reg c) v).get f = s.m.get f := fun f hf => by
    rw [← s.m.atTick_get f, Mach.get, Mach.reg_setReg_ne _ _ hf]
    rfl
  have hen : (s.m.atTick.setReg (F.C_EVT_EN_reg c) v).get (F.C_EVT_EN_EN c) = v.toNat := by
    rw [Mach.get]
    change bits ((s.m.atTick.setReg (F.C_EVT_EN_reg c) v).reg (F.C_EVT_EN_reg c)).toNat 31 0 = _
    rw [Mach.reg_setReg_self]
    exact Nat.mod_eq_of_lt v.isLt
  have hwake : s.m.atTick.evtEn c v = s.m.atTick.setReg (F.C_EVT_EN_reg c) v := by
    obtain hstate | hzero := hnone
    · exact Mach.wake_of_awake _ c (by rw [hget _ hne.1.symm]; exact hstate) hlate
    · refine Mach.wake_of_none _ c ?_
      rw [Mach.readyLine, hen, hget _ hne.2.symm, hzero, lowestBit_of_zero]
  have hexec : exec (.evtEnWrite c v) s = .next { s with m := s.m.atTick.setReg (F.C_EVT_EN_reg c) v } := by
    change s.run (fun m => m.ifLive (fun m => m.atTick.evtEn c v)) = _
    rw [State.run_eq, Mach.ifLive_of _ _ hlive, hwake]
  refine ⟨_, hexec, hen, ?_, fun a ha => (Mach.reg_setReg_ne _ _ ha).trans (by simp [Mach.atTick])⟩
  rw [OnlyRegs, Mach.atTick, htick]
  rfl

/-- The line that a doorbell pulses (R222). -/
def doorbellLine (c : Fin 8) (ringer : Nat) : Nat := if ringer = 8 && c = 7 then 17 else 31

theorem Mach.doorbell_eq (m : Mach) (c : Fin 8) (ringer : Nat) :
    m.doorbell c ringer = (m.putBit (F.C_DB_PEND_PEND c) ringer).pulse c (doorbellLine c ringer) := by
  unfold Mach.doorbell doorbellLine
  split
  · next h =>
    obtain ⟨-, rfl⟩ : ringer = 8 ∧ c = 7 := by simpa using h
    rfl
  · rfl

/-- The ringer of a doorbell (R222). -/
def ringerOf : Agent → Nat
  | .port => 8
  | .core k => k.val

theorem ringerOf_lt (ag : Agent) : ringerOf ag < 9 := by
  cases ag with
  | port => decide
  | core k => exact k.isLt.trans (by decide)

theorem doorbellLine_ringerOf (c : Fin 8) (ag : Agent) : doorbellLine c (ringerOf ag) = if c = 7 ∧ ag = .port then 17 else 31 := by
  cases ag with
  | port => simp [doorbellLine, ringerOf]
  | core k =>
    have hk : k.val ≠ 8 := k.isLt.ne
    simp [doorbellLine, ringerOf, hk]

theorem doorbellLine_lt (c : Fin 8) (ringer : Nat) : doorbellLine c ringer < 32 := by
  unfold doorbellLine
  split <;> decide

/-- The turn of an agent changes the count and what the model notes of the beat alone. -/
theorem State.turnOf_frame (s : State) (r : Nat) {n : Mach} (h : (s.m.turn r).CoresOnly n) : OnlyCores s { s with m := n } := by
  obtain ⟨x, y, b, rfl⟩ := h.same
  obtain ⟨k, w, b', hturn⟩ := s.m.turn_changes r
  rw [hturn]
  rfl

theorem Mach.turn_reg (m : Mach) (r a : Nat) : (m.turn r).reg a = m.reg a := by
  obtain ⟨k, w, b, hturn⟩ := m.turn_changes r
  rw [hturn]
  rfl

theorem Mach.turn_live (m : Mach) (r : Nat) : (m.turn r).live = m.live := by
  obtain ⟨k, w, b, hturn⟩ := m.turn_changes r
  rw [hturn]
  rfl

theorem Mach.putBit_live (m : Mach) (f : Fld) (i : Nat) : (m.putBit f i).live = m.live := by
  simp [Mach.live, Mach.inReset, Mach.putBit]

theorem Mach.putBit_quiet (m : Mach) (f : Fld) (i : Nat) (c : Fin 8) : (m.putBit f i).quiet c = m.quiet c := by
  rw [Mach.quiet, Mach.putBit_tickNo, Mach.putBit_cores]
  rfl

theorem does_doorbell {s : State} {c : Fin 8} {ag : Agent} (hlive : s.m.live = true) (hquiet : (s.m.turn (agentRank ag)).quiet c = true)
    (hstate : s.m.get (F.C_STAT_STATE c) ≠ 2) : Does (.doorbell c ag) s (fun t =>
      t.m.get (F.C_DB_PEND_PEND c) = s.m.get (F.C_DB_PEND_PEND c) ||| 2 ^ ringerOf ag ∧
      (t.m.get (F.C_EVT_PEND_PEND c)).testBit (doorbellLine c (ringerOf ag)) = true ∧
      OnlyCores s t ∧ OtherCores c s t ∧
      SameRegs (fun a => a = F.C_DB_PEND_reg c ∨ a = F.C_EVT_PEND_reg c ∨ a = F.C_EVT_OVF_reg c) s t ∧
      t.m.cores[c] = { s.m.cores[c] with evAt := t.m.cores[c].evAt, evSet := t.m.cores[c].evSet, evOvf := t.m.cores[c].evOvf }) := by
  have hne : F.C_DB_PEND_reg c ≠ F.C_STAT_reg c ∧ F.C_DB_PEND_reg c ≠ F.C_EVT_PEND_reg c ∧ F.C_DB_PEND_reg c ≠ F.C_EVT_OVF_reg c := by
    simp only [F.C_DB_PEND_reg, F.C_STAT_reg, F.C_EVT_PEND_reg, F.C_EVT_OVF_reg]
    omega
  have hline := doorbellLine_lt c (ringerOf ag)
  obtain ⟨m, hm⟩ : ∃ m, m = (s.m.turn (agentRank ag)).putBit (F.C_DB_PEND_PEND c) (ringerOf ag) := ⟨_, rfl⟩
  have hcores : ∀ d, m.core d = s.m.core d := fun d => by
    rw [hm, Mach.core, Mach.putBit_cores]
    exact s.m.turn_core _ d
  have hregs : ∀ a, a ≠ F.C_DB_PEND_reg c → m.reg a = s.m.reg a := fun a ha => by
    rw [hm, Mach.reg_putBit_ne _ _ _ ha, Mach.turn_reg]
  have hexec : exec (.doorbell c ag) s = .next { s with m := m.pulse c (doorbellLine c (ringerOf ag)) } := by
    rw [hm, ← Mach.doorbell_eq]
    change s.run (fun m => m.ifLive (fun m => (m.turn (agentRank ag)).doorbell c (ringerOf ag))) = _
    rw [State.run_eq, Mach.ifLive_of _ _ hlive]
  obtain ⟨t, v, o, hpulse⟩ := m.pulse_of_awake c (doorbellLine c (ringerOf ag))
    (by rw [hm, Mach.putBit_live, Mach.turn_live, hlive]) (by rw [hm, Mach.putBit_quiet, hquiet])
    (by rw [Mach.get, hregs (F.C_STAT_STATE c).addr hne.1.symm]; exact hstate)
  have hfield : (m.eventField c (doorbellLine c (ringerOf ag))).addr = F.C_EVT_PEND_reg c ∨
      (m.eventField c (doorbellLine c (ringerOf ag))).addr = F.C_EVT_OVF_reg c := by
    unfold Mach.eventField
    split
    · exact Or.inr rfl
    · exact Or.inl rfl
  obtain ⟨hothers, hcore⟩ := State.pulse_frame { s with m := m } c _ _ hpulse
  have hself : m.cores[c] = s.m.cores[c] := hcores c
  have hdb : (F.C_DB_PEND_PEND c).addr ≠ (m.eventField c (doorbellLine c (ringerOf ag))).addr := by
    obtain h | h := hfield <;> rw [h]
    · exact hne.2.1
    · exact hne.2.2
  refine ⟨_, hexec, ?_, ?_, ?_, fun d hd => (hothers d hd).trans (hcores d), fun a ha => ?_, ?_⟩
  · change (m.pulse c _).get _ = _
    rw [hpulse, Mach.get_putBit_ne _ _ _ _ hdb]
    change m.get _ = _
    rw [hm, Mach.get_putBit_self _ _ (by decide : 0 ≤ 8) (by decide : 8 < 32) (ringerOf_lt ag), Mach.turn_get]
  · change ((m.pulse c _).get _).testBit _ = true
    rw [hpulse, Mach.pend_after_pulse _ _ _ _ _ hline, Nat.testBit_or, Nat.testBit_two_pow_self, Bool.or_true]
  · have hdbAddr : 0x400000 ≤ (F.C_DB_PEND_PEND c).addr := by
      simp only [F.C_DB_PEND_PEND, F.C_DB_PEND_reg]
      omega
    exact s.turnOf_frame (agentRank ag) (by rw [hm]; exact ((Mach.CoresOnly.refl _).putBit _ _ hdbAddr).pulse c _)
  · change (m.pulse c _).reg a = _
    rw [hpulse, Mach.reg_putBit_ne]
    · exact hregs a (fun h => ha (Or.inl h))
    · obtain h | h := hfield <;> rw [h]
      · exact fun h => ha (Or.inr (Or.inl h))
      · exact fun h => ha (Or.inr (Or.inr h))
  · rw [← hself]
    exact hcore

/-- The row of the map that holds SYS_HOSTDB. -/
theorem findReg_hostdb : (findReg F.SYS_HOSTDB_reg).map (fun r => r.base) = some F.SYS_HOSTDB_reg := by decide

theorem does_sysHostdbWrite {s : State} {c : Fin 8} (hlive : s.m.live = true) : Does (.sysHostdbWrite c) s (fun t =>
    t.m.get F.SYS_IRQ_STAT_HOSTDB = s.m.get F.SYS_IRQ_STAT_HOSTDB ||| 2 ^ c.val ∧ OnlyRegs s t ∧ SameRegs (· = F.SYS_IRQ_STAT_reg) s t) := by
  have hwrite : ∀ m : Mach, m.regWrite s.fuses (.core c) F.SYS_HOSTDB_reg 0 = m.putBit F.SYS_IRQ_STAT_HOSTDB c := fun m => by
    have hrow := findReg_hostdb
    unfold Mach.regWrite
    cases hfind : findReg F.SYS_HOSTDB_reg with
    | none => simp [hfind] at hrow
    | some r =>
      rw [hfind] at hrow
      obtain hbase : r.base = F.SYS_HOSTDB_reg := Option.some.inj hrow
      simp only [hbase]
      rfl
  have hexec : exec (.sysHostdbWrite c) s = .next { s with m := (s.m.turn (c.val + 1)).putBit F.SYS_IRQ_STAT_HOSTDB c } := by
    rw [← hwrite]
    change s.runF (fun f m => m.ifLive (fun m => (m.turn (c.val + 1)).regWrite f (.core c) F.SYS_HOSTDB_reg 0)) = _
    rw [State.runF_eq, Mach.ifLive_of _ _ hlive]
  refine ⟨_, hexec, ?_, ?_, fun a ha => (Mach.reg_putBit_ne _ _ _ ha).trans (s.m.turn_reg _ a)⟩
  · rw [Mach.get_putBit_self _ _ (by decide) (by decide) c.isLt, Mach.turn_get]
  · obtain ⟨k, w, b, hturn⟩ := s.m.turn_changes (c.val + 1)
    obtain ⟨r, x, hput⟩ := (s.m.turn (c.val + 1)).putBit_changes F.SYS_IRQ_STAT_HOSTDB c
    rw [OnlyRegs, hput, hturn]
    rfl

/-- Settles O27: a pulse sets the line's pending bit, or its overflow bit, once in a tick, and a waiting pair takes the line at once. -/
theorem events : Obligations.Events := by
  intro c s hlive
  refine ⟨fun e hwired => ?_, fun e hat hset => ?_, fun e hwired hquiet => ⟨fun hstate => ?_, fun hstate hen hnone hne => ?_⟩,
    fun v hquiet hnone => does_evtEnWrite hlive hquiet hnone, fun ag hquiet hstate => ?_, does_sysHostdbWrite hlive⟩
  · rw [exec_eventPulse c e hlive, hwired]
    rfl
  · rw [exec_eventPulse c e hlive, s.m.pulse_again c e hat hset, ite_self]
  · exact does_eventPulse_awake hlive hwired hquiet hstate
  · exact does_eventPulse_waiting hlive hquiet hstate hen hnone hne hwired
  · obtain ⟨t, hexec, hdb, hpend, hrest⟩ := does_doorbell (ag := ag) hlive hquiet hstate
    rw [doorbellLine_ringerOf] at hpend
    refine ⟨t, hexec, ?_, hpend, hrest⟩
    rw [hdb]
    cases ag <;> rfl

end Sys2Proof.Machine
end

section
/-!
Settles the fuses: the arming write, the BIT write and the blow (R173-R176).
-/

namespace Sys2Proof.Machine

@[simp] theorem Mach.atTick_reg (m : Mach) (a : Nat) : m.atTick.reg a = m.reg a := m.runTo_reg _ a

@[simp] theorem Mach.atTick_byte (m : Mach) (a : Nat) : m.atTick.byte a = m.byte a := by
  obtain ⟨n, w, h⟩ := m.runTo_changes (nextGrid 4 m.now)
  rw [Mach.atTick, h]
  rfl

@[simp] theorem Mach.atTick_boot (m : Mach) : m.atTick.boot = m.boot := by
  obtain ⟨n, w, h⟩ := m.runTo_changes (nextGrid 4 m.now)
  rw [Mach.atTick, h]

@[simp] theorem Mach.put_byte (m : Mach) (f : Fld) (v a : Nat) : (m.put f v).byte a = m.byte a := by simp [Mach.byte]

section
variable {s : State} (hlive : s.m.live = true)
include hlive

theorem does_fuseArm (hidle : s.m.get F.BOOT_FUSE_PGM_BUSY = 0) : Does .fuseArm s (fun t => t.m.boot.arm = some s.tick.m.now ∧
    t.m.get F.BOOT_FUSE_PGM_REJ = 0 ∧ SameRegs (· = F.BOOT_FUSE_PGM_reg) s t ∧ Keeps s t) := by
  have hbusy : s.m.atTick.is F.BOOT_FUSE_PGM_BUSY = false := by rw [Mach.is, Mach.atTick_get, hidle]; rfl
  have hexec : exec .fuseArm s = .next { s with
      m := { s.m.atTick.put F.BOOT_FUSE_PGM_REJ 0 with boot := { s.m.atTick.boot with arm := some s.m.atTick.now } } } := by
    change s.run (fun m => m.ifLive (fun m => m.atTick.fuseArm)) = _
    rw [State.run_eq, Mach.ifLive_of _ _ hlive, Mach.fuseArm, hbusy]
    rfl
  refine ⟨_, hexec, rfl, ?_, fun a ha => ?_, fun a => ?_, rfl, rfl, rfl⟩
  · exact Mach.get_put_self _ _ _ (by decide) (by decide)
  · exact (Mach.reg_put_ne _ _ _ ha).trans (s.m.atTick_reg a)
  · exact (Mach.put_byte _ _ _ _).trans (s.m.atTick_byte a)

end

/-- What a BIT write needs (R173-R175). -/
def Mach.bitOk (m : Mach) (now : Nat) (b : Nat) (io : Bool) : Prop :=
  (∃ a, m.boot.arm = some a ∧ now ≤ a + 3000000) ∧ b < 259 ∧ m.get F.BOOT_FUSE_PGM_BUSY = 0 ∧ m.get F.BOOT_STATUS_PHASE = 1 ∧
    (BitVec.ofNat 16 (m.get F.SHR_TEMP_TEMP)).toInt ≤ 85 * 16 ∧ io = true

theorem sext_of_lt {v : Nat} (h : v < 2 ^ 16) : sext 16 v = (BitVec.ofNat 16 v).toInt := by
  rw [← sext_toNat (by decide), BitVec.toNat_ofNat, Nat.mod_eq_of_lt h]

/-- The arm still holds (R173). -/
def armHolds (arm : Option Nat) (now : Nat) : Bool :=
  match arm with
  | some t => now ≤ t + 3000000
  | none => false

theorem armHolds_iff (arm : Option Nat) (now : Nat) : armHolds arm now = true ↔ ∃ a, arm = some a ∧ now ≤ a + 3000000 := by
  cases arm with
  | none => simp [armHolds]
  | some t => simp [armHolds]

/-- The checks of a BIT write are the statement's (R173-R175). -/
theorem Mach.fuseBit_ok_iff (m : Mach) (b : Nat) :
    (armHolds m.boot.arm m.now && decide (b < 259) && !m.is F.BOOT_FUSE_PGM_BUSY && m.fuseOk) = true ↔ m.bitOk m.now b m.pwr.io33 := by
  have htemp : sext 16 (m.get F.SHR_TEMP_TEMP) = (BitVec.ofNat 16 (m.get F.SHR_TEMP_TEMP)).toInt := sext_of_lt (m.get_lt F.SHR_TEMP_TEMP)
  rw [Mach.bitOk, ← armHolds_iff, ← htemp]
  simp [Mach.fuseOk, Mach.is, Mach.phase, and_assoc]
  exact fun _ _ _ _ _ => decide_eq_true_iff

/-- A BIT write takes the arm, and starts the blow or shows REJ (R173-R175). -/
theorem Mach.fuseBit_eq (m : Mach) (b : Nat) : m.fuseBit b =
    if armHolds m.boot.arm m.now && decide (b < 259) && !m.is F.BOOT_FUSE_PGM_BUSY && m.fuseOk then
      { Mach.put { m with boot := { m.boot with arm := none } } F.BOOT_FUSE_PGM_BUSY 1 with
        boot := { m.boot with arm := none, blow := some (b, m.now) } }
    else Mach.put { m with boot := { m.boot with arm := none } } F.BOOT_FUSE_PGM_REJ 1 := by
  unfold Mach.fuseBit
  simp only
  rfl

theorem does_fuseBit {s : State} (hlive : s.m.live = true) (b : BitVec 9) (io : Bool) : Does (.fuseBit b io) s (fun t =>
    t.m.boot.arm = none ∧ SameRegs (· = F.BOOT_FUSE_PGM_reg) s t ∧ Keeps s t ∧
    (s.m.bitOk s.tick.m.now b.toNat io → t.m.get F.BOOT_FUSE_PGM_BUSY = 1 ∧ t.m.boot.blow = some (b.toNat, s.tick.m.now)) ∧
    (¬ s.m.bitOk s.tick.m.now b.toNat io → t.m.get F.BOOT_FUSE_PGM_REJ = 1 ∧ t.m.boot.blow = s.m.boot.blow)) := by
  obtain ⟨n, hn⟩ : ∃ n : Mach, n = { s.m.atTick with pwr := { s.m.pwr with io33 := io } } := ⟨_, rfl⟩
  have hexec : exec (.fuseBit b io) s = .next { s with m := n.fuseBit b.toNat } := by
    change s.run (fun m => m.ifLive (fun m => ({ m.atTick with pwr := { m.pwr with io33 := io } }).fuseBit b.toNat)) = _
    rw [State.run_eq, Mach.ifLive_of _ _ hlive, hn]
  have hreg : ∀ a, n.reg a = s.m.reg a := fun a => by
    rw [hn]
    exact s.m.atTick_reg a
  have hbyte : ∀ a, n.byte a = s.m.byte a := fun a => by
    rw [hn]
    exact s.m.atTick_byte a
  have hboot : n.boot = s.m.boot := by
    rw [hn]
    exact s.m.atTick_boot
  have hok : n.bitOk n.now b.toNat n.pwr.io33 ↔ s.m.bitOk s.tick.m.now b.toNat io := by
    have hnow : n.now = s.tick.m.now := by
      rw [hn]
      rfl
    have hio : n.pwr.io33 = io := by rw [hn]
    rw [Mach.bitOk, Mach.bitOk, hboot, hnow, hio]
    simp only [Mach.get, hreg]
  have hnow : n.now = s.tick.m.now := by
    rw [hn]
    rfl
  rw [n.fuseBit_eq] at hexec
  have hregs : ∀ (f : Fld) (a : Nat), a ≠ f.addr → (Mach.put { n with boot := { n.boot with arm := none } } f 1).reg a = s.m.reg a :=
    fun f a ha => (Mach.reg_put_ne _ f 1 ha).trans (hreg a)
  have hbytes : ∀ (f : Fld) (a : Nat), (Mach.put { n with boot := { n.boot with arm := none } } f 1).byte a = s.m.byte a :=
    fun f a => (Mach.put_byte _ f 1 a).trans (hbyte a)
  by_cases h : s.m.bitOk s.tick.m.now b.toNat io
  · rw [if_pos ((n.fuseBit_ok_iff _).2 (hok.2 h))] at hexec
    have hbusy := Mach.get_put_self { n with boot := { n.boot with arm := none } } F.BOOT_FUSE_PGM_BUSY 1 (by decide) (by decide)
    have hreg := hregs F.BOOT_FUSE_PGM_BUSY
    have hbyte := hbytes F.BOOT_FUSE_PGM_BUSY
    generalize Mach.put { n with boot := { n.boot with arm := none } } F.BOOT_FUSE_PGM_BUSY 1 = x at hexec hbusy hreg hbyte
    exact ⟨_, hexec, rfl, hreg, ⟨hbyte, rfl, rfl, rfl⟩, fun _ => ⟨hbusy, by rw [← hnow]⟩, fun hno => absurd h hno⟩
  · rw [if_neg (fun hyes => h (hok.1 ((n.fuseBit_ok_iff _).1 hyes)))] at hexec
    refine ⟨_, hexec, by simp, fun a ha => ?_, ⟨fun a => ?_, rfl, rfl, rfl⟩, fun hyes => absurd hyes h, fun _ => ⟨?_, by simp [hboot]⟩⟩
    · exact hregs F.BOOT_FUSE_PGM_REJ a ha
    · exact hbytes F.BOOT_FUSE_PGM_REJ a
    · exact Mach.get_put_self { n with boot := { n.boot with arm := none } } F.BOOT_FUSE_PGM_REJ 1 (by decide) (by decide)

/-- The fuses with bit `b` blown, if there is such a fuse. -/
theorem getLsbD_or_bit (x : BitVec 259) (b : Nat) (i : Fin 259) : (x ||| (1#259) <<< b).getLsbD i = (decide (i.val = b) || x.getLsbD i) := by
  have hbit : ((1#259) <<< b).getLsbD i = decide (i.val = b) := by
    rw [BitVec.getLsbD_shiftLeft, BitVec.getLsbD_one]
    have hi := i.isLt
    by_cases h : i.val = b
    · subst h
      simp
    · simp [h]
      omega
  rw [BitVec.getLsbD_or, hbit, Bool.or_comm]

/-- The blow ends with its bit set, whether or not a warm reset holds the block (R173). -/
theorem does_fuseBlowDone {s : State} (hlive : s.m.live = true) {b t0 : Nat} (hblow : s.m.boot.blow = some (b, t0)) :
    Does .fuseBlowDone s (fun t => (∀ i : Fin 259, t.fuses.getLsbD i = (decide (i.val = b) || s.fuses.getLsbD i)) ∧ t.m.boot.blow = none ∧
      t.m.get F.BOOT_FUSE_PGM_BUSY = 0 ∧ t.nvArr = s.nvArr ∧ t.pending = s.pending ∧ SameMem s t ∧
      SameRegs (· = F.BOOT_FUSE_PGM_reg) s t) := by
  obtain ⟨hrun, -⟩ := s.m.live_iff.1 hlive
  obtain ⟨n, w, hrunTo⟩ := s.m.runTo_changes (t0 + 60000)
  have hdone : s.m.fuseDone = (some b, Mach.put { s.m.runTo (t0 + 60000) with
      boot := { s.m.boot with blow := none, laneArmed := s.m.boot.laneArmed && b != 258 } } F.BOOT_FUSE_PGM_BUSY 0) := by
    rw [Mach.fuseDone, hblow]
    simp only [hrun, if_true]
  have hexec : exec .fuseBlowDone s = .next { s with fuses := s.fuses ||| (1#259) <<< b, m := s.m.fuseDone.2 } := by
    change Host.Outcome.next { s with fuses := (match s.m.fuseDone.1 with | some b => s.fuses ||| (1#259) <<< b | none => s.fuses),
                                      m := s.m.fuseDone.2 } = _
    rw [hdone]
  have hbusy := Mach.get_put_self { s.m.runTo (t0 + 60000) with
    boot := { s.m.boot with blow := none, laneArmed := s.m.boot.laneArmed && b != 258 } } F.BOOT_FUSE_PGM_BUSY 0 (by decide) (by decide)
  rw [hdone, hrunTo] at hexec
  rw [hrunTo] at hbusy
  refine ⟨_, hexec, fun i => ?_, by simp, hbusy, rfl, rfl, fun a => Mach.put_byte _ _ _ _,
    fun a ha => Mach.reg_put_ne _ F.BOOT_FUSE_PGM_BUSY _ ha⟩
  rw [getLsbD_or_bit]

/-- Settles O35: the arm, the BIT write with its checks, and the blow. -/
theorem fuses : Obligations.Fuses := fun _ hlive =>
  ⟨does_fuseArm hlive, does_fuseBit hlive, fun _ _ => does_fuseBlowDone hlive⟩

end Sys2Proof.Machine
end

section
/-!
Settles what firmware writes to Halyard and Reef: STOPNOW, HOLD, EN, MEN and DIR, POSSET, the head assignment and CLRCNT (R138, R587,
R595, R601, R631-R635, R651).
-/

namespace Sys2Proof

/-! ## Fields of one register -/

theorem testBit_setBits_of_ge (v hi lo x : Nat) {i : Nat} (hle : lo ≤ hi) (h : hi < i) : (setBits v hi lo x).testBit i = v.testBit i := by
  have hwidth : 2 ^ (hi + 1 - lo) * 2 ^ lo = 2 ^ (hi + 1) := by rw [← Nat.pow_add]; congr 1; omega
  have hfield : bits v hi lo < 2 ^ (hi + 1 - lo) := Nat.mod_lt _ (Nat.two_pow_pos _)
  have hnew : x % 2 ^ (hi + 1 - lo) < 2 ^ (hi + 1 - lo) := Nat.mod_lt _ (Nat.two_pow_pos _)
  have hlow : v % 2 ^ (hi + 1) = v % 2 ^ lo + bits v hi lo * 2 ^ lo := by
    rw [bits, Nat.shiftRight_eq_div_pow, ← hwidth, mul_comm (2 ^ (hi + 1 - lo)), Nat.mod_mul, mul_comm (2 ^ lo)]
  have hsplit := Nat.mod_add_div v (2 ^ (hi + 1))
  have hlo : v % 2 ^ lo < 2 ^ lo := Nat.mod_lt _ (Nat.two_pow_pos _)
  have hfits : v % 2 ^ lo + x % 2 ^ (hi + 1 - lo) * 2 ^ lo < 2 ^ (hi + 1) := by
    calc v % 2 ^ lo + x % 2 ^ (hi + 1 - lo) * 2 ^ lo < 2 ^ lo + x % 2 ^ (hi + 1 - lo) * 2 ^ lo := by omega
      _ = (x % 2 ^ (hi + 1 - lo) + 1) * 2 ^ lo := by rw [Nat.add_mul, Nat.one_mul, Nat.add_comm]
      _ ≤ 2 ^ (hi + 1 - lo) * 2 ^ lo := Nat.mul_le_mul_right _ hnew
      _ = 2 ^ (hi + 1) := hwidth
  have heq : setBits v hi lo x = v % 2 ^ lo + x % 2 ^ (hi + 1 - lo) * 2 ^ lo + 2 ^ (hi + 1) * (v / 2 ^ (hi + 1)) := by
    rw [setBits]
    omega
  have hdiv : setBits v hi lo x / 2 ^ (hi + 1) = v / 2 ^ (hi + 1) := by
    rw [heq, Nat.add_mul_div_left _ _ (Nat.two_pow_pos _), Nat.div_eq_of_lt hfits, Nat.zero_add]
  obtain ⟨k, rfl⟩ : ∃ k, i = hi + 1 + k := ⟨i - (hi + 1), by omega⟩
  have hbit := congrArg (fun n => n.testBit k) hdiv
  simp only [Nat.testBit_div_two_pow] at hbit
  rwa [Nat.add_comm k] at hbit

theorem bits_setBits_of_gt (v hi lo x : Nat) {lo' : Nat} (hi' : Nat) (hle : lo ≤ hi) (h : hi < lo') :
    bits (setBits v hi lo x) hi' lo' = bits v hi' lo' := by
  refine Nat.eq_of_testBit_eq fun i => ?_
  rw [testBit_bits, testBit_bits, testBit_setBits_of_ge v _ lo x hle (by omega)]

theorem setBits_bits (v hi lo : Nat) : setBits v hi lo (bits v hi lo) = v := by
  have hmod : bits v hi lo % 2 ^ (hi + 1 - lo) = bits v hi lo := Nat.mod_mod _ _
  have hle := bits_mul_le v hi lo
  rw [setBits, hmod]
  omega

end Sys2Proof

namespace Sys2Proof.Machine

/-- A put leaves the fields of the same register above its own alone. -/
theorem Mach.get_put_of_gt (m : Mach) (f g : Fld) (v : Nat) (hreg : g.addr = f.addr) (hlt : f.hi < g.lo)
    (hle : f.lo ≤ f.hi) (h32 : f.hi < 32) : (m.put f v).get g = m.get g := by
  have hbound := setBits_lt 32 (m.reg f.addr).toNat f.hi f.lo v (m.reg f.addr).isLt hle h32
  simp only [Mach.get, Mach.put, Mach.noteFlags_reg, hreg, Mach.reg_setReg_self, BitVec.toNat_ofNat]
  rw [Nat.mod_eq_of_lt hbound, bits_setBits_of_gt _ _ _ _ _ hle hlt]

/-- A field written with what it holds leaves every register as it was. -/
theorem Mach.reg_put_get (m : Mach) (f : Fld) (a : Nat) : (m.put f (m.get f)).reg a = m.reg a := by
  by_cases h : a = f.addr
  · rw [h, Mach.put, Mach.noteFlags_reg, Mach.reg_setReg_self, Mach.get, setBits_bits, BitVec.ofNat_toNat, BitVec.setWidth_eq]
  · exact m.reg_put_ne f _ h

/-- A flag as a Boolean and as a number (R15). -/
theorem Mach.b2n_is (m : Mach) (f : Fld) (h : f.hi = f.lo) : b2n (m.is f) = m.get f := by
  have hlt := m.get_lt f
  rw [h, Nat.add_sub_cancel_left, Nat.pow_one] at hlt
  obtain hzero | hone : m.get f = 0 ∨ m.get f = 1 := by omega
  · simp [Mach.is, hzero, b2n]
  · simp [Mach.is, hone, b2n]

theorem Mach.is_of_ne_one (m : Mach) (f : Fld) (hbit : f.hi = f.lo) (h : m.get f ≠ 1) : m.is f = false := by
  have hlt := m.get_lt f
  rw [hbit, Nat.add_sub_cancel_left, Nat.pow_one] at hlt
  have hzero : m.get f = 0 := by omega
  rw [Mach.is, hzero]
  rfl

/-! ## A pulse after a change elsewhere -/

theorem Mach.pulse_tickNo (m : Mach) (c : Fin 8) (e : Nat) : (m.pulse c e).tickNo = m.tickNo := by
  obtain ⟨r, x, b, h⟩ := ((Mach.CoresOnly.refl m).pulse c e).same
  rw [h]
  rfl

/-- The pending bit of a line once a pulse has set the bit that its line now needs (R213). -/
theorem Mach.pend_putBit_event (m : Mach) (c : Fin 8) {e : Nat} (he : e < 32) :
    (m.putBit (m.eventField c e) e).get (F.C_EVT_PEND_PEND c) = m.get (F.C_EVT_PEND_PEND c) ||| 2 ^ e := by
  unfold Mach.eventField
  split
  · next hpend =>
    rw [Mach.get_putBit_ne _ _ _ _ (pend_ne_ovf c)]
    exact (or_two_pow_of_testBit hpend).symm
  · exact Mach.get_putBit_self _ _ (by decide : 0 ≤ 31) (by decide : 31 < 32) he

theorem Mach.waitTake_reg_ne (m : Mach) (c : Fin 8) (e : Nat) {a : Nat} (ha : a ≠ F.C_STAT_reg c) : (m.waitTake c e).reg a = m.reg a := by
  unfold Mach.waitTake
  extract_lets x rd next n
  have hn : n.reg a = m.reg a := m.reg_put_ne (F.C_STAT_STATE c) 1 ha
  split <;> exact hn

theorem Mach.wake_reg_ne (m : Mach) (c : Fin 8) {a : Nat} (ha : ¬ eventRegs c a) : (m.wake c).reg a = m.reg a := by
  unfold Mach.wake
  extract_lets x late
  split
  · split
    · rw [Mach.waitWoken, Mach.waitTake_reg_ne _ c _ (fun h => ha (Or.inl h)),
        Mach.reg_clear_ne _ (F.C_EVT_PEND_PEND c) _ (fun h => ha (Or.inr (Or.inl h)))]
      split <;> rfl
    · rfl
  · rfl

/-- A pulse leaves every register but the event registers of its core. -/
theorem Mach.pulse_reg_ne (m : Mach) (c : Fin 8) (e : Nat) {a : Nat} (ha : ¬ eventRegs c a) : (m.pulse c e).reg a = m.reg a := by
  unfold Mach.pulse
  extract_lets x bit again ovf n
  split
  · rfl
  · rw [Mach.wake_reg_ne _ c ha, Mach.reg_putBit_ne]
    · rfl
    · split
      · exact fun h => ha (Or.inr (Or.inr h))
      · exact fun h => ha (Or.inr (Or.inl h))

theorem not_eventRegs_of_lt {c a : Nat} (h : a < 0x400000) : ¬ eventRegs c a := by
  simp only [eventRegs, F.C_STAT_reg, F.C_EVT_PEND_reg, F.C_EVT_OVF_reg]
  omega

/-- What a pulse changes beside registers: the cores and what the beat notes. -/
theorem Mach.pulse_changes (m : Mach) (c : Fin 8) (e : Nat) : ∃ r x b, m.pulse c e = { m with regs := r, cores := x, beat := b } :=
  ((Mach.CoresOnly.refl m).pulse c e).same

theorem inTick_lateAt (x : CoreSt) (t : Nat) : (x.inTick t).lateAt = x.lateAt := by
  unfold CoreSt.inTick
  split <;> rfl

/-- Line `e` of core `c`, which does not wait, has not pulsed in this tick yet (R213, R216). -/
structure Mach.Rests (m : Mach) (c : Fin 8) (e : Nat) : Prop where
  state : m.get (F.C_STAT_STATE c) ≠ 2
  late : (m.core c).lateAt ≠ some m.tickNo
  unset : ((m.core c).inTick m.tickNo).evSet.getLsbD e = false
  up : m.inReset = false ∧ m.pwr.thermal = false

/-- Line `e` of core `c`, which does not wait, is pending. -/
structure Mach.Rung (m : Mach) (c : Fin 8) (e : Nat) : Prop where
  state : m.get (F.C_STAT_STATE c) ≠ 2
  late : (m.core c).lateAt ≠ some m.tickNo
  pend : (m.get (F.C_EVT_PEND_PEND c)).testBit e = true

/-- What core `c` shows of its lines, and whether the unit is up, are the same in `m` and `n`. -/
structure Mach.SameLines (m n : Mach) (c : Fin 8) : Prop where
  core : n.core c = m.core c
  tick : n.tickNo = m.tickNo
  state : n.reg (F.C_STAT_STATE c).addr = m.reg (F.C_STAT_STATE c).addr
  pend : n.reg (F.C_EVT_PEND_PEND c).addr = m.reg (F.C_EVT_PEND_PEND c).addr
  up : n.inReset = m.inReset ∧ n.pwr.thermal = m.pwr.thermal

theorem Mach.SameLines.refl (m : Mach) (c : Fin 8) : m.SameLines m c := ⟨rfl, rfl, rfl, rfl, rfl, rfl⟩

theorem Mach.SameLines.trans {m n k : Mach} {c : Fin 8} (h : m.SameLines n c) (h' : n.SameLines k c) : m.SameLines k c :=
  ⟨h'.core.trans h.core, h'.tick.trans h.tick, h'.state.trans h.state, h'.pend.trans h.pend, h'.up.1.trans h.up.1, h'.up.2.trans h.up.2⟩

theorem Mach.SameLines.rests {m n : Mach} {c : Fin 8} {e : Nat} (h : m.SameLines n c) (hm : m.Rests c e) : n.Rests c e where
  state := by
    rw [Mach.get, h.state]
    exact hm.state
  late := by
    rw [h.core, h.tick]
    exact hm.late
  unset := by
    rw [h.core, h.tick]
    exact hm.unset
  up := ⟨h.up.1.trans hm.up.1, h.up.2.trans hm.up.2⟩

theorem Mach.SameLines.rung {m n : Mach} {c : Fin 8} {e : Nat} (h : m.SameLines n c) (hm : m.Rung c e) : n.Rung c e where
  state := by
    rw [Mach.get, h.state]
    exact hm.state
  late := by
    rw [h.core, h.tick]
    exact hm.late
  pend := by
    rw [Mach.get, h.pend]
    exact hm.pend

theorem Mach.sameLines_put (m : Mach) (f : Fld) (v : Nat) (c : Fin 8) (hf : f.addr < 0x400000) : m.SameLines (m.put f v) c where
  core := by simp [Mach.core]
  tick := by simp [Mach.tickNo, Mach.now]
  state := m.reg_put_ne f v (by simp only [F.C_STAT_STATE, F.C_STAT_reg]; omega)
  pend := m.reg_put_ne f v (by simp only [F.C_EVT_PEND_PEND, F.C_EVT_PEND_reg]; omega)
  up := by simp [Mach.inReset]

/-- A line that pulses for the first time in a tick, of a core that does not wait. -/
theorem Mach.pulse_of_unset (m : Mach) (c : Fin 8) (e : Nat) (hstate : m.get (F.C_STAT_STATE c) ≠ 2)
    (hlate : (m.core c).lateAt ≠ some m.tickNo) (hup : m.inReset = false ∧ m.pwr.thermal = false)
    (hunset : ((m.core c).inTick m.tickNo).evSet.getLsbD e = false) : ∃ o, m.pulse c e =
      (m.setCore c { (m.core c).inTick m.tickNo with
        evSet := ((m.core c).inTick m.tickNo).evSet ||| 1#32 <<< e, evOvf := o }).putBit (m.eventField c e) e := by
  unfold Mach.pulse
  extract_lets x bit again ovf n
  have hx : x.evSet.getLsbD e = false := hunset
  rw [hup.1, hup.2, hx, if_neg (by decide)]
  refine ⟨if ovf then x.evOvf ||| bit else x.evOvf, Mach.wake_of_awake _ c ?_ ?_⟩
  · rw [Mach.get_putBit_ne _ _ _ _ (m.stat_ne_eventField c e)]
    exact hstate
  · rw [Mach.core, Mach.putBit_cores, Mach.putBit_tickNo]
    change (n.core c).lateAt ≠ some m.tickNo
    rw [Mach.core_setCore_self]
    exact fun h => hlate ((inTick_lateAt _ _).symm.trans h)

/-- Once it has pulsed in the tick, a line adds nothing. -/
theorem Mach.pulse_of_set (m : Mach) (c : Fin 8) (e : Nat) (h : ((m.core c).inTick m.tickNo).evSet.getLsbD e = true) :
    m.pulse c e = m := by
  simp [Mach.pulse, h]

theorem Mach.Rests.pulsed {m : Mach} {c : Fin 8} {e : Nat} (h : m.Rests c e) (he : e < 32) : (m.pulse c e).Rung c e := by
  obtain ⟨o, hpulse⟩ := m.pulse_of_unset c e h.state h.late h.up h.unset
  rw [hpulse]
  obtain ⟨x, hx⟩ : ∃ x : CoreSt, x = { (m.core c).inTick m.tickNo with
    evSet := ((m.core c).inTick m.tickNo).evSet ||| 1#32 <<< e, evOvf := o } := ⟨_, rfl⟩
  have hlate : x.lateAt = (m.core c).lateAt := by
    rw [hx]
    exact inTick_lateAt _ _
  rw [← hx]
  refine ⟨?_, ?_, ?_⟩
  · rw [Mach.get_putBit_ne _ _ _ _ (m.stat_ne_eventField c e)]
    exact h.state
  · rw [Mach.core, Mach.putBit_cores, Mach.putBit_tickNo]
    change ((m.setCore c x).core c).lateAt ≠ some m.tickNo
    rw [Mach.core_setCore_self, hlate]
    exact h.late
  · change (((m.setCore c x).putBit ((m.setCore c x).eventField c e) e).get (F.C_EVT_PEND_PEND c)).testBit e = true
    rw [Mach.pend_putBit_event _ c he, Nat.testBit_or, Nat.testBit_two_pow_self, Bool.or_true]

theorem sameLines_pulse_ne (m : Mach) {c d : Fin 8} (e : Nat) (h : d ≠ c) : m.SameLines (m.pulse d e) c where
  core := m.pulse_core_ne e h.symm
  tick := m.pulse_tickNo d e
  state := m.pulse_reg_ne d e (by
    have : d.val ≠ c.val := fun he => h (Fin.ext he)
    simp only [eventRegs, F.C_STAT_STATE, F.C_STAT_reg, F.C_EVT_PEND_reg, F.C_EVT_OVF_reg]
    omega)
  pend := m.pulse_reg_ne d e (by
    have : d.val ≠ c.val := fun he => h (Fin.ext he)
    simp only [eventRegs, F.C_EVT_PEND_PEND, F.C_STAT_reg, F.C_EVT_PEND_reg, F.C_EVT_OVF_reg]
    omega)
  up := by
    obtain ⟨r, x, b, h⟩ := m.pulse_changes d e
    rw [h]
    exact ⟨rfl, rfl⟩

theorem getLsbD_or_bit_ne (x : BitVec 32) {e k : Nat} (h : k ≠ e) : (x ||| 1#32 <<< e).getLsbD k = x.getLsbD k := by
  have hbit : (1#32 <<< e).getLsbD k = false := by
    simp [BitVec.getLsbD_shiftLeft, BitVec.getLsbD_one]
    omega
  rw [BitVec.getLsbD_or, hbit, Bool.or_false]

/-- A pulse of another line leaves a line that has not pulsed so. -/
theorem Mach.Rests.pulse_other {m : Mach} {c d : Fin 8} {e k : Nat} (h : m.Rests c e) (hne : d ≠ c ∨ k ≠ e) : (m.pulse d k).Rests c e := by
  by_cases hd : d = c
  · subst hd
    have hk : e ≠ k := (hne.resolve_left (fun h => h rfl)).symm
    cases hset : ((m.core d).inTick m.tickNo).evSet.getLsbD k
    · obtain ⟨o, hpulse⟩ := m.pulse_of_unset d k h.state h.late h.up hset
      rw [hpulse]
      obtain ⟨x, hx⟩ : ∃ x : CoreSt, x = { (m.core d).inTick m.tickNo with
        evSet := ((m.core d).inTick m.tickNo).evSet ||| 1#32 <<< k, evOvf := o } := ⟨_, rfl⟩
      have hin : x.inTick m.tickNo = x := by
        rw [hx]
        refine if_pos ?_
        unfold CoreSt.inTick
        split
        · next hat => exact hat
        · rfl
      have hcore : ((m.setCore d x).putBit (m.eventField d k) k).core d = x := by
        rw [Mach.core, Mach.putBit_cores]
        exact m.core_setCore_self d x
      have hlate : x.lateAt = (m.core d).lateAt := by
        rw [hx]
        exact inTick_lateAt _ _
      rw [← hx]
      refine ⟨?_, ?_, ?_, ?_⟩
      · rw [Mach.get_putBit_ne _ _ _ _ (m.stat_ne_eventField d k)]
        exact h.state
      · rw [hcore, Mach.putBit_tickNo, hlate]
        exact h.late
      · rw [hcore, Mach.putBit_tickNo]
        change (x.inTick m.tickNo).evSet.getLsbD e = false
        rw [hin, hx]
        exact (getLsbD_or_bit_ne _ hk).trans h.unset
      · obtain ⟨r, b, hput⟩ := (m.setCore d x).putBit_changes (m.eventField d k) k
        rw [hput]
        exact h.up
    · rw [m.pulse_of_set d k hset]
      exact h
  · exact (sameLines_pulse_ne m k hd).rests h

/-- No pulse takes a pending line from a core that does not wait. -/
theorem Mach.Rung.pulse {m : Mach} {c : Fin 8} {e : Nat} (h : m.Rung c e) (d : Fin 8) (k : Nat) (hup : m.inReset = false ∧ m.pwr.thermal = false)
    (hk : k < 32) : (m.pulse d k).Rung c e := by
  by_cases hd : d = c
  · subst hd
    cases hset : ((m.core d).inTick m.tickNo).evSet.getLsbD k
    · obtain ⟨o, hpulse⟩ := m.pulse_of_unset d k h.state h.late hup hset
      have hrung := (Mach.Rests.mk h.state h.late hset hup).pulsed hk
      refine ⟨hrung.state, hrung.late, ?_⟩
      rw [hpulse]
      obtain ⟨x, hx⟩ : ∃ x : CoreSt, x = { (m.core d).inTick m.tickNo with
        evSet := ((m.core d).inTick m.tickNo).evSet ||| 1#32 <<< k, evOvf := o } := ⟨_, rfl⟩
      rw [← hx]
      change (((m.setCore d x).putBit ((m.setCore d x).eventField d k) k).get (F.C_EVT_PEND_PEND d)).testBit e = true
      rw [Mach.pend_putBit_event _ d hk, Nat.testBit_or, Bool.or_eq_true]
      exact Or.inl h.pend
    · rw [m.pulse_of_set d k hset]
      exact h
  · exact (sameLines_pulse_ne m k hd).rung h

/-- A line has pulsed when it is pending at the end wherever it had not pulsed, on a core that did not wait, at the start. -/
theorem pulsed_of_rung {s t : State} {m : Mach} {c : Fin 8} {e : Nat} (hcore : m.core c = s.m.core c)
    (hstate : m.get (F.C_STAT_STATE c) = s.m.get (F.C_STAT_STATE c)) (htick : t.m.tickNo = m.tickNo)
    (hup : m.inReset = false ∧ m.pwr.thermal = false) (h : m.Rests c e → t.m.Rung c e) : Pulsed s t c e := by
  intro hawake hlate hset htime
  obtain ⟨x, hx⟩ : ∃ x, x = s.m.cores[c] := ⟨_, rfl⟩
  have hcore' : m.core c = x := hcore.trans hx.symm
  rw [← hx] at hset htime
  rw [htick] at hlate
  refine (h ⟨fun he => hawake (hstate.symm.trans he), fun he => ?_, ?_, hup⟩).pend
  · rw [hcore'] at he
    have := htime _ he
    omega
  · unfold CoreSt.inTick
    rw [hcore']
    split
    · next hat =>
      by_contra hyes
      have := hset (by simpa using hyes)
      omega
    · simp

/-- A line of a core whose event registers still stand as before has pulsed. -/
theorem pulsed_of_pulse {s t : State} {m : Mach} {c : Fin 8} {e : Nat} (ht : t.m = m.pulse c e) (he : e < 32) (hcore : m.core c = s.m.core c)
    (hstate : m.get (F.C_STAT_STATE c) = s.m.get (F.C_STAT_STATE c)) (hreset : m.inReset = false) (hthermal : m.pwr.thermal = false) :
    Pulsed s t c e :=
  pulsed_of_rung hcore hstate (by rw [ht, Mach.pulse_tickNo]) ⟨hreset, hthermal⟩ fun h => by
    rw [ht]
    exact h.pulsed he

/-! ## Frames by registers -/

/-- `n` holds what `m` holds in every register outside `p` and in every byte of memory. -/
def Mach.Within (p : Nat → Prop) (m n : Mach) : Prop := (∀ a, ¬ p a → n.reg a = m.reg a) ∧ ∀ a, n.byte a = m.byte a

theorem Mach.Within.refl (p : Nat → Prop) (m : Mach) : m.Within p m := ⟨fun _ _ => rfl, fun _ => rfl⟩

theorem Mach.Within.trans {p : Nat → Prop} {m n k : Mach} (h : m.Within p n) (h' : n.Within p k) : m.Within p k :=
  ⟨fun a ha => (h'.1 a ha).trans (h.1 a ha), fun a => (h'.2 a).trans (h.2 a)⟩

theorem Mach.Within.mono {p q : Nat → Prop} {m n : Mach} (h : m.Within p n) (hpq : ∀ a, p a → q a) : m.Within q n :=
  ⟨fun a ha => h.1 a (fun hp => ha (hpq a hp)), h.2⟩

/-- A change of what is neither a register nor a byte. -/
theorem Mach.Within.other {p : Nat → Prop} {m n k : Mach} (h : m.Within p n) (hregs : k.regs = n.regs) (hmem : k.mem = n.mem) :
    m.Within p k := by
  refine h.trans ⟨fun a _ => ?_, fun a => ?_⟩
  · rw [Mach.reg, hregs]
    rfl
  · rw [Mach.byte, hmem]
    rfl

theorem Mach.Within.put {p : Nat → Prop} {m n : Mach} (h : m.Within p n) (f : Fld) (v : Nat) (hf : p f.addr) : m.Within p (n.put f v) :=
  h.trans ⟨fun _ ha => n.reg_put_ne f v (fun he => ha (he ▸ hf)), fun a => n.put_byte f v a⟩

theorem Mach.Within.putBit {p : Nat → Prop} {m n : Mach} (h : m.Within p n) (f : Fld) (i : Nat) (hf : p f.addr) :
    m.Within p (n.putBit f i) := by
  refine h.trans ⟨fun _ ha => n.reg_putBit_ne f i (fun he => ha (he ▸ hf)), fun a => ?_⟩
  obtain ⟨r, b, h⟩ := n.putBit_changes f i
  rw [h]
  rfl

theorem Mach.Within.pulse {p : Nat → Prop} {m n : Mach} (h : m.Within p n) (c : Fin 8) (e : Nat) (hp : ∀ a, eventRegs c a → p a) :
    m.Within p (n.pulse c e) := by
  refine h.trans ⟨fun _ ha => n.pulse_reg_ne c e (fun he => ha (hp _ he)), fun a => ?_⟩
  obtain ⟨r, x, b, h⟩ := n.pulse_changes c e
  rw [h]
  rfl

theorem Mach.within_atTick (p : Nat → Prop) (m : Mach) : m.Within p m.atTick := ⟨fun a _ => m.atTick_reg a, m.atTick_byte⟩

theorem Mach.Within.get {p : Nat → Prop} {m n : Mach} (h : m.Within p n) (f : Fld) (hf : ¬ p f.addr) : n.get f = m.get f := by
  rw [Mach.get, h.1 _ hf]
  rfl

theorem Mach.Within.sameRegs {p : Nat → Prop} {s : State} {n : Mach} (h : s.m.Within p n) : SameRegs p s { s with m := n } := h.1

theorem Mach.Within.keeps {p : Nat → Prop} {s : State} {n : Mach} (h : s.m.Within p n) : Keeps s { s with m := n } :=
  ⟨h.2, rfl, rfl, rfl⟩

/-- `n` differs from `m` in registers, the count and what the beat notes only. -/
def Mach.RegsOnly (m n : Mach) : Prop := n = m.regsFrom n

theorem Mach.RegsOnly.trans {m n k : Mach} (h : m.RegsOnly n) (h' : n.RegsOnly k) : m.RegsOnly k := by
  rw [Mach.RegsOnly] at h'
  rw [Mach.RegsOnly, h', h]
  rfl

theorem Mach.regsOnly_atTick (m : Mach) : m.RegsOnly m.atTick := by
  obtain ⟨n, w, h⟩ := m.runTo_changes (nextGrid 4 m.now)
  rw [Mach.atTick, h]
  rfl

theorem Mach.RegsOnly.put {m n : Mach} (h : m.RegsOnly n) (f : Fld) (v : Nat) : m.RegsOnly (n.put f v) := by
  refine h.trans ?_
  unfold Mach.put Mach.noteFlags
  split <;> rfl

theorem Mach.RegsOnly.putBit {m n : Mach} (h : m.RegsOnly n) (f : Fld) (i : Nat) : m.RegsOnly (n.putBit f i) := by
  refine h.trans ?_
  unfold Mach.putBit Mach.noteFlags
  split <;> rfl

theorem Mach.RegsOnly.onlyRegs {s : State} {n : Mach} (h : s.m.RegsOnly n) : OnlyRegs s { s with m := n } :=
  congrArg (fun k => ({ s with m := k } : State)) h

/-! ## What a write to an axis may change -/

/-- `n` differs from `m` in registers, the count, what the beat notes, the pins and the axes only. -/
def Mach.AxisOnly (m n : Mach) : Prop :=
  n = { m with regs := n.regs, sysTime := n.sysTime, wraps := n.wraps, beat := n.beat, out := n.out, axes := n.axes }

theorem Mach.AxisOnly.refl (m : Mach) : m.AxisOnly m := rfl

theorem Mach.AxisOnly.trans {m n k : Mach} (h : m.AxisOnly n) (h' : n.AxisOnly k) : m.AxisOnly k := by
  rw [Mach.AxisOnly] at h'
  rw [Mach.AxisOnly, h', h]

theorem Mach.axisOnly_atTick (m : Mach) : m.AxisOnly m.atTick := by
  obtain ⟨n, w, h⟩ := m.runTo_changes (nextGrid 4 m.now)
  rw [Mach.atTick, h]
  rfl

theorem Mach.axisOnly_put (m : Mach) (f : Fld) (v : Nat) : m.AxisOnly (m.put f v) := by
  unfold Mach.put Mach.noteFlags
  split <;> rfl

theorem Mach.axisOnly_putBit (m : Mach) (f : Fld) (i : Nat) : m.AxisOnly (m.putBit f i) := by
  unfold Mach.putBit Mach.noteFlags
  split <;> rfl

theorem Mach.axisOnly_setAxis (m : Mach) (a : Fin 2) (x : AxisSt) : m.AxisOnly (m.setAxis a x) := rfl

theorem Mach.AxisOnly.frame {s : State} {n : Mach} (h : s.m.AxisOnly n) :
    ({ s with m := n } : State) = { s with m := { s.m.regsFrom n with out := n.out, axes := n.axes } } := by
  rw [Mach.AxisOnly] at h
  conv_lhs => rw [h]
  rfl

theorem Mach.AxisOnly.byte {m n : Mach} (h : m.AxisOnly n) (a : Nat) : n.byte a = m.byte a := by
  rw [Mach.AxisOnly] at h
  rw [h]
  rfl

theorem Mach.AxisOnly.keeps {s : State} {n : Mach} (h : s.m.AxisOnly n) : Keeps s { s with m := n } :=
  ⟨fun a => h.byte a, rfl, rfl, rfl⟩

/-! ## The pins -/

/-- One pin's bit of a pair of pins, written. -/
def pinBit (v : BitVec 2) (a : Fin 2) (x : Nat) : BitVec 2 := BitVec.ofNat 2 (setBits v.toNat a a x)

theorem pinBit_self (v : BitVec 2) (a : Fin 2) (b : Bool) : (pinBit v a (b2n b)).getLsbD a = b := by
  revert v a b
  decide

theorem pinBit_ne (v : BitVec 2) {a c : Fin 2} (x : Nat) (hx : x < 2) (h : c ≠ a) : (pinBit v a x).getLsbD c = v.getLsbD c := by
  revert v a c x
  decide

theorem b2n_lt (b : Bool) : b2n b < 2 := by cases b <;> decide

/-- The pins that a write of CTL drives, with their keepers released (R138, R587). -/
def Mach.driven (m : Mach) (a : Fin 2) (men dir : Bool) : Outs :=
  { m.out with men := pinBit m.out.men a (b2n men), dir := pinBit m.out.dir a (m.dirLevel a dir),
               keepMen := pinBit m.out.keepMen a 0, keepDir := pinBit m.out.keepDir a 0,
               lowMen := pinBit m.out.lowMen a 0, lowDir := pinBit m.out.lowDir a 0 }

/-- The direction that the axis has shown, forgotten once a keeper of DIR is released (R587). -/
def Mach.freedDir (m : Mach) (a : Fin 2) : Option Bool :=
  if m.out.keepDir.getLsbD a || m.out.lowDir.getLsbD a then none else (m.axis a).dirFwd

/-- CTL with MEN and DIR written. -/
def Mach.ctlPut (m : Mach) (a : Fin 2) (men dir : Bool) : Mach :=
  (m.put (F.HAL_AX_CTL_MEN a) (b2n men)).put (F.HAL_AX_CTL_DIR a) (b2n dir)

theorem Mach.ctlPut_out (m : Mach) (a : Fin 2) (men dir : Bool) : (m.ctlPut a men dir).out = m.out := by simp [Mach.ctlPut]

theorem Mach.ctlPut_axes (m : Mach) (a : Fin 2) (men dir : Bool) : (m.ctlPut a men dir).axes = m.axes := by simp [Mach.ctlPut]

theorem Mach.ctlPut_reg_ne (m : Mach) (a : Fin 2) (men dir : Bool) {n : Nat} (h : n ≠ F.HAL_AX_CTL_reg a) :
    (m.ctlPut a men dir).reg n = m.reg n := by
  rw [Mach.ctlPut, Mach.reg_put_ne _ (F.HAL_AX_CTL_DIR a) _ h, Mach.reg_put_ne _ (F.HAL_AX_CTL_MEN a) _ h]

theorem safe_ne_ctl (a : Fin 2) : F.SHR_STATUS_reg ≠ F.HAL_AX_CTL_reg a := by
  simp only [F.SHR_STATUS_reg, F.HAL_AX_CTL_reg]
  omega

theorem Mach.ctlPut_safe (m : Mach) (a : Fin 2) (men dir : Bool) : (m.ctlPut a men dir).get F.SHR_STATUS_SAFE = m.get F.SHR_STATUS_SAFE := by
  rw [Mach.get, m.ctlPut_reg_ne a men dir (n := F.SHR_STATUS_SAFE.addr) (safe_ne_ctl a)]
  rfl

/-- A write of CTL in the safe state leaves the pins; otherwise it drives them (R138). -/
theorem Mach.menDir_eq (m : Mach) (a : Fin 2) (men dir : Bool) : m.menDir a men dir =
    if m.is F.SHR_STATUS_SAFE then m.ctlPut a men dir
    else Mach.setAxis { m.ctlPut a men dir with out := m.driven a men dir } a { m.axis a with dirFwd := m.freedDir a } := by
  have hsafe : (m.ctlPut a men dir).is F.SHR_STATUS_SAFE = m.is F.SHR_STATUS_SAFE := by rw [Mach.is, Mach.ctlPut_safe]; rfl
  have haxis : (m.ctlPut a men dir).axis a = m.axis a := by rw [Mach.axis, Mach.ctlPut_axes]; rfl
  have hdir : (m.ctlPut a men dir).dirLevel a dir = m.dirLevel a dir := by
    unfold Mach.dirLevel
    rw [haxis, Mach.ctlPut_out]
  have hout := m.ctlPut_out a men dir
  unfold Mach.menDir
  extract_lets n
  have hn : n = m.ctlPut a men dir := rfl
  clear_value n
  subst hn
  simp only [hsafe, hdir, hout]
  rfl

theorem Mach.axisOnly_menDir (m : Mach) (a : Fin 2) (men dir : Bool) : m.AxisOnly (m.menDir a men dir) := by
  have hput : m.AxisOnly (m.ctlPut a men dir) := (m.axisOnly_put _ _).trans (Mach.axisOnly_put _ _ _)
  rw [Mach.menDir_eq]
  split
  · exact hput
  · exact hput.trans rfl

theorem Mach.menDir_reg (m : Mach) (a : Fin 2) (men dir : Bool) (n : Nat) : (m.menDir a men dir).reg n = (m.ctlPut a men dir).reg n := by
  rw [Mach.menDir_eq]
  split <;> rfl

theorem Mach.atTick_is (m : Mach) (f : Fld) : m.atTick.is f = m.is f := by rw [Mach.is, Mach.atTick_get]; rfl

/-- What a write of CTL makes of the pins and the axes does not hang on the count. -/
theorem Mach.atTick_menDir (m : Mach) (a : Fin 2) (men dir : Bool) :
    (m.atTick.menDir a men dir).out = (m.menDir a men dir).out ∧ (m.atTick.menDir a men dir).axes = (m.menDir a men dir).axes := by
  obtain ⟨n, w, h⟩ := m.runTo_changes (nextGrid 4 m.now)
  rw [Mach.menDir_eq, Mach.menDir_eq, Mach.atTick_is]
  split
  · rw [Mach.ctlPut_out, Mach.ctlPut_out, Mach.ctlPut_axes, Mach.ctlPut_axes, Mach.atTick, h]
    exact ⟨rfl, rfl⟩
  · rw [Mach.atTick, h]
    refine ⟨rfl, ?_⟩
    simp only [Mach.setAxis, Mach.ctlPut_axes]
    rfl


/-! ## A write of another field of CTL -/

theorem Mach.ctlTouch_reg (m : Mach) (a : Fin 2) (n : Nat) : (m.ctlTouch a).reg n = m.reg n := by
  have hdir : (m.put (F.HAL_AX_CTL_MEN a) (m.get (F.HAL_AX_CTL_MEN a))).get (F.HAL_AX_CTL_DIR a) = m.get (F.HAL_AX_CTL_DIR a) := by
    rw [Mach.get, Mach.reg_put_get]
    rfl
  rw [Mach.ctlTouch, Mach.menDir_reg, Mach.ctlPut, m.b2n_is _ rfl, m.b2n_is _ rfl, ← hdir, Mach.reg_put_get, Mach.reg_put_get]

/-- `n` is the machine once a write of CTL has driven the pins at its tick: no register has changed, and of the axis only the
direction that it shows. -/
structure Mach.Touched (m : Mach) (a : Fin 2) (n : Mach) : Prop where
  only : m.AxisOnly n
  reg : ∀ k, n.reg k = m.reg k
  axis : n.axis a = (m.ctlTouch a).axis a
  dir : ∃ d, n.axis a = { m.axis a with dirFwd := d }
  out : n.out = (m.ctlTouch a).out

theorem Mach.touched (m : Mach) (a : Fin 2) : m.Touched a (m.atTick.ctlTouch a) := by
  have htime := m.atTick_menDir a (m.is (F.HAL_AX_CTL_MEN a)) (m.is (F.HAL_AX_CTL_DIR a))
  have htouch : m.atTick.ctlTouch a = m.atTick.menDir a (m.is (F.HAL_AX_CTL_MEN a)) (m.is (F.HAL_AX_CTL_DIR a)) := by
    rw [Mach.ctlTouch, Mach.atTick_is, Mach.atTick_is]
  have haxis : (m.atTick.ctlTouch a).axis a = (m.ctlTouch a).axis a := by
    rw [htouch, Mach.axis, htime.2]
    rfl
  refine ⟨m.axisOnly_atTick.trans (Mach.axisOnly_menDir _ _ _ _), fun k => ?_, haxis, ?_, ?_⟩
  · rw [Mach.ctlTouch_reg, Mach.atTick_reg]
  · rw [haxis, Mach.ctlTouch, Mach.menDir_eq]
    split
    · exact ⟨_, by rw [Mach.axis, Mach.ctlPut_axes]; rfl⟩
    · exact ⟨m.freedDir a, by simp [Mach.axis, Mach.setAxis]⟩
  · rw [htouch, htime.1]
    rfl

section
variable {m n : Mach} {a : Fin 2} (h : m.Touched a n)
include h

theorem Mach.Touched.get (f : Fld) : n.get f = m.get f := by rw [Mach.get, h.reg]; rfl

theorem Mach.Touched.is (f : Fld) : n.is f = m.is f := by rw [Mach.is, h.get]; rfl

theorem Mach.Touched.within (p : Nat → Prop) : m.Within p n := ⟨fun k _ => h.reg k, h.only.byte⟩

theorem Mach.Touched.moving : (n.axis a).moving = (m.axis a).moving := by
  obtain ⟨d, hd⟩ := h.dir
  rw [hd]
  rfl

theorem Mach.Touched.needPlan : (n.axis a).needPlan = (m.axis a).needPlan := by
  obtain ⟨d, hd⟩ := h.dir
  rw [hd]

theorem Mach.Touched.offAfter : (n.axis a).offAfter = (m.axis a).offAfter := by
  obtain ⟨d, hd⟩ := h.dir
  rw [hd]

theorem Mach.Touched.next : (n.axis a).next = (m.axis a).next := by
  obtain ⟨d, hd⟩ := h.dir
  rw [hd]

theorem Mach.Touched.mirrored : n.mirrored = m.mirrored := by
  rw [Mach.mirrored, h.is, h.is, h.get]
  rfl

end

theorem State.run_writeCmd (s : State) (k : Nat) (f : Mach → Mach) (hlive : s.m.live = true) :
    s.run (fun m => m.writeCmd k f) = .next { s with m := f s.m.atTick } := by
  rw [State.run_eq, Mach.writeCmd_of _ _ _ hlive]

/-! ## An axis that is set -/

theorem Mach.axis_setAxis_self (m : Mach) (a : Fin 2) (x : AxisSt) : (m.setAxis a x).axis a = x := by simp [Mach.axis, Mach.setAxis]

theorem Mach.setAxis_setAxis (m : Mach) (a : Fin 2) (x y : AxisSt) : (m.setAxis a x).setAxis a y = m.setAxis a y := by
  simp [Mach.setAxis]

theorem Mach.axis_setAxis_ne (m : Mach) {a b : Fin 2} (x : AxisSt) (h : b ≠ a) : (m.setAxis a x).axis b = m.axis b := by
  have hval : a.val ≠ b.val := fun he => h (Fin.ext he.symm)
  simp [Mach.axis, Mach.setAxis, Vector.getElem_set_ne _ _ hval]

@[simp] theorem Mach.put_axis (m : Mach) (f : Fld) (v : Nat) (a : Fin 2) : (m.put f v).axis a = m.axis a := by simp [Mach.axis]

/-- The axis stands as `x`, with a state and the cause of its last stop (R593). -/
def Mach.settled (m : Mach) (a : Fin 2) (x : AxisSt) (state cause : Nat) : Mach := ((m.setAxis a x).setAxState a state).setAxCause a cause

section
variable (m : Mach) (a : Fin 2) (x : AxisSt) (state cause : Nat)

theorem Mach.settled_axis : (m.settled a x state cause).axis a = x := by
  rw [Mach.settled, Mach.setAxCause, Mach.setAxState, Mach.put_axis, Mach.put_axis, Mach.axis_setAxis_self]

theorem Mach.settled_within (p : Nat → Prop) (hp : p (F.HAL_AX_STAT_reg a)) : m.Within p (m.settled a x state cause) := by
  have hset : m.Within p (m.setAxis a x) := (Mach.Within.refl p m).other rfl rfl
  exact (hset.put (F.HAL_AX_STAT_STATE a) state hp).put (F.HAL_AX_STAT_CAUSE a) cause hp

theorem Mach.settled_state : (m.settled a x state cause).get (F.HAL_AX_STAT_STATE a) = state % 8 := by
  rw [Mach.settled, Mach.setAxCause, Mach.get_put_of_lt _ (F.HAL_AX_STAT_CAUSE a) (F.HAL_AX_STAT_STATE a) _ rfl (by decide : 2 < 4)
    (by decide : 4 ≤ 6) (by decide : 6 < 32)]
  exact Mach.get_put_self _ (F.HAL_AX_STAT_STATE a) _ (by decide : 0 ≤ 2) (by decide : 2 < 32)

theorem Mach.settled_cause : (m.settled a x state cause).get (F.HAL_AX_STAT_CAUSE a) = cause % 8 :=
  Mach.get_put_self _ (F.HAL_AX_STAT_CAUSE a) _ (by decide : 4 ≤ 6) (by decide : 6 < 32)

theorem Mach.settled_axisOnly : m.AxisOnly (m.settled a x state cause) :=
  ((m.axisOnly_setAxis a x).trans (Mach.axisOnly_put _ (F.HAL_AX_STAT_STATE a) state)).trans
    (Mach.axisOnly_put _ (F.HAL_AX_STAT_CAUSE a) cause)

theorem Mach.settled_out : (m.settled a x state cause).out = m.out := by
  rw [Mach.settled, Mach.setAxCause, Mach.setAxState, Mach.put_out, Mach.put_out]
  rfl

end

theorem Mach.AxisOnly.core {m n : Mach} (h : m.AxisOnly n) (c : Fin 8) : n.core c = m.core c := by
  rw [Mach.AxisOnly] at h
  rw [h]
  rfl

theorem Mach.AxisOnly.live {m n : Mach} (h : m.AxisOnly n) : n.live = m.live := by
  rw [Mach.AxisOnly] at h
  rw [h]
  rfl

/-- A fault of an axis that moves stops it where it stands and pulses HAL_STOP (R625). -/
theorem Mach.axFault_of_moving (m : Mach) (a : Fin 2) (cause : Nat) (hmoving : (m.axis a).moving = true) : ∃ x : AxisSt,
    m.axFault a cause = (m.settled a x 6 cause).pulse 6 9 ∧ x.v = 0 ∧ x.a = 0 ∧ x.due = [] ∧
      x.next = (m.axis a).next := by
  unfold Mach.axFault
  extract_lets m1 x1 p m2
  have hx1 : x1 = { m.axis a with nextRef := m.lnext a } := m.axis_setAxis_self a _
  have hm1 : x1.moving = true := by rw [hx1]; exact hmoving
  have hm2 : ∃ x2 : AxisSt, m2 = m.setAxis a x2 ∧ x2.moving = true ∧ x2.next = (m.axis a).next := by
    refine ⟨_, m.setAxis_setAxis a _ _, hm1, ?_⟩
    change x1.next = _
    rw [hx1]
  clear_value m2 p
  obtain ⟨x2, rfl, hmoves, hnext⟩ := hm2
  rw [if_pos hm1]
  unfold Mach.axFaultAt
  extract_lets x3 was m3 m4
  have hx3 : x3 = x2 := m.axis_setAxis_self a x2
  have hwas : was = true := by
    change x3.moving = true
    rw [hx3]
    exact hmoves
  rw [if_pos hwas]
  refine ⟨_, congrArg (fun k : Mach => ((k.setAxState a 6).setAxCause a cause).pulse 6 9) (m.setAxis_setAxis a x2 _), rfl, rfl, rfl, ?_⟩
  change x3.next = _
  rw [hx3, hnext]

section
variable {s : State} {a : Fin 2}

/-- A flag of an axis that sets in the tick of the write. -/
theorem axFlag_sets (b : Fin 2) {i : Nat} (hi : i < 8) : ((s.m.atTick.axFlag b i).get (F.HAL_AX_FLT_FLAGS b)).testBit i = true ∧
    OnlyRegs s { s with m := s.m.atTick.axFlag b i } ∧ SameRegs (· = F.HAL_AX_FLT_reg b) s { s with m := s.m.atTick.axFlag b i } := by
  refine ⟨?_, (s.m.regsOnly_atTick.putBit (F.HAL_AX_FLT_FLAGS b) i).onlyRegs, fun k hk => ?_⟩
  · rw [Mach.axFlag, Mach.get_putBit_self _ (F.HAL_AX_FLT_FLAGS b) (by decide : 0 ≤ 7) (by decide : 7 < 32) hi, Nat.testBit_or,
      Nat.testBit_two_pow_self, Bool.or_true]
  · exact (Mach.reg_putBit_ne _ (F.HAL_AX_FLT_FLAGS b) i hk).trans (s.m.atTick_reg k)

/-! ## STOPNOW -/

theorem exec_halStopnow (hlive : s.m.live = true) : ∃ n, s.m.Touched a n ∧ exec (.halStopnow a) s = .next { s with m := n.halStopnow a } :=
  ⟨_, s.m.touched a, s.run_writeCmd _ _ hlive⟩

theorem does_halStopnow_rest (hlive : s.m.live = true) (hrest : (s.m.axis a).moving = false) :
    Does (.halStopnow a) s (fun t => SameRegs (fun _ => False) s t ∧
      t = { s with m := { s.m.regsFrom t.m with out := t.m.out, axes := t.m.axes } } ∧ t.m.axis a = (s.m.ctlTouch a).axis a ∧
      t.m.out = (s.m.ctlTouch a).out) := by
  obtain ⟨n, hn, hexec⟩ := exec_halStopnow (a := a) hlive
  rw [Mach.halStopnow, hn.moving, if_neg (by rw [hrest]; decide)] at hexec
  exact ⟨_, hexec, fun k _ => hn.reg k, hn.only.frame, hn.axis, hn.out⟩

theorem does_halStopnow_moving (hlive : s.m.live = true) (hmoving : (s.m.axis a).moving = true) :
    Does (.halStopnow a) s (fun t => t.m.get (F.HAL_AX_STAT_STATE a) = 6 ∧
      t.m.get (F.HAL_AX_STAT_CAUSE a) = 4 ∧ (t.m.axis a).v = 0 ∧ (t.m.axis a).a = 0 ∧ (t.m.axis a).due = [] ∧
      (t.m.axis a).next = (s.m.axis a).next ∧ Pulsed s t 6 9 ∧ SameRegs (fun n => n = F.HAL_AX_STAT_reg a ∨ eventRegs 6 n) s t ∧
      t.m.out = (s.m.ctlTouch a).out ∧ Keeps s t) := by
  obtain ⟨n, hn, hexec⟩ := exec_halStopnow (a := a) hlive
  obtain ⟨x, hfault, hv, ha, hdue, hnext⟩ := n.axFault_of_moving a 4 (hn.moving.trans hmoving)
  rw [Mach.halStopnow, hn.moving, if_pos hmoving, hfault] at hexec
  have hlow : F.HAL_AX_STAT_reg a < 0x400000 := by simp only [F.HAL_AX_STAT_reg]; omega
  have hwithin := (hn.within _).trans (n.settled_within a x 6 4 (fun n => n = F.HAL_AX_STAT_reg a) rfl)
  have honly := hn.only.trans (n.settled_axisOnly a x 6 4)
  have hstate := n.settled_state a x 6 4
  have hcause := n.settled_cause a x 6 4
  have haxis := n.settled_axis a x 6 4
  have hout := n.settled_out a x 6 4
  generalize n.settled a x 6 4 = k at *
  obtain ⟨r, y, b, hpulse⟩ := k.pulse_changes 6 9
  have haxis' : (k.pulse 6 9).axis a = x := by rw [hpulse]; exact haxis
  obtain ⟨-, hreset, hthermal⟩ := k.live_iff.1 (honly.live.trans hlive)
  have hcore : k.get (F.C_STAT_STATE 6) = s.m.get (F.C_STAT_STATE 6) := hwithin.get _ (by
    simp only [F.C_STAT_STATE, F.C_STAT_reg, F.HAL_AX_STAT_reg]
    omega)
  have hpulsed := (hwithin.mono (fun _ => Or.inl)).pulse 6 9 (fun _ => Or.inr)
  refine ⟨_, hexec, ?_, ?_, ?_, ?_, ?_, ?_, ?_, ?_, ?_, ?_⟩
  · exact (k.pulse_get 6 9 (F.HAL_AX_STAT_STATE a) hlow).trans hstate
  · exact (k.pulse_get 6 9 (F.HAL_AX_STAT_CAUSE a) hlow).trans hcause
  · rw [haxis', hv]
  · rw [haxis', ha]
  · rw [haxis', hdue]
  · rw [haxis', hnext, hn.next]
  · exact pulsed_of_pulse rfl (by decide) (honly.core 6) hcore hreset hthermal
  · exact hpulsed.sameRegs
  · rw [hpulse]
    exact hout.trans hn.out
  · exact hpulsed.keeps

/-! ## HOLD -/

theorem ctl_ne_stat (a : Fin 2) : F.HAL_AX_CTL_reg a ≠ F.HAL_AX_STAT_reg a := by
  simp only [F.HAL_AX_CTL_reg, F.HAL_AX_STAT_reg]
  omega

/-- What a write of one field of CTL leaves once it has driven the pins. -/
structure Mach.CtlPut (m : Mach) (a : Fin 2) (f : Fld) (v : Nat) (k : Mach) : Prop where
  only : m.AxisOnly k
  within : m.Within (fun n => n = F.HAL_AX_CTL_reg a) k
  axis : k.axis a = (m.ctlTouch a).axis a
  dir : ∃ d, k.axis a = { m.axis a with dirFwd := d }
  out : k.out = (m.ctlTouch a).out
  field : k.get f = v

theorem Mach.Touched.put {m n : Mach} (h : m.Touched a n) (f : Fld) (v : Nat) (hf : f.addr = F.HAL_AX_CTL_reg a) (hlo : f.lo ≤ f.hi)
    (hhi : f.hi < 32) (hv : v < 2 ^ (f.hi + 1 - f.lo)) : m.CtlPut a f v (n.put f v) where
  only := h.only.trans (n.axisOnly_put f v)
  within := (h.within _).put f v hf
  axis := (n.put_axis f v a).trans h.axis
  dir := by rw [n.put_axis f v a]; exact h.dir
  out := (n.put_out f v).trans h.out
  field := (n.get_put_self f v hlo hhi).trans (Nat.mod_eq_of_lt hv)

section
variable {m k : Mach} {f : Fld} {v : Nat} (h : m.CtlPut a f v k)
include h

theorem Mach.CtlPut.get (g : Fld) (hg : g.addr ≠ F.HAL_AX_CTL_reg a) : k.get g = m.get g := h.within.get g hg

theorem Mach.CtlPut.state : k.axState a = m.get (F.HAL_AX_STAT_STATE a) := h.get _ (by
  simp only [F.HAL_AX_STAT_STATE, F.HAL_AX_STAT_reg, F.HAL_AX_CTL_reg]
  omega)

theorem Mach.CtlPut.safe : k.is F.SHR_STATUS_SAFE = m.is F.SHR_STATUS_SAFE := by
  rw [Mach.is, h.get F.SHR_STATUS_SAFE (safe_ne_ctl a)]
  rfl

theorem Mach.CtlPut.mirrored : k.mirrored = m.mirrored := by
  have hne : F.BWL_CTL_reg ≠ F.HAL_AX_CTL_reg a := by
    simp only [F.BWL_CTL_reg, F.HAL_AX_CTL_reg]
    omega
  rw [Mach.mirrored, Mach.is, Mach.is, h.get F.BWL_CTL_EN hne, h.get F.BWL_CTL_MIRROR hne, h.get F.BWL_CTL_ROLE hne]
  rfl

/-- The axis is set as well. -/
theorem Mach.CtlPut.setAxis (x : AxisSt) : m.AxisOnly (k.setAxis a x) ∧ m.Within (fun n => n = F.HAL_AX_CTL_reg a) (k.setAxis a x) :=
  ⟨h.only.trans rfl, h.within.other rfl rfl⟩

end

theorem exec_halHold (hold : Bool) (hlive : s.m.live = true) : ∃ n, s.m.Touched a n ∧
    exec (.halHold a hold) s = .next { s with m := n.halHold a hold } :=
  ⟨_, s.m.touched a, s.run_writeCmd _ _ hlive⟩

theorem does_halHold_stops (hlive : s.m.live = true) (hstate : s.m.get (F.HAL_AX_STAT_STATE a) = 1 ∨
    s.m.get (F.HAL_AX_STAT_STATE a) = 4 ∨ s.m.get (F.HAL_AX_STAT_STATE a) = 5) :
    Does (.halHold a true) s (fun t => t.m.get (F.HAL_AX_CTL_HOLD a) = 1 ∧ t.m.get (F.HAL_AX_STAT_STATE a) = 2 ∧
      t.m.axis a = { (s.m.ctlTouch a).axis a with why := 2 } ∧
      SameRegs (fun n => n = F.HAL_AX_CTL_reg a ∨ n = F.HAL_AX_STAT_reg a) s t ∧ t.m.out = (s.m.ctlTouch a).out ∧ Keeps s t) := by
  obtain ⟨n, hn, hexec⟩ := exec_halHold (a := a) true hlive
  have hk := hn.put (F.HAL_AX_CTL_HOLD a) (b2n true) rfl (by decide : 3 ≤ 3) (by decide : 3 < 32) (by decide : 1 < 2 ^ 1)
  have hruns : (true && (decide ((n.put (F.HAL_AX_CTL_HOLD a) (b2n true)).axState a = 1) ||
      decide ((n.put (F.HAL_AX_CTL_HOLD a) (b2n true)).axState a = 4) ||
      decide ((n.put (F.HAL_AX_CTL_HOLD a) (b2n true)).axState a = 5))) = true := by
    rw [hk.state]
    simpa [or_assoc] using hstate
  unfold Mach.halHold at hexec
  generalize n.put (F.HAL_AX_CTL_HOLD a) (b2n true) = k at *
  rw [if_pos hruns] at hexec
  have hwithin := (hk.within.mono (q := fun n => n = F.HAL_AX_CTL_reg a ∨ n = F.HAL_AX_STAT_reg a) (fun _ => Or.inl)).put
    (F.HAL_AX_STAT_STATE a) 2 (Or.inr rfl)
  have hstop : s.m.Within (fun n => n = F.HAL_AX_CTL_reg a ∨ n = F.HAL_AX_STAT_reg a) (k.stopAxis a 2) := hwithin.other rfl rfl
  refine ⟨_, hexec, ?_, ?_, ?_, hstop.sameRegs, ?_, hstop.keeps⟩
  · exact (k.get_put_ne (F.HAL_AX_STAT_STATE a) (F.HAL_AX_CTL_HOLD a) 2 (ctl_ne_stat a)).trans hk.field
  · exact k.get_put_self (F.HAL_AX_STAT_STATE a) 2 (by decide : 0 ≤ 2) (by decide : 2 < 32)
  · rw [← hk.axis]
    exact Mach.axis_setAxis_self _ a _
  · exact (k.put_out (F.HAL_AX_STAT_STATE a) 2).trans hk.out

theorem does_halHold_only (hlive : s.m.live = true) (hold : Bool) (hstate : hold = false ∨ ¬ (s.m.get (F.HAL_AX_STAT_STATE a) = 1 ∨
    s.m.get (F.HAL_AX_STAT_STATE a) = 4 ∨ s.m.get (F.HAL_AX_STAT_STATE a) = 5)) :
    Does (.halHold a hold) s (fun t => t.m.get (F.HAL_AX_CTL_HOLD a) = b2n hold ∧ t.m.axis a = (s.m.ctlTouch a).axis a ∧
      SameRegs (fun n => n = F.HAL_AX_CTL_reg a) s t ∧ t.m.out = (s.m.ctlTouch a).out ∧ Keeps s t) := by
  obtain ⟨n, hn, hexec⟩ := exec_halHold (a := a) hold hlive
  have hk := hn.put (F.HAL_AX_CTL_HOLD a) (b2n hold) rfl (by decide : 3 ≤ 3) (by decide : 3 < 32) (b2n_lt hold)
  have hruns : (hold && (decide ((n.put (F.HAL_AX_CTL_HOLD a) (b2n hold)).axState a = 1) ||
      decide ((n.put (F.HAL_AX_CTL_HOLD a) (b2n hold)).axState a = 4) ||
      decide ((n.put (F.HAL_AX_CTL_HOLD a) (b2n hold)).axState a = 5))) ≠ true := by
    rw [hk.state]
    cases hold
    · exact Bool.false_ne_true
    · simpa [or_assoc] using hstate
  unfold Mach.halHold at hexec
  generalize n.put (F.HAL_AX_CTL_HOLD a) (b2n hold) = k at *
  rw [if_neg hruns] at hexec
  exact ⟨_, hexec, hk.field, hk.axis, hk.within.sameRegs, hk.out, hk.within.keeps⟩

/-! ## EN -/

theorem exec_halEn (on : Bool) (hlive : s.m.live = true) (hmirror : s.m.mirrored = false) :
    ∃ k x, x = (s.m.ctlTouch a).axis a ∧ (∃ d, x = { s.m.axis a with dirFwd := d }) ∧ s.m.CtlPut a (F.HAL_AX_CTL_EN a) (b2n on) k ∧ exec (.halEn a on) s = .next { s with
      m :=
        if on then
          if s.m.is (F.HAL_AX_CTL_EN a) || x.needPlan || s.m.is F.SHR_STATUS_SAFE then k else k.setAxis a { x with starting := true }
        else if x.offAfter then k.setAxis a { x with starting := false }
        else if s.m.is (F.HAL_AX_CTL_EN a) && x.moving && s.m.get (F.HAL_AX_STAT_STATE a) != 6 then
          (k.stopAxis a 3).setAxis a { x with why := 3, offAfter := true, starting := false }
        else if s.m.get (F.HAL_AX_STAT_STATE a) = 0 then k.setAxis a { x with starting := false, dwell := none }
        else
          let n := k.setAxis a { x with starting := false, dwell := none }
          (n.setAxState a 0).setAxCause a (if s.m.get (F.HAL_AX_STAT_STATE a) = 6 then n.get (F.HAL_AX_STAT_CAUSE a) else 3) } := by
  have hexec : exec (.halEn a on) s = .next { s with m := (s.m.atTick.ctlTouch a).halEn a on } := s.run_writeCmd _ _ hlive
  have hn := s.m.touched a
  generalize s.m.atTick.ctlTouch a = n at hexec hn
  have hk := hn.put (F.HAL_AX_CTL_EN a) (b2n on) rfl (by decide : 2 ≤ 2) (by decide : 2 < 32) (b2n_lt on)
  have his := hn.is (F.HAL_AX_CTL_EN a)
  refine ⟨_, _, rfl, hk.axis ▸ hk.dir, hk, hexec.trans ?_⟩
  unfold Mach.halEn
  generalize n.put (F.HAL_AX_CTL_EN a) (b2n on) = k at *
  dsimp only
  rw [hk.mirrored, hmirror, if_neg Bool.false_ne_true, hk.safe, hk.state, his, hk.axis]

theorem does_halEn_starts (hlive : s.m.live = true) (hmirror : s.m.mirrored = false) (hoff : ¬ s.m.get (F.HAL_AX_CTL_EN a) = 1)
    (hplan : (s.m.axis a).needPlan = false) (hsafe : s.m.get F.SHR_STATUS_SAFE = 0) :
    Does (.halEn a true) s (fun t => t.m.get (F.HAL_AX_CTL_EN a) = 1 ∧
      t.m.axis a = { (s.m.ctlTouch a).axis a with starting := true } ∧ SameRegs (fun n => n = F.HAL_AX_CTL_reg a) s t ∧
      t.m.out = (s.m.ctlTouch a).out ∧ Keeps s t) := by
  obtain ⟨k, x, hx, ⟨d, hd⟩, hk, hexec⟩ := exec_halEn (a := a) true hlive hmirror
  have hplan' : x.needPlan = false := by rw [hd]; exact hplan
  have hen : s.m.is (F.HAL_AX_CTL_EN a) = false := (s.m.is_of_ne_one _ rfl hoff)
  have hsafe' : s.m.is F.SHR_STATUS_SAFE = false := by rw [Mach.is, hsafe]; rfl
  have hfree : (s.m.is (F.HAL_AX_CTL_EN a) || x.needPlan || s.m.is F.SHR_STATUS_SAFE) ≠ true := by
    rw [hen, hplan', hsafe']
    decide
  rw [if_pos rfl, if_neg hfree] at hexec
  obtain ⟨-, hwithin⟩ := hk.setAxis { x with starting := true }
  refine ⟨_, hexec, hk.field, ?_, hwithin.sameRegs, hk.out, hwithin.keeps⟩
  rw [← hx]
  exact Mach.axis_setAxis_self _ a _

theorem does_halEn_waits (hlive : s.m.live = true) (hmirror : s.m.mirrored = false)
    (hheld : (s.m.axis a).needPlan = true ∨ s.m.get F.SHR_STATUS_SAFE = 1) :
    Does (.halEn a true) s (fun t => t.m.get (F.HAL_AX_CTL_EN a) = 1 ∧ t.m.axis a = (s.m.ctlTouch a).axis a ∧
      SameRegs (fun n => n = F.HAL_AX_CTL_reg a) s t ∧ t.m.out = (s.m.ctlTouch a).out ∧ Keeps s t) := by
  obtain ⟨k, x, -, ⟨d, hd⟩, hk, hexec⟩ := exec_halEn (a := a) true hlive hmirror
  have hheld' : (s.m.is (F.HAL_AX_CTL_EN a) || x.needPlan || s.m.is F.SHR_STATUS_SAFE) = true := by
    rw [hd]
    rcases hheld with h | h
    · simp [h]
    · simp [Mach.is, h]
  rw [if_pos rfl, if_pos hheld'] at hexec
  exact ⟨_, hexec, hk.field, hk.axis, hk.within.sameRegs, hk.out, hk.within.keeps⟩

theorem does_halEn_stops (hlive : s.m.live = true) (hmirror : s.m.mirrored = false) (hon : s.m.get (F.HAL_AX_CTL_EN a) = 1)
    (hstate : s.m.get (F.HAL_AX_STAT_STATE a) ≠ 6) (hmoving : (s.m.axis a).moving = true) (hoff : (s.m.axis a).offAfter = false) :
    Does (.halEn a false) s (fun t => t.m.get (F.HAL_AX_CTL_EN a) = 0 ∧ t.m.get (F.HAL_AX_STAT_STATE a) = 2 ∧
      t.m.axis a = { (s.m.ctlTouch a).axis a with why := 3, offAfter := true, starting := false } ∧
      SameRegs (fun n => n = F.HAL_AX_CTL_reg a ∨ n = F.HAL_AX_STAT_reg a) s t ∧ t.m.out = (s.m.ctlTouch a).out ∧ Keeps s t) := by
  obtain ⟨k, x, hx, ⟨d, hd⟩, hk, hexec⟩ := exec_halEn (a := a) false hlive hmirror
  have hoff' : x.offAfter ≠ true := by rw [hd]; exact Bool.eq_false_iff.1 hoff
  have hmoving' : x.moving = true := by rw [hd]; exact hmoving
  have hstops : (s.m.is (F.HAL_AX_CTL_EN a) && x.moving && s.m.get (F.HAL_AX_STAT_STATE a) != 6) = true := by
    simp [Mach.is, hon, hmoving', hstate]
  rw [if_neg Bool.false_ne_true, if_neg hoff', if_pos hstops] at hexec
  have hwithin := (hk.within.mono (q := fun n => n = F.HAL_AX_CTL_reg a ∨ n = F.HAL_AX_STAT_reg a) (fun _ => Or.inl)).put
    (F.HAL_AX_STAT_STATE a) 2 (Or.inr rfl)
  have hstop : s.m.Within (fun n => n = F.HAL_AX_CTL_reg a ∨ n = F.HAL_AX_STAT_reg a)
      ((k.stopAxis a 3).setAxis a { x with why := 3, offAfter := true, starting := false }) := hwithin.other rfl rfl
  refine ⟨_, hexec, ?_, ?_, ?_, hstop.sameRegs, ?_, hstop.keeps⟩
  · exact (k.get_put_ne (F.HAL_AX_STAT_STATE a) (F.HAL_AX_CTL_EN a) 2 (ctl_ne_stat a)).trans hk.field
  · exact k.get_put_self (F.HAL_AX_STAT_STATE a) 2 (by decide : 0 ≤ 2) (by decide : 2 < 32)
  · rw [← hx]
    exact Mach.axis_setAxis_self _ a _
  · exact (k.put_out (F.HAL_AX_STAT_STATE a) 2).trans hk.out

theorem does_halEn_stopping (hlive : s.m.live = true) (hmirror : s.m.mirrored = false) (hoff : (s.m.axis a).offAfter = true) :
    Does (.halEn a false) s (fun t => t.m.get (F.HAL_AX_CTL_EN a) = 0 ∧
      t.m.axis a = { (s.m.ctlTouch a).axis a with starting := false } ∧ SameRegs (fun n => n = F.HAL_AX_CTL_reg a) s t ∧
      t.m.out = (s.m.ctlTouch a).out ∧ Keeps s t) := by
  obtain ⟨k, x, hx, ⟨d, hd⟩, hk, hexec⟩ := exec_halEn (a := a) false hlive hmirror
  have hoff' : x.offAfter = true := by rw [hd]; exact hoff
  rw [if_neg Bool.false_ne_true, if_pos hoff'] at hexec
  obtain ⟨-, hwithin⟩ := hk.setAxis { x with starting := false }
  refine ⟨_, hexec, hk.field, ?_, hwithin.sameRegs, hk.out, hwithin.keeps⟩
  rw [← hx]
  exact Mach.axis_setAxis_self _ a _

theorem does_halEn_rest (hlive : s.m.live = true) (hmirror : s.m.mirrored = false) (hstate : s.m.get (F.HAL_AX_STAT_STATE a) ≠ 6)
    (hrest : (s.m.axis a).moving = false) (hoff : (s.m.axis a).offAfter = false) (hstate' : s.m.get (F.HAL_AX_STAT_STATE a) ≠ 0) :
    Does (.halEn a false) s (fun t => t.m.get (F.HAL_AX_CTL_EN a) = 0 ∧ t.m.get (F.HAL_AX_STAT_STATE a) = 0 ∧
      t.m.get (F.HAL_AX_STAT_CAUSE a) = 3 ∧ t.m.axis a = { (s.m.ctlTouch a).axis a with starting := false, dwell := none } ∧
      SameRegs (fun n => n = F.HAL_AX_CTL_reg a ∨ n = F.HAL_AX_STAT_reg a) s t ∧ t.m.out = (s.m.ctlTouch a).out ∧ Keeps s t) := by
  obtain ⟨k, x, hx, ⟨d, hd⟩, hk, hexec⟩ := exec_halEn (a := a) false hlive hmirror
  have hoff' : x.offAfter ≠ true := by rw [hd]; exact Bool.eq_false_iff.1 hoff
  have hrest' : x.moving = false := by rw [hd]; exact hrest
  rw [if_neg Bool.false_ne_true, if_neg hoff', hrest', Bool.and_false, Bool.false_and, if_neg Bool.false_ne_true, if_neg hstate'] at hexec
  dsimp only at hexec
  rw [if_neg hstate] at hexec
  have hexec' : exec (.halEn a false) s = .next { s with m := k.settled a { x with starting := false, dwell := none } 0 3 } := hexec
  have hwithin := (hk.within.mono (q := fun n => n = F.HAL_AX_CTL_reg a ∨ n = F.HAL_AX_STAT_reg a) (fun _ => Or.inl)).trans
    (k.settled_within a { x with starting := false, dwell := none } 0 3 _ (Or.inr rfl))
  refine ⟨_, hexec', ?_, k.settled_state a _ 0 3, k.settled_cause a _ 0 3, ?_, hwithin.sameRegs, ?_, hwithin.keeps⟩
  · exact ((k.settled_within a _ 0 3 (fun n => n = F.HAL_AX_STAT_reg a) rfl).get (F.HAL_AX_CTL_EN a) (ctl_ne_stat a)).trans hk.field
  · rw [← hx]
    exact k.settled_axis a _ 0 3
  · exact (k.settled_out a _ 0 3).trans hk.out

/-! ## MEN and DIR -/

theorem Mach.ctlPut_men (m : Mach) (men dir : Bool) : (m.ctlPut a men dir).get (F.HAL_AX_CTL_MEN a) = b2n men := by
  rw [Mach.ctlPut, Mach.get_put_of_lt _ (F.HAL_AX_CTL_DIR a) (F.HAL_AX_CTL_MEN a) _ rfl (by decide : 0 < 1) (by decide : 1 ≤ 1)
    (by decide : 1 < 32), Mach.get_put_self _ (F.HAL_AX_CTL_MEN a) _ (by decide : 0 ≤ 0) (by decide : 0 < 32)]
  exact Nat.mod_eq_of_lt (b2n_lt men)

theorem Mach.ctlPut_dir (m : Mach) (men dir : Bool) : (m.ctlPut a men dir).get (F.HAL_AX_CTL_DIR a) = b2n dir := by
  rw [Mach.ctlPut, Mach.get_put_self _ (F.HAL_AX_CTL_DIR a) _ (by decide : 1 ≤ 1) (by decide : 1 < 32)]
  exact Nat.mod_eq_of_lt (b2n_lt dir)

/-- The level of DIR is a bit. -/
theorem Mach.dirLevel_eq (m : Mach) (dir : Bool) : m.dirLevel a dir = b2n (decide (m.dirLevel a dir = 1)) := by
  have hbit : ∃ b, m.dirLevel a dir = b2n b := by
    unfold Mach.dirLevel
    dsimp only
    split
    · exact ⟨_, rfl⟩
    · split
      · exact ⟨_, rfl⟩
      · split <;> exact ⟨_, rfl⟩
  obtain ⟨b, hb⟩ := hbit
  rw [hb]
  cases b <;> rfl

theorem Mach.menDir_safe (m : Mach) (men dir : Bool) (h : m.get F.SHR_STATUS_SAFE = 1) :
    (m.menDir a men dir).out = m.out ∧ (m.menDir a men dir).axes = m.axes := by
  rw [Mach.menDir_eq, if_pos (by rw [Mach.is, h]; rfl)]
  exact ⟨m.ctlPut_out a men dir, m.ctlPut_axes a men dir⟩

theorem Mach.menDir_drives (m : Mach) (men dir : Bool) (h : m.get F.SHR_STATUS_SAFE = 0) :
    (m.menDir a men dir).out = m.driven a men dir ∧
      ∀ b, (m.menDir a men dir).axis b = if b = a then { m.axis a with dirFwd := m.freedDir a } else m.axis b := by
  rw [Mach.menDir_eq, if_neg (by rw [Mach.is, h]; decide)]
  refine ⟨rfl, fun b => ?_⟩
  split
  · next hb =>
    rw [hb]
    exact Mach.axis_setAxis_self _ a _
  · next hb =>
    refine (Mach.axis_setAxis_ne _ _ hb).trans ?_
    exact congrArg (fun v : Vector AxisSt 2 => v[b]) (m.ctlPut_axes a men dir)

theorem does_halMenDirWrite (hlive : s.m.live = true) (men dir : Bool) :
    Does (.halMenDirWrite a men dir) s (fun t => t.m.get (F.HAL_AX_CTL_MEN a) = b2n men ∧
      t.m.get (F.HAL_AX_CTL_DIR a) = b2n dir ∧ SameRegs (fun n => n = F.HAL_AX_CTL_reg a) s t ∧
      t = { s with m := { s.m.regsFrom t.m with out := t.m.out, axes := t.m.axes } } ∧
      (s.m.get F.SHR_STATUS_SAFE = 1 → t.m.out = s.m.out ∧ t.m.axes = s.m.axes) ∧
      (s.m.get F.SHR_STATUS_SAFE = 0 → t.m.out.men.getLsbD a = men ∧ t.m.out.keepMen.getLsbD a = false ∧
        t.m.out.keepDir.getLsbD a = false ∧ t.m.out.dir.getLsbD a = decide (s.m.dirLevel a dir = 1) ∧
        t.m.axis a = { s.m.axis a with dirFwd := ((s.m.ctlTouch a).axis a).dirFwd } ∧
        (∀ b : Fin 2, b ≠ a → t.m.axis b = s.m.axis b ∧ t.m.out.men.getLsbD b = s.m.out.men.getLsbD b ∧
          t.m.out.dir.getLsbD b = s.m.out.dir.getLsbD b))) := by
  have hexec : exec (.halMenDirWrite a men dir) s = .next { s with m := s.m.atTick.menDir a men dir } := s.run_writeCmd _ _ hlive
  obtain ⟨hout, haxes⟩ := s.m.atTick_menDir a men dir
  have hget : ∀ f : Fld, (s.m.atTick.menDir a men dir).get f = (s.m.atTick.ctlPut a men dir).get f := fun f => by
    rw [Mach.get, Mach.menDir_reg]
    rfl
  refine ⟨_, hexec, ?_, ?_, fun k hk => ?_, (s.m.axisOnly_atTick.trans (Mach.axisOnly_menDir _ _ _ _)).frame, fun hsafe => ?_,
    fun hsafe => ?_⟩
  · exact (hget _).trans (Mach.ctlPut_men _ men dir)
  · exact (hget _).trans (Mach.ctlPut_dir _ men dir)
  · exact (Mach.menDir_reg _ a men dir k).trans ((Mach.ctlPut_reg_ne _ a men dir hk).trans (s.m.atTick_reg k))
  · obtain ⟨ho, hx⟩ := s.m.menDir_safe (a := a) men dir hsafe
    exact ⟨hout.trans ho, haxes.trans hx⟩
  · obtain ⟨ho, hx⟩ := s.m.menDir_drives (a := a) men dir hsafe
    obtain ⟨-, hy⟩ := s.m.menDir_drives (a := a) (s.m.is (F.HAL_AX_CTL_MEN a)) (s.m.is (F.HAL_AX_CTL_DIR a)) hsafe
    have haxis : ∀ b, (s.m.atTick.menDir a men dir).axis b = (s.m.menDir a men dir).axis b :=
      fun b => congrArg (fun v : Vector AxisSt 2 => v[b]) haxes
    have htouched : ((s.m.ctlTouch a).axis a).dirFwd = s.m.freedDir a := by
      rw [Mach.ctlTouch, hy, if_pos rfl]
    dsimp only
    rw [hout, ho, htouched]
    refine ⟨pinBit_self _ a men, pinBit_self _ a false, pinBit_self _ a false, ?_, ?_, fun b hb => ⟨?_, ?_, ?_⟩⟩
    · change (pinBit s.m.out.dir a (s.m.dirLevel a dir)).getLsbD a = _
      rw [s.m.dirLevel_eq dir, pinBit_self]
      cases decide (s.m.dirLevel a dir = 1) <;> rfl
    · rw [haxis, hx, if_pos rfl]
    · rw [haxis, hx, if_neg hb]
    · exact pinBit_ne _ _ (b2n_lt men) hb
    · change (pinBit s.m.out.dir a (s.m.dirLevel a dir)).getLsbD b = _
      rw [s.m.dirLevel_eq dir]
      exact pinBit_ne _ _ (b2n_lt _) hb

/-! ## POSSET, the head assignment and CLRCNT -/

/-- POSSET on an axis in OFF without an armed position event (R635). -/
theorem Mach.halPosset_of_off (m : Mach) (v : Int) (hstate : m.axState a = 0) (hposev : (m.axis a).posev = none) : ∃ x : AxisSt,
    m.halPosset a v = m.setAxis a x ∧ x.c = v ∧ x.p = v * 2 ^ 60 ∧ x.v = 0 ∧ x.due = [] := by
  unfold Mach.halPosset
  rw [if_pos hstate]
  extract_lets m1 x1 raw old
  have hx1 : x1.posev = none := (congrArg AxisSt.posev (m.axis_setAxis_self a _)).trans hposev
  generalize hx : ({ x1 with p := _, v := 0, a := 0, c := v, obsOff := v - raw, due := [], hist := _ } : AxisSt) = x
  have hset : m1.setAxis a x = m.setAxis a x := m.setAxis_setAxis a _ _
  have hnone : ((m1.setAxis a x).axis a).posev = none := by
    rw [Mach.axis_setAxis_self, ← hx]
    exact hx1
  rw [Mach.posevCheck, hnone, if_neg (by simp), hset]
  subst hx
  exact ⟨_, rfl, rfl, rfl, rfl, rfl⟩

theorem exec_halPosset (hlive : s.m.live = true) (v : Word) :
    exec (.halPosset a v) s = .next { s with m := s.m.atTick.halPosset a v.toInt } := by
  refine (s.run_writeCmd _ _ hlive).trans ?_
  rw [sext_toNat (by decide)]

theorem Mach.atTick_axis (m : Mach) (a : Fin 2) : m.atTick.axis a = m.axis a := by
  obtain ⟨n, w, h⟩ := m.runTo_changes (nextGrid 4 m.now)
  rw [Mach.atTick, h]
  rfl

theorem Mach.AxisOnly.frame_of_out {n : Mach} (h : s.m.AxisOnly n) (hout : n.out = s.m.out) :
    ({ s with m := n } : State) = { s with m := { s.m.regsFrom n with axes := n.axes } } := by
  have hframe := h.frame
  rw [hout] at hframe
  exact hframe

theorem Mach.atTick_out (m : Mach) : m.atTick.out = m.out := by
  obtain ⟨n, w, h⟩ := m.runTo_changes (nextGrid 4 m.now)
  rw [Mach.atTick, h]

theorem does_halPosset_off (hlive : s.m.live = true) (v : Word) (hstate : s.m.get (F.HAL_AX_STAT_STATE a) = 0)
    (hposev : (s.m.axis a).posev = none) : Does (.halPosset a v) s (fun t => (t.m.axis a).c = v.toInt ∧
      (t.m.axis a).p = v.toInt * 2 ^ 60 ∧ (t.m.axis a).v = 0 ∧ (t.m.axis a).due = [] ∧
      t = { s with m := { s.m.regsFrom t.m with axes := t.m.axes } } ∧ SameRegs (fun _ => False) s t ∧
      ∀ b, b ≠ a → t.m.axis b = s.m.axis b) := by
  have hexec := exec_halPosset (a := a) hlive v
  obtain ⟨x, hset, hc, hp, hv, hdue⟩ := s.m.atTick.halPosset_of_off (a := a) v.toInt ((s.m.atTick_get _).trans hstate)
    (by rw [Mach.atTick_axis]; exact hposev)
  rw [hset] at hexec
  have haxis := s.m.atTick.axis_setAxis_self a x
  refine ⟨_, hexec, ?_, ?_, ?_, ?_, (s.m.axisOnly_atTick.trans (Mach.axisOnly_setAxis _ a x)).frame_of_out s.m.atTick_out, fun k _ => s.m.atTick_reg k,
    fun b hb => (Mach.axis_setAxis_ne _ x hb).trans (s.m.atTick_axis b)⟩
  · exact (congrArg AxisSt.c haxis).trans hc
  · exact (congrArg AxisSt.p haxis).trans hp
  · exact (congrArg AxisSt.v haxis).trans hv
  · exact (congrArg AxisSt.due haxis).trans hdue

theorem does_halPosset_on (hlive : s.m.live = true) (v : Word) (hstate : s.m.get (F.HAL_AX_STAT_STATE a) ≠ 0) :
    Does (.halPosset a v) s (fun t => (t.m.get (F.HAL_AX_FLT_FLAGS a)).testBit 5 = true ∧ OnlyRegs s t ∧
      SameRegs (· = F.HAL_AX_FLT_reg a) s t) := by
  have hexec := exec_halPosset (a := a) hlive v
  have hstate' : s.m.atTick.axState a ≠ 0 := fun h => hstate ((s.m.atTick_get _).symm.trans h)
  rw [Mach.halPosset, if_neg hstate'] at hexec
  exact ⟨_, hexec, axFlag_sets a (by decide)⟩

end

/-- EN of the axis that a head names. -/
theorem axisEn_of_both {m : Mach} {b : Bool} (h0 : m.is (F.HAL_AX_CTL_EN 0) = b) (h1 : m.is (F.HAL_AX_CTL_EN 1) = b) {i : Nat} (hi : i < 2) :
    m.is (F.HAL_AX_CTL_EN i) = b := by
  obtain rfl | rfl : i = 0 ∨ i = 1 := by omega
  · exact h0
  · exact h1

/-- One bit of a word, as a field and as a Boolean. -/
theorem bits_one (n i : Nat) : bits n i i = b2n (n.testBit i) := by
  rw [bits, Nat.add_sub_cancel_left, Nat.pow_one, Nat.testBit_eq_decide_div_mod_eq, Nat.shiftRight_eq_div_pow]
  obtain h | h : n / 2 ^ i % 2 = 0 ∨ n / 2 ^ i % 2 = 1 := by omega
  · rw [h]; rfl
  · rw [h]; rfl

section
variable {s : State} (h : Fin 6) (v : Word) (hlive : s.m.live = true)
include hlive

theorem exec_halHeadWrite (phase : Bool) : exec (.halHeadWrite h phase v) s = .next { s with
    m := if phase then s.m.atTick.halPhWrite h v.toNat else s.m.atTick.halHeadWrite h (bits v.toNat 31 31) (v.toNat % 2) } :=
  s.run_writeCmd _ _ hlive

theorem does_halHeadWrite_off (h0 : s.m.get (F.HAL_AX_CTL_EN 0) = 0) (h1 : s.m.get (F.HAL_AX_CTL_EN 1) = 0) :
    Does (.halHeadWrite h false v) s (fun t => t.m.get (F.HAL_HEAD_EN h) = b2n (v.getLsbD 31) ∧
      t.m.get (F.HAL_HEAD_AXIS h) = b2n (v.getLsbD 0) ∧ OnlyRegs s t ∧ SameRegs (· = F.HAL_HEAD_reg h) s t) ∧
    Does (.halHeadWrite h true v) s (fun t => t.m.get (F.HAL_PH_PH h) = v.toNat ∧ OnlyRegs s t ∧
      SameRegs (· = F.HAL_PH_reg h) s t) := by
  have h0' : s.m.atTick.is (F.HAL_AX_CTL_EN 0) = false := by rw [Mach.atTick_is, Mach.is, h0]; rfl
  have h1' : s.m.atTick.is (F.HAL_AX_CTL_EN 1) = false := by rw [Mach.atTick_is, Mach.is, h1]; rfl
  have hen : s.m.atTick.is (F.HAL_AX_CTL_EN (s.m.atTick.get (F.HAL_HEAD_AXIS h))) = false :=
    axisEn_of_both h0' h1' (Mach.get_lt _ (F.HAL_HEAD_AXIS h))
  have hnew : s.m.atTick.is (F.HAL_AX_CTL_EN (v.toNat % 2 % 2)) = false := axisEn_of_both h0' h1' (Nat.mod_lt _ (by decide))
  have hhead := exec_halHeadWrite h v hlive false
  have hphase := exec_halHeadWrite h v hlive true
  rw [if_neg Bool.false_ne_true, Mach.halHeadWrite, hen, hnew, if_neg (by decide)] at hhead
  rw [if_pos rfl, Mach.halPhWrite, hen, if_neg (by decide)] at hphase
  refine ⟨⟨_, hhead, ?_, ?_, (s.m.regsOnly_atTick.put (F.HAL_HEAD_EN h) _ |>.put (F.HAL_HEAD_AXIS h) _).onlyRegs, fun a ha => ?_⟩,
    _, hphase, ?_, (s.m.regsOnly_atTick.put (F.HAL_PH_PH h) _).onlyRegs, fun a ha => ?_⟩
  · refine (Mach.get_put_of_gt _ (F.HAL_HEAD_AXIS h) (F.HAL_HEAD_EN h) _ rfl (by decide : 0 < 31) (by decide : 0 ≤ 0)
      (by decide : 0 < 32)).trans ((Mach.get_put_self _ (F.HAL_HEAD_EN h) _ (by decide : 31 ≤ 31) (by decide : 31 < 32)).trans ?_)
    rw [bits_one]
    exact Nat.mod_eq_of_lt (b2n_lt _)
  · refine (Mach.get_put_self _ (F.HAL_HEAD_AXIS h) _ (by decide : 0 ≤ 0) (by decide : 0 < 32)).trans ?_
    exact (Nat.mod_mod _ 2).trans ((by simp [bits] : v.toNat % 2 = bits v.toNat 0 0).trans (bits_one _ 0))
  · exact (Mach.reg_put_ne _ (F.HAL_HEAD_AXIS h) _ ha).trans
      ((Mach.reg_put_ne _ (F.HAL_HEAD_EN h) _ ha).trans (s.m.atTick_reg a))
  · exact (Mach.get_put_self _ (F.HAL_PH_PH h) _ (by decide : 0 ≤ 31) (by decide : 31 < 32)).trans (Nat.mod_eq_of_lt v.isLt)
  · exact (Mach.reg_put_ne _ (F.HAL_PH_PH h) _ ha).trans (s.m.atTick_reg a)

theorem does_halHeadWrite_on (phase : Bool) (h0 : s.m.get (F.HAL_AX_CTL_EN 0) = 1) (h1 : s.m.get (F.HAL_AX_CTL_EN 1) = 1) :
    Does (.halHeadWrite h phase v) s (fun t => (t.m.get (F.HAL_AX_FLT_FLAGS 0)).testBit 7 = true ∧ OnlyRegs s t ∧
      SameRegs (· = F.HAL_AX_FLT_reg 0) s t) := by
  have hflag : exec (.halHeadWrite h phase v) s = .next { s with m := s.m.atTick.axFlag 0 7 } := by
    have hen : s.m.atTick.is (F.HAL_AX_CTL_EN (s.m.atTick.get (F.HAL_HEAD_AXIS h))) = true :=
      axisEn_of_both (by rw [Mach.atTick_is, Mach.is, h0]; rfl) (by rw [Mach.atTick_is, Mach.is, h1]; rfl) (Mach.get_lt _ (F.HAL_HEAD_AXIS h))
    rw [exec_halHeadWrite h v hlive]
    cases phase
    · rw [if_neg Bool.false_ne_true, Mach.halHeadWrite, hen, Bool.true_or, if_pos rfl]
    · rw [if_pos rfl, Mach.halPhWrite, hen, if_pos rfl]
  exact ⟨_, hflag, axFlag_sets 0 (by decide)⟩

theorem does_reefClrcnt : Does .reefClrcnt s (fun t => t.m.get F.REEF_CNT_RAISES = 0 ∧ t.m.get F.REEF_CNT_LOWERS = 0 ∧ OnlyRegs s t ∧
    SameRegs (· = F.REEF_CNT_reg) s t) := by
  have hexec : exec .reefClrcnt s = .next { s with m := (s.m.atTick.put F.REEF_CNT_RAISES 0).put F.REEF_CNT_LOWERS 0 } :=
    s.run_writeCmd _ _ hlive
  refine ⟨_, hexec, ?_, Mach.get_put_self _ F.REEF_CNT_LOWERS 0 (by decide) (by decide),
    (s.m.regsOnly_atTick.put F.REEF_CNT_RAISES 0 |>.put F.REEF_CNT_LOWERS 0).onlyRegs, fun a ha => ?_⟩
  · exact (Mach.get_put_of_lt _ F.REEF_CNT_LOWERS F.REEF_CNT_RAISES 0 rfl (by decide) (by decide) (by decide)).trans
      (Mach.get_put_self _ F.REEF_CNT_RAISES 0 (by decide) (by decide))
  · exact (Mach.reg_put_ne _ F.REEF_CNT_LOWERS 0 ha).trans ((Mach.reg_put_ne _ F.REEF_CNT_RAISES 0 ha).trans (s.m.atTick_reg a))

end

/-- Settles O48: each command acts on the axis once its write has driven the pins of CTL. -/
theorem axisCommands : Obligations.AxisCommands := by
  intro a s hlive x y state ctl stat on pins
  refine ⟨does_halStopnow_rest hlive, does_halStopnow_moving hlive, does_halHold_stops hlive, does_halHold_only hlive,
    fun hoff hmirror => ⟨does_halEn_starts hlive hmirror hoff, does_halEn_waits hlive hmirror⟩,
    fun hon hmirror hstate => ⟨does_halEn_stops hlive hmirror hon hstate, does_halEn_stopping hlive hmirror,
      does_halEn_rest hlive hmirror hstate⟩,
    does_halMenDirWrite hlive, fun v => ⟨does_halPosset_off hlive v, does_halPosset_on hlive v⟩,
    fun h v => ⟨does_halHeadWrite_off h v hlive, does_halHeadWrite_on h v hlive⟩, does_reefClrcnt hlive⟩

end Sys2Proof.Machine
end

section
/-!
Settles the read descriptors, the tags and the receive ring of ST (R823-R830, R842, R843).
-/

namespace Sys2Proof.Machine

/-! ## Bytes -/

theorem Mach.loadBytes_storeBytes (m : Mach) (a : Nat) (l : List Byte) : (m.storeBytes a l).loadBytes a l.length = l := by
  induction l generalizing m a with
  | nil => rfl
  | cons b t ih =>
    have hhead : (m.storeBytes a (b :: t)).byte a = b := by
      change ((m.setByte a b).storeBytes (a + 1) t).byte a = b
      rw [Mach.byte_storeBytes _ _ _ _ (by omega), Mach.byte_setByte_self]
    change (m.storeBytes a (b :: t)).byte a :: (m.storeBytes a (b :: t)).loadBytes (a + 1) t.length = b :: t
    rw [hhead]
    exact congrArg (b :: ·) (ih (m.setByte a b) (a + 1))

theorem Mach.loadBytes_congr {m n : Mach} (a k : Nat) (h : ∀ i, a ≤ i → i < a + k → n.byte i = m.byte i) : n.loadBytes a k = m.loadBytes a k := by
  induction k generalizing a with
  | zero => rfl
  | succ k ih =>
    rw [Mach.loadBytes, Mach.loadBytes, h a (by omega) (by omega), ih (a + 1) (fun i hi hlt => h i (by omega) (by omega))]

theorem Mach.loadBytes_eq (m : Mach) (a k : Nat) : m.loadBytes a k = (List.range k).map (fun i => m.byte (a + i)) := by
  induction k generalizing a with
  | zero => rfl
  | succ k ih =>
    rw [Mach.loadBytes, ih, List.range_succ_eq_map, List.map_cons, List.map_map]
    refine congrArg (m.byte a :: ·) (List.map_congr_left fun i _ => ?_)
    exact congrArg m.byte (by change a + 1 + i = a + (i + 1); omega)

theorem drop_take_loadBytes (m : Mach) (a : Nat) {i k n : Nat} (h : i + k ≤ n) :
    ((m.loadBytes a n).drop i).take k = m.loadBytes (a + i) k := by
  rw [Mach.loadBytes_eq, Mach.loadBytes_eq]
  refine List.ext_getElem (by simp; omega) fun j _ _ => ?_
  simp [Nat.add_assoc]

theorem leBytes_length (n v : Nat) : (leBytes n v).length = n := by
  induction n generalizing v with
  | zero => rfl
  | succ n ih => rw [leBytes, List.length_cons, ih]

theorem Mach.putBytes_byte (m : Mach) (a : Nat) (l : List Byte) (b : Nat) : (m.putBytes a l).byte b = (m.storeBytes a l).byte b := rfl

theorem Mach.loadBytes_putBytes (m : Mach) (a : Nat) (l : List Byte) : (m.putBytes a l).loadBytes a l.length = l :=
  (Mach.loadBytes_congr a _ fun i _ _ => m.putBytes_byte a l i).trans (m.loadBytes_storeBytes a l)

theorem Mach.storeBytes_changes (m : Mach) (a : Nat) (l : List Byte) : ∃ x, m.storeBytes a l = { m with mem := x } := by
  induction l generalizing m a with
  | nil => exact ⟨m.mem, rfl⟩
  | cons b t ih =>
    obtain ⟨x, hx⟩ := ih (m.setByte a b) (a + 1)
    exact ⟨x, hx⟩

theorem Mach.putBytes_changes (m : Mach) (a : Nat) (l : List Byte) : ∃ x y z, m.putBytes a l = { m with mem := x, eccBad := y, eccOne := z } := by
  obtain ⟨x, hx⟩ := m.storeBytes_changes a l
  unfold Mach.putBytes
  rw [hx]
  exact ⟨_, _, _, rfl⟩

/-- Bytes of clean words are read as they stand, and nothing is counted (R196, R924). -/
theorem Mach.fetchBytes_of_clean (m : Mach) (l : List Nat) (h : ∀ a ∈ l, m.clean a = true) : m.fetchBytes l = (l.map m.byte, none, m) := by
  induction l with
  | nil => rfl
  | cons a t ih =>
    obtain ⟨hbad, hone⟩ : m.isBad a = false ∧ m.eccOne.contains (eccWord a) = false := by
      have hclean := h a (List.mem_cons_self ..)
      rw [Mach.clean, Bool.and_eq_true, Bool.not_eq_true', Bool.not_eq_true'] at hclean
      exact hclean
    have htouch : m.touch a = m := by rw [Mach.touch, hone, if_neg Bool.false_ne_true]
    rw [Mach.fetchBytes, hbad, if_neg Bool.false_ne_true, htouch, ih (fun b hb => h b (List.mem_cons_of_mem _ hb))]
    rfl

theorem Mach.drop_loadBytes (m : Mach) (a i k : Nat) : (m.loadBytes a (i + k)).drop i = m.loadBytes (a + i) k := by
  have h := drop_take_loadBytes m a (le_refl (i + k))
  rwa [List.take_of_length_le] at h
  rw [List.length_drop, Mach.loadBytes_eq, List.length_map, List.length_range]
  omega

theorem Mach.take_loadBytes (m : Mach) (a k n : Nat) (h : k ≤ n) : (m.loadBytes a n).take k = m.loadBytes a k := by
  have hdrop := drop_take_loadBytes m a (i := 0) (k := k) (n := n) (by omega)
  rwa [List.drop_zero] at hdrop

/-! ## A descriptor -/

/-- The result of a descriptor at `d`, written (R824). -/
def Mach.rdqAnswer (m : Mach) (d res k : Nat) : Mach := m.putBytes (d + 16) (leBytes 4 (k + res * 2 ^ 28 + 2 ^ 31))

/-- A descriptor at `d` has taken tag `i` (R825, R826). -/
def Mach.rdqTaken (m : Mach) (d : Nat) (i : Fin 64) (t : RdTag) : Mach :=
  let n := m.setTag i t
  (Mach.rdqAnswer { n with st := { n.st with rdreq := n.st.rdreq ++ [i.val] } } d 0 i.val).stSync

section
variable (m : Mach) {o : Nat} (ho : 8 * o + 24 ≤ 0x4000) (hclean : ∀ i, i < 16 → m.clean (mbxBase + 8 * o + i) = true)
include ho hclean

theorem Mach.rdq_fetch : m.fetchBytes ((List.range 16).map (0x20000000 + 8 * o - 0x20000000 + mbxBase + ·)) =
    (m.loadBytes (mbxBase + 8 * o) 16, none, m) := by
  have hat : 0x20000000 + 8 * o - 0x20000000 + mbxBase = mbxBase + 8 * o := by omega
  rw [hat, Mach.fetchBytes_of_clean, Mach.loadBytes_eq, List.map_map]
  · rfl
  · intro a ha
    obtain ⟨i, hi, rfl⟩ := List.mem_map.1 ha
    exact hclean i (List.mem_range.1 hi)

theorem Mach.rdqWrite_of_none
    (hdest : stDest (leNat (m.loadBytes (mbxBase + 8 * o + 12) 4)) (leNat (m.loadBytes (mbxBase + 8 * o + 8) 4)) = none) :
    m.rdqWrite (0x20000000 + 8 * o) false = (none, m.rdqAnswer (mbxBase + 8 * o) 3 0) := by
  have hat : 0x20000000 + 8 * o - 0x20000000 + mbxBase = mbxBase + 8 * o := by omega
  rw [Mach.rdqWrite, if_neg Bool.false_ne_true, if_neg (by simp; omega)]
  dsimp only
  rw [m.rdq_fetch ho hclean, hat]
  dsimp only
  rw [m.drop_loadBytes _ 12 4, drop_take_loadBytes m _ (by decide : 8 + 4 ≤ 16), hdest]
  rfl

theorem Mach.rdqWrite_of_some {p len : Nat} (hlen : leNat (m.loadBytes (mbxBase + 8 * o + 8) 4) = len)
    (hdest : stDest (leNat (m.loadBytes (mbxBase + 8 * o + 12) 4)) len = some p) :
    m.rdqWrite (0x20000000 + 8 * o) false = (none,
      if (len = 0 || 4096 < len : Bool) then m.rdqAnswer (mbxBase + 8 * o) 3 0
      else if !m.hasSess || !m.stOn then m.rdqAnswer (mbxBase + 8 * o) 2 0
      else if m.freeTags.isEmpty then m.rdqAnswer (mbxBase + 8 * o) 1 0
      else (m.fresh 6).2.rdqTaken (mbxBase + 8 * o) (m.freeTags.getD ((m.fresh 6).1 % m.freeTags.length) 0)
        { st := 1, host := leNat (m.loadBytes (mbxBase + 8 * o) 8), dest := p, len := len }) := by
  have hat : 0x20000000 + 8 * o - 0x20000000 + mbxBase = mbxBase + 8 * o := by omega
  rw [Mach.rdqWrite, if_neg Bool.false_ne_true, if_neg (by simp; omega)]
  dsimp only
  rw [m.rdq_fetch ho hclean, hat]
  dsimp only
  rw [m.drop_loadBytes _ 12 4, drop_take_loadBytes m _ (by decide : 8 + 4 ≤ 16), m.take_loadBytes _ 8 16 (by decide), hlen, hdest]
  dsimp only
  split
  · rfl
  · split
    · rfl
    · split <;> rfl

end

/-! ## What an answer changes -/

theorem Mach.rdqAnswer_byte (m : Mach) (d res k b : Nat) (h : b < d + 16 ∨ d + 20 ≤ b) : (m.rdqAnswer d res k).byte b = m.byte b := by
  rw [Mach.rdqAnswer, Mach.putBytes_byte, Mach.byte_storeBytes]
  rw [leBytes_length]
  exact h

theorem Mach.loadBytes_putBytes_le (m : Mach) (a n v : Nat) : (m.putBytes a (leBytes n v)).loadBytes a n = leBytes n v := by
  have hload := m.loadBytes_putBytes a (leBytes n v)
  rwa [leBytes_length] at hload

theorem Mach.loadBytes_rdqAnswer (m : Mach) (d res k : Nat) :
    (m.rdqAnswer d res k).loadBytes (d + 16) 4 = leBytes 4 (k + res * 2 ^ 28 + 2 ^ 31) :=
  m.loadBytes_putBytes_le (d + 16) 4 _

theorem Mach.rdqAnswer_st (m : Mach) (d res k : Nat) : (m.rdqAnswer d res k).st = m.st := by
  obtain ⟨x, y, z, h⟩ := m.putBytes_changes (d + 16) (leBytes 4 (k + res * 2 ^ 28 + 2 ^ 31))
  rw [Mach.rdqAnswer, h]

theorem Mach.RegsOnly.refl (m : Mach) : m.RegsOnly m := rfl

theorem Mach.RegsOnly.byte {m n : Mach} (h : m.RegsOnly n) (a : Nat) : n.byte a = m.byte a := by
  rw [Mach.RegsOnly] at h
  rw [h]
  rfl

theorem Mach.RegsOnly.st {m n : Mach} (h : m.RegsOnly n) : n.st = m.st := by
  rw [Mach.RegsOnly] at h
  rw [h]
  rfl

/-- `m` with a tag of ST replaced, before the counts of ST_TAGS follow. -/
def Mach.tagged (m : Mach) (i : Fin 64) (t : RdTag) : Mach := { m with st := { m.st with tags := m.st.tags.set i t } }

/-- The counts of ST_TAGS that follow a change of a tag (R825). -/
theorem Mach.setTag_eq (m : Mach) (i : Fin 64) (t : RdTag) : ∃ u v w, m.setTag i t =
    (((m.tagged i t).put F.ST_TAGS_FREE u).put F.ST_TAGS_OUTST v).put F.ST_TAGS_QUAR w := ⟨_, _, _, rfl⟩

theorem Mach.setTag_regsOnly (m : Mach) (i : Fin 64) (t : RdTag) : (m.tagged i t).RegsOnly (m.setTag i t) := by
  obtain ⟨u, v, w, h⟩ := m.setTag_eq i t
  rw [h]
  exact (((Mach.RegsOnly.refl _).put _ _).put _ _).put _ _

theorem Mach.setTag_reg_ne (m : Mach) (i : Fin 64) (t : RdTag) {a : Nat} (ha : a ≠ F.ST_TAGS_reg) : (m.setTag i t).reg a = m.reg a := by
  obtain ⟨u, v, w, h⟩ := m.setTag_eq i t
  rw [h, Mach.reg_put_ne _ F.ST_TAGS_QUAR _ ha, Mach.reg_put_ne _ F.ST_TAGS_OUTST _ ha, Mach.reg_put_ne _ F.ST_TAGS_FREE _ ha]
  rfl

theorem Mach.setTag_st (m : Mach) (i : Fin 64) (t : RdTag) : (m.setTag i t).st = { m.st with tags := m.st.tags.set i t } :=
  (m.setTag_regsOnly i t).st

theorem Mach.setTag_byte (m : Mach) (i : Fin 64) (t : RdTag) (a : Nat) : (m.setTag i t).byte a = m.byte a :=
  (m.setTag_regsOnly i t).byte a

/-- ST's notes of starving leave its tags and requests. -/
theorem Mach.stSync_tags (m : Mach) : m.stSync.st.tags = m.st.tags ∧ m.stSync.st.rdreq = m.st.rdreq := by
  unfold Mach.stSync
  extract_lets s c x pulse y n
  have hy : y.tags = m.st.tags ∧ y.rdreq = m.st.rdreq := by
    simp only [y]
    split <;> exact ⟨rfl, rfl⟩
  split
  · obtain ⟨r, z, b, h⟩ := n.pulse_changes 7 13
    rw [h]
    exact hy
  · exact hy

theorem Mach.rdqTaken_st (m : Mach) (d : Nat) (i : Fin 64) (t : RdTag) : (m.rdqTaken d i t).st.tags = m.st.tags.set i t ∧
    (m.rdqTaken d i t).st.rdreq = m.st.rdreq ++ [i.val] := by
  unfold Mach.rdqTaken
  extract_lets n
  have hn : n.st = { m.st with tags := m.st.tags.set i t } := m.setTag_st i t
  obtain ⟨htags, hreq⟩ := (Mach.rdqAnswer { n with st := { n.st with rdreq := n.st.rdreq ++ [i.val] } } d 0 i.val).stSync_tags
  rw [Mach.rdqAnswer_st] at htags hreq
  rw [htags, hreq]
  dsimp only
  rw [hn]
  exact ⟨rfl, rfl⟩

theorem Mach.storeBytes_byte_congr {m n : Mach} (a : Nat) (l : List Byte) (h : ∀ b, n.byte b = m.byte b) (b : Nat) :
    (n.storeBytes a l).byte b = (m.storeBytes a l).byte b := by
  induction l generalizing m n a with
  | nil => exact h b
  | cons v t ih =>
    refine ih (m := m.setByte a v) (n := n.setByte a v) (a + 1) fun k => ?_
    by_cases hk : k = a
    · rw [hk, Mach.byte_setByte_self, Mach.byte_setByte_self]
    · rw [Mach.byte_setByte_ne _ _ hk, Mach.byte_setByte_ne _ _ hk, h]

theorem Mach.rdqTaken_byte (m : Mach) (d : Nat) (i : Fin 64) (t : RdTag) (b : Nat) : (m.rdqTaken d i t).byte b = (m.rdqAnswer d 0 i.val).byte b := by
  unfold Mach.rdqTaken
  extract_lets n
  rw [Mach.stSync_byte, Mach.rdqAnswer, Mach.rdqAnswer, Mach.putBytes_byte, Mach.putBytes_byte]
  generalize leBytes 4 (i.val + 0 * 2 ^ 28 + 2 ^ 31) = l
  have hn : ∀ k, Mach.byte { n with st := { n.st with rdreq := n.st.rdreq ++ [i.val] } } k = m.byte k := fun k => m.setTag_byte i t k
  exact Mach.storeBytes_byte_congr (d + 16) l hn b

/-! ## ST_RDQ -/

/-- The result that stands in a descriptor at `d`, with every other byte as before (R824). -/
def Answered (s : State) (d res k : Nat) (t : State) : Prop :=
  t.m.loadBytes (d + 16) 4 = leBytes 4 (k + res * 2 ^ 28 + 2 ^ 31) ∧ (∀ a, a < d + 16 ∨ d + 20 ≤ a → t.m.byte a = s.m.byte a) ∧ SameStores s t

theorem answered_of_bytes {s : State} {m n : Mach} {d res k : Nat} (hm : ∀ a, m.byte a = s.m.byte a)
    (hn : ∀ a, n.byte a = (m.rdqAnswer d res k).byte a) : Answered s d res k { s with m := n } := by
  have hload : n.loadBytes (d + 16) 4 = (m.rdqAnswer d res k).loadBytes (d + 16) 4 := Mach.loadBytes_congr _ _ fun a _ _ => hn a
  have hbyte : ∀ a, a < d + 16 ∨ d + 20 ≤ a → n.byte a = s.m.byte a := fun a ha => by
    rw [hn, Mach.rdqAnswer_byte _ _ _ _ _ ha, hm]
  rw [Mach.loadBytes_rdqAnswer] at hload
  exact ⟨hload, hbyte, rfl, rfl, rfl⟩

section
variable {s : State} (hlive : s.m.live = true)
include hlive

theorem exec_stRdqWrite (v : Word) (full : Bool) :
    exec (.stRdqWrite v full) s = .next { s with m := Mach.withEcc (s.m.atTick.rdqWrite v.toNat full) } :=
  s.run_writeCmd _ _ hlive

theorem does_stRdqWrite_full (v : Word) : Does (.stRdqWrite v true) s (fun t => t.m.get F.ST_STAT_RDQDROP = 1 ∧ OnlyRegs s t ∧
    SameRegs (· = F.ST_STAT_reg) s t) := by
  have hexec : exec (.stRdqWrite v true) s = .next { s with m := s.m.atTick.put F.ST_STAT_RDQDROP 1 } := by
    rw [exec_stRdqWrite hlive, Mach.rdqWrite, if_pos rfl, Mach.withEcc]
  exact ⟨_, hexec, Mach.get_put_self _ _ 1 (by decide) (by decide), (s.m.regsOnly_atTick.put _ 1).onlyRegs,
    fun a ha => (Mach.reg_put_ne _ F.ST_STAT_RDQDROP 1 ha).trans (s.m.atTick_reg a)⟩

end

theorem Mach.atTick_changes (m : Mach) : ∃ n w, m.atTick = { m with sysTime := n, wraps := w } := m.runTo_changes _

theorem Mach.atTick_clean (m : Mach) (a : Nat) : m.atTick.clean a = m.clean a := by
  obtain ⟨n, w, h⟩ := m.atTick_changes
  rw [h]
  rfl

theorem Mach.atTick_st (m : Mach) : m.atTick.st = m.st := by
  obtain ⟨n, w, h⟩ := m.atTick_changes
  rw [h]

theorem Mach.atTick_hasSess (m : Mach) : m.atTick.hasSess = m.hasSess := by
  rw [Mach.hasSess, Mach.sess, Mach.atTick_get]
  rfl

theorem Mach.atTick_stOn (m : Mach) : m.atTick.stOn = m.stOn := m.atTick_is F.ST_CTL_EN

section
variable {s : State} {v : Word} {o : Nat} (hlive : s.m.live = true) (hv : v.toNat = 0x20000000 + 8 * o) (ho : 8 * o + 24 ≤ 0x4000)
  (hclean : ∀ i, i < 16 → s.m.clean (mbxBase + 8 * o + i) = true)
include hlive hv ho hclean

theorem does_stRdqWrite_refused {dest : Option Nat} (hdest : stDest (leNat (s.m.loadBytes (mbxBase + 8 * o + 12) 4))
    (leNat (s.m.loadBytes (mbxBase + 8 * o + 8) 4)) = dest)
    (hbad : dest = none ∨ leNat (s.m.loadBytes (mbxBase + 8 * o + 8) 4) = 0 ∨ 4096 < leNat (s.m.loadBytes (mbxBase + 8 * o + 8) 4)) :
    Does (.stRdqWrite v false) s (fun t => Answered s (mbxBase + 8 * o) 3 0 t ∧ t.m.st = s.m.st) := by
  have hclean' : ∀ i, i < 16 → s.m.atTick.clean (mbxBase + 8 * o + i) = true := fun i hi => by rw [Mach.atTick_clean]; exact hclean i hi
  have hload : ∀ a k, s.m.atTick.loadBytes a k = s.m.loadBytes a k := fun a k => Mach.loadBytes_congr a k fun i _ _ => s.m.atTick_byte i
  have hexec : exec (.stRdqWrite v false) s = .next { s with m := s.m.atTick.rdqAnswer (mbxBase + 8 * o) 3 0 } := by
    rw [exec_stRdqWrite hlive, hv]
    cases dest with
    | none => rw [Mach.rdqWrite_of_none _ ho hclean' (by rw [hload, hload, hdest]), Mach.withEcc]
    | some p =>
      rw [Mach.rdqWrite_of_some _ ho hclean' (congrArg leNat (hload _ _)) (by rw [hload, hdest]), Mach.withEcc, if_pos]
      simpa using hbad
  exact ⟨_, hexec, answered_of_bytes s.m.atTick_byte fun _ => rfl, (Mach.rdqAnswer_st _ _ _ _).trans s.m.atTick_st⟩

/-- A descriptor whose destination and length are good (R824). -/
theorem exec_stRdqWrite_good {p : Nat} (hdest : stDest (leNat (s.m.loadBytes (mbxBase + 8 * o + 12) 4))
    (leNat (s.m.loadBytes (mbxBase + 8 * o + 8) 4)) = some p) (hpos : 0 < leNat (s.m.loadBytes (mbxBase + 8 * o + 8) 4))
    (hle : leNat (s.m.loadBytes (mbxBase + 8 * o + 8) 4) ≤ 4096) : exec (.stRdqWrite v false) s = .next { s with
      m :=
        if !s.m.hasSess || !s.m.stOn then s.m.atTick.rdqAnswer (mbxBase + 8 * o) 2 0
        else if s.tick.m.freeTags.isEmpty then s.m.atTick.rdqAnswer (mbxBase + 8 * o) 1 0
        else (s.m.atTick.fresh 6).2.rdqTaken (mbxBase + 8 * o)
          (s.tick.m.freeTags.getD ((s.m.atTick.fresh 6).1 % s.tick.m.freeTags.length) 0)
          { st := 1, host := leNat (s.m.loadBytes (mbxBase + 8 * o) 8), dest := p, len := leNat (s.m.loadBytes (mbxBase + 8 * o + 8) 4) } } := by
  have hclean' : ∀ i, i < 16 → s.m.atTick.clean (mbxBase + 8 * o + i) = true := fun i hi => by rw [Mach.atTick_clean]; exact hclean i hi
  have hload : ∀ a k, s.m.atTick.loadBytes a k = s.m.loadBytes a k := fun a k => Mach.loadBytes_congr a k fun i _ _ => s.m.atTick_byte i
  rw [exec_stRdqWrite hlive, hv, Mach.rdqWrite_of_some _ ho hclean' (congrArg leNat (hload _ _)) (by rw [hload, hdest]), Mach.withEcc, if_neg,
    Mach.atTick_hasSess, Mach.atTick_stOn, hload]
  · rfl
  · simp
    omega

theorem does_stRdqWrite_good {p : Nat} (hdest : stDest (leNat (s.m.loadBytes (mbxBase + 8 * o + 12) 4))
    (leNat (s.m.loadBytes (mbxBase + 8 * o + 8) 4)) = some p) (hpos : 0 < leNat (s.m.loadBytes (mbxBase + 8 * o + 8) 4))
    (hle : leNat (s.m.loadBytes (mbxBase + 8 * o + 8) 4) ≤ 4096) :
    (s.m.hasSess = false ∨ s.m.stOn = false → Does (.stRdqWrite v false) s (fun t => Answered s (mbxBase + 8 * o) 2 0 t ∧ t.m.st = s.m.st)) ∧
    (s.m.hasSess = true → s.m.stOn = true → s.tick.m.freeTags = [] →
      Does (.stRdqWrite v false) s (fun t => Answered s (mbxBase + 8 * o) 1 0 t ∧ t.m.st = s.m.st)) ∧
    (s.m.hasSess = true → s.m.stOn = true → s.tick.m.freeTags ≠ [] → Does (.stRdqWrite v false) s (fun t =>
      ∃ i ∈ s.tick.m.freeTags, Answered s (mbxBase + 8 * o) 0 i.val t ∧ t.m.st.rdreq = s.m.st.rdreq ++ [i.val] ∧
        t.m.st.tags = s.m.st.tags.set i { st := 1, host := leNat (s.m.loadBytes (mbxBase + 8 * o) 8), dest := p,
                                          len := leNat (s.m.loadBytes (mbxBase + 8 * o + 8) 4) })) := by
  have hexec := exec_stRdqWrite_good hlive hv ho hclean hdest hpos hle
  refine ⟨fun hoff => ?_, fun hsess hon hnone => ?_, fun hsess hon hfree => ?_⟩
  · have hclosed : (!s.m.hasSess || !s.m.stOn) = true := by simpa using hoff
    rw [if_pos hclosed] at hexec
    exact ⟨_, hexec, answered_of_bytes s.m.atTick_byte fun _ => rfl, (Mach.rdqAnswer_st _ _ _ _).trans s.m.atTick_st⟩
  · have hnone' : s.tick.m.freeTags.isEmpty = true := by rw [hnone]; rfl
    rw [hsess, hon, if_neg (by decide), if_pos hnone'] at hexec
    exact ⟨_, hexec, answered_of_bytes s.m.atTick_byte fun _ => rfl, (Mach.rdqAnswer_st _ _ _ _).trans s.m.atTick_st⟩
  · have hsome : ¬ s.tick.m.freeTags.isEmpty = true := by simpa using hfree
    rw [hsess, hon, if_neg (by decide), if_neg hsome] at hexec
    have hlt : (s.m.atTick.fresh 6).1 % s.tick.m.freeTags.length < s.tick.m.freeTags.length :=
      Nat.mod_lt _ (List.length_pos_iff.2 hfree)
    have hmem : s.tick.m.freeTags.getD ((s.m.atTick.fresh 6).1 % s.tick.m.freeTags.length) 0 ∈ s.tick.m.freeTags := by
      rw [List.getD_eq_getElem _ _ hlt]
      exact List.getElem_mem hlt
    obtain ⟨htags, hreq⟩ := (s.m.atTick.fresh 6).2.rdqTaken_st (mbxBase + 8 * o)
      (s.tick.m.freeTags.getD ((s.m.atTick.fresh 6).1 % s.tick.m.freeTags.length) 0)
      { st := 1, host := leNat (s.m.loadBytes (mbxBase + 8 * o) 8), dest := p, len := leNat (s.m.loadBytes (mbxBase + 8 * o + 8) 4) }
    have hst : (s.m.atTick.fresh 6).2.st = s.m.st := s.m.atTick_st
    rw [hst] at htags hreq
    exact ⟨_, hexec, _, hmem, answered_of_bytes (m := (s.m.atTick.fresh 6).2) s.m.atTick_byte fun b => Mach.rdqTaken_byte _ _ _ _ b, hreq,
      htags⟩

end

/-! ## Records of ST's own -/

/-- What a record that ST writes into the ring leaves: the tags, the count, and every line of C7 but ST_RX. -/
structure Mach.RingKeeps (m n : Mach) : Prop where
  tags : n.st.tags = m.st.tags
  now : n.now = m.now
  rests : ∀ e, e ≠ 12 → m.Rests 7 e → n.Rests 7 e

theorem Mach.RingKeeps.refl (m : Mach) : m.RingKeeps m := ⟨rfl, rfl, fun _ _ h => h⟩

theorem Mach.RingKeeps.trans {m n k : Mach} (h : m.RingKeeps n) (h' : n.RingKeeps k) : m.RingKeeps k :=
  ⟨h'.tags.trans h.tags, h'.now.trans h.now, fun e he hm => h'.rests e he (h.rests e he hm)⟩

theorem Mach.RingKeeps.put {m n : Mach} (h : m.RingKeeps n) (f : Fld) (v : Nat) (hf : f.addr < 0x400000) : m.RingKeeps (n.put f v) :=
  h.trans ⟨by rw [Mach.put_st], n.now_put f v, fun _ _ => (n.sameLines_put f v 7 hf).rests⟩

theorem Mach.pulse_st (m : Mach) (c : Fin 8) (e : Nat) : (m.pulse c e).st = m.st := by
  obtain ⟨r, x, b, h⟩ := m.pulse_changes c e
  rw [h]

theorem Mach.pulse_now (m : Mach) (c : Fin 8) (e : Nat) : (m.pulse c e).now = m.now := by
  obtain ⟨r, x, b, h⟩ := m.pulse_changes c e
  rw [h]
  rfl

theorem Mach.ringKeeps_ringWrite (m : Mach) (bytes : List Byte) (len cost : Nat) : m.RingKeeps (m.ringWrite bytes len cost) := by
  unfold Mach.ringWrite
  extract_lets pos m1 x m2
  have hbytes : m.RingKeeps m2 := by
    obtain ⟨a, b, c, h⟩ := m.putBytes_changes (mbxBase + (m.get F.ST_RXBASE_OFS + pos) % 0x4000) bytes
    have hm1 : m1 = { m with mem := a, eccBad := b, eccOne := c } := h
    have hlines : m.SameLines m2 7 := by
      simp only [m2, hm1]
      exact ⟨rfl, rfl, rfl, rfl, rfl, rfl⟩
    refine ⟨?_, ?_, fun _ _ => hlines.rests⟩
    · simp only [m2, x, hm1]
    · simp only [m2, hm1]
      rfl
  have hput := hbytes.put F.ST_RXWP_OFS ((pos + len) % max 16 m2.rxSize) (by decide)
  exact hput.trans ⟨by rw [Mach.pulse_st], Mach.pulse_now _ _ _, fun e he h => h.pulse_other (Or.inr he.symm)⟩

theorem Mach.ringKeeps_ringPut (m : Mach) (bytes : List Byte) (cost reserve : Nat) : m.RingKeeps (m.ringPut bytes cost reserve).2 := by
  unfold Mach.ringPut
  extract_lets size need rest wrap n
  split
  · exact Mach.RingKeeps.refl m
  · have hn : m.RingKeeps n := by
      simp only [n]
      split
      · exact Mach.RingKeeps.refl m
      · exact (m.ringKeeps_ringWrite _ _ _).put F.ST_RXWP_OFS 0 (by decide)
    exact hn.trans (n.ringKeeps_ringWrite _ _ _)

theorem Mach.ringKeeps_ownRecord (m : Mach) (ty a b : Nat) : m.RingKeeps (m.ownRecord ty a b) := by
  have hput := m.ringKeeps_ringPut (ownHeader ty a b) 0 0
  unfold Mach.ownRecord
  generalize m.ringPut (ownHeader ty a b) 0 0 = r at *
  obtain ⟨ok, n⟩ := r
  dsimp only at *
  split
  · exact hput
  · exact hput.put F.ST_STAT_RXDROP 1 (by decide)

/-! ## Tags -/

theorem Mach.setTag_sameLines (m : Mach) (i : Fin 64) (t : RdTag) (c : Fin 8) : m.SameLines (m.setTag i t) c := by
  have htagged : m.SameLines (m.tagged i t) c := ⟨rfl, rfl, rfl, rfl, rfl, rfl⟩
  obtain ⟨u, v, w, h⟩ := m.setTag_eq i t
  rw [h]
  exact ((htagged.trans (Mach.sameLines_put _ F.ST_TAGS_FREE u c (by decide))).trans
    (Mach.sameLines_put _ F.ST_TAGS_OUTST v c (by decide))).trans (Mach.sameLines_put _ F.ST_TAGS_QUAR w c (by decide))

theorem Mach.setTag_now (m : Mach) (i : Fin 64) (t : RdTag) : (m.setTag i t).now = m.now := by
  obtain ⟨u, v, w, h⟩ := m.setTag_eq i t
  rw [h, Mach.now_put, Mach.now_put, Mach.now_put]
  rfl

section
variable {s : State} (hlive : s.m.live = true) (i : Fin 64)
include hlive

theorem exec_readTimeout : exec (.readTimeout i) s = .next { s with m := s.m.readTimeout i } := by
  change s.run (fun m => m.ifLive (fun m => m.readTimeout i)) = _
  rw [State.run_eq, Mach.ifLive_of _ _ hlive]

theorem exec_readTimeout_none (h : (s.m.st.tags[i]).sent = none ∨ (s.m.st.tags[i]).st ≠ 1) : exec (.readTimeout i) s = .next s := by
  have hsame : s.m.readTimeout i = s.m := by
    unfold Mach.readTimeout
    extract_lets g
    split
    · next t hsent =>
      rw [if_neg]
      have hst : g.st ≠ 1 := h.resolve_left (fun hnone => by rw [show g.sent = none from hnone] at hsent; cases hsent)
      simp [hst]
    · rfl
  rw [exec_readTimeout hlive, hsame]

theorem does_readTimeout {t0 : Nat} (hsent : (s.m.st.tags[i]).sent = some t0) (hst : (s.m.st.tags[i]).st = 1) :
    Does (.readTimeout i) s (fun t => t.m.now = (s.m.runTo ((t0 + (s.m.st.tags[i]).time) / 4 * 4 + 4)).now ∧
      t.m.st.tags = s.m.st.tags.set i { s.m.st.tags[i] with st := 2, quarAt := t0 + (s.m.st.tags[i]).time } ∧ Pulsed s t 7 14 ∧
      SameStores s t) := by
  obtain ⟨g, hg⟩ : ∃ g, g = s.m.st.tags[i] := ⟨_, rfl⟩
  rw [← hg] at hsent hst ⊢
  obtain ⟨n, w, hrun⟩ := s.m.runTo_changes ((t0 + g.time) / 4 * 4 + 4)
  obtain ⟨u, hu⟩ : ∃ u, u = s.m.runTo ((t0 + g.time) / 4 * 4 + 4) := ⟨_, rfl⟩
  have hexec : exec (.readTimeout i) s = .next { s with
      m := ((u.setTag i { g with st := 2, quarAt := t0 + g.time }).ownRecord 0x83 i g.got).pulse 7 14 } := by
    rw [exec_readTimeout hlive, Mach.readTimeout, ← hg, hsent]
    dsimp only
    rw [hlive, hst, if_pos (by decide), ← hu]
  rw [← hu] at hrun ⊢
  have hrec := (u.setTag i { g with st := 2, quarAt := t0 + g.time }).ringKeeps_ownRecord 0x83 i g.got
  have hlines := u.setTag_sameLines i { g with st := 2, quarAt := t0 + g.time } 7
  have htag := u.setTag_st i { g with st := 2, quarAt := t0 + g.time }
  have hnow := u.setTag_now i { g with st := 2, quarAt := t0 + g.time }
  generalize u.setTag i { g with st := 2, quarAt := t0 + g.time } = k at *
  obtain ⟨-, hreset, hthermal⟩ := s.m.live_iff.1 hlive
  have hustate : u.reg (F.C_STAT_STATE 7).addr = s.m.reg (F.C_STAT_STATE 7).addr := by rw [hrun]; rfl
  have hucore : u.core 7 = s.m.core 7 := by rw [hrun]; rfl
  have huup : u.inReset = s.m.inReset ∧ u.pwr.thermal = s.m.pwr.thermal := by rw [hrun]; exact ⟨rfl, rfl⟩
  have hust : u.st = s.m.st := by rw [hrun]
  refine ⟨_, hexec, ?_, ?_, pulsed_of_rung (m := k) (hlines.core.trans hucore) ?_ ?_ ?_ fun h => ?_, rfl, rfl, rfl⟩
  · exact (Mach.pulse_now _ 7 14).trans (hrec.now.trans hnow)
  · exact (congrArg StSt.tags (Mach.pulse_st _ 7 14)).trans (hrec.tags.trans ((congrArg StSt.tags htag).trans (by rw [hust])))
  · exact congrArg (fun w : Word => bits w.toNat 1 0) (hlines.state.trans hustate)
  · have htick : (k.ownRecord 0x83 i g.got).tickNo = k.tickNo := by rw [Mach.tickNo, hrec.now]; rfl
    exact (Mach.pulse_tickNo _ 7 14).trans htick
  · exact ⟨hlines.up.1.trans (huup.1.trans hreset), hlines.up.2.trans (huup.2.trans hthermal)⟩
  · exact (hrec.rests 14 (by decide) h).pulsed (by decide)

theorem exec_quarantineExit : exec (.quarantineExit i) s = .next { s with m := s.m.quarExit i } := by
  change s.run (fun m => m.ifLive (fun m => m.quarExit i)) = _
  rw [State.run_eq, Mach.ifLive_of _ _ hlive]

theorem exec_quarantineExit_none (h : (s.m.st.tags[i]).st ≠ 2) : exec (.quarantineExit i) s = .next s := by
  rw [exec_quarantineExit hlive, Mach.quarExit, decide_eq_false h, Bool.and_false, if_neg Bool.false_ne_true]

theorem does_quarantineExit (h : (s.m.st.tags[i]).st = 2) : Does (.quarantineExit i) s (fun t =>
    t.m.now = (s.m.runTo ((s.m.st.tags[i]).quarAt + 2 * (s.m.st.tags[i]).time)).now ∧ t.m.st.tags = s.m.st.tags.set i {} ∧
      SameRegs (· = F.ST_TAGS_reg) s t ∧ Keeps s t) := by
  obtain ⟨u, hu⟩ : ∃ u, u = s.m.runTo ((s.m.st.tags[i]).quarAt + 2 * (s.m.st.tags[i]).time) := ⟨_, rfl⟩
  obtain ⟨n, w, hrun⟩ := s.m.runTo_changes ((s.m.st.tags[i]).quarAt + 2 * (s.m.st.tags[i]).time)
  have hexec : exec (.quarantineExit i) s = .next { s with m := u.setTag i {} } := by
    rw [exec_quarantineExit hlive, Mach.quarExit]
    rw [hlive, h, if_pos (by decide), ← hu]
  rw [← hu] at hrun ⊢
  have hust : u.st = s.m.st := by rw [hrun]
  refine ⟨_, hexec, u.setTag_now i {}, ?_, fun a ha => ?_, fun a => ?_, rfl, rfl, rfl⟩
  · exact (congrArg StSt.tags (u.setTag_st i {})).trans (by rw [hust])
  · exact (u.setTag_reg_ne i {} ha).trans (by rw [hrun]; rfl)
  · exact (u.setTag_byte i {} a).trans (by rw [hrun]; rfl)

end

/-! ## ST_RXRP -/

theorem foldl_add_eq_sum (l : List (Nat × Nat)) : l.foldl (fun (n : Nat) (r : Nat × Nat) => n + r.2) 0 = (l.map (·.2)).sum := by
  have h : ∀ k, l.foldl (fun (n : Nat) (r : Nat × Nat) => n + r.2) k = k + (l.map (·.2)).sum := by
    induction l with
    | nil => exact fun _ => rfl
    | cons r t ih =>
      intro k
      rw [List.foldl_cons, ih, List.map_cons, List.sum_cons, Nat.add_assoc]
  rw [h, Nat.zero_add]

/-- A burst that is handed to the lanes changes the lanes and the free values only. -/
theorem Mach.handOver_changes (m : Mach) (f : List Byte) : ∃ l c, m.handOver f = { m with ln := l, freeCtr := c } := by
  unfold Mach.handOver
  extract_lets ln n fresh
  split
  · next b t hb =>
    extract_lets e
    split
    · dsimp only
      split
      · exact ⟨_, _, rfl⟩
      · exact ⟨_, _, rfl⟩
    · exact ⟨_, _, rfl⟩
  · exact ⟨_, _, rfl⟩

theorem Mach.txFrame_changes (m : Mach) (f : Frame) : ∃ l c, m.txFrame f =
    { m with st := { m.st with tx := (f :: m.st.tx).take 16 }, ln := l, freeCtr := c } := by
  obtain ⟨l, c, h⟩ := Mach.handOver_changes { m with st := { m.st with tx := (f :: m.st.tx).take 16 } } f.bytes
  exact ⟨l, c, h⟩

theorem Mach.rxrpWrite_eq (m : Mach) (v : Nat) : m.rxrpWrite v =
    let size := max 16 m.rxSize
    let lin := m.st.linR + min ((v % size + size - m.get F.ST_RXRP_OFS % size) % size) (m.st.linW - m.st.linR)
    let freed := ((m.st.recs.filter (fun r => r.1 ≤ lin)).map (·.2)).sum
    let n : Mach := { m.put F.ST_RXRP_OFS v with
      st := { m.st with linR := lin, recs := m.st.recs.filter (fun r => lin < r.1), crRet := (m.st.crRet + freed) % 2 ^ 24 } }
    if freed = 0 then n else n.txCredit := by
  rw [Mach.rxrpWrite]
  dsimp only
  rw [foldl_add_eq_sum]

/-- CREDIT leaves the registers, the bytes, and of ST all but the frames sent (R809). -/
theorem Mach.txCredit_changes (m : Mach) : ∃ x l c, m.txCredit = { m with st := { m.st with tx := x }, ln := l, freeCtr := c } ∧
    (m.sess = 2 → ∃ g, x.head? = some g ∧ g.ty = 0x31 ∧ g.a = 0 ∧ g.b = m.st.crRet) := by
  unfold Mach.txCredit
  split
  · obtain ⟨l, c, h⟩ := m.txFrame_changes { ty := 0x31, flags := 0, seq := 0, ack := m.ackSeq, a := 0, b := m.st.crRet, payload := [] }
    exact ⟨_, l, c, h, fun _ => ⟨_, rfl, rfl, rfl, rfl⟩⟩
  · next hsess => exact ⟨m.st.tx, m.ln, m.freeCtr, rfl, fun h => absurd h (by simpa using hsess)⟩

theorem does_stRxrpWrite {s : State} (hlive : s.m.live = true) (v : Word) :
    let x := s.m.st
    let size := max 16 s.m.rxSize
    let lin := x.linR + min ((v.toNat % size + size - s.m.get F.ST_RXRP_OFS % size) % size) (x.linW - x.linR)
    let freed := ((x.recs.filter (fun r => decide (r.1 ≤ lin))).map (·.2)).sum
    Does (.stRxrpWrite v) s (fun t => t.m.get F.ST_RXRP_OFS = v.toNat ∧ t.m.st.linR = lin ∧
      t.m.st.recs = x.recs.filter (fun r => decide (lin < r.1)) ∧ t.m.st.crRet = (x.crRet + freed) % 2 ^ 24 ∧
      (freed ≠ 0 → s.m.sess = 2 → ∃ g, t.m.st.tx.head? = some g ∧ g.ty = 0x31 ∧ g.a = 0 ∧ g.b = (x.crRet + freed) % 2 ^ 24) ∧
      SameRegs (· = F.ST_RXRP_reg) s t ∧ Keeps s t) := by
  intro x size lin freed
  have hexec : exec (.stRxrpWrite v) s = .next { s with m := s.m.atTick.rxrpWrite v.toNat } := s.run_writeCmd _ _ hlive
  obtain ⟨y, hy⟩ : ∃ y : StSt, y = { x with linR := lin, recs := x.recs.filter (fun r => decide (lin < r.1)), crRet := (x.crRet + freed) % 2 ^ 24 } :=
    ⟨_, rfl⟩
  obtain ⟨n, hn⟩ : ∃ n : Mach, n = { s.m.atTick.put F.ST_RXRP_OFS v.toNat with st := y } := ⟨_, rfl⟩
  have hwrite : s.m.atTick.rxrpWrite v.toNat = if freed = 0 then n else n.txCredit := by
    rw [Mach.rxrpWrite_eq, Mach.rxSize, Mach.atTick_get, Mach.atTick_get, Mach.atTick_st, hn, hy]
    rfl
  have hst : n.st = y := by rw [hn]
  have hreg : ∀ a, n.reg a = (s.m.atTick.put F.ST_RXRP_OFS v.toNat).reg a := fun a => by rw [hn]; rfl
  have hbyte : ∀ a, n.byte a = s.m.byte a := fun a => by
    rw [hn]
    exact (s.m.atTick.put_byte F.ST_RXRP_OFS v.toNat a).trans (s.m.atTick_byte a)
  have hkeep : ∃ z l c, (if freed = 0 then n else n.txCredit) = { n with st := { n.st with tx := z }, ln := l, freeCtr := c } ∧
      (freed ≠ 0 → n.sess = 2 → ∃ g, z.head? = some g ∧ g.ty = 0x31 ∧ g.a = 0 ∧ g.b = n.st.crRet) := by
    obtain ⟨z, l, c, hcredit, hhead⟩ := n.txCredit_changes
    by_cases h : freed = 0
    · exact ⟨n.st.tx, n.ln, n.freeCtr, by rw [if_pos h], fun hne => absurd h hne⟩
    · exact ⟨z, l, c, by rw [if_neg h, hcredit], fun _ => hhead⟩
  obtain ⟨z, l, c, hk, hhead⟩ := hkeep
  have hsess : n.sess = s.m.sess := by
    rw [Mach.sess, Mach.get, hreg, Mach.reg_put_ne _ F.ST_RXRP_OFS _ (by decide), Mach.atTick_reg]
    rfl
  rw [hwrite, hk] at hexec
  refine ⟨_, hexec, ?_, ?_, ?_, ?_, fun hne hs => ?_, fun a ha => ?_, fun a => ?_, rfl, rfl, rfl⟩
  · refine Eq.trans ?_ ((s.m.atTick.get_put_self F.ST_RXRP_OFS v.toNat (by decide) (by decide)).trans (Nat.mod_eq_of_lt v.isLt))
    exact congrArg (fun w : Word => bits w.toNat 31 0) (hreg F.ST_RXRP_reg)
  · exact congrArg StSt.linR (hst.trans hy)
  · exact congrArg StSt.recs (hst.trans hy)
  · exact congrArg StSt.crRet (hst.trans hy)
  · obtain ⟨g, hg, hty, ha, hb⟩ := hhead hne (hsess.trans hs)
    exact ⟨g, hg, hty, ha, hb.trans (congrArg StSt.crRet (hst.trans hy))⟩
  · exact (hreg a).trans ((Mach.reg_put_ne _ F.ST_RXRP_OFS _ ha).trans (s.m.atTick_reg a))
  · exact hbyte a

/-- Settles O57: a descriptor, a tag and the read pointer, one lemma for each clause. -/
theorem readsAndRing : Obligations.ReadsAndRing := by
  intro s hlive x
  refine ⟨fun v => ⟨does_stRdqWrite_full hlive v, ?_⟩, fun i => ⟨exec_readTimeout_none hlive i, fun t0 => does_readTimeout hlive i,
    exec_quarantineExit_none hlive i, does_quarantineExit hlive i⟩, does_stRxrpWrite hlive⟩
  intro o hv ho d len dest answer hclean
  exact ⟨does_stRdqWrite_refused hlive hv ho hclean rfl, fun p => does_stRdqWrite_good hlive hv ho hclean⟩

end Sys2Proof.Machine
end

section
/-!
Settles the NV store: commands, record copies, the log and its search (R937-R948).
-/

namespace Sys2Proof.Machine

/-! ## Little-endian numbers -/

theorem leNat_lt (l : List Byte) : leNat l < 256 ^ l.length := by
  induction l with
  | nil => exact Nat.one_pos
  | cons b t ih =>
    have hb := b.isLt
    rw [leNat, List.length_cons, Nat.pow_succ]
    omega

theorem leNat_leBytes (n v : Nat) : leNat (leBytes n v) = v % 256 ^ n := by
  induction n generalizing v with
  | zero => rw [Nat.pow_zero, Nat.mod_one]; rfl
  | succ n ih =>
    have hsplit : 256 ^ (n + 1) = 256 * 256 ^ n := by rw [Nat.pow_succ, Nat.mul_comm]
    rw [leBytes, leNat, ih, BitVec.toNat_ofNat, hsplit, Nat.mod_mul]

/-! ## Bytes of the array -/

theorem NvArr.put_append (x : NvArr) (a : Nat) (l t : List Byte) : NvArr.put x a (l ++ t) = NvArr.put (NvArr.put x a l) (a + l.length) t := by
  induction l generalizing x a with
  | nil => rfl
  | cons b l ih =>
    change NvArr.put (Sparse.set _ x a b) (a + 1) (l ++ t) = _
    rw [ih, List.length_cons, Nat.add_assoc, Nat.add_comm 1]
    rfl

theorem NvArr.byte_set_self (x : NvArr) (a : Nat) (v : Byte) : NvArr.byte (Sparse.set (fun _ => 0) x a v) a = v := Sparse.get_set_self _ _ _ _

theorem NvArr.byte_set_ne (x : NvArr) {a k : Nat} (v : Byte) (h : k ≠ a) : NvArr.byte (Sparse.set (fun _ => 0) x a v) k = NvArr.byte x k :=
  Sparse.get_set_ne _ _ _ h

theorem NvArr.byte_put_of_out (x : NvArr) (a : Nat) (l : List Byte) {k : Nat} (h : k < a ∨ a + l.length ≤ k) :
    NvArr.byte (NvArr.put x a l) k = NvArr.byte x k := by
  induction l generalizing x a with
  | nil => rfl
  | cons b l ih =>
    rw [List.length_cons] at h
    change NvArr.byte (NvArr.put (Sparse.set _ x a b) (a + 1) l) k = _
    rw [ih _ _ (by omega), NvArr.byte_set_ne _ _ (by omega)]

theorem NvArr.bytes_congr {x y : NvArr} (a n : Nat) (h : ∀ k, a ≤ k → k < a + n → NvArr.byte y k = NvArr.byte x k) :
    NvArr.bytes y a n = NvArr.bytes x a n :=
  List.map_congr_left fun i hi => h _ (by omega) (by have := List.mem_range.1 hi; omega)

theorem NvArr.bytes_succ (x : NvArr) (a n : Nat) : NvArr.bytes x a (n + 1) = NvArr.byte x a :: NvArr.bytes x (a + 1) n := by
  rw [NvArr.bytes, List.range_succ_eq_map, List.map_cons, List.map_map]
  refine congrArg (NvArr.byte x a :: ·) (List.map_congr_left fun i _ => ?_)
  exact congrArg (NvArr.byte x) (by change a + (i + 1) = a + 1 + i; omega)

theorem NvArr.bytes_put_self (x : NvArr) (a : Nat) (l : List Byte) : NvArr.bytes (NvArr.put x a l) a l.length = l := by
  induction l generalizing x a with
  | nil => rfl
  | cons b l ih =>
    rw [List.length_cons, NvArr.bytes_succ]
    change NvArr.byte (NvArr.put (Sparse.set _ x a b) (a + 1) l) a :: NvArr.bytes (NvArr.put (Sparse.set _ x a b) (a + 1) l) (a + 1) l.length = _
    rw [ih, NvArr.byte_put_of_out _ _ _ (by omega), NvArr.byte_set_self]

theorem NvArr.bytes_length (x : NvArr) (a n : Nat) : (NvArr.bytes x a n).length = n := by rw [NvArr.bytes, List.length_map, List.length_range]

theorem NvArr.drop_take_bytes (x : NvArr) (a : Nat) {i k n : Nat} (h : i + k ≤ n) :
    ((NvArr.bytes x a n).drop i).take k = NvArr.bytes x (a + i) k := by
  rw [NvArr.bytes, NvArr.bytes]
  refine List.ext_getElem (by simp; omega) fun j _ _ => ?_
  simp [Nat.add_assoc]

theorem NvArr.byte_eq (x : NvArr) (a : Nat) : (NvArr.byte x a).toNat = leNat (NvArr.bytes x a 1) := by
  rw [NvArr.bytes_succ]
  rfl

/-- The word writes of some bytes put these bytes. -/
theorem NvArr.apply_wordsFrom (x : NvArr) (n a : Nat) (l : List Byte) (h : l.length ≤ 4 * n) :
    NvArr.apply x (wordsFrom n a l) = NvArr.put x a l := by
  induction n generalizing x a l with
  | zero =>
    have hnil : l = [] := List.length_eq_zero_iff.1 (by omega)
    rw [hnil]
    rfl
  | succ n ih =>
    cases l with
    | nil => rfl
    | cons b t =>
      obtain ⟨l, hl⟩ : ∃ l, l = b :: t := ⟨_, rfl⟩
      have hsplit : wordsFrom (n + 1) a (b :: t) = (a, l.take 4) :: wordsFrom n (a + 4) (l.drop 4) := by rw [hl]; rfl
      rw [hsplit, ← hl]
      rw [← hl] at h
      change NvArr.apply (NvArr.put x a (l.take 4)) (wordsFrom n (a + 4) (l.drop 4)) = _
      rw [ih _ _ _ (by rw [List.length_drop]; omega)]
      conv_rhs => rw [← List.take_append_drop 4 l, NvArr.put_append]
      by_cases hlen : 4 ≤ l.length
      · rw [List.length_take, Nat.min_eq_left hlen]
      · rw [List.drop_eq_nil_of_le (by omega)]
        rfl

theorem NvArr.bytes_put_of_out (x : NvArr) (a : Nat) (l : List Byte) (b n : Nat) (h : b + n ≤ a ∨ a + l.length ≤ b) :
    NvArr.bytes (NvArr.put x a l) b n = NvArr.bytes x b n :=
  NvArr.bytes_congr b n fun k _ _ => x.byte_put_of_out a l (by omega)

/-! ## The two-phase write -/

section
variable (x : NvArr) (a sealAt sealVal bodyAt : Nat) (head body : List Byte) (hhead : head.length ≤ 512) (hbody : body.length ≤ 1024)
include hhead hbody

/-- Both phases of a two-phase write: SEAL cleared, header and body, then SEAL (R939, R943). -/
theorem NvArr.apply_twoPhase : NvArr.apply (NvArr.apply x (twoPhase a sealAt sealVal head body bodyAt).1)
      (twoPhase a sealAt sealVal head body bodyAt).2 =
    NvArr.put (NvArr.put (NvArr.put (NvArr.put x (a + sealAt) (leBytes 4 0)) a head) (a + bodyAt) body) (a + sealAt) (leBytes 4 sealVal) := by
  have hfirst : NvArr.apply x (twoPhase a sealAt sealVal head body bodyAt).1 =
      NvArr.apply (NvArr.apply (NvArr.put x (a + sealAt) (leBytes 4 0)) (wordsFrom 128 a head)) (wordsFrom 256 (a + bodyAt) body) := by
    rw [NvArr.apply_append]
    rfl
  rw [hfirst, NvArr.apply_wordsFrom _ _ _ _ (by omega), NvArr.apply_wordsFrom _ _ _ _ (by omega)]
  rfl

variable (hseal : head.length ≤ sealAt) (hat : head.length ≤ bodyAt) (hapart : bodyAt + body.length ≤ sealAt ∨ sealAt + 4 ≤ bodyAt)
include hseal hat hapart

/-- What a two-phase write leaves: header, body and SEAL stand, and every byte outside them and below the end is as before. -/
theorem NvArr.twoPhase_reads {y : NvArr} (hy : y = NvArr.apply (NvArr.apply x (twoPhase a sealAt sealVal head body bodyAt).1)
      (twoPhase a sealAt sealVal head body bodyAt).2) :
    NvArr.bytes y a head.length = head ∧ NvArr.bytes y (a + bodyAt) body.length = body ∧
      NvArr.bytes y (a + sealAt) 4 = leBytes 4 sealVal ∧
      ∀ k, k < a ∨ (a + sealAt + 4 ≤ k ∧ a + bodyAt + body.length ≤ k) → NvArr.byte y k = NvArr.byte x k := by
  have hlen : (leBytes 4 sealVal).length = 4 := leBytes_length 4 _
  have hlen0 : (leBytes 4 0).length = 4 := leBytes_length 4 _
  rw [hy, NvArr.apply_twoPhase x a sealAt sealVal bodyAt head body hhead hbody]
  refine ⟨?_, ?_, ?_, fun k hk => ?_⟩
  · rw [NvArr.bytes_put_of_out _ _ _ _ _ (by omega), NvArr.bytes_put_of_out _ _ _ _ _ (by omega), NvArr.bytes_put_self]
  · rw [NvArr.bytes_put_of_out _ _ _ _ _ (by omega), NvArr.bytes_put_self]
  · have hself := NvArr.bytes_put_self (NvArr.put (NvArr.put (NvArr.put x (a + sealAt) (leBytes 4 0)) a head) (a + bodyAt) body) (a + sealAt)
      (leBytes 4 sealVal)
    rwa [hlen] at hself
  · rw [NvArr.byte_put_of_out _ _ _ (by omega), NvArr.byte_put_of_out _ _ _ (by omega), NvArr.byte_put_of_out _ _ _ (by omega),
      NvArr.byte_put_of_out _ _ _ (by omega)]

end

/-! ## A record copy -/

theorem NvArr.word_lt (x : NvArr) (a : Nat) : NvArr.word x a < 2 ^ 32 := by
  have h := leNat_lt (NvArr.bytes x a 4)
  rwa [NvArr.bytes_length] at h

/-- A word inside bytes that are known. -/
theorem NvArr.word_of_bytes (x : NvArr) {a n : Nat} {l : List Byte} (hl : NvArr.bytes x a n = l) {i : Nat} (h : i + 4 ≤ n) {v : Nat}
    (hv : (l.drop i).take 4 = leBytes 4 v) : NvArr.word x (a + i) = v % 2 ^ 32 := by
  rw [NvArr.word, ← x.drop_take_bytes a h, hl, hv, leNat_leBytes]
  rfl

theorem copyHeader_length (slot tag len gen bootno time : Nat) (payload : List Byte) :
    (copyHeader slot tag len gen bootno time payload).length = 28 := rfl

/-- The last word of a copy's header is the CRC of what stands before it and of the payload (R937). -/
theorem copyHeader_eq (slot tag len gen bootno time : Nat) (payload : List Byte) : ∃ h : List Byte, h.length = 24 ∧
    copyHeader slot tag len gen bootno time payload = h ++ leBytes 4 (crc32c (h ++ payload)).toNat := ⟨_, rfl, rfl⟩

/-- The generation that a commit writes (R939). -/
def NvArr.nextCopyGen (x : NvArr) (slot : Nat) (cur : Option Bool) : Nat :=
  match cur with
  | some b => nextGen (NvArr.word x (copyAt slot b + 8))
  | none => 1

/-- The copy that a commit writes (R939). -/
def nextCopy (cur : Option Bool) : Bool :=
  match cur with
  | some b => !b
  | none => false

theorem nextGen_lt {g : Nat} (h : g < 2 ^ 32) : nextGen g < 2 ^ 32 := by
  unfold nextGen
  split <;> omega

theorem NvArr.nextCopyGen_lt (x : NvArr) (slot : Nat) (cur : Option Bool) : NvArr.nextCopyGen x slot cur < 2 ^ 32 := by
  cases cur with
  | none => exact (by decide : 1 < 2 ^ 32)
  | some b => exact nextGen_lt (x.word_lt _)

theorem NvCmd.commit_eq (c : NvCmd) (x : NvArr) (cur : Option Bool) (bootno : Nat) : c.commit x cur bootno =
    twoPhase (copyAt c.slot (nextCopy cur)) 0x1C (0xFFFFFFFF - NvArr.nextCopyGen x c.slot cur)
      (copyHeader c.slot c.tag c.len (NvArr.nextCopyGen x c.slot cur) bootno (sysOf c.start) c.payload) c.payload 32 := by
  cases cur <;> rfl

/-- A commit leaves a valid copy with the payload, one generation on, and every byte outside it as before (R937-R939). -/
theorem NvCmd.commit_reads (c : NvCmd) (x : NvArr) (cur : Option Bool) (bootno : Nat) (hslot : c.slot < 128) (hlen : c.len ≤ 992)
    (hpay : c.payload.length = c.len) {y : NvArr} (hy : y = NvArr.apply (NvArr.apply x (c.commit x cur bootno).1) (c.commit x cur bootno).2) :
    NvArr.word y (copyAt c.slot (nextCopy cur) + 8) = NvArr.nextCopyGen x c.slot cur ∧
      NvArr.bytes y (copyAt c.slot (nextCopy cur) + 32) c.len = c.payload ∧ NvArr.valid y c.slot (nextCopy cur) = true ∧
      ∀ k, k < copyAt c.slot (nextCopy cur) ∨ copyAt c.slot (nextCopy cur) + 32 + c.len ≤ k → NvArr.byte y k = NvArr.byte x k := by
  have hgen := x.nextCopyGen_lt c.slot cur
  rw [NvCmd.commit_eq] at hy
  generalize NvArr.nextCopyGen x c.slot cur = gen at *
  generalize hat : copyAt c.slot (nextCopy cur) = a at *
  obtain ⟨hhead, hbody, hseal, hout⟩ := NvArr.twoPhase_reads x a 0x1C (0xFFFFFFFF - gen) 32
    (copyHeader c.slot c.tag c.len gen bootno (sysOf c.start) c.payload) c.payload (by rw [copyHeader_length]; decide) (by omega)
    (by rw [copyHeader_length]) (by rw [copyHeader_length]; decide) (Or.inr (by decide)) hy
  rw [copyHeader_length] at hhead
  rw [hpay] at hbody
  have hword := fun {i : Nat} (h : i + 4 ≤ 28) {v : Nat} => y.word_of_bytes hhead h (v := v)
  have hfield := fun {i k : Nat} (h : i + k ≤ 28) => (y.drop_take_bytes a h).symm.trans (by rw [hhead])
  have hslot' : (NvArr.byte y (a + 4)).toNat = c.slot := by
    rw [NvArr.byte_eq, hfield (by decide : 4 + 1 ≤ 28)]
    exact (leNat_leBytes 1 c.slot).trans (Nat.mod_eq_of_lt (by omega))
  have hlen' : leNat (NvArr.bytes y (a + 6) 2) = c.len := by
    rw [hfield (by decide : 6 + 2 ≤ 28)]
    exact (leNat_leBytes 2 c.len).trans (Nat.mod_eq_of_lt (by omega))
  have hmagic : NvArr.word y a = 0x52430632 := hword (i := 0) (by decide) rfl
  have hgen' : NvArr.word y (a + 8) = gen := (hword (i := 8) (by decide) rfl).trans (Nat.mod_eq_of_lt hgen)
  have hcrc : NvArr.word y (a + 0x18) = (crc32c (NvArr.bytes y a 0x18 ++ c.payload)).toNat := by
    obtain ⟨h, hlength, heq⟩ := copyHeader_eq c.slot c.tag c.len gen bootno (sysOf c.start) c.payload
    have hfirst : NvArr.bytes y a 0x18 = h := by
      rw [← Nat.add_zero a, ← y.drop_take_bytes a (by decide : 0 + 24 ≤ 28), hhead, heq, List.drop_zero, List.take_left' hlength]
    rw [hfirst]
    refine (hword (by decide) ?_).trans (Nat.mod_eq_of_lt (BitVec.isLt _))
    rw [heq, List.drop_left' hlength]
    rfl
  have hsealed : NvArr.word y (a + 0x1C) = 0xFFFFFFFF - gen := by
    rw [NvArr.word, hseal]
    exact (leNat_leBytes 4 _).trans (Nat.mod_eq_of_lt (by omega))
  refine ⟨hgen', hbody, ?_, fun k hk => hout k (by omega)⟩
  rw [NvArr.valid, hat, hmagic, hslot', hlen', hbody, hcrc, hsealed, hgen']
  simp [hlen]

/-! ## A log entry -/

/-- An entry of the log, sealed (R943, R944). -/
theorem NvEntry.writes_reads (e : NvEntry) (x : NvArr) (i : Nat) (hlen : e.bytes.length = 0x178) {y : NvArr}
    (hy : y = NvArr.apply (NvArr.apply x (e.writes i).1) (e.writes i).2) : NvArr.bytes y (logAt i) 0x178 = e.bytes ∧
      NvArr.sealed y i = true ∧ ∀ k, k < logAt i ∨ logAt i + 384 ≤ k → NvArr.byte y k = NvArr.byte x k := by
  have hcrc : (leBytes 4 (crc32c e.bytes).toNat).length = 4 := leBytes_length 4 _
  obtain ⟨hhead, -, hseal, hout⟩ := NvArr.twoPhase_reads x (logAt i) 0x17C (0xFFFFFFFF - leNat ((e.bytes.drop 4).take 4)) 0x178
    e.bytes (leBytes 4 (crc32c e.bytes).toNat) (by omega) (by omega) (by omega) (by omega) (Or.inl (by omega)) hy
  rw [hlen] at hhead
  refine ⟨hhead, ?_, fun k hk => hout k (by omega)⟩
  have hlseq : NvArr.word y (logAt i + 4) = leNat ((e.bytes.drop 4).take 4) := by
    rw [NvArr.word, ← y.drop_take_bytes (logAt i) (by decide : 4 + 4 ≤ 0x178), hhead]
  have hword : NvArr.word y (logAt i + 0x17C) = 0xFFFFFFFF - leNat ((e.bytes.drop 4).take 4) := by
    rw [NvArr.word, hseal]
    exact (leNat_leBytes 4 _).trans (Nat.mod_eq_of_lt (by omega))
  rw [NvArr.sealed, hword, hlseq]
  exact decide_eq_true rfl

/-- An index of the log, and a word. -/
def InLog (r : Option (Nat × Nat)) : Prop := ∀ i l, r = some (i, l) → i < 128 ∧ l < 2 ^ 32

/-- The newest entry that the search finds lies in the log, and its LSEQ is a word (R944). -/
theorem NvArr.newest_lt (x : NvArr) (bad : List Nat) : InLog (NvArr.newest x bad) := by
  unfold NvArr.newest
  refine List.foldlRecOn _ _ (motive := InLog) (fun i l h => by cases h) fun best hbest i hi => ?_
  have hnew : InLog (some (i, NvArr.word x (logAt i + 4))) := by
    intro j l h
    obtain ⟨rfl, rfl⟩ := Prod.mk.inj (Option.some.inj h)
    exact ⟨List.mem_range.1 hi, x.word_lt _⟩
  dsimp only
  split
  · exact hbest
  · split
    · split
      · exact hnew
      · exact hbest
    · exact hnew

/-! ## ERASE -/

theorem eraseWrites_eq (slot : Nat) (cur : Option Bool) : ∃ b, eraseWrites slot cur =
    [(copyAt slot (!b) + 0x1C, leBytes 4 0), (copyAt slot b + 0x1C, leBytes 4 0)] := ⟨_, rfl⟩

theorem copyAt_apart (slot : Nat) (b : Bool) : copyAt slot (!b) + 0x400 ≤ copyAt slot b ∨ copyAt slot b + 0x400 ≤ copyAt slot (!b) := by
  cases b <;> simp [copyAt]

theorem NvArr.erase_reads (x : NvArr) (slot : Nat) (cur : Option Bool) {y : NvArr} (hy : y = NvArr.apply x (eraseWrites slot cur)) :
    (∀ b, NvArr.word y (copyAt slot b + 0x1C) = 0) ∧
      ∀ k, (∀ b, k < copyAt slot b + 0x1C ∨ copyAt slot b + 0x20 ≤ k) → NvArr.byte y k = NvArr.byte x k := by
  obtain ⟨b, hb⟩ := eraseWrites_eq slot cur
  have hput : y = NvArr.put (NvArr.put x (copyAt slot (!b) + 0x1C) (leBytes 4 0)) (copyAt slot b + 0x1C) (leBytes 4 0) := by
    rw [hy, hb]
    rfl
  have hlen : (leBytes 4 0).length = 4 := rfl
  have hapart := copyAt_apart slot b
  have hlast : NvArr.word y (copyAt slot b + 0x1C) = 0 := by
    rw [hput, NvArr.word]
    exact congrArg leNat (NvArr.bytes_put_self _ _ (leBytes 4 0))
  have hfirst : NvArr.word y (copyAt slot (!b) + 0x1C) = 0 := by
    rw [hput, NvArr.word, NvArr.bytes_put_of_out _ _ _ _ _ (by omega)]
    exact congrArg leNat (NvArr.bytes_put_self _ _ (leBytes 4 0))
  refine ⟨fun c => ?_, fun k hk => ?_⟩
  · obtain rfl | rfl : c = b ∨ c = !b := by cases b <;> cases c <;> simp
    · exact hlast
    · exact hfirst
  · have hout := hk b
    have hout' := hk (!b)
    rw [hput, NvArr.byte_put_of_out _ _ _ (by omega), NvArr.byte_put_of_out _ _ _ (by omega)]

/-! ## Commands -/

theorem bits_put (v hi lo : Nat) : bits v hi lo = v / 2 ^ lo % 2 ^ (hi + 1 - lo) := by rw [bits, Nat.shiftRight_eq_div_pow]

/-- The command that the NV registers describe (R948). -/
def Mach.nvCommand (m : Mach) : NvCmd :=
  { cmd := m.get F.NV_CTL_CMD, slot := m.get F.NV_CTL_SLOT, len := m.get F.NV_LEN_LEN, tag := m.get F.NV_TAG_TAG,
    payload := ((List.range 256).flatMap (fun (i : Nat) => leBytes 4 (m.get (F.NV_BUF_W i)))).take (m.get F.NV_LEN_LEN), start := m.now }

/-- The machine with the command that its NV registers describe in progress (R947). -/
def Mach.nvStarted (m : Mach) : Mach := { m.put F.NV_CTL_GO 1 with nv := { m.nv with cmd := some m.nvCommand } }

/-- The machine with a command and a slot in NV_CTL. -/
def Mach.nvNamed (m : Mach) (cmd slot : Nat) : Mach := (m.put F.NV_CTL_CMD cmd).put F.NV_CTL_SLOT slot

theorem Mach.nvGo_eq (m : Mach) (cmd : Nat) (slot : BitVec 7) (hcmd : cmd < 16) : m.nvGo cmd slot.toNat =
    if !(m.nvNamed cmd slot.toNat).is F.NV_STAT_READY || (m.nvNamed cmd slot.toNat).is F.NV_STAT_BUSY then
      (m.nvNamed cmd slot.toNat).put F.NV_STAT_REFUSED 1
    else (m.nvNamed cmd slot.toNat).nvStarted.nvBusy := by
  have hslot := slot.isLt
  obtain ⟨v, hv⟩ : ∃ v : Word, v = BitVec.ofNat 32 (1 + 16 * (cmd % 16) + 65536 * (slot.toNat % 128)) := ⟨_, rfl⟩
  have hnat : v.toNat = 1 + 16 * cmd + 65536 * slot.toNat := by
    rw [hv, BitVec.toNat_ofNat]
    omega
  have hgo : v.getLsbD 0 = true := by
    rw [← BitVec.testBit_toNat, hnat, Nat.testBit_zero]
    simp
    omega
  have hc : bits v.toNat 7 4 = cmd := by rw [bits_put, hnat]; omega
  have hs : bits v.toNat 22 16 = slot.toNat := by rw [bits_put, hnat]; omega
  rw [Mach.nvGo, ← hv, Mach.nvCtl, hc, hs, hgo, if_neg (by decide)]
  rfl

/-- The registers of NV_CTL and NV_STAT. -/
def nvCtlRegs (a : Nat) : Prop := a = F.NV_CTL_reg ∨ a = F.NV_STAT_reg

theorem Mach.nvNamed_within (m : Mach) (cmd slot : Nat) : m.Within nvCtlRegs (m.nvNamed cmd slot) :=
  ((Mach.Within.refl _ m).put F.NV_CTL_CMD cmd (Or.inl rfl)).put F.NV_CTL_SLOT slot (Or.inl rfl)

theorem Mach.nvNamed_regsOnly (m : Mach) (cmd slot : Nat) : m.RegsOnly (m.nvNamed cmd slot) :=
  ((Mach.RegsOnly.refl m).put F.NV_CTL_CMD cmd).put F.NV_CTL_SLOT slot

theorem Mach.nvStarted_nvBusy (m : Mach) : m.nvStarted.nvBusy = m.nvStarted.put F.NV_STAT_BUSY 1 := rfl

theorem Mach.nvNamed_cmd (m : Mach) (cmd : Nat) (slot : BitVec 7) : (m.nvNamed cmd slot.toNat).get F.NV_CTL_CMD = cmd % 16 ∧
    (m.nvNamed cmd slot.toNat).get F.NV_CTL_SLOT = slot.toNat := by
  rw [Mach.nvNamed, Mach.get_put_of_lt _ F.NV_CTL_SLOT F.NV_CTL_CMD _ rfl (by decide) (by decide) (by decide),
    Mach.get_put_self _ F.NV_CTL_CMD _ (by decide) (by decide), Mach.get_put_self _ F.NV_CTL_SLOT _ (by decide) (by decide)]
  exact ⟨rfl, Nat.mod_eq_of_lt slot.isLt⟩

theorem Mach.RegsOnly.nv {m n : Mach} (h : m.RegsOnly n) : n.nv = m.nv := by
  rw [Mach.RegsOnly] at h
  rw [h]
  rfl

section
variable {s : State} (slot : BitVec 7) {i : Instr} {cmd : Nat} (hcmd : cmd < 16)
  (hexec : exec i s = .next { s with m := s.m.atTick.nvGo cmd slot.toNat })
include hcmd hexec

theorem does_nvGo_refused (hoff : s.m.get F.NV_STAT_READY = 0 ∨ s.m.get F.NV_STAT_BUSY = 1) : Does i s (fun t =>
    t.m.get F.NV_STAT_REFUSED = 1 ∧ OnlyRegs s t ∧ SameRegs (fun a => a = F.NV_CTL_reg ∨ a = F.NV_STAT_reg) s t) := by
  have hstat : ∀ f : Fld, f.addr = F.NV_STAT_reg → (s.m.atTick.nvNamed cmd slot.toNat).get f = s.m.get f := fun f hf => by
    rw [Mach.nvNamed, Mach.get_put_ne _ F.NV_CTL_SLOT f _ (by rw [hf]; decide), Mach.get_put_ne _ F.NV_CTL_CMD f _ (by rw [hf]; decide),
      Mach.atTick_get]
  have hclosed : (!(s.m.atTick.nvNamed cmd slot.toNat).is F.NV_STAT_READY || (s.m.atTick.nvNamed cmd slot.toNat).is F.NV_STAT_BUSY) = true := by
    rw [Mach.is, Mach.is, hstat _ rfl, hstat _ rfl]
    rcases hoff with h | h <;> simp [h]
  rw [Mach.nvGo_eq _ _ _ hcmd, if_pos hclosed] at hexec
  exact ⟨_, hexec, Mach.get_put_self _ F.NV_STAT_REFUSED 1 (by decide) (by decide),
    ((s.m.regsOnly_atTick.trans (Mach.nvNamed_regsOnly _ _ _)).put F.NV_STAT_REFUSED 1).onlyRegs,
    (((s.m.within_atTick _).trans (Mach.nvNamed_within _ _ _)).put F.NV_STAT_REFUSED 1 (Or.inr rfl)).sameRegs⟩

theorem does_nvGo_taken (hready : s.m.get F.NV_STAT_READY = 1) (hbusy : s.m.get F.NV_STAT_BUSY = 0) : Does i s (fun t =>
    t.m.get F.NV_STAT_BUSY = 1 ∧ t.m.get F.NV_CTL_GO = 1 ∧ t.m.get F.NV_CTL_CMD = cmd ∧ t.m.get F.NV_CTL_SLOT = slot.toNat ∧ Keeps s t ∧
      SameRegs (fun a => a = F.NV_CTL_reg ∨ a = F.NV_STAT_reg) s t ∧
      ∃ c, t.m.nv.cmd = some c ∧ t.m.nv = { s.m.nv with cmd := some c } ∧ c.cmd = cmd ∧ c.slot = slot.toNat ∧
        c.len = s.m.get F.NV_LEN_LEN ∧ c.tag = s.m.get F.NV_TAG_TAG ∧ c.start = s.tick.m.now) := by
  have hget : ∀ f : Fld, f.addr ≠ F.NV_CTL_reg → (s.m.atTick.nvNamed cmd slot.toNat).get f = s.m.get f := fun f hf => by
    rw [Mach.nvNamed, Mach.get_put_ne _ F.NV_CTL_SLOT f _ hf, Mach.get_put_ne _ F.NV_CTL_CMD f _ hf, Mach.atTick_get]
  have hopen : ¬ (!(s.m.atTick.nvNamed cmd slot.toNat).is F.NV_STAT_READY || (s.m.atTick.nvNamed cmd slot.toNat).is F.NV_STAT_BUSY) = true := by
    rw [Mach.is, Mach.is, hget _ (by decide), hget _ (by decide), hready, hbusy]
    decide
  rw [Mach.nvGo_eq _ _ _ hcmd, if_neg hopen, Mach.nvStarted_nvBusy] at hexec
  have hcommand := s.m.atTick.nvNamed_cmd cmd slot
  have hwithin := (s.m.within_atTick nvCtlRegs).trans (s.m.atTick.nvNamed_within cmd slot.toNat)
  have hnv := (s.m.regsOnly_atTick.trans (s.m.atTick.nvNamed_regsOnly cmd slot.toNat)).nv
  have hnow : (s.m.atTick.nvNamed cmd slot.toNat).now = s.m.atTick.now := by rw [Mach.nvNamed, Mach.now_put, Mach.now_put]
  rw [Nat.mod_eq_of_lt hcmd] at hcommand
  generalize s.m.atTick.nvNamed cmd slot.toNat = n at *
  have hstart : s.m.Within nvCtlRegs n.nvStarted := (hwithin.put F.NV_CTL_GO 1 (Or.inl rfl)).other rfl rfl
  have hend := hstart.put F.NV_STAT_BUSY 1 (Or.inr rfl)
  have hgo : ∀ f : Fld, f.addr = F.NV_CTL_reg → (n.nvStarted.put F.NV_STAT_BUSY 1).get f = (n.put F.NV_CTL_GO 1).get f := fun f hf =>
    Mach.get_put_ne _ F.NV_STAT_BUSY f _ (by rw [hf]; decide)
  refine ⟨_, hexec, Mach.get_put_self _ F.NV_STAT_BUSY 1 (by decide) (by decide), ?_, ?_, ?_, hend.keeps, hend.sameRegs, n.nvCommand, ?_, ?_,
    hcommand.1, hcommand.2, hget F.NV_LEN_LEN (by decide), hget F.NV_TAG_TAG (by decide), hnow⟩
  · exact (hgo F.NV_CTL_GO rfl).trans (Mach.get_put_self _ F.NV_CTL_GO 1 (by decide) (by decide))
  · exact (hgo F.NV_CTL_CMD rfl).trans ((Mach.get_put_of_gt _ F.NV_CTL_GO F.NV_CTL_CMD 1 rfl (by decide) (by decide) (by decide)).trans
      hcommand.1)
  · exact (hgo F.NV_CTL_SLOT rfl).trans ((Mach.get_put_of_gt _ F.NV_CTL_GO F.NV_CTL_SLOT 1 rfl (by decide) (by decide) (by decide)).trans
      hcommand.2)
  · exact congrArg NvSt.cmd (Mach.put_nv _ F.NV_STAT_BUSY 1)
  · refine (Mach.put_nv _ F.NV_STAT_BUSY 1).trans ?_
    rw [← hnv]
    rfl

end

/-! ## Entries that begin -/

/-- `n` differs from `m` by free values taken only. -/
def Mach.FreeOnly (m n : Mach) : Prop := ∃ k, n = { m with freeCtr := k }

theorem Mach.FreeOnly.refl (m : Mach) : m.FreeOnly m := ⟨m.freeCtr, rfl⟩

theorem Mach.FreeOnly.trans {m n k : Mach} (h : m.FreeOnly n) (h' : n.FreeOnly k) : m.FreeOnly k := by
  obtain ⟨i, rfl⟩ := h
  obtain ⟨j, rfl⟩ := h'
  exact ⟨j, rfl⟩

theorem Mach.freeOnly_fresh (m : Mach) (w : Nat) : m.FreeOnly (m.fresh w).2 := ⟨_, rfl⟩

theorem Mach.freeOnly_snapWord (m : Mach) (i : Nat) : m.FreeOnly (m.snapWord i).2 := by
  have hrefl := Mach.FreeOnly.refl m
  unfold Mach.snapWord
  split
  · exact hrefl
  · split
    · exact hrefl
    · split
      · split
        · exact hrefl
        · exact m.freeOnly_fresh 32
      · iterate 5
          split
          · exact hrefl
        dsimp only
        split <;> exact hrefl

theorem Mach.freeOnly_snapshot (m : Mach) : m.FreeOnly m.snapshot.2 := by
  unfold Mach.snapshot
  exact List.foldlRecOn _ _ (motive := fun x : List Byte × Mach => m.FreeOnly x.2) (Mach.FreeOnly.refl m)
    fun x hx i _ => hx.trans (x.2.freeOnly_snapWord i)

theorem Mach.freeOnly_entryBytes (m : Mach) (kind : Nat) : m.FreeOnly (m.entryBytes kind).2.2 := by
  unfold Mach.entryBytes
  by_cases h1 : kind = 1
  · simp only [h1, if_true]
    exact m.freeOnly_snapshot
  · by_cases h2 : kind = 2
    · simp only [h2, if_true]
      exact ((m.freeOnly_fresh 8).trans (Mach.freeOnly_fresh _ 16)).trans (Mach.freeOnly_snapshot _)
    · simp only [h1, h2, if_false]
      exact ((((((m.freeOnly_fresh 8).trans (Mach.freeOnly_fresh _ 16)).trans (Mach.freeOnly_fresh _ 3)).trans
        (Mach.freeOnly_fresh _ 48)).trans (Mach.freeOnly_fresh _ 48)).trans (Mach.freeOnly_fresh _ 16)).trans (Mach.freeOnly_snapshot _)

/-- A pending entry that begins changes of NV only what the entry is made of, and BUSY (R946). -/
theorem Mach.nvKick_eq (m : Mach) : ∃ y k v, m.nvKick = Mach.put { m with nv := y, freeCtr := k } F.NV_STAT_BUSY v ∧
    y.cmd = m.nv.cmd ∧ y.search = m.nv.search ∧ y.hasLog = m.nv.hasLog := by
  unfold Mach.nvKick
  extract_lets free kind n
  have hn : ∃ y k, n = { m with nv := y, freeCtr := k } ∧ y.cmd = m.nv.cmd ∧ y.search = m.nv.search ∧ y.hasLog = m.nv.hasLog := by
    simp only [n]
    split
    · obtain ⟨k, hk⟩ := m.freeOnly_entryBytes kind
      generalize m.entryBytes kind = r at *
      obtain ⟨bytes, lseq, n⟩ := r
      dsimp only at hk ⊢
      subst hk
      exact ⟨_, k, rfl, rfl, rfl, rfl⟩
    · exact ⟨m.nv, m.freeCtr, rfl, rfl, rfl, rfl⟩
  obtain ⟨y, k, hn, hkeep⟩ := hn
  rw [Mach.nvBusy, hn]
  exact ⟨y, k, _, rfl, hkeep⟩

/-! ## The end of a command -/

/-- The beat of NV_DONE, with what the array's ECC has found counted (R942). -/
def Mach.nvCounted (m : Mach) (c : NvCmd) (d : Nat) (e : NvEnd) : Mach :=
  ((m.runTo (c.start + c.bound d)).countHold F.NV_CNT_CORR e.corr).countHold F.NV_CNT_INVALID (b2n e.badA + b2n (e.badB && c.cmd != 4))

/-- A command that has given its result ends (R948, R949). -/
def Mach.nvEnded (m : Mach) : Mach :=
  let n : Mach := { m.put F.NV_CTL_GO 0 with nv := { m.nv with cmd := none } }
  if n.nv.resetDue then n.nvReset else (n.pulse 7 16).nvKick

/-- What a READ of copy `b` puts into the registers (R948). -/
def Mach.nvReadOut (m : Mach) (x : NvArr) (slot : Nat) (b : Bool) : Mach :=
  let a := copyAt slot b
  let len := leNat (NvArr.bytes x (a + 6) 2)
  let m := (m.toBuf (NvArr.bytes x (a + 32) len)).put F.NV_LEN_LEN len
  let m := (m.put F.NV_TAG_TAG (NvArr.byte x (a + 5)).toNat).put F.NV_GEN_GEN (NvArr.word x (a + 8))
  let m := (m.put F.NV_WHEN_LO_W (NvArr.word x (a + 16))).put F.NV_WHEN_HI_W (NvArr.word x (a + 20))
  m.put F.NV_STAT_CUR (b2n b)

/-- CUR after a COMMIT that failed its check: the copy that was current (R939). -/
def Mach.nvShowCur (m : Mach) (cur : Option Bool) : Mach :=
  match cur with
  | some b => m.put F.NV_STAT_CUR (b2n b)
  | none => m

section
variable (x : NvArr) (m : Mach) (d : Nat) (e : NvEnd) {c : NvCmd} (hcmd : m.nv.cmd = some c) (hrun : m.clk.running = true)
include hcmd hrun

theorem nvDone_log (h : c.cmd = 4) : nvDone x m d e = (x, (((m.nvCounted c d e).toBuf (NvArr.bytes x (logAt c.slot) 384)).put F.NV_STAT_RESULT
    (if NvArr.entryOk x c.slot && !e.badA then 0 else 4)).nvEnded) := by
  unfold nvDone
  rw [hcmd]
  dsimp only
  rw [hrun, if_neg (by decide), if_pos h]
  rfl

theorem nvDone_refused (h4 : c.cmd ≠ 4) (h : (c.cmd = 0 || 4 < c.cmd || !recordSlot c.slot || (c.cmd = 2 && 992 < c.len) : Bool) = true) :
    nvDone x m d e = (x, ((m.nvCounted c d e).put F.NV_STAT_RESULT 2).nvEnded) := by
  unfold nvDone
  rw [hcmd]
  dsimp only
  rw [hrun, if_neg (by decide), if_neg h4, if_pos h]
  rfl

variable (h4 : c.cmd ≠ 4) (hok : ¬ (c.cmd = 0 || 4 < c.cmd || !recordSlot c.slot || (c.cmd = 2 && 992 < c.len) : Bool) = true)
include h4 hok

theorem nvDone_read_none (h1 : c.cmd = 1) (hcur : NvArr.current x c.slot e.badA e.badB = none) :
    nvDone x m d e = (x, ((m.nvCounted c d e).put F.NV_STAT_RESULT 1).nvEnded) := by
  unfold nvDone
  rw [hcmd]
  dsimp only
  rw [hrun, if_neg (by decide), if_neg h4, if_neg hok, if_pos h1, hcur]
  rfl

theorem nvDone_read_some (h1 : c.cmd = 1) {b : Bool} (hcur : NvArr.current x c.slot e.badA e.badB = some b) :
    nvDone x m d e = (x, (((m.nvCounted c d e).nvReadOut x c.slot b).put F.NV_STAT_RESULT 0).nvEnded) := by
  unfold nvDone
  rw [hcmd]
  dsimp only
  rw [hrun, if_neg (by decide), if_neg h4, if_neg hok, if_pos h1, hcur]
  rfl

theorem nvDone_commit_ok (h2 : c.cmd = 2) (hverify : e.verify = true) : nvDone x m d e =
    (NvArr.apply (NvArr.apply x (c.commit x (NvArr.current x c.slot e.badA e.badB) (m.nvCounted c d e).nv.bootNo).1)
        (c.commit x (NvArr.current x c.slot e.badA e.badB) (m.nvCounted c d e).nv.bootNo).2,
      (((m.nvCounted c d e).put F.NV_STAT_CUR (b2n (nextCopy (NvArr.current x c.slot e.badA e.badB)))).put F.NV_STAT_RESULT 0).nvEnded) := by
  unfold nvDone
  rw [hcmd]
  dsimp only
  rw [hrun, if_neg (by decide), if_neg h4, if_neg hok, if_neg (by omega), if_pos h2, hverify, if_pos rfl]
  rfl

theorem nvDone_commit_bad (h2 : c.cmd = 2) (hverify : e.verify = false) : nvDone x m d e =
    (NvArr.apply x (c.commit x (NvArr.current x c.slot e.badA e.badB) (m.nvCounted c d e).nv.bootNo).1,
      (((m.nvCounted c d e).nvShowCur (NvArr.current x c.slot e.badA e.badB)).put F.NV_STAT_RESULT 3).nvEnded) := by
  unfold nvDone
  rw [hcmd]
  dsimp only
  rw [hrun, if_neg (by decide), if_neg h4, if_neg hok, if_neg (by omega), if_pos h2, hverify, if_neg Bool.false_ne_true]
  unfold Mach.nvCounted Mach.nvEnded Mach.nvShowCur
  generalize NvArr.current x c.slot e.badA e.badB = cur
  generalize Mach.countHold _ F.NV_CNT_INVALID _ = n
  generalize c.commit x cur n.nv.bootNo = p
  cases cur <;> rfl

theorem nvDone_erase (h3 : c.cmd = 3) : nvDone x m d e = (NvArr.apply x (eraseWrites c.slot (NvArr.current x c.slot e.badA e.badB)),
    ((m.nvCounted c d e).put F.NV_STAT_RESULT 0).nvEnded) := by
  unfold nvDone
  rw [hcmd]
  dsimp only
  rw [hrun, if_neg (by decide), if_neg h4, if_neg hok, if_neg (by omega), if_neg (by omega)]
  rfl

end

/-! ### What stands at the end of a command -/

/-- The registers of NV. -/
def nvRegs (a : Nat) : Prop := 0x340000 ≤ a ∧ a < 0x350000

/-- `n` differs from `m` by writes of the NV registers: the rest of NV, the count and C7's lines stay. -/
structure Mach.NvPut (m n : Mach) : Prop where
  within : m.Within nvRegs n
  nv : n.nv = m.nv
  now : n.now = m.now
  lines : m.SameLines n 7

theorem Mach.NvPut.refl (m : Mach) : m.NvPut m := ⟨Mach.Within.refl _ m, rfl, rfl, Mach.SameLines.refl m 7⟩

theorem Mach.NvPut.put {m n : Mach} (h : m.NvPut n) (f : Fld) (v : Nat) (hf : nvRegs f.addr) : m.NvPut (n.put f v) where
  within := h.within.put f v hf
  nv := (n.put_nv f v).trans h.nv
  now := (n.now_put f v).trans h.now
  lines := h.lines.trans (n.sameLines_put f v 7 (Nat.lt_trans hf.2 (by decide)))

theorem nvBuf_nvRegs {i : Nat} (h : i < 1024) : nvRegs (F.NV_BUF_W i).addr := by
  simp only [nvRegs, F.NV_BUF_W, F.NV_BUF_reg]
  omega

theorem Mach.NvPut.toBuf {m n : Mach} (h : m.NvPut n) (l : List Byte) (hl : l.length ≤ 4096) : m.NvPut (n.toBuf l) := by
  unfold Mach.toBuf
  have hlt : ∀ i ∈ List.range (ceilDiv l.length 4), i < 1024 := fun i hi => by
    have := List.mem_range.1 hi
    simp only [ceilDiv] at this
    omega
  generalize List.range (ceilDiv l.length 4) = r at hlt
  induction r generalizing n with
  | nil => exact h
  | cons i r ih =>
    exact ih (h.put (F.NV_BUF_W i) _ (nvBuf_nvRegs (hlt i (List.mem_cons_self ..)))) fun k hk => hlt k (List.mem_cons_of_mem _ hk)

/-- A machine whose command has ended: `m` had given the result (R948). -/
structure Mach.NvFinished (m t : Mach) : Prop where
  now : t.now = m.now
  go : t.get F.NV_CTL_GO = 0
  cmd : t.nv.cmd = none
  stat : ∀ f : Fld, f.addr = F.NV_STAT_reg → 0 < f.lo → t.get f = m.get f
  reg : ∀ a, nvRegs a → a ≠ F.NV_CTL_reg → a ≠ F.NV_STAT_reg → t.reg a = m.reg a
  byte : ∀ a, t.byte a = m.byte a
  pulsed : m.Rests 7 16 → t.Rung 7 16
  tick : t.tickNo = m.tickNo

theorem not_eventRegs_of_nvRegs {c a : Nat} (h : nvRegs a) : ¬ eventRegs c a := not_eventRegs_of_lt (Nat.lt_trans h.2 (by decide))

theorem Mach.nvEnded_of (m : Mach) (hreset : m.nv.resetDue = false) : m.NvFinished m.nvEnded := by
  obtain ⟨k, hk⟩ : ∃ k : Mach, k = { m.put F.NV_CTL_GO 0 with nv := { m.nv with cmd := none } } := ⟨_, rfl⟩
  have hended : m.nvEnded = (k.pulse 7 16).nvKick := by
    rw [Mach.nvEnded, ← hk]
    have hk' : k.nv.resetDue = false := by rw [hk]; exact hreset
    rw [hk', if_neg Bool.false_ne_true]
  obtain ⟨y, q, v, hkick, hcmd, -, -⟩ := (k.pulse 7 16).nvKick_eq
  obtain ⟨r, x, b, hpulse⟩ := k.pulse_changes 7 16
  have hpnv : (k.pulse 7 16).nv.cmd = none := by rw [hpulse, hk]
  have hknow : k.now = m.now := by rw [hk]; exact m.now_put F.NV_CTL_GO 0
  have hkreg : ∀ a, a ≠ F.NV_CTL_reg → k.reg a = m.reg a := fun a ha => by rw [hk]; exact m.reg_put_ne F.NV_CTL_GO 0 ha
  have hkgo : k.get F.NV_CTL_GO = 0 := by rw [hk]; exact m.get_put_self F.NV_CTL_GO 0 (by decide) (by decide)
  have hkbyte : ∀ a, k.byte a = m.byte a := fun a => by rw [hk]; exact m.put_byte F.NV_CTL_GO 0 a
  have hklines : m.SameLines k 7 := (m.sameLines_put F.NV_CTL_GO 0 7 (by decide)).trans (by rw [hk]; exact ⟨rfl, rfl, rfl, rfl, rfl, rfl⟩)
  obtain ⟨w, hw⟩ : ∃ w : Mach, w = { k.pulse 7 16 with nv := y, freeCtr := q } := ⟨_, rfl⟩
  have hwreg : ∀ a, nvRegs a → w.reg a = k.reg a := fun a ha => by
    rw [hw]
    exact k.pulse_reg_ne 7 16 (not_eventRegs_of_nvRegs ha)
  have hwlines : (k.pulse 7 16).SameLines w 7 := by rw [hw]; exact ⟨rfl, rfl, rfl, rfl, rfl, rfl⟩
  have hwnow : w.now = k.now := by rw [hw]; exact k.pulse_now 7 16
  rw [hended, hkick, ← hw]
  refine ⟨?_, ?_, ?_, fun f hf hlo => ?_, fun a ha hctl hstat => ?_, fun a => ?_, fun h => ?_, ?_⟩
  · rw [Mach.now_put, hwnow, hknow]
  · rw [Mach.get_put_ne _ F.NV_STAT_BUSY F.NV_CTL_GO _ (by decide), ← hkgo]
    exact congrArg (fun v : Word => bits v.toNat 0 0) (hwreg F.NV_CTL_reg ⟨by decide, by decide⟩)
  · rw [Mach.put_nv, hw, ← hpnv]
    exact hcmd
  · rw [Mach.get_put_of_gt _ F.NV_STAT_BUSY f _ hf hlo (by decide) (by decide), Mach.get, hf, hwreg F.NV_STAT_reg ⟨by decide, by decide⟩,
      hkreg _ (by decide), Mach.get, hf]
  · rw [Mach.reg_put_ne _ F.NV_STAT_BUSY _ hstat, hwreg a ha, hkreg a hctl]
  · rw [Mach.put_byte, hw, ← hkbyte a, hpulse]
    rfl
  · exact (w.sameLines_put F.NV_STAT_BUSY v 7 (by decide)).rung (hwlines.rung ((hklines.rests h).pulsed (by decide)))
  · rw [Mach.tickNo, Mach.now_put, hwnow, hknow]
    rfl

/-- A command has ended with a result: its beat, the registers of NV_CTL and NV_STAT, NV_DONE's event, and what has not changed. -/
def NvEnds (s : State) (c : NvCmd) (d res : Nat) (t : State) : Prop :=
  t.m.now = (s.m.runTo (c.start + c.bound d)).now ∧ t.m.get F.NV_STAT_RESULT = res ∧ t.m.get F.NV_CTL_GO = 0 ∧ t.m.nv.cmd = none ∧
    Pulsed s t 7 16 ∧ SameMem s t ∧ t.fuses = s.fuses ∧ t.pending = s.pending

theorem Mach.nvPut_counted (m : Mach) (c : NvCmd) (d : Nat) (e : NvEnd) : (m.runTo (c.start + c.bound d)).NvPut (m.nvCounted c d e) :=
  ((Mach.NvPut.refl _).put F.NV_CNT_CORR _ ⟨by decide, by decide⟩).put F.NV_CNT_INVALID _ ⟨by decide, by decide⟩

theorem nvDone_ends {s : State} {d : Nat} {e : NvEnd} {c : NvCmd} {y : NvArr} {n : Mach} {res : Nat} (hlive : s.m.live = true)
    (hreset : s.m.nv.resetDue = false) (hn : (s.m.runTo (c.start + c.bound d)).NvPut n) (hres : res < 8)
    (hdone : nvDone s.nvArr s.m d e = (y, (n.put F.NV_STAT_RESULT res).nvEnded)) :
    ∃ t, exec (.nvDone d e) s = .next t ∧ NvEnds s c d res t ∧ t.nvArr = y ∧ t.m.get F.NV_STAT_CUR = n.get F.NV_STAT_CUR ∧
      ∀ a, nvRegs a → a ≠ F.NV_CTL_reg → a ≠ F.NV_STAT_reg → t.m.reg a = n.reg a := by
  have hexec : exec (.nvDone d e) s = .next { s with nvArr := y, m := (n.put F.NV_STAT_RESULT res).nvEnded } := by
    change s.runNv (fun x m => nvDone x m d e) = _
    rw [State.runNv_eq, hdone]
  have hput := hn.put F.NV_STAT_RESULT res ⟨by decide, by decide⟩
  obtain ⟨u, w, hrun⟩ := s.m.runTo_changes (c.start + c.bound d)
  have hnv : (s.m.runTo (c.start + c.bound d)).nv = s.m.nv := by rw [hrun]
  have hend := (n.put F.NV_STAT_RESULT res).nvEnded_of (by rw [hput.nv, hnv]; exact hreset)
  have hresult : (n.put F.NV_STAT_RESULT res).get F.NV_STAT_RESULT = res :=
    (n.get_put_self F.NV_STAT_RESULT res (by decide) (by decide)).trans (Nat.mod_eq_of_lt hres)
  have hcur : (n.put F.NV_STAT_RESULT res).get F.NV_STAT_CUR = n.get F.NV_STAT_CUR :=
    n.get_put_of_gt F.NV_STAT_RESULT F.NV_STAT_CUR res rfl (by decide) (by decide) (by decide)
  have hreg : ∀ a, a ≠ F.NV_STAT_reg → (n.put F.NV_STAT_RESULT res).reg a = n.reg a := fun a ha => n.reg_put_ne F.NV_STAT_RESULT res ha
  generalize n.put F.NV_STAT_RESULT res = k at *
  obtain ⟨-, hup, hthermal⟩ := s.m.live_iff.1 hlive
  have hlines : s.m.core 7 = (s.m.runTo (c.start + c.bound d)).core 7 ∧
      (s.m.runTo (c.start + c.bound d)).reg (F.C_STAT_STATE 7).addr = s.m.reg (F.C_STAT_STATE 7).addr ∧
      (s.m.runTo (c.start + c.bound d)).inReset = s.m.inReset ∧ (s.m.runTo (c.start + c.bound d)).pwr = s.m.pwr := by
    rw [hrun]
    exact ⟨rfl, rfl, rfl, rfl⟩
  obtain ⟨hcore, hstate, hin, hpwr⟩ := hlines
  refine ⟨_, hexec, ⟨hend.now.trans hput.now, ?_, hend.go, hend.cmd, ?_, fun a => ?_, rfl, rfl⟩, rfl, ?_, fun a ha hctl hstat => ?_⟩
  · exact (hend.stat F.NV_STAT_RESULT rfl (by decide)).trans hresult
  · refine pulsed_of_rung (m := k) (hput.lines.core.trans hcore.symm) ?_ hend.tick ?_ hend.pulsed
    · exact congrArg (fun v : Word => bits v.toNat 1 0) (hput.lines.state.trans hstate)
    · exact ⟨hput.lines.up.1.trans (hin.trans hup), hput.lines.up.2.trans ((congrArg PwrSt.thermal hpwr).trans hthermal)⟩
  · exact (hend.byte a).trans ((hput.within.2 a).trans (by rw [hrun]; rfl))
  · exact (hend.stat F.NV_STAT_CUR rfl (by decide)).trans hcur
  · exact (hend.reg a ha hctl hstat).trans (hreg a hstat)

/-! ### The buffer -/

/-- One word of bytes put into NV_BUF (R948). -/
def Mach.bufWord (m : Mach) (l : List Byte) (i : Nat) : Mach :=
  m.put (F.NV_BUF_W i) (leNat ((l.drop (4 * i)).take 4 ++ (leBytes 4 (m.get (F.NV_BUF_W i))).drop ((l.drop (4 * i)).take 4).length))

theorem Mach.toBuf_eq (m : Mach) (l : List Byte) : m.toBuf l = (List.range (ceilDiv l.length 4)).foldl (fun m i => m.bufWord l i) m := rfl

theorem Mach.bufWord_get_ne (m : Mach) (l : List Byte) {i k : Nat} (h : k ≠ i) : (m.bufWord l i).get (F.NV_BUF_W k) = m.get (F.NV_BUF_W k) :=
  m.get_put_ne (F.NV_BUF_W i) (F.NV_BUF_W k) _ (by simp only [F.NV_BUF_W, F.NV_BUF_reg]; omega)

theorem Mach.bufWord_get_self (m : Mach) (l : List Byte) {i : Nat} (h : 4 * i + 4 ≤ l.length) :
    (m.bufWord l i).get (F.NV_BUF_W i) = leNat ((l.drop (4 * i)).take 4) := by
  have hlen : ((l.drop (4 * i)).take 4).length = 4 := by
    rw [List.length_take, List.length_drop]
    omega
  have hlt := leNat_lt ((l.drop (4 * i)).take 4)
  have hold : (leBytes 4 (m.get (F.NV_BUF_W i))).drop 4 = [] := List.drop_eq_nil_of_le (by rw [leBytes_length])
  rw [hlen] at hlt
  rw [Mach.bufWord, hlen, hold, List.append_nil, Mach.get_put_self _ (F.NV_BUF_W i) _ (by decide : 0 ≤ 31) (by decide : 31 < 32)]
  exact Nat.mod_eq_of_lt hlt

/-- NV_BUF holds the words of the bytes put into it (R948). -/
theorem Mach.toBuf_get (m : Mach) (l : List Byte) {i : Nat} (h : 4 * i + 4 ≤ l.length) :
    (m.toBuf l).get (F.NV_BUF_W i) = leNat ((l.drop (4 * i)).take 4) := by
  have hsteps : ∀ n, i < n → ((List.range n).foldl (fun m k => m.bufWord l k) m).get (F.NV_BUF_W i) = leNat ((l.drop (4 * i)).take 4) := by
    intro n
    induction n with
    | zero => exact fun h => absurd h (Nat.not_lt_zero i)
    | succ n ih =>
      intro hlt
      rw [List.range_succ, List.foldl_append, List.foldl_cons, List.foldl_nil]
      by_cases hi : i = n
      · rw [← hi]
        exact Mach.bufWord_get_self _ l h
      · rw [Mach.bufWord_get_ne _ l hi]
        exact ih (by omega)
  rw [Mach.toBuf_eq]
  exact hsteps _ (by simp only [ceilDiv]; omega)

/-- A word of some bytes of the array. -/
theorem NvArr.leNat_word (x : NvArr) (a n : Nat) {i : Nat} (h : 4 * i + 4 ≤ n) :
    leNat (((NvArr.bytes x a n).drop (4 * i)).take 4) = NvArr.word x (a + 4 * i) := by
  rw [x.drop_take_bytes a h]
  rfl

theorem Mach.NvPut.nvReadOut {m n : Mach} (h : m.NvPut n) (x : NvArr) (slot : Nat) (b : Bool)
    (hlen : leNat (NvArr.bytes x (copyAt slot b + 6) 2) ≤ 992) : m.NvPut (n.nvReadOut x slot b) := by
  have hbuf := h.toBuf (NvArr.bytes x (copyAt slot b + 32) (leNat (NvArr.bytes x (copyAt slot b + 6) 2)))
    (by rw [NvArr.bytes_length]; omega)
  exact (((((hbuf.put F.NV_LEN_LEN _ ⟨by decide, by decide⟩).put F.NV_TAG_TAG _ ⟨by decide, by decide⟩).put F.NV_GEN_GEN _
    ⟨by decide, by decide⟩).put F.NV_WHEN_LO_W _ ⟨by decide, by decide⟩).put F.NV_WHEN_HI_W _ ⟨by decide, by decide⟩).put F.NV_STAT_CUR _
    ⟨by decide, by decide⟩

section
variable (m : Mach) (x : NvArr) (slot : Nat) (b : Bool)

theorem Mach.nvReadOut_cur : (m.nvReadOut x slot b).get F.NV_STAT_CUR = b2n b := by
  refine (Mach.get_put_self _ F.NV_STAT_CUR _ (by decide) (by decide)).trans ?_
  cases b <;> rfl

theorem Mach.nvReadOut_len (hlen : leNat (NvArr.bytes x (copyAt slot b + 6) 2) ≤ 992) :
    (m.nvReadOut x slot b).get F.NV_LEN_LEN = leNat (NvArr.bytes x (copyAt slot b + 6) 2) := by
  unfold Mach.nvReadOut
  dsimp only
  rw [Mach.get_put_ne _ F.NV_STAT_CUR _ _ (by decide), Mach.get_put_ne _ F.NV_WHEN_HI_W _ _ (by decide),
    Mach.get_put_ne _ F.NV_WHEN_LO_W _ _ (by decide), Mach.get_put_ne _ F.NV_GEN_GEN _ _ (by decide),
    Mach.get_put_ne _ F.NV_TAG_TAG _ _ (by decide), Mach.get_put_self _ F.NV_LEN_LEN _ (by decide) (by decide)]
  exact Nat.mod_eq_of_lt (lt_of_le_of_lt hlen (by decide))

theorem Mach.nvReadOut_tag : (m.nvReadOut x slot b).get F.NV_TAG_TAG = (NvArr.byte x (copyAt slot b + 5)).toNat := by
  unfold Mach.nvReadOut
  dsimp only
  rw [Mach.get_put_ne _ F.NV_STAT_CUR _ _ (by decide), Mach.get_put_ne _ F.NV_WHEN_HI_W _ _ (by decide),
    Mach.get_put_ne _ F.NV_WHEN_LO_W _ _ (by decide), Mach.get_put_ne _ F.NV_GEN_GEN _ _ (by decide),
    Mach.get_put_self _ F.NV_TAG_TAG _ (by decide) (by decide)]
  exact Nat.mod_eq_of_lt (BitVec.isLt _)

theorem Mach.nvReadOut_gen : (m.nvReadOut x slot b).get F.NV_GEN_GEN = NvArr.word x (copyAt slot b + 8) := by
  unfold Mach.nvReadOut
  dsimp only
  rw [Mach.get_put_ne _ F.NV_STAT_CUR _ _ (by decide), Mach.get_put_ne _ F.NV_WHEN_HI_W _ _ (by decide),
    Mach.get_put_ne _ F.NV_WHEN_LO_W _ _ (by decide), Mach.get_put_self _ F.NV_GEN_GEN _ (by decide) (by decide)]
  exact Nat.mod_eq_of_lt (x.word_lt _)

theorem nvBuf_ne {i a : Nat} (h : a < 0x341000) : (F.NV_BUF_W i).addr ≠ a := by
  simp only [F.NV_BUF_W, F.NV_BUF_reg]
  omega

theorem Mach.nvReadOut_buf {i : Nat} (h : 4 * i + 4 ≤ leNat (NvArr.bytes x (copyAt slot b + 6) 2)) :
    (m.nvReadOut x slot b).get (F.NV_BUF_W i) = NvArr.word x (copyAt slot b + 32 + 4 * i) := by
  unfold Mach.nvReadOut
  dsimp only
  rw [Mach.get_put_ne _ F.NV_STAT_CUR _ _ (nvBuf_ne (by decide)), Mach.get_put_ne _ F.NV_WHEN_HI_W _ _ (nvBuf_ne (by decide)),
    Mach.get_put_ne _ F.NV_WHEN_LO_W _ _ (nvBuf_ne (by decide)), Mach.get_put_ne _ F.NV_GEN_GEN _ _ (nvBuf_ne (by decide)),
    Mach.get_put_ne _ F.NV_TAG_TAG _ _ (nvBuf_ne (by decide)), Mach.get_put_ne _ F.NV_LEN_LEN _ _ (nvBuf_ne (by decide)),
    Mach.toBuf_get _ _ (by rw [NvArr.bytes_length]; exact h), x.leNat_word _ _ h]

end

theorem NvArr.current_valid (x : NvArr) (slot : Nat) (badA badB : Bool) {b : Bool} (h : NvArr.current x slot badA badB = some b) :
    NvArr.valid x slot b = true := by
  unfold NvArr.current at h
  extract_lets va vb at h
  have hva : va = true → NvArr.valid x slot false = true := fun hv => (Bool.and_eq_true _ _ ▸ hv).1
  have hvb : vb = true → NvArr.valid x slot true = true := fun hv => (Bool.and_eq_true _ _ ▸ hv).1
  split at h
  · next hboth =>
    obtain ⟨ha, hb⟩ := Bool.and_eq_true_iff.1 hboth
    cases b
    · exact hva ha
    · exact hvb hb
  · split at h
    · next ha => exact Option.some.inj h ▸ hva ha
    · split at h
      · next hb => exact Option.some.inj h ▸ hvb hb
      · cases h

theorem NvArr.valid_len (x : NvArr) (slot : Nat) (b : Bool) (h : NvArr.valid x slot b = true) :
    leNat (NvArr.bytes x (copyAt slot b + 6) 2) ≤ 992 := by
  simp only [NvArr.valid, Bool.and_eq_true, decide_eq_true_eq] at h
  obtain ⟨⟨⟨⟨-, -⟩, hlen⟩, -⟩, -⟩ := h
  exact hlen

/-! ### One lemma for each command -/

/-- A command on a record slot is not refused (R948). -/
theorem nvDone_accepted {c : NvCmd} (h1 : 1 ≤ c.cmd) (h3 : c.cmd ≤ 3) (hslot : recordSlot c.slot = true) (hlen : c.cmd = 2 → c.len ≤ 992) :
    ¬ (c.cmd = 0 || 4 < c.cmd || !recordSlot c.slot || (c.cmd = 2 && 992 < c.len) : Bool) = true := by
  simp only [hslot, Bool.not_true, Bool.or_false, Bool.or_eq_true, decide_eq_true_eq, Bool.and_eq_true, not_or, not_and, not_lt]
  exact ⟨⟨by omega, by omega⟩, hlen⟩

section
variable {s : State} {d : Nat} {e : NvEnd} {c : NvCmd} (hlive : s.m.live = true) (hcmd : s.m.nv.cmd = some c)
  (hreset : s.m.nv.resetDue = false)
include hlive hcmd hreset

theorem does_nvDone_refused (h1 : 1 ≤ c.cmd) (h3 : c.cmd ≤ 3) (hslot : recordSlot c.slot = false) :
    Does (.nvDone d e) s (fun t => NvEnds s c d 2 t ∧ t.nvArr = s.nvArr) := by
  obtain ⟨hrun, -, -⟩ := s.m.live_iff.1 hlive
  obtain ⟨t, ht, hends, harr, -, -⟩ := nvDone_ends hlive hreset (s.m.nvPut_counted c d e) (by decide)
    (nvDone_refused s.nvArr s.m d e hcmd hrun (by omega) (by simp [hslot]))
  exact ⟨t, ht, hends, harr⟩

theorem does_nvDone_log (h4 : c.cmd = 4) : Does (.nvDone d e) s (fun t =>
    NvEnds s c d (if NvArr.entryOk s.nvArr c.slot && !e.badA then 0 else 4) t ∧ t.nvArr = s.nvArr ∧
      ∀ i, i < 96 → t.m.get (F.NV_BUF_W i) = NvArr.word s.nvArr (logAt c.slot + 4 * i)) := by
  obtain ⟨hrun, -, -⟩ := s.m.live_iff.1 hlive
  obtain ⟨t, ht, hends, harr, -, hreg⟩ := nvDone_ends hlive hreset ((s.m.nvPut_counted c d e).toBuf (NvArr.bytes s.nvArr (logAt c.slot) 384)
    (by rw [NvArr.bytes_length]; decide)) (by split <;> decide) (nvDone_log s.nvArr s.m d e hcmd hrun h4)
  refine ⟨t, ht, hends, harr, fun i hi => ?_⟩
  rw [Mach.get, hreg _ (nvBuf_nvRegs (by omega)) (nvBuf_ne (by decide)) (nvBuf_ne (by decide))]
  exact (Mach.toBuf_get _ _ (by rw [NvArr.bytes_length]; omega)).trans (NvArr.leNat_word _ _ _ (by omega))

theorem does_nvDone_read_none (h1 : c.cmd = 1) (hslot : recordSlot c.slot = true) (hcur : NvArr.current s.nvArr c.slot e.badA e.badB = none) :
    Does (.nvDone d e) s (fun t => NvEnds s c d 1 t ∧ t.nvArr = s.nvArr) := by
  obtain ⟨hrun, -, -⟩ := s.m.live_iff.1 hlive
  have hok := nvDone_accepted (by omega) (by omega) hslot (by omega)
  obtain ⟨t, ht, hends, harr, -, -⟩ := nvDone_ends hlive hreset (s.m.nvPut_counted c d e) (by decide)
    (nvDone_read_none s.nvArr s.m d e hcmd hrun (by omega) hok h1 hcur)
  exact ⟨t, ht, hends, harr⟩

theorem does_nvDone_read_some {b : Bool} (h1 : c.cmd = 1) (hslot : recordSlot c.slot = true)
    (hcur : NvArr.current s.nvArr c.slot e.badA e.badB = some b) : Does (.nvDone d e) s (fun t => NvEnds s c d 0 t ∧ t.nvArr = s.nvArr ∧
      t.m.get F.NV_LEN_LEN = leNat (NvArr.bytes s.nvArr (copyAt c.slot b + 6) 2) ∧
      t.m.get F.NV_GEN_GEN = NvArr.word s.nvArr (copyAt c.slot b + 8) ∧
      t.m.get F.NV_TAG_TAG = (NvArr.byte s.nvArr (copyAt c.slot b + 5)).toNat ∧ t.m.get F.NV_STAT_CUR = b2n b ∧
      ∀ i, 4 * i + 4 ≤ leNat (NvArr.bytes s.nvArr (copyAt c.slot b + 6) 2) →
        t.m.get (F.NV_BUF_W i) = NvArr.word s.nvArr (copyAt c.slot b + 32 + 4 * i)) := by
  obtain ⟨hrun, -, -⟩ := s.m.live_iff.1 hlive
  have hok := nvDone_accepted (by omega) (by omega) hslot (by omega)
  have hlen := NvArr.valid_len s.nvArr c.slot b (NvArr.current_valid s.nvArr c.slot e.badA e.badB hcur)
  obtain ⟨t, ht, hends, harr, hcurb, hreg⟩ := nvDone_ends hlive hreset ((s.m.nvPut_counted c d e).nvReadOut s.nvArr c.slot b hlen) (by decide)
    (nvDone_read_some s.nvArr s.m d e hcmd hrun (by omega) hok h1 hcur)
  have hget : ∀ f : Fld, nvRegs f.addr → f.addr ≠ F.NV_CTL_reg → f.addr ≠ F.NV_STAT_reg → t.m.get f =
      ((s.m.nvCounted c d e).nvReadOut s.nvArr c.slot b).get f := fun f hf hctl hstat => by
    rw [Mach.get, hreg _ hf hctl hstat]
    rfl
  refine ⟨t, ht, hends, harr, ?_, ?_, ?_, hcurb.trans (Mach.nvReadOut_cur _ _ _ _), fun i hi => ?_⟩
  · exact (hget F.NV_LEN_LEN ⟨by decide, by decide⟩ (by decide) (by decide)).trans (Mach.nvReadOut_len _ _ _ _ hlen)
  · exact (hget F.NV_GEN_GEN ⟨by decide, by decide⟩ (by decide) (by decide)).trans (Mach.nvReadOut_gen _ _ _ _)
  · exact (hget F.NV_TAG_TAG ⟨by decide, by decide⟩ (by decide) (by decide)).trans (Mach.nvReadOut_tag _ _ _ _)
  · exact (hget (F.NV_BUF_W i) (nvBuf_nvRegs (by omega)) (nvBuf_ne (by decide)) (nvBuf_ne (by decide))).trans
      (Mach.nvReadOut_buf _ _ _ _ hi)

theorem does_nvDone_commit (h2 : c.cmd = 2) (hlt : c.slot < 128) (hslot : recordSlot c.slot = true) (hlen : c.len ≤ 992)
    (hpay : c.payload.length = c.len) (hverify : e.verify = true) {cur : Option Bool}
    (hcur : NvArr.current s.nvArr c.slot e.badA e.badB = cur) : Does (.nvDone d e) s (fun t => NvEnds s c d 0 t ∧
      t.m.get F.NV_STAT_CUR = b2n (nextCopy cur) ∧
      NvArr.word t.nvArr (copyAt c.slot (nextCopy cur) + 8) = NvArr.nextCopyGen s.nvArr c.slot cur ∧
      NvArr.bytes t.nvArr (copyAt c.slot (nextCopy cur) + 32) c.len = c.payload ∧ NvArr.valid t.nvArr c.slot (nextCopy cur) = true ∧
      ∀ k, k < copyAt c.slot (nextCopy cur) ∨ copyAt c.slot (nextCopy cur) + 32 + c.len ≤ k → NvArr.byte t.nvArr k = NvArr.byte s.nvArr k) := by
  obtain ⟨hrun, -, -⟩ := s.m.live_iff.1 hlive
  have hok := nvDone_accepted (by omega) (by omega) hslot (fun _ => hlen)
  have hdone := nvDone_commit_ok s.nvArr s.m d e hcmd hrun (by omega) hok h2 hverify
  rw [hcur] at hdone
  obtain ⟨t, ht, hends, harr, hcurb, -⟩ := nvDone_ends hlive hreset ((s.m.nvPut_counted c d e).put F.NV_STAT_CUR (b2n (nextCopy cur))
    ⟨by decide, by decide⟩) (by decide) hdone
  obtain ⟨hgen, hbody, hvalid, hout⟩ := c.commit_reads s.nvArr cur (s.m.nvCounted c d e).nv.bootNo hlt hlen hpay harr
  refine ⟨t, ht, hends, hcurb.trans ?_, hgen, hbody, hvalid, hout⟩
  refine (Mach.get_put_self _ F.NV_STAT_CUR _ (by decide) (by decide)).trans ?_
  cases nextCopy cur <;> rfl

theorem does_nvDone_commit_bad (h2 : c.cmd = 2) (hslot : recordSlot c.slot = true) (hlen : c.len ≤ 992) (hverify : e.verify = false) :
    Does (.nvDone d e) s (fun t => NvEnds s c d 3 t) := by
  obtain ⟨hrun, -, -⟩ := s.m.live_iff.1 hlive
  have hok := nvDone_accepted (by omega) (by omega) hslot (fun _ => hlen)
  have hput : (s.m.runTo (c.start + c.bound d)).NvPut
      ((s.m.nvCounted c d e).nvShowCur (NvArr.current s.nvArr c.slot e.badA e.badB)) := by
    cases NvArr.current s.nvArr c.slot e.badA e.badB with
    | none => exact s.m.nvPut_counted c d e
    | some b => exact (s.m.nvPut_counted c d e).put F.NV_STAT_CUR (b2n b) ⟨by decide, by decide⟩
  obtain ⟨t, ht, hends, -⟩ := nvDone_ends hlive hreset hput (by decide)
    (nvDone_commit_bad s.nvArr s.m d e hcmd hrun (by omega) hok h2 hverify)
  exact ⟨t, ht, hends⟩

theorem does_nvDone_erase (h3 : c.cmd = 3) (hslot : recordSlot c.slot = true) : Does (.nvDone d e) s (fun t => NvEnds s c d 0 t ∧
    NvArr.word t.nvArr (copyAt c.slot false + 0x1C) = 0 ∧ NvArr.word t.nvArr (copyAt c.slot true + 0x1C) = 0 ∧
    ∀ k, (∀ b, k < copyAt c.slot b + 0x1C ∨ copyAt c.slot b + 0x20 ≤ k) → NvArr.byte t.nvArr k = NvArr.byte s.nvArr k) := by
  obtain ⟨hrun, -, -⟩ := s.m.live_iff.1 hlive
  have hok := nvDone_accepted (by omega) (by omega) hslot (by omega)
  obtain ⟨t, ht, hends, harr, -⟩ := nvDone_ends hlive hreset (s.m.nvPut_counted c d e) (by decide)
    (nvDone_erase s.nvArr s.m d e hcmd hrun (by omega) hok h3)
  obtain ⟨hseal, hout⟩ := NvArr.erase_reads s.nvArr c.slot _ harr
  exact ⟨t, ht, hends, hseal false, hseal true, hout⟩

end

theorem exec_nvDone_none {s : State} (d : Nat) (e : NvEnd) (h : s.m.nv.cmd = none) : exec (.nvDone d e) s = .next s := by
  change s.runNv (fun x m => nvDone x m d e) = _
  rw [State.runNv_eq, nvDone, h]

/-! ## The log -/

theorem exec_nvLogEntry_none {s : State} (d : Nat) (h : s.m.nv.entry = none) : exec (.nvLogEntry d) s = .next s := by
  change s.runNv (fun x m => nvLogEntry x m d) = _
  rw [State.runNv_eq, nvLogEntry, h]

theorem exec_nvLogSearchDone_none {s : State} (d corr : Nat) (bad : List Nat) (h : s.m.nv.search = none) :
    exec (.nvLogSearchDone d corr bad) s = .next s := by
  change s.run (fun m => nvSearchDone s.nvArr m d corr bad) = _
  rw [State.run_eq, nvSearchDone, h]

/-- A pending entry that begins leaves the count, the bytes, and every register but BUSY. -/
theorem Mach.nvKick_keeps (m : Mach) : m.nvKick.now = m.now ∧ (∀ a, m.nvKick.byte a = m.byte a) ∧
    (∀ a, a ≠ F.NV_STAT_reg → m.nvKick.reg a = m.reg a) ∧ m.nvKick.get F.NV_STAT_READY = m.get F.NV_STAT_READY ∧
    m.nvKick.nv.search = m.nv.search ∧ m.nvKick.nv.hasLog = m.nv.hasLog := by
  obtain ⟨y, k, v, hkick, -, hsearch, hlog⟩ := m.nvKick_eq
  rw [hkick]
  refine ⟨?_, fun a => ?_, fun a ha => ?_, ?_, ?_, ?_⟩
  · rw [Mach.now_put]
    rfl
  · rw [Mach.put_byte]
    rfl
  · rw [Mach.reg_put_ne _ F.NV_STAT_BUSY _ ha]
    rfl
  · rw [Mach.get_put_of_gt _ F.NV_STAT_BUSY F.NV_STAT_READY _ rfl (by decide) (by decide) (by decide)]
    rfl
  · rw [Mach.put_nv]
    exact hsearch
  · rw [Mach.put_nv]
    exact hlog

/-- READY and BOOTNO shown. -/
def Mach.nvShown (m : Mach) : Mach := (m.put F.NV_STAT_READY 1).put F.NV_BOOTNO_N m.nv.bootNo

theorem Mach.nvShow_eq (m : Mach) (hsearch : m.nv.search = none) (hup : m.inReset = false) : m.nvShow =
    if m.nv.hasLog then (m.nvShown.put F.NV_LOGHEAD_IDX m.nv.logIdx).put F.NV_LOGSEQ_LSEQ m.nv.logSeq else m.nvShown := by
  rw [Mach.nvShow, hsearch, hup, if_neg (by decide), Mach.nvShown]
  simp

/-- What the search and the log show once the search is over (R944, R947). -/
structure Mach.NvShows (m n : Mach) : Prop where
  now : n.now = m.now
  nv : n.nv = m.nv
  byte : ∀ a, n.byte a = m.byte a
  ready : n.get F.NV_STAT_READY = 1
  boot : n.get F.NV_BOOTNO_N = m.nv.bootNo % 2 ^ 32
  log : m.nv.hasLog = true → n.get F.NV_LOGHEAD_IDX = m.nv.logIdx % 2 ^ 7 ∧ n.get F.NV_LOGSEQ_LSEQ = m.nv.logSeq % 2 ^ 32

theorem Mach.nvShows_nvShow (m : Mach) (hsearch : m.nv.search = none) (hup : m.inReset = false) : m.NvShows m.nvShow := by
  have hready : m.nvShown.get F.NV_STAT_READY = 1 := by
    rw [Mach.nvShown, Mach.get_put_ne _ F.NV_BOOTNO_N _ _ (by decide), Mach.get_put_self _ F.NV_STAT_READY _ (by decide) (by decide)]
    rfl
  have hboot : m.nvShown.get F.NV_BOOTNO_N = m.nv.bootNo % 2 ^ 32 := Mach.get_put_self _ F.NV_BOOTNO_N _ (by decide) (by decide)
  have hnow : m.nvShown.now = m.now := by rw [Mach.nvShown, Mach.now_put, Mach.now_put]
  have hnv : m.nvShown.nv = m.nv := by rw [Mach.nvShown, Mach.put_nv, Mach.put_nv]
  have hbyte : ∀ a, m.nvShown.byte a = m.byte a := fun a => by rw [Mach.nvShown, Mach.put_byte, Mach.put_byte]
  rw [m.nvShow_eq hsearch hup]
  split
  · refine ⟨?_, ?_, fun a => ?_, ?_, ?_, fun _ => ⟨?_, ?_⟩⟩
    · rw [Mach.now_put, Mach.now_put, hnow]
    · rw [Mach.put_nv, Mach.put_nv, hnv]
    · rw [Mach.put_byte, Mach.put_byte, hbyte]
    · rw [Mach.get_put_ne _ F.NV_LOGSEQ_LSEQ _ _ (by decide), Mach.get_put_ne _ F.NV_LOGHEAD_IDX _ _ (by decide), hready]
    · rw [Mach.get_put_ne _ F.NV_LOGSEQ_LSEQ _ _ (by decide), Mach.get_put_ne _ F.NV_LOGHEAD_IDX _ _ (by decide), hboot]
    · rw [Mach.get_put_ne _ F.NV_LOGSEQ_LSEQ _ _ (by decide), Mach.get_put_self _ F.NV_LOGHEAD_IDX _ (by decide) (by decide)]
      rfl
    · exact Mach.get_put_self _ F.NV_LOGSEQ_LSEQ _ (by decide) (by decide)
  · next hlog => exact ⟨hnow, hnv, hbyte, hready, hboot, fun h => absurd h hlog⟩

theorem Mach.nextLog_lt (m : Mach) : m.nextLog < 128 := by
  unfold Mach.nextLog
  split
  · exact Nat.mod_lt _ (by decide)
  · decide

/-- An entry has been sealed: the log's newest (R944). -/
def Mach.nvLogged (m : Mach) (e : NvEntry) : Mach :=
  { m with
    nv := { m.nv with entry := none, hasLog := true, logIdx := m.nextLog, logSeq := leNat ((e.bytes.drop 4).take 4) } }

theorem does_nvLogEntry {s : State} {e : NvEntry} (d : Nat) (hlive : s.m.live = true) (hentry : s.m.nv.entry = some e)
    (hsearch : s.m.nv.search = none) (hreset : s.m.nv.resetDue = false) (hlen : e.bytes.length = 0x178) :
    Does (.nvLogEntry d) s (fun t => t.m.now = (s.m.runTo (e.start + min d 60000)).now ∧
      t.m.get F.NV_LOGHEAD_IDX = s.m.nextLog ∧ t.m.get F.NV_LOGSEQ_LSEQ = leNat ((e.bytes.drop 4).take 4) ∧ t.m.nv.hasLog = true ∧
      NvArr.bytes t.nvArr (logAt s.m.nextLog) 0x178 = e.bytes ∧ NvArr.sealed t.nvArr s.m.nextLog = true ∧
      (∀ k, k < logAt s.m.nextLog ∨ logAt s.m.nextLog + 384 ≤ k → NvArr.byte t.nvArr k = NvArr.byte s.nvArr k) ∧ SameMem s t ∧
      t.fuses = s.fuses ∧ t.pending = s.pending) := by
  obtain ⟨hrun, hup, -⟩ := s.m.live_iff.1 hlive
  obtain ⟨y, w, hto⟩ := s.m.runTo_changes (e.start + min d 60000)
  obtain ⟨u, hu⟩ : ∃ u, u = s.m.runTo (e.start + min d 60000) := ⟨_, rfl⟩
  obtain ⟨k, hk⟩ : ∃ k : Mach, k = u.nvLogged e := ⟨_, rfl⟩
  rw [← hu] at hto ⊢
  have hnext : u.nextLog = s.m.nextLog := by rw [hto]; rfl
  have hkup : k.inReset = false := by rw [hk, hto]; exact hup
  have hksearch : k.nv.search = none := by rw [hk, hto]; exact hsearch
  have hshow := k.nvShows_nvShow hksearch hkup
  have hexec : exec (.nvLogEntry d) s = .next { s with
      nvArr := NvArr.apply (NvArr.apply s.nvArr (e.writes u.nextLog).1) (e.writes u.nextLog).2, m := k.nvShow.nvKick } := by
    have hdue : k.nvShow.nv.resetDue = false := by rw [hshow.nv, hk, hto]; exact hreset
    change s.runNv (fun x m => nvLogEntry x m d) = _
    rw [State.runNv_eq, nvLogEntry, hentry]
    dsimp only
    rw [hrun, if_neg (by decide), ← hu]
    change Host.Outcome.next ({ s with nvArr := _, m := if (u.nvLogged e).nvShow.nv.resetDue then _ else (u.nvLogged e).nvShow.nvKick } : State) = _
    rw [← hk, hdue, if_neg Bool.false_ne_true]
  obtain ⟨hnow, hbyte, hreg, -, -, hlog⟩ := k.nvShow.nvKick_keeps
  obtain ⟨hidx, hseq⟩ := hshow.log (by rw [hk]; rfl)
  have hget : ∀ f : Fld, f.addr ≠ F.NV_STAT_reg → k.nvShow.nvKick.get f = k.nvShow.get f := fun f hf => by
    rw [Mach.get, hreg _ hf]
    rfl
  have hlseq : leNat ((e.bytes.drop 4).take 4) < 2 ^ 32 := by
    refine lt_of_lt_of_le (leNat_lt _) (Nat.pow_le_pow_right (by decide) (List.length_take_le 4 _) : 256 ^ _ ≤ 256 ^ 4)
  obtain ⟨hbytes, hsealed, hout⟩ := e.writes_reads s.nvArr u.nextLog hlen rfl
  rw [hnext] at hbytes hsealed hout
  rw [hnext] at hexec
  refine ⟨_, hexec, ?_, ?_, ?_, ?_, hbytes, hsealed, hout, fun a => ?_, rfl, rfl⟩
  · exact hnow.trans (hshow.now.trans (by rw [hk]; rfl))
  · refine (hget F.NV_LOGHEAD_IDX (by decide)).trans (hidx.trans ?_)
    rw [hk]
    exact (Nat.mod_eq_of_lt u.nextLog_lt).trans hnext
  · refine (hget F.NV_LOGSEQ_LSEQ (by decide)).trans (hseq.trans ?_)
    rw [hk]
    exact Nat.mod_eq_of_lt hlseq
  · exact hlog.trans ((congrArg NvSt.hasLog hshow.nv).trans (by rw [hk]; rfl))
  · refine (hbyte a).trans ((hshow.byte a).trans ?_)
    rw [hk, hto]
    rfl

/-- What the search of the log has found (R944). -/
def Mach.nvFound (m : Mach) (r : Option (Nat × Nat)) (bootNo : Nat) : Mach :=
  match r with
  | some (i, l) => { m with nv := { m.nv with hasLog := true, logIdx := i, logSeq := l, bootNo := bootNo, search := none, ponDue := true } }
  | none => { m with nv := { m.nv with bootNo := 1, search := none, ponDue := true } }

/-- BOOTNO of this boot: one more than the newest entry's (R944). -/
def NvArr.nextBootNo (x : NvArr) (r : Option (Nat × Nat)) : Nat :=
  match r with
  | some (i, _) => (NvArr.word x (logAt i + 0x20) + 1) % 2 ^ 32
  | none => 1

theorem nvSearchDone_eq (x : NvArr) (m : Mach) (d corr : Nat) (bad : List Nat) {t0 : Nat} (hsearch : m.nv.search = some t0)
    (hrun : m.clk.running = true) : nvSearchDone x m d corr bad =
      (((m.runTo (t0 + min d 60000)).countHold F.NV_CNT_CORR corr).nvFound (NvArr.newest x bad)
        (NvArr.nextBootNo x (NvArr.newest x bad))).nvShow.nvKick := by
  unfold nvSearchDone
  rw [hsearch]
  dsimp only
  rw [hrun, if_neg (by decide)]
  cases NvArr.newest x bad <;> rfl

theorem Mach.nvFound_keeps (m : Mach) (r : Option (Nat × Nat)) (n : Nat) : (m.nvFound r n).now = m.now ∧
    (∀ a, (m.nvFound r n).byte a = m.byte a) ∧ (m.nvFound r n).inReset = m.inReset ∧ (m.nvFound r n).nv.search = none := by
  cases r with
  | none => exact ⟨rfl, fun _ => rfl, rfl, rfl⟩
  | some p => exact ⟨rfl, fun _ => rfl, rfl, rfl⟩

theorem does_nvLogSearchDone {s : State} {t0 : Nat} (d corr : Nat) (bad : List Nat) (hlive : s.m.live = true)
    (hsearch : s.m.nv.search = some t0) : Does (.nvLogSearchDone d corr bad) s (fun t =>
      t.m.now = (s.m.runTo (t0 + min d 60000)).now ∧ t.m.get F.NV_STAT_READY = 1 ∧ t.m.nv.search = none ∧ Keeps s t ∧
      (NvArr.newest s.nvArr bad = none → t.m.get F.NV_BOOTNO_N = 1) ∧
      (∀ i l, NvArr.newest s.nvArr bad = some (i, l) → t.m.get F.NV_LOGHEAD_IDX = i ∧ t.m.get F.NV_LOGSEQ_LSEQ = l ∧
        t.m.get F.NV_BOOTNO_N = (NvArr.word s.nvArr (logAt i + 0x20) + 1) % 2 ^ 32)) := by
  obtain ⟨hrun, hup, -⟩ := s.m.live_iff.1 hlive
  obtain ⟨y, w, hto⟩ := s.m.runTo_changes (t0 + min d 60000)
  obtain ⟨u, hu⟩ : ∃ u, u = (s.m.runTo (t0 + min d 60000)).countHold F.NV_CNT_CORR corr := ⟨_, rfl⟩
  have hexec : exec (.nvLogSearchDone d corr bad) s = .next { s with
      m := (u.nvFound (NvArr.newest s.nvArr bad) (NvArr.nextBootNo s.nvArr (NvArr.newest s.nvArr bad))).nvShow.nvKick } := by
    change s.run (fun m => nvSearchDone s.nvArr m d corr bad) = _
    rw [State.run_eq, nvSearchDone_eq _ _ _ _ _ hsearch hrun, hu]
  have hunow : u.now = (s.m.runTo (t0 + min d 60000)).now := by rw [hu, Mach.countHold, Mach.now_put]
  have hubyte : ∀ a, u.byte a = s.m.byte a := fun a => by
    rw [hu, Mach.countHold, Mach.put_byte, hto]
    rfl
  have huup : u.inReset = false := by
    rw [hu, Mach.countHold, Mach.inReset, Mach.put_pwr, hto]
    exact hup
  have hlt := NvArr.newest_lt s.nvArr bad
  generalize NvArr.newest s.nvArr bad = r at *
  obtain ⟨hknow, hkbyte, hkup, hksearch⟩ := u.nvFound_keeps r (NvArr.nextBootNo s.nvArr r)
  obtain ⟨k, hk⟩ : ∃ k, k = u.nvFound r (NvArr.nextBootNo s.nvArr r) := ⟨_, rfl⟩
  rw [← hk] at hexec hknow hkbyte hkup hksearch
  have hshow := k.nvShows_nvShow hksearch (hkup.trans huup)
  obtain ⟨hnow, hbyte, hreg, hready, hlast, -⟩ := k.nvShow.nvKick_keeps
  have hget : ∀ f : Fld, f.addr ≠ F.NV_STAT_reg → k.nvShow.nvKick.get f = k.nvShow.get f := fun f hf => by
    rw [Mach.get, hreg _ hf]
    rfl
  refine ⟨_, hexec, hnow.trans (hshow.now.trans (hknow.trans hunow)), hready.trans hshow.ready,
    hlast.trans ((congrArg NvSt.search hshow.nv).trans hksearch),
    ⟨fun a => (hbyte a).trans ((hshow.byte a).trans ((hkbyte a).trans (hubyte a))), rfl, rfl, rfl⟩, fun hr => ?_, fun i l hr => ?_⟩
  · refine (hget F.NV_BOOTNO_N (by decide)).trans (hshow.boot.trans ?_)
    rw [hk, hr]
    rfl
  · obtain ⟨hi, hl⟩ := hlt i l hr
    obtain ⟨hidx, hseq⟩ := hshow.log (by rw [hk, hr]; rfl)
    refine ⟨(hget F.NV_LOGHEAD_IDX (by decide)).trans (hidx.trans ?_), (hget F.NV_LOGSEQ_LSEQ (by decide)).trans (hseq.trans ?_),
      (hget F.NV_BOOTNO_N (by decide)).trans (hshow.boot.trans ?_)⟩
    · rw [hk, hr]
      exact Nat.mod_eq_of_lt hi
    · rw [hk, hr]
      exact Nat.mod_eq_of_lt hl
    · rw [hk, hr]
      exact Nat.mod_mod _ _

/-- Settles O60: a command as it is taken, each command as it ends, a log entry and the search, one lemma for each. -/
theorem nvStore : Obligations.NvStore := by
  intro s hlive x
  have hgo : ∀ (slot : BitVec 7) (i : Instr) (cmd : Nat), cmd < 16 → exec i s = .next { s with m := s.m.atTick.nvGo cmd slot.toNat } → _ :=
    fun slot i cmd hcmd hexec => And.intro (does_nvGo_taken slot hcmd hexec) (does_nvGo_refused slot hcmd hexec)
  refine ⟨fun slot => ⟨hgo slot _ 1 (by decide) (s.run_writeCmd _ _ hlive), hgo slot _ 2 (by decide) (s.run_writeCmd _ _ hlive),
    hgo slot _ 3 (by decide) (s.run_writeCmd _ _ hlive), hgo slot _ 4 (by decide) (s.run_writeCmd _ _ hlive)⟩,
    fun d e => ⟨exec_nvDone_none d e, ?_⟩, fun h d => exec_nvLogEntry_none d h, fun e d => does_nvLogEntry d hlive,
    fun h d corr bad => exec_nvLogSearchDone_none d corr bad h, fun t0 d corr bad => does_nvLogSearchDone d corr bad hlive⟩
  intro c hcmd hreset hlt cur ends
  refine ⟨does_nvDone_refused hlive hcmd hreset, does_nvDone_read_none hlive hcmd hreset, fun b => does_nvDone_read_some hlive hcmd hreset,
    fun h2 hslot hlen hpay hverify => ?_, does_nvDone_commit_bad hlive hcmd hreset, does_nvDone_erase hlive hcmd hreset,
    does_nvDone_log hlive hcmd hreset⟩
  exact does_nvDone_commit hlive hcmd hreset h2 hlt hslot hlen hpay hverify rfl

end Sys2Proof.Machine
end

section
/-!
Settles a motion interval of the axes and of Reef (R588-R590, R595-R597, R655).
-/

namespace Sys2Proof.Machine

/-! ## What an axis may change in its turn -/

/-- The registers that an axis's turn may change: its state, flags, stopping distance and commit register, the margins of the heads,
and the event registers of C6. -/
def axisRegs (a : Fin 2) (k : Nat) : Prop :=
  k = F.HAL_AX_STAT_reg a ∨ k = F.HAL_AX_FLT_reg a ∨ k = F.HAL_AX_STOPD_reg a ∨ k = axisCommit a ∨ (∃ h : Fin 6, k = F.HAL_MARG_reg h) ∨
    eventRegs 6 k

/-- `n` differs from `m` by what an axis's turn may change: nothing of the other axis and its active set, no byte, no other block. -/
structure Mach.AxisOwn (a : Fin 2) (m n : Mach) : Prop where
  within : m.Within (axisRegs a) n
  now : n.now = m.now
  others : ∀ b, b ≠ a → n.axis b = m.axis b
  act : ∀ k, inCommit (axisCommit a) k = false → Sparse.get regReset n.actSet k = Sparse.get regReset m.actSet k
  commits : ∀ b, b ≠ axisCommit a → n.commitTick b = m.commitTick b
  bwl : n.bwl = m.bwl
  reef : n.reef = m.reef

/-- What an axis keeps while it does not integrate. -/
def AxisSt.SameMotion (x y : AxisSt) : Prop :=
  y.hist = x.hist ∧ y.p = x.p ∧ y.v = x.v ∧ y.a = x.a ∧ y.starting = x.starting ∧ y.moved = x.moved

theorem AxisSt.SameMotion.refl (x : AxisSt) : x.SameMotion x := ⟨rfl, rfl, rfl, rfl, rfl, rfl⟩

theorem AxisSt.SameMotion.trans {x y z : AxisSt} (h : x.SameMotion y) (h' : y.SameMotion z) : x.SameMotion z := by
  obtain ⟨h1, h2, h3, h4, h5, h6⟩ := h
  obtain ⟨k1, k2, k3, k4, k5, k6⟩ := h'
  exact ⟨k1.trans h1, k2.trans h2, k3.trans h3, k4.trans h4, k5.trans h5, k6.trans h6⟩

/-- A part of an axis's turn in which it does not integrate. -/
structure Mach.AxisPart (a : Fin 2) (m n : Mach) : Prop where
  own : m.AxisOwn a n
  motion : (m.axis a).SameMotion (n.axis a)

theorem Mach.AxisOwn.refl (a : Fin 2) (m : Mach) : m.AxisOwn a m :=
  ⟨Mach.Within.refl _ m, rfl, fun _ _ => rfl, fun _ _ => rfl, fun _ _ => rfl, rfl, rfl⟩

theorem Mach.AxisOwn.trans {a : Fin 2} {m n k : Mach} (h : m.AxisOwn a n) (h' : n.AxisOwn a k) : m.AxisOwn a k where
  within := h.within.trans h'.within
  now := h'.now.trans h.now
  others b hb := (h'.others b hb).trans (h.others b hb)
  act i hi := (h'.act i hi).trans (h.act i hi)
  commits b hb := (h'.commits b hb).trans (h.commits b hb)
  bwl := h'.bwl.trans h.bwl
  reef := h'.reef.trans h.reef

theorem Mach.AxisPart.refl (a : Fin 2) (m : Mach) : m.AxisPart a m := ⟨Mach.AxisOwn.refl a m, AxisSt.SameMotion.refl _⟩

theorem Mach.AxisPart.trans {a : Fin 2} {m n k : Mach} (h : m.AxisPart a n) (h' : n.AxisPart a k) : m.AxisPart a k :=
  ⟨h.own.trans h'.own, h.motion.trans h'.motion⟩

theorem Mach.put_changes (m : Mach) (f : Fld) (v : Nat) : ∃ r b, m.put f v = { m with regs := r, beat := b } := by
  unfold Mach.put Mach.noteFlags
  split <;> exact ⟨_, _, rfl⟩

section
variable {a : Fin 2} {m n : Mach}

/-- A change of registers of the axis, of what the cores and the beat note, and of free values taken. -/
theorem Mach.AxisPart.of_changes {k : Mach} {r : Sparse 32} {x : Vector CoreSt 8} {b : BeatSt} {c : Nat} (h : m.AxisPart a n)
    (hw : n.Within (axisRegs a) k) (hk : k = { n with regs := r, cores := x, beat := b, freeCtr := c }) : m.AxisPart a k := by
  subst hk
  exact h.trans ⟨⟨hw, rfl, fun _ _ => rfl, fun _ _ => rfl, fun _ _ => rfl, rfl, rfl⟩, AxisSt.SameMotion.refl _⟩

theorem Mach.AxisPart.put (h : m.AxisPart a n) (f : Fld) (v : Nat) (hf : axisRegs a f.addr) : m.AxisPart a (n.put f v) := by
  obtain ⟨r, b, hput⟩ := n.put_changes f v
  exact h.of_changes ((Mach.Within.refl _ n).put f v hf) hput

theorem Mach.AxisPart.putBit (h : m.AxisPart a n) (f : Fld) (i : Nat) (hf : axisRegs a f.addr) : m.AxisPart a (n.putBit f i) := by
  obtain ⟨r, b, hput⟩ := n.putBit_changes f i
  exact h.of_changes ((Mach.Within.refl _ n).putBit f i hf) hput

theorem Mach.AxisPart.pulse (h : m.AxisPart a n) (e : Nat) : m.AxisPart a (n.pulse 6 e) := by
  obtain ⟨r, x, b, hpulse⟩ := n.pulse_changes 6 e
  exact h.of_changes ((Mach.Within.refl _ n).pulse 6 e fun _ hk => Or.inr (Or.inr (Or.inr (Or.inr (Or.inr hk))))) hpulse

theorem Mach.AxisPart.free (h : m.AxisPart a n) {k : Mach} (hk : n.FreeOnly k) : m.AxisPart a k := by
  obtain ⟨c, rfl⟩ := hk
  exact h.of_changes ((Mach.Within.refl _ n).other rfl rfl) rfl

theorem Mach.AxisOwn.setAxis (h : m.AxisOwn a n) (x : AxisSt) : m.AxisOwn a (n.setAxis a x) :=
  h.trans ⟨(Mach.Within.refl _ n).other rfl rfl, rfl, fun _ hb => n.axis_setAxis_ne x hb, fun _ _ => rfl, fun _ _ => rfl, rfl, rfl⟩

theorem Mach.AxisPart.setAxis (h : m.AxisPart a n) (x : AxisSt) (hx : (n.axis a).SameMotion x) : m.AxisPart a (n.setAxis a x) :=
  ⟨h.own.setAxis x, by rw [Mach.axis_setAxis_self]; exact h.motion.trans hx⟩

/-- The axis's set becomes active (R228). -/
theorem Mach.AxisPart.commitTake (h : m.AxisPart a n) : m.AxisPart a (n.commitTake (axisCommit a)) := by
  refine h.trans ⟨⟨⟨fun k hk => ?_, fun _ => rfl⟩, rfl, fun _ _ => rfl, fun k hk => ?_, fun b hb => ?_, rfl, rfl⟩, AxisSt.SameMotion.refl _⟩
  · exact Mach.reg_setReg_ne _ _ fun he => hk (Or.inr (Or.inr (Or.inr (Or.inl he))))
  · exact (Sparse.get_copy _ _ _ _ _).trans (by rw [hk]; rfl)
  · show (((n.commits.filter fun c => c.1 != axisCommit a).find? fun c => decide (c.1 = b)).map (·.2)) = n.commitTick b
    rw [List.find?_filter, Mach.commitTick]
    congr 2
    funext c
    by_cases hc : c.1 = b
    · simp [hc, hb]
    · simp [hc]

theorem axisRegs_stat (a : Fin 2) : axisRegs a (F.HAL_AX_STAT_STATE a).addr := Or.inl rfl
theorem axisRegs_flt (a : Fin 2) : axisRegs a (F.HAL_AX_FLT_FLAGS a).addr := Or.inr (Or.inl rfl)
theorem axisRegs_stopd (a : Fin 2) : axisRegs a (F.HAL_AX_STOPD_D a).addr := Or.inr (Or.inr (Or.inl rfl))
theorem axisRegs_marg (a : Fin 2) (h : Fin 6) : axisRegs a (F.HAL_MARG_LSTOP h).addr := Or.inr (Or.inr (Or.inr (Or.inr (Or.inl ⟨h, rfl⟩))))

theorem Mach.AxisPart.setState (h : m.AxisPart a n) (v : Nat) : m.AxisPart a (n.setAxState a v) := h.put _ v (axisRegs_stat a)

theorem Mach.AxisPart.setCause (h : m.AxisPart a n) (v : Nat) : m.AxisPart a (n.setAxCause a v) :=
  h.put (F.HAL_AX_STAT_CAUSE a) v (axisRegs_stat a)

end

/-! ## The parts of a turn -/

/-- What is made of a distance, once it is known: the kernel then evaluates none. -/
def Mach.distOf (m : Mach) (o : Option Nat) : Nat × Mach :=
  match o with
  | some d => (d, m)
  | none => m.fresh 32

theorem Mach.freeOnly_distOf (m : Mach) (o : Option Nat) : m.FreeOnly (m.distOf o).2 := by
  cases o with
  | some d => exact Mach.FreeOnly.refl m
  | none => exact m.freeOnly_fresh 32

/-- The definitions as functions: the kernel compares the bodies as they stand. -/
theorem Mach.distVE_fun : Mach.distVE = fun m a lim => match stopDist (m.halVE a) 0 lim (m.halJ a) with
    | some d => (d, m)
    | none => m.fresh 32 := rfl

/-- STOPD, once the table's distance is known. -/
def Mach.stopdFrom (m : Mach) (a : Fin 2) (o : Option Nat) : Nat × Mach :=
  if m.mirrored then (m.bwl.ax[a].stopd, m)
  else match o with
  | some d => (d, m)
  | none => m.fresh 32

theorem Mach.stopd_fun : Mach.stopd = fun m a => m.stopdFrom a
    (stopDist (m.axis a).v.natAbs (if 0 ≤ (m.axis a).v then (m.axis a).a else -(m.axis a).a) (m.halD a) (m.halJ a)) := rfl

theorem Mach.distVE_cases (m : Mach) (a : Fin 2) (lim : Nat) : ∃ o, m.distVE a lim = match o with
    | some d => (d, m)
    | none => m.fresh 32 :=
  ⟨stopDist (m.halVE a) 0 lim (m.halJ a), congrFun (congrFun (congrFun Mach.distVE_fun m) a) lim⟩

theorem Mach.stopd_cases (m : Mach) (a : Fin 2) : ∃ o, m.stopd a = m.stopdFrom a o := ⟨_, congrFun (congrFun Mach.stopd_fun m) a⟩

theorem Mach.FreeOnly.of_eq {m : Mach} {x y : Nat × Mach} (h : x = y) (hy : m.FreeOnly y.2) : m.FreeOnly x.2 := by
  rw [h]
  exact hy

theorem Mach.freeOnly_stopdFrom (m : Mach) (a : Fin 2) (o : Option Nat) : m.FreeOnly (m.stopdFrom a o).2 := by
  unfold Mach.stopdFrom
  split
  · exact Mach.FreeOnly.refl m
  · exact m.freeOnly_distOf o

theorem Mach.freeOnly_distVE (m : Mach) (a : Fin 2) (lim : Nat) : m.FreeOnly (m.distVE a lim).2 := by
  obtain ⟨o, heq⟩ := m.distVE_cases a lim
  exact Mach.FreeOnly.of_eq heq (m.freeOnly_distOf o)

theorem Mach.freeOnly_stopd (m : Mach) (a : Fin 2) : m.FreeOnly (m.stopd a).2 := by
  obtain ⟨o, heq⟩ := m.stopd_cases a
  exact Mach.FreeOnly.of_eq heq (m.freeOnly_stopdFrom a o)

/-- What the axis publishes, and what it leaves. -/
def pubRegs (a : Fin 2) (k : Nat) : Prop := k = F.HAL_AX_STOPD_reg a ∨ ∃ h : Fin 6, k = F.HAL_MARG_reg h

/-- `n` differs from `m` in the registers of `pubRegs`, what the beat notes and free values taken only. -/
structure Mach.Publishes (a : Fin 2) (m n : Mach) : Prop where
  within : m.Within (pubRegs a) n
  rest : ∃ r b c, n = { m with regs := r, beat := b, freeCtr := c }

theorem Mach.Publishes.free {a : Fin 2} {m n k : Mach} (h : m.Publishes a n) (hk : n.FreeOnly k) : m.Publishes a k := by
  obtain ⟨r, b, c, hrest⟩ := h.rest
  obtain ⟨c', rfl⟩ := hk
  exact ⟨h.within.other rfl rfl, r, b, c', by rw [hrest]⟩

theorem Mach.Publishes.put {a : Fin 2} {m n : Mach} (h : m.Publishes a n) (f : Fld) (v : Nat) (hf : pubRegs a f.addr) :
    m.Publishes a (n.put f v) := by
  obtain ⟨r, b, c, hrest⟩ := h.rest
  obtain ⟨r', b', hput⟩ := n.put_changes f v
  exact ⟨h.within.put f v hf, r', b', c, by rw [hput, hrest]⟩

theorem Mach.publishes_publish (m : Mach) (a : Fin 2) : m.Publishes a (m.publish a) := by
  have hmarg : ∀ h : Fin 6, pubRegs a (F.HAL_MARG_LSTOP h).addr := fun h => Or.inr ⟨h, rfl⟩
  unfold Mach.publish
  have hstopd := m.freeOnly_stopd a
  generalize m.stopd a = r at *
  obtain ⟨d, n⟩ := r
  dsimp only at *
  have hstart : m.Publishes a m := ⟨Mach.Within.refl _ m, m.regs, m.beat, m.freeCtr, rfl⟩
  have hput := (hstart.free hstopd).put (F.HAL_AX_STOPD_D a) d (Or.inl rfl)
  generalize n.put (F.HAL_AX_STOPD_D a) d = n1 at *
  have hdist : n1.FreeOnly (if (n1.axis a).moving then (0, n1) else n1.distVE a (n1.halD a)).2 := by
    split
    · exact Mach.FreeOnly.refl n1
    · exact n1.freeOnly_distVE a _
  generalize (if (n1.axis a).moving then (0, n1) else n1.distVE a (n1.halD a)) = r2 at *
  obtain ⟨dv, n2⟩ := r2
  dsimp only at *
  exact Mach.each_keeps (fun k => m.Publishes a k) _ _ (fun h k hk => (hk.put _ _ (hmarg h)).put (F.HAL_MARG_MARG h) _ (hmarg h)) _
    (hput.free hdist)

section
variable {a : Fin 2} {m n : Mach}

theorem Mach.Publishes.part (h : m.Publishes a n) : m.AxisPart a n := by
  obtain ⟨r, b, c, hrest⟩ := h.rest
  refine (Mach.AxisPart.refl a m).of_changes (x := m.cores) (h.within.mono fun k hk => ?_) hrest
  rcases hk with hk | hk
  · exact Or.inr (Or.inr (Or.inl hk))
  · exact Or.inr (Or.inr (Or.inr (Or.inr (Or.inl hk))))

theorem Mach.AxisPart.axisLevel (h : m.AxisPart a n) : m.AxisPart a (n.axisLevel a) := h.setAxis _ ⟨rfl, rfl, rfl, rfl, rfl, rfl⟩

theorem AxisSt.sameMotion_next (x : AxisSt) (f : AxisSt → Fin 6 → Vector Nat 6) (l : List (Fin 6)) :
    x.SameMotion (l.foldl (fun (x : AxisSt) (h : Fin 6) => { x with next := f x h }) x) := by
  induction l generalizing x with
  | nil => exact AxisSt.SameMotion.refl x
  | cons h t ih => exact (show x.SameMotion { x with next := f x h } from ⟨rfl, rfl, rfl, rfl, rfl, rfl⟩).trans (ih _)

/-- The line schedule starts anew (R603). -/
def Mach.lineRestart (m : Mach) (a : Fin 2) : Mach :=
  let x := { m.axis a with lps := m.act (F.HAL_AX_LPS_LPS a), org := sext 32 (m.act (F.HAL_AX_ORG_ORG a)), schedOn := true }
  let P := m.posAt a m.now
  let x := (m.schedHeads a).foldl (fun (x : AxisSt) (h : Fin 6) => { x with next := x.next.set h (x.lineAfter (m.halPh h) P) }) x
  m.setAxis a { x with nextRef := x.lineAfter 0 P }

theorem Mach.AxisPart.lineRestart (h : m.AxisPart a n) : m.AxisPart a (n.lineRestart a) := by
  refine h.setAxis _ ?_
  have hsame := AxisSt.sameMotion_next { n.axis a with lps := n.act (F.HAL_AX_LPS_LPS a), org := sext 32 (n.act (F.HAL_AX_ORG_ORG a)), schedOn := true }
    (fun x h => x.next.set h (x.lineAfter (n.halPh h) (n.posAt a n.now))) (n.schedHeads a)
  obtain ⟨hhist, hp, hv, ha, hstarting, hmoved⟩ := hsame
  exact ⟨hhist, hp, hv, ha, hstarting, hmoved⟩

/-- The active set of an axis with its schedule, before VLINE and the event. -/
def Mach.axisTaken (m : Mach) (a : Fin 2) : Mach :=
  let m := m.commitTake (axisCommit a)
  if m.act (F.HAL_AX_MODE_LSRST a) = 1 then m.lineRestart a else m

theorem Mach.AxisPart.axisTaken (h : m.AxisPart a n) : m.AxisPart a (n.axisTaken a) := by
  unfold Mach.axisTaken
  extract_lets k
  have hk : m.AxisPart a k := h.commitTake
  clear_value k
  split
  · exact hk.lineRestart
  · exact hk

theorem Mach.axisApply_eq (m : Mach) (a : Fin 2) : m.axisApply a = ((m.axisTaken a).setAxis a { (m.axisTaken a).axis a with
    vline := (m.axisTaken a).vlineOf a
    needPlan := ((m.axisTaken a).axis a).needPlan && (m.axisTaken a).is (F.HAL_AX_CTL_EN a) }).pulse 6 8 := rfl

theorem Mach.AxisPart.axisApply (h : m.AxisPart a n) : m.AxisPart a (n.axisApply a) := by
  rw [n.axisApply_eq a]
  refine Mach.AxisPart.pulse (Mach.AxisPart.setAxis h.axisTaken _ ?_) 8
  exact ⟨rfl, rfl, rfl, rfl, rfl, rfl⟩

theorem axisCommit_ne_stat (a : Fin 2) : F.HAL_AX_STAT_reg a ≠ axisCommit a := by
  simp only [F.HAL_AX_STAT_reg, axisCommit]
  omega

theorem not_eventRegs_stat (a : Fin 2) : ¬ eventRegs 6 (F.HAL_AX_STAT_reg a) := by
  refine not_eventRegs_of_lt ?_
  simp only [F.HAL_AX_STAT_reg]
  omega

theorem Mach.axState_congr {a : Fin 2} {m n : Mach} (h : n.reg (F.HAL_AX_STAT_reg a) = m.reg (F.HAL_AX_STAT_reg a)) :
    n.axState a = m.axState a := congrArg (fun v : Word => bits v.toNat _ _) h

theorem Mach.axState_axisApply (m : Mach) (a : Fin 2) : (m.axisApply a).axState a = m.axState a := by
  have hstat : (m.axisTaken a).reg (F.HAL_AX_STAT_reg a) = m.reg (F.HAL_AX_STAT_reg a) := by
    unfold Mach.axisTaken
    extract_lets k
    have hk : k.reg (F.HAL_AX_STAT_reg a) = m.reg (F.HAL_AX_STAT_reg a) := Mach.reg_setReg_ne _ _ (axisCommit_ne_stat a)
    clear_value k
    split
    · exact hk
    · exact hk
  rw [m.axisApply_eq a]
  exact Mach.axState_congr ((Mach.pulse_reg_ne _ 6 8 (not_eventRegs_stat a)).trans hstat)

end

/-! ## The turn in its steps -/

/-- The boundary is noted, and what the step books found is spent. -/
def Mach.miBook (m : Mach) (a : Fin 2) : Mach :=
  let m := m.refPass a
  let x := m.axis a
  let m := m.setAxis a { x with hist := ((m.now, x.p) :: x.hist).take 16384, miAt := some m.now }
  m.setAxis a { m.axis a with qerr := false }

/-- An axis whose EN was set enters RUN (R595). -/
def Mach.miEnter (m : Mach) (a : Fin 2) : Mach :=
  if (m.axis a).starting && !(m.axis a).offAfter then
    (m.setAxState a 1).setAxis a { m.axis a with starting := false, v := 0, a := 0 }
  else m

/-- A commit that may apply does. -/
def Mach.miCommit (m : Mach) (a : Fin 2) : Mach := if m.axisCommitOk a then m.axisApply a else m

/-- HOLD, the guard and a restart. -/
def Mach.miHold (m : Mach) (a : Fin 2) : Mach :=
  if m.is (F.HAL_AX_CTL_HOLD a) && (m.axState a = 1 || m.axState a = 4 || m.axState a = 5) then m.stopAxis a 2
  else if m.guardTrips a then m.guardStop a else m.restart a

/-- What the axis does at the boundary before it integrates. -/
def Mach.miPlan (m : Mach) (a : Fin 2) : Mach :=
  let m := ((m.axisLevel a).publish a).miCommit a
  let s := m.axState a
  let m := m.miHold a
  if s != 1 && m.axState a = 1 && m.axisCommitOk a then m.axisApply a else m

/-- What the end of the interval's motion brings, by the axis's state. -/
def Mach.miEnd (m : Mach) (a : Fin 2) (x : AxisSt) (met : Bool) : Mach :=
  match m.axState a with
  | 1 =>
    let m := if met then m.axisPulse a 0 else m
    if met && m.act (F.HAL_AX_MODE_MODE a) = 1 then m.setAxCause a 7 else m
  | 2 => if x.v = 0 && x.a = 0 then m.stopEnds a else m
  | 4 => if met then m.setAxState a 5 else m
  | 5 =>
    if met || x.v = m.halVE a then
      let m := (m.setAxState a 1).miCommit a
      if m.act (F.HAL_AX_MODE_MODE a) = 0 then m.axisPulse a 0 else m
    else m
  | _ => m

/-- The axis has moved to `x` from the interval's first beat `b` on. -/
def Mach.miMoved (m : Mach) (a : Fin 2) (b : Nat) (x : AxisSt) : Mach :=
  let n := (m.setAxis a { x with due := x.due ++ stepsDue b (m.axis a).p x.p }).posevCheck a
  if (m.axis a).v != 0 && x.v = 0 then n.pulse 6 9 else n

theorem Mach.bookFaults_of_open (m : Mach) (a : Fin 2) (henc : m.get (F.HAL_AX_CTL_ENC a) = 0) : m.bookFaults a = [] := by
  have hoff : m.is (F.HAL_AX_CTL_ENC a) = false := by
    rw [Mach.is, henc]
    rfl
  unfold Mach.bookFaults
  rw [hoff]
  rfl

theorem Mach.axisMi_eq (m : Mach) (a : Fin 2) (j : Jerk) (hmirrored : m.mirrored = false) (hahead : m.ahead = false)
    (henc : m.get (F.HAL_AX_CTL_ENC a) = 0) : m.axisMi a j =
      (false, let n := ((m.miBook a).miEnter a).miPlan a
        (n.miMoved a m.now (n.integrate a j).1).miEnd a (n.integrate a j).1 (n.integrate a j).2) := by
  unfold Mach.axisMi
  rw [if_neg (by rw [hmirrored]; exact Bool.false_ne_true), hahead]
  have hbad : ∀ k : Mach, k.regs = m.regs → k.bookFaults a = [] := fun k hk => k.bookFaults_of_open a (by
    rw [Mach.get, Mach.reg, hk]
    exact henc)
  extract_lets b m1 x m2 bad x2 m3 x3 m4 m5 m6 s m7 m8 v0 p0 n
  have hb : b = m.now := by
    show m.now + (if false = true then 3000 else 0) = m.now
    rw [if_neg Bool.false_ne_true, Nat.add_zero]
  have hnone : bad = [] := hbad m2 rfl
  rw [hnone, if_neg (by decide)]
  clear_value b
  subst hb
  have hplan : m8 = n := rfl
  have hv0 : v0 = (m8.axis a).v := rfl
  have hp0 : p0 = (m8.axis a).p := rfl
  rw [← hplan]
  clear_value m8 v0 p0
  subst hv0 hp0
  generalize m8.integrate a j = r
  obtain ⟨y, met⟩ := r
  dsimp only
  unfold Mach.miEnd
  have hmoved : (if (m8.axis a).v != 0 && y.v = 0 then
      ((m8.setAxis a { y with due := y.due ++ stepsDue m.now (m8.axis a).p y.p }).posevCheck a).pulse 6 9 else
      (m8.setAxis a { y with due := y.due ++ stepsDue m.now (m8.axis a).p y.p }).posevCheck a) = m8.miMoved a m.now y := rfl
  rw [hmoved]
  generalize m8.miMoved a m.now y = k
  generalize k.axState a = st
  match st with
  | 0 | 1 | 2 | 3 | 4 | _ + 6 => rfl
  | 5 => exact (apply_ite (Prod.mk false) _ _ _).symm

section
variable {a : Fin 2} {m n : Mach}

theorem Mach.axisPart_miBook (m : Mach) (a : Fin 2) : m.AxisOwn a (m.miBook a) :=
  (((Mach.AxisOwn.refl a m).setAxis _).setAxis _).setAxis _

theorem Mach.miBook_axis (m : Mach) (a : Fin 2) : ((m.miBook a).axis a).hist = ((m.now, (m.axis a).p) :: (m.axis a).hist).take 16384 ∧
    ((m.miBook a).axis a).p = (m.axis a).p ∧ ((m.miBook a).axis a).v = (m.axis a).v ∧ ((m.miBook a).axis a).a = (m.axis a).a ∧
    ((m.miBook a).axis a).starting = (m.axis a).starting ∧ ((m.miBook a).axis a).moved = (m.axis a).moved ∧
    ((m.miBook a).axis a).offAfter = (m.axis a).offAfter ∧ ((m.miBook a).axis a).vline = (m.axis a).vline := by
  simp [Mach.miBook, Mach.refPass, Mach.axis_setAxis_self, Mach.now]

theorem Mach.miEnter_of_waiting (m : Mach) (a : Fin 2) (h : (m.axis a).starting = false ∨ (m.axis a).offAfter = true) : m.miEnter a = m := by
  refine if_neg fun hc => ?_
  rw [Bool.and_eq_true, Bool.not_eq_true'] at hc
  obtain ⟨hstarting, hoff⟩ := hc
  rcases h with h | h
  · exact Bool.false_ne_true (h.symm.trans hstarting)
  · exact Bool.false_ne_true (hoff.symm.trans h)

theorem Mach.miEnter_of_starting (m : Mach) (a : Fin 2) (hstarting : (m.axis a).starting = true) (hoff : (m.axis a).offAfter = false) :
    m.miEnter a = (m.setAxState a 1).setAxis a { m.axis a with starting := false, v := 0, a := 0 } :=
  if_pos (by rw [hstarting, hoff]; rfl)

theorem Mach.axisOwn_miEnter (m : Mach) (a : Fin 2) : m.AxisOwn a (m.miEnter a) := by
  unfold Mach.miEnter
  split
  · exact ((Mach.AxisPart.refl a m).setState 1).own.setAxis _
  · exact Mach.AxisOwn.refl a m

theorem Mach.AxisPart.miCommit (h : m.AxisPart a n) : m.AxisPart a (n.miCommit a) := by
  unfold Mach.miCommit
  split
  · exact h.axisApply
  · exact h

theorem Mach.axState_miCommit (m : Mach) (a : Fin 2) : (m.miCommit a).axState a = m.axState a := by
  unfold Mach.miCommit
  split
  · exact m.axState_axisApply a
  · rfl

theorem Mach.AxisPart.axFlag (h : m.AxisPart a n) (i : Nat) : m.AxisPart a (n.axFlag a i) := h.putBit _ i (axisRegs_flt a)

theorem Mach.AxisPart.stopAxis (h : m.AxisPart a n) (c : Nat) : m.AxisPart a (n.stopAxis a c) := by
  refine (h.setState 2).setAxis _ ?_
  rw [Mach.setAxState, Mach.put_axis]
  exact ⟨rfl, rfl, rfl, rfl, rfl, rfl⟩

theorem Mach.AxisPart.guardStop (h : m.AxisPart a n) : m.AxisPart a (n.guardStop a) := by
  unfold Mach.guardStop
  extract_lets k
  have hk : m.AxisPart a k := by
    show m.AxisPart a (if _ then _ else _)
    split
    · exact h
    · exact h.axFlag 6
  exact hk.stopAxis 1

/-- A restart, when the distance `r` of the way up to V_E is known: the kernel then never evaluates it. -/
def Mach.restartFrom (m : Mach) (a : Fin 2) (r : Nat × Mach) : Mach :=
  if m.axState a = 3 && !m.is (F.HAL_AX_CTL_HOLD a) && m.is (F.HAL_AX_CTL_EN a) && m.restartOk a && !m.bwl.notReady.testBit a then
    match m.qMin a with
    | none => m.setAxState a 1
    | some q =>
      let (dacc, m) := r
      let rs := q - dacc - 65536 * m.act (F.HAL_AX_MECH_SETL a)
      let back := rs - 65536 * m.act (F.HAL_AX_MECH_BKL a)
      if back < pos16 (m.axis a).p then (m.setAxState a 4).setAxis a { m.axis a with backTo := back * 2 ^ 44 }
      else m.setAxState a 5
  else m

theorem Mach.restart_fun : Mach.restart = fun m a => m.restartFrom a (m.distVE a (m.halA a)) := rfl

theorem Mach.AxisPart.restartFrom (h : m.AxisPart a n) (r : Nat × Mach) (hr : n.FreeOnly r.2) : m.AxisPart a (n.restartFrom a r) := by
  obtain ⟨d, k⟩ := r
  unfold Mach.restartFrom
  dsimp only at *
  split
  · split
    · exact h.setState 1
    · split
      · refine ((h.free hr).setState 4).setAxis _ ?_
        rw [Mach.setAxState, Mach.put_axis]
        exact ⟨rfl, rfl, rfl, rfl, rfl, rfl⟩
      · exact (h.free hr).setState 5
  · exact h

theorem Mach.AxisPart.restart (h : m.AxisPart a n) : m.AxisPart a (n.restart a) := by
  rw [Mach.restart_fun]
  exact h.restartFrom _ (n.freeOnly_distVE a _)

theorem Mach.restart_of_state (m : Mach) (a : Fin 2) (h : m.axState a ≠ 3) : m.restart a = m := by
  rw [Mach.restart_fun]
  exact if_neg (by simp [h])

theorem Mach.AxisPart.miHold (h : m.AxisPart a n) : m.AxisPart a (n.miHold a) := by
  unfold Mach.miHold
  split
  · exact h.stopAxis 2
  · split
    · exact h.guardStop
    · exact h.restart

theorem Mach.axisPart_miPlan (m : Mach) (a : Fin 2) : m.AxisPart a (m.miPlan a) := by
  unfold Mach.miPlan
  extract_lets k s k'
  have hk : m.AxisPart a k :=
    Mach.AxisPart.miCommit ((Mach.AxisPart.refl a m).axisLevel.trans (Mach.publishes_publish _ a).part)
  have hk' : m.AxisPart a k' := hk.miHold
  clear_value k'
  split
  · exact hk'.axisApply
  · exact hk'

theorem Mach.AxisPart.posevCheck (h : m.AxisPart a n) : m.AxisPart a (n.posevCheck a) := by
  unfold Mach.posevCheck
  extract_lets x
  split
  · refine Mach.AxisPart.pulse (h.setAxis _ ?_) _
    exact ⟨rfl, rfl, rfl, rfl, rfl, rfl⟩
  · exact h

theorem Mach.axisPart_stopEnds (h : m.AxisPart a n) : m.AxisPart a (n.stopEnds a) := by
  unfold Mach.stopEnds
  extract_lets x k
  have hk : m.AxisPart a k := h.setCause _
  split
  · refine (hk.setState 0).setAxis _ ?_
    rw [Mach.setAxState, Mach.put_axis]
    show (k.axis a).SameMotion _
    rw [show k.axis a = n.axis a from Mach.put_axis _ _ _ _]
    exact ⟨rfl, rfl, rfl, rfl, rfl, rfl⟩
  · exact hk.setState 3

theorem Mach.AxisPart.miEnd (h : m.AxisPart a n) (x : AxisSt) (met : Bool) : m.AxisPart a (n.miEnd a x met) := by
  unfold Mach.miEnd
  split
  · extract_lets k
    have hk : m.AxisPart a k := by
      show m.AxisPart a (if _ then _ else _)
      split
      · exact h.pulse _
      · exact h
    clear_value k
    split
    · exact hk.setCause 7
    · exact hk
  · split
    · exact Mach.axisPart_stopEnds h
    · exact h
  · split
    · exact h.setState 5
    · exact h
  · split
    · extract_lets k
      have hk : m.AxisPart a k := (h.setState 1).miCommit
      clear_value k
      split
      · exact hk.pulse _
      · exact hk
    · exact h
  · exact h

/-- The move itself: the axis is at `x` then. -/
theorem Mach.axisOwn_miMoved (m : Mach) (a : Fin 2) (b : Nat) (x : AxisSt) : m.AxisOwn a (m.miMoved a b x) ∧
    x.SameMotion ((m.miMoved a b x).axis a) := by
  unfold Mach.miMoved
  extract_lets n
  have hset := (Mach.AxisOwn.refl a m).setAxis { x with due := x.due ++ stepsDue b (m.axis a).p x.p }
  have hpart : (m.setAxis a { x with due := x.due ++ stepsDue b (m.axis a).p x.p }).AxisPart a n := (Mach.AxisPart.refl a _).posevCheck
  have hall : (m.setAxis a { x with due := x.due ++ stepsDue b (m.axis a).p x.p }).AxisPart a
      (if (m.axis a).v != 0 && x.v = 0 then n.pulse 6 9 else n) := by
    split
    · exact hpart.pulse 9
    · exact hpart
  refine ⟨hset.trans hall.own, AxisSt.SameMotion.trans ?_ hall.motion⟩
  rw [Mach.axis_setAxis_self]
  exact ⟨rfl, rfl, rfl, rfl, rfl, rfl⟩

end

/-! ## States over a turn -/

section
variable (m : Mach) (a : Fin 2)

theorem Mach.axState_axisLevel : (m.axisLevel a).axState a = m.axState a := rfl

theorem Mach.Publishes.axState {m n : Mach} {a : Fin 2} (h : m.Publishes a n) : n.axState a = m.axState a := by
  refine Mach.axState_congr (h.within.1 _ fun hk => ?_)
  rcases hk with hk | ⟨i, hk⟩
  · simp only [F.HAL_AX_STAT_reg, F.HAL_AX_STOPD_reg] at hk
    omega
  · simp only [F.HAL_AX_STAT_reg, F.HAL_MARG_reg] at hk
    omega

theorem Mach.guardTrips_of_state (h : m.axState a ≠ 1) (h5 : m.axState a ≠ 5) : m.guardTrips a = false := by
  simp [Mach.guardTrips, h, h5]

theorem Mach.guardTrips_of_alone (hsched : m.schedHeads a = []) (hstop : m.bwl.stop = 0) : m.guardTrips a = false := by
  simp [Mach.guardTrips, Mach.shortHeads, hsched, hstop]

/-- An axis at rest stays in its state up to the integration. -/
theorem Mach.axState_miPlan_of_rest (hstate : m.axState a = 0 ∨ m.axState a = 6) : (m.miPlan a).axState a = m.axState a := by
  unfold Mach.miPlan
  extract_lets k s k'
  have hk : k.axState a = m.axState a := by
    refine (Mach.axState_miCommit _ a).trans ((Mach.publishes_publish _ a).axState.trans ?_)
    exact m.axState_axisLevel a
  have h1 : k.axState a ≠ 1 := by rw [hk]; omega
  have h3 : k.axState a ≠ 3 := by rw [hk]; omega
  have h4 : k.axState a ≠ 4 := by rw [hk]; omega
  have h5 : k.axState a ≠ 5 := by rw [hk]; omega
  have hhold : k' = k := by
    show k.miHold a = k
    unfold Mach.miHold
    rw [if_neg (by simp [h1, h4, h5]), k.guardTrips_of_state a h1 h5, if_neg Bool.false_ne_true, k.restart_of_state a h3]
  rw [hhold, if_neg (by simp [h1])]
  exact hk

theorem Mach.miCommit_of_none (hcommit : m.commitTick (axisCommit a) = none) : m.miCommit a = m := by
  refine if_neg ?_
  unfold Mach.axisCommitOk
  rw [hcommit]
  simp

/-- Nothing holds back an axis in RUN without scheduled heads, commit, HOLD and STOP bit. -/
theorem Mach.miPlan_of_run (hstate : m.axState a = 1) (hhold : m.get (F.HAL_AX_CTL_HOLD a) = 0) (hsched : m.schedHeads a = [])
    (hcommit : m.commitTick (axisCommit a) = none) (hstop : m.bwl.stop = 0) : m.miPlan a = (m.axisLevel a).publish a := by
  have hpub := (m.axisLevel a).publishes_publish a
  unfold Mach.miPlan
  extract_lets k s k'
  generalize hp : (m.axisLevel a).publish a = p at *
  obtain ⟨r, b, c, hrest⟩ := hpub.rest
  have hk : k = p := by
    refine Eq.trans (congrArg (fun n : Mach => n.miCommit a) hp) (p.miCommit_of_none a ?_)
    rw [hrest]
    exact hcommit
  have hs : p.axState a = 1 := hpub.axState.trans hstate
  have hhead : ∀ f : Fld, ¬ pubRegs a f.addr → p.get f = m.get f := fun f hf => hpub.within.get f hf
  have hp2 : ∀ n : Nat, n ≠ F.HAL_AX_STOPD_reg a → (n < 0x220050 ∨ 0x220068 ≤ n) → ¬ pubRegs a n := by
    intro n hn hr hpub
    rcases hpub with hpub | ⟨i, hpub⟩
    · exact hn hpub
    · simp only [F.HAL_MARG_reg] at hpub
      omega
  have hp1 : p.is (F.HAL_AX_CTL_HOLD a) = false := by
    rw [Mach.is, hhead _ (hp2 _ (by simp only [F.HAL_AX_CTL_HOLD, F.HAL_AX_CTL_reg, F.HAL_AX_STOPD_reg]; omega) (by
      simp only [F.HAL_AX_CTL_HOLD, F.HAL_AX_CTL_reg]; omega)), hhold]
    rfl
  have hsched' : p.schedHeads a = [] := by
    refine Eq.trans (List.filter_congr fun h _ => ?_) hsched
    have hreg : ¬ pubRegs a (F.HAL_HEAD_reg h) := hp2 _ (by simp only [F.HAL_HEAD_reg, F.HAL_AX_STOPD_reg]; omega) (by
      simp only [F.HAL_HEAD_reg]; omega)
    rw [Mach.is, Mach.is, hhead (F.HAL_HEAD_EN h) hreg, hhead (F.HAL_HEAD_AXIS h) hreg]
  have hhold' : k' = p := by
    show k.miHold a = p
    rw [hk]
    unfold Mach.miHold
    rw [hp1, if_neg (by simp), p.guardTrips_of_alone a hsched' (by rw [hrest]; exact hstop), if_neg Bool.false_ne_true,
      p.restart_of_state a (by rw [hs]; decide)]
  rw [hhold']
  refine if_neg ?_
  show ¬ ((k.axState a != 1 && _) && _) = true
  rw [hk, hs]
  simp

theorem Mach.axState_miMoved (b : Nat) (x : AxisSt) : (m.miMoved a b x).axState a = m.axState a := by
  have hpulse : ∀ (k : Mach) (e : Nat), (k.pulse 6 e).axState a = k.axState a := fun k e =>
    Mach.axState_congr (k.pulse_reg_ne 6 e (not_eventRegs_stat a))
  have hcheck : ∀ k : Mach, (k.posevCheck a).axState a = k.axState a := by
    intro k
    unfold Mach.posevCheck
    extract_lets y
    split
    · exact hpulse _ _
    · rfl
  unfold Mach.miMoved
  extract_lets n
  have hn : n.axState a = m.axState a := hcheck _
  split
  · exact (hpulse _ _).trans hn
  · exact hn

theorem Mach.miEnd_of_rest (x : AxisSt) (met : Bool) (hstate : m.axState a = 0 ∨ m.axState a = 6) : m.miEnd a x met = m := by
  unfold Mach.miEnd
  rcases hstate with h | h
  · rw [h]
    rfl
  · rw [h]
    rfl

theorem Mach.axState_miEnd_of_run (x : AxisSt) (met : Bool) (hstate : m.axState a = 1) : (m.miEnd a x met).axState a = 1 := by
  unfold Mach.miEnd
  rw [hstate]
  show (let k := if met then m.axisPulse a 0 else m
    if met && k.act (F.HAL_AX_MODE_MODE a) = 1 then k.setAxCause a 7 else k).axState a = 1
  dsimp only
  generalize hk : (if met = true then m.axisPulse a 0 else m) = k
  have hk1 : k.axState a = 1 := by
    rw [← hk]
    split
    · exact (Mach.axState_congr (m.pulse_reg_ne 6 _ (not_eventRegs_stat a))).trans hstate
    · exact hstate
  split
  · rw [Mach.axState, Mach.setAxCause, Mach.get_put_of_lt _ (F.HAL_AX_STAT_CAUSE a) (F.HAL_AX_STAT_STATE a) _ rfl (by decide : 2 < 4)
      (by decide : 4 ≤ 6) (by decide : 6 < 32)]
    exact hk1
  · exact hk1

/-! ## The integration -/

theorem Mach.integrate_keeps (j : Jerk) : (m.integrate a j).1.hist = (m.axis a).hist ∧ (m.integrate a j).1.starting = (m.axis a).starting := by
  unfold Mach.integrate
  extract_lets x J left b go
  have hgo : ∀ d f fin, (go d f fin).1.hist = x.hist ∧ (go d f fin).1.starting = x.starting := by
    intro d f fin
    simp only [go]
    split
    · exact ⟨rfl, rfl⟩
    · split
      · exact ⟨rfl, rfl⟩
      · exact ⟨rfl, rfl⟩
  clear_value go
  split
  · exact ⟨rfl, rfl⟩
  · exact hgo _ _ _
  · dsimp only
    split
    · exact ⟨rfl, rfl⟩
    · split
      · exact hgo _ _ _
      · exact hgo _ _ _

theorem Mach.integrate_of_rest (j : Jerk) (hstate : m.axState a = 0 ∨ m.axState a = 6) :
    (m.integrate a j).1 = { m.axis a with v := 0, a := 0 } := by
  have haim : m.aim a = .rest := by
    unfold Mach.aim
    rcases hstate with h | h
    · rw [h]
      rfl
    · rw [h]
      rfl
  unfold Mach.integrate
  rw [haim]

theorem Mach.integrate_of_speed (j : Jerk) {goal : Int} (haim : m.aim a = .speed goal) (hmoves : (m.axis a).v ≠ 0 ∨ (m.axis a).moved = 0) :
    (m.integrate a j).1.p = (m.axis a).p + (m.integrate a j).1.v ∧ ((m.integrate a j).1.v, (m.integrate a j).1.a) =
      toSpeed (m.axis a).v (nextAcc (m.axis a).v (m.axis a).a (j.value (m.halJ a)) (m.halA a) (m.halD a)) goal := by
  unfold Mach.integrate
  rw [haim]
  extract_lets x J left b go
  have hfresh : (x.v = 0 && sgn goal != 0 && x.moved != 0 && sgn goal != x.moved : Bool) = false := by
    rcases hmoves with h | h
    · simp [x, h]
    · simp [x, h]
  simp only [go, hfresh, Bool.false_and, Bool.false_eq_true, if_false]
  exact ⟨rfl, rfl⟩

end

/-! ## A whole turn -/

/-- What a motion interval that begins at `m` leaves of axis `a` in `n` (R589, R595-R597). -/
structure Mach.MiAxis (a : Fin 2) (j : Jerk) (m n : Mach) : Prop where
  hist : (n.axis a).hist = ((m.now, (m.axis a).p) :: (m.axis a).hist).take 16384
  rest : (m.axState a = 0 ∨ m.axState a = 6) → ((m.axis a).starting = false ∨ (m.axis a).offAfter = true) →
    (n.axis a).p = (m.axis a).p ∧ (n.axis a).v = 0 ∧ (n.axis a).a = 0 ∧ n.axState a = m.axState a
  enters : m.get (F.HAL_AX_CTL_HOLD a) = 0 → m.schedHeads a = [] → m.commitTick (axisCommit a) = none → (m.axis a).starting = true →
    (m.axis a).offAfter = false → n.axState a = 1 ∧ (n.axis a).starting = false
  runs : m.get (F.HAL_AX_CTL_HOLD a) = 0 → m.schedHeads a = [] → m.commitTick (axisCommit a) = none → m.axState a = 1 →
    (m.axis a).starting = false → m.act (F.HAL_AX_MODE_MODE a) = 0 → m.act (F.HAL_AX_MODE_REEFEN a) = 0 →
    ((m.axis a).v ≠ 0 ∨ (m.axis a).moved = 0) →
    (n.axis a).p = (m.axis a).p + (n.axis a).v ∧ ((n.axis a).v, (n.axis a).a) =
      toSpeed (m.axis a).v (nextAcc (m.axis a).v (m.axis a).a (j.value (m.halJ a)) (m.halA a) (m.halD a))
        (if sext 32 (m.act (F.HAL_AX_VT_VT a)) < 0 then -(m.halVE a : Int) else m.halVE a)

/-- `n` has what a turn of axis `a` reads as in `m`. -/
structure Mach.SameAxis (a : Fin 2) (m n : Mach) : Prop where
  now : n.now = m.now
  axis : n.axis a = m.axis a
  regs : ∀ k, (k = F.HAL_AX_CTL_reg a ∨ k = F.HAL_AX_STAT_reg a ∨ ∃ h : Fin 6, k = F.HAL_HEAD_reg h) → n.reg k = m.reg k
  commit : n.commitTick (axisCommit a) = m.commitTick (axisCommit a)
  act : ∀ k, inCommit (axisCommit a) k = true → Sparse.get regReset n.actSet k = Sparse.get regReset m.actSet k

theorem inCommit_axis (a : Fin 2) : inCommit (axisCommit a) (F.HAL_AX_MODE_reg a) = true ∧ inCommit (axisCommit a) (F.HAL_AX_VT_reg a) = true ∧
    inCommit (axisCommit a) (F.HAL_AX_VMAX_reg a) = true ∧ inCommit (axisCommit a) (F.HAL_AX_AMAX_reg a) = true ∧
    inCommit (axisCommit a) (F.HAL_AX_DMAX_reg a) = true ∧ inCommit (axisCommit a) (F.HAL_AX_JMAX_reg a) = true := by
  revert a
  decide

theorem inCommit_axis_ne {a b : Fin 2} (hne : b ≠ a) {k : Nat} (h : inCommit (axisCommit a) k = true) : inCommit (axisCommit b) k = false := by
  have hva : axisCommit a = 0x220104 + 0x100 * a := rfl
  have hvb : axisCommit b = 0x220104 + 0x100 * b := rfl
  simp only [inCommit, commitRange, hva, hvb, Bool.and_eq_true, decide_eq_true_eq] at h ⊢
  obtain ⟨⟨hlo, hhi⟩, -⟩ := h
  rw [if_neg (by omega)] at hlo hhi ⊢
  simp only [Bool.and_eq_false_iff, decide_eq_false_iff_not]
  omega

section
variable {a : Fin 2} {m n : Mach}

theorem Mach.SameAxis.get (h : m.SameAxis a n) (f : Fld)
    (hf : f.addr = F.HAL_AX_CTL_reg a ∨ f.addr = F.HAL_AX_STAT_reg a ∨ ∃ h : Fin 6, f.addr = F.HAL_HEAD_reg h) : n.get f = m.get f :=
  congrArg (fun v : Word => bits v.toNat _ _) (h.regs _ hf)

theorem Mach.SameAxis.act_eq (h : m.SameAxis a n) (f : Fld) (hf : inCommit (axisCommit a) f.addr = true) : n.act f = m.act f :=
  congrArg (fun v : Word => bits v.toNat _ _) (h.act _ hf)

theorem Mach.SameAxis.schedHeads (h : m.SameAxis a n) : n.schedHeads a = m.schedHeads a := by
  refine List.filter_congr fun i _ => ?_
  rw [Mach.is, Mach.is, h.get (F.HAL_HEAD_EN i) (Or.inr (Or.inr ⟨i, rfl⟩)), h.get (F.HAL_HEAD_AXIS i) (Or.inr (Or.inr ⟨i, rfl⟩))]

/-- V_E depends on the active set, VLINE and, only under REEFEN, on the level that acts. -/
theorem Mach.halVE_congr (hvt : n.act (F.HAL_AX_VT_VT a) = m.act (F.HAL_AX_VT_VT a)) (hvmax : n.act (F.HAL_AX_VMAX_VMAX a) = m.act (F.HAL_AX_VMAX_VMAX a))
    (hreef : m.act (F.HAL_AX_MODE_REEFEN a) = 0) (hreef' : n.act (F.HAL_AX_MODE_REEFEN a) = 0) (hvline : (n.axis a).vline = (m.axis a).vline) :
    n.halVE a = m.halVE a := by
  unfold Mach.halVE
  dsimp only
  rw [hvt, hvmax, hreef, hreef', hvline, if_neg (by decide : ¬ (0 : Nat) = 1),
    if_neg (by decide : ¬ (0 : Nat) = 1)]

theorem Mach.SameAxis.miAxis (h : m.SameAxis a n) {k : Mach} {j : Jerk} (hk : Mach.MiAxis a j n k) : Mach.MiAxis a j m k := by
  have hstate : n.axState a = m.axState a := h.get (F.HAL_AX_STAT_STATE a) (Or.inr (Or.inl rfl))
  have hhold : n.get (F.HAL_AX_CTL_HOLD a) = m.get (F.HAL_AX_CTL_HOLD a) := h.get (F.HAL_AX_CTL_HOLD a) (Or.inl rfl)
  obtain ⟨hmode, hvt, hvmax, hamax, hdmax, hjmax⟩ := inCommit_axis a
  obtain ⟨hhist, hrest, henters, hruns⟩ := hk
  rw [h.axis, h.now] at hhist
  rw [h.axis, hstate] at hrest
  rw [h.axis, hhold, h.schedHeads, h.commit] at henters
  refine ⟨hhist, hrest, henters, fun h1 h2 h3 h4 h5 h6 h7 h8 => ?_⟩
  have hVE : n.halVE a = m.halVE a := Mach.halVE_congr (h.act_eq _ hvt) (h.act_eq _ hvmax) h7 ((h.act_eq _ hmode).trans h7) (by rw [h.axis])
  have hA : n.halA a = m.halA a := congrArg (· * 2 ^ 12) (h.act_eq (F.HAL_AX_AMAX_AMAX a) hamax)
  have hD : n.halD a = m.halD a := congrArg (· * 2 ^ 12) (h.act_eq (F.HAL_AX_DMAX_DMAX a) hdmax)
  have hJ : n.halJ a = m.halJ a := h.act_eq (F.HAL_AX_JMAX_JMAX a) hjmax
  rw [h.axis, hhold, h.schedHeads, h.commit, hstate, hA, hD, hJ, hVE, h.act_eq (F.HAL_AX_VT_VT a) hvt, h.act_eq (F.HAL_AX_MODE_MODE a) hmode,
    h.act_eq (F.HAL_AX_MODE_REEFEN a) hmode] at hruns
  exact hruns h1 h2 h3 h4 h5 h6 h7 h8

theorem Mach.AxisOwn.sameAxis {b : Fin 2} (h : m.AxisOwn b n) (hne : b ≠ a) : m.SameAxis a n where
  now := h.now
  axis := h.others a (Ne.symm hne)
  regs k hk := by
    refine h.within.1 k fun hp => ?_
    have hb : b.val ≠ a.val := fun he => hne (Fin.ext he)
    have hhead : (∃ h : Fin 6, k = F.HAL_HEAD_reg h) → 0x220010 ≤ k ∧ k < 0x220028 := by
      rintro ⟨i, rfl⟩
      simp only [F.HAL_HEAD_reg]
      omega
    have hmarg : (∃ h : Fin 6, k = F.HAL_MARG_reg h) → 0x220050 ≤ k ∧ k < 0x220068 := by
      rintro ⟨i, rfl⟩
      simp only [F.HAL_MARG_reg]
      omega
    have hk' := hk.imp_right (Or.imp_right hhead)
    have hp' := hp.imp_right (Or.imp_right (Or.imp_right (Or.imp_right (Or.imp_left hmarg))))
    clear hk hp hhead hmarg
    simp only [eventRegs, F.HAL_AX_STAT_reg, F.HAL_AX_CTL_reg, F.HAL_AX_FLT_reg, F.HAL_AX_STOPD_reg, axisCommit, F.C_STAT_reg,
      F.C_EVT_PEND_reg, F.C_EVT_OVF_reg] at hk' hp'
    omega
  commit := h.commits _ fun he => hne (Fin.ext (by
    simp only [axisCommit] at he
    omega))
  act k hk := h.act k (inCommit_axis_ne hne hk)

theorem Mach.MiAxis.keep {j : Jerk} {k : Mach} (h : Mach.MiAxis a j m n) (haxis : k.axis a = n.axis a)
    (hstat : k.reg (F.HAL_AX_STAT_reg a) = n.reg (F.HAL_AX_STAT_reg a)) : Mach.MiAxis a j m k := by
  have hstate := Mach.axState_congr hstat
  obtain ⟨hhist, hrest, henters, hruns⟩ := h
  rw [← haxis] at hhist hruns
  rw [← haxis, ← hstate] at hrest henters
  exact ⟨hhist, hrest, henters, hruns⟩

end

section
variable {a : Fin 2} {m : Mach} {j : Jerk}

theorem Mach.axisTurn_eq (hmirrored : m.mirrored = false) (hahead : m.ahead = false) (henc : m.get (F.HAL_AX_CTL_ENC a) = 0) :
    m.axisTurn a j = let n := ((m.miBook a).miEnter a).miPlan a
      (n.miMoved a m.now (n.integrate a j).1).miEnd a (n.integrate a j).1 (n.integrate a j).2 := by
  unfold Mach.axisTurn
  rw [m.axisMi_eq a j hmirrored hahead henc]
  exact if_neg Bool.false_ne_true

theorem Mach.entered (m : Mach) (a : Fin 2) (x : AxisSt) : ((m.setAxState a 1).setAxis a x).axState a = 1 ∧
    ((m.setAxState a 1).setAxis a x).get (F.HAL_AX_CTL_HOLD a) = m.get (F.HAL_AX_CTL_HOLD a) ∧
    ((m.setAxState a 1).setAxis a x).schedHeads a = m.schedHeads a ∧
    ((m.setAxState a 1).setAxis a x).commitTick (axisCommit a) = m.commitTick (axisCommit a) ∧
    ((m.setAxState a 1).setAxis a x).bwl.stop = m.bwl.stop := by
  have hget : ∀ f : Fld, f.addr ≠ F.HAL_AX_STAT_reg a → ((m.setAxState a 1).setAxis a x).get f = m.get f := fun f hf =>
    m.get_put_ne (F.HAL_AX_STAT_STATE a) f 1 hf
  refine ⟨?_, hget _ (ctl_ne_stat a), ?_, ?_, ?_⟩
  · exact m.get_put_self (F.HAL_AX_STAT_STATE a) 1 (by decide : 0 ≤ 2) (by decide : 2 < 32)
  · refine List.filter_congr fun i _ => ?_
    have hne : F.HAL_HEAD_reg i ≠ F.HAL_AX_STAT_reg a := by
      simp only [F.HAL_HEAD_reg, F.HAL_AX_STAT_reg]
      omega
    rw [Mach.is, Mach.is, hget (F.HAL_HEAD_EN i) hne, hget (F.HAL_HEAD_AXIS i) hne]
  · show ((m.put _ 1).commits.find? _).map _ = _
    rw [Mach.put_commits]
    rfl
  · show (m.put _ 1).bwl.stop = _
    rw [Mach.put_bwl]

theorem Mach.aim_of_speed (m : Mach) (a : Fin 2) (hstate : m.axState a = 1) (hmode : m.act (F.HAL_AX_MODE_MODE a) = 0) :
    m.aim a = .speed (if sext 32 (m.act (F.HAL_AX_VT_VT a)) < 0 then -(m.halVE a : Int) else m.halVE a) := by
  unfold Mach.aim
  rw [hstate, hmode]
  exact (apply_ite Aim.speed _ _ _).symm

/-- A turn changes what an axis's turn may change, and leaves the axis as R589-R597 say. -/
theorem Mach.axisTurn_spec (hmirrored : m.mirrored = false) (hahead : m.ahead = false) (henc : m.get (F.HAL_AX_CTL_ENC a) = 0)
    (hstop : m.bwl.stop = 0) : m.AxisOwn a (m.axisTurn a j) ∧ Mach.MiAxis a j m (m.axisTurn a j) := by
  rw [Mach.axisTurn_eq hmirrored hahead henc]
  obtain ⟨hhist, hp, hv, ha, hstarting, hmoved, hoff, hvline⟩ := m.miBook_axis a
  have hbook := m.axisPart_miBook a
  have hsame : ∀ f, (m.miBook a).act f = m.act f := fun f => rfl
  have hstate : (m.miBook a).axState a = m.axState a := rfl
  have hhold : (m.miBook a).get (F.HAL_AX_CTL_HOLD a) = m.get (F.HAL_AX_CTL_HOLD a) := rfl
  have hsched : (m.miBook a).schedHeads a = m.schedHeads a := rfl
  have hcommit : (m.miBook a).commitTick (axisCommit a) = m.commitTick (axisCommit a) := rfl
  have hbwl : (m.miBook a).bwl.stop = 0 := hstop
  generalize m.miBook a = k at *
  have henter := k.axisOwn_miEnter a
  have hplan := (k.miEnter a).axisPart_miPlan a
  generalize hn : (k.miEnter a).miPlan a = n at *
  obtain ⟨hmove, hmotion⟩ := n.axisOwn_miMoved a m.now (n.integrate a j).1
  have hend := (Mach.AxisPart.refl a (n.miMoved a m.now (n.integrate a j).1)).miEnd (n.integrate a j).1 (n.integrate a j).2
  have hfinal := hmotion.trans hend.motion
  have hlast : (n.miMoved a m.now (n.integrate a j).1).axState a = n.axState a := n.axState_miMoved a _ _
  obtain ⟨hihist, histart⟩ := n.integrate_keeps a j
  dsimp only
  generalize hy : (n.miMoved a m.now (n.integrate a j).1).miEnd a (n.integrate a j).1 (n.integrate a j).2 = y at *
  obtain ⟨ghist, gp, gv, ga, gstarting, gmoved⟩ := hfinal
  obtain ⟨khist, kp, kv, ka, kstarting, kmoved⟩ := hplan.motion
  refine ⟨hbook.trans (henter.trans (hplan.own.trans (hmove.trans hend.own))), ?_, ?_, ?_, ?_⟩
  · rw [ghist, hihist, khist, ← hhist]
    unfold Mach.miEnter
    split
    · rw [Mach.axis_setAxis_self]
    · rfl
  · intro hrest hwait
    have hk : k.miEnter a = k := k.miEnter_of_waiting a (by rwa [hstarting, hoff])
    rw [hk] at hn kp
    have hns : n.axState a = m.axState a := by
      rw [← hn, k.axState_miPlan_of_rest a (by rwa [hstate]), hstate]
    have hint := n.integrate_of_rest a j (by rwa [hns])
    refine ⟨?_, ?_, ?_, ?_⟩
    · rw [gp, hint, kp, hp]
    · rw [gv, hint]
    · rw [ga, hint]
    · rw [← hy, Mach.miEnd_of_rest _ a _ _ (by rwa [hlast, hns]), hlast, hns]
  · intro h1 h2 h3 h4 h5
    have hk := k.miEnter_of_starting a (by rwa [hstarting]) (by rwa [hoff])
    obtain ⟨hes, heh, hel, hec, heb⟩ := k.entered a { k.axis a with starting := false, v := 0, a := 0 }
    rw [← hk] at hes heh hel hec heb
    have hrun := (k.miEnter a).miPlan_of_run a hes (heh.trans (hhold.trans h1)) (hel.trans (hsched.trans h2)) (hec.trans (hcommit.trans h3))
      (heb.trans hbwl)
    have hns : n.axState a = 1 := by
      rw [← hn, hrun]
      exact (Mach.publishes_publish _ a).axState.trans hes
    refine ⟨?_, ?_⟩
    · rw [← hy]
      exact Mach.axState_miEnd_of_run _ a _ _ (hlast.trans hns)
    · rw [gstarting, histart, kstarting, hk, Mach.axis_setAxis_self]
  · intro h1 h2 h3 h4 h5 h6 h7 h8
    have hk : k.miEnter a = k := k.miEnter_of_waiting a (Or.inl (by rwa [hstarting]))
    rw [hk] at hn kp kv ka kmoved
    have hpub := (k.axisLevel a).publishes_publish a
    rw [← k.miPlan_of_run a (hstate.trans h4) (hhold.trans h1) (hsched.trans h2) (hcommit.trans h3) hbwl, hn] at hpub
    have hns : n.axState a = 1 := hpub.axState.trans (hstate.trans h4)
    have hact : ∀ f, n.act f = m.act f := by
      intro f
      obtain ⟨r, b, c, hrest⟩ := hpub.rest
      exact Eq.trans (by rw [hrest]; rfl) (hsame f)
    have hvl : (n.axis a).vline = (m.axis a).vline := by
      obtain ⟨r, b, c, hrest⟩ := hpub.rest
      rw [hrest]
      refine Eq.trans ?_ hvline
      show ((k.setAxis a _).axis a).vline = _
      rw [Mach.axis_setAxis_self]
    have hVE : n.halVE a = m.halVE a := Mach.halVE_congr (hact _) (hact _) h7 ((hact _).trans h7) hvl
    have haim : n.aim a = .speed (if sext 32 (m.act (F.HAL_AX_VT_VT a)) < 0 then -(m.halVE a : Int) else m.halVE a) := by
      rw [← hVE, ← hact]
      exact n.aim_of_speed a hns ((hact _).trans h6)
    have hint := n.integrate_of_speed a j haim (by rwa [kv, kmoved, hv, hmoved])
    obtain ⟨hip, hiv⟩ := hint
    have hA : n.halA a = m.halA a := congrArg (· * 2 ^ 12) (hact (F.HAL_AX_AMAX_AMAX a))
    have hD : n.halD a = m.halD a := congrArg (· * 2 ^ 12) (hact (F.HAL_AX_DMAX_DMAX a))
    have hJ : n.halJ a = m.halJ a := hact (F.HAL_AX_JMAX_JMAX a)
    rw [kv, ka, hv, ha, hA, hD, hJ] at hiv
    rw [gv, ga, gp, hip, kp, hp]
    exact ⟨rfl, hiv⟩

end

/-! ## Reef -/

/-- The registers that an evaluation of Reef may change: its own, and the event registers of C6. -/
def reefRegs (k : Nat) : Prop := (0x230000 ≤ k ∧ k < 0x230100) ∨ eventRegs 6 k

/-- `n` differs from `m` in Reef's registers and state, the cores and what the beat notes. -/
structure Mach.ReefOwn (m n : Mach) : Prop where
  within : m.Within reefRegs n
  rest : ∃ r x b y, n = { m with regs := r, cores := x, beat := b, reef := y }

section
variable {m n : Mach}

theorem Mach.ReefOwn.refl (m : Mach) : m.ReefOwn m := ⟨Mach.Within.refl _ m, m.regs, m.cores, m.beat, m.reef, rfl⟩

theorem Mach.ReefOwn.put (h : m.ReefOwn n) (f : Fld) (v : Nat) (hlo : 0x230000 ≤ f.addr) (hhi : f.addr < 0x230100) : m.ReefOwn (n.put f v) := by
  obtain ⟨r, x, b, y, hrest⟩ := h.rest
  obtain ⟨r', b', hput⟩ := n.put_changes f v
  exact ⟨h.within.put f v (Or.inl ⟨hlo, hhi⟩), r', x, b', y, by rw [hput, hrest]⟩

theorem Mach.ReefOwn.pulse (h : m.ReefOwn n) (e : Nat) : m.ReefOwn (n.pulse 6 e) := by
  obtain ⟨r, x, b, y, hrest⟩ := h.rest
  obtain ⟨r', x', b', hpulse⟩ := n.pulse_changes 6 e
  exact ⟨h.within.pulse 6 e fun _ hk => Or.inr hk, r', x', b', y, by rw [hpulse, hrest]⟩

theorem Mach.ReefOwn.reef (h : m.ReefOwn n) (y : ReefSt) : m.ReefOwn { n with reef := y } := by
  obtain ⟨r, x, b, _, hrest⟩ := h.rest
  exact ⟨h.within.other rfl rfl, r, x, b, y, by rw [hrest]⟩

/-- LEVEL and the time of its change are written, before the counts and the event. -/
def Mach.reefTo (m : Mach) (new : Nat) : Mach :=
  ((m.put F.REEF_STAT_LEVEL new).put F.REEF_TCHG_LO_T (sysOf (m.put F.REEF_STAT_LEVEL new).now)).put F.REEF_TCHG_HI_T
    (sysOf (m.put F.REEF_STAT_LEVEL new).now / 2 ^ 32)

/-- The rise or fall is counted. -/
def Mach.reefCounted (m : Mach) (rises : Prop) [Decidable rises] (cause : Nat) : Mach :=
  if rises then { (m.countHold F.REEF_CNT_RAISES 1).put F.REEF_STAT_CAUSE cause with reef := { m.reef with lastRaise := m.now } }
  else { m.countHold F.REEF_CNT_LOWERS 1 with reef := { m.reef with lastFall := m.now } }

theorem Mach.reefSet_eq (m : Mach) (new cause : Nat) (h : new ≠ m.get F.REEF_STAT_LEVEL) :
    m.reefSet new cause = ((m.reefTo new).reefCounted (m.get F.REEF_STAT_LEVEL < new) cause).pulse 6 10 := if_neg h

theorem Mach.ReefOwn.reefTo (h : m.ReefOwn n) (new : Nat) : m.ReefOwn (n.reefTo new) :=
  ((h.put F.REEF_STAT_LEVEL _ (by decide) (by decide)).put F.REEF_TCHG_LO_T _ (by decide) (by decide)).put F.REEF_TCHG_HI_T _ (by decide) (by decide)

theorem Mach.ReefOwn.reefCounted (h : m.ReefOwn n) (rises : Prop) [Decidable rises] (cause : Nat) : m.ReefOwn (n.reefCounted rises cause) := by
  unfold Mach.reefCounted
  split
  · exact ((h.put F.REEF_CNT_RAISES _ (by decide) (by decide)).put F.REEF_STAT_CAUSE _ (by decide) (by decide)).reef _
  · exact (h.put F.REEF_CNT_LOWERS _ (by decide) (by decide)).reef _

theorem Mach.ReefOwn.reefSet (h : m.ReefOwn n) (new cause : Nat) : m.ReefOwn (n.reefSet new cause) := by
  by_cases hnew : new = n.get F.REEF_STAT_LEVEL
  · rw [Mach.reefSet, if_pos hnew]
    exact h
  · rw [n.reefSet_eq new cause hnew]
    exact ((h.reefTo new).reefCounted _ cause).pulse 10

theorem Mach.get_withReef (m : Mach) (y : ReefSt) (f : Fld) : ({ m with reef := y } : Mach).get f = m.get f := rfl

theorem Mach.reefCounted_level (m : Mach) (rises : Prop) [Decidable rises] (cause : Nat) :
    (m.reefCounted rises cause).get F.REEF_STAT_LEVEL = m.get F.REEF_STAT_LEVEL := by
  unfold Mach.reefCounted
  split
  · rw [Mach.get_withReef, Mach.get_put_of_lt _ F.REEF_STAT_CAUSE F.REEF_STAT_LEVEL _ rfl (by decide) (by decide) (by decide)]
    exact Mach.get_put_ne m F.REEF_CNT_RAISES F.REEF_STAT_LEVEL _ (by decide)
  · rw [Mach.get_withReef]
    exact Mach.get_put_ne m F.REEF_CNT_LOWERS F.REEF_STAT_LEVEL _ (by decide)

theorem Mach.reefSet_level (m : Mach) {new : Nat} (cause : Nat) (hlt : new < 16) : (m.reefSet new cause).get F.REEF_STAT_LEVEL = new := by
  by_cases hnew : new = m.get F.REEF_STAT_LEVEL
  · rw [Mach.reefSet, if_pos hnew]
    exact hnew.symm
  have hto : (m.reefTo new).get F.REEF_STAT_LEVEL = new := by
    unfold Mach.reefTo
    rw [Mach.get_put_ne _ F.REEF_TCHG_HI_T _ _ (by decide), Mach.get_put_ne _ F.REEF_TCHG_LO_T _ _ (by decide)]
    exact (m.get_put_self F.REEF_STAT_LEVEL new (by decide) (by decide)).trans (Nat.mod_eq_of_lt hlt)
  rw [m.reefSet_eq new cause hnew, Mach.get, Mach.pulse_reg_ne _ 6 10 (not_eventRegs_of_lt (by decide))]
  refine Eq.trans ?_ hto
  generalize m.reefTo new = k
  exact k.reefCounted_level _ cause

end

theorem ReefSt.settle_eff (x : ReefSt) (b : Nat) (h : x.wrote = []) : (x.settle b).eff = x.eff := by
  unfold ReefSt.settle
  rw [h]
  rfl

theorem Mach.reefGet_lt (m : Mach) (f : Fld) : m.reefGet f < 2 ^ (f.hi + 1 - f.lo) := Nat.mod_lt _ (Nat.two_pow_pos _)

theorem Mach.reefLamp_lt (m : Mach) : m.reefLamp < 16 := by
  unfold Mach.reefLamp
  have hfold : ∀ (l : List (Fin 6)) (x : Nat), x < 16 → l.foldl (fun (x : Nat) (h : Fin 6) =>
      if (m.reefGet F.REEF_INEN_LAMP).testBit h then max x (m.get (F.H_ILL_STAT_REEFREQ h)) else x) x < 16 := by
    intro l
    induction l with
    | nil => exact fun x hx => hx
    | cons h t ih =>
      intro x hx
      refine ih _ ?_
      dsimp only
      split
      · exact Nat.max_lt.2 ⟨hx, m.get_lt (F.H_ILL_STAT_REEFREQ h)⟩
      · exact hx
  exact hfold _ 0 (by decide)

theorem Mach.reefDie_lt (m : Mach) : m.reefDie < 16 := by
  unfold Mach.reefDie
  split
  · exact m.reefGet_lt F.REEF_CTL_DIEL
  · decide

theorem not_reefRegs_bwl : ¬ reefRegs F.BWL_CTL_EN.addr := by
  rintro (⟨-, h⟩ | h)
  · exact absurd h (by decide)
  · exact not_eventRegs_of_lt (by decide) h

theorem Mach.ringFloor_of_off (m : Mach) (h : m.get F.BWL_CTL_EN = 0) : m.ringFloor = 0 := by
  have hoff : m.is F.BWL_CTL_EN = false := by
    rw [Mach.is, h]
    rfl
  unfold Mach.ringFloor
  rw [hoff]
  rfl

theorem Mach.reefEval_spec (m : Mach) (starved : Nat) : m.ReefOwn (m.reefEval starved) ∧
    (m.get F.BWL_CTL_EN = 0 → m.reefGet F.REEF_CTL_FORCE = 1 → m.reef.wrote = [] → (m.reefEval starved).get F.REEF_STAT_LEVEL =
      max (m.reefGet F.REEF_CTL_FORCEL) (max m.reefLamp m.reefDie)) := by
  unfold Mach.reefEval
  extract_lets b r m1 L xc lamp die codec minl floor after low
  have hm1 : m.ReefOwn m1 := (Mach.ReefOwn.refl m).reef _
  have heff : m.reef.wrote = [] → ∀ f, m1.reefGet f = m.reefGet f := fun h f => congrArg (fun e => setGet e f) (m.reef.settle_eff b h)
  have hlamp : m.reef.wrote = [] → lamp = m.reefLamp := by
    intro h
    show m1.reefLamp = _
    unfold Mach.reefLamp
    rw [heff h]
    rfl
  have hdie : m.reef.wrote = [] → die = m.reefDie := by
    intro h
    show m1.reefDie = _
    unfold Mach.reefDie
    rw [heff h]
    rfl
  clear_value L xc lamp die codec minl floor after m1
  generalize m1.reefRing = q
  obtain ⟨xr, head⟩ := q
  dsimp -zeta only
  extract_lets m2 m3 m4 hiR hiC quiet force base x1 m5 new x2 x3 hold maxl dr dc press x4 up m6 m7
  have hm2 : m.ReefOwn m2 := (((hm1.put F.REEF_PRESS_XR _ (by decide) (by decide)).put F.REEF_PRESS_XC _ (by decide) (by decide)).put
    F.REEF_PRESS_XRHEAD _ (by decide) (by decide)).put F.REEF_PRESS_LAMP _ (by decide) (by decide)
  have hm3 : m.ReefOwn m3 := (hm2.put F.REEF_PRESS_CODEC _ (by decide) (by decide)).put F.REEF_PRESS_DIE _ (by decide) (by decide)
  have hm4 : m.ReefOwn m4 := (hm3.put F.REEF_STAT_FLOOR _ (by decide) (by decide)).put F.REEF_STAT_DIEW _ (by decide) (by decide)
  have hget4 : ∀ f, m4.reefGet f = m1.reefGet f := by
    intro f
    show setGet m4.reef.eff f = setGet m1.reef.eff f
    simp only [m4, m3, m2, Mach.put_reef]
  have hm5 : m.ReefOwn m5 := hm4.reef _
  have hm6 : m.ReefOwn m6 := hm4.reef _
  have hm7 : m.ReefOwn m7 := by
    show m.ReefOwn (if _ then _ else _)
    split
    · exact hm6.reefSet _ _
    · split
      · split
        · exact hm6.reefSet _ _
        · exact hm6
      · exact hm6
  constructor
  · split
    · exact (hm5.reefSet _ _).put F.REEF_STAT_DWELL _ (by decide) (by decide)
    · exact hm7.put F.REEF_STAT_DWELL _ (by decide) (by decide)
  · intro hbwl hf hw
    have hf4 : force := (hget4 _).trans ((heff hw _).trans hf)
    have hbase : base = m.reefGet F.REEF_CTL_FORCEL := (if_pos hf4).trans ((hget4 _).trans (heff hw _))
    have hring : m5.ringFloor = 0 := m5.ringFloor_of_off ((hm5.within.get _ not_reefRegs_bwl).trans hbwl)
    have hnew : new = max (m.reefGet F.REEF_CTL_FORCEL) (max m.reefLamp m.reefDie) := by
      show max base (max (max lamp die) m5.ringFloor) = _
      rw [hring, hbase, hlamp hw, hdie hw, Nat.max_zero]
    have hlt : new < 16 := by
      rw [hnew]
      exact Nat.max_lt.2 ⟨m.reefGet_lt F.REEF_CTL_FORCEL, Nat.max_lt.2 ⟨m.reefLamp_lt, m.reefDie_lt⟩⟩
    rw [if_pos (by simp [hf4])]
    rw [Mach.get_put_of_lt _ F.REEF_STAT_DWELL F.REEF_STAT_LEVEL _ rfl (by decide) (by decide) (by decide), m5.reefSet_level _ hlt]
    exact hnew

/-! ## The motion interval -/

theorem Mach.le_miDue (m : Mach) : m.now ≤ m.miDue := by
  have hgrid : m.now ≤ nextGrid 3000 m.now := by
    simp only [nextGrid, ceilDiv]
    omega
  unfold Mach.miDue
  extract_lets g
  split
  · exact Nat.le_trans hgrid (Nat.le_add_right _ _)
  · exact hgrid

theorem Mach.is_of_zero (m : Mach) {f : Fld} (h : m.get f = 0) : m.is f = false := by
  rw [Mach.is, h]
  rfl

theorem Mach.bwlAct_of_off (m : Mach) (hoff : m.get F.BWL_CTL_EN = 0) (hpend : m.bwl.pend = none) : m.bwlAct = m := by
  unfold Mach.bwlAct Mach.bwlOverdue Mach.bwlFollower Mach.bwlMaster
  rw [m.is_of_zero hoff, hpend]
  simp

theorem Mach.bwlSend_of_off (m : Mach) (hoff : m.get F.BWL_CTL_EN = 0) : m.bwlSend = m := by
  unfold Mach.bwlSend Mach.bwlMaster
  rw [m.is_of_zero hoff]
  rfl

theorem Mach.capSample_changes (m : Mach) : ∃ y, m.capSample = { m with bc := y } := by
  unfold Mach.capSample
  split
  · exact ⟨m.bc, rfl⟩
  · exact ⟨_, rfl⟩

theorem Mach.mirrored_of_off (m : Mach) (hoff : m.get F.BWL_CTL_EN = 0) : m.mirrored = false := by
  unfold Mach.mirrored
  rw [m.is_of_zero hoff]
  rfl

theorem Mach.ahead_of_off (m : Mach) (hoff : m.get F.BWL_CTL_EN = 0) : m.ahead = false := by
  unfold Mach.ahead
  rw [m.is_of_zero hoff]
  rfl

/-- What an axis's turn may change holds neither what Bowline, Reef and the lamps show nor the other axis's ENC. -/
theorem not_axisRegs (a : Fin 2) {k : Nat} (h : (k < 0x220050 ∨ (0x230000 ≤ k ∧ k < 0x400000)) ∨ ∃ b : Fin 2, k = F.HAL_AX_CTL_reg b) :
    ¬ axisRegs a k := by
  intro hk
  have hmarg : (∃ h : Fin 6, k = F.HAL_MARG_reg h) → 0x220050 ≤ k ∧ k < 0x220068 := by
    rintro ⟨i, rfl⟩
    simp only [F.HAL_MARG_reg]
    omega
  have hctl : (∃ b : Fin 2, k = F.HAL_AX_CTL_reg b) → k = 0x220100 ∨ k = 0x220200 := by
    rintro ⟨b, rfl⟩
    simp only [F.HAL_AX_CTL_reg]
    omega
  have hk' := hk.imp_right (Or.imp_right (Or.imp_right (Or.imp_right (Or.imp_left hmarg))))
  have h' := h.imp_right hctl
  clear hk h hmarg hctl
  simp only [eventRegs, F.HAL_AX_STAT_reg, F.HAL_AX_FLT_reg, F.HAL_AX_STOPD_reg, axisCommit, F.C_STAT_reg, F.C_EVT_PEND_reg, F.C_EVT_OVF_reg] at hk' h'
  omega

theorem Mach.reefLamp_congr {m n : Mach} (hreef : n.reef = m.reef) (hreg : ∀ h : Fin 6, n.reg (F.H_ILL_STAT_reg h) = m.reg (F.H_ILL_STAT_reg h)) :
    n.reefLamp = m.reefLamp := by
  have hget : ∀ h : Fin 6, n.get (F.H_ILL_STAT_REEFREQ h) = m.get (F.H_ILL_STAT_REEFREQ h) := fun h =>
    congrArg (fun v : Word => bits v.toNat _ _) (hreg h)
  unfold Mach.reefLamp Mach.reefGet
  simp only [hreef, hget]

theorem Mach.reefDie_congr {m n : Mach} (hreef : n.reef = m.reef) (hreg : n.reg F.SHR_TEMP_reg = m.reg F.SHR_TEMP_reg) :
    n.reefDie = m.reefDie := by
  have hget : n.get F.SHR_TEMP_WARN = m.get F.SHR_TEMP_WARN := congrArg (fun v : Word => bits v.toNat _ _) hreg
  unfold Mach.reefDie Mach.reefGet Mach.is
  rw [hreef, hget]

/-- What an interval leaves, against the machine `m` at its first beat. -/
structure Mach.Interval (j0 j1 : Jerk) (m n : Mach) : Prop where
  now : n.now = m.now
  byte : ∀ k, n.byte k = m.byte k
  axis0 : Mach.MiAxis 0 j0 m n
  axis1 : Mach.MiAxis 1 j1 m n
  level : m.reefGet F.REEF_CTL_FORCE = 1 → m.reef.wrote = [] →
    n.get F.REEF_STAT_LEVEL = max (m.reefGet F.REEF_CTL_FORCEL) (max m.reefLamp m.reefDie)

/-- What follows the axes' turns at a boundary. -/
def Mach.afterTurns (m : Mach) : Mach := (m.starveTake.2.reefEval m.starveTake.1).capSample.bwlSend

theorem Mach.starveTake_changes (m : Mach) : ∃ y, m.starveTake.2 = { m with st := y } := ⟨_, rfl⟩

theorem Mach.motionInterval_eq (m : Mach) (j0 j1 : Jerk) :
    m.motionInterval j0 j1 = (((m.runTo m.miDue).bwlAct.axisTurn 0 j0).axisTurn 1 j1).afterTurns := by
  unfold Mach.motionInterval
  generalize (m.runTo m.miDue).bwlAct = k
  dsimp only
  generalize (k.axisTurn 0 j0).axisTurn 1 j1 = n
  rfl

theorem Mach.interval_turns (m : Mach) (j0 j1 : Jerk) (hoff : m.get F.BWL_CTL_EN = 0) (hstop : m.bwl.stop = 0)
    (henc0 : m.get (F.HAL_AX_CTL_ENC 0) = 0) (henc1 : m.get (F.HAL_AX_CTL_ENC 1) = 0) : Mach.Interval j0 j1 m
      ((m.axisTurn 0 j0).axisTurn 1 j1).afterTurns := by
  obtain ⟨hown0, haxis0⟩ := Mach.axisTurn_spec (m := m) (a := 0) (j := j0) (m.mirrored_of_off hoff) (m.ahead_of_off hoff) henc0 hstop
  generalize m.axisTurn 0 j0 = m1 at *
  have hbwl : ∀ a : Fin 2, ¬ axisRegs a F.BWL_CTL_EN.addr := fun a => not_axisRegs a (Or.inl (Or.inr (by decide)))
  have hoff1 : m1.get F.BWL_CTL_EN = 0 := (hown0.within.get _ (hbwl 0)).trans hoff
  obtain ⟨hown1, haxis1⟩ := Mach.axisTurn_spec (m := m1) (a := 1) (j := j1) (m1.mirrored_of_off hoff1) (m1.ahead_of_off hoff1)
    ((hown0.within.get (F.HAL_AX_CTL_ENC 1) (not_axisRegs 0 (Or.inr ⟨1, rfl⟩))).trans henc1) (by rw [hown0.bwl]; exact hstop)
  generalize m1.axisTurn 1 j1 = m2 at *
  have hoff2 : m2.get F.BWL_CTL_EN = 0 := (hown1.within.get _ (hbwl 1)).trans hoff1
  obtain ⟨y, hst⟩ := m2.starveTake_changes
  unfold Mach.afterTurns
  generalize m2.starveTake.1 = starved at *
  generalize m2.starveTake.2 = m3 at *
  have haxis3 : ∀ a, m3.axis a = m2.axis a := fun a => by rw [hst]; rfl
  have hreg3 : ∀ k, m3.reg k = m2.reg k := fun k => by rw [hst]; rfl
  have hnow3 : m3.now = m2.now := by rw [hst]; rfl
  have hbyte3 : ∀ k, m3.byte k = m2.byte k := fun k => by rw [hst]; rfl
  have hreef3 : m3.reef = m2.reef := by rw [hst]
  have hoff3 : m3.get F.BWL_CTL_EN = 0 := Eq.trans (by rw [hst]; rfl) hoff2
  obtain ⟨hreef, hlevel⟩ := m3.reefEval_spec starved
  generalize m3.reefEval starved = m4 at *
  obtain ⟨z, hcap⟩ := m4.capSample_changes
  obtain ⟨r, x, b, w, hrest⟩ := hreef.rest
  have hoff4 : m4.get F.BWL_CTL_EN = 0 := (hreef.within.get _ not_reefRegs_bwl).trans hoff3
  rw [hcap, Mach.bwlSend_of_off { m4 with bc := z } hoff4]
  have haxis : ∀ a, ({ m4 with bc := z } : Mach).axis a = m2.axis a := by
    intro a
    rw [← haxis3, hrest]
    rfl
  have hstat : ∀ a : Fin 2, ({ m4 with bc := z } : Mach).reg (F.HAL_AX_STAT_reg a) = m2.reg (F.HAL_AX_STAT_reg a) := by
    intro a
    refine (hreef.within.1 _ ?_).trans (hreg3 _)
    rintro (⟨h, -⟩ | h)
    · simp only [F.HAL_AX_STAT_reg] at h
      omega
    · exact not_eventRegs_stat a h
  have hsame0 : m2.axis 0 = m1.axis 0 := hown1.others 0 (by decide)
  have hstat0 : m2.reg (F.HAL_AX_STAT_reg (0 : Fin 2)) = m1.reg (F.HAL_AX_STAT_reg (0 : Fin 2)) :=
    (hown1.sameAxis (a := 0) (by decide)).regs _ (Or.inr (Or.inl rfl))
  refine ⟨?_, ?_, ?_, ?_, ?_⟩
  · have hnow4 : m4.now = m3.now := by rw [hrest]; rfl
    exact hnow4.trans (hnow3.trans (hown1.now.trans hown0.now))
  · exact fun k => (hreef.within.2 k).trans ((hbyte3 k).trans ((hown1.within.2 k).trans (hown0.within.2 k)))
  · exact (haxis0.keep hsame0 hstat0).keep (haxis 0) (hstat 0)
  · exact (hown0.sameAxis (by decide)).miAxis (haxis1.keep (haxis 1) (hstat 1))
  · intro hforce hwrote
    have hreefs : m3.reef = m.reef := hreef3.trans (hown1.reef.trans hown0.reef)
    have hkept : ∀ k, (∀ a : Fin 2, ¬ axisRegs a k) → m3.reg k = m.reg k := fun k hk =>
      (hreg3 k).trans ((hown1.within.1 k (hk 1)).trans (hown0.within.1 k (hk 0)))
    have hget : ∀ f, m3.reefGet f = m.reefGet f := fun f => by rw [Mach.reefGet, Mach.reefGet, hreefs]
    have hlamp : m3.reefLamp = m.reefLamp := Mach.reefLamp_congr hreefs fun h => hkept _ fun a => not_axisRegs a (Or.inl (Or.inl (by
      simp only [F.H_ILL_STAT_reg]
      omega)))
    have hdie : m3.reefDie = m.reefDie := Mach.reefDie_congr hreefs (hkept _ fun a => not_axisRegs a (Or.inl (Or.inr (by decide))))
    rw [← hget, ← hlamp, ← hdie]
    exact hlevel hoff3 ((hget _).trans hforce) (hreefs ▸ hwrote)

/-- Settles O46: at the boundary each axis takes its turn (`axisTurn_spec`), then Reef evaluates (`reefEval_spec`); neither touches what the
other reads. -/
theorem motionIntervals : Obligations.MotionIntervals := by
  intro j0 j1 s hlive hoff hdue henc0 henc1 hpend hstop
  obtain ⟨hrun, -, -⟩ := s.m.live_iff.1 hlive
  obtain ⟨n, w, hto⟩ := s.m.runTo_changes s.m.miDue
  have hnow : (s.m.runTo s.m.miDue).now = s.m.miDue := by
    rw [s.m.now_runTo hrun hdue]
    exact Nat.max_eq_right s.m.le_miDue
  have hexec : exec (.motionInterval j0 j1) s = .next { s with m := s.m.motionInterval j0 j1 } := by
    change s.run (fun m => m.ifLive (fun m => m.motionInterval j0 j1)) = _
    rw [State.run_eq, Mach.ifLive_of _ _ hlive]
  have hact : (s.m.runTo s.m.miDue).bwlAct = s.m.runTo s.m.miDue := Mach.bwlAct_of_off _ (by rw [hto]; exact hoff) (by rw [hto]; exact hpend)
  have hall := (s.m.runTo s.m.miDue).interval_turns j0 j1 (by rw [hto]; exact hoff) (by rw [hto]; exact hstop) (by rw [hto]; exact henc0)
    (by rw [hto]; exact henc1)
  rw [← hact, ← s.m.motionInterval_eq j0 j1, hact] at hall
  generalize s.m.motionInterval j0 j1 = y at *
  rw [hto] at hall hnow
  obtain ⟨hynow, hybyte, haxis0, haxis1, hlevel⟩ := hall
  refine ⟨{ s with m := y }, hexec, hynow.trans hnow, ⟨hybyte, rfl, rfl, rfl⟩, hlevel, fun a => ?_⟩
  have haxis : Mach.MiAxis a (if a = 0 then j0 else j1) { s.m with sysTime := n, wraps := w } y := by
    match a with
    | 0 => exact haxis0
    | 1 => exact haxis1
  obtain ⟨hhist, hrest, henters, hruns⟩ := haxis
  rw [hnow] at hhist
  exact ⟨hhist, hrest, fun hhold hsched hcommit => ⟨henters hhold hsched hcommit, fun h1 h2 h3 h4 h5 =>
    hruns hhold hsched hcommit h1 h2 h3 h4 h5⟩⟩

end Sys2Proof.Machine
end

section
/-!
Settles the page machine and the rings (R548, R551-R556, R565, R572).
-/

namespace Sys2Proof.Machine

/-! ## What work on the rings may change -/

/-- `n` differs from `m` by work on the rings: no byte of a core memory, of the map's own registers only those of `q`, nothing of C6,
of the page machine and of the clock. -/
structure Mach.RingWork (q : Nat → Prop) (m n : Mach) : Prop where
  mem : ∀ a, inCoreMem a = true → n.byte a = m.byte a
  now : n.now = m.now
  regs : ∀ k, k < 0x400000 → ¬ q k → n.reg k = m.reg k
  lines : m.SameLines n 6
  trg : n.trg = { m.trg with rings := n.trg.rings }
  bwl : n.bwl = m.bwl

/-- The same of the page machine: it may have pulsed lines of C6, and a line that was pending there still is. -/
structure Mach.PageWork (q : Nat → Prop) (m n : Mach) : Prop where
  mem : ∀ a, inCoreMem a = true → n.byte a = m.byte a
  now : n.now = m.now
  regs : ∀ k, k < 0x400000 → ¬ q k → n.reg k = m.reg k
  up : n.inReset = m.inReset ∧ n.pwr.thermal = m.pwr.thermal
  rung : ∀ e, (m.inReset = false ∧ m.pwr.thermal = false) → m.Rung 6 e → n.Rung 6 e
  swtAt : n.trg.swtAt = m.trg.swtAt
  bwl : n.bwl = m.bwl

theorem lineBase_above {a : Nat} (h : inCoreMem a = true) : a < lineBase := by
  have hm : mbxBase = 0x480000 := rfl
  have hl : lineBase = 0x8000000 := rfl
  simp only [inCoreMem, Bool.or_eq_true, Bool.and_eq_true, decide_eq_true_eq] at h
  omega

section
variable {q : Nat → Prop} {m n : Mach}

theorem Mach.RingWork.refl (q : Nat → Prop) (m : Mach) : m.RingWork q m := ⟨fun _ _ => rfl, rfl, fun _ _ _ => rfl, Mach.SameLines.refl m 6, rfl, rfl⟩

theorem Mach.RingWork.trans {k : Mach} (h : m.RingWork q n) (h' : n.RingWork q k) : m.RingWork q k where
  mem a ha := (h'.mem a ha).trans (h.mem a ha)
  now := h'.now.trans h.now
  regs a ha hq := (h'.regs a ha hq).trans (h.regs a ha hq)
  lines := h.lines.trans h'.lines
  trg := by rw [h'.trg, h.trg]
  bwl := h'.bwl.trans h.bwl

theorem Mach.RingWork.mono {q' : Nat → Prop} (h : m.RingWork q n) (hq : ∀ k, q k → q' k) : m.RingWork q' n :=
  ⟨h.mem, h.now, fun k hk hk' => h.regs k hk fun hp => hk' (hq k hp), h.lines, h.trg, h.bwl⟩

/-- A change of the line store, the heads, the rings, the notes of bad words and the free values taken. -/
theorem Mach.RingWork.changes {k : Mach} {x : Sparse 8} {b o : List Nat} {y : Vector HeadSt 6} {r : Vector RingSt 6} {c : Nat} (h : m.RingWork q n)
    (hk : k = { n with mem := x, eccBad := b, eccOne := o, heads := y, trg := { n.trg with rings := r }, freeCtr := c })
    (hmem : ∀ a, inCoreMem a = true → k.byte a = n.byte a) : m.RingWork q k := by
  subst hk
  exact h.trans ⟨hmem, rfl, fun _ _ _ => rfl, ⟨rfl, rfl, rfl, rfl, rfl, rfl⟩, rfl, rfl⟩

theorem Mach.RingWork.put (h : m.RingWork q n) (f : Fld) (v : Nat) (hf : f.addr < 0x400000) (hq : q f.addr) : m.RingWork q (n.put f v) :=
  h.trans ⟨fun a _ => n.put_byte f v a, Mach.now_put n f v, fun k _ hk => n.reg_put_ne f v fun he => hk (he ▸ hq), n.sameLines_put f v 6 hf,
    by rw [Mach.put_trg], n.put_bwl f v⟩

theorem Mach.RingWork.pulseHead (h : m.RingWork q n) (i : Fin 6) (e : Nat) : m.RingWork q (n.pulseHead i e) := by
  unfold Mach.pulseHead
  split
  · exact h
  have hne : coreOf i ≠ 6 := fun he => by
    have := congrArg Fin.val he
    simp only [coreOf] at this
    omega
  obtain ⟨r, x, b, hpulse⟩ := n.pulse_changes (coreOf i) e
  refine h.trans ⟨fun a _ => ?_, n.pulse_now _ e, fun k hk _ => n.pulse_reg_ne _ e (not_eventRegs_of_lt hk), sameLines_pulse_ne n e hne, ?_, ?_⟩
  · rw [hpulse]
    rfl
  · rw [hpulse]
  · rw [hpulse]

theorem Mach.RingWork.setRing (h : m.RingWork q n) (i : Fin 6) (r : RingSt) : m.RingWork q (n.setRing i r) := h.changes rfl fun _ _ => rfl

theorem Mach.RingWork.storeLine (h : m.RingWork q n) (a : Nat) (l : List Byte) (ha : lineBase ≤ a) : m.RingWork q (n.storeBytes a l) := by
  obtain ⟨x, hx⟩ := n.storeBytes_changes a l
  exact h.changes hx fun b hb => n.byte_storeBytes a l b (Or.inl (Nat.lt_of_lt_of_le (lineBase_above hb) ha))

theorem Mach.RingWork.fresh (h : m.RingWork q n) (w : Nat) : m.RingWork q (n.fresh w).2 := h.changes rfl fun _ _ => rfl

theorem Mach.RingWork.each {α : Type} (h : m.RingWork q n) (l : List α) (f : α → Mach → Mach)
    (hf : ∀ x k, m.RingWork q k → m.RingWork q (f x k)) : m.RingWork q (n.each l f) :=
  Mach.each_keeps (fun k => m.RingWork q k) l f hf n h

theorem Mach.RingWork.get (h : m.RingWork q n) (f : Fld) (hf : f.addr < 0x400000) (hq : ¬ q f.addr) : n.get f = m.get f :=
  congrArg (fun v : Word => bits v.toNat _ _) (h.regs _ hf hq)

theorem Mach.PageWork.get (h : m.PageWork q n) (f : Fld) (hf : f.addr < 0x400000) (hq : ¬ q f.addr) : n.get f = m.get f :=
  congrArg (fun v : Word => bits v.toNat _ _) (h.regs _ hf hq)

theorem Mach.PageWork.refl (q : Nat → Prop) (m : Mach) : m.PageWork q m :=
  ⟨fun _ _ => rfl, rfl, fun _ _ _ => rfl, ⟨rfl, rfl⟩, fun _ _ h => h, rfl, rfl⟩

theorem Mach.PageWork.trans {k : Mach} (h : m.PageWork q n) (h' : n.PageWork q k) : m.PageWork q k where
  mem a ha := (h'.mem a ha).trans (h.mem a ha)
  now := h'.now.trans h.now
  regs a ha hq := (h'.regs a ha hq).trans (h.regs a ha hq)
  up := ⟨h'.up.1.trans h.up.1, h'.up.2.trans h.up.2⟩
  rung e hup hr := h'.rung e ⟨h.up.1.trans hup.1, h.up.2.trans hup.2⟩ (h.rung e hup hr)
  swtAt := h'.swtAt.trans h.swtAt
  bwl := h'.bwl.trans h.bwl

theorem Mach.RingWork.page (h : m.RingWork q n) : m.PageWork q n :=
  ⟨h.mem, h.now, h.regs, h.lines.up, fun _ _ hr => h.lines.rung hr, by rw [h.trg], h.bwl⟩

theorem Mach.PageWork.mono {q' : Nat → Prop} (h : m.PageWork q n) (hq : ∀ k, q k → q' k) : m.PageWork q' n :=
  ⟨h.mem, h.now, fun k hk hk' => h.regs k hk fun hp => hk' (hq k hp), h.up, h.rung, h.swtAt, h.bwl⟩

theorem Mach.PageWork.put (h : m.PageWork q n) (f : Fld) (v : Nat) (hf : f.addr < 0x400000) (hq : q f.addr) : m.PageWork q (n.put f v) :=
  h.trans ((Mach.RingWork.refl q n).put f v hf hq).page

theorem Mach.PageWork.pulse (h : m.PageWork q n) {e : Nat} (he : e < 32) : m.PageWork q (n.pulse 6 e) := by
  obtain ⟨r, x, b, hpulse⟩ := n.pulse_changes 6 e
  refine h.trans ⟨fun a _ => ?_, n.pulse_now 6 e, fun k hk _ => n.pulse_reg_ne 6 e (not_eventRegs_of_lt hk), ?_, fun _ hup hr => hr.pulse 6 e hup he, ?_, ?_⟩
  · rw [hpulse]
    rfl
  · rw [hpulse]
    exact ⟨rfl, rfl⟩
  · rw [hpulse]
  · rw [hpulse]

theorem Mach.PageWork.setTrg (h : m.PageWork q n) (x : TrgSt) (hx : x.swtAt = n.trg.swtAt) : m.PageWork q { n with trg := x } :=
  h.trans ⟨fun _ _ => rfl, rfl, fun _ _ _ => rfl, ⟨rfl, rfl⟩, fun _ _ hr => ⟨hr.state, hr.late, hr.pend⟩, hx, rfl⟩

/-! ## Pages -/

theorem Mach.RingWork.writeRecord (h : m.RingWork q n) (i : Fin 6) (p : HeadPage) : m.RingWork q (n.writeRecord i p) :=
  h.storeLine _ _ (Nat.le_trans (Nat.le_add_right _ _) (Nat.le_add_right _ _))

theorem Mach.RingWork.setPage (h : m.RingWork q n) (i : Fin 6) (p : HeadPage) : m.RingWork q (n.setPage i p) := h.setRing i _

/-- The page's new state stands in its ring and its record. -/
theorem Mach.RingWork.recordPage (h : m.RingWork q n) (i : Fin 6) (p : HeadPage) : m.RingWork q ((n.setPage i p).writeRecord i p) :=
  (h.setPage i p).writeRecord i p

theorem Mach.RingWork.tryClose (h : m.RingWork q n) (i : Fin 6) (p : HeadPage) : m.RingWork q (n.tryClose i p) := by
  unfold Mach.tryClose
  split
  · exact (h.recordPage i _).pulseHead i 11
  · exact h

theorem Mach.RingWork.frac16 (h : m.RingWork q n) (f : Int) : m.RingWork q (n.frac16 f).2 := by
  unfold Mach.frac16
  split
  · exact h
  · exact h.fresh 16

theorem Mach.RingWork.fixEdge (h : m.RingWork q n) (i : Fin 6) (p : HeadPage) (e : Nat) (frac : Int) (old : Bool) :
    m.RingWork q (n.fixEdge i p e frac old) := by
  unfold Mach.fixEdge
  split
  · exact h
  · next pl _ =>
    have hfrac := h.frac16 frac
    generalize n.frac16 frac = r at *
    obtain ⟨fr, k⟩ := r
    exact ((hfrac.recordPage i _).pulseHead i 11).tryClose i _

theorem Mach.RingWork.openRing (h : m.RingWork q n) (i : Fin 6) (no evTime src : Nat) (auto : Bool) :
    m.RingWork q (n.openRing i no evTime src auto) := by
  unfold Mach.openRing
  split
  · exact h
  · generalize n.eventPos i evTime = r
    obtain ⟨pos, old⟩ := r
    dsimp -zeta only
    extract_lets rule r top p keep k target
    have hk : m.RingWork q k := (h.setRing i _).writeRecord i p
    clear_value k
    split
    · exact hk
    · exact hk.fixEdge i p _ _ _

theorem Mach.RingWork.endRingPage (h : m.RingWork q n) (i : Fin 6) (p : HeadPage) (why : EndWhy) : m.RingWork q (n.endRingPage i p why) := by
  unfold Mach.endRingPage
  extract_lets t at' p' maxl full p2 target
  split
  · split
    · exact h.recordPage i _
    · exact (h.recordPage i _).pulseHead i 11
  · split
    · split
      · exact (h.recordPage i _).tryClose i _
      · split
        · exact h.recordPage i _
        · next e f o _ =>
          have hfrac := h.frac16 f
          generalize n.frac16 f = r at *
          obtain ⟨fr, k⟩ := r
          exact (hfrac.recordPage i _).tryClose i _
    · exact (h.recordPage i _).tryClose i _

theorem Mach.RingWork.endRing (h : m.RingWork q n) (i : Fin 6) (why : EndWhy) : m.RingWork q (n.endRing i why) := by
  unfold Mach.endRing
  split
  · exact h
  · split
    · exact h
    · exact h.endRingPage i _ why

theorem Mach.RingWork.abortRing (h : m.RingWork q n) (i : Fin 6) : m.RingWork q (n.abortRing i) :=
  h.each _ _ fun p _ hk => hk.endRingPage i p .abort

end

/-! ## Lines in the rings -/

section
variable {q : Nat → Prop} {m n : Mach} {i : Fin 6}

theorem rcnt_lt (i : Fin 6) : F.TRG_R_RCNT_reg i < 0x400000 := by
  simp only [F.TRG_R_RCNT_reg]
  omega

theorem Mach.RingWork.release (h : m.RingWork q n) (k : Nat) (hq : q (F.TRG_R_RCNT_reg i)) : m.RingWork q (n.release i k) := by
  unfold Mach.release
  extract_lets f0 r n1 n2 low
  have hn2 : m.RingWork q n2 := (h.setRing i _).put (F.TRG_R_RCNT_N i) _ (rcnt_lt i) hq
  clear_value n2
  split
  · exact hn2.pulseHead i 10
  · exact hn2

theorem Mach.RingWork.noteFreed (h : m.RingWork q n) (l : RingLine) : m.RingWork q (n.noteFreed i l) := h.setRing i _

theorem Mach.RingWork.releaseHistory (h : m.RingWork q n) (need late : Bool) (k : Nat) (hq : q (F.TRG_R_RCNT_reg i)) :
    m.RingWork q (n.releaseHistory i need late k) := by
  induction k generalizing n with
  | zero => exact h
  | succ k ih =>
    unfold Mach.releaseHistory
    extract_lets r hist full beyond
    split
    · exact h
    · split
      · exact ih ((h.release 1 hq).noteFreed _)
      · exact h

theorem Mach.RingWork.unfree (h : m.RingWork q n) (hq : q (F.TRG_R_RCNT_reg i)) : m.RingWork q (n.unfree i) := by
  unfold Mach.unfree
  extract_lets r k
  split
  · exact (h.put (F.TRG_R_RCNT_N i) _ (rcnt_lt i) hq).setRing i _
  · exact h

theorem Mach.RingWork.putPixels (h : m.RingWork q n) (a : Nat) (l : List Byte) (ha : lineBase ≤ a) : m.RingWork q (n.putPixels a l) := by
  have hstore := h.storeLine a l ha
  unfold Mach.putPixels
  generalize n.storeBytes a l = k at *
  exact hstore.changes rfl fun _ _ => rfl

theorem Mach.RingWork.linePixels (h : m.RingWork q n) (l : LineCtx) : m.RingWork q (n.linePixels i l) := by
  unfold Mach.linePixels
  split
  · exact h
  · next slot _ =>
    extract_lets fmt k a
    have ha : lineBase ≤ a := by
      show lineBase ≤ lineBase + _ + _ + 64
      omega
    clear_value a
    refine Mach.each_keeps (fun k => m.RingWork q k) _ _ (fun f k hk => ?_) n h
    dsimp only
    split
    · exact hk.putPixels _ _ (by omega)
    · exact hk

theorem Mach.RingWork.setTpg (h : m.RingWork q n) (x : TpgSt) : m.RingWork q (n.setTpg i x) := h.changes rfl fun _ _ => rfl

theorem Mach.RingWork.catchHead (h : m.RingWork q n) : m.RingWork q (n.catchHead i) := by
  unfold Mach.catchHead
  extract_lets due
  split
  · exact h
  · extract_lets k t
    have hall : m.RingWork q k :=
      Mach.each_keeps (fun k => m.RingWork q k) _ (fun l k => k.linePixels i l) (fun l k hk => hk.linePixels l) n h
    exact hall.setTpg _

theorem Mach.RingWork.dropCapture (h : m.RingWork q n) : m.RingWork q (n.dropCapture i) := (h.catchHead.setRing i _).setTpg _

end

/-! ## The page machine -/

/-- The registers that the end of a page may change: STAT and the counts. -/
def endRegs (k : Nat) : Prop := k = F.TRG_STAT_reg ∨ k = F.TRG_CNT_reg

section
variable {m : Mach}

/-- No start is held. -/
def Mach.unheld (m : Mach) : Mach := { m with trg := { m.trg with held := none } }

/-- The lines of the enabled rings have their end decision, and the event has pulsed. -/
def Mach.endRings (m : Mach) (why : EndWhy) : Mach := m.each allHeads (fun h m => if m.ringOn h then m.endRing h why else m)

theorem Mach.ringWork_endRings (m : Mach) (why : EndWhy) (q : Nat → Prop) : m.RingWork q (m.endRings why) :=
  (Mach.RingWork.refl q m).each _ _ fun h k hk => by
    split
    · exact hk.endRing h why
    · exact hk

/-- What a start counted in this beat leaves when the page has ended before it. -/
def Mach.ignTaken (m : Mach) : Mach :=
  match m.trg.ignAt with
  | some (b, _) => if b = m.now then { m.put F.TRG_CNT_IGN (m.get F.TRG_CNT_IGN - 1) with trg := { m.trg with ignAt := none } } else m
  | none => m

/-- The machine after the page, when no start is held. -/
def Mach.pageOver (m : Mach) : Mach :=
  if m.is F.TRG_CTL_AUTOARM && m.is F.TRG_CTL_EN then m.armPage else m.ignTaken.put F.TRG_STAT_STATE 1

theorem Mach.pulse_trg (m : Mach) (c : Fin 8) (e : Nat) : (m.pulse c e).trg = m.trg := by
  obtain ⟨r, x, b, hpulse⟩ := m.pulse_changes c e
  rw [hpulse]

theorem Mach.endPage_eq (why : EndWhy) (hheld : m.trg.held = none) : m.endPage why =
    ((m.endRings why).pulse 6 12).unheld.pageOver := by
  unfold Mach.endPage
  extract_lets k k1 held k2 k3 k4 k5 k6
  have hk : k = m.endRings why := rfl
  have htrg : held = none := by
    show k1.trg.held = none
    rw [show k1 = k.pulse 6 12 from rfl, k.pulse_trg 6 12, hk, (m.ringWork_endRings why (fun _ => False)).trg]
    exact hheld
  rw [htrg]
  show _ = k1.unheld.pageOver
  clear_value k1
  rfl

theorem Mach.armPage_state (m : Mach) : m.armPage.pageState = 2 := m.get_put_self F.TRG_STAT_STATE 2 (by decide) (by decide)

theorem Mach.pageWork_armPage (m : Mach) : m.PageWork endRegs m.armPage := by
  refine Mach.PageWork.setTrg ((Mach.PageWork.refl _ m).put F.TRG_STAT_STATE 2 (by decide) (Or.inl rfl)) _ ?_
  rfl

theorem Mach.ignTaken_keeps (m : Mach) : m.PageWork endRegs m.ignTaken ∧ m.ignTaken.get F.TRG_CNT_AUTOS = m.get F.TRG_CNT_AUTOS ∧
    m.ignTaken.trg.held = m.trg.held := by
  unfold Mach.ignTaken
  split
  · split
    · refine ⟨Mach.PageWork.setTrg ((Mach.PageWork.refl _ m).put F.TRG_CNT_IGN _ (by decide) (Or.inr rfl)) _ (by rw [Mach.put_trg]), ?_, rfl⟩
      exact m.get_put_of_gt F.TRG_CNT_IGN F.TRG_CNT_AUTOS (m.get F.TRG_CNT_IGN - 1) rfl (by decide) (by decide) (by decide)
    · exact ⟨Mach.PageWork.refl _ m, rfl, rfl⟩
  · exact ⟨Mach.PageWork.refl _ m, rfl, rfl⟩

/-- What the end of a page leaves, with no start held. -/
structure Mach.PageEnds (m n : Mach) : Prop where
  work : m.PageWork endRegs n
  state : n.pageState = if m.get F.TRG_CTL_AUTOARM = 1 ∧ m.get F.TRG_CTL_EN = 1 then 2 else 1
  autos : n.get F.TRG_CNT_AUTOS = m.get F.TRG_CNT_AUTOS
  held : n.trg.held = none
  rings : m.Rests 6 12 → n.Rung 6 12

theorem Mach.pageWork_unheld (m : Mach) (q : Nat → Prop) : m.PageWork q m.unheld := (Mach.PageWork.refl q m).setTrg _ rfl

theorem Mach.pageOver_spec (m : Mach) (hheld : m.trg.held = none) : m.PageWork endRegs m.pageOver ∧
    m.pageOver.pageState = (if m.get F.TRG_CTL_AUTOARM = 1 ∧ m.get F.TRG_CTL_EN = 1 then 2 else 1) ∧
    m.pageOver.get F.TRG_CNT_AUTOS = m.get F.TRG_CNT_AUTOS ∧ m.pageOver.trg.held = none := by
  unfold Mach.pageOver
  by_cases hc : m.get F.TRG_CTL_AUTOARM = 1 ∧ m.get F.TRG_CTL_EN = 1
  · rw [if_pos hc, if_pos (by simp [Mach.is, hc.1, hc.2])]
    refine ⟨m.pageWork_armPage, m.armPage_state, m.get_put_ne F.TRG_STAT_STATE F.TRG_CNT_AUTOS 2 (by decide), ?_⟩
    show (m.put _ 2).trg.held = none
    rw [Mach.put_trg]
    exact hheld
  · obtain ⟨hwork, hautos, hh⟩ := m.ignTaken_keeps
    rw [if_neg hc, if_neg (by
      simp only [Mach.is, bne_iff_ne, Bool.and_eq_true]
      have h1 := m.get_lt F.TRG_CTL_AUTOARM
      have h2 := m.get_lt F.TRG_CTL_EN
      simp only [F.TRG_CTL_AUTOARM, F.TRG_CTL_EN] at *
      omega)]
    refine ⟨hwork.put F.TRG_STAT_STATE 1 (by decide) (Or.inl rfl), m.ignTaken.get_put_self F.TRG_STAT_STATE 1 (by decide) (by decide), ?_, ?_⟩
    · exact (m.ignTaken.get_put_ne F.TRG_STAT_STATE F.TRG_CNT_AUTOS 1 (by decide)).trans hautos
    · rw [Mach.put_trg, hh]
      exact hheld

/-- The end decision of the open page with no start held (R551, R552). -/
theorem Mach.endPage_spec (m : Mach) (why : EndWhy) (hheld : m.trg.held = none) : m.PageEnds (m.endPage why) := by
  rw [Mach.endPage_eq why hheld]
  have hrings := m.ringWork_endRings why (fun _ => False)
  generalize m.endRings why = k at *
  have hpulse : m.PageWork (fun _ => False) (k.pulse 6 12) := hrings.page.pulse (by decide)
  have hover := (hpulse.trans ((k.pulse 6 12).pageWork_unheld _))
  obtain ⟨hwork, hstate, hautos, hh⟩ := (k.pulse 6 12).unheld.pageOver_spec rfl
  have hget : ∀ f : Fld, f.addr < 0x400000 → (k.pulse 6 12).unheld.get f = m.get f := fun f hf => hover.get f hf fun h => h
  refine ⟨(hover.mono fun _ h => h.elim).trans hwork, ?_, ?_, hh, fun hrests => ?_⟩
  · rw [hstate, hget _ (by decide), hget _ (by decide)]
  · rw [hautos, hget _ (by decide)]
  · have hup : (k.pulse 6 12).unheld.inReset = false ∧ (k.pulse 6 12).unheld.pwr.thermal = false :=
      ⟨hover.up.1.trans hrests.up.1, hover.up.2.trans hrests.up.2⟩
    have hrung := (hrings.lines.rests hrests).pulsed (by decide)
    exact hwork.rung 12 hup ⟨hrung.state, hrung.late, hrung.pend⟩

theorem Mach.countEnd_spec (m : Mach) (hheld : m.trg.held = none) : m.PageWork endRegs m.countEnd ∧
    m.countEnd.get F.TRG_CNT_AUTOS = m.get F.TRG_CNT_AUTOS := by
  have hend := fun why => m.endPage_spec why hheld
  unfold Mach.countEnd
  split
  · exact ⟨(hend _).work, (hend _).autos⟩
  · split
    · exact ⟨(hend _).work, (hend _).autos⟩
    · exact ⟨Mach.PageWork.refl _ m, rfl⟩

/-! ## A page that opens -/

/-- The page that has just opened on ring `h` has no line yet. -/
def Mach.FreshAt (m : Mach) (h : Fin 6) : Prop := ∃ p, (m.ring h).pages.getLast? = some p ∧ p.first = none ∧ p.last = none

theorem Mach.ring_setRing_self (m : Mach) (h : Fin 6) (r : RingSt) : (m.setRing h r).ring h = r := by simp [Mach.ring, Mach.setRing]

theorem Mach.ring_setRing_ne (m : Mach) {h k : Fin 6} (r : RingSt) (hne : k ≠ h) : (m.setRing h r).ring k = m.ring k := by
  simp only [Mach.ring, Mach.setRing]
  exact Vector.getElem_set_ne _ _ fun he => hne (Fin.ext he).symm

theorem Mach.writeRecord_ring (m : Mach) (h k : Fin 6) (p : HeadPage) : (m.writeRecord h p).ring k = m.ring k := by
  obtain ⟨x, hx⟩ := m.storeBytes_changes (lineBase + m.get (F.TRG_R_PRBASE_PRBASE h) + 64 * (p.pageno % 4)) (p.record h)
  rw [Mach.writeRecord, hx]
  rfl

/-- With no sync kept, a page opens on an enabled ring and nothing is fixed. -/
theorem Mach.openRing_of_noSyncs (m : Mach) (h : Fin 6) (no evTime src : Nat) (auto : Bool) (hon : m.ringOn h = true)
    (hsyncs : (m.ring h).syncs = []) : ∃ p keep, p.first = none ∧ p.last = none ∧
    m.openRing h no evTime src auto = (m.setRing h { m.ring h with pages := keep ++ [p] }).writeRecord h p := by
  unfold Mach.openRing
  rw [hon, if_neg (by decide)]
  generalize m.eventPos h evTime = r
  obtain ⟨pos, old⟩ := r
  dsimp -zeta only
  extract_lets rule r top p keep k target
  refine ⟨p, keep, rfl, rfl, ?_⟩
  have hk : (k.ring h).syncs = [] := by
    rw [show k = (m.setRing h { r with pages := keep ++ [p] }).writeRecord h p from rfl, Mach.writeRecord_ring, Mach.ring_setRing_self]
    exact hsyncs
  rw [hk]
  rfl

theorem Mach.openRing_off (m : Mach) (h : Fin 6) (no evTime src : Nat) (auto : Bool) (hoff : m.ringOn h = false) :
    m.openRing h no evTime src auto = m := by
  rw [Mach.openRing, hoff]
  rfl

/-- Opening a page on every ring, with no sync kept: every enabled ring's last page is fresh. -/
theorem Mach.openRings_fresh (no evTime src : Nat) (auto : Bool) (l : List (Fin 6)) (m : Mach) (hsyncs : m.noSyncs) :
    (m.each l (fun h m => m.openRing h no evTime src auto)).noSyncs ∧
    ∀ h, (h ∈ l ∨ m.FreshAt h) → (m.each l (fun h m => m.openRing h no evTime src auto)).ringOn h = true →
      (m.each l (fun h m => m.openRing h no evTime src auto)).FreshAt h := by
  induction l generalizing m with
  | nil =>
    refine ⟨hsyncs, fun h hf _ => ?_⟩
    rcases hf with hf | hf
    · exact absurd hf List.not_mem_nil
    · exact hf
  | cons i t ih =>
    have hwork := (Mach.RingWork.refl (fun _ => False) m).openRing i no evTime src auto
    have hon : ∀ h, (m.openRing i no evTime src auto).ringOn h = m.ringOn h := fun h => by
      rw [Mach.ringOn, Mach.is, hwork.get _ (by
        simp only [F.TRG_R_CTL_EN, F.TRG_R_CTL_reg]
        omega) fun h => h]
      rfl
    have hstep : (m.openRing i no evTime src auto).noSyncs ∧ ∀ h, (h = i ∨ m.FreshAt h) → m.ringOn h = true →
        (m.openRing i no evTime src auto).FreshAt h := by
      cases hi : m.ringOn i
      · rw [m.openRing_off i no evTime src auto hi]
        refine ⟨hsyncs, fun h hf hh => ?_⟩
        rcases hf with rfl | hf
        · exact absurd (hi.symm.trans hh) (by decide)
        · exact hf
      · obtain ⟨p, keep, hfirst, hlast, heq⟩ := m.openRing_of_noSyncs i no evTime src auto hi (hsyncs i hi)
        refine ⟨fun h hh => ?_, fun h hf hh => ?_⟩
        · rw [hon] at hh
          rw [heq, Mach.writeRecord_ring]
          by_cases he : h = i
          · subst he
            rw [Mach.ring_setRing_self]
            exact hsyncs h hh
          · rw [Mach.ring_setRing_ne _ _ he]
            exact hsyncs h hh
        · unfold Mach.FreshAt
          rw [heq, Mach.writeRecord_ring]
          by_cases he : h = i
          · subst he
            rw [Mach.ring_setRing_self]
            exact ⟨p, List.getLast?_concat, hfirst, hlast⟩
          · rw [Mach.ring_setRing_ne _ _ he]
            exact hf.resolve_left he
    obtain ⟨hns, hfresh⟩ := ih _ hstep.1
    refine ⟨hns, fun h hf hh => ?_⟩
    by_cases ht : h ∈ t
    · exact hfresh h (Or.inl ht) hh
    · refine hfresh h (Or.inr (hstep.2 h ?_ ?_)) hh
      · rcases hf with hf | hf
        · exact Or.inl ((List.mem_cons.1 hf).resolve_right ht)
        · exact Or.inr hf
      · have hrest := (Mach.RingWork.refl (fun _ => False) (m.openRing i no evTime src auto)).each t
          (fun h m => m.openRing h no evTime src auto) fun h k hk => hk.openRing h no evTime src auto
        rw [← hon h, Mach.ringOn, Mach.is, ← hrest.get _ (by
          simp only [F.TRG_R_CTL_EN, F.TRG_R_CTL_reg]
          omega) fun h => h]
        exact hh

/-- A machine whose enabled rings' last pages have no line yet does not end its page. -/
theorem Mach.countEnd_of_fresh (m : Mach) (hfresh : ∀ h, m.ringOn h = true → m.FreshAt h) : m.countEnd = m := by
  have hall : m.allLast = false := by
    unfold Mach.allLast
    extract_lets last
    cases hl : last with
    | nil => rfl
    | cons x t =>
      obtain ⟨h, p⟩ := x
      have hmem : (h, p) ∈ last := by
        rw [hl]
        exact List.mem_cons_self
      obtain ⟨k, hk, hp⟩ := List.mem_filterMap.1 hmem
      obtain ⟨-, hon⟩ := List.mem_filter.1 hk
      obtain ⟨p', hlast, hfirst, hnone⟩ := hfresh k hon
      rw [hlast] at hp
      obtain ⟨rfl, rfl⟩ := Prod.mk.injEq _ _ _ _ |>.mp (Option.some.inj hp)
      have hthrough : p'.through (m.lastCommitted k) = false := by
        unfold HeadPage.through
        rw [hnone]
      rw [List.all_cons]
      dsimp only
      rw [hthrough]
      simp
  have hmaxl : m.someMaxl = false := by
    unfold Mach.someMaxl
    rw [List.any_eq_false]
    intro h _
    cases hon : m.ringOn h
    · simp
    · obtain ⟨p, hlast, hfirst, -⟩ := hfresh h hon
      rw [hlast]
      simp [hfirst]
  unfold Mach.countEnd
  rw [hall, hmaxl]
  simp

theorem mem_allHeads (h : Fin 6) : h ∈ allHeads := by
  revert h
  decide

/-- The registers that a page's opening may change. -/
def openRegs (k : Nat) : Prop := k = F.TRG_PAGENO_reg ∨ endRegs k

/-- The registers show the page that opens (R555). -/
def Mach.pageShown (m : Mach) (auto : Bool) : Mach :=
  let m := (m.countMod F.TRG_PAGENO_PAGENO 1).put F.TRG_STAT_STATE 3
  if auto then m.countHold F.TRG_CNT_AUTOS 1 else m

theorem Mach.pageShown_spec (m : Mach) (auto : Bool) : m.RingWork openRegs (m.pageShown auto) ∧ (m.pageShown auto).trg = m.trg ∧
    (m.pageShown auto).pageState = 3 ∧ (m.pageShown auto).get F.TRG_PAGENO_PAGENO = (m.get F.TRG_PAGENO_PAGENO + 1) % 2 ^ 16 ∧
    (auto = true → m.get F.TRG_CNT_AUTOS < 0xFFFF → (m.pageShown auto).get F.TRG_CNT_AUTOS = m.get F.TRG_CNT_AUTOS + 1) := by
  unfold Mach.pageShown
  extract_lets k
  have hk : m.RingWork openRegs k := ((Mach.RingWork.refl _ m).put F.TRG_PAGENO_PAGENO _ (by decide) (Or.inl rfl)).put F.TRG_STAT_STATE 3 (by decide)
    (Or.inr (Or.inl rfl))
  have htrg : k.trg = m.trg := by
    show ((m.put F.TRG_PAGENO_PAGENO _).put F.TRG_STAT_STATE 3).trg = _
    rw [Mach.put_trg, Mach.put_trg]
  have hstate : k.pageState = 3 := Mach.get_put_self _ F.TRG_STAT_STATE 3 (by decide) (by decide)
  have hno : k.get F.TRG_PAGENO_PAGENO = (m.get F.TRG_PAGENO_PAGENO + 1) % 2 ^ 16 :=
    (Mach.get_put_ne _ F.TRG_STAT_STATE F.TRG_PAGENO_PAGENO 3 (by decide)).trans (m.get_put_self F.TRG_PAGENO_PAGENO _ (by decide) (by decide))
  have hautos : k.get F.TRG_CNT_AUTOS = m.get F.TRG_CNT_AUTOS :=
    (Mach.get_put_ne _ F.TRG_STAT_STATE F.TRG_CNT_AUTOS 3 (by decide)).trans (m.get_put_ne F.TRG_PAGENO_PAGENO F.TRG_CNT_AUTOS _ (by decide))
  clear_value k
  cases auto with
  | false => exact ⟨hk, htrg, hstate, hno, fun h => absurd h (by decide)⟩
  | true =>
    refine ⟨hk.put F.TRG_CNT_AUTOS _ (by decide) (Or.inr (Or.inr rfl)), ?_, (k.get_put_ne F.TRG_CNT_AUTOS F.TRG_STAT_STATE _ (by decide)).trans hstate,
      (k.get_put_ne F.TRG_CNT_AUTOS F.TRG_PAGENO_PAGENO _ (by decide)).trans hno, fun _ hlt => ?_⟩
    · exact (Mach.put_trg k F.TRG_CNT_AUTOS (addHold (2 ^ 16 - 1) (k.get F.TRG_CNT_AUTOS) 1)).trans htrg
    · refine (k.get_put_self F.TRG_CNT_AUTOS _ (by decide) (by decide)).trans ?_
      show addHold (2 ^ 16 - 1) (k.get F.TRG_CNT_AUTOS) 1 % 2 ^ 16 = _
      rw [hautos]
      generalize m.get F.TRG_CNT_AUTOS = x at *
      unfold addHold
      split
      · omega
      · omega

/-- What an accepted start leaves (R555). -/
structure Mach.PageOpens (m n : Mach) (auto : Bool) : Prop where
  work : m.PageWork openRegs n
  trg : n.trg = { m.trg with rings := n.trg.rings }
  state : n.pageState = 3
  number : n.get F.TRG_PAGENO_PAGENO = (m.get F.TRG_PAGENO_PAGENO + 1) % 2 ^ 16
  autos : auto = true → m.get F.TRG_CNT_AUTOS < 0xFFFF → n.get F.TRG_CNT_AUTOS = m.get F.TRG_CNT_AUTOS + 1
  rings : m.Rests 6 11 → n.Rung 6 11
  fresh : m.noSyncs → ∀ h, n.ringOn h = true → n.FreshAt h

theorem Mach.openPage_spec (m : Mach) (evTime src : Nat) (auto : Bool) : m.PageOpens (m.openPage evTime src auto) auto := by
  obtain ⟨hshown, htrg, hstate, hno, hautos⟩ := m.pageShown_spec auto
  have heq : m.openPage evTime src auto = ((m.pageShown auto).each allHeads (fun h n =>
    n.openRing h ((m.pageShown auto).get F.TRG_PAGENO_PAGENO) evTime src auto)).pulse 6 11 := rfl
  rw [heq]
  generalize m.pageShown auto = k at *
  generalize k.get F.TRG_PAGENO_PAGENO = no
  have hrings := (Mach.RingWork.refl (fun _ => False) k).each allHeads (fun h n => n.openRing h no evTime src auto)
    fun h n hn => hn.openRing h no evTime src auto
  have hfresh := k.openRings_fresh no evTime src auto allHeads
  generalize k.each allHeads (fun h n => n.openRing h no evTime src auto) = n at *
  have hwork := hrings.page.pulse (e := 11) (by decide)
  have hget : ∀ f : Fld, f.addr < 0x400000 → (n.pulse 6 11).get f = k.get f := fun f hf => hwork.get f hf fun h => h
  refine ⟨hshown.page.trans (hwork.mono fun _ h => h.elim), ?_, (hget _ (by decide)).trans hstate, ?_, fun ha hlt => ?_, fun hrests => ?_,
    fun hns h hh => ?_⟩
  · rw [n.pulse_trg 6 11, hrings.trg, htrg]
  · exact (hget _ (by decide)).trans hno
  · rw [hget _ (by decide)]
    exact hautos ha hlt
  · exact (hrings.lines.rests (hshown.lines.rests hrests)).pulsed (by decide)
  · have hpulsed : ∀ i : Fin 6, (n.pulse 6 11).ring i = n.ring i := fun i => by rw [Mach.ring, n.pulse_trg 6 11]; rfl
    have hon : ∀ i : Fin 6, (n.pulse 6 11).ringOn i = k.ringOn i := fun i => by
      rw [Mach.ringOn, Mach.is, hget _ (by
        simp only [F.TRG_R_CTL_EN, F.TRG_R_CTL_reg]
        omega)]
      rfl
    have hon' : ∀ i : Fin 6, n.ringOn i = k.ringOn i := fun i => by
      rw [Mach.ringOn, Mach.is, hrings.get _ (by
        simp only [F.TRG_R_CTL_EN, F.TRG_R_CTL_reg]
        omega) fun h => h]
      rfl
    have hkns : k.noSyncs := by
      intro i hi
      rw [Mach.ring, htrg]
      refine hns i ?_
      rw [← hi, Mach.ringOn, Mach.ringOn, Mach.is, Mach.is, hshown.get _ (by
        simp only [F.TRG_R_CTL_EN, F.TRG_R_CTL_reg]
        omega) (by
        simp only [openRegs, endRegs, F.TRG_R_CTL_EN, F.TRG_R_CTL_reg, F.TRG_PAGENO_reg, F.TRG_STAT_reg, F.TRG_CNT_reg]
        omega)]
    unfold Mach.FreshAt
    rw [hpulsed]
    exact (hfresh hkns).2 h (Or.inl (mem_allHeads h)) ((hon' h).trans ((hon h).symm.trans hh))

end

/-! ## ARM, ABORT and EN -/

theorem Mach.tickNo_of_now {m n : Mach} (h : n.now = m.now) : n.tickNo = m.tickNo := by rw [Mach.tickNo, Mach.tickNo, h]

theorem Mach.regsOnly_runTo (m : Mach) (b : Nat) : m.RegsOnly (m.runTo b) := by
  obtain ⟨n, w, h⟩ := m.runTo_changes b
  rw [h]
  rfl

theorem Mach.within_runTo (p : Nat → Prop) (m : Mach) (b : Nat) : m.Within p (m.runTo b) :=
  ⟨fun k _ => m.runTo_reg b k, fun k => by
    obtain ⟨n, w, h⟩ := m.runTo_changes b
    rw [h]
    rfl⟩

theorem Mach.runTo_trg (m : Mach) (b : Nat) : (m.runTo b).trg = m.trg := by
  obtain ⟨n, w, h⟩ := m.runTo_changes b
  rw [h]

theorem Mach.atTick_trg (m : Mach) : m.atTick.trg = m.trg := m.runTo_trg _

theorem Mach.atTick_pageState (m : Mach) : m.atTick.pageState = m.pageState := m.atTick_get F.TRG_STAT_STATE

section
variable {s : State}

/-- A line of C6 that the page machine pulses, from `m` on, has pulsed. -/
theorem pulsed_of_page {m n : Mach} {e : Nat} (hm : ∃ n w, m = { s.m with sysTime := n, wraps := w }) (hlive : s.m.live = true) (hnow : n.now = m.now)
    (h : m.Rests 6 e → n.Rung 6 e) : Pulsed s { s with m := n } 6 e := by
  obtain ⟨-, hreset, hthermal⟩ := s.m.live_iff.1 hlive
  obtain ⟨y, w, rfl⟩ := hm
  exact pulsed_of_rung (m := { s.m with sysTime := y, wraps := w }) rfl rfl (Mach.tickNo_of_now hnow) ⟨hreset, hthermal⟩ h

theorem Mach.PageWork.sameCoreMem {q : Nat → Prop} {m n : Mach} (h : m.PageWork q n) (hm : ∀ a, m.byte a = s.m.byte a) :
    SameCoreMem s { s with m := n } := fun a ha => (h.mem a ha).trans (hm a)

theorem does_trgArm (hlive : s.m.live = true) (hstate : s.m.pageState = 1) : Does .trgArm s (fun t => t.m.pageState = 2 ∧
    t.m.trg.armedSince = s.tick.m.now ∧ SameRegs (· = F.TRG_STAT_reg) s t ∧ Keeps s t) := by
  have hst : s.m.atTick.pageState = 1 := s.m.atTick_pageState.trans hstate
  have hput : s.m.Within (· = F.TRG_STAT_reg) (s.m.atTick.put F.TRG_STAT_STATE 2) := (s.m.within_atTick _).put F.TRG_STAT_STATE 2 rfl
  have hwithin : s.m.Within (· = F.TRG_STAT_reg) s.m.atTick.armPage := hput.other rfl rfl
  refine ⟨{ s with m := s.m.atTick.armPage }, ?_, s.m.atTick.armPage_state, ?_, hwithin.sameRegs, hwithin.keeps⟩
  · refine (s.run_writeCmd F.TRG_CTL_reg _ hlive).trans ?_
    rw [Mach.trgArm, if_pos hst]
  · exact Mach.now_put _ F.TRG_STAT_STATE 2

theorem exec_trgArm_stays (hlive : s.m.live = true) (hstate : s.m.pageState ≠ 1) : exec .trgArm s = .next s.tick := by
  refine (s.run_writeCmd F.TRG_CTL_reg _ hlive).trans ?_
  rw [Mach.trgArm, if_neg fun h => hstate (s.m.atTick_pageState.symm.trans h)]
  rfl

theorem does_trgAbort (hlive : s.m.live = true) (hstate : s.m.pageState = 3) (hheld : s.m.trg.held = none) : Does .trgAbort s (fun t =>
    Pulsed s t 6 12 ∧ SameCoreMem s t ∧ SameStores s t ∧
    t.m.pageState = (if s.m.get F.TRG_CTL_AUTOARM = 1 ∧ s.m.get F.TRG_CTL_EN = 1 then 2 else 1)) := by
  have hst : s.m.atTick.pageState = 3 := s.m.atTick_pageState.trans hstate
  have hend := s.m.atTick.endPage_spec .abort ((congrArg TrgSt.held s.m.atTick_trg).trans hheld)
  refine ⟨{ s with m := s.m.atTick.endPage .abort }, ?_, pulsed_of_page s.m.atTick_changes hlive hend.work.now hend.rings,
    hend.work.sameCoreMem s.m.atTick_byte, ⟨rfl, rfl, rfl⟩, ?_⟩
  · refine (s.run_writeCmd F.TRG_CTL_reg _ hlive).trans ?_
    rw [Mach.trgAbort, Mach.abortPage, if_pos hst]
  · rw [← s.m.atTick_get, ← s.m.atTick_get]
    exact hend.state

theorem exec_trgAbort_stays (hlive : s.m.live = true) (hstate : s.m.pageState ≠ 3) : exec .trgAbort s = .next s.tick := by
  refine (s.run_writeCmd F.TRG_CTL_reg _ hlive).trans ?_
  rw [Mach.trgAbort, Mach.abortPage, if_neg fun h => hstate (s.m.atTick_pageState.symm.trans h)]
  rfl

/-- EN clears: the machine before it leaves its page (R556). -/
def Mach.trgOff (m : Mach) : Mach := m.unheld.put F.TRG_CTL_EN 0

theorem exec_trgEn_off (hlive : s.m.live = true) : exec (.trgEn false) s =
    .next { s with m := s.m.atTick.trgOff.abortPage.put F.TRG_STAT_STATE 0 } := s.run_writeCmd F.TRG_CTL_reg _ hlive

theorem Mach.trgOff_state (m : Mach) : m.trgOff.pageState = m.pageState := m.unheld.get_put_ne F.TRG_CTL_EN F.TRG_STAT_STATE 0 (by decide)

theorem Mach.trgOff_held (m : Mach) : m.trgOff.trg.held = none := by rw [Mach.trgOff, Mach.put_trg]; rfl

theorem does_trgEn_off (hlive : s.m.live = true) (hstate : s.m.pageState ≠ 3) : Does (.trgEn false) s (fun t => t.m.get F.TRG_CTL_EN = 0 ∧
    t.m.pageState = 0 ∧ t.m.trg.held = none ∧ Keeps s t) := by
  have hst : s.m.atTick.trgOff.abortPage = s.m.atTick.trgOff := by
    rw [Mach.abortPage, Mach.trgOff_state, if_neg fun h => hstate (s.m.atTick_pageState.symm.trans h)]
  refine ⟨_, exec_trgEn_off hlive, ?_⟩
  rw [hst]
  have hunheld : s.m.Within (fun _ => True) s.m.atTick.unheld := (s.m.within_atTick _).other rfl rfl
  have hoff : s.m.Within (fun _ => True) s.m.atTick.trgOff := hunheld.put F.TRG_CTL_EN 0 trivial
  have hwithin := hoff.put F.TRG_STAT_STATE 0 trivial
  refine ⟨?_, Mach.get_put_self _ F.TRG_STAT_STATE 0 (by decide) (by decide), ?_, hwithin.keeps⟩
  · exact (Mach.get_put_ne _ F.TRG_STAT_STATE F.TRG_CTL_EN 0 (by decide)).trans (Mach.get_put_self _ F.TRG_CTL_EN 0 (by decide) (by decide))
  · show (s.m.atTick.trgOff.put F.TRG_STAT_STATE 0).trg.held = none
    rw [Mach.put_trg]
    exact s.m.atTick.trgOff_held

theorem does_trgEn_off_open (hlive : s.m.live = true) (hstate : s.m.pageState = 3) : Does (.trgEn false) s (fun t => t.m.get F.TRG_CTL_EN = 0 ∧
    t.m.pageState = 0 ∧ t.m.trg.held = none ∧ Pulsed s t 6 12 ∧ SameCoreMem s t ∧ SameStores s t) := by
  have hst : s.m.atTick.trgOff.abortPage = s.m.atTick.trgOff.endPage .abort := by
    rw [Mach.abortPage, if_pos (s.m.atTick.trgOff_state.trans (s.m.atTick_pageState.trans hstate))]
  refine ⟨_, exec_trgEn_off hlive, ?_⟩
  rw [hst]
  have hlines : s.m.atTick.SameLines s.m.atTick.trgOff 6 :=
    Mach.SameLines.trans (n := s.m.atTick.unheld) ⟨rfl, rfl, rfl, rfl, rfl, rfl⟩ (Mach.sameLines_put _ F.TRG_CTL_EN 0 6 (by decide))
  have hend := s.m.atTick.trgOff.endPage_spec .abort s.m.atTick.trgOff_held
  have hen : s.m.atTick.trgOff.get F.TRG_CTL_EN = 0 := Mach.get_put_self _ F.TRG_CTL_EN 0 (by decide) (by decide)
  have hnow : s.m.atTick.trgOff.now = s.m.atTick.now := Mach.now_put _ F.TRG_CTL_EN 0
  have hbyte : ∀ a, s.m.atTick.trgOff.byte a = s.m.byte a := fun a => (Mach.put_byte _ F.TRG_CTL_EN 0 a).trans (s.m.atTick_byte a)
  generalize s.m.atTick.trgOff = k at *
  generalize k.endPage .abort = n at *
  have hlast := (Mach.PageWork.refl endRegs n).put F.TRG_STAT_STATE 0 (by decide) (Or.inl rfl)
  have hwork := hend.work.trans hlast
  refine ⟨?_, n.get_put_self F.TRG_STAT_STATE 0 (by decide) (by decide), ?_, ?_, hwork.sameCoreMem hbyte, ⟨rfl, rfl, rfl⟩⟩
  · exact (hwork.get F.TRG_CTL_EN (by decide) (by unfold endRegs; decide)).trans hen
  · show (n.put F.TRG_STAT_STATE 0).trg.held = none
    rw [Mach.put_trg]
    exact hend.held
  · refine pulsed_of_page s.m.atTick_changes hlive (hwork.now.trans hnow) fun hr => ?_
    have hrests := hlines.rests hr
    exact hlast.rung 12 ⟨hend.work.up.1.trans hrests.up.1, hend.work.up.2.trans hrests.up.2⟩ (hend.rings hrests)

theorem does_trgEn_on (hlive : s.m.live = true) (hoff : s.m.get F.TRG_CTL_EN = 0) : Does (.trgEn true) s (fun t => t.m.get F.TRG_CTL_EN = 1 ∧
    t.m.pageState = 1 ∧ OnlyRegs s t ∧ SameRegs (fun a => a = F.TRG_CTL_reg ∨ a = F.TRG_STAT_reg) s t) := by
  have hwas : s.m.atTick.is F.TRG_CTL_EN = false := (s.m.atTick_is _).trans (s.m.is_of_zero hoff)
  have hput : s.m.Within (fun a => a = F.TRG_CTL_reg ∨ a = F.TRG_STAT_reg) (s.m.atTick.put F.TRG_CTL_EN 1) :=
    (s.m.within_atTick _).put F.TRG_CTL_EN 1 (Or.inl rfl)
  have hregs : s.m.RegsOnly (s.m.atTick.put F.TRG_CTL_EN 1) := s.m.regsOnly_atTick.put F.TRG_CTL_EN 1
  have hen : (s.m.atTick.put F.TRG_CTL_EN 1).get F.TRG_CTL_EN = 1 := Mach.get_put_self _ F.TRG_CTL_EN 1 (by decide) (by decide)
  refine ⟨{ s with m := ((s.m.atTick.put F.TRG_CTL_EN 1).runTo ((s.m.atTick.put F.TRG_CTL_EN 1).now + 1)).put F.TRG_STAT_STATE 1 }, ?_, ?_, ?_, ?_, ?_⟩
  · refine (s.run_writeCmd F.TRG_CTL_reg _ hlive).trans ?_
    unfold Mach.trgEn
    rw [hwas]
    rfl
  · generalize s.m.atTick.put F.TRG_CTL_EN 1 = k at *
    exact (Mach.get_put_ne _ F.TRG_STAT_STATE F.TRG_CTL_EN 1 (by decide)).trans ((k.runTo_get _ _).trans hen)
  · exact Mach.get_put_self _ F.TRG_STAT_STATE 1 (by decide) (by decide)
  · exact ((hregs.trans (Mach.regsOnly_runTo _ _)).put F.TRG_STAT_STATE 1).onlyRegs
  · exact ((hput.trans (Mach.within_runTo _ _ _)).put F.TRG_STAT_STATE 1 (Or.inr rfl)).sameRegs

theorem does_trgEn_again (hlive : s.m.live = true) (hon : s.m.get F.TRG_CTL_EN = 1) : Does (.trgEn true) s (fun t => OnlyRegs s t ∧
    SameRegs (fun _ => False) s t) := by
  have hget : s.m.atTick.get F.TRG_CTL_EN = 1 := (s.m.atTick_get _).trans hon
  have hwas : s.m.atTick.is F.TRG_CTL_EN = true := by rw [Mach.is, hget]; rfl
  refine ⟨{ s with m := s.m.atTick.put F.TRG_CTL_EN 1 }, ?_, (s.m.regsOnly_atTick.put F.TRG_CTL_EN 1).onlyRegs, fun a _ => ?_⟩
  · refine (s.run_writeCmd F.TRG_CTL_reg _ hlive).trans ?_
    unfold Mach.trgEn
    rw [hwas]
    rfl
  · show (s.m.atTick.put F.TRG_CTL_EN 1).reg a = s.m.reg a
    rw [← hget, Mach.reg_put_get]
    exact s.m.atTick_reg a

/-! ## The automatic page -/

theorem Mach.PageOpens.counted {m n : Mach} {auto : Bool} (h : m.PageOpens n auto) (hheld : m.trg.held = none) :
    m.PageWork openRegs n.countEnd ∧ n.countEnd.get F.TRG_CNT_AUTOS = n.get F.TRG_CNT_AUTOS ∧
    n.countEnd.get F.TRG_PAGENO_PAGENO = (m.get F.TRG_PAGENO_PAGENO + 1) % 2 ^ 16 ∧ (m.Rests 6 11 → n.countEnd.Rung 6 11) ∧
    (m.noSyncs → n.countEnd.pageState = 3) := by
  have hnheld : n.trg.held = none := by rw [h.trg]; exact hheld
  obtain ⟨hwork, hautos⟩ := n.countEnd_spec hnheld
  refine ⟨h.work.trans (hwork.mono fun _ hk => Or.inr hk), hautos, ?_, fun hr => ?_, fun hns => ?_⟩
  · exact (hwork.get F.TRG_PAGENO_PAGENO (by decide) (by unfold endRegs; decide)).trans h.number
  · exact hwork.rung 11 ⟨h.work.up.1.trans hr.up.1, h.work.up.2.trans hr.up.2⟩ (h.rings hr)
  · rw [n.countEnd_of_fresh (h.fresh hns)]
    exact h.state

theorem does_trgAutoTimeout (hlive : s.m.live = true) (hauto : s.m.get F.TRG_CTL_AUTO = 1) (hstate : s.m.pageState = 2)
    (hheld : s.m.trg.held = none) (hlt : s.m.get F.TRG_CNT_AUTOS < 0xFFFF) : Does .trgAutoTimeout s (fun t => (s.m.noSyncs → t.m.pageState = 3) ∧
      t.m.get F.TRG_CNT_AUTOS = s.m.get F.TRG_CNT_AUTOS + 1 ∧ Pulsed s t 6 11 ∧
      t.m.get F.TRG_PAGENO_PAGENO = (s.m.get F.TRG_PAGENO_PAGENO + 1) % 2 ^ 16 ∧ SameCoreMem s t ∧ SameStores s t) := by
  obtain ⟨due, hdue⟩ : ∃ d, d = s.m.trg.armedSince + 4 * s.m.get F.TRG_AUTOT_TICKS := ⟨_, rfl⟩
  have hget := s.m.runTo_get due
  have hchanges := s.m.runTo_changes due
  have hopen := (s.m.runTo due).openPage_spec due 0xFF true
  have hruns : s.m.trgAuto = ((s.m.runTo due).openPage due 0xFF true).countEnd := by
    unfold Mach.trgAuto
    rw [if_pos (by simp [Mach.is, hauto, hstate]), ← hdue]
  obtain ⟨hwork, hautos, hno, hrings, hns⟩ := hopen.counted (by rw [Mach.runTo_trg]; exact hheld)
  have hfirst := hopen.autos rfl (by rw [hget]; exact hlt)
  rw [← hruns] at hwork hautos hno hrings hns
  refine ⟨{ s with m := s.m.trgAuto }, ?_, fun h => hns ?_, ?_, pulsed_of_page hchanges hlive hwork.now hrings, ?_, hwork.sameCoreMem ?_,
    ⟨rfl, rfl, rfl⟩⟩
  · change s.run (fun m => m.ifLive (fun m => m.trgAuto)) = _
    rw [State.run_eq, Mach.ifLive_of _ _ hlive]
  · obtain ⟨y, w, hy⟩ := hchanges
    rw [hy]
    exact h
  · exact hautos.trans (hfirst.trans (by rw [hget]))
  · exact hno.trans (by rw [hget])
  · obtain ⟨y, w, hy⟩ := hchanges
    rw [hy]
    exact fun _ => rfl

theorem exec_trgAutoTimeout_none (hlive : s.m.live = true) (h : s.m.get F.TRG_CTL_AUTO = 0 ∨ s.m.pageState ≠ 2) :
    exec .trgAutoTimeout s = .next s := by
  have hruns : s.m.trgAuto = s.m := by
    unfold Mach.trgAuto
    refine if_neg fun hc => ?_
    rw [Bool.and_eq_true, decide_eq_true_eq] at hc
    rcases h with h | h
    · exact Bool.false_ne_true ((s.m.is_of_zero h).symm.trans hc.1)
    · exact h hc.2
  change s.run (fun m => m.ifLive (fun m => m.trgAuto)) = _
  rw [State.run_eq, Mach.ifLive_of _ _ hlive, hruns]

end

/-! ## A ring's EN -/

theorem Mach.ringCheck_le (m : Mach) (h : Fin 6) : m.ringCheck h ≤ 5 := by
  unfold Mach.ringCheck
  extract_lets base slot n pr others top apart
  split
  · decide
  · split
    · decide
    · split
      · decide
      · split
        · decide
        · split
          · decide
          · decide

theorem Mach.atTick_ringCheck (m : Mach) (h : Fin 6) : m.atTick.ringCheck h = m.ringCheck h := by
  obtain ⟨n, w, hn⟩ := m.atTick_changes
  rw [hn]
  rfl

theorem Mach.atTick_ringOn (m : Mach) (h : Fin 6) : m.atTick.ringOn h = m.ringOn h := m.atTick_is _

/-- A ring is enabled: its counts and its lines start anew (R565). -/
def Mach.ringStart (m : Mach) (h : Fin 6) : Mach :=
  ((((m.put (F.TRG_R_CTL_EN h) 1).put (F.TRG_R_WCNT_N h) 0).put (F.TRG_R_RCNT_N h) 0).put (F.TRG_R_CSEQ_CSEQ h) 0).setRing h {}

theorem Mach.trgRingEn_on (m : Mach) (h : Fin 6) (hoff : m.ringOn h = false) : m.trgRingEn h true =
    if m.ringCheck h = 0 then (m.put (F.TRG_R_STAT_RERR h) (m.ringCheck h)).ringStart h else m.put (F.TRG_R_STAT_RERR h) (m.ringCheck h) := by
  unfold Mach.trgRingEn
  rw [hoff]
  rfl

theorem Mach.trgRingEn_off (m : Mach) (h : Fin 6) : m.trgRingEn h false =
    if m.ringOn h then (((m.dropCapture h).abortRing h).put (F.TRG_R_CTL_EN h) 0).countEnd else m := rfl

/-- The registers of a ring that its enabling writes, told apart. -/
theorem ringRegs_ne (h : Fin 6) : F.TRG_R_CTL_reg h ≠ F.TRG_R_STAT_reg h ∧ F.TRG_R_CTL_reg h ≠ F.TRG_R_WCNT_reg h ∧
    F.TRG_R_CTL_reg h ≠ F.TRG_R_RCNT_reg h ∧ F.TRG_R_CTL_reg h ≠ F.TRG_R_CSEQ_reg h ∧ F.TRG_R_STAT_reg h ≠ F.TRG_R_WCNT_reg h ∧
    F.TRG_R_STAT_reg h ≠ F.TRG_R_RCNT_reg h ∧ F.TRG_R_STAT_reg h ≠ F.TRG_R_CSEQ_reg h ∧ F.TRG_R_WCNT_reg h ≠ F.TRG_R_RCNT_reg h ∧
    F.TRG_R_WCNT_reg h ≠ F.TRG_R_CSEQ_reg h ∧ F.TRG_R_RCNT_reg h ≠ F.TRG_R_CSEQ_reg h := by
  simp only [F.TRG_R_CTL_reg, F.TRG_R_STAT_reg, F.TRG_R_WCNT_reg, F.TRG_R_RCNT_reg, F.TRG_R_CSEQ_reg]
  omega

theorem Mach.ringStart_get (m : Mach) (h : Fin 6) : (m.ringStart h).get (F.TRG_R_CTL_EN h) = 1 ∧ (m.ringStart h).get (F.TRG_R_WCNT_N h) = 0 ∧
    (m.ringStart h).get (F.TRG_R_RCNT_N h) = 0 ∧ (m.ringStart h).get (F.TRG_R_CSEQ_CSEQ h) = 0 ∧
    (m.ringStart h).get (F.TRG_R_STAT_RERR h) = m.get (F.TRG_R_STAT_RERR h) := by
  obtain ⟨h1, h2, h3, h4, h5, h6, h7, h8, h9, h10⟩ := ringRegs_ne h
  have hring : ∀ (k : Mach) (f : Fld), (k.setRing h {}).get f = k.get f := fun _ _ => rfl
  unfold Mach.ringStart
  simp only [hring]
  refine ⟨?_, ?_, ?_, ?_, ?_⟩
  · rw [Mach.get_put_ne _ (F.TRG_R_CSEQ_CSEQ h) (F.TRG_R_CTL_EN h) _ h4, Mach.get_put_ne _ (F.TRG_R_RCNT_N h) (F.TRG_R_CTL_EN h) _ h3,
      Mach.get_put_ne _ (F.TRG_R_WCNT_N h) (F.TRG_R_CTL_EN h) _ h2]
    exact Mach.get_put_self _ (F.TRG_R_CTL_EN h) 1 (by decide : 0 ≤ 0) (by decide : 0 < 32)
  · rw [Mach.get_put_ne _ (F.TRG_R_CSEQ_CSEQ h) (F.TRG_R_WCNT_N h) _ h9, Mach.get_put_ne _ (F.TRG_R_RCNT_N h) (F.TRG_R_WCNT_N h) _ h8]
    exact Mach.get_put_self _ (F.TRG_R_WCNT_N h) 0 (by decide : 0 ≤ 31) (by decide : 31 < 32)
  · rw [Mach.get_put_ne _ (F.TRG_R_CSEQ_CSEQ h) (F.TRG_R_RCNT_N h) _ h10]
    exact Mach.get_put_self _ (F.TRG_R_RCNT_N h) 0 (by decide : 0 ≤ 31) (by decide : 31 < 32)
  · exact Mach.get_put_self _ (F.TRG_R_CSEQ_CSEQ h) 0 (by decide : 0 ≤ 31) (by decide : 31 < 32)
  · rw [Mach.get_put_ne _ (F.TRG_R_CSEQ_CSEQ h) (F.TRG_R_STAT_RERR h) _ h7, Mach.get_put_ne _ (F.TRG_R_RCNT_N h) (F.TRG_R_STAT_RERR h) _ h6,
      Mach.get_put_ne _ (F.TRG_R_WCNT_N h) (F.TRG_R_STAT_RERR h) _ h5, Mach.get_put_ne _ (F.TRG_R_CTL_EN h) (F.TRG_R_STAT_RERR h) _ h1.symm]

theorem Mach.ringStart_byte (m : Mach) (h : Fin 6) (a : Nat) : (m.ringStart h).byte a = m.byte a := by
  have hring : ∀ k : Mach, (k.setRing h {}).byte a = k.byte a := fun _ => rfl
  rw [Mach.ringStart, hring, Mach.put_byte, Mach.put_byte, Mach.put_byte, Mach.put_byte]

section
variable {s : State} {h : Fin 6}

theorem exec_trgRingEn (hlive : s.m.live = true) (on : Bool) : exec (.trgRingEn h on) s = .next { s with m := s.m.atTick.trgRingEn h on } :=
  s.run_writeCmd (F.TRG_R_CTL_reg h) _ hlive

theorem does_trgRingEn_on (hlive : s.m.live = true) (hoff : s.m.get (F.TRG_R_CTL_EN h) = 0) : Does (.trgRingEn h true) s (fun t => Keeps s t ∧
    t.m.get (F.TRG_R_STAT_RERR h) = s.m.ringCheck h ∧
    (s.m.ringCheck h = 0 → t.m.get (F.TRG_R_CTL_EN h) = 1 ∧ t.m.get (F.TRG_R_WCNT_N h) = 0 ∧
      t.m.get (F.TRG_R_RCNT_N h) = 0 ∧ t.m.get (F.TRG_R_CSEQ_CSEQ h) = 0 ∧ t.m.ring h = {}) ∧
    (s.m.ringCheck h ≠ 0 → t.m.get (F.TRG_R_CTL_EN h) = 0 ∧ t.m.trg = s.m.trg)) := by
  have hwas : s.m.atTick.ringOn h = false := (s.m.atTick_ringOn h).trans (s.m.is_of_zero hoff)
  refine ⟨_, exec_trgRingEn hlive true, ?_⟩
  rw [s.m.atTick.trgRingEn_on h hwas, s.m.atTick_ringCheck]
  have hle := s.m.ringCheck_le h
  have hrerr : (s.m.atTick.put (F.TRG_R_STAT_RERR h) (s.m.ringCheck h)).get (F.TRG_R_STAT_RERR h) = s.m.ringCheck h :=
    (Mach.get_put_self _ (F.TRG_R_STAT_RERR h) _ (by decide : 8 ≤ 11) (by decide : 11 < 32)).trans
      (Nat.mod_eq_of_lt (Nat.lt_of_le_of_lt hle (by decide : 5 < 2 ^ (11 + 1 - 8))))
  have hen : (s.m.atTick.put (F.TRG_R_STAT_RERR h) (s.m.ringCheck h)).get (F.TRG_R_CTL_EN h) = 0 :=
    (Mach.get_put_ne _ (F.TRG_R_STAT_RERR h) (F.TRG_R_CTL_EN h) _ (ringRegs_ne h).1).trans ((s.m.atTick_get _).trans hoff)
  have hbyte : ∀ a, (s.m.atTick.put (F.TRG_R_STAT_RERR h) (s.m.ringCheck h)).byte a = s.m.byte a := fun a =>
    (Mach.put_byte _ _ _ a).trans (s.m.atTick_byte a)
  have htrg : (s.m.atTick.put (F.TRG_R_STAT_RERR h) (s.m.ringCheck h)).trg = s.m.trg := (Mach.put_trg _ _ _).trans s.m.atTick_trg
  generalize s.m.atTick.put (F.TRG_R_STAT_RERR h) (s.m.ringCheck h) = k at *
  by_cases hok : s.m.ringCheck h = 0
  · obtain ⟨g1, g2, g3, g4, g5⟩ := k.ringStart_get h
    rw [if_pos hok]
    refine ⟨⟨fun a => (k.ringStart_byte h a).trans (hbyte a), rfl, rfl, rfl⟩, g5.trans hrerr, fun _ => ⟨g1, g2, g3, g4, ?_⟩, fun hn => absurd hok hn⟩
    exact Mach.ring_setRing_self _ h {}
  · rw [if_neg hok]
    exact ⟨⟨hbyte, rfl, rfl, rfl⟩, hrerr, fun hn => absurd hn hok, fun _ => ⟨hen, htrg⟩⟩

theorem exec_trgRingEn_stays (hlive : s.m.live = true) (hon : s.m.get (F.TRG_R_CTL_EN h) = 1) : exec (.trgRingEn h true) s = .next s.tick := by
  have hwas : s.m.atTick.ringOn h = true := by
    rw [Mach.atTick_ringOn, Mach.ringOn, Mach.is, hon]
    rfl
  rw [exec_trgRingEn hlive, Mach.trgRingEn, hwas]
  rfl

/-- The end decision changes nothing but its page's records and registers, whatever start is held. -/
theorem Mach.pageWork_endPage (m : Mach) (why : EndWhy) : m.PageWork openRegs (m.endPage why) := by
  have hmono : ∀ k, endRegs k → openRegs k := fun _ => Or.inr
  unfold Mach.endPage
  extract_lets k k1 held k2 k3 k4 k5 k6
  have hk1 : m.PageWork openRegs k1 := (m.ringWork_endRings why openRegs).page.pulse (by decide)
  have hk3 : m.PageWork openRegs k1.unheld := hk1.trans (k1.pageWork_unheld _)
  change m.PageWork openRegs k3 at hk3
  have hk6 : m.PageWork openRegs k3.armPage := hk3.trans (k3.pageWork_armPage.mono hmono)
  change m.PageWork openRegs k6 at hk6
  clear_value k1 held k3 k6
  split
  · split
    · next _ t0 src =>
      have hopen := hk6.trans (k6.openPage_spec t0 src false).work
      generalize k6.openPage t0 src false = n at *
      dsimp only
      split
      · split
        · exact Mach.PageWork.setTrg (hopen.put F.TRG_CNT_IGN _ (by decide) (Or.inr (Or.inr rfl))) _ (by rw [Mach.put_trg])
        · exact hopen
      · exact hopen
    · exact hk6
  · exact (hk3.trans (k3.ignTaken_keeps.1.mono hmono)).put F.TRG_STAT_STATE 1 (by decide) (Or.inr (Or.inl rfl))

theorem Mach.pageWork_countEnd (m : Mach) : m.PageWork openRegs m.countEnd := by
  unfold Mach.countEnd
  split
  · exact m.pageWork_endPage _
  · split
    · exact m.pageWork_endPage _
    · exact Mach.PageWork.refl _ m

theorem does_trgRingEn_off (hlive : s.m.live = true) : Does (.trgRingEn h false) s (fun t => t.m.get (F.TRG_R_CTL_EN h) = 0 ∧ SameCoreMem s t ∧
    SameStores s t) := by
  refine ⟨_, exec_trgRingEn hlive false, ?_⟩
  have hlt : F.TRG_R_CTL_reg h < 0x400000 := by
    simp only [F.TRG_R_CTL_reg]
    omega
  have hopen : ¬ openRegs (F.TRG_R_CTL_reg h) := by
    simp only [openRegs, endRegs, F.TRG_R_CTL_reg, F.TRG_PAGENO_reg, F.TRG_STAT_reg, F.TRG_CNT_reg]
    omega
  have hmem := s.m.atTick_byte
  have hon := s.m.atTick_ringOn h
  generalize s.m.atTick = k at *
  rw [k.trgRingEn_off h]
  cases hwas : k.ringOn h
  · have hlt2 : k.get (F.TRG_R_CTL_EN h) < 2 := k.get_lt (F.TRG_R_CTL_EN h)
    have hne : k.get (F.TRG_R_CTL_EN h) ≠ 1 := fun h1 => by
      rw [Mach.ringOn, Mach.is, h1] at hwas
      exact absurd hwas (by decide)
    have hzero : k.get (F.TRG_R_CTL_EN h) = 0 := by omega
    rw [if_neg (by decide)]
    exact ⟨hzero, fun a _ => hmem a, rfl, rfl, rfl⟩
  · have hd : k.RingWork (fun _ => False) ((k.dropCapture h).abortRing h) := (Mach.RingWork.refl _ k).dropCapture.abortRing h
    rw [if_pos rfl]
    generalize (k.dropCapture h).abortRing h = y at *
    have hput : k.PageWork (fun a => a = F.TRG_R_CTL_reg h ∨ openRegs a) (y.put (F.TRG_R_CTL_EN h) 0) :=
      (hd.page.mono fun _ hx => hx.elim).put (F.TRG_R_CTL_EN h) 0 hlt (Or.inl rfl)
    have hcount := (y.put (F.TRG_R_CTL_EN h) 0).pageWork_countEnd
    refine ⟨?_, (hput.trans (hcount.mono fun _ => Or.inr)).sameCoreMem hmem, rfl, rfl, rfl⟩
    exact (hcount.get _ hlt hopen).trans (y.get_put_self (F.TRG_R_CTL_EN h) 0 (by decide : 0 ≤ 0) (by decide : 0 < 32))

end

/-! ## A release -/

/-- What a release of a ring changes: RCNT, and the event registers of the head's core. -/
def relRegs (h : Fin 6) (k : Nat) : Prop := k = F.TRG_R_RCNT_reg h ∨ eventRegs (coreOf h) k

section
variable {h : Fin 6} {m n : Mach} {p : Nat → Prop}

theorem Mach.Within.pulseHead (hw : m.Within p n) (e : Nat) (hp : ∀ k, eventRegs (coreOf h) k → p k) : m.Within p (n.pulseHead h e) := by
  unfold Mach.pulseHead
  split
  · exact hw
  · exact hw.pulse (coreOf h) e hp

/-- The count of a release, before the event. -/
def Mach.counted (m : Mach) (h : Fin 6) (k : Nat) : Mach :=
  (m.setRing h { m.ring h with lines := (m.ring h).lines.drop k }).countMod (F.TRG_R_RCNT_N h) k

theorem Mach.release_cases (m : Mach) (h : Fin 6) (k : Nat) : m.release h k = m.counted h k ∨ m.release h k = (m.counted h k).pulseHead h 10 := by
  unfold Mach.release
  extract_lets f0 r n1 n2 low
  split
  · exact Or.inr rfl
  · exact Or.inl rfl

theorem Mach.Within.counted (hw : m.Within p n) (k : Nat) (hp : ∀ k, relRegs h k → p k) : m.Within p (n.counted h k) := by
  have hset : m.Within p (n.setRing h { n.ring h with lines := (n.ring h).lines.drop k }) := hw.other rfl rfl
  exact hset.put (F.TRG_R_RCNT_N h) _ (hp _ (Or.inl rfl))

theorem Mach.Within.release (hw : m.Within p n) (k : Nat) (hp : ∀ k, relRegs h k → p k) : m.Within p (n.release h k) := by
  have hc := hw.counted k hp
  rcases n.release_cases h k with hr | hr
  · rw [hr]
    exact hc
  · rw [hr]
    exact hc.pulseHead 10 fun _ hk => hp _ (Or.inr hk)

theorem Mach.Within.noteFreed (hw : m.Within p n) (l : RingLine) : m.Within p (n.noteFreed h l) := hw.other rfl rfl

theorem Mach.Within.releaseHistory (hw : m.Within p n) (need late : Bool) (k : Nat) (hp : ∀ k, relRegs h k → p k) :
    m.Within p (n.releaseHistory h need late k) := by
  induction k generalizing n with
  | zero => exact hw
  | succ k ih =>
    unfold Mach.releaseHistory
    extract_lets r hist full beyond
    split
    · exact hw
    · split
      · next l _ _ _ =>
        exact ih ((hw.release 1 hp).noteFreed l)
      · exact hw

/-- No line goes from the history while it holds no more than HIST lines and no line is beyond the slots. -/
theorem Mach.releaseHistory_none (m : Mach) (h : Fin 6) (k : Nat) (hhist : (m.ring h).lines.length ≤ m.get (F.TRG_R_PRE_HIST h))
    (hslots : m.fill h + m.capt h ≤ m.get (F.TRG_R_NSLOT_NSLOT h)) : m.releaseHistory h false true k = m := by
  cases k with
  | zero => rfl
  | succ k =>
    unfold Mach.releaseHistory
    extract_lets r hist full beyond
    have hle : hist ≤ m.get (F.TRG_R_PRE_HIST h) := Nat.le_trans (List.length_filter_le _ _) hhist
    split
    · rfl
    · have hbeyond : ¬ beyond := Nat.not_lt.2 hslots
      exact if_neg (by simp [Nat.not_lt.2 hle, hbeyond])

theorem Mach.unfree_none (m : Mach) (h : Fin 6) (hfreed : (m.ring h).freed.1 ≠ m.tickNo) : m.unfree h = m := if_neg hfreed

theorem Mach.pulseHead_keeps (m : Mach) (h : Fin 6) (e : Nat) : (m.pulseHead h e).trg = m.trg ∧ (m.pulseHead h e).heads = m.heads := by
  unfold Mach.pulseHead
  split
  · exact ⟨rfl, rfl⟩
  · obtain ⟨r, x, b, hpulse⟩ := m.pulse_changes (coreOf h) e
    rw [hpulse]
    exact ⟨rfl, rfl⟩

theorem Mach.counted_ring (m : Mach) (h : Fin 6) (k : Nat) : (m.counted h k).ring h = { m.ring h with lines := (m.ring h).lines.drop k } ∧
    (m.counted h k).heads = m.heads := by
  unfold Mach.counted Mach.countMod
  refine ⟨?_, ?_⟩
  · rw [Mach.ring, Mach.put_trg]
    exact Mach.ring_setRing_self m h _
  · rw [Mach.put_heads]
    rfl

theorem not_relRegs {k : Nat} (hlt : k < 0x400000) (hne : k ≠ F.TRG_R_RCNT_reg h) : ¬ relRegs h k := by
  rintro (hk | hk)
  · exact hne hk
  · exact not_eventRegs_of_lt hlt hk

/-- A release of `k` lines: RCNT goes on by `k`, FILL down by `k`, and the ring loses its `k` oldest lines (R572). -/
theorem Mach.release_spec (m : Mach) (h : Fin 6) (k : Nat) : m.Within (relRegs h) (m.release h k) ∧
    (m.release h k).ring h = { m.ring h with lines := (m.ring h).lines.drop k } ∧ (m.release h k).capt h = m.capt h ∧
    (m.release h k).get (F.TRG_R_RCNT_N h) = (m.get (F.TRG_R_RCNT_N h) + k) % 2 ^ 32 := by
  have hwithin := (Mach.Within.refl (relRegs h) m).release k fun _ hk => hk
  obtain ⟨hring, hheads⟩ := m.counted_ring h k
  have hrcnt : (m.counted h k).get (F.TRG_R_RCNT_N h) = (m.get (F.TRG_R_RCNT_N h) + k) % 2 ^ 32 :=
    Mach.get_put_self _ (F.TRG_R_RCNT_N h) _ (by decide : 0 ≤ 31) (by decide : 31 < 32)
  have hkept : (m.release h k).trg = (m.counted h k).trg ∧ (m.release h k).heads = (m.counted h k).heads ∧
      (m.release h k).get (F.TRG_R_RCNT_N h) = (m.counted h k).get (F.TRG_R_RCNT_N h) := by
    rcases m.release_cases h k with hr | hr
    · rw [hr]
      exact ⟨rfl, rfl, rfl⟩
    · rw [hr]
      obtain ⟨htrg, hheads⟩ := (m.counted h k).pulseHead_keeps h 10
      have hget : ((m.counted h k).pulseHead h 10).get (F.TRG_R_RCNT_N h) = (m.counted h k).get (F.TRG_R_RCNT_N h) :=
        ((Mach.Within.refl (eventRegs (coreOf h)) (m.counted h k)).pulseHead 10 fun _ hk => hk).get _ (not_eventRegs_of_lt (rcnt_lt h))
      exact ⟨htrg, hheads, hget⟩
  obtain ⟨htrg, hheads', hget⟩ := hkept
  refine ⟨hwithin, ?_, ?_, hget.trans hrcnt⟩
  · rw [Mach.ring, htrg]
    exact hring
  · unfold Mach.capt Mach.head
    rw [hheads', hheads]

end

/-- FILL after a release of no more lines than it counts. -/
theorem fill_sub {w r n f : Nat} (hw : w < 2 ^ 32) (hr : r < 2 ^ 32) (hf : f = (w + 2 ^ 32 - r) % 2 ^ 32) (hn : n ≤ f) :
    (w + 2 ^ 32 - (r + n) % 2 ^ 32) % 2 ^ 32 = f - n := by
  omega

section
variable {s : State} {h : Fin 6} {n : Nat}

/-- The firmware's own release of `n` lines, before the hardware's (R572). -/
def Mach.ownRelease (m : Mach) (h : Fin 6) (n : Nat) : Mach := if n ≤ m.fill h then m.release h n else m.put (F.TRG_R_STAT_RELERR h) 1

theorem exec_trgRingRelease (hlive : s.m.live = true) (hn : n < 65536) (hfreed : (s.m.ring h).freed.1 ≠ s.tick.m.tickNo) :
    exec (.trgRingRelease h n) s = .next { s with
      m := (s.m.atTick.ownRelease h n).releaseHistory h false true ((s.m.atTick.ownRelease h n).ring h).lines.length } := by
  refine (s.run_writeCmd (F.TRG_R_REL_reg h) _ hlive).trans ?_
  have hfree : s.m.atTick.unfree h = s.m.atTick := Mach.unfree_none _ h (by
    rw [Mach.ring, s.m.atTick_trg]
    exact hfreed)
  rw [Nat.mod_eq_of_lt hn, Mach.trgRelease, hfree]
  rfl

theorem Mach.atTick_fill (m : Mach) (h : Fin 6) : m.atTick.fill h = m.fill h := by
  unfold Mach.fill
  rw [m.atTick_get, m.atTick_get]

theorem Mach.atTick_capt (m : Mach) (h : Fin 6) : m.atTick.capt h = m.capt h := by
  obtain ⟨n, w, hn⟩ := m.atTick_changes
  rw [hn]
  rfl

theorem Mach.atTick_ring (m : Mach) (h : Fin 6) : m.atTick.ring h = m.ring h := by rw [Mach.ring, m.atTick_trg]; rfl

theorem does_trgRingRelease (hlive : s.m.live = true) (hn : n < 65536) (hfreed : (s.m.ring h).freed.1 ≠ s.tick.m.tickNo) (hfill : n ≤ s.m.fill h)
    (hhist : (s.m.ring h).lines.length ≤ n + s.m.get (F.TRG_R_PRE_HIST h))
    (hslots : s.m.fill h + s.m.capt h ≤ s.m.get (F.TRG_R_NSLOT_NSLOT h) + n) : Does (.trgRingRelease h n) s (fun t =>
      t.m.get (F.TRG_R_RCNT_N h) = (s.m.get (F.TRG_R_RCNT_N h) + n) % 2 ^ 32 ∧
      t.m.ring h = { s.m.ring h with lines := (s.m.ring h).lines.drop n } ∧ Keeps s t) := by
  refine ⟨_, exec_trgRingRelease hlive hn hfreed, ?_⟩
  rw [Mach.ownRelease, s.m.atTick_fill, if_pos hfill]
  obtain ⟨hwithin, hring, hcapt, hrcnt⟩ := s.m.atTick.release_spec h n
  rw [s.m.atTick_ring] at hring
  rw [s.m.atTick_capt] at hcapt
  rw [s.m.atTick_get] at hrcnt
  have hall : s.m.Within (relRegs h) (s.m.atTick.release h n) := (s.m.within_atTick _).trans hwithin
  generalize s.m.atTick.release h n = k at *
  have hget : ∀ f : Fld, f.addr < 0x400000 → f.addr ≠ F.TRG_R_RCNT_reg h → k.get f = s.m.get f := fun f hlt hne => hall.get f (not_relRegs hlt hne)
  have hhist' : k.get (F.TRG_R_PRE_HIST h) = s.m.get (F.TRG_R_PRE_HIST h) := hget _ (by
    simp only [F.TRG_R_PRE_HIST, F.TRG_R_PRE_reg]
    omega) (by
    simp only [F.TRG_R_PRE_HIST, F.TRG_R_PRE_reg, F.TRG_R_RCNT_reg]
    omega)
  have hnslot : k.get (F.TRG_R_NSLOT_NSLOT h) = s.m.get (F.TRG_R_NSLOT_NSLOT h) := hget _ (by
    simp only [F.TRG_R_NSLOT_NSLOT, F.TRG_R_NSLOT_reg]
    omega) (by
    simp only [F.TRG_R_NSLOT_NSLOT, F.TRG_R_NSLOT_reg, F.TRG_R_RCNT_reg]
    omega)
  have hwcnt : k.get (F.TRG_R_WCNT_N h) = s.m.get (F.TRG_R_WCNT_N h) := hget _ (by
    simp only [F.TRG_R_WCNT_N, F.TRG_R_WCNT_reg]
    omega) (ringRegs_ne h).2.2.2.2.2.2.2.1
  have hfill' : k.fill h = s.m.fill h - n := by
    unfold Mach.fill
    rw [hwcnt, hrcnt]
    exact fill_sub (s.m.get_lt (F.TRG_R_WCNT_N h)) (s.m.get_lt (F.TRG_R_RCNT_N h)) rfl hfill
  have hnone : k.releaseHistory h false true (k.ring h).lines.length = k := by
    refine k.releaseHistory_none h _ ?_ ?_
    · rw [hring, hhist']
      show ((s.m.ring h).lines.drop n).length ≤ _
      rw [List.length_drop]
      omega
    · rw [hfill', hcapt, hnslot]
      omega
  rw [hnone]
  exact ⟨hrcnt, hring, hall.keeps⟩

theorem does_trgRingRelease_beyond (hlive : s.m.live = true) (hn : n < 65536) (hfreed : (s.m.ring h).freed.1 ≠ s.tick.m.tickNo)
    (hfill : s.m.fill h < n) : Does (.trgRingRelease h n) s (fun t => t.m.get (F.TRG_R_STAT_RELERR h) = 1 ∧ Keeps s t ∧
      ((s.m.ring h).lines.length ≤ s.m.get (F.TRG_R_PRE_HIST h) → s.m.fill h + s.m.capt h ≤ s.m.get (F.TRG_R_NSLOT_NSLOT h) →
        OnlyRegs s t ∧ SameRegs (· = F.TRG_R_STAT_reg h) s t)) := by
  refine ⟨_, exec_trgRingRelease hlive hn hfreed, ?_⟩
  rw [Mach.ownRelease, s.m.atTick_fill, if_neg (Nat.not_le.2 hfill)]
  obtain ⟨h1, h2, h3, h4, h5, h6, h7, h8, h9, h10⟩ := ringRegs_ne h
  have hregs : s.m.RegsOnly (s.m.atTick.put (F.TRG_R_STAT_RELERR h) 1) := s.m.regsOnly_atTick.put _ 1
  have hput : s.m.Within (· = F.TRG_R_STAT_reg h) (s.m.atTick.put (F.TRG_R_STAT_RELERR h) 1) := (s.m.within_atTick _).put (F.TRG_R_STAT_RELERR h) 1 rfl
  have herr : (s.m.atTick.put (F.TRG_R_STAT_RELERR h) 1).get (F.TRG_R_STAT_RELERR h) = 1 :=
    Mach.get_put_self _ (F.TRG_R_STAT_RELERR h) 1 (by decide : 3 ≤ 3) (by decide : 3 < 32)
  have hring : (s.m.atTick.put (F.TRG_R_STAT_RELERR h) 1).ring h = s.m.ring h := by
    rw [Mach.ring, Mach.put_trg, s.m.atTick_trg]
    rfl
  have hcapt : (s.m.atTick.put (F.TRG_R_STAT_RELERR h) 1).capt h = s.m.capt h := by
    unfold Mach.capt Mach.head
    rw [Mach.put_heads]
    exact s.m.atTick_capt h
  generalize s.m.atTick.put (F.TRG_R_STAT_RELERR h) 1 = k at *
  have hhistory := (Mach.Within.refl (relRegs h) k).releaseHistory false true (k.ring h).lines.length fun _ hk => hk
  have hstat : ¬ relRegs h (F.TRG_R_STAT_reg h) := not_relRegs (by
    simp only [F.TRG_R_STAT_reg]
    omega) h6
  refine ⟨(hhistory.get _ hstat).trans herr, ⟨fun a => (hhistory.2 a).trans (hput.2 a), rfl, rfl, rfl⟩, fun hhist hslots => ?_⟩
  have hget : ∀ f : Fld, f.addr ≠ F.TRG_R_STAT_reg h → k.get f = s.m.get f := fun f hf => hput.get f hf
  have hnone : k.releaseHistory h false true (k.ring h).lines.length = k := by
    refine k.releaseHistory_none h _ ?_ ?_
    · rw [hring, hget _ (by
        simp only [F.TRG_R_PRE_HIST, F.TRG_R_PRE_reg, F.TRG_R_STAT_reg]
        omega)]
      exact hhist
    · unfold Mach.fill at *
      rw [hcapt, hget (F.TRG_R_WCNT_N h) h5.symm, hget (F.TRG_R_RCNT_N h) h6.symm, hget _ (by
        simp only [F.TRG_R_NSLOT_NSLOT, F.TRG_R_NSLOT_reg, F.TRG_R_STAT_reg]
        omega)]
      exact hslots
  rw [hnone]
  exact ⟨hregs.onlyRegs, hput.sameRegs⟩

end

/-- Settles O45, command by command. -/
theorem pagesAndRings : Obligations.PagesAndRings := by
  intro s hlive stays
  refine ⟨does_trgArm hlive, exec_trgArm_stays hlive, does_trgAbort hlive, fun hstate => ⟨exec_trgAbort_stays hlive hstate, does_trgEn_off hlive hstate⟩,
    does_trgEn_off_open hlive, does_trgEn_on hlive, does_trgEn_again hlive, does_trgAutoTimeout hlive, exec_trgAutoTimeout_none hlive, fun h => ?_⟩
  exact ⟨does_trgRingEn_on hlive, exec_trgRingEn_stays hlive, does_trgRingEn_off hlive, fun n hn hfreed =>
    ⟨does_trgRingRelease hlive hn hfreed, does_trgRingRelease_beyond hlive hn hfreed⟩⟩

end Sys2Proof.Machine
end

section
/-!
Settles the trigger units, the software triggers and MSYNC (R324, R438, R538-R555).
-/

namespace Sys2Proof.Machine

/-! ## A source that fires -/

section
variable {m n : Mach} {p : Nat → Prop}

theorem Mach.bwlSource_changes (m : Mach) (src t : Nat) : ∃ y, m.bwlSource src t = { m with bwl := y } := by
  unfold Mach.bwlSource
  split
  · exact ⟨_, rfl⟩
  · exact ⟨m.bwl, rfl⟩

/-- With the page machine off, no source starts or ends a page. -/
theorem Mach.fireSource_off (m : Mach) (src t : Nat) (hstate : m.pageState = 0) : m.fireSource src t = m := by
  unfold Mach.fireSource
  extract_lets isEnd isStart
  rw [hstate, if_neg (by simp)]
  split
  · rfl
  · rfl

/-- The registers of a unit that fires. -/
def unitRegs (u k : Nat) : Prop := k = F.TRG_U_TLO_reg u ∨ k = F.TRG_U_THI_reg u ∨ k = F.TRG_U_CNT_reg u

theorem unitRegs_ne (u : Nat) : F.TRG_U_TLO_reg u ≠ F.TRG_U_THI_reg u ∧ F.TRG_U_TLO_reg u ≠ F.TRG_U_CNT_reg u ∧
    F.TRG_U_THI_reg u ≠ F.TRG_U_CNT_reg u := by
  simp only [F.TRG_U_TLO_reg, F.TRG_U_THI_reg, F.TRG_U_CNT_reg]
  omega

/-- A unit that fires while the page machine is off: its event time and its count, and nothing else of the map (R538). -/
theorem Mach.unitFire_off (m : Mach) (u t : Nat) (hstate : m.pageState = 0) : m.Within (unitRegs u) (m.unitFire u t) ∧
    (∃ r b y, m.unitFire u t = { m with regs := r, beat := b, bwl := y }) ∧
    (m.unitFire u t).get (F.TRG_U_CNT_N u) = min (2 ^ 32 - 1) (m.get (F.TRG_U_CNT_N u) + 1) ∧
    (m.unitFire u t).get (F.TRG_U_TLO_T u) = t % 2 ^ 32 ∧ (m.unitFire u t).get (F.TRG_U_THI_T u) = t % 2 ^ 48 / 2 ^ 32 := by
  obtain ⟨hlh, hlc, hhc⟩ := unitRegs_ne u
  unfold Mach.unitFire
  extract_lets k
  obtain ⟨r1, b1, h1⟩ := m.put_changes (F.TRG_U_TLO_T u) (sysOf t)
  obtain ⟨r2, b2, h2⟩ := (m.put (F.TRG_U_TLO_T u) (sysOf t)).put_changes (F.TRG_U_THI_T u) (sysOf t / 2 ^ 32)
  have hk : k = { m with regs := r2, beat := b2 } := by
    show (m.put (F.TRG_U_TLO_T u) (sysOf t)).put (F.TRG_U_THI_T u) (sysOf t / 2 ^ 32) = _
    rw [h2, h1]
  have hwithin : m.Within (unitRegs u) k := ((Mach.Within.refl _ m).put (F.TRG_U_TLO_T u) _ (Or.inl rfl)).put (F.TRG_U_THI_T u) _ (Or.inr (Or.inl rfl))
  have hlo : k.get (F.TRG_U_TLO_T u) = t % 2 ^ 32 := by
    refine (Mach.get_put_ne _ (F.TRG_U_THI_T u) (F.TRG_U_TLO_T u) _ hlh).trans ((m.get_put_self (F.TRG_U_TLO_T u) (sysOf t) (by decide : 0 ≤ 31) (by decide : 31 < 32)).trans ?_)
    show t % 2 ^ 48 % 2 ^ 32 = t % 2 ^ 32
    omega
  have hhi : k.get (F.TRG_U_THI_T u) = t % 2 ^ 48 / 2 ^ 32 := by
    refine (Mach.get_put_self _ (F.TRG_U_THI_T u) _ (by decide : 0 ≤ 15) (by decide : 15 < 32)).trans ?_
    show t % 2 ^ 48 / 2 ^ 32 % 2 ^ 16 = t % 2 ^ 48 / 2 ^ 32
    omega
  have hcnt : k.get (F.TRG_U_CNT_N u) = m.get (F.TRG_U_CNT_N u) :=
    (Mach.get_put_ne _ (F.TRG_U_THI_T u) (F.TRG_U_CNT_N u) _ hhc.symm).trans (m.get_put_ne (F.TRG_U_TLO_T u) (F.TRG_U_CNT_N u) _ hlc.symm)
  clear_value k
  have hwithin' : m.Within (unitRegs u) (k.countHold (F.TRG_U_CNT_N u) 1) := hwithin.put (F.TRG_U_CNT_N u) _ (Or.inr (Or.inr rfl))
  obtain ⟨r3, b3, h3⟩ := k.put_changes (F.TRG_U_CNT_N u) (addHold (2 ^ 32 - 1) (k.get (F.TRG_U_CNT_N u)) 1)
  have hcount : (k.countHold (F.TRG_U_CNT_N u) 1).get (F.TRG_U_CNT_N u) = min (2 ^ 32 - 1) (m.get (F.TRG_U_CNT_N u) + 1) := by
    refine (k.get_put_self (F.TRG_U_CNT_N u) _ (by decide : 0 ≤ 31) (by decide : 31 < 32)).trans ?_
    show addHold (2 ^ 32 - 1) (k.get (F.TRG_U_CNT_N u)) 1 % 2 ^ 32 = _
    rw [hcnt]
    generalize m.get (F.TRG_U_CNT_N u) = x
    unfold addHold
    split
    · omega
    · omega
  have hkeep : ∀ f : Fld, f.addr ≠ F.TRG_U_CNT_reg u → (k.countHold (F.TRG_U_CNT_N u) 1).get f = k.get f := fun f hf =>
    k.get_put_ne (F.TRG_U_CNT_N u) f _ hf
  have hchanges : k.countHold (F.TRG_U_CNT_N u) 1 = { m with regs := r3, beat := b3 } := h3.trans (by rw [hk])
  generalize k.countHold (F.TRG_U_CNT_N u) 1 = y at *
  obtain ⟨z, hz⟩ := y.bwlSource_changes u t
  have hoff : (y.bwlSource u t).pageState = 0 := by
    rw [hz]
    refine (hwithin'.get F.TRG_STAT_STATE ?_).trans hstate
    simp only [unitRegs, F.TRG_STAT_STATE, F.TRG_STAT_reg, F.TRG_U_TLO_reg, F.TRG_U_THI_reg, F.TRG_U_CNT_reg]
    omega
  rw [Mach.fireSource_off _ _ _ hoff, hz]
  refine ⟨hwithin'.other rfl rfl, ⟨r3, b3, z, by rw [hchanges]⟩, hcount, (hkeep (F.TRG_U_TLO_T u) hlc).trans hlo, (hkeep (F.TRG_U_THI_T u) hhc).trans hhi⟩

end

/-! ## Patterns and timeouts -/

/-- The run of the condition that the levels' history tells (R539, R540). -/
def Mach.patternRun (m : Mach) (u : Fin 8) (hist : List (BitVec 16 × Nat)) : PatRun :=
  hist.foldl (fun r e => r.add (m.patternHolds u e.1) e.2) {}

section
variable {s : State} {u : Fin 8}

/-- The levels at the end of a history stand at the inputs. -/
def Mach.withDin (m : Mach) (hist : List (BitVec 16 × Nat)) : Mach :=
  { m with pins := { m.pins with din := (hist.getLast?.map (fun e => e.1)).getD m.pins.din } }

/-- Beats by which a pattern's event precedes the beat in which it is found. -/
def Mach.patternDelay (m : Mach) (u : Fin 8) : Nat :=
  if m.get (F.TRG_U_CFG_LEAVE u) = 1 then 2 else m.get (F.TRG_U_WMIN_WMIN u) % 2 ^ 24 + 1 + 1

/-- The history shows the pattern (R539, R540). -/
def Mach.patternSeen (m : Mach) (u : Fin 8) (hist : List (BitVec 16 × Nat)) : Prop :=
  (m.unit u).since + (hist.foldl (fun n e => n + e.2) 0) ≤ m.now + 1 ∧
  (m.get (F.TRG_U_CFG_LEAVE u) = 1 → (m.patternRun u hist).off = 1 ∧ m.get (F.TRG_U_WMIN_WMIN u) % 2 ^ 24 + 1 ≤ (m.patternRun u hist).prev) ∧
  (¬ m.get (F.TRG_U_CFG_LEAVE u) = 1 → (m.patternRun u hist).run = m.get (F.TRG_U_WMIN_WMIN u) % 2 ^ 24 + 1)

theorem bits_23_0 (v : Nat) : bits v 23 0 = v % 2 ^ 24 := by rw [bits_put, Nat.pow_zero, Nat.div_one]

theorem Mach.patternFire_eq (m : Mach) (u : Fin 8) (hist : List (BitVec 16 × Nat)) (hen : m.get (F.TRG_U_CFG_EN u) = 1)
    (hkind : m.get (F.TRG_U_CFG_KIND u) = 0) : (¬ m.patternSeen u hist → m.patternFire u hist = m.withDin hist) ∧
    (m.patternSeen u hist → m.patternFire u hist = (m.withDin hist).unitFire u (m.now - m.patternDelay u)) := by
  have hleave : m.is (F.TRG_U_CFG_LEAVE u) = decide (m.get (F.TRG_U_CFG_LEAVE u) = 1) := by
    have hlt : m.get (F.TRG_U_CFG_LEAVE u) < 2 := m.get_lt (F.TRG_U_CFG_LEAVE u)
    rw [Mach.is]
    generalize m.get (F.TRG_U_CFG_LEAVE u) = x at *
    match x, hlt with
    | 0, _ => rfl
    | 1, _ => rfl
  have hcond : (m.is (F.TRG_U_CFG_EN u) && m.get (F.TRG_U_CFG_KIND u) = 0 &&
      (m.unit u).since + (hist.foldl (fun n e => n + e.2) 0) ≤ m.now + 1 &&
      (if m.is (F.TRG_U_CFG_LEAVE u) then (m.patternRun u hist).off = 1 && bits (m.get (F.TRG_U_WMIN_WMIN u)) 23 0 + 1 ≤ (m.patternRun u hist).prev
        else (m.patternRun u hist).run = bits (m.get (F.TRG_U_WMIN_WMIN u)) 23 0 + 1 : Bool)) = true ↔ m.patternSeen u hist := by
    rw [hleave, bits_23_0, hkind, Mach.is, hen]
    unfold Mach.patternSeen
    by_cases hl : m.get (F.TRG_U_CFG_LEAVE u) = 1
    · simp [hl]
    · simp [hl]
  have hdelay : (if m.is (F.TRG_U_CFG_LEAVE u) then 2 else bits (m.get (F.TRG_U_WMIN_WMIN u)) 23 0 + 1 + 1) = m.patternDelay u := by
    rw [hleave, bits_23_0]
    unfold Mach.patternDelay
    by_cases hl : m.get (F.TRG_U_CFG_LEAVE u) = 1
    · rw [if_pos hl, decide_eq_true hl, if_pos rfl]
    · rw [if_neg hl, decide_eq_false hl, if_neg Bool.false_ne_true]
  have heq : m.patternFire u hist = if (m.is (F.TRG_U_CFG_EN u) && m.get (F.TRG_U_CFG_KIND u) = 0 &&
      (m.unit u).since + (hist.foldl (fun n e => n + e.2) 0) ≤ m.now + 1 &&
      (if m.is (F.TRG_U_CFG_LEAVE u) then (m.patternRun u hist).off = 1 && bits (m.get (F.TRG_U_WMIN_WMIN u)) 23 0 + 1 ≤ (m.patternRun u hist).prev
        else (m.patternRun u hist).run = bits (m.get (F.TRG_U_WMIN_WMIN u)) 23 0 + 1 : Bool)) = true then
      (m.withDin hist).unitFire u (m.now - (if m.is (F.TRG_U_CFG_LEAVE u) then 2 else bits (m.get (F.TRG_U_WMIN_WMIN u)) 23 0 + 1 + 1))
    else m.withDin hist := rfl
  rw [heq, hdelay]
  exact ⟨fun h => if_neg fun hc => h (hcond.1 hc), fun h => if_pos (hcond.2 h)⟩

theorem exec_trgPatternFire (hlive : s.m.live = true) (hist : List (BitVec 16 × Nat)) :
    exec (.trgPatternFire u hist) s = .next { s with m := s.m.patternFire u hist } := by
  change s.run (fun m => m.ifLive (fun m => m.patternFire u hist)) = _
  rw [State.run_eq, Mach.ifLive_of _ _ hlive]

theorem does_trgPatternFire (hlive : s.m.live = true) (hist : List (BitVec 16 × Nat)) (hen : s.m.get (F.TRG_U_CFG_EN u) = 1)
    (hkind : s.m.get (F.TRG_U_CFG_KIND u) = 0) (hseen : s.m.patternSeen u hist) (hstate : s.m.pageState = 0) :
    Does (.trgPatternFire u hist) s (fun t =>
      t.m.get (F.TRG_U_CNT_N u) = min (2 ^ 32 - 1) (s.m.get (F.TRG_U_CNT_N u) + 1) ∧ t.m.pins.din = (s.m.withDin hist).pins.din ∧
      t.m.get (F.TRG_U_TLO_T u) = (s.m.now - s.m.patternDelay u) % 2 ^ 32 ∧
      t.m.get (F.TRG_U_THI_T u) = (s.m.now - s.m.patternDelay u) % 2 ^ 48 / 2 ^ 32 ∧ Keeps s t) := by
  have hfire := (s.m.patternFire_eq u hist hen hkind).2 hseen
  have hoff : (s.m.withDin hist).pageState = 0 := hstate
  have hbyte : ∀ a, (s.m.withDin hist).byte a = s.m.byte a := fun _ => rfl
  have hcnt : (s.m.withDin hist).get (F.TRG_U_CNT_N u) = s.m.get (F.TRG_U_CNT_N u) := rfl
  generalize s.m.withDin hist = k at *
  generalize s.m.now - s.m.patternDelay u = d at *
  obtain ⟨hwithin, ⟨r, b, y, hrest⟩, hn, hlo, hhi⟩ := k.unitFire_off u d hoff
  generalize k.unitFire u d = z at *
  refine ⟨{ s with m := z }, (exec_trgPatternFire hlive hist).trans (by rw [hfire]), ?_, ?_, hlo, hhi,
    fun a => (hwithin.2 a).trans (hbyte a), rfl, rfl, rfl⟩
  · show z.get (F.TRG_U_CNT_N u) = _
    rw [hn, hcnt]
  · show z.pins.din = _
    rw [hrest]

theorem Mach.timeoutFire_eq (m : Mach) (u : Fin 8) {up : Nat} (hup : (m.unit u).up1 = some up) (harmed : (m.unit u).armed = true)
    (hen : m.get (F.TRG_U_CFG_EN u) = 1) (hkind : m.get (F.TRG_U_CFG_KIND u) = 4) : m.timeoutFire u =
      ((m.runTo (up + m.get (F.TRG_U_WMAX_WMAX u))).setUnit u { m.unit u with armed := false }).unitFire u (up + m.get (F.TRG_U_WMAX_WMAX u)) := by
  unfold Mach.timeoutFire
  dsimp only
  rw [hup]
  exact if_pos (by simp [Mach.is, harmed, hen, hkind])

theorem does_trgTimeoutFire (hlive : s.m.live = true) {up : Nat} (hup : (s.m.unit u).up1 = some up) (harmed : (s.m.unit u).armed = true)
    (hen : s.m.get (F.TRG_U_CFG_EN u) = 1) (hkind : s.m.get (F.TRG_U_CFG_KIND u) = 4) (hstate : s.m.pageState = 0) :
    Does (.trgTimeoutFire u) s (fun t => t.m.get (F.TRG_U_CNT_N u) = min (2 ^ 32 - 1) (s.m.get (F.TRG_U_CNT_N u) + 1) ∧ (t.m.unit u).armed = false ∧
      t.m.get (F.TRG_U_TLO_T u) = (up + s.m.get (F.TRG_U_WMAX_WMAX u)) % 2 ^ 32 ∧
      t.m.get (F.TRG_U_THI_T u) = (up + s.m.get (F.TRG_U_WMAX_WMAX u)) % 2 ^ 48 / 2 ^ 32 ∧ Keeps s t) := by
  have hfire := s.m.timeoutFire_eq u hup harmed hen hkind
  generalize up + s.m.get (F.TRG_U_WMAX_WMAX u) = due at *
  have hwithin : s.m.Within (unitRegs u) ((s.m.runTo due).setUnit u { s.m.unit u with armed := false }) := (s.m.within_runTo _ due).other rfl rfl
  have hget : ∀ f, ((s.m.runTo due).setUnit u { s.m.unit u with armed := false }).get f = s.m.get f := s.m.runTo_get due
  have hunit : (((s.m.runTo due).setUnit u { s.m.unit u with armed := false }).unit u).armed = false := by simp [Mach.unit, Mach.setUnit]
  generalize (s.m.runTo due).setUnit u { s.m.unit u with armed := false } = k at *
  obtain ⟨hw, ⟨r, b, y, hrest⟩, hcnt, hlo, hhi⟩ := k.unitFire_off u due ((hget _).trans hstate)
  generalize k.unitFire u due = z at *
  refine ⟨{ s with m := z }, ?_, ?_, ?_, hlo, hhi, (hwithin.trans hw).keeps⟩
  · change s.run (fun m => m.ifLive (fun m => m.timeoutFire u)) = _
    rw [State.run_eq, Mach.ifLive_of _ _ hlive, hfire]
  · show z.get (F.TRG_U_CNT_N u) = _
    rw [hcnt, hget]
  · show (z.unit u).armed = false
    rw [hrest]
    exact hunit

/-! ## Software triggers -/

theorem filter_testBit_two_pow (k : Fin 16) : (List.finRange 16).filter (fun (i : Fin 16) => (2 ^ k.val).testBit i) = [k] := by
  revert k
  decide

theorem swt_word (k : Fin 16) : (BitVec.ofNat 32 (2 ^ k.val)).toNat % 65536 = 2 ^ k.val := by
  revert k
  decide

/-- What a start by software trigger `k` leaves in an armed machine (R546, R555). -/
structure Mach.SwtStarts (k : Fin 16) (m n : Mach) : Prop where
  work : ∀ a, inCoreMem a = true → n.byte a = m.byte a
  now : n.now = m.now
  number : n.get F.TRG_PAGENO_PAGENO = (m.get F.TRG_PAGENO_PAGENO + 1) % 2 ^ 16
  rings : m.Rests 6 11 → n.Rung 6 11
  state : m.noSyncs → n.pageState = 3
  swtAt : n.trg.swtAt[k] = m.now / 4 + 1

/-- The machine before a software trigger's source fires: the trigger is noted, and Bowline's channels have it. -/
theorem Mach.fireSwt_eq (m : Mach) (k : Fin 16) (t : Nat) (own : Bool) (hfirst : m.trg.swtAt[k] ≠ m.now / 4 + 1) : ∃ y,
    m.fireSwt k t own = Mach.fireSource { m with trg := { m.trg with swtAt := m.trg.swtAt.set k (m.now / 4 + 1) }, bwl := y } (16 + k) t := by
  unfold Mach.fireSwt
  extract_lets tick x k1 k2
  rw [if_neg hfirst]
  obtain ⟨y, hy⟩ := k1.bwlSource_changes (16 + k) t
  have hk2 : k2 = if own then k1.bwlSource (16 + k) t else k1 := rfl
  cases own with
  | false => exact ⟨m.bwl, rfl⟩
  | true => exact ⟨y, by rw [hk2, if_pos rfl, hy]⟩

theorem Mach.fireSwt_starts (m : Mach) (k : Fin 16) (t : Nat) (own : Bool) (hfirst : m.trg.swtAt[k] ≠ m.now / 4 + 1) (hstate : m.pageState = 2)
    (hsrc : m.get F.TRG_CTL_PSSRC = 16 + k.val) (hheld : m.trg.held = none) : Mach.SwtStarts k m (m.fireSwt k t own) := by
  obtain ⟨y, heq⟩ := m.fireSwt_eq k t own hfirst
  rw [heq]
  obtain ⟨x, hx⟩ : ∃ x : Mach, x = { m with trg := { m.trg with swtAt := m.trg.swtAt.set k (m.now / 4 + 1) }, bwl := y } := ⟨_, rfl⟩
  rw [← hx]
  obtain ⟨z, hz⟩ : ∃ z : Mach, z = { x with trg := { x.trg with openAt := some x.now } } := ⟨_, rfl⟩
  have hxstate : x.pageState = 2 := by
    rw [hx]
    exact hstate
  have hxsrc : x.get F.TRG_CTL_PSSRC = 16 + k.val := by
    rw [hx]
    exact hsrc
  have hfire : x.fireSource (16 + k) t = (z.openPage t (16 + k) false).countEnd := by
    unfold Mach.fireSource
    extract_lets isEnd isStart
    have hstart : isStart := hxsrc
    rw [hxstate, if_neg (by simp), if_pos hstart, if_pos rfl, hz]
  have hopen := z.openPage_spec t (16 + k) false
  obtain ⟨hwork, -, hno, hrings, hns⟩ := hopen.counted (by rw [hz, hx]; exact hheld)
  rw [hfire]
  have hswt := hwork.swtAt
  rw [hz, hx] at hwork hno hrings hns hswt
  rw [hz, hx]
  refine ⟨hwork.mem, hwork.now, hno, fun hr => hrings ⟨hr.state, hr.late, hr.unset, hr.up⟩, hns, ?_⟩
  rw [hswt]
  exact Vector.getElem_set_self _

theorem does_trgSwt (hlive : s.m.live = true) (k : Fin 16) (hstate : s.m.pageState = 2) (hsrc : s.m.get F.TRG_CTL_PSSRC = 16 + k.val)
    (hfirst : s.m.trg.swtAt[k] ≠ s.tick.m.now / 4 + 1) (hheld : s.m.trg.held = none) :
    Does (.trgSwt (BitVec.ofNat 32 (2 ^ k.val))) s (fun t => (s.m.noSyncs → t.m.pageState = 3) ∧ Pulsed s t 6 11 ∧
      SameCoreMem s t ∧ SameStores s t ∧ t.m.get F.TRG_PAGENO_PAGENO = (s.m.get F.TRG_PAGENO_PAGENO + 1) % 2 ^ 16 ∧
      t.m.trg.swtAt[k] = s.tick.m.now / 4 + 1) := by
  have htrg := s.m.atTick_trg
  have hstarts := s.m.atTick.fireSwt_starts k (s.m.atTick.now / 4 * 4) true (by rw [htrg]; exact hfirst) (s.m.atTick_pageState.trans hstate)
    ((s.m.atTick_get _).trans hsrc) (by rw [htrg]; exact hheld)
  refine ⟨{ s with m := s.m.atTick.fireSwt k (s.m.atTick.now / 4 * 4) true }, ?_, fun hns => hstarts.state ?_,
    pulsed_of_page s.m.atTick_changes hlive hstarts.now hstarts.rings, fun a ha => (hstarts.work a ha).trans (s.m.atTick_byte a), ⟨rfl, rfl, rfl⟩,
    hstarts.number.trans (by rw [s.m.atTick_get]), hstarts.swtAt⟩
  · refine (s.run_writeCmd F.TRG_SWT_reg _ hlive).trans ?_
    rw [swt_word, Mach.trgSwt, filter_testBit_two_pow]
    rfl
  · intro h hon
    rw [s.m.atTick_ring]
    exact hns h (by rwa [s.m.atTick_ringOn] at hon)

end

/-! ## MSYNC -/

/-- The registers of head `i`, and the event registers of its core. -/
def headRegs (i : Fin 6) (k : Nat) : Prop := (0x100000 + 0x10000 * i.val ≤ k ∧ k < 0x110000 + 0x10000 * i.val) ∨ eventRegs (coreOf i) k

/-- `n` differs from `m` in head `i` and what it shows only. -/
structure Mach.HeadStep (i : Fin 6) (m n : Mach) : Prop where
  within : m.Within (headRegs i) n
  rest : ∃ r x b y, n = { m with regs := r, cores := x, beat := b, heads := y }
  others : ∀ j, j ≠ i → n.head j = m.head j

section
variable {i : Fin 6} {m n : Mach}

theorem Mach.HeadStep.refl (i : Fin 6) (m : Mach) : m.HeadStep i m := ⟨Mach.Within.refl _ m, ⟨m.regs, m.cores, m.beat, m.heads, rfl⟩, fun _ _ => rfl⟩

theorem Mach.HeadStep.trans {k : Mach} (h : m.HeadStep i n) (h' : n.HeadStep i k) : m.HeadStep i k := by
  obtain ⟨r, x, b, y, hr⟩ := h.rest
  obtain ⟨r', x', b', y', hr'⟩ := h'.rest
  exact ⟨h.within.trans h'.within, ⟨r', x', b', y', by rw [hr', hr]⟩, fun j hj => (h'.others j hj).trans (h.others j hj)⟩

theorem Mach.HeadStep.put (h : m.HeadStep i n) (f : Fld) (v : Nat) (hlo : 0x100000 + 0x10000 * i.val ≤ f.addr)
    (hhi : f.addr < 0x110000 + 0x10000 * i.val) : m.HeadStep i (n.put f v) := by
  obtain ⟨r, b, hput⟩ := n.put_changes f v
  refine h.trans ⟨(Mach.Within.refl _ n).put f v (Or.inl ⟨hlo, hhi⟩), ⟨r, n.cores, b, n.heads, hput⟩, fun j _ => ?_⟩
  rw [Mach.head, Mach.put_heads]
  rfl

theorem Mach.HeadStep.setHead (h : m.HeadStep i n) (x : HeadSt) : m.HeadStep i (n.setHead i x) :=
  h.trans ⟨(Mach.Within.refl _ n).other rfl rfl, ⟨n.regs, n.cores, n.beat, n.heads.set i x, rfl⟩, fun j hj => by
    simp only [Mach.head, Mach.setHead]
    exact Vector.getElem_set_ne i.isLt j.isLt fun he => hj (Fin.ext he).symm⟩

theorem Mach.HeadStep.pulseHead (h : m.HeadStep i n) (e : Nat) : m.HeadStep i (n.pulseHead i e) := by
  have hwithin := (Mach.Within.refl (headRegs i) n).pulseHead (h := i) e fun _ hk => Or.inr hk
  unfold Mach.pulseHead at *
  split
  · exact h
  · next hs =>
    rw [if_neg hs] at hwithin
    obtain ⟨r, x, b, hpulse⟩ := n.pulse_changes (coreOf i) e
    exact h.trans ⟨hwithin, ⟨r, x, b, n.heads, hpulse⟩, fun j _ => by rw [hpulse]; rfl⟩

theorem Mach.head_setHead_self (m : Mach) (i : Fin 6) (x : HeadSt) : (m.setHead i x).head i = x := by simp [Mach.head, Mach.setHead]

theorem Mach.pulseHead_head (m : Mach) (i j : Fin 6) (e : Nat) : (m.pulseHead i e).head j = m.head j := by
  rw [Mach.head, (m.pulseHead_keeps i e).2]
  rfl

/-- TPG's state with what STAT shows of it. -/
theorem Mach.HeadStep.putTpg (h : m.HeadStep i n) (x : TpgSt) : m.HeadStep i (n.putTpg i x) := by
  have hstat : 0x100000 + 0x10000 * i.val ≤ F.H_TPG_STAT_reg i ∧ F.H_TPG_STAT_reg i < 0x110000 + 0x10000 * i.val := by
    simp only [F.H_TPG_STAT_reg]
    omega
  have hset : m.HeadStep i (n.setTpg i x) := h.setHead _
  exact ((hset.put (F.H_TPG_STAT_HELD i) _ hstat.1 hstat.2).put (F.H_TPG_STAT_BUSY i) _ hstat.1 hstat.2).put (F.H_TPG_STAT_IDLE i) _ hstat.1 hstat.2

theorem Mach.putTpg_tpg (m : Mach) (i : Fin 6) (x : TpgSt) : ((m.putTpg i x).head i).tpg = x := by
  unfold Mach.putTpg
  dsimp only
  rw [Mach.head, Mach.put_heads, Mach.put_heads, Mach.put_heads]
  exact congrArg HeadSt.tpg (m.head_setHead_self i _)

theorem Mach.headStep_patternEnd (m : Mach) (i : Fin 6) {l : LineCtx} (hactive : (m.head i).tpg.active = some l)
    (hpast : l.sync + patLen l.set i ≤ m.now) : m.HeadStep i (m.patternEnd i) := by
  have hrun : m.runTo (l.sync + patLen l.set i) = m := if_neg (by simp [Nat.not_lt.2 hpast])
  unfold Mach.patternEnd
  dsimp only
  rw [hactive]
  dsimp only
  rw [hrun]
  split
  · exact (Mach.HeadStep.refl i m).putTpg _
  · exact (Mach.HeadStep.refl i m).putTpg _

theorem Mach.headStep_lineTrigger (m : Mach) (i : Fin 6) (pos : Int) : m.HeadStep i (m.lineTrigger i pos) := by
  unfold Mach.lineTrigger Mach.triggerBy
  split
  · exact Mach.HeadStep.refl i m
  · extract_lets k t w
    have hk : m.HeadStep i k := by
      show m.HeadStep i (match (m.head i).tpg.active with | some l => if l.sync + patLen l.set i ≤ m.now then m.patternEnd i else m | none => m)
      split
      · next l hl =>
        split
        · next hpast => exact m.headStep_patternEnd i hl hpast
        · exact Mach.HeadStep.refl i m
      · exact Mach.HeadStep.refl i m
    clear_value k
    split
    · refine (hk.putTpg _).put (F.H_TPG_CNT_DROP i) _ ?_ ?_
      · simp only [F.H_TPG_CNT_DROP, F.H_TPG_CNT_reg]
        omega
      · simp only [F.H_TPG_CNT_DROP, F.H_TPG_CNT_reg]
        omega
    · split
      · exact hk.putTpg _
      · exact hk.putTpg _

theorem Mach.casSend_step (h : m.HeadStep i n) (f : CasFrame) : m.HeadStep i (n.casSend i f) ∧ ((n.casSend i f).head i).tpg = (n.head i).tpg := by
  unfold Mach.casSend
  split
  · exact ⟨h, rfl⟩
  · refine ⟨h.setHead _, ?_⟩
    show ((n.setHead i _).head i).tpg = _
    rw [Mach.head_setHead_self]

/-- The copy of the written frame into the active one. -/
theorem Mach.frameCopy_step (l : List Nat) (hl : ∀ x ∈ l, x < 64) (h : m.HeadStep i n) :
    m.HeadStep i (n.each l fun x m => m.put (F.H_ILL_FRMA_I i x) (m.get (F.H_ILL_FRMW_I i x))) ∧
    ((n.each l fun x m => m.put (F.H_ILL_FRMA_I i x) (m.get (F.H_ILL_FRMW_I i x))).head i).tpg = (n.head i).tpg := by
  induction l generalizing n with
  | nil => exact ⟨h, rfl⟩
  | cons x l ih =>
    have hx := hl x List.mem_cons_self
    have hput := h.put (F.H_ILL_FRMA_I i x) (n.get (F.H_ILL_FRMW_I i x)) (by
      simp only [F.H_ILL_FRMA_I, F.H_ILL_FRMA_reg]
      omega) (by
      simp only [F.H_ILL_FRMA_I, F.H_ILL_FRMA_reg]
      omega)
    obtain ⟨hstep, htpg⟩ := ih (fun y hy => hl y (List.mem_cons_of_mem _ hy)) hput
    refine ⟨hstep, htpg.trans ?_⟩
    rw [Mach.head, Mach.put_heads]
    rfl

/-- A swap of the lamp's frame leaves the head's TPG. -/
theorem Mach.illSwap_step (h : m.HeadStep i n) : m.HeadStep i (n.illSwap i) ∧ ((n.illSwap i).head i).tpg = (n.head i).tpg := by
  unfold Mach.illSwap
  extract_lets k1 k2 x k3 k4
  have hk1 : m.HeadStep i k1 ∧ (k1.head i).tpg = (n.head i).tpg := Mach.frameCopy_step (List.range 64) (fun _ => List.mem_range.1) h
  have hk2 : m.HeadStep i k2 ∧ (k2.head i).tpg = (n.head i).tpg := by
    refine ⟨hk1.1.put (F.H_ILL_CTL_SWAP i) 0 ?_ ?_, ?_⟩
    · simp only [F.H_ILL_CTL_SWAP, F.H_ILL_CTL_reg]
      omega
    · simp only [F.H_ILL_CTL_SWAP, F.H_ILL_CTL_reg]
      omega
    · show ((k1.put (F.H_ILL_CTL_SWAP i) 0).head i).tpg = _
      rw [Mach.head, Mach.put_heads]
      exact hk1.2
  have hk3 : m.HeadStep i k3 ∧ (k3.head i).tpg = (n.head i).tpg :=
    ⟨hk2.1.setHead _, (congrArg HeadSt.tpg (k2.head_setHead_self i _)).trans hk2.2⟩
  have hk4 : m.HeadStep i k4 ∧ (k4.head i).tpg = (n.head i).tpg := by
    refine ⟨hk3.1.pulseHead 6, ?_⟩
    show ((k3.pulseHead i 6).head i).tpg = _
    rw [Mach.pulseHead_head]
    exact hk3.2
  clear_value k4
  split
  · exact ⟨(Mach.casSend_step hk4.1 .apply).1, (Mach.casSend_step hk4.1 .apply).2.trans hk4.2⟩
  · exact hk4

theorem Mach.illSwapPoint_step (h : m.HeadStep i n) (src : Nat) : m.HeadStep i (n.illSwapPoint i src) ∧
    ((n.illSwapPoint i src).head i).tpg = (n.head i).tpg := by
  unfold Mach.illSwapPoint
  split
  · exact Mach.illSwap_step h
  · exact ⟨h, rfl⟩

/-- What MSYNC does to one head. -/
def Mach.msyncHead (m : Mach) (i : Fin 6) : Mach := (if m.trigSrc i = 3 then m.lineTrigger i 0 else m).illSwapPoint i 1

theorem Mach.headStep_msyncHead (m : Mach) (i : Fin 6) : m.HeadStep i (m.msyncHead i) := by
  unfold Mach.msyncHead
  split
  · exact (Mach.illSwapPoint_step (m.headStep_lineTrigger i 0) 1).1
  · exact (Mach.illSwapPoint_step (Mach.HeadStep.refl i m) 1).1

/-- Head `i` takes MSYNC, accepts triggers, and is idle. -/
structure Mach.Takes (m : Mach) (i : Fin 6) : Prop where
  source : m.trigSrc i = 3
  accepts : m.accepts i = true
  first : (m.head i).tpg.lastTrig ≠ some m.now
  await : (m.head i).tpg.await = none
  held : (m.head i).tpg.held = none
  idle : (m.head i).tpg.active = none

theorem Mach.Takes.awaits (h : m.Takes i) : ((m.msyncHead i).head i).tpg.await = some { sync := nextGrid 16 m.now, pos := 0 } := by
  have htrig : m.lineTrigger i 0 = m.putTpg i { (m.head i).tpg with lastTrig := some m.now, await := some { sync := nextGrid 16 m.now, pos := 0 } } := by
    unfold Mach.lineTrigger Mach.triggerBy
    rw [h.accepts, if_neg (by simp [h.first]), h.idle]
    simp only [h.held, h.await]
    have hactive : ∀ o : Option LineCtx, o = none → ¬ (((none : Option Await).isSome || o.isSome) = true) := by simp
    rw [if_neg (by simp), if_neg (by exact hactive _ h.idle)]
  unfold Mach.msyncHead
  rw [if_pos h.source]
  have hstep := (Mach.illSwapPoint_step (m.headStep_lineTrigger i 0) 1).2
  rw [hstep, htrig, m.putTpg_tpg]

theorem Mach.Takes.step {j : Fin 6} (h : m.Takes i) (hs : m.HeadStep j n) (hne : i ≠ j) : n.Takes i := by
  obtain ⟨r, x, b, y, hr⟩ := hs.rest
  have hhead := hs.others i hne
  have hnow : n.now = m.now := by rw [hr]; rfl
  have hvne : i.val ≠ j.val := fun he => hne (Fin.ext he)
  have hget : ∀ f : Fld, f.addr < 0x400000 → (f.addr < 0x100000 ∨ f.addr = F.H_TPG_CTL_reg i ∨ f.addr = F.H_TPG_STAT_reg i) → n.get f = m.get f := by
    intro f hlt hf
    refine hs.within.get f fun hk => ?_
    rcases hk with hk | hk
    · simp only [F.H_TPG_CTL_reg, F.H_TPG_STAT_reg] at hf
      omega
    · exact not_eventRegs_of_lt hlt hk
  have hctl : n.get (F.H_TPG_CTL_RUN i) = m.get (F.H_TPG_CTL_RUN i) := hget _ (by
    simp only [F.H_TPG_CTL_RUN, F.H_TPG_CTL_reg]
    omega) (Or.inr (Or.inl rfl))
  have hpat : n.get (F.H_TPG_STAT_PATERR i) = m.get (F.H_TPG_STAT_PATERR i) := hget _ (by
    simp only [F.H_TPG_STAT_PATERR, F.H_TPG_STAT_reg]
    omega) (Or.inr (Or.inr rfl))
  have hgate : n.get F.CLK_GATE_HEAD_EN = m.get F.CLK_GATE_HEAD_EN := hget _ (by decide) (Or.inl (by decide))
  refine ⟨?_, ?_, ?_, ?_, ?_, ?_⟩
  · rw [hr]
    exact h.source
  · unfold Mach.accepts Mach.headEn Mach.calRuns Mach.is
    rw [hctl, hpat, hgate, hhead]
    exact h.accepts
  · rw [hhead, hnow]
    exact h.first
  · rw [hhead]
    exact h.await
  · rw [hhead]
    exact h.held
  · rw [hhead]
    exact h.idle

end

/-- MSYNC on a list of heads: each that takes it awaits its sync, and no byte and no other head changes. -/
theorem Mach.msync_each (l : List (Fin 6)) (hnodup : l.Nodup) (m : Mach) : (∀ a, (m.each l (fun h m => m.msyncHead h)).byte a = m.byte a) ∧
    (m.each l (fun h m => m.msyncHead h)).now = m.now ∧ (∀ i, i ∉ l → (m.each l (fun h m => m.msyncHead h)).head i = m.head i) ∧
    ∀ i, i ∈ l → m.Takes i → ((m.each l (fun h m => m.msyncHead h)).head i).tpg.await = some { sync := nextGrid 16 m.now, pos := 0 } := by
  induction l generalizing m with
  | nil => exact ⟨fun _ => rfl, rfl, fun _ _ => rfl, fun i hi => absurd hi List.not_mem_nil⟩
  | cons j t ih =>
    obtain ⟨hj, ht⟩ := List.nodup_cons.1 hnodup
    have hstep := m.headStep_msyncHead j
    have hawaits : m.Takes j → ((m.msyncHead j).head j).tpg.await = some { sync := nextGrid 16 m.now, pos := 0 } := fun h => h.awaits
    obtain ⟨hbyte, hnow, hkeep, htakes⟩ := ih ht (m.msyncHead j)
    have hnow1 : (m.msyncHead j).now = m.now := by
      obtain ⟨r, x, b, y, hr⟩ := hstep.rest
      rw [hr]
      rfl
    have heq : m.each (j :: t) (fun h m => m.msyncHead h) = (m.msyncHead j).each t (fun h m => m.msyncHead h) := rfl
    rw [heq]
    generalize m.msyncHead j = k at *
    refine ⟨fun a => (hbyte a).trans (hstep.within.2 a), hnow.trans hnow1, fun i hi => ?_, fun i hi htake => ?_⟩
    · obtain ⟨hij, hit⟩ := not_or.1 fun he => hi (List.mem_cons.2 he)
      exact (hkeep i hit).trans (hstep.others i hij)
    · by_cases hij : i = j
      · subst hij
        rw [hkeep i hj]
        exact hawaits htake
      · rw [htakes i ((List.mem_cons.1 hi).resolve_left hij) (htake.step hstep hij), hnow1]

theorem does_msyncEdge {s : State} (hlive : s.m.live = true) : Does .msyncEdge s (fun t => Keeps s t ∧ ∀ h : Fin 6, s.m.trigSrc h = 3 →
    s.m.accepts h = true → (s.m.head h).tpg.lastTrig ≠ some s.m.now → (s.m.head h).tpg.await = none → (s.m.head h).tpg.held = none →
    (s.m.head h).tpg.active = none → (t.m.head h).tpg.await = some { sync := nextGrid 16 s.m.now, pos := 0 }) := by
  obtain ⟨hbyte, -, -, htakes⟩ := Mach.msync_each allHeads (by decide) s.m
  have hexec : exec .msyncEdge s = .next { s with m := s.m.each allHeads (fun h m => m.msyncHead h) } := by
    change s.run (fun m => m.ifLive (fun m => m.msyncAct)) = _
    rw [State.run_eq, Mach.ifLive_of _ _ hlive]
    rfl
  generalize s.m.each allHeads (fun h m => m.msyncHead h) = k at *
  exact ⟨_, hexec, ⟨hbyte, rfl, rfl, rfl⟩, fun h h1 h2 h3 h4 h5 h6 => htakes h (mem_allHeads h) ⟨h1, h2, h3, h4, h5, h6⟩⟩

/-- Settles O44: units fire with the page machine off, a software trigger in an armed machine, and MSYNC head by head. -/
theorem triggers : Obligations.Triggers := by
  intro s hlive
  refine ⟨fun u hist => ?_, fun u up hup harmed hen hkind hstate =>
    does_trgTimeoutFire hlive hup harmed hen hkind hstate, fun k hstate hsrc hfirst hheld => does_trgSwt hlive k hstate hsrc hfirst hheld,
    does_msyncEdge hlive⟩
  intro din r need leave seen hen hkind
  refine ⟨fun hseen => ?_, fun hseen hstate => ?_⟩
  · exact (exec_trgPatternFire hlive hist).trans (by rw [(s.m.patternFire_eq u hist hen hkind).1 hseen]; rfl)
  · exact does_trgPatternFire hlive hist hen hkind hseen hstate

end Sys2Proof.Machine
end

section
/-!
Settles Bowline: EN and REFORM, the follower, the master, events and a lost ring (R889-R915).
-/

namespace Sys2Proof.Machine

/-! ## Fields that a put leaves alone -/

/-- A put of `f` leaves `g`, a field of the map's own registers. -/
def Fld.apart (f g : Fld) : Bool :=
  (g.addr != f.addr || decide (f.hi < g.lo) || decide (g.hi < f.lo)) && decide (f.lo ≤ f.hi) && decide (f.hi < 32) && decide (g.addr < 0x400000)

theorem Mach.get_put_apart (m : Mach) {f g : Fld} (v : Nat) (h : f.apart g = true) : (m.put f v).get g = m.get g := by
  simp only [Fld.apart, Bool.and_eq_true, Bool.or_eq_true, bne_iff_ne, decide_eq_true_eq] at h
  obtain ⟨⟨⟨hwhere, hle⟩, h32⟩, -⟩ := h
  by_cases hreg : g.addr = f.addr
  · rcases hwhere with (hne | habove) | hbelow
    · exact absurd hreg hne
    · exact m.get_put_of_gt f g v hreg habove hle h32
    · exact m.get_put_of_lt f g v hreg hbelow hle h32
  · exact m.get_put_ne f g v hreg

theorem Mach.get_pulse (m : Mach) (c : Fin 8) (e : Nat) {g : Fld} (h : g.addr < 0x400000) : (m.pulse c e).get g = m.get g := by
  rw [Mach.get, m.pulse_reg_ne c e (not_eventRegs_of_lt h)]
  rfl

theorem Fld.apart_lt {f g : Fld} (h : f.apart g = true) : g.addr < 0x400000 := by
  simp only [Fld.apart, Bool.and_eq_true, decide_eq_true_eq] at h
  exact h.2

/-! ## What Bowline may change -/

/-- `n` differs from `m` in registers of `p`, the cores, what the beat notes, Bowline's state and the free values taken. -/
structure Mach.BwlPart (p : Nat → Prop) (m n : Mach) : Prop where
  within : m.Within p n
  rest : ∃ r x b w c, n = { m with regs := r, cores := x, beat := b, bwl := w, freeCtr := c }

section
variable {p : Nat → Prop} {m n : Mach}

theorem Mach.BwlPart.refl (p : Nat → Prop) (m : Mach) : m.BwlPart p m := ⟨Mach.Within.refl p m, m.regs, m.cores, m.beat, m.bwl, m.freeCtr, rfl⟩

theorem Mach.BwlPart.trans {k : Mach} (h : m.BwlPart p n) (h' : n.BwlPart p k) : m.BwlPart p k := by
  obtain ⟨r, x, b, w, c, hr⟩ := h.rest
  obtain ⟨r', x', b', w', c', hr'⟩ := h'.rest
  exact ⟨h.within.trans h'.within, r', x', b', w', c', by rw [hr', hr]⟩

theorem Mach.BwlPart.mono {q : Nat → Prop} (h : m.BwlPart p n) (hpq : ∀ a, p a → q a) : m.BwlPart q n := ⟨h.within.mono hpq, h.rest⟩

theorem Mach.BwlPart.put (h : m.BwlPart p n) (f : Fld) (v : Nat) (hf : p f.addr) : m.BwlPart p (n.put f v) := by
  obtain ⟨r, b, hput⟩ := n.put_changes f v
  exact h.trans ⟨(Mach.Within.refl p n).put f v hf, r, n.cores, b, n.bwl, n.freeCtr, hput⟩

theorem Mach.BwlPart.pulse (h : m.BwlPart p n) (hp : ∀ a, eventRegs 7 a → p a) (e : Nat) : m.BwlPart p (n.pulse 7 e) := by
  obtain ⟨r, x, b, hpulse⟩ := n.pulse_changes 7 e
  exact h.trans ⟨(Mach.Within.refl p n).pulse 7 e hp, r, x, b, n.bwl, n.freeCtr, hpulse⟩

theorem Mach.BwlPart.setBwl (h : m.BwlPart p n) (w : BwlSt) : m.BwlPart p { n with bwl := w } :=
  h.trans ⟨(Mach.Within.refl p n).other rfl rfl, n.regs, n.cores, n.beat, w, n.freeCtr, rfl⟩

theorem Mach.BwlPart.fresh (h : m.BwlPart p n) (k : Nat) : m.BwlPart p (n.fresh k).2 :=
  h.trans ⟨(Mach.Within.refl p n).other rfl rfl, n.regs, n.cores, n.beat, n.bwl, n.freeCtr + 1, rfl⟩

theorem Mach.BwlPart.now (h : m.BwlPart p n) : n.now = m.now := by
  obtain ⟨r, x, b, w, c, hr⟩ := h.rest
  rw [hr]
  rfl

theorem Mach.BwlPart.up (h : m.BwlPart p n) : n.inReset = m.inReset ∧ n.pwr.thermal = m.pwr.thermal := by
  obtain ⟨r, x, b, w, c, hr⟩ := h.rest
  rw [hr]
  exact ⟨rfl, rfl⟩

theorem Mach.BwlPart.get (h : m.BwlPart p n) (f : Fld) (hf : ¬ p f.addr) : n.get f = m.get f := h.within.get f hf

end

/-! ## Status -/

/-- BWL_STAT, SYS_ID and the event registers of C7. -/
def bwlStat (a : Nat) : Prop := a = F.BWL_STAT_reg ∨ a = F.SYS_ID_reg ∨ eventRegs 7 a

section
variable {p : Nat → Prop} {m n : Mach} {f g : Fld}

theorem Mach.pulse_bwl (m : Mach) (c : Fin 8) (e : Nat) : (m.pulse c e).bwl = m.bwl := by
  obtain ⟨r, x, b, h⟩ := m.pulse_changes c e
  rw [h]

theorem Mach.bwlState_bwl (m : Mach) (v : Nat) : (m.bwlState v).bwl = m.bwl := by
  unfold Mach.bwlState
  split
  · rfl
  · rw [Mach.pulse_bwl, Mach.put_bwl]

theorem Mach.bwlFlag_bwl (m : Mach) (f : Fld) : (m.bwlFlag f).bwl = m.bwl := by
  unfold Mach.bwlFlag
  split
  · exact m.put_bwl f 1
  · rw [Mach.pulse_bwl, Mach.put_bwl]

theorem Mach.bwlShow_bwl (m : Mach) (f : Fld) (v : Nat) : (m.bwlShow f v).bwl = m.bwl := by
  unfold Mach.bwlShow
  split
  · rfl
  · rw [Mach.pulse_bwl, Mach.put_bwl]

theorem Mach.BwlPart.state (h : m.BwlPart p n) (hp : ∀ a, bwlStat a → p a) (v : Nat) : m.BwlPart p (n.bwlState v) := by
  unfold Mach.bwlState
  split
  · exact h
  · exact (h.put _ _ (hp _ (Or.inl rfl))).pulse (fun a ha => hp a (Or.inr (Or.inr ha))) 15

theorem Mach.BwlPart.flag (h : m.BwlPart p n) (hp : ∀ a, bwlStat a → p a) (hf : f.addr = F.BWL_STAT_reg) : m.BwlPart p (n.bwlFlag f) := by
  have hput := h.put f 1 (hp _ (Or.inl hf))
  unfold Mach.bwlFlag
  split
  · exact hput
  · exact hput.pulse (fun a ha => hp a (Or.inr (Or.inr ha))) 15

theorem Mach.BwlPart.shown (h : m.BwlPart p n) (hp : ∀ a, bwlStat a → p a) (hf : f.addr = F.BWL_STAT_reg) (v : Nat) :
    m.BwlPart p (n.bwlShow f v) := by
  unfold Mach.bwlShow
  split
  · exact h
  · exact (h.put f v (hp _ (Or.inl hf))).pulse (fun a ha => hp a (Or.inr (Or.inr ha))) 15

theorem Mach.get_bwlState (m : Mach) {v : Nat} (hv : v < 8) : (m.bwlState v).get F.BWL_STAT_STATE = v := by
  unfold Mach.bwlState
  split
  · next h => exact h
  · rw [Mach.get_pulse _ _ _ (by decide)]
    exact (m.get_put_self F.BWL_STAT_STATE v (by decide) (by decide)).trans (Nat.mod_eq_of_lt hv)

theorem Mach.get_bwlState_apart (m : Mach) (v : Nat) (h : F.BWL_STAT_STATE.apart g = true) : (m.bwlState v).get g = m.get g := by
  unfold Mach.bwlState
  split
  · rfl
  · rw [Mach.get_pulse _ _ _ (Fld.apart_lt h), m.get_put_apart v h]

theorem Mach.get_bwlFlag (m : Mach) (hf : f.addr < 0x400000 ∧ f.hi = f.lo ∧ f.hi < 32) : (m.bwlFlag f).get f = 1 := by
  obtain ⟨haddr, hbit, h32⟩ := hf
  have hput : (m.put f 1).get f = 1 := by
    rw [m.get_put_self f 1 (by omega) h32, hbit, Nat.add_sub_cancel_left]
    rfl
  unfold Mach.bwlFlag
  split
  · exact hput
  · rw [Mach.get_pulse _ _ _ haddr, hput]

theorem Mach.get_bwlFlag_apart (m : Mach) (h : f.apart g = true) : (m.bwlFlag f).get g = m.get g := by
  unfold Mach.bwlFlag
  split
  · exact m.get_put_apart 1 h
  · rw [Mach.get_pulse _ _ _ (Fld.apart_lt h), m.get_put_apart 1 h]

theorem Mach.get_bwlShow (m : Mach) {v : Nat} (hf : f.addr < 0x400000 ∧ f.lo ≤ f.hi ∧ f.hi < 32) (hv : v < 2 ^ (f.hi + 1 - f.lo)) :
    (m.bwlShow f v).get f = v := by
  unfold Mach.bwlShow
  split
  · next h => exact h
  · rw [Mach.get_pulse _ _ _ hf.1, m.get_put_self f v hf.2.1 hf.2.2, Nat.mod_eq_of_lt hv]

theorem Mach.get_bwlShow_apart (m : Mach) (v : Nat) (h : f.apart g = true) : (m.bwlShow f v).get g = m.get g := by
  unfold Mach.bwlShow
  split
  · rfl
  · rw [Mach.get_pulse _ _ _ (Fld.apart_lt h), m.get_put_apart v h]

end

/-! ## EN and REFORM -/

/-- Another STATE rings BWL of C7 (R911). -/
theorem Mach.bwlState_rings (m : Mach) {v : Nat} (hne : m.get F.BWL_STAT_STATE ≠ v) (h : m.Rests 7 15) : (m.bwlState v).Rung 7 15 := by
  unfold Mach.bwlState
  rw [if_neg hne]
  exact ((m.sameLines_put F.BWL_STAT_STATE v 7 (by decide)).rests h).pulsed (by decide)

/-- C7's line that Bowline rings has pulsed. -/
theorem pulsed_of_bwl {s : State} {m n : Mach} {e : Nat} (hm : ∃ n w, m = { s.m with sysTime := n, wraps := w }) (hlive : s.m.live = true)
    (hnow : n.now = m.now) (h : m.Rests 7 e → n.Rung 7 e) : Pulsed s { s with m := n } 7 e := by
  obtain ⟨-, hreset, hthermal⟩ := s.m.live_iff.1 hlive
  obtain ⟨y, w, rfl⟩ := hm
  exact pulsed_of_rung (m := { s.m with sysTime := y, wraps := w }) rfl rfl (Mach.tickNo_of_now hnow) ⟨hreset, hthermal⟩ h

theorem Mach.sameLines_setBwl (m : Mach) (w : BwlSt) (c : Fin 8) : m.SameLines { m with bwl := w } c := ⟨rfl, rfl, rfl, rfl, rfl, rfl⟩

theorem Mach.sameLines_setUnitNo (m : Mach) (k : Nat) (c : Fin 8) : m.SameLines (m.setUnitNo k) c :=
  (m.sameLines_put _ _ c (by decide)).trans (Mach.sameLines_put _ _ _ c (by decide))

section
variable {s : State}

/-- The machine whose ring EN has just enabled, before STATE shows it. -/
def Mach.bwlBegun (m : Mach) : Mach :=
  let m := m.put F.BWL_CTL_EN 1
  let m := { m with bwl := { on := m.get F.BWL_CTL_ROLE = 1 } }
  if m.get F.BWL_CTL_ROLE = 1 then m.setUnitNo 0 else m

/-- The registers that EN and what it starts may change. -/
def bwlEnRegs (a : Nat) : Prop := a = F.BWL_CTL_reg ∨ bwlStat a

theorem Mach.get_setUnitNo (m : Mach) (k : Nat) (hk : k < 8) : (m.setUnitNo k).get F.BWL_STAT_UNIT = k ∧ (m.setUnitNo k).get F.SYS_ID_UNIT = k := by
  refine ⟨(Mach.get_put_apart _ k (by decide)).trans ?_, ?_⟩
  · exact (m.get_put_self F.BWL_STAT_UNIT k (by decide) (by decide)).trans (Nat.mod_eq_of_lt hk)
  · exact (Mach.get_put_self _ F.SYS_ID_UNIT k (by decide) (by decide)).trans (Nat.mod_eq_of_lt hk)

theorem Mach.BwlPart.setUnitNo {p : Nat → Prop} {m n : Mach} (h : m.BwlPart p n) (hp : ∀ a, bwlStat a → p a) (k : Nat) : m.BwlPart p (n.setUnitNo k) :=
  (h.put _ _ (hp _ (Or.inl rfl))).put _ _ (hp _ (Or.inr (Or.inl rfl)))

theorem Mach.get_setUnitNo_apart (m : Mach) (k : Nat) {g : Fld} (h : F.BWL_STAT_UNIT.apart g = true) (h' : F.SYS_ID_UNIT.apart g = true) :
    (m.setUnitNo k).get g = m.get g := (Mach.get_put_apart _ k h').trans (m.get_put_apart k h)

theorem Mach.bwlBegun_spec (m : Mach) : m.BwlPart bwlEnRegs m.bwlBegun ∧ m.bwlBegun.get F.BWL_CTL_EN = 1 ∧
    m.bwlBegun.bwl = { on := decide (m.get F.BWL_CTL_ROLE = 1) } ∧ m.bwlBegun.get F.BWL_STAT_STATE = m.get F.BWL_STAT_STATE ∧
    (m.get F.BWL_CTL_ROLE = 1 → m.bwlBegun.get F.BWL_STAT_UNIT = 0 ∧ m.bwlBegun.get F.SYS_ID_UNIT = 0) ∧ m.SameLines m.bwlBegun 7 := by
  have hrole : (m.put F.BWL_CTL_EN 1).get F.BWL_CTL_ROLE = m.get F.BWL_CTL_ROLE := m.get_put_apart 1 (by decide)
  have hen : (m.put F.BWL_CTL_EN 1).get F.BWL_CTL_EN = 1 := m.get_put_self F.BWL_CTL_EN 1 (by decide) (by decide)
  have hstate : (m.put F.BWL_CTL_EN 1).get F.BWL_STAT_STATE = m.get F.BWL_STAT_STATE := m.get_put_apart 1 (by decide)
  have hpart : m.BwlPart bwlEnRegs (m.put F.BWL_CTL_EN 1) := (Mach.BwlPart.refl _ m).put _ _ (Or.inl rfl)
  have hlines := m.sameLines_put F.BWL_CTL_EN 1 7 (by decide)
  unfold Mach.bwlBegun
  extract_lets k k1
  have hk1 : m.BwlPart bwlEnRegs k1 := hpart.setBwl _
  have hlines1 : m.SameLines k1 7 := hlines.trans (k.sameLines_setBwl _ 7)
  have hrole1 : k1.get F.BWL_CTL_ROLE = m.get F.BWL_CTL_ROLE := hrole
  have hen1 : k1.get F.BWL_CTL_EN = 1 := hen
  have hstate1 : k1.get F.BWL_STAT_STATE = m.get F.BWL_STAT_STATE := hstate
  have hbwl1 : k1.bwl = { on := decide (m.get F.BWL_CTL_ROLE = 1) } := by
    show ({ on := decide (k.get F.BWL_CTL_ROLE = 1) } : BwlSt) = _
    rw [hrole]
  split
  · refine ⟨hk1.setUnitNo (fun _ => Or.inr) 0, ?_, ?_, ?_, fun _ => k1.get_setUnitNo 0 (by decide), hlines1.trans (k1.sameLines_setUnitNo 0 7)⟩
    · exact (k1.get_setUnitNo_apart 0 (by decide) (by decide)).trans hen1
    · rw [Mach.setUnitNo, Mach.put_bwl, Mach.put_bwl, hbwl1]
    · exact (k1.get_setUnitNo_apart 0 (by decide) (by decide)).trans hstate1
  · next hno => exact ⟨hk1, hen1, hbwl1, hstate1, fun h => absurd (hrole1.trans h) hno, hlines1⟩

theorem exec_bwlEn (on : Bool) (hlive : s.m.live = true) : exec (.bwlEn on) s = .next { s with m := s.m.atTick.bwlEn on } :=
  s.run_writeCmd F.BWL_CTL_reg _ hlive

theorem does_bwlEn_on (hlive : s.m.live = true) (hoff : s.m.get F.BWL_CTL_EN = 0) : Does (.bwlEn true) s (fun t =>
    t.m.get F.BWL_CTL_EN = 1 ∧ t.m.get F.BWL_STAT_STATE = 1 ∧ t.m.bwl = { on := decide (s.m.get F.BWL_CTL_ROLE = 1) } ∧
    (s.m.get F.BWL_STAT_STATE ≠ 1 → Pulsed s t 7 15) ∧
    (s.m.get F.BWL_CTL_ROLE = 1 → t.m.get F.BWL_STAT_UNIT = 0 ∧ t.m.get F.SYS_ID_UNIT = 0) ∧ SameRegs bwlEnRegs s t ∧ Keeps s t) := by
  have hget := s.m.atTick_get
  have htick := s.m.within_atTick bwlEnRegs
  have heq : s.m.atTick.bwlEn true = s.m.atTick.bwlBegun.bwlState 1 := by
    have hwas : s.m.atTick.is F.BWL_CTL_EN = false := by rw [Mach.is, hget, hoff]; rfl
    unfold Mach.bwlEn
    dsimp only
    rw [hwas]
    rfl
  obtain ⟨hpart, hen, hbwl, hstate, hunit, hlines⟩ := s.m.atTick.bwlBegun_spec
  have hstep := hpart.state (fun _ => Or.inr) 1
  have hrings := s.m.atTick.bwlBegun.bwlState_rings (v := 1)
  have hstate' := s.m.atTick.bwlBegun.get_bwlState (v := 1) (by decide)
  have hkeep : ∀ g, F.BWL_STAT_STATE.apart g = true → (s.m.atTick.bwlBegun.bwlState 1).get g = s.m.atTick.bwlBegun.get g :=
    fun g hg => Mach.get_bwlState_apart _ 1 hg
  have hbwl' := s.m.atTick.bwlBegun.bwlState_bwl 1
  rw [hget] at hbwl hstate hunit
  generalize s.m.atTick.bwlBegun.bwlState 1 = k at *
  refine ⟨{ s with m := k }, (exec_bwlEn true hlive).trans (by rw [heq]), (hkeep _ (by decide)).trans hen, hstate', hbwl'.trans hbwl,
    fun hne => pulsed_of_bwl s.m.atTick_changes hlive hstep.now fun hr => hrings (by rw [hstate]; exact hne) (hlines.rests hr),
    fun hrole => ?_, (htick.trans hstep.within).sameRegs, (htick.trans hstep.within).keeps⟩
  obtain ⟨hu, hi⟩ := hunit hrole
  exact ⟨(hkeep _ (by decide)).trans hu, (hkeep _ (by decide)).trans hi⟩

theorem does_bwlEn_off (hlive : s.m.live = true) : Does (.bwlEn false) s (fun t => t.m.get F.BWL_CTL_EN = 0 ∧ t.m.get F.BWL_STAT_STATE = 0 ∧
    t.m.bwl = {} ∧ SameRegs bwlEnRegs s t ∧ Keeps s t) := by
  have htick := s.m.within_atTick bwlEnRegs
  have heq : s.m.atTick.bwlEn false = ({ s.m.atTick.put F.BWL_CTL_EN 0 with bwl := {} } : Mach).bwlState 0 := rfl
  have hen : (s.m.atTick.put F.BWL_CTL_EN 0).get F.BWL_CTL_EN = 0 := Mach.get_put_self _ F.BWL_CTL_EN 0 (by decide) (by decide)
  have hpart : s.m.atTick.BwlPart bwlEnRegs (s.m.atTick.put F.BWL_CTL_EN 0) := (Mach.BwlPart.refl _ _).put _ _ (Or.inl rfl)
  generalize s.m.atTick.put F.BWL_CTL_EN 0 = k at *
  have hstep := (hpart.setBwl {}).state (fun _ => Or.inr) 0
  have hkeep : (({ k with bwl := {} } : Mach).bwlState 0).get F.BWL_CTL_EN = k.get F.BWL_CTL_EN := Mach.get_bwlState_apart _ 0 (by decide)
  refine ⟨{ s with m := ({ k with bwl := {} } : Mach).bwlState 0 }, (exec_bwlEn false hlive).trans (by rw [heq]), hkeep.trans hen,
    Mach.get_bwlState _ (by decide), Mach.bwlState_bwl _ 0, (htick.trans hstep.within).sameRegs, (htick.trans hstep.within).keeps⟩

theorem Mach.atTick_bwl (m : Mach) : m.atTick.bwl = m.bwl := by
  obtain ⟨n, w, h⟩ := m.atTick_changes
  rw [h]

theorem Mach.atTick_bwlMaster (m : Mach) : m.atTick.bwlMaster = m.bwlMaster := by
  rw [Mach.bwlMaster, m.atTick_is, m.atTick_get]
  rfl

theorem exec_bwlReform (hlive : s.m.live = true) : exec .bwlReform s = .next { s with m := s.m.atTick.bwlReform } :=
  s.run_writeCmd F.BWL_CTL_reg _ hlive

theorem exec_bwlReform_none (hlive : s.m.live = true) (hmaster : s.m.bwlMaster = false) : exec .bwlReform s = .next s.tick := by
  rw [exec_bwlReform hlive, Mach.bwlReform, s.m.atTick_bwlMaster, hmaster]
  rfl

theorem does_bwlReform (hlive : s.m.live = true) (hmaster : s.m.bwlMaster = true) : Does .bwlReform s (fun t => t.m.get F.BWL_STAT_STATE = 1 ∧
    t.m.bwl = { s.m.bwl with rets := [], out := [], pend := none, qmin := #v[none, none], reefReq := 0 } ∧ SameRegs bwlStat s t ∧ Keeps s t) := by
  have htick := s.m.within_atTick bwlStat
  have hexec := exec_bwlReform hlive
  rw [Mach.bwlReform, s.m.atTick_bwlMaster, if_pos hmaster] at hexec
  have hpart := (Mach.BwlPart.refl bwlStat s.m.atTick).state (fun _ h => h) 1
  have hstate := s.m.atTick.get_bwlState (v := 1) (by decide)
  generalize s.m.atTick.bwlState 1 = k at *
  refine ⟨_, hexec, hstate, ?_, (htick.trans (hpart.setBwl _).within).sameRegs, (htick.trans (hpart.setBwl _).within).keeps⟩
  show ({ s.m.atTick.bwl with rets := [], out := [], pend := none, qmin := #v[none, none], reefReq := 0 } : BwlSt) = _
  rw [s.m.atTick_bwl]

end

/-! ## The bytes of a frame -/

theorem slotBytes_length (x : Option (BwlEvent × Nat)) : (slotBytes x).length = 8 := by
  match x with
  | none => exact List.length_replicate
  | some (e, age) =>
    show (leBytes 6 e.time).length + 1 + 1 = 8
    rw [leBytes_length]

theorem slotsBytes_length (l : List (Option (BwlEvent × Nat))) : (l.flatMap slotBytes).length = 8 * l.length := by
  induction l with
  | nil => rfl
  | cons x l ih =>
    rw [List.flatMap_cons, List.length_append, slotBytes_length, ih, List.length_cons]
    omega

theorem beBytes_length (n v : Nat) : (beBytes n v).length = n := by rw [beBytes, List.length_reverse, leBytes_length]

/-- Bytes 1-87 of a frame. -/
def BwlFrame.front (f : BwlFrame) : List Byte :=
  [BitVec.ofNat 8 f.flags, BitVec.ofNat 8 f.hopc] ++ f.body ++ [BitVec.ofNat 8 f.level] ++
    f.slots.flatMap slotBytes ++ [BitVec.ofNat 8 f.stop] ++ beBytes 6 f.qmin[0] ++ beBytes 6 f.qmin[1] ++
    [BitVec.ofNat 8 f.reefReq, BitVec.ofNat 8 f.fault, BitVec.ofNat 8 f.seen] ++ leBytes 2 f.hopSum

theorem BwlFrame.bytes_eq (f : BwlFrame) : f.bytes = f.front ++ [crc8 f.front] := rfl

theorem BwlFrame.bytes_head (f : BwlFrame) : ∃ l, f.bytes = BitVec.ofNat 8 f.flags :: BitVec.ofNat 8 f.hopc :: l := by
  unfold BwlFrame.bytes
  simp only [List.append_assoc, List.cons_append, List.nil_append]
  exact ⟨_, rfl⟩

theorem BwlFrame.front_length (f : BwlFrame) (hbody : f.body.length = 34) (hslots : f.slots.length = 4) : f.front.length = 87 := by
  simp only [BwlFrame.front, List.length_append, List.length_cons, List.length_nil, slotsBytes_length, beBytes_length, leBytes_length, hbody, hslots]

/-- The bytes that a frame of the right shape spells are valid (R893). -/
theorem BwlFrame.bytes_valid (f : BwlFrame) (hbody : f.body.length = 34) (hslots : f.slots.length = 4) (hflags : f.flags < 128)
    (hkind : f.flags % 4 ≠ 3) : bwlValid f.bytes false = true := by
  have hlen := f.front_length hbody hslots
  have hfb : fb f.bytes 1 = f.flags := by
    obtain ⟨l, hl⟩ := f.bytes_head
    rw [hl]
    show f.flags % 2 ^ 8 = f.flags
    omega
  have htake : f.bytes.take 87 = f.front := by
    rw [f.bytes_eq]
    exact List.take_left' hlen
  have hget : f.bytes.getD 87 0 = crc8 f.front := by
    rw [f.bytes_eq, ← hlen, List.getD_append_right _ _ _ _ (Nat.le_refl _), Nat.sub_self]
    rfl
  have hlen88 : f.bytes.length = 88 := by rw [f.bytes_eq, List.length_append, hlen]; rfl
  simp only [bwlValid, hfb, htake, hget, hlen88, Bool.not_false, Bool.true_and, decide_true, Bool.and_true, Bool.and_eq_true, decide_eq_true_eq,
    bne_iff_ne]
  exact ⟨hflags, hkind⟩

theorem bwlValid_spec {l : List Byte} {viol : Bool} (h : bwlValid l viol = true) : l.length = 88 ∧ (parseBwl l).flags < 128 ∧
    (parseBwl l).flags % 4 ≠ 3 := by
  simp only [bwlValid, Bool.and_eq_true, decide_eq_true_eq, bne_iff_ne] at h
  exact ⟨h.1.1.1.2, h.1.2, h.2⟩

theorem parseBwl_body {l : List Byte} (h : l.length = 88) : (parseBwl l).body.length = 34 := by
  show ((l.drop 2).take 34).length = 34
  rw [List.length_take, List.length_drop, h]
  rfl

theorem byteOf_lt (l : List Byte) (i : Nat) : fb l i < 256 := (l.getD (i - 1) 0).isLt

/-! ## Events and forwarding -/

theorem fillSlots_length (unit : Nat) (l : List (Option (BwlEvent × Nat))) (w : List (BwlEvent × Bool)) :
    (fillSlots unit l w).1.length = l.length := by
  induction l generalizing w with
  | nil => rfl
  | cons x t ih =>
    match x, w with
    | some y, w => exact congrArg (· + 1) (ih w)
    | none, [] => rfl
    | none, (e, b) :: w => exact congrArg (· + 1) (ih w)

/-- `n` differs from `m` in the queue of deliveries only. -/
def Mach.DueOnly (m n : Mach) : Prop := ∃ d, n = { m with bwl := { m.bwl with due := d } }

theorem Mach.dueOnly_bwlDue (m : Mach) (b : Nat) (e : BwlEvent) : m.DueOnly (m.bwlDue b e) := by
  unfold Mach.bwlDue
  split
  · exact ⟨m.bwl.due, rfl⟩
  · exact ⟨_, rfl⟩

theorem Mach.DueOnly.trans {m n k : Mach} (h : m.DueOnly n) (h' : n.DueOnly k) : m.DueOnly k := by
  obtain ⟨d, rfl⟩ := h
  obtain ⟨d', rfl⟩ := h'
  exact ⟨d', rfl⟩

theorem Mach.dueOnly_each {α : Type} (l : List α) (f : α → Mach → Mach) (hf : ∀ x (k : Mach), k.DueOnly (f x k)) (m : Mach) : m.DueOnly (m.each l f) :=
  Mach.each_keeps (fun k => m.DueOnly k) l f (fun x k hk => hk.trans (hf x k)) m ⟨m.bwl.due, rfl⟩

theorem Mach.DueOnly.part {p : Nat → Prop} {m n k : Mach} (h : m.BwlPart p n) (hk : n.DueOnly k) : m.BwlPart p k := by
  obtain ⟨d, rfl⟩ := hk
  exact h.setBwl _

/-- Events that are placed in a frame change the counts and Bowline's queues only (R908). -/
theorem Mach.placeEvents_spec (m : Mach) (b : Nat) (slots : List (Option (BwlEvent × Nat))) :
    (m.placeEvents b slots).1.length = slots.length ∧ m.BwlPart (fun a => a = F.BWL_EVCNT_reg) (m.placeEvents b slots).2 ∧
    ∃ w d, (m.placeEvents b slots).2.bwl = { m.bwl with wait := w, due := d } := by
  have hlen := fillSlots_length m.bwlUnit slots m.bwl.wait
  unfold Mach.placeEvents
  generalize fillSlots m.bwlUnit slots m.bwl.wait = r at *
  obtain ⟨l, placed, rest⟩ := r
  dsimp only
  obtain ⟨k, hk⟩ : ∃ k : Mach, k = { m with bwl := { m.bwl with wait := rest.map (fun (w : BwlEvent × Bool) => (w.1, true)) } } := ⟨_, rfl⟩
  rw [← hk]
  have hpart : m.BwlPart (fun a => a = F.BWL_EVCNT_reg) k := by
    rw [hk]
    exact (Mach.BwlPart.refl _ m).setBwl _
  have hbwl : k.bwl = { m.bwl with wait := rest.map (fun (w : BwlEvent × Bool) => (w.1, true)) } := by rw [hk]
  have hcount : ∀ x y : Nat, m.BwlPart (fun a => a = F.BWL_EVCNT_reg) ((k.countHold F.BWL_EVCNT_SENT x).countHold F.BWL_EVCNT_DELAYED y) ∧
      ((k.countHold F.BWL_EVCNT_SENT x).countHold F.BWL_EVCNT_DELAYED y).bwl = k.bwl := fun x y =>
    ⟨(hpart.put F.BWL_EVCNT_SENT _ rfl).put F.BWL_EVCNT_DELAYED _ rfl, by rw [Mach.countHold, Mach.put_bwl, Mach.countHold, Mach.put_bwl]⟩
  obtain ⟨hpart', hbwl'⟩ := hcount placed.length (rest.filter (fun (w : BwlEvent × Bool) => !w.2)).length
  generalize (k.countHold F.BWL_EVCNT_SENT placed.length).countHold F.BWL_EVCNT_DELAYED (rest.filter (fun (w : BwlEvent × Bool) => !w.2)).length = n at *
  have hdue := Mach.dueOnly_each placed (fun e m => m.bwlDue (b + 6000) e) (fun e m => m.dueOnly_bwlDue _ e) n
  refine ⟨hlen, hdue.part hpart', ?_⟩
  obtain ⟨d, hd⟩ := hdue
  refine ⟨rest.map (fun (w : BwlEvent × Bool) => (w.1, true)), d, ?_⟩
  rw [hd]
  show ({ n.bwl with due := d } : BwlSt) = _
  rw [hbwl', hbwl]

/-- What a follower's forwarding of the frame `f` leaves (R891, R892). -/
structure Mach.Forwards (m : Mach) (f : BwlFrame) (bad : Bool) (n : Mach) : Prop where
  part : m.BwlPart (fun a => a = F.BWL_EVCNT_reg) n
  frame : ∃ g : BwlFrame, n.bwl.tx = g.bytes ∧ n.bwl.txSyms = (frameSyms g.bytes m.bwl.txRd).1 ∧ g.flags = (if bad then f.flags ||| 0x80 else f.flags) ∧
    g.hopc = (f.hopc + 1) % 256 ∧ g.body = f.body ∧ g.slots.length = f.slots.length
  at' : n.bwl.txAt = m.now + 80
  hopSum : n.bwl.hopSum = (f.hopSum + m.hopLen) % 2 ^ 16
  known : n.bwl.known = m.bwl.known
  lastK : n.bwl.lastK = m.bwl.lastK

theorem Mach.forwards_bwlForward (m : Mach) (f : BwlFrame) (bad : Bool) : m.Forwards f bad (m.bwlForward f bad) := by
  unfold Mach.bwlForward
  extract_lets mir stop q
  generalize hpair : (if bad = true then (f.slots, m) else m.placeEvents m.miStart f.slots) = r
  obtain ⟨slots, k⟩ := r
  have hplaced : slots.length = f.slots.length ∧ m.BwlPart (fun a => a = F.BWL_EVCNT_reg) k ∧ ∃ w d, k.bwl = { m.bwl with wait := w, due := d } := by
    cases bad with
    | true =>
      obtain ⟨rfl, rfl⟩ := Prod.mk.inj hpair
      exact ⟨rfl, Mach.BwlPart.refl _ m, m.bwl.wait, m.bwl.due, rfl⟩
    | false =>
      have hspec := m.placeEvents_spec m.miStart f.slots
      rw [show m.placeEvents m.miStart f.slots = (slots, k) from hpair] at hspec
      exact hspec
  obtain ⟨hlen, hpart, w, d, hbwl⟩ := hplaced
  dsimp only
  clear_value mir stop q
  have hnow := hpart.now
  have hhop : k.hopLen = m.hopLen := by
    rw [Mach.hopLen, hpart.get _ (by decide)]
    rfl
  refine ⟨(hpart.setBwl _).setBwl _, ⟨_, rfl, ?_, rfl, rfl, rfl, hlen⟩, ?_, ?_, ?_, ?_⟩
  · show (frameSyms _ k.bwl.txRd).1 = _
    rw [hbwl]
  · show k.now + 80 = _
    rw [hnow]
  · show (f.hopSum + k.hopLen) % 2 ^ 16 = _
    rw [hhop]
  · show k.bwl.known = _
    rw [hbwl]
  · show k.bwl.lastK = _
    rw [hbwl]

/-! ## A frame that a follower receives -/

/-- The beat of the frame's K28.5 is noted (R913). -/
def Mach.bwlHeard (m : Mach) : Mach := { m with bwl := { m.bwl with lastK := m.now, on := true } }

/-- A discovery frame starts the ring afresh (R894). -/
def Mach.bwlRestarted (m : Mach) (f : BwlFrame) : Mach :=
  if f.flags % 4 = 1 && m.get F.BWL_STAT_STATE != 1 then { m.bwlState 1 with bwl := { m.bwl with known := false } } else m

/-- A follower without a number takes its own (R894). -/
def Mach.bwlNumbered (m : Mach) (f : BwlFrame) : Mach :=
  if m.bwl.known then m else { m.setUnitNo (f.hopc + 1) with bwl := { m.bwl with known := true } }

/-- FAULT, SEEN and the events of a valid frame (R909, R911). -/
def Mach.bwlNoted (m : Mach) (f : BwlFrame) : Mach :=
  ((m.bwlShow F.BWL_STAT_FAULT f.fault).bwlShow F.BWL_STAT_SEEN f.seen).each (f.slots.filterMap id)
    fun e m => m.bwlDue (m.miStart + 3000 * (2 - e.2)) e.1

/-- The frame's own fields act (R898, R902). -/
def Mach.bwlEnded (m : Mach) (f : BwlFrame) : Mach :=
  if f.flags % 4 = 2 then m.epochLoad f else if f.flags % 4 = 0 && m.get F.BWL_STAT_STATE = 4 then m.bwlMirror f else m

/-- A frame without a way on: every number is taken (R894). -/
def Mach.bwlMuted (m : Mach) : Mach := { m.bwlFlag F.BWL_STAT_RINGERR with bwl := { m.bwl with mute := true, on := false, tx := [] } }

section
variable {p : Nat → Prop} {m n : Mach} {f : BwlFrame} {syms : List (BitVec 10)}

theorem Mach.bwlReceive_deaf (m : Mach) (syms : List (BitVec 10)) (h : m.bwlFollower = false ∨ m.bwl.mute = true) : m.bwlReceive syms = m := by
  unfold Mach.bwlReceive
  generalize frameOf syms = r
  obtain ⟨l, viol⟩ := r
  dsimp only
  rw [if_pos]
  rcases h with h | h
  · rw [h]
    rfl
  · rw [h, Bool.or_true]

theorem Mach.bwlReceive_bad (hfollow : m.bwlFollower = true) (hmute : m.bwl.mute = false)
    (hbad : bwlValid (frameOf syms).1 (frameOf syms).2 = false) :
    m.bwlReceive syms = if ((m.bwlHeard.bwlFlag F.BWL_STAT_CHKERR).bwlForward (parseBwl (frameOf syms).1) true).get F.BWL_STAT_STATE = 4 then
      ((m.bwlHeard.bwlFlag F.BWL_STAT_CHKERR).bwlForward (parseBwl (frameOf syms).1) true).followerLost
    else (m.bwlHeard.bwlFlag F.BWL_STAT_CHKERR).bwlForward (parseBwl (frameOf syms).1) true := by
  unfold Mach.bwlReceive
  generalize frameOf syms = r at *
  obtain ⟨l, viol⟩ := r
  exact (if_neg (by rw [hfollow, hmute]; exact Bool.false_ne_true)).trans (if_pos (by rw [hbad]; rfl))

theorem Mach.bwlReceive_good (hfollow : m.bwlFollower = true) (hmute : m.bwl.mute = false)
    (hgood : bwlValid (frameOf syms).1 (frameOf syms).2 = true) (hf : f = parseBwl (frameOf syms).1) (k : Mach) (hk : k = m.bwlHeard.bwlRestarted f) :
    m.bwlReceive syms = if (!k.bwl.known && 7 ≤ f.hopc : Bool) then k.bwlMuted else
      (((k.bwlNumbered f).bwlNoted f).bwlForward f false).bwlEnded f := by
  unfold Mach.bwlReceive
  generalize frameOf syms = r at *
  obtain ⟨l, viol⟩ := r
  rw [hk, hf]
  exact (if_neg (by rw [hfollow, hmute]; exact Bool.false_ne_true)).trans (if_neg (by rw [hgood]; exact Bool.false_ne_true))

theorem Mach.BwlPart.heard (h : m.BwlPart p n) : m.BwlPart p n.bwlHeard := h.setBwl _

theorem Mach.bwlRestarted_of_none (h : f.flags % 4 ≠ 1 ∨ m.get F.BWL_STAT_STATE = 1) : m.bwlRestarted f = m := by
  refine if_neg fun hc => ?_
  simp only [Bool.and_eq_true, decide_eq_true_eq, bne_iff_ne] at hc
  rcases h with h | h
  · exact h hc.1
  · exact hc.2 h

/-- What a follower has done with a valid frame, from `m` on, before the frame's own fields act. -/
structure Mach.Passes (m : Mach) (f : BwlFrame) (n : Mach) : Prop where
  part : m.BwlPart (fun a => bwlStat a ∨ a = F.BWL_EVCNT_reg) n
  valid : bwlValid n.bwl.tx false = true
  hop : (n.bwl.tx.getD 1 0).toNat = (f.hopc + 1) % 256
  syms : n.bwl.txSyms = (frameSyms n.bwl.tx m.bwl.txRd).1
  at' : n.bwl.txAt = m.now + 80
  known : n.bwl.known = true
  hopSum : n.bwl.hopSum = (f.hopSum + m.hopLen) % 2 ^ 16
  fault : n.get F.BWL_STAT_FAULT = f.fault
  seen : n.get F.BWL_STAT_SEEN = f.seen
  state : n.get F.BWL_STAT_STATE = m.get F.BWL_STAT_STATE
  unit : m.bwl.known = true → n.get F.BWL_STAT_UNIT = m.get F.BWL_STAT_UNIT
  number : m.bwl.known = false → f.hopc < 7 → n.get F.BWL_STAT_UNIT = f.hopc + 1 ∧ n.get F.SYS_ID_UNIT = f.hopc + 1

theorem Mach.bwlNumbered_spec (m : Mach) (f : BwlFrame) : m.BwlPart bwlStat (m.bwlNumbered f) ∧ (m.bwlNumbered f).bwl = { m.bwl with known := true } ∧
    (m.bwlNumbered f).get F.BWL_STAT_STATE = m.get F.BWL_STAT_STATE ∧
    (m.bwl.known = true → (m.bwlNumbered f).get F.BWL_STAT_UNIT = m.get F.BWL_STAT_UNIT) ∧
    (m.bwl.known = false → f.hopc < 7 → (m.bwlNumbered f).get F.BWL_STAT_UNIT = f.hopc + 1 ∧ (m.bwlNumbered f).get F.SYS_ID_UNIT = f.hopc + 1) := by
  unfold Mach.bwlNumbered
  split
  · next hknown =>
    refine ⟨Mach.BwlPart.refl _ m, ?_, rfl, fun _ => rfl, fun h => absurd (hknown.symm.trans h) (by decide)⟩
    generalize m.bwl = w at *
    cases w
    simp only at hknown
    rw [hknown]
  · next hno =>
    have hpart := ((Mach.BwlPart.refl bwlStat m).setUnitNo (fun _ h => h) (f.hopc + 1)).setBwl { m.bwl with known := true }
    have hstate := m.get_setUnitNo_apart (f.hopc + 1) (g := F.BWL_STAT_STATE) (by decide) (by decide)
    have hnum : f.hopc < 7 → _ := fun h => m.get_setUnitNo (f.hopc + 1) (by omega)
    generalize m.setUnitNo (f.hopc + 1) = k at *
    exact ⟨hpart, rfl, hstate, fun h => absurd h hno, fun _ h => hnum h⟩

theorem Mach.bwlNoted_spec (m : Mach) (f : BwlFrame) (hfault : f.fault < 256) (hseen : f.seen < 256) : m.BwlPart bwlStat (m.bwlNoted f) ∧
    (∃ d, (m.bwlNoted f).bwl = { m.bwl with due := d }) ∧ (m.bwlNoted f).get F.BWL_STAT_FAULT = f.fault ∧
    (m.bwlNoted f).get F.BWL_STAT_SEEN = f.seen ∧ (m.bwlNoted f).get F.BWL_STAT_STATE = m.get F.BWL_STAT_STATE ∧
    (m.bwlNoted f).get F.BWL_STAT_UNIT = m.get F.BWL_STAT_UNIT ∧ (m.bwlNoted f).get F.SYS_ID_UNIT = m.get F.SYS_ID_UNIT := by
  have hpart := ((Mach.BwlPart.refl bwlStat m).shown (fun _ h => h) (f := F.BWL_STAT_FAULT) rfl f.fault).shown (fun _ h => h)
    (f := F.BWL_STAT_SEEN) rfl f.seen
  have hbwl : ((m.bwlShow F.BWL_STAT_FAULT f.fault).bwlShow F.BWL_STAT_SEEN f.seen).bwl = m.bwl := by rw [Mach.bwlShow_bwl, Mach.bwlShow_bwl]
  have hf := (Mach.get_bwlShow_apart (m.bwlShow F.BWL_STAT_FAULT f.fault) (f := F.BWL_STAT_SEEN) (g := F.BWL_STAT_FAULT) f.seen (by decide)).trans
    (m.get_bwlShow (by decide) hfault)
  have hs := (m.bwlShow F.BWL_STAT_FAULT f.fault).get_bwlShow (f := F.BWL_STAT_SEEN) (by decide) hseen
  have hkeep : ∀ g, F.BWL_STAT_FAULT.apart g = true → F.BWL_STAT_SEEN.apart g = true →
      ((m.bwlShow F.BWL_STAT_FAULT f.fault).bwlShow F.BWL_STAT_SEEN f.seen).get g = m.get g := fun g h1 h2 =>
    (Mach.get_bwlShow_apart _ _ h2).trans (m.get_bwlShow_apart _ h1)
  unfold Mach.bwlNoted
  generalize (m.bwlShow F.BWL_STAT_FAULT f.fault).bwlShow F.BWL_STAT_SEEN f.seen = k at *
  have hdue := Mach.dueOnly_each (f.slots.filterMap id) (fun e m => m.bwlDue (m.miStart + 3000 * (2 - e.2)) e.1) (fun e m => m.dueOnly_bwlDue _ e.1) k
  have hpart' := hdue.part hpart
  obtain ⟨d, hd⟩ := hdue
  rw [hd] at hpart' ⊢
  refine ⟨hpart', ⟨d, ?_⟩, hf, hs, hkeep _ (by decide) (by decide), hkeep _ (by decide) (by decide), hkeep _ (by decide) (by decide)⟩
  show ({ k.bwl with due := d } : BwlSt) = _
  rw [hbwl]

theorem Mach.passes (m : Mach) {l : List Byte} {viol : Bool} (hvalid : bwlValid l viol = true) (hf : f = parseBwl l) :
    m.Passes f (((m.bwlNumbered f).bwlNoted f).bwlForward f false) := by
  obtain ⟨hlen, hflags, hkind⟩ := bwlValid_spec hvalid
  have hbody : f.body.length = 34 := by rw [hf]; exact parseBwl_body hlen
  have hslots : f.slots.length = 4 := by rw [hf]; rfl
  have hfault : f.fault < 256 := by rw [hf]; exact byteOf_lt l 84
  have hseen : f.seen < 256 := by rw [hf]; exact byteOf_lt l 85
  rw [← hf] at hflags hkind
  obtain ⟨hpart, hbwl, hstate, hunit, hnum⟩ := m.bwlNumbered_spec f
  generalize m.bwlNumbered f = k at *
  obtain ⟨hpart1, ⟨d, hbwl1⟩, hfault1, hseen1, hstate1, hunit1, hid1⟩ := k.bwlNoted_spec f hfault hseen
  generalize k.bwlNoted f = k1 at *
  rw [hbwl] at hbwl1
  have hpart2 := hpart.trans hpart1
  have hfwd := k1.forwards_bwlForward f false
  generalize k1.bwlForward f false = n at *
  have hkeep : ∀ g : Fld, g.addr ≠ F.BWL_EVCNT_reg → n.get g = k1.get g := fun g hg => hfwd.part.get g hg
  obtain ⟨g, htx, hsyms, hgflags, hghop, hgbody, hgslots⟩ := hfwd.frame
  refine ⟨(hpart2.mono fun _ => Or.inl).trans (hfwd.part.mono fun _ => Or.inr), ?_, ?_, ?_, ?_, ?_, ?_, ?_, ?_, ?_, ?_, ?_⟩
  · rw [htx]
    refine g.bytes_valid (hgbody ▸ hbody) (hgslots ▸ hslots) ?_ ?_
    · rw [hgflags]
      exact hflags
    · rw [hgflags]
      exact hkind
  · rw [htx]
    obtain ⟨l', hl'⟩ := g.bytes_head
    rw [hl', hghop]
    show (f.hopc + 1) % 256 % 2 ^ 8 = _
    omega
  · rw [hsyms, htx, hbwl1]
  · rw [hfwd.at', hpart2.now]
  · rw [hfwd.known, hbwl1]
  · rw [hfwd.hopSum, Mach.hopLen, Mach.hopLen, hpart2.get F.BWL_CTL_HOPLEN]
    unfold bwlStat
    rintro (h | h | h)
    · exact absurd h (by decide)
    · exact absurd h (by decide)
    · exact not_eventRegs_of_lt (by decide) h
  · exact (hkeep _ (by decide)).trans hfault1
  · exact (hkeep _ (by decide)).trans hseen1
  · exact (hkeep _ (by decide)).trans (hstate1.trans hstate)
  · exact fun h => (hkeep _ (by decide)).trans (hunit1.trans (hunit h))
  · intro h hlt
    obtain ⟨hu, hi⟩ := hnum h hlt
    exact ⟨(hkeep _ (by decide)).trans (hunit1.trans hu), (hkeep _ (by decide)).trans (hid1.trans hi)⟩

end

/-! ## What a received frame leaves -/

theorem not_bwlStat {a : Nat} (hlt : a < 0x400000) (hstat : a ≠ F.BWL_STAT_reg) (hid : a ≠ F.SYS_ID_reg) : ¬ bwlStat a := by
  rintro (h | h | h)
  · exact hstat h
  · exact hid h
  · exact not_eventRegs_of_lt hlt h

section
variable {m n : Mach} {f : BwlFrame}

/-- STATE and LOST of a follower that has lost its ring (R913). -/
def Mach.lostShown (m : Mach) : Mach := (m.bwlState 5).bwlFlag F.BWL_STAT_LOST

theorem Mach.lostShown_spec (m : Mach) : m.BwlPart bwlStat m.lostShown ∧ m.lostShown.get F.BWL_STAT_STATE = 5 ∧
    m.lostShown.get F.BWL_STAT_LOST = 1 ∧ m.lostShown.bwl = m.bwl ∧
    ∀ g, F.BWL_STAT_STATE.apart g = true → F.BWL_STAT_LOST.apart g = true → m.lostShown.get g = m.get g := by
  refine ⟨((Mach.BwlPart.refl _ m).state (fun _ h => h) 5).flag (fun _ h => h) rfl, ?_, Mach.get_bwlFlag _ (by decide), ?_, fun g h1 h2 => ?_⟩
  · exact (Mach.get_bwlFlag_apart _ (by decide)).trans (m.get_bwlState (by decide))
  · rw [Mach.lostShown, Mach.bwlFlag_bwl, Mach.bwlState_bwl]
  · exact (Mach.get_bwlFlag_apart _ h2).trans (m.get_bwlState_apart 5 h1)

theorem Mach.followerLost_open (h : m.get F.BWL_CTL_MIRROR = 0) : m.followerLost = m.lostShown := by
  have hmirror : m.lostShown.is F.BWL_CTL_MIRROR = false := by
    rw [Mach.is, m.lostShown_spec.2.2.2.2 _ (by decide) (by decide), h]
    rfl
  exact if_neg (by rw [show ((m.bwlState 5).bwlFlag F.BWL_STAT_LOST).is F.BWL_CTL_MIRROR = false from hmirror]; exact Bool.false_ne_true)

/-- A frame that is not valid is flagged and goes on with its flag set (R893). -/
structure Mach.BadPasses (m n : Mach) : Prop where
  part : m.BwlPart bwlStat n
  error : n.get F.BWL_STAT_CHKERR = 1
  state : n.get F.BWL_STAT_STATE = m.get F.BWL_STAT_STATE
  flag : (n.bwl.tx.getD 0 0).getLsbD 7 = true
  syms : n.bwl.txSyms = (frameSyms n.bwl.tx m.bwl.txRd).1
  at' : n.bwl.txAt = m.now + 80
  lastK : n.bwl.lastK = m.now

theorem testBit_or_128 (x : Nat) : (BitVec.ofNat 8 (x ||| 0x80)).getLsbD 7 = true := by
  rw [BitVec.getLsbD_ofNat, Nat.testBit_or]
  simp
  exact Or.inr (by decide)

/-- A frame that is not valid takes no event with it. -/
theorem Mach.bwlForward_bad (m : Mach) (f : BwlFrame) (p : Nat → Prop) : m.BwlPart p (m.bwlForward f true) := by
  unfold Mach.bwlForward
  extract_lets mir stop q
  exact ((Mach.BwlPart.refl p m).setBwl _).setBwl _

theorem Mach.badPasses (m : Mach) (f : BwlFrame) : m.BadPasses ((m.bwlHeard.bwlFlag F.BWL_STAT_CHKERR).bwlForward f true) := by
  have hpart := ((Mach.BwlPart.refl bwlStat m).heard).flag (fun _ h => h) (f := F.BWL_STAT_CHKERR) rfl
  have herror := m.bwlHeard.get_bwlFlag (f := F.BWL_STAT_CHKERR) (by decide)
  have hstate : (m.bwlHeard.bwlFlag F.BWL_STAT_CHKERR).get F.BWL_STAT_STATE = m.get F.BWL_STAT_STATE := m.bwlHeard.get_bwlFlag_apart (by decide)
  have hbwl := m.bwlHeard.bwlFlag_bwl F.BWL_STAT_CHKERR
  generalize m.bwlHeard.bwlFlag F.BWL_STAT_CHKERR = k at *
  have hfwd := k.forwards_bwlForward f true
  have hbad := k.bwlForward_bad f bwlStat
  generalize k.bwlForward f true = n at *
  have hkeep : ∀ g : Fld, g.addr ≠ F.BWL_EVCNT_reg → n.get g = k.get g := fun g hg => hfwd.part.get g hg
  obtain ⟨g, htx, hsyms, hflags, -, -, -⟩ := hfwd.frame
  refine ⟨hpart.trans hbad, (hkeep _ (by decide)).trans herror, (hkeep _ (by decide)).trans hstate, ?_, ?_, ?_, ?_⟩
  · obtain ⟨l, hl⟩ := g.bytes_head
    rw [htx, hl, hflags]
    exact testBit_or_128 f.flags
  · rw [hsyms, htx, hbwl]
    rfl
  · rw [hfwd.at', hpart.now]
  · rw [hfwd.lastK, hbwl]
    rfl

/-- The kinematic data of a frame in a ring in RUN (R902, R906). -/
theorem Mach.bwlEnded_run (hkind : f.flags % 4 = 0) (hstate : m.get F.BWL_STAT_STATE = 4) : m.bwlEnded f = m.bwlMirror f := by
  unfold Mach.bwlEnded
  rw [if_neg (by omega), if_pos (by rw [hkind, hstate]; rfl)]

theorem Mach.bwlEnded_discover (hkind : f.flags % 4 = 1) : m.bwlEnded f = m := by
  unfold Mach.bwlEnded
  rw [if_neg (by omega), if_neg (by simp [hkind])]

theorem Mach.bwlRestarted_spec (m : Mach) (f : BwlFrame) (hkind : f.flags % 4 = 1) (hknown : m.bwl.known = false) :
    m.BwlPart bwlStat (m.bwlRestarted f) ∧ (m.bwlRestarted f).get F.BWL_STAT_STATE = 1 ∧ (m.bwlRestarted f).bwl = m.bwl := by
  by_cases hstate : m.get F.BWL_STAT_STATE = 1
  · rw [Mach.bwlRestarted_of_none (Or.inr hstate)]
    exact ⟨Mach.BwlPart.refl _ m, hstate, rfl⟩
  · have hpart := (Mach.BwlPart.refl bwlStat m).state (fun _ h => h) 1
    have hone := m.get_bwlState (v := 1) (by decide)
    have heq : m.bwlRestarted f = { m.bwlState 1 with bwl := { m.bwl with known := false } } :=
      if_pos (by simp [hkind, hstate])
    rw [heq]
    generalize m.bwlState 1 = k at *
    refine ⟨hpart.setBwl _, hone, ?_⟩
    show ({ m.bwl with known := false } : BwlSt) = m.bwl
    generalize m.bwl = w at *
    cases w
    simp only at hknown
    rw [hknown]

end

section
variable {s : State} {k : BitVec 10} {syms : List (BitVec 10)}

theorem exec_bwlFrameReceive (hlive : s.m.live = true) : exec (.bwlFrameReceive k syms) s = .next { s with m := s.m.bwlReceive (k :: syms) } := by
  change s.run (fun m => m.ifLive (fun m => m.bwlReceive (k :: syms))) = _
  rw [State.run_eq, Mach.ifLive_of _ _ hlive]

theorem exec_bwlFrameReceive_deaf (hlive : s.m.live = true) (h : s.m.bwlFollower = false ∨ s.m.bwl.mute = true) :
    exec (.bwlFrameReceive k syms) s = .next s := by
  rw [exec_bwlFrameReceive hlive, s.m.bwlReceive_deaf _ h]

section
variable (hlive : s.m.live = true) (hfollow : s.m.bwlFollower = true) (hmute : s.m.bwl.mute = false)
include hlive hfollow hmute

theorem does_bwlFrameReceive_bad (hbad : bwlValid (frameOf (k :: syms)).1 (frameOf (k :: syms)).2 = false) (hstate : s.m.get F.BWL_STAT_STATE ≠ 4) :
    Does (.bwlFrameReceive k syms) s (fun t => t.m.get F.BWL_STAT_CHKERR = 1 ∧ t.m.get F.BWL_STAT_STATE = s.m.get F.BWL_STAT_STATE ∧
      (t.m.bwl.tx.getD 0 0).getLsbD 7 = true ∧ (t.m.bwl.txSyms = (frameSyms t.m.bwl.tx s.m.bwl.txRd).1 ∧ t.m.bwl.txAt = s.m.now + 80) ∧
      t.m.bwl.lastK = s.m.now ∧ SameRegs bwlStat s t ∧ Keeps s t) := by
  have hpasses := s.m.badPasses (parseBwl (frameOf (k :: syms)).1)
  have hexec := exec_bwlFrameReceive (k := k) (syms := syms) hlive
  rw [Mach.bwlReceive_bad hfollow hmute hbad] at hexec
  generalize (s.m.bwlHeard.bwlFlag F.BWL_STAT_CHKERR).bwlForward (parseBwl (frameOf (k :: syms)).1) true = n at *
  rw [if_neg (by rw [hpasses.state]; exact hstate)] at hexec
  exact ⟨_, hexec, hpasses.error, hpasses.state, hpasses.flag, ⟨hpasses.syms, hpasses.at'⟩, hpasses.lastK, hpasses.part.within.sameRegs,
    hpasses.part.within.keeps⟩

theorem does_bwlFrameReceive_bad_run (hbad : bwlValid (frameOf (k :: syms)).1 (frameOf (k :: syms)).2 = false)
    (hstate : s.m.get F.BWL_STAT_STATE = 4) (hmirror : s.m.get F.BWL_CTL_MIRROR = 0) :
    Does (.bwlFrameReceive k syms) s (fun t => t.m.get F.BWL_STAT_CHKERR = 1 ∧ t.m.get F.BWL_STAT_STATE = 5 ∧ t.m.get F.BWL_STAT_LOST = 1 ∧
      SameRegs bwlStat s t ∧ Keeps s t) := by
  have hpasses := s.m.badPasses (parseBwl (frameOf (k :: syms)).1)
  have hexec := exec_bwlFrameReceive (k := k) (syms := syms) hlive
  rw [Mach.bwlReceive_bad hfollow hmute hbad] at hexec
  generalize (s.m.bwlHeard.bwlFlag F.BWL_STAT_CHKERR).bwlForward (parseBwl (frameOf (k :: syms)).1) true = n at *
  have hopen : n.get F.BWL_CTL_MIRROR = 0 := (hpasses.part.get _ (not_bwlStat (by decide) (by decide) (by decide))).trans hmirror
  rw [if_pos (by rw [hpasses.state]; exact hstate), Mach.followerLost_open hopen] at hexec
  obtain ⟨hpart, hfive, hlost, -, hkeep⟩ := n.lostShown_spec
  generalize n.lostShown = n' at *
  have hpart' := hpasses.part.trans hpart
  exact ⟨_, hexec, (hkeep _ (by decide) (by decide)).trans hpasses.error, hfive, hlost, hpart'.within.sameRegs, hpart'.within.keeps⟩

variable (hgood : bwlValid (frameOf (k :: syms)).1 (frameOf (k :: syms)).2 = true) {f : BwlFrame} (hf : f = parseBwl (frameOf (k :: syms)).1)
include hgood hf

theorem does_bwlFrameReceive_number (hkind : f.flags % 4 = 1) (hknown : s.m.bwl.known = false) (hhop : f.hopc < 7) :
    Does (.bwlFrameReceive k syms) s (fun t =>
      t.m.get F.BWL_STAT_STATE = 1 ∧ t.m.get F.BWL_STAT_UNIT = f.hopc + 1 ∧ t.m.get F.SYS_ID_UNIT = f.hopc + 1 ∧
      t.m.bwl.known = true ∧ t.m.get F.BWL_STAT_SEEN = f.seen ∧ t.m.get F.BWL_STAT_FAULT = f.fault ∧ bwlValid t.m.bwl.tx false = true ∧
      (t.m.bwl.txSyms = (frameSyms t.m.bwl.tx s.m.bwl.txRd).1 ∧ t.m.bwl.txAt = s.m.now + 80) ∧ (t.m.bwl.tx.getD 1 0).toNat = f.hopc + 1 ∧
      Keeps s t) := by
  have hexec := exec_bwlFrameReceive (k := k) (syms := syms) hlive
  obtain ⟨hpart, hone, hbwl⟩ := s.m.bwlHeard.bwlRestarted_spec f hkind hknown
  have hheard := (Mach.BwlPart.refl bwlStat s.m).heard
  rw [Mach.bwlReceive_good hfollow hmute hgood hf _ rfl] at hexec
  generalize s.m.bwlHeard.bwlRestarted f = n at *
  have hno : n.bwl.known = false := by rw [hbwl]; exact hknown
  have hpart' := hheard.trans hpart
  have hpasses := n.passes hgood hf
  rw [if_neg (by rw [hno]; simpa using hhop), Mach.bwlEnded_discover hkind] at hexec
  generalize ((n.bwlNumbered f).bwlNoted f).bwlForward f false = n' at *
  obtain ⟨hu, hi⟩ := hpasses.number hno hhop
  refine ⟨_, hexec, hpasses.state.trans hone, hu, hi, hpasses.known, hpasses.seen, hpasses.fault, hpasses.valid, ⟨?_, ?_⟩, ?_,
    ((hpart'.mono fun _ => Or.inl).trans hpasses.part).within.keeps⟩
  · rw [hpasses.syms, hbwl]
    rfl
  · rw [hpasses.at', hpart'.now]
  · rw [hpasses.hop]
    omega

theorem does_bwlFrameReceive_full (hstate : s.m.get F.BWL_STAT_STATE = 1) (hknown : s.m.bwl.known = false)
    (hhop : 7 ≤ f.hopc) : Does (.bwlFrameReceive k syms) s (fun t => t.m.get F.BWL_STAT_RINGERR = 1 ∧ t.m.bwl.mute = true ∧
      SameRegs bwlStat s t ∧ Keeps s t) := by
  have hexec := exec_bwlFrameReceive (k := k) (syms := syms) hlive
  rw [Mach.bwlReceive_good hfollow hmute hgood hf _ rfl, Mach.bwlRestarted_of_none (m := s.m.bwlHeard) (Or.inr hstate),
    if_pos (by rw [show s.m.bwlHeard.bwl.known = false from hknown]; simpa using hhop)] at hexec
  have hpart := ((Mach.BwlPart.refl bwlStat s.m).heard.flag (fun _ h => h) (f := F.BWL_STAT_RINGERR) rfl).setBwl
    { s.m.bwlHeard.bwl with mute := true, on := false, tx := [] }
  have herr := s.m.bwlHeard.get_bwlFlag (f := F.BWL_STAT_RINGERR) (by decide)
  exact ⟨_, hexec, herr, rfl, hpart.within.sameRegs, hpart.within.keeps⟩

theorem does_bwlFrameReceive_run (hkind : f.flags % 4 = 0) (hstate : s.m.get F.BWL_STAT_STATE = 4) (hknown : s.m.bwl.known = true) :
    Does (.bwlFrameReceive k syms) s (fun t =>
      t.m.bwl.ax[0].p1 = sext 96 (leNat (((frameOf (k :: syms)).1.drop 2).take 12)) ∧
      t.m.bwl.ax[1].p1 = sext 96 (leNat (((frameOf (k :: syms)).1.drop 19).take 12)) ∧
      t.m.bwl.ax[0].stopd = leNat (((frameOf (k :: syms)).1.drop 14).take 4) ∧
      (t.m.bwl.txSyms = (frameSyms t.m.bwl.tx s.m.bwl.txRd).1 ∧ t.m.bwl.txAt = s.m.now + 80) ∧ t.m.bwl.level = f.level % 16 ∧
      t.m.get F.BWL_STAT_STATE = 4 ∧ Keeps s t) := by
  have hexec := exec_bwlFrameReceive (k := k) (syms := syms) hlive
  have hheard := (Mach.BwlPart.refl (fun a => bwlStat a ∨ a = F.BWL_EVCNT_reg) s.m).heard
  have hheardKnown : s.m.bwlHeard.bwl.known = true := hknown
  have hheardState : s.m.bwlHeard.get F.BWL_STAT_STATE = 4 := hstate
  have hheardRd : s.m.bwlHeard.bwl.txRd = s.m.bwl.txRd := rfl
  rw [Mach.bwlReceive_good hfollow hmute hgood hf _ rfl, Mach.bwlRestarted_of_none (Or.inl (by omega))] at hexec
  generalize s.m.bwlHeard = n at *
  have hpasses := n.passes hgood hf
  rw [if_neg (by rw [hheardKnown]; exact Bool.false_ne_true)] at hexec
  generalize ((n.bwlNumbered f).bwlNoted f).bwlForward f false = n' at *
  have hfour := hpasses.state.trans hheardState
  rw [Mach.bwlEnded_run hkind hfour] at hexec
  have hbody : f.body = ((frameOf (k :: syms)).1.drop 2).take 34 := by rw [hf]; rfl
  have hdrop : ∀ o, o + 12 ≤ 34 → (f.body.drop o).take 12 = ((frameOf (k :: syms)).1.drop (o + 2)).take 12 := by
    intro o ho
    rw [hbody, List.drop_take, List.take_take, List.drop_drop, Nat.add_comm 2 o, Nat.min_eq_left (by omega)]
  have hstop : (f.body.drop 12).take 4 = ((frameOf (k :: syms)).1.drop 14).take 4 := by
    rw [hbody, List.drop_take, List.take_take, List.drop_drop, Nat.min_eq_left (by decide)]
  refine ⟨_, hexec, ?_, ?_, ?_, ⟨?_, ?_⟩, rfl, hfour, ((hheard.trans hpasses.part).setBwl _).within.keeps⟩
  · show sext 96 (leNat ((f.body.drop 0).take 12)) = _
    rw [hdrop 0 (by decide)]
  · show sext 96 (leNat ((f.body.drop 17).take 12)) = _
    rw [hdrop 17 (by decide)]
  · show leNat ((f.body.drop 12).take 4) = _
    rw [hstop]
  · exact hpasses.syms.trans (by rw [hheardRd]; rfl)
  · exact hpasses.at'.trans (by rw [hheard.now])

end

end

/-! ## The epoch -/

/-- The epoch fields of a frame: the ring's cable delay, its total length, and the beat that the frame carries (R898). -/
def BwlFrame.dcable (f : BwlFrame) : Nat := leNat ((f.body.drop 8).take 2)
def BwlFrame.totlen (f : BwlFrame) : Nat := leNat ((f.body.drop 6).take 2)
def BwlFrame.epoch (f : BwlFrame) : Nat := leNat ((f.body.drop 10).take 2) * 2 ^ 48 + leNat (f.body.take 6)

/-- The unit's offset from the master (R898). -/
def Mach.epochOfs (m : Mach) (f : BwlFrame) : Nat :=
  (2 * f.dcable * m.bwl.hopSum + f.totlen) / (2 * f.totlen) + 80 * (m.bwlUnit - 1)

/-- The epoch's numbers in the map. -/
def Mach.epochShown (m : Mach) (f : BwlFrame) (ofs : Nat) : Mach :=
  ((m.put F.BWL_OFS_OK ofs).put F.BWL_OFS_TOTLEN f.totlen).put F.BWL_RTT_DCABLE f.dcable

/-- The count has gone on by `w`, and Bowline's own times and every other time of the unit move by `d` (log entry 70). -/
def Mach.epochShifted (m : Mach) (w : Nat) (d : Int) : Mach :=
  let m := { m with bwl := { m.bwl with lastK := moved d m.bwl.lastK, txAt := moved d m.bwl.txAt,
                                        due := m.bwl.due.map (fun (x : Nat × BwlEvent) => (nextGrid 3000 (moved d x.1), x.2)) } }
  (m.setNow (m.now + w)).shiftTimes d

/-- An idle unit's count goes to the beat `v` that the epoch gives, on the grid (R898). -/
def Mach.epochMoved (m : Mach) (v : Nat) : Mach :=
  (m.epochShifted (nextGrid 64 v - v) ((nextGrid 64 v : Int) - (m.now + (nextGrid 64 v - v) : Nat))).setNow (nextGrid 64 v)

section
variable {m n : Mach} {f : BwlFrame}

theorem Mach.epochLoad_eq (m : Mach) (f : BwlFrame) (htotlen : f.totlen ≠ 0) {k : Mach} (hk : k = m.epochShown f (m.epochOfs f)) {v : Nat}
    (hv : v = f.epoch + m.epochOfs f) : m.epochLoad f =
      if (k.now ≤ v + 1 && v ≤ k.now + 1 : Bool) then (k.put F.BWL_STAT_EPOCHKEEP 1).bwlState 4
      else if k.unitIdle then ((k.epochMoved v).put F.BWL_STAT_EPOCHKEEP 0).bwlState 4
      else k.bwlFlag F.BWL_STAT_EPOCHERR := by
  unfold Mach.epochLoad
  extract_lets dcable totlen pk
  rw [if_neg (show totlen ≠ 0 from htotlen)]
  dsimp -zeta only
  extract_lets ofs k1 k2 v'
  have hk2 : k = k2 := hk
  have hv' : v = v' := by
    rw [BwlFrame.epoch] at hv
    exact hv
  clear_value k2 v'
  subst hk2 hv'
  rfl

/-- The registers that an epoch load may change. -/
def epochRegs (a : Nat) : Prop := bwlStat a ∨ a = F.BWL_EVCNT_reg ∨ a = F.BWL_OFS_reg ∨ a = F.BWL_RTT_reg

theorem epochRegs_lt {a : Nat} (hlo : 0x100000 ≤ a) (hhi : a < 0x320000) : ¬ epochRegs a := by
  rintro (h | h | h | h)
  · exact not_bwlStat (by omega) (fun he => by simp only [F.BWL_STAT_reg] at he; omega) (fun he => by simp only [F.SYS_ID_reg] at he; omega) h
  · simp only [F.BWL_EVCNT_reg] at h
    omega
  · simp only [F.BWL_OFS_reg] at h
    omega
  · simp only [F.BWL_RTT_reg] at h
    omega

theorem Mach.epochShown_spec (m : Mach) (f : BwlFrame) (ofs : Nat) : m.BwlPart epochRegs (m.epochShown f ofs) ∧
    (m.epochShown f ofs).get F.BWL_OFS_OK = ofs % 2 ^ 16 ∧ ∀ g, g.addr = F.BWL_STAT_reg → (m.epochShown f ofs).get g = m.get g := by
  refine ⟨(((Mach.BwlPart.refl _ m).put _ _ (Or.inr (Or.inr (Or.inl rfl)))).put _ _ (Or.inr (Or.inr (Or.inl rfl)))).put _ _ (Or.inr (Or.inr (Or.inr rfl))),
    ?_, fun g hg => ?_⟩
  · refine (Mach.get_put_apart _ _ (by decide)).trans ((Mach.get_put_apart _ _ (by decide)).trans ?_)
    exact m.get_put_self F.BWL_OFS_OK ofs (by decide) (by decide)
  · refine (Mach.get_put_ne _ _ g _ ?_).trans ((Mach.get_put_ne _ _ g _ ?_).trans (Mach.get_put_ne _ _ g _ ?_))
    · rw [hg]
      decide
    · rw [hg]
      decide
    · rw [hg]
      decide

theorem far_of_or {x v : Nat} (h : v + 1 < x ∨ x + 1 < v) : ¬ (decide (x ≤ v + 1) && decide (v ≤ x + 1)) = true := by
  simp
  omega

/-- The three ends of an epoch load (R898, R900). -/
theorem Mach.epochLoad_cases (m : Mach) (f : BwlFrame) (htotlen : f.totlen ≠ 0) {k : Mach} (hk : k = m.epochShown f (m.epochOfs f)) {v : Nat}
    (hv : v = f.epoch + m.epochOfs f) :
    (m.now ≤ v + 1 → v ≤ m.now + 1 → m.epochLoad f = (k.put F.BWL_STAT_EPOCHKEEP 1).bwlState 4) ∧
    (v + 1 < m.now ∨ m.now + 1 < v → k.unitIdle = true → m.epochLoad f = ((k.epochMoved v).put F.BWL_STAT_EPOCHKEEP 0).bwlState 4) ∧
    (v + 1 < m.now ∨ m.now + 1 < v → k.unitIdle = false → m.epochLoad f = k.bwlFlag F.BWL_STAT_EPOCHERR) := by
  have hnow : k.now = m.now := by
    rw [hk]
    exact (m.epochShown_spec f _).1.now
  have heq := m.epochLoad_eq f htotlen hk hv
  rw [hnow] at heq
  refine ⟨fun hlo hhi => heq.trans (if_pos ?_), fun hfar hidle => heq.trans ((if_neg (far_of_or hfar)).trans (if_pos hidle)),
    fun hfar hidle => heq.trans ((if_neg (far_of_or hfar)).trans (if_neg ?_))⟩
  · rw [decide_eq_true hlo, decide_eq_true hhi]
    rfl
  · rw [hidle]
    exact Bool.false_ne_true

theorem Mach.unitIdle_congr (h : ∀ a, 0x100000 ≤ a → a < 0x320000 → n.reg a = m.reg a) : n.unitIdle = m.unitIdle := by
  have hget : ∀ g : Fld, 0x100000 ≤ g.addr → g.addr < 0x320000 → n.get g = m.get g := fun g hlo hhi => by
    rw [Mach.get, h _ hlo hhi]
    rfl
  have hhead : ∀ i : Fin 6, n.get (F.H_TPG_CTL_RUN i) = m.get (F.H_TPG_CTL_RUN i) ∧ n.get (F.H_ILL_CTL_EN i) = m.get (F.H_ILL_CTL_EN i) := fun i => by
    refine ⟨hget _ ?_ ?_, hget _ ?_ ?_⟩ <;> simp only [F.H_TPG_CTL_RUN, F.H_TPG_CTL_reg, F.H_ILL_CTL_EN, F.H_ILL_CTL_reg] <;> omega
  have hax : ∀ a : Fin 2, n.axState a = m.axState a := fun a => hget _ (by
    simp only [F.HAL_AX_STAT_STATE, F.HAL_AX_STAT_reg]
    omega) (by
    simp only [F.HAL_AX_STAT_STATE, F.HAL_AX_STAT_reg]
    omega)
  have hall : (fun i : Fin 6 => !n.is (F.H_TPG_CTL_RUN i) && !n.is (F.H_ILL_CTL_EN i)) = fun i : Fin 6 => !m.is (F.H_TPG_CTL_RUN i) && !m.is (F.H_ILL_CTL_EN i) := by
    funext i
    rw [Mach.is, Mach.is, (hhead i).1, (hhead i).2]
    rfl
  unfold Mach.unitIdle
  rw [hall, hax, hax]

theorem Mach.shiftTimes_changes (m : Mach) (d : Int) : ∃ c h sh p st po l a r b t bo nv, m.shiftTimes d =
    { m with cores := c, heads := h, beat := {}, shr := sh, pwr := p, st := st, port := po, ln := l, aux := a, reef := r, bc := b, trg := t,
             boot := bo, nv := nv } := ⟨_, _, _, _, _, _, _, _, _, _, _, _, _, rfl⟩

theorem Mach.shiftTimes_keeps (m : Mach) (d : Int) : (m.shiftTimes d).regs = m.regs ∧ (m.shiftTimes d).mem = m.mem := by
  obtain ⟨c, h, sh, p, st, po, l, a, r, b, t, bo, nv, heq⟩ := m.shiftTimes_changes d
  rw [heq]
  exact ⟨rfl, rfl⟩

/-- A change of the count leaves every register and every byte (log entry 70). -/
theorem Mach.epochMoved_keeps (m : Mach) (v : Nat) : (m.epochMoved v).regs = m.regs ∧ (m.epochMoved v).mem = m.mem ∧
    (m.epochMoved v).now = nextGrid 64 v % 2 ^ 64 := by
  obtain ⟨x, u, d, heq⟩ : ∃ (x : BwlSt) (u : Nat) (d : Int), m.epochMoved v = (Mach.shiftTimes (Mach.setNow { m with bwl := x } u) d).setNow (nextGrid 64 v) :=
    ⟨_, _, _, rfl⟩
  obtain ⟨hregs, hmem⟩ := Mach.shiftTimes_keeps (Mach.setNow { m with bwl := x } u) d
  rw [heq]
  exact ⟨hregs, hmem, Mach.now_setNow _ (nextGrid 64 v)⟩

theorem Mach.now_bwlState (m : Mach) (v : Nat) : (m.bwlState v).now = m.now :=
  ((Mach.BwlPart.refl (fun _ => True) m).state (fun _ _ => trivial) v).now

/-- What an epoch load leaves beside its own fields. -/
theorem Mach.epochMoved_shown (m : Mach) {v : Nat} (hv : nextGrid 64 v < 2 ^ 64) {n : Mach}
    (hn : n = ((m.epochMoved v).put F.BWL_STAT_EPOCHKEEP 0).bwlState 4) : n.get F.BWL_STAT_STATE = 4 ∧ n.get F.BWL_STAT_EPOCHKEEP = 0 ∧
    n.now = nextGrid 64 v ∧ ∀ a, n.byte a = m.byte a := by
  obtain ⟨hregs, hmem, hnow⟩ := m.epochMoved_keeps v
  rw [Nat.mod_eq_of_lt hv] at hnow
  generalize m.epochMoved v = k at *
  have hpart := ((Mach.BwlPart.refl (fun _ => True) k).put F.BWL_STAT_EPOCHKEEP 0 trivial).state (fun _ _ => trivial) 4
  rw [hn]
  refine ⟨Mach.get_bwlState _ (by decide), ?_, hpart.now.trans hnow, fun a => (hpart.within.2 a).trans ?_⟩
  · exact (Mach.get_bwlState_apart _ 4 (by decide)).trans (k.get_put_self F.BWL_STAT_EPOCHKEEP 0 (by decide) (by decide))
  · rw [Mach.byte, hmem]
    rfl

end

section
variable {s : State} {k : BitVec 10} {syms : List (BitVec 10)}

/-- A frame with the epoch reaches a follower that has its number: the machine in which the epoch load acts. -/
structure Mach.EpochFrame (m : Mach) (f : BwlFrame) (n : Mach) : Prop where
  part : m.BwlPart epochRegs n
  load : n.epochOfs f = (2 * f.dcable * ((f.hopSum + m.hopLen) % 2 ^ 16) + f.totlen) / (2 * f.totlen) + 80 * (m.bwlUnit - 1)
  state : n.get F.BWL_STAT_STATE = m.get F.BWL_STAT_STATE

theorem exec_bwlFrameReceive_epoch (hlive : s.m.live = true) (hfollow : s.m.bwlFollower = true) (hmute : s.m.bwl.mute = false)
    (hgood : bwlValid (frameOf (k :: syms)).1 (frameOf (k :: syms)).2 = true) {f : BwlFrame} (hf : f = parseBwl (frameOf (k :: syms)).1)
    (hkind : f.flags % 4 = 2) (hknown : s.m.bwl.known = true) :
    ∃ n, s.m.EpochFrame f n ∧ exec (.bwlFrameReceive k syms) s = .next { s with m := n.epochLoad f } := by
  have hexec := exec_bwlFrameReceive (k := k) (syms := syms) hlive
  have hheard := (Mach.BwlPart.refl epochRegs s.m).heard
  have hheardKnown : s.m.bwlHeard.bwl.known = true := hknown
  have hhop : s.m.bwlHeard.hopLen = s.m.hopLen := rfl
  have hunit : s.m.bwlHeard.get F.BWL_STAT_UNIT = s.m.bwlUnit := rfl
  have hstate : s.m.bwlHeard.get F.BWL_STAT_STATE = s.m.get F.BWL_STAT_STATE := rfl
  rw [Mach.bwlReceive_good hfollow hmute hgood hf _ rfl, Mach.bwlRestarted_of_none (Or.inl (by omega))] at hexec
  generalize s.m.bwlHeard = n at *
  have hpasses := n.passes hgood hf
  rw [if_neg (by rw [hheardKnown]; exact Bool.false_ne_true)] at hexec
  generalize ((n.bwlNumbered f).bwlNoted f).bwlForward f false = n' at *
  rw [show n'.bwlEnded f = n'.epochLoad f from if_pos hkind] at hexec
  refine ⟨n', ⟨hheard.trans (hpasses.part.mono fun a ha => ha.imp id Or.inl), ?_, hpasses.state.trans hstate⟩, hexec⟩
  rw [Mach.epochOfs, hpasses.hopSum, hhop, Mach.bwlUnit, hpasses.unit hheardKnown, hunit]

section
variable (hlive : s.m.live = true) (hfollow : s.m.bwlFollower = true) (hmute : s.m.bwl.mute = false)
  (hgood : bwlValid (frameOf (k :: syms)).1 (frameOf (k :: syms)).2 = true) {f : BwlFrame} (hf : f = parseBwl (frameOf (k :: syms)).1)
  (hkind : f.flags % 4 = 2) (hknown : s.m.bwl.known = true) (htotlen : f.totlen ≠ 0) {ofs v : Nat}
  (hofs : ofs = (2 * f.dcable * ((f.hopSum + s.m.hopLen) % 2 ^ 16) + f.totlen) / (2 * f.totlen) + 80 * (s.m.bwlUnit - 1))
  (hv : v = f.epoch + ofs)
include hlive hfollow hmute hgood hf hkind hknown htotlen hofs hv

theorem does_bwlFrameReceive_near (hlo : s.m.now ≤ v + 1) (hhi : v ≤ s.m.now + 1) : Does (.bwlFrameReceive k syms) s (fun t =>
    t.m.get F.BWL_STAT_STATE = 4 ∧ t.m.get F.BWL_STAT_EPOCHKEEP = 1 ∧ t.m.get F.BWL_OFS_OK = ofs % 2 ^ 16 ∧ t.m.now = s.m.now ∧ Keeps s t) := by
  obtain ⟨n, hframe, hexec⟩ := exec_bwlFrameReceive_epoch hlive hfollow hmute hgood hf hkind hknown
  have hload := hframe.load.trans hofs.symm
  rw [← hframe.part.now] at hlo hhi
  rw [(n.epochLoad_cases f htotlen rfl (hv.trans (by rw [hload]))).1 hlo hhi, hload] at hexec
  obtain ⟨hpart, hok, -⟩ := n.epochShown_spec f ofs
  generalize n.epochShown f ofs = n1 at *
  have hpart1 := hframe.part.trans hpart
  have hstep := (hpart1.put F.BWL_STAT_EPOCHKEEP 1 (Or.inl (Or.inl rfl))).state (fun _ => Or.inl) 4
  have hfour := (n1.put F.BWL_STAT_EPOCHKEEP 1).get_bwlState (v := 4) (by decide)
  have hkept := ((n1.put F.BWL_STAT_EPOCHKEEP 1).get_bwlState_apart 4 (g := F.BWL_STAT_EPOCHKEEP) (by decide)).trans
    (n1.get_put_self F.BWL_STAT_EPOCHKEEP 1 (by decide) (by decide))
  have hshown := ((n1.put F.BWL_STAT_EPOCHKEEP 1).get_bwlState_apart 4 (g := F.BWL_OFS_OK) (by decide)).trans ((n1.get_put_apart 1 (by decide)).trans hok)
  generalize (n1.put F.BWL_STAT_EPOCHKEEP 1).bwlState 4 = n2 at *
  exact ⟨_, hexec, hfour, hkept, hshown, hstep.now, hstep.within.keeps⟩

section
variable (hfar : v + 1 < s.m.now ∨ s.m.now + 1 < v)
include hfar

theorem does_bwlFrameReceive_moved (hidle : s.m.unitIdle = true) (hv64 : nextGrid 64 v < 2 ^ 64) : Does (.bwlFrameReceive k syms) s (fun t =>
    t.m.get F.BWL_STAT_STATE = 4 ∧ t.m.get F.BWL_STAT_EPOCHKEEP = 0 ∧ t.m.now = nextGrid 64 v ∧ Keeps s t) := by
  obtain ⟨n, hframe, hexec⟩ := exec_bwlFrameReceive_epoch hlive hfollow hmute hgood hf hkind hknown
  have hload := hframe.load.trans hofs.symm
  have hmoved := (n.epochLoad_cases f htotlen rfl (hv.trans (by rw [hload]))).2.1
  rw [hframe.part.now, hload] at hmoved
  obtain ⟨hpart, -, -⟩ := n.epochShown_spec f ofs
  generalize n.epochShown f ofs = n1 at *
  have hpart1 := hframe.part.trans hpart
  have hidle1 : n1.unitIdle = true := (Mach.unitIdle_congr fun a hlo hhi => hpart1.within.1 a (epochRegs_lt hlo hhi)).trans hidle
  rw [hmoved hfar hidle1] at hexec
  obtain ⟨hstate, hkeep, hnow, hbyte⟩ := n1.epochMoved_shown hv64 rfl
  generalize ((n1.epochMoved v).put F.BWL_STAT_EPOCHKEEP 0).bwlState 4 = n2 at *
  exact ⟨_, hexec, hstate, hkeep, hnow, fun a => (hbyte a).trans (hpart1.within.2 a), rfl, rfl, rfl⟩

theorem does_bwlFrameReceive_refused (hidle : s.m.unitIdle = false) : Does (.bwlFrameReceive k syms) s (fun t =>
    t.m.get F.BWL_STAT_EPOCHERR = 1 ∧ t.m.get F.BWL_STAT_STATE = s.m.get F.BWL_STAT_STATE ∧ t.m.now = s.m.now ∧ Keeps s t) := by
  obtain ⟨n, hframe, hexec⟩ := exec_bwlFrameReceive_epoch hlive hfollow hmute hgood hf hkind hknown
  have hload := hframe.load.trans hofs.symm
  have hrefused := (n.epochLoad_cases f htotlen rfl (hv.trans (by rw [hload]))).2.2
  rw [hframe.part.now, hload] at hrefused
  obtain ⟨hpart, -, hstat⟩ := n.epochShown_spec f ofs
  generalize n.epochShown f ofs = n1 at *
  have hpart1 := hframe.part.trans hpart
  have hidle1 : n1.unitIdle = false := (Mach.unitIdle_congr fun a hlo hhi => hpart1.within.1 a (epochRegs_lt hlo hhi)).trans hidle
  rw [hrefused hfar hidle1] at hexec
  have hstep := hpart1.flag (fun _ => Or.inl) (f := F.BWL_STAT_EPOCHERR) rfl
  exact ⟨_, hexec, n1.get_bwlFlag (by decide), (n1.get_bwlFlag_apart (by decide)).trans ((hstat _ rfl).trans hframe.state), hstep.now,
    hstep.within.keeps⟩

end

end

end

/-! ## A frame that comes back to the master -/

/-- The events of a returned frame, and those to be sent again (R909). -/
def Mach.bwlRepeat (m : Mach) (b : Nat) (e : BwlEvent × Nat) : Mach :=
  let m := m.bwlDue (b + 3000 * (2 - e.2)) e.1
  if e.2 = 0 then { m with bwl := { m.bwl with again := m.bwl.again ++ [e.1] } } else m

/-- The frame sent at `b` has come back valid (R895, R909, R911). -/
def Mach.bwlReturned (m : Mach) (b : Nat) (f : BwlFrame) : Mach :=
  let m := { m with bwl := { m.bwl with out := m.bwl.out.filter (fun o => o.1 != b) } }
  ((m.bwlShow F.BWL_STAT_FAULT f.fault).bwlShow F.BWL_STAT_SEEN f.seen).each (f.slots.filterMap id) (fun e m => m.bwlRepeat b e)

/-- `n` differs from `m` in the events that wait for delivery or for another frame. -/
def Mach.EventsOnly (m n : Mach) : Prop := ∃ d a, n = { m with bwl := { m.bwl with due := d, again := a } }

section
variable {m n : Mach} {f : BwlFrame} {syms : List (BitVec 10)} {b lost : Nat}

theorem Mach.eventsOnly_bwlRepeat (m : Mach) (b : Nat) (e : BwlEvent × Nat) : m.EventsOnly (m.bwlRepeat b e) := by
  obtain ⟨d, hd⟩ := m.dueOnly_bwlDue (b + 3000 * (2 - e.2)) e.1
  unfold Mach.bwlRepeat
  rw [hd]
  dsimp only
  split
  · exact ⟨_, _, rfl⟩
  · exact ⟨_, _, rfl⟩

theorem Mach.EventsOnly.trans {k : Mach} (h : m.EventsOnly n) (h' : n.EventsOnly k) : m.EventsOnly k := by
  obtain ⟨d, a, rfl⟩ := h
  obtain ⟨d', a', rfl⟩ := h'
  exact ⟨d', a', rfl⟩

theorem Mach.eventsOnly_each (l : List (BwlEvent × Nat)) (b : Nat) (m : Mach) : m.EventsOnly (m.each l (fun e m => m.bwlRepeat b e)) :=
  Mach.each_keeps (fun k => m.EventsOnly k) l _ (fun e k hk => hk.trans (k.eventsOnly_bwlRepeat b e)) m ⟨m.bwl.due, m.bwl.again, rfl⟩

/-- What a valid return leaves before the ring's state acts on it. -/
structure Mach.Returns (m : Mach) (b : Nat) (f : BwlFrame) (n : Mach) : Prop where
  part : m.BwlPart bwlStat n
  bwl : ∃ d a, n.bwl = { m.bwl with out := m.bwl.out.filter (fun o => o.1 != b), due := d, again := a }
  fault : n.get F.BWL_STAT_FAULT = f.fault
  seen : n.get F.BWL_STAT_SEEN = f.seen
  state : n.get F.BWL_STAT_STATE = m.get F.BWL_STAT_STATE

theorem Mach.returns (m : Mach) (b : Nat) (hfault : f.fault < 256) (hseen : f.seen < 256) : m.Returns b f (m.bwlReturned b f) := by
  unfold Mach.bwlReturned
  obtain ⟨k, hk⟩ : ∃ k : Mach, k = { m with bwl := { m.bwl with out := m.bwl.out.filter (fun o => o.1 != b) } } := ⟨_, rfl⟩
  have hpart : m.BwlPart bwlStat k := by
    rw [hk]
    exact (Mach.BwlPart.refl _ m).setBwl _
  have hbwl : k.bwl = { m.bwl with out := m.bwl.out.filter (fun o => o.1 != b) } := by rw [hk]
  have hget : k.get F.BWL_STAT_STATE = m.get F.BWL_STAT_STATE := by
    rw [hk]
    rfl
  dsimp only
  rw [← hk]
  have hpart1 := (hpart.shown (fun _ h => h) (f := F.BWL_STAT_FAULT) rfl f.fault).shown (fun _ h => h) (f := F.BWL_STAT_SEEN) rfl f.seen
  have hbwl1 : ((k.bwlShow F.BWL_STAT_FAULT f.fault).bwlShow F.BWL_STAT_SEEN f.seen).bwl = k.bwl := by rw [Mach.bwlShow_bwl, Mach.bwlShow_bwl]
  have hf := (Mach.get_bwlShow_apart (k.bwlShow F.BWL_STAT_FAULT f.fault) (f := F.BWL_STAT_SEEN) (g := F.BWL_STAT_FAULT) f.seen (by decide)).trans
    (k.get_bwlShow (by decide) hfault)
  have hs := (k.bwlShow F.BWL_STAT_FAULT f.fault).get_bwlShow (f := F.BWL_STAT_SEEN) (by decide) hseen
  have hstate := (Mach.get_bwlShow_apart (k.bwlShow F.BWL_STAT_FAULT f.fault) (f := F.BWL_STAT_SEEN) (g := F.BWL_STAT_STATE) f.seen (by decide)).trans
    (k.get_bwlShow_apart f.fault (by decide))
  generalize (k.bwlShow F.BWL_STAT_FAULT f.fault).bwlShow F.BWL_STAT_SEEN f.seen = k1 at *
  obtain ⟨d, a, heq⟩ := Mach.eventsOnly_each (f.slots.filterMap id) b k1
  rw [heq]
  refine ⟨hpart1.setBwl _, ⟨d, a, ?_⟩, hf, hs, hstate.trans hget⟩
  show ({ k1.bwl with due := d, again := a } : BwlSt) = _
  rw [hbwl1, hbwl]

theorem Mach.bwlReturn_none (m : Mach) (lost : Nat) (syms : List (BitVec 10)) (h : (missFrames lost m.bwl.out).find? (fun o => !o.2) = none) :
    m.bwlReturn lost syms = m := by
  unfold Mach.bwlReturn
  generalize frameOf syms = r
  obtain ⟨l, viol⟩ := r
  dsimp only
  rw [h]

theorem missFrames_zero (l : List (Nat × Bool)) : missFrames 0 l = l := by
  cases l <;> rfl

/-- The oldest `lost` frames outstanding have failed to come back. -/
def Mach.bwlMissed (m : Mach) (lost : Nat) : Mach :=
  { m with bwl := { m.bwl with out := missFrames lost m.bwl.out, rets := if lost = 0 then m.bwl.rets else [] } }

theorem Mach.bwlMissed_zero (m : Mach) : m.bwlMissed 0 = m := by
  unfold Mach.bwlMissed
  rw [missFrames_zero, if_pos rfl]

/-- A frame that comes back while `b` is the oldest one outstanding. -/
theorem Mach.bwlReturn_found (hmaster : m.bwlMaster = true) {n : Mach} (hn : n = m.bwlMissed lost) (h : n.bwl.out.find? (fun o => !o.2) = some (b, false))
    {l : List Byte} {viol : Bool} (hframe : frameOf syms = (l, viol)) (hf : f = parseBwl l) : m.bwlReturn lost syms =
    if bwlValid l viol = false then
      { n with bwl := { n.bwl with rets := [], out := n.bwl.out.map (fun o => if o.1 = b then (b, true) else o) } }
    else match (n.bwlReturned b f).get F.BWL_STAT_STATE with
      | 4 =>
        if fb l 1 % 4 = 0 then
          { n.bwlReturned b f with bwl := { (n.bwlReturned b f).bwl with
              pend := some (bits f.stop 1 0, bits f.stop 5 4, qminOf f.qmin[0], qminOf f.qmin[1], f.reefReq) } }
        else n.bwlReturned b f
      | 1 | 2 =>
        let m := (n.bwlReturned b f).bwlState 2
        let rets := (m.now - b) :: m.bwl.rets
        let rets := rets.take 64
        let m := { m with bwl := { m.bwl with rets := rets } }
        let lo := rets.foldl (fun (n x : Nat) => min n x) (m.now - b)
        let hi := rets.foldl (fun (n x : Nat) => max n x) 0
        if rets.length = 64 && hi ≤ lo + 1 then m.bwlMeasured f else m
      | _ => n.bwlReturned b f := by
  unfold Mach.bwlReturn
  rw [hframe]
  dsimp -zeta only
  extract_lets x m1
  have hm1 : n = m1 := hn
  rw [hm1] at h
  rw [h]
  clear_value m1
  subst hm1 hf
  dsimp -zeta only
  rw [if_neg (by rw [hmaster]; exact Bool.false_ne_true)]
  cases bwlValid l viol
  · rfl
  · rfl

/-- Frames that never come back are missed first (R895). -/
theorem Mach.bwlReturn_missed (hmaster : m.bwlMaster = true) (h : (missFrames lost m.bwl.out).find? (fun o => !o.2) = some (b, false)) :
    m.bwlReturn lost syms = (m.bwlMissed lost).bwlReturn 0 syms := by
  rw [Mach.bwlReturn_found hmaster rfl h rfl rfl, Mach.bwlReturn_found (m := m.bwlMissed lost) hmaster (m.bwlMissed lost).bwlMissed_zero.symm h rfl rfl]

section
variable (hmaster : m.bwlMaster = true) (hfind : m.bwl.out.find? (fun o => !o.2) = some (b, false))
include hmaster hfind

theorem Mach.bwlReturn_bad (hbad : bwlValid (frameOf syms).1 (frameOf syms).2 = false) : m.bwlReturn 0 syms =
    { m with bwl := { m.bwl with rets := [], out := m.bwl.out.map (fun o => if o.1 = b then (b, true) else o) } } :=
  (Mach.bwlReturn_found hmaster m.bwlMissed_zero.symm hfind rfl rfl).trans (if_pos hbad)

variable (hgood : bwlValid (frameOf syms).1 (frameOf syms).2 = true) (hf : f = parseBwl (frameOf syms).1) {k : Mach} (hk : k = m.bwlReturned b f)
include hgood hf hk

theorem Mach.bwlReturn_run (hstate : k.get F.BWL_STAT_STATE = 4) (hkind : f.flags % 4 = 0) : m.bwlReturn 0 syms =
    { k with bwl := { k.bwl with pend := some (bits f.stop 1 0, bits f.stop 5 4, qminOf f.qmin[0], qminOf f.qmin[1], f.reefReq) } } := by
  have hkind' : fb (frameOf syms).1 1 % 4 = 0 := by
    rw [hf] at hkind
    exact hkind
  rw [Mach.bwlReturn_found (l := (frameOf syms).1) (viol := (frameOf syms).2) hmaster m.bwlMissed_zero.symm hfind rfl hf,
    if_neg (by rw [hgood]; decide), ← hk, hstate]
  exact if_pos hkind'

/-- The ring's returns count while it forms (R895). -/
theorem Mach.bwlReturn_form (hstate : k.get F.BWL_STAT_STATE = 1 ∨ k.get F.BWL_STAT_STATE = 2) (hrets : k.bwl.rets.length < 63) :
    m.bwlReturn 0 syms = { k.bwlState 2 with bwl := { (k.bwlState 2).bwl with rets := ((k.bwlState 2).now - b) :: (k.bwlState 2).bwl.rets } } := by
  have hlen : ∀ x, (x :: (k.bwlState 2).bwl.rets).length < 64 := fun x => by
    rw [Mach.bwlState_bwl, List.length_cons]
    omega
  have htake : ∀ x, (x :: (k.bwlState 2).bwl.rets).take 64 = x :: (k.bwlState 2).bwl.rets := fun x => List.take_of_length_le (Nat.le_of_lt (hlen x))
  have hmany : ∀ (x : Nat) (c : Bool), ¬ (decide (((x :: (k.bwlState 2).bwl.rets).take 64).length = 64) && c) = true := fun x c hc => by
    have := hlen x
    rw [htake, Bool.and_eq_true, decide_eq_true_eq] at hc
    omega
  rw [Mach.bwlReturn_found (l := (frameOf syms).1) (viol := (frameOf syms).2) hmaster m.bwlMissed_zero.symm hfind rfl hf,
    if_neg (by rw [hgood]; decide), ← hk]
  rcases hstate with hstate | hstate
  · rw [hstate]
    exact (if_neg (hmany _ _)).trans (by rw [htake])
  · rw [hstate]
    exact (if_neg (hmany _ _)).trans (by rw [htake])

end

end

section
variable {s : State} {k : BitVec 10} {syms : List (BitVec 10)} {b : Nat}

theorem exec_bwlFrameReturn (hlive : s.m.live = true) (n : Nat) :
    exec (.bwlFrameReturn n k syms) s = .next { s with m := s.m.bwlReturn n (k :: syms) } := by
  change s.run (fun m => m.ifLive (fun m => m.bwlReturn n (k :: syms))) = _
  rw [State.run_eq, Mach.ifLive_of _ _ hlive]

theorem exec_bwlFrameReturn_none (hlive : s.m.live = true) (n : Nat) (h : (missFrames n s.m.bwl.out).find? (fun o => !o.2) = none) :
    exec (.bwlFrameReturn n k syms) s = .next s := by
  rw [exec_bwlFrameReturn hlive, Mach.bwlReturn_none _ _ _ h]

theorem exec_bwlFrameReturn_missed (hlive : s.m.live = true) {n : Nat} (hn : n ≠ 0) (hmaster : s.m.bwlMaster = true)
    (h : (missFrames n s.m.bwl.out).find? (fun o => !o.2) = some (b, false)) : exec (.bwlFrameReturn n k syms) s =
      exec (.bwlFrameReturn 0 k syms) { s with m := { s.m with bwl := { s.m.bwl with out := missFrames n s.m.bwl.out, rets := [] } } } := by
  have hmissed : (s.m.bwlMissed n) = { s.m with bwl := { s.m.bwl with out := missFrames n s.m.bwl.out, rets := [] } } := by
    rw [Mach.bwlMissed, if_neg hn]
  have hlive' : (s.m.bwlMissed n).live = true := hlive
  rw [exec_bwlFrameReturn hlive, Mach.bwlReturn_missed hmaster h, ← hmissed]
  exact (exec_bwlFrameReturn (s := { s with m := s.m.bwlMissed n }) hlive' 0).symm

section
variable (hlive : s.m.live = true) (hmaster : s.m.bwlMaster = true) (hfind : s.m.bwl.out.find? (fun o => !o.2) = some (b, false))
include hlive hmaster hfind

theorem does_bwlFrameReturn_bad (hbad : bwlValid (frameOf (k :: syms)).1 (frameOf (k :: syms)).2 = false) :
    Does (.bwlFrameReturn 0 k syms) s (fun t => t.m.bwl = { s.m.bwl with rets := [], out := t.m.bwl.out } ∧
      t.m.bwl.out = s.m.bwl.out.map (fun o => if o.1 = b then (b, true) else o) ∧ SameRegs (fun _ => False) s t ∧ Keeps s t) :=
  ⟨_, (exec_bwlFrameReturn hlive 0).trans (congrArg (fun n => Host.Outcome.next ({ s with m := n } : State)) (Mach.bwlReturn_bad hmaster hfind hbad)),
    rfl, rfl, fun _ _ => rfl, fun _ => rfl, rfl, rfl, rfl⟩

variable (hgood : bwlValid (frameOf (k :: syms)).1 (frameOf (k :: syms)).2 = true) {f : BwlFrame} (hf : f = parseBwl (frameOf (k :: syms)).1)
include hgood hf

theorem does_bwlFrameReturn_form (hstate : s.m.get F.BWL_STAT_STATE = 1 ∨ s.m.get F.BWL_STAT_STATE = 2) (hrets : s.m.bwl.rets.length < 63) :
    Does (.bwlFrameReturn 0 k syms) s (fun t => t.m.get F.BWL_STAT_STATE = 2 ∧ t.m.bwl.rets = (s.m.now - b) :: s.m.bwl.rets ∧
      t.m.bwl.out = s.m.bwl.out.filter (fun o => o.1 != b) ∧ t.m.get F.BWL_STAT_SEEN = f.seen ∧ SameRegs bwlStat s t ∧ Keeps s t) := by
  have hret := s.m.returns b (f := f) (by rw [hf]; exact byteOf_lt _ 84) (by rw [hf]; exact byteOf_lt _ 85)
  obtain ⟨d, a, hbwl⟩ := hret.bwl
  have heq := Mach.bwlReturn_form hmaster hfind hgood hf rfl (by rw [hret.state]; exact hstate) (by rw [hbwl]; exact hrets)
  have hexec := (exec_bwlFrameReturn (k := k) (syms := syms) hlive 0).trans (by rw [heq])
  generalize s.m.bwlReturned b f = n at *
  have hstep := hret.part.state (fun _ h => h) 2
  have htwo := n.get_bwlState (v := 2) (by decide)
  have hseen := (n.get_bwlState_apart 2 (g := F.BWL_STAT_SEEN) (by decide)).trans hret.seen
  have hbwl' := (n.bwlState_bwl 2).trans hbwl
  generalize n.bwlState 2 = n' at *
  refine ⟨_, hexec, htwo, ?_, ?_, hseen, (hstep.setBwl _).within.sameRegs, (hstep.setBwl _).within.keeps⟩
  · show (n'.now - b) :: n'.bwl.rets = _
    rw [hstep.now, hbwl']
  · show n'.bwl.out = _
    rw [hbwl']

theorem does_bwlFrameReturn_run (hstate : s.m.get F.BWL_STAT_STATE = 4) (hkind : f.flags % 4 = 0) :
    Does (.bwlFrameReturn 0 k syms) s (fun t =>
      t.m.bwl.pend = some (bits f.stop 1 0, bits f.stop 5 4, qminOf f.qmin[0], qminOf f.qmin[1], f.reefReq) ∧
      t.m.get F.BWL_STAT_FAULT = f.fault ∧ SameRegs bwlStat s t ∧ Keeps s t) := by
  have hret := s.m.returns b (f := f) (by rw [hf]; exact byteOf_lt _ 84) (by rw [hf]; exact byteOf_lt _ 85)
  have heq := Mach.bwlReturn_run hmaster hfind hgood hf rfl (by rw [hret.state]; exact hstate) hkind
  have hexec := (exec_bwlFrameReturn (k := k) (syms := syms) hlive 0).trans (by rw [heq])
  generalize s.m.bwlReturned b f = n at *
  exact ⟨_, hexec, rfl, hret.fault, (hret.part.setBwl _).within.sameRegs, (hret.part.setBwl _).within.keeps⟩

end

end

/-! ## Events -/

/-- The first of the earliest entries of a queue. -/
theorem foldl_earliest {α : Type} (p q : List (Nat × α)) (x : Nat × α) (hp : ∀ y ∈ p, x.1 < y.1) (hq : ∀ y ∈ q, x.1 ≤ y.1) :
    ∀ d rest, p ++ x :: q = d :: rest → rest.foldl (fun x y => if y.1 < x.1 then y else x) d = x := by
  have hstays : ∀ l : List (Nat × α), (∀ y ∈ l, x.1 ≤ y.1) → l.foldl (fun x y => if y.1 < x.1 then y else x) x = x := by
    intro l hl
    induction l with
    | nil => rfl
    | cons y l ih =>
      rw [List.foldl_cons, if_neg (Nat.not_lt.2 (hl y List.mem_cons_self))]
      exact ih fun z hz => hl z (List.mem_cons_of_mem _ hz)
  have hfinds : ∀ (l : List (Nat × α)) (d : Nat × α), (∀ y ∈ l, x.1 < y.1) → x.1 < d.1 →
      (l ++ x :: q).foldl (fun x y => if y.1 < x.1 then y else x) d = x := by
    intro l
    induction l with
    | nil =>
      intro d _ hd
      rw [List.nil_append, List.foldl_cons, if_pos hd]
      exact hstays q hq
    | cons y l ih =>
      intro d hl hd
      rw [List.cons_append, List.foldl_cons]
      refine ih _ (fun z hz => hl z (List.mem_cons_of_mem _ hz)) ?_
      split
      · exact hl y List.mem_cons_self
      · exact hd
  intro d rest heq
  cases p with
  | nil =>
    obtain ⟨rfl, rfl⟩ := List.cons.inj heq
    exact hstays q hq
  | cons y p =>
    obtain ⟨rfl, rfl⟩ := List.cons.inj heq
    exact hfinds p y (fun z hz => hp z (List.mem_cons_of_mem _ hz)) (hp y List.mem_cons_self)

theorem erase_earliest (p q : List (Nat × BwlEvent)) (x : Nat × BwlEvent) (hp : ∀ y ∈ p, x.1 < y.1) : (p ++ x :: q).erase x = p ++ q := by
  rw [List.erase_append_right _ fun h => Nat.lt_irrefl _ (hp x h), List.erase_cons_head]

/-- The machine at an event's boundary, with the event gone from the queue. -/
def Mach.atEvent (m : Mach) (b : Nat) (d : List (Nat × BwlEvent)) : Mach := Mach.runTo { m with bwl := { m.bwl with due := d } } b

section
variable {m : Mach} {b : Nat} {e : BwlEvent} {p q : List (Nat × BwlEvent)}

theorem Mach.bwlDeliver_eq (hdue : m.bwl.due = p ++ (b, e) :: q) (hp : ∀ y ∈ p, b < y.1) (hq : ∀ y ∈ q, b ≤ y.1) :
    m.bwlDeliver = match m.get (F.BWL_RX_ACT e.ch) with
      | 1 => (m.atEvent b (p ++ q)).fireSwt (Fin.ofNat 16 (m.get (F.BWL_RX_SWT e.ch))) ((m.atEvent b (p ++ q)).recentT e.time) false
      | 2 => (m.atEvent b (p ++ q)).msyncAct
      | _ => m.atEvent b (p ++ q) := by
  have hget : ∀ g, (m.atEvent b (p ++ q)).get g = m.get g := fun g => Mach.runTo_get _ b g
  unfold Mach.bwlDeliver
  split
  · next hnil =>
    rw [hdue] at hnil
    exact absurd hnil (by simp)
  · next d rest hcons =>
    rw [hdue] at hcons
    rw [foldl_earliest p q (b, e) hp hq d rest hcons]
    dsimp only
    rw [hdue, erase_earliest p q (b, e) hp]
    rw [← hget, ← hget]
    rfl

theorem Mach.atEvent_changes (m : Mach) (b : Nat) (d : List (Nat × BwlEvent)) : ∃ n w, m.atEvent b d =
    { m with sysTime := n, wraps := w, bwl := { m.bwl with due := d } } := by
  obtain ⟨n, w, h⟩ := Mach.runTo_changes { m with bwl := { m.bwl with due := d } } b
  exact ⟨n, w, h⟩

theorem Mach.atEvent_live (m : Mach) (b : Nat) (d : List (Nat × BwlEvent)) : (m.atEvent b d).live = m.live := by
  obtain ⟨n, w, h⟩ := m.atEvent_changes b d
  rw [h]
  rfl

/-- What a delivered event leaves that starts a page by software trigger `k` (R546, R910). -/
structure Mach.SwtDelivers (m n : Mach) : Prop where
  work : ∀ a, inCoreMem a = true → n.byte a = m.byte a
  now : n.now = m.now
  bwl : n.bwl = m.bwl
  rings : m.Rests 6 11 → n.Rung 6 11
  state : m.noSyncs → n.pageState = 3

theorem Mach.fireSwt_delivers (m : Mach) (k : Fin 16) (t : Nat) (hfirst : m.trg.swtAt[k] ≠ m.now / 4 + 1) (hstate : m.pageState = 2)
    (hsrc : m.get F.TRG_CTL_PSSRC = 16 + k.val) : m.SwtDelivers (m.fireSwt k t false) := by
  obtain ⟨x, hx⟩ : ∃ x : Mach, x = { m with trg := { m.trg with swtAt := m.trg.swtAt.set k (m.now / 4 + 1) } } := ⟨_, rfl⟩
  have heq : m.fireSwt k t false = x.fireSource (16 + k) t := by
    rw [hx]
    exact if_neg hfirst
  obtain ⟨z, hz⟩ : ∃ z : Mach, z = { x with trg := { x.trg with openAt := some x.now } } := ⟨_, rfl⟩
  have hxstate : x.pageState = 2 := by
    rw [hx]
    exact hstate
  have hxsrc : x.get F.TRG_CTL_PSSRC = 16 + k.val := by
    rw [hx]
    exact hsrc
  have hfire : x.fireSource (16 + k) t = (z.openPage t (16 + k) false).countEnd := by
    unfold Mach.fireSource
    extract_lets isEnd isStart
    have hstart : isStart := hxsrc
    rw [hxstate, if_neg (by simp), if_pos hstart, if_pos rfl, hz]
  have hopen := z.openPage_spec t (16 + k) false
  rw [heq, hfire]
  generalize z.openPage t (16 + k) false = n at *
  have hwork := n.pageWork_countEnd
  have hall := hopen.work.trans hwork
  have hfresh : z.noSyncs → n.countEnd.pageState = 3 := fun hns => by
    rw [n.countEnd_of_fresh (hopen.fresh hns)]
    exact hopen.state
  have hrings : z.Rests 6 11 → n.countEnd.Rung 6 11 := fun hr =>
    hwork.rung 11 ⟨hopen.work.up.1.trans hr.up.1, hopen.work.up.2.trans hr.up.2⟩ (hopen.rings hr)
  generalize n.countEnd = n' at *
  rw [hz, hx] at hall hfresh hrings
  exact ⟨hall.mem, hall.now, hall.bwl, fun hr => hrings ⟨hr.state, hr.late, hr.unset, hr.up⟩, hfresh⟩

end

section
variable {s : State} {b : Nat} {e : BwlEvent} {p q : List (Nat × BwlEvent)}

theorem exec_bwlEventDeliver (hlive : s.m.live = true) : exec .bwlEventDeliver s = .next { s with m := s.m.bwlDeliver } := by
  change s.run (fun m => m.ifLive (fun m => m.bwlDeliver)) = _
  rw [State.run_eq, Mach.ifLive_of _ _ hlive]

theorem exec_bwlEventDeliver_none (hlive : s.m.live = true) (hdue : s.m.bwl.due = []) : exec .bwlEventDeliver s = .next s := by
  have hnone : s.m.bwlDeliver = s.m := by
    unfold Mach.bwlDeliver
    rw [hdue]
  rw [exec_bwlEventDeliver hlive, hnone]

section
variable (hlive : s.m.live = true) (hdue : s.m.bwl.due = p ++ (b, e) :: q) (hp : ∀ y ∈ p, b < y.1) (hq : ∀ y ∈ q, b ≤ y.1)
include hlive hdue hp hq

theorem exec_bwlEventDeliver_ignored (hact : s.m.get (F.BWL_RX_ACT e.ch) = 0 ∨ s.m.get (F.BWL_RX_ACT e.ch) = 3) :
    exec .bwlEventDeliver s = .next { s with m := s.m.atEvent b (p ++ q) } := by
  have heq := Mach.bwlDeliver_eq hdue hp hq
  generalize s.m.atEvent b (p ++ q) = n at *
  rcases hact with hact | hact
  · rw [hact] at heq
    exact (exec_bwlEventDeliver hlive).trans (congrArg (fun n => Host.Outcome.next ({ s with m := n } : State)) heq)
  · rw [hact] at heq
    exact (exec_bwlEventDeliver hlive).trans (congrArg (fun n => Host.Outcome.next ({ s with m := n } : State)) heq)

theorem exec_bwlEventDeliver_msync (hact : s.m.get (F.BWL_RX_ACT e.ch) = 2) :
    exec .bwlEventDeliver s = exec .msyncEdge { s with m := s.m.atEvent b (p ++ q) } := by
  have heq := Mach.bwlDeliver_eq hdue hp hq
  have hlive' : (s.m.atEvent b (p ++ q)).live = true := (s.m.atEvent_live b _).trans hlive
  rw [hact] at heq
  generalize s.m.atEvent b (p ++ q) = n at *
  refine ((exec_bwlEventDeliver hlive).trans (congrArg (fun n => Host.Outcome.next ({ s with m := n } : State)) heq)).trans ?_
  change _ = State.run (fun m => m.ifLive (fun m => m.msyncAct)) { s with m := n }
  rw [State.run_eq, Mach.ifLive_of _ _ hlive']
  rfl

theorem does_bwlEventDeliver_swt (hact : s.m.get (F.BWL_RX_ACT e.ch) = 1) (hstate : s.m.pageState = 2) {k : Fin 16}
    (hk : k = Fin.ofNat 16 (s.m.get (F.BWL_RX_SWT e.ch))) (hsrc : s.m.get F.TRG_CTL_PSSRC = 16 + k.val)
    (hfirst : s.m.trg.swtAt[k] ≠ (s.m.atEvent b (p ++ q)).now / 4 + 1) : Does .bwlEventDeliver s (fun t =>
      (s.m.noSyncs → t.m.pageState = 3) ∧ Pulsed s t 6 11 ∧ t.m.bwl.due = p ++ q ∧ SameCoreMem s t ∧ SameStores s t) := by
  obtain ⟨-, hreset, hthermal⟩ := s.m.live_iff.1 hlive
  have heq := Mach.bwlDeliver_eq hdue hp hq
  rw [hact, ← hk] at heq
  obtain ⟨x, w, hat⟩ := s.m.atEvent_changes b (p ++ q)
  generalize s.m.atEvent b (p ++ q) = n at *
  have hdel := n.fireSwt_delivers k (n.recentT e.time) (by rw [hat] at hfirst ⊢; exact hfirst) (by rw [hat]; exact hstate) (by rw [hat]; exact hsrc)
  have hexec := (exec_bwlEventDeliver hlive).trans (congrArg (fun n => Host.Outcome.next ({ s with m := n } : State)) heq)
  have hrings := hdel.rings
  have hpage := hdel.state
  generalize n.fireSwt k (n.recentT e.time) false = n' at *
  refine ⟨_, hexec, fun hns => hpage ?_, ?_, ?_, fun a ha => (hdel.work a ha).trans ?_, rfl, rfl, rfl⟩
  · rw [hat]
    exact hns
  · exact pulsed_of_rung (m := n) (by rw [hat]; rfl) (by rw [hat]; rfl) (Mach.tickNo_of_now hdel.now)
      (by rw [hat]; exact ⟨hreset, hthermal⟩) hrings
  · show n'.bwl.due = _
    rw [hdel.bwl, hat]
  · rw [hat]
    rfl

end

end

/-! ## A lost ring -/

/-- What a fault of an axis leaves: its STATE and CAUSE, and what it rings (R623). -/
structure Mach.AxisFaults (a : Fin 2) (cause : Nat) (m n : Mach) : Prop where
  within : m.Within (fun k => k = F.HAL_AX_STAT_reg a ∨ eventRegs 6 k) n
  now : n.now = m.now
  lines : m.SameLines n 7
  state : n.get (F.HAL_AX_STAT_STATE a) = 6
  cause : n.get (F.HAL_AX_STAT_CAUSE a) = cause % 8

section
variable {m n : Mach} {a : Fin 2}

theorem Mach.axFault_of_rest (m : Mach) (a : Fin 2) (cause : Nat) (hrest : (m.axis a).moving = false) : ∃ x : AxisSt,
    m.axFault a cause = m.settled a x 6 cause := by
  unfold Mach.axFault
  extract_lets m1 x1 p m2
  have hx1 : x1 = { m.axis a with nextRef := m.lnext a } := m.axis_setAxis_self a _
  have hm1 : x1.moving = false := by rw [hx1]; exact hrest
  rw [if_neg (by rw [hm1]; exact Bool.false_ne_true)]
  unfold Mach.axFaultAt
  extract_lets was m3 m4
  have hwas : was = false := hm1
  rw [if_neg (by rw [hwas]; exact Bool.false_ne_true)]
  exact ⟨_, congrArg (fun k : Mach => (k.setAxState a 6).setAxCause a cause) (m.setAxis_setAxis a _ _)⟩

theorem Mach.settled_faults (m : Mach) (a : Fin 2) (x : AxisSt) (cause : Nat) : Mach.AxisFaults a cause m (m.settled a x 6 cause) where
  within := m.settled_within a x 6 cause _ (Or.inl rfl)
  now := by simp [Mach.settled, Mach.setAxState, Mach.setAxCause, Mach.setAxis, Mach.now]
  lines := by
    have hstat : F.HAL_AX_STAT_reg a < 0x400000 := by
      simp only [F.HAL_AX_STAT_reg]
      omega
    have haxis : m.SameLines (m.setAxis a x) 7 := ⟨rfl, rfl, rfl, rfl, rfl, rfl⟩
    exact (haxis.trans (Mach.sameLines_put _ (F.HAL_AX_STAT_STATE a) 6 7 hstat)).trans (Mach.sameLines_put _ (F.HAL_AX_STAT_CAUSE a) cause 7 hstat)
  state := m.settled_state a x 6 cause
  cause := m.settled_cause a x 6 cause

theorem Mach.AxisFaults.pulse {cause : Nat} (h : Mach.AxisFaults a cause m n) : Mach.AxisFaults a cause m (n.pulse 6 9) where
  within := h.within.pulse 6 9 fun _ => Or.inr
  now := (n.pulse_now 6 9).trans h.now
  lines := h.lines.trans (sameLines_pulse_ne n 9 (by decide))
  state := (n.get_pulse 6 9 (by
    simp only [F.HAL_AX_STAT_STATE, F.HAL_AX_STAT_reg]
    omega)).trans h.state
  cause := (n.get_pulse 6 9 (by
    simp only [F.HAL_AX_STAT_CAUSE, F.HAL_AX_STAT_reg]
    omega)).trans h.cause

theorem Mach.axisFaults (m : Mach) (a : Fin 2) (cause : Nat) : Mach.AxisFaults a cause m (m.axFault a cause) := by
  cases hmoving : (m.axis a).moving with
  | true =>
    obtain ⟨x, heq, -⟩ := m.axFault_of_moving a cause hmoving
    rw [heq]
    exact (m.settled_faults a x cause).pulse
  | false =>
    obtain ⟨x, heq⟩ := m.axFault_of_rest a cause hmoving
    rw [heq]
    exact m.settled_faults a x cause

theorem Mach.lostShown_rings (m : Mach) (hstate : m.get F.BWL_STAT_STATE ≠ 5) (hup : m.inReset = false ∧ m.pwr.thermal = false) (h : m.Rests 7 15) :
    m.lostShown.Rung 7 15 := by
  have hrung := m.bwlState_rings (v := 5) hstate h
  have hpart := (Mach.BwlPart.refl bwlStat m).state (fun _ h => h) 5
  unfold Mach.lostShown Mach.bwlFlag
  generalize m.bwlState 5 = k at *
  have hput := k.sameLines_put F.BWL_STAT_LOST 1 7 (by decide)
  split
  · exact hput.rung hrung
  · exact (hput.rung hrung).pulse 7 15 ⟨hput.up.1.trans (hpart.up.1.trans hup.1), hput.up.2.trans (hpart.up.2.trans hup.2)⟩ (by decide)

/-- A follower that mirrors the axes has lost its ring (R913). -/
theorem Mach.followerLost_mirrored (h : m.get F.BWL_CTL_MIRROR = 1) : m.followerLost = (m.lostShown.axFault 0 5).axFault 1 5 := by
  have hmirror : m.lostShown.is F.BWL_CTL_MIRROR = true := by
    rw [Mach.is, m.lostShown_spec.2.2.2.2 _ (by decide) (by decide), h]
    rfl
  exact if_pos hmirror

end

section
variable {s : State}

theorem exec_bwlLost (hlive : s.m.live = true) : exec .bwlLost s = .next { s with m := s.m.bwlLost } := by
  change s.run (fun m => m.ifLive (fun m => m.bwlLost)) = _
  rw [State.run_eq, Mach.ifLive_of _ _ hlive]

theorem exec_bwlLost_none (hlive : s.m.live = true) (hstate : s.m.get F.BWL_STAT_STATE ≠ 4) : exec .bwlLost s = .next s := by
  have hnone : s.m.bwlLost = s.m := if_pos (by simpa using hstate)
  rw [exec_bwlLost hlive, hnone]

theorem does_bwlLost_follower (hlive : s.m.live = true) (hstate : s.m.get F.BWL_STAT_STATE = 4) (hfollow : s.m.bwlFollower = true) :
    Does .bwlLost s (fun t => t.m.now = (s.m.runTo (s.m.bwl.lastK + 3000)).now ∧ t.m.get F.BWL_STAT_STATE = 5 ∧
      t.m.get F.BWL_STAT_LOST = 1 ∧ Pulsed s t 7 15 ∧ Keeps s t ∧ ∀ a : Fin 2,
        (s.m.get F.BWL_CTL_MIRROR = 1 → t.m.get (F.HAL_AX_STAT_STATE a) = 6 ∧ t.m.get (F.HAL_AX_STAT_CAUSE a) = 5) ∧
        (s.m.get F.BWL_CTL_MIRROR = 0 → t.m.axis a = s.m.axis a)) := by
  obtain ⟨-, hreset, hthermal⟩ := s.m.live_iff.1 hlive
  have heq : s.m.bwlLost = (s.m.runTo (s.m.bwl.lastK + 3000)).followerLost :=
    (if_neg (by simp [hstate])).trans (if_pos hfollow)
  have hexec := (exec_bwlLost hlive).trans (congrArg (fun n => Host.Outcome.next ({ s with m := n } : State)) heq)
  have hrun := s.m.runTo_changes (s.m.bwl.lastK + 3000)
  have hkeep := s.m.within_runTo (fun _ => True) (s.m.bwl.lastK + 3000)
  have hget := s.m.runTo_get (s.m.bwl.lastK + 3000)
  generalize s.m.runTo (s.m.bwl.lastK + 3000) = m at *
  obtain ⟨hpart, hfive, hlost, -, hshown⟩ := m.lostShown_spec
  have hup : m.inReset = false ∧ m.pwr.thermal = false := by
    obtain ⟨n, w, rfl⟩ := hrun
    exact ⟨hreset, hthermal⟩
  have hrings := m.lostShown_rings (by rw [hget, hstate]; decide) hup
  have hlt : s.m.get F.BWL_CTL_MIRROR < 2 := s.m.get_lt F.BWL_CTL_MIRROR
  obtain hopen | hmirror : s.m.get F.BWL_CTL_MIRROR = 0 ∨ s.m.get F.BWL_CTL_MIRROR = 1 := by omega
  · rw [Mach.followerLost_open ((hget _).trans hopen)] at hexec
    generalize m.lostShown = n at *
    refine ⟨_, hexec, hpart.now, hfive, hlost, pulsed_of_bwl hrun hlive hpart.now hrings,
      (hkeep.trans (hpart.within.mono fun _ _ => trivial)).keeps, fun a => ⟨fun h => absurd (hopen.symm.trans h) (by decide), fun _ => ?_⟩⟩
    obtain ⟨r, x, b, w, c, hr⟩ := hpart.rest
    obtain ⟨y, z, rfl⟩ := hrun
    show n.axis a = _
    rw [hr]
    rfl
  · rw [Mach.followerLost_mirrored ((hget _).trans hmirror)] at hexec
    generalize m.lostShown = n at *
    have h0 := n.axisFaults 0 5
    generalize n.axFault 0 5 = n0 at *
    have h1 := n0.axisFaults 1 5
    generalize n0.axFault 1 5 = n1 at *
    have hnow : n1.now = m.now := h1.now.trans (h0.now.trans hpart.now)
    have hall := (hkeep.trans (hpart.within.mono fun _ _ => trivial)).trans ((h0.within.mono fun _ _ => trivial).trans (h1.within.mono fun _ _ => trivial))
    have hstat : ∀ g : Fld, g.addr = F.BWL_STAT_reg → n1.get g = n.get g := by
      intro g hg
      have hne : ∀ a : Fin 2, ¬ (g.addr = F.HAL_AX_STAT_reg a ∨ eventRegs 6 g.addr) := by
        intro a
        rw [hg]
        rintro (h | h)
        · simp only [F.BWL_STAT_reg, F.HAL_AX_STAT_reg] at h
          omega
        · exact not_eventRegs_of_lt (by decide) h
      exact (h1.within.get g (hne 1)).trans (h0.within.get g (hne 0))
    have hzero : ∀ g : Fld, g.addr = F.HAL_AX_STAT_reg (0 : Fin 2) → n1.get g = n0.get g := by
      intro g hg
      refine h1.within.get g ?_
      rw [hg]
      rintro (h | h)
      · exact absurd h (by decide)
      · exact not_eventRegs_of_lt (by decide) h
    refine ⟨_, hexec, hnow, (hstat _ rfl).trans hfive, (hstat _ rfl).trans hlost,
      pulsed_of_bwl hrun hlive hnow fun hr => h1.lines.rung (h0.lines.rung (hrings hr)), hall.keeps, fun a => ⟨fun _ => ?_,
      fun h => absurd (hmirror.symm.trans h) (by decide)⟩⟩
    match a with
    | 0 => exact ⟨(hzero _ rfl).trans h0.state, (hzero _ rfl).trans h0.cause⟩
    | 1 => exact ⟨h1.state, h1.cause⟩

theorem does_bwlLost_master (hlive : s.m.live = true) (hstate : s.m.get F.BWL_STAT_STATE = 4) (hmaster : s.m.bwlMaster = true) {b : Nat} {k : Bool}
    {rest : List (Nat × Bool)} (hout : s.m.bwl.out = (b, k) :: rest) {n : Nat} (hn : n = if s.m.get F.BWL_CTL_MIRROR = 1 then 3 else 0) :
    Does .bwlLost s (fun t => t.m.now = (s.m.runTo (b + 6000)).now ∧ t.m.get F.BWL_STAT_STATE = 5 ∧ t.m.bwl.stop = n ∧ t.m.bwl.notReady = n ∧
      t.m.bwl.rets = [] ∧ t.m.bwl.out = [] ∧ Pulsed s t 7 15 ∧ SameRegs bwlStat s t ∧ Keeps s t) := by
  have hfollow : s.m.bwlFollower = false := by
    simp only [Mach.bwlMaster, Bool.and_eq_true, decide_eq_true_eq] at hmaster
    rw [Mach.bwlFollower, hmaster.2]
    simp
  have heq : s.m.bwlLost = (s.m.runTo (b + 6000)).masterLost := by
    unfold Mach.bwlLost
    rw [if_neg (by simp [hstate]), if_neg (by rw [hfollow]; exact Bool.false_ne_true), hout]
  have hexec := (exec_bwlLost hlive).trans (congrArg (fun n => Host.Outcome.next ({ s with m := n } : State)) heq)
  have hrun := s.m.runTo_changes (b + 6000)
  have hkeep := s.m.within_runTo bwlStat (b + 6000)
  have hget := s.m.runTo_get (b + 6000)
  generalize s.m.runTo (b + 6000) = m at *
  have hpart := (Mach.BwlPart.refl bwlStat m).state (fun _ h => h) 5
  have hfive := m.get_bwlState (v := 5) (by decide)
  have hrings := m.bwlState_rings (v := 5) (by rw [hget, hstate]; decide)
  have hmirror : (if (m.bwlState 5).is F.BWL_CTL_MIRROR then 3 else 0) = n := by
    have hflag : (m.bwlState 5).is F.BWL_CTL_MIRROR = true ↔ s.m.get F.BWL_CTL_MIRROR = 1 := by
      have hlt : s.m.get F.BWL_CTL_MIRROR < 2 := s.m.get_lt F.BWL_CTL_MIRROR
      rw [Mach.is, m.get_bwlState_apart 5 (by decide), hget]
      simp
      omega
    rw [hn]
    by_cases h : s.m.get F.BWL_CTL_MIRROR = 1
    · rw [if_pos h, if_pos (hflag.2 h)]
    · rw [if_neg h, if_neg fun h' => h (hflag.1 h')]
  unfold Mach.masterLost at hexec
  generalize m.bwlState 5 = m' at *
  refine ⟨_, hexec, hpart.now, hfive, hmirror, hmirror, rfl, rfl, pulsed_of_bwl hrun hlive hpart.now fun hr => (m'.sameLines_setBwl _ 7).rung (hrings hr),
    (hkeep.trans (hpart.setBwl _).within).sameRegs, (hkeep.trans (hpart.setBwl _).within).keeps⟩

end

/-! ## The obligation -/

theorem BwlFrame.epoch_add (f : BwlFrame) (ofs : Nat) :
    leNat ((f.body.drop 10).take 2) * 2 ^ 48 + leNat (f.body.take 6) + ofs = f.epoch + ofs := by rw [BwlFrame.epoch]

/-- Settles O58: EN and REFORM, a follower's frames by their kind, the master's returns, the earliest event, and a lost ring. -/
theorem bowline : Obligations.Bowline := by
  intro s hlive x state stat
  refine ⟨does_bwlEn_on hlive, does_bwlEn_off hlive, exec_bwlReform_none hlive, does_bwlReform hlive, fun k syms => ?_,
    exec_bwlEventDeliver_none hlive, fun b e p q hdue hp hq => ?_, exec_bwlLost_none hlive, does_bwlLost_follower hlive,
    fun b k rest hstate hmaster hout => does_bwlLost_master hlive hstate hmaster hout rfl⟩
  · intro l viol f forwards
    refine ⟨exec_bwlFrameReceive_deaf hlive, fun hfollow hmute => ⟨fun hbad => ⟨?_, ?_⟩, fun hgood => ⟨?_, ?_, ?_, fun hkind hknown => ?_⟩⟩,
      exec_bwlFrameReturn_none hlive, fun n b hn hmaster => exec_bwlFrameReturn_missed hlive hn hmaster,
      fun b hmaster hfind => ⟨?_, fun hgood hstate hrets => ?_, fun hgood hstate hkind => ?_⟩⟩
    · exact does_bwlFrameReceive_bad hlive hfollow hmute hbad
    · exact does_bwlFrameReceive_bad_run hlive hfollow hmute hbad
    · exact does_bwlFrameReceive_number hlive hfollow hmute hgood rfl
    · exact fun _ => does_bwlFrameReceive_full hlive hfollow hmute hgood rfl
    · exact does_bwlFrameReceive_run hlive hfollow hmute hgood rfl
    · intro dcable totlen ofs v htotlen
      have hv : v = f.epoch + ofs := f.epoch_add ofs
      refine ⟨does_bwlFrameReceive_near hlive hfollow hmute hgood rfl hkind hknown htotlen rfl hv, fun hfar => ⟨?_, ?_⟩⟩
      · exact does_bwlFrameReceive_moved hlive hfollow hmute hgood rfl hkind hknown htotlen rfl hv hfar
      · exact does_bwlFrameReceive_refused hlive hfollow hmute hgood rfl hkind hknown htotlen rfl hv hfar
    · exact does_bwlFrameReturn_bad hlive hmaster hfind
    · exact does_bwlFrameReturn_form hlive hmaster hfind hgood rfl hstate hrets
    · exact does_bwlFrameReturn_run hlive hmaster hfind hgood rfl hstate hkind
  · exact ⟨exec_bwlEventDeliver_ignored hlive hdue hp hq, exec_bwlEventDeliver_msync hlive hdue hp hq,
      fun hact hstate hsrc hfirst => does_bwlEventDeliver_swt hlive hdue hp hq hact hstate rfl hsrc hfirst⟩

end Sys2Proof.Machine
end
section
/-!
Settles LampFrames: frames, shaping, short test and cascade of a lamp (R433, R437-R443, R455, R464-R468, R475-R477).
-/

namespace Sys2Proof.Machine

/-! ## What a lamp's step changes -/

section
variable {i : Fin 6} {m n : Mach}

theorem Mach.HeadStep.putField (h : m.HeadStep i n) (f : Nat → Fld) (v : Nat)
    (hf : ∀ j : Fin 6, 0x100000 + 0x10000 * j.val ≤ (f j).addr ∧ (f j).addr < 0x110000 + 0x10000 * j.val) : m.HeadStep i (n.put (f i) v) :=
  h.put (f i) v (hf i).1 (hf i).2

theorem Mach.HeadStep.setIll (h : m.HeadStep i n) (x : IllSt) : m.HeadStep i (n.setIll i x) := h.setHead _

theorem Mach.HeadStep.now (h : m.HeadStep i n) : n.now = m.now := by
  obtain ⟨r, x, b, y, hr⟩ := h.rest
  rw [hr]
  rfl

theorem Mach.HeadStep.act (h : m.HeadStep i n) (f : Fld) : n.act f = m.act f := by
  obtain ⟨r, x, b, y, hr⟩ := h.rest
  rw [hr]
  rfl

theorem Mach.HeadStep.casTB (h : m.HeadStep i n) : n.casTB i = m.casTB i := congrArg casTBOf (h.act _)

theorem Mach.put_head (m : Mach) (f : Fld) (v : Nat) (j : Fin 6) : (m.put f v).head j = m.head j := by
  rw [Mach.head, Mach.put_heads]
  rfl

theorem Mach.setIll_head (m : Mach) (i : Fin 6) (x : IllSt) : (m.setIll i x).head i = { m.head i with ill := x } := m.head_setHead_self i _

theorem Mach.setIll_get (m : Mach) (x : IllSt) (f : Fld) : (m.setIll i x).get f = m.get f := rfl

theorem Mach.runTo_head (m : Mach) (b : Nat) (j : Fin 6) : (m.runTo b).head j = m.head j := by
  obtain ⟨n, w, h⟩ := m.runTo_changes b
  rw [h]
  rfl

theorem Mach.runTo_act (m : Mach) (b : Nat) (f : Fld) : (m.runTo b).act f = m.act f := by
  obtain ⟨n, w, h⟩ := m.runTo_changes b
  rw [h]
  rfl

/-- What a lamp's step from some beat leaves alone. -/
theorem Mach.HeadStep.frame {s : State} {b : Nat} (h : (s.m.runTo b).HeadStep i n) :
    OtherHeads i s { s with m := n } ∧ Keeps s { s with m := n } := by
  refine ⟨fun k hk => (h.others k hk).trans (s.m.runTo_head b k), fun a => (h.within.2 a).trans ?_, rfl, rfl, rfl⟩
  exact (s.m.within_runTo (fun _ => True) b).2 a

/-- A line of the head's core that a lamp's step pulses has pulsed. -/
theorem pulsed_of_head {s : State} {b e : Nat} (hlive : s.m.live = true) (hnow : n.now = (s.m.runTo b).now)
    (h : (s.m.runTo b).Rests (coreOf i) e → n.Rung (coreOf i) e) : Pulsed s { s with m := n } (coreOf i) e := by
  obtain ⟨-, hreset, hthermal⟩ := s.m.live_iff.1 hlive
  obtain ⟨y, w, hrun⟩ := s.m.runTo_changes b
  rw [hrun] at hnow h
  exact pulsed_of_rung (m := { s.m with sysTime := y, wraps := w }) rfl rfl (Mach.tickNo_of_now hnow) ⟨hreset, hthermal⟩ h

/-! ## Flags -/

theorem Mach.get_put_head {f g : Nat → Fld} (v : Nat) (h : ∀ j : Fin 6, (f j).apart (g j) = true) : (m.put (f i) v).get (g i) = m.get (g i) :=
  m.get_put_apart v (h i)

theorem Mach.HeadStep.illFlag (h : m.HeadStep i n) (f : Nat → Fld)
    (hf : ∀ j : Fin 6, 0x100000 + 0x10000 * j.val ≤ (f j).addr ∧ (f j).addr < 0x110000 + 0x10000 * j.val) : m.HeadStep i (n.illFlag i (f i)) := by
  unfold Mach.illFlag
  split
  · exact h.putField f 1 hf
  · exact (h.putField f 1 hf).pulseHead 7

theorem Mach.illFlag_head (m : Mach) (f : Fld) (j : Fin 6) : (m.illFlag i f).head j = m.head j := by
  unfold Mach.illFlag
  split
  · exact m.put_head f 1 j
  · exact (Mach.pulseHead_head _ i j 7).trans (m.put_head f 1 j)

theorem Mach.illFlag_reg (m : Mach) (f : Fld) {a : Nat} (ha : a < 0x400000) : (m.illFlag i f).reg a = (m.put f 1).reg a := by
  unfold Mach.illFlag
  split
  · rfl
  · exact Mach.pulseHead_reg _ i 7 a ha

theorem Mach.illFlag_get (m : Mach) (f g : Fld) (hg : g.addr < 0x400000) : (m.illFlag i f).get g = (m.put f 1).get g := by
  rw [Mach.get, m.illFlag_reg f hg]
  rfl

/-- A flag that has just been set reads 1. -/
theorem Mach.illFlag_set (m : Mach) (f : Nat → Fld) (h : ∀ j : Fin 6, (f j).lo = (f j).hi ∧ (f j).hi < 32 ∧ (f j).addr < 0x400000) :
    (m.illFlag i (f i)).get (f i) = 1 := by
  obtain ⟨hbit, h32, hlt⟩ := h i
  rw [m.illFlag_get _ _ hlt, m.get_put_self (f i) 1 hbit.le h32, hbit, Nat.add_sub_cancel_left]
  rfl

theorem Mach.illFlag_apart (m : Mach) {f g : Nat → Fld} (h : ∀ j : Fin 6, (f j).apart (g j) = true) :
    (m.illFlag i (f i)).get (g i) = m.get (g i) :=
  (m.illFlag_get _ _ (Fld.apart_lt (h i))).trans (m.get_put_apart 1 (h i))

end

/-! ## Writes one after another -/

section
variable {m : Mach}

/-- Writes to fields of different registers, each of what does not depend on the registers written, leave each its value. -/
theorem Mach.each_put_get {p : Nat → Prop} (A : Nat → Fld) (v : Nat → Mach → Nat) (hdis : ∀ x y, (A x).addr = (A y).addr → x = y)
    (hwf : ∀ x, (A x).lo ≤ (A x).hi ∧ (A x).hi < 32) (l : List Nat) (hp : ∀ x ∈ l, p (A x).addr)
    (hv : ∀ x ∈ l, ∀ n, m.Within p n → v x n = v x m) :
    m.Within p (m.each l fun x n => n.put (A x) (v x n)) ∧
    ∀ k ∈ l, (m.each l fun x n => n.put (A x) (v x n)).get (A k) = v k m % 2 ^ ((A k).hi + 1 - (A k).lo) := by
  induction l using List.reverseRecOn with
  | nil => exact ⟨Mach.Within.refl _ m, fun k hk => absurd hk List.not_mem_nil⟩
  | append_singleton l x ih =>
    obtain ⟨hwithin, hget⟩ := ih (fun y hy => hp y (List.mem_append_left _ hy)) fun y hy => hv y (List.mem_append_left _ hy)
    have hsnoc : (m.each (l ++ [x]) fun x n => n.put (A x) (v x n)) = (m.each l fun x n => n.put (A x) (v x n)).put (A x)
      (v x (m.each l fun x n => n.put (A x) (v x n))) := List.foldl_concat _ _ _ _
    rw [hsnoc]
    obtain ⟨n, hn⟩ : ∃ n, n = m.each l fun x n => n.put (A x) (v x n) := ⟨_, rfl⟩
    rw [← hn] at hwithin hget ⊢
    have hmem : x ∈ l ++ [x] := List.mem_append_right _ (List.mem_singleton.2 rfl)
    refine ⟨hwithin.put _ _ (hp x hmem), fun k hk => ?_⟩
    by_cases hkx : k = x
    · subst hkx
      rw [n.get_put_self _ _ (hwf k).1 (hwf k).2, hv k hmem n hwithin]
    · rw [n.get_put_ne _ _ _ fun he => hkx (hdis k x he)]
      exact hget k ((List.mem_append.1 hk).resolve_right fun h => hkx (List.mem_singleton.1 h))

/-- What writes to fields of a head's registers leave alone. -/
theorem Mach.HeadStep.each {i : Fin 6} {n : Mach} (h : m.HeadStep i n) (A : Nat → Fld) (v : Nat → Mach → Nat) (l : List Nat)
    (hl : ∀ x ∈ l, 0x100000 + 0x10000 * i.val ≤ (A x).addr ∧ (A x).addr < 0x110000 + 0x10000 * i.val) :
    m.HeadStep i (n.each l fun x n => n.put (A x) (v x n)) := by
  induction l generalizing n with
  | nil => exact h
  | cons x l ih =>
    obtain ⟨hlo, hhi⟩ := hl x List.mem_cons_self
    exact ih (h.put (A x) (v x n) hlo hhi) fun y hy => hl y (List.mem_cons_of_mem _ hy)

theorem Mach.each_put_head (m : Mach) (A : Nat → Fld) (v : Nat → Mach → Nat) (l : List Nat) (j : Fin 6) :
    (m.each l fun x n => n.put (A x) (v x n)).head j = m.head j :=
  Mach.each_keeps (fun n => n.head j = m.head j) l _ (fun x n hn => (n.put_head (A x) _ j).trans hn) m rfl

theorem Mach.each_put_lines (m : Mach) (A : Nat → Fld) (v : Nat → Mach → Nat) (l : List Nat) (c : Fin 8) (hA : ∀ x ∈ l, (A x).addr < 0x400000) :
    m.SameLines (m.each l fun x n => n.put (A x) (v x n)) c := by
  induction l generalizing m with
  | nil => exact Mach.SameLines.refl m c
  | cons x l ih =>
    exact (m.sameLines_put (A x) (v x m) c (hA x List.mem_cons_self)).trans (ih _ fun y hy => hA y (List.mem_cons_of_mem _ hy))

end

/-! ## Arming, cancelling and writing a frame -/

section
variable {s : State} {h : Fin 6}

theorem Mach.get_put_lamp (m : Mach) (f : Nat → Fld) (v : Nat) (hf : ∀ j : Fin 6, (f j).lo ≤ (f j).hi ∧ (f j).hi < 32) :
    (m.put (f h) v).get (f h) = v % 2 ^ ((f h).hi + 1 - (f h).lo) := m.get_put_self _ v (hf h).1 (hf h).2

/-- A field that holds the value written to it. -/
theorem Mach.get_put_fits (m : Mach) (f : Nat → Fld) (v : Nat)
    (hf : ∀ j : Fin 6, ((f j).lo ≤ (f j).hi ∧ (f j).hi < 32) ∧ v < 2 ^ ((f j).hi + 1 - (f j).lo)) : (m.put (f h) v).get (f h) = v :=
  (m.get_put_lamp f v fun j => (hf j).1).trans (Nat.mod_eq_of_lt (hf h).2)

theorem Mach.within_atTick_put (m : Mach) (f : Fld) (v : Nat) : m.Within (· = f.addr) (m.atTick.put f v) :=
  (Mach.within_atTick _ m).put f v rfl

theorem State.run_ifLive (s : State) (f : Mach → Mach) (hlive : s.m.live = true) :
    s.run (fun m => m.ifLive f) = .next { s with m := f s.m } := by rw [State.run_eq, Mach.ifLive_of _ _ hlive]

theorem Mach.runTo_zero (m : Mach) : m.runTo 0 = m := if_neg (by simp)

theorem Mach.is_of_eq_one {m : Mach} {f : Fld} (h : m.get f = 1) : m.is f = true := by
  rw [Mach.is, h]
  rfl

theorem Mach.is_of_eq_zero {m : Mach} {f : Fld} (h : m.get f = 0) : m.is f = false := by
  rw [Mach.is, h]
  rfl

/-- What a lamp's step in this beat leaves alone. -/
theorem Mach.HeadStep.frameHere {n : Mach} (hn : s.m.HeadStep h n) : OtherHeads h s { s with m := n } ∧ Keeps s { s with m := n } := by
  rw [← s.m.runTo_zero] at hn
  exact hn.frame

/-- What a lamp's write leaves alone. -/
theorem Mach.HeadStep.frameTick {n : Mach} (hn : s.m.atTick.HeadStep h n) : OtherHeads h s { s with m := n } ∧ Keeps s { s with m := n } := hn.frame

theorem Mach.atTick_head (m : Mach) (j : Fin 6) : m.atTick.head j = m.head j := m.runTo_head _ j

theorem does_illSwap (hlive : s.m.live = true) (hfree : ¬ s.m.get (F.H_ILL_CTL_SWAP h) = 1) : Does (.illSwap h) s (fun t =>
    t.m.get (F.H_ILL_CTL_SWAP h) = 1 ∧ (t.m.head h).ill = { (s.m.head h).ill with armAt := s.tick.m.now } ∧
    (OtherHeads h s t ∧ Keeps s t) ∧ SameRegs (· = F.H_ILL_CTL_reg h) s t) := by
  have hoff : s.m.atTick.is (F.H_ILL_CTL_SWAP h) = false := (s.m.atTick_is _).trans (s.m.is_of_ne_one _ rfl hfree)
  have hexec : exec (.illSwap h) s = .next { s with m := s.m.atTick.illArm h } := s.run_writeCmd _ _ hlive
  have harm : s.m.atTick.illArm h = (s.m.atTick.put (F.H_ILL_CTL_SWAP h) 1).setIll h { (s.m.atTick.head h).ill with armAt := s.m.atTick.now } :=
    if_neg (by simp [hoff])
  rw [harm] at hexec
  refine ⟨_, hexec, ?_, ?_, ?_, ?_⟩
  · exact (Mach.setIll_get _ _ _).trans (Mach.get_put_fits _ F.H_ILL_CTL_SWAP 1 (by decide))
  · rw [Mach.setIll_head, Mach.atTick_head]
    rfl
  · exact (((Mach.HeadStep.refl h _).putField F.H_ILL_CTL_SWAP 1 (by decide)).setIll _).frameTick
  · exact ((s.m.within_atTick_put (F.H_ILL_CTL_SWAP h) 1).other rfl rfl).sameRegs

theorem does_illSwcan (hlive : s.m.live = true) : Does (.illSwcan h) s (fun t => t.m.get (F.H_ILL_CTL_SWAP h) = 0 ∧ OnlyRegs s t ∧
    SameRegs (· = F.H_ILL_CTL_reg h) s t) :=
  ⟨{ s with m := s.m.atTick.illSwcan h }, s.run_writeCmd _ _ hlive, Mach.get_put_fits _ F.H_ILL_CTL_SWAP 0 (by decide),
    (s.m.regsOnly_atTick.put _ _).onlyRegs, (s.m.within_atTick_put (F.H_ILL_CTL_SWAP h) 0).sameRegs⟩

theorem exec_illFrmwWrite (k : Fin 64) (v : Word) (hlive : s.m.live = true) :
    exec (.illFrmwWrite h k v) s = .next { s with m := s.m.atTick.illFrmw h k (bits v.toNat 11 0) } := s.run_writeCmd _ _ hlive

theorem does_illFrmwWrite_free (k : Fin 64) (v : Word) (hlive : s.m.live = true) (hfree : ¬ s.m.get (F.H_ILL_CTL_SWAP h) = 1) :
    Does (.illFrmwWrite h k v) s (fun t => t.m.get (F.H_ILL_FRMW_I h k) = v.toNat % 2 ^ 12 ∧ OnlyRegs s t ∧
      SameRegs (· = F.H_ILL_FRMW_reg h k) s t) := by
  have hoff : s.m.atTick.is (F.H_ILL_CTL_SWAP h) = false := (s.m.atTick_is _).trans (s.m.is_of_ne_one _ rfl hfree)
  have hput : s.m.atTick.illFrmw h k (bits v.toNat 11 0) = s.m.atTick.put (F.H_ILL_FRMW_I h k) (bits v.toNat 11 0) :=
    (if_neg (by simp [hoff])).trans (if_pos k.isLt)
  refine ⟨_, exec_illFrmwWrite k v hlive, ?_, ?_, ?_⟩ <;> rw [hput]
  · refine (Mach.get_put_lamp _ (fun i => F.H_ILL_FRMW_I i k) _ (fun j => ⟨Nat.zero_le _, by show 11 < 32; decide⟩)).trans ?_
    show bits v.toNat 11 0 % 2 ^ 12 = _
    rw [bits_put, Nat.pow_zero, Nat.div_one, Nat.mod_mod]
  · exact (s.m.regsOnly_atTick.put _ _).onlyRegs
  · exact (s.m.within_atTick_put (F.H_ILL_FRMW_I h k) _).sameRegs

theorem does_illFrmwWrite_armed (k : Fin 64) (v : Word) (hlive : s.m.live = true) (harmed : s.m.get (F.H_ILL_CTL_SWAP h) = 1) :
    Does (.illFrmwWrite h k v) s (fun t => t.m.get (F.H_ILL_STAT_FDROP h) = 1 ∧
      t.m.reg (F.H_ILL_FRMW_reg h k) = s.m.reg (F.H_ILL_FRMW_reg h k) ∧ OtherHeads h s t ∧ Keeps s t) := by
  have hon : s.m.atTick.is (F.H_ILL_CTL_SWAP h) = true := (s.m.atTick_is _).trans (Mach.is_of_eq_one harmed)
  have hflag : s.m.atTick.illFrmw h k (bits v.toNat 11 0) = s.m.atTick.illFlag h (F.H_ILL_STAT_FDROP h) := if_pos hon
  have hk : F.H_ILL_FRMW_reg h k < 0x400000 ∧ F.H_ILL_FRMW_reg h k ≠ F.H_ILL_STAT_reg h := by
    simp only [F.H_ILL_FRMW_reg, F.H_ILL_STAT_reg]
    omega
  refine ⟨_, exec_illFrmwWrite k v hlive, ?_, ?_, ?_⟩ <;> rw [hflag]
  · exact Mach.illFlag_set _ F.H_ILL_STAT_FDROP (by decide)
  · rw [Mach.illFlag_reg _ _ hk.1, Mach.reg_put_ne _ _ _ hk.2, Mach.atTick_reg]
  · exact ((Mach.HeadStep.refl h _).illFlag F.H_ILL_STAT_FDROP (by decide)).frameTick

end

/-! ## The swap -/

section
variable {m : Mach} {h : Fin 6}

/-- The active frame is a copy of the written one. -/
def Mach.frameCopied (m : Mach) (h : Fin 6) : Mach :=
  m.each (List.range 64) (fun x m => m.put (F.H_ILL_FRMA_I h x) (m.get (F.H_ILL_FRMW_I h x)))

/-- The lamp whose written frame has become the active one, before the cascade hears of it (R439). -/
def Mach.illSwapped (m : Mach) (h : Fin 6) : Mach :=
  let m := (m.frameCopied h).put (F.H_ILL_CTL_SWAP h) 0
  let m := m.setIll h { (m.head h).ill with frameNew := true }
  m.pulseHead h 6

theorem Mach.illSwap_eq (m : Mach) (h : Fin 6) : m.illSwap h =
    if (m.illSwapped h).act (F.H_ILL_CFG_CASEN h) = 1 then (m.illSwapped h).casSend h .apply else m.illSwapped h := rfl

/-- What a swap does before the cascade hears of it. -/
structure Mach.SwapsFrame (h : Fin 6) (m n : Mach) : Prop where
  step : m.HeadStep h n
  done : n.get (F.H_ILL_CTL_SWAP h) = 0
  new : (n.head h).ill.frameNew = true
  tpg : (n.head h).tpg = (m.head h).tpg
  safe : n.get F.SHR_STATUS_SAFE = m.get F.SHR_STATUS_SAFE
  frame : ∀ k, k < 64 → n.get (F.H_ILL_FRMA_I h k) = m.get (F.H_ILL_FRMW_I h k)
  rung : m.Rests (coreOf h) 6 → n.Rung (coreOf h) 6

theorem Mach.frameCopied_get (m : Mach) (h : Fin 6) {k : Nat} (hk : k < 64) :
    (m.frameCopied h).get (F.H_ILL_FRMA_I h k) = m.get (F.H_ILL_FRMW_I h k) := by
  refine ((m.each_put_get (p := fun a => 0x100A00 + 0x10000 * h.val ≤ a ∧ a < 0x100B00 + 0x10000 * h.val) (F.H_ILL_FRMA_I h)
    (fun x m => m.get (F.H_ILL_FRMW_I h x)) (fun x y he => ?_) (fun _ => ⟨Nat.zero_le _, by show 11 < 32; decide⟩) (List.range 64)
    (fun x hx => ?_) (fun x hx n hn => hn.get _ ?_)).2 k (List.mem_range.2 hk)).trans (Nat.mod_eq_of_lt (m.get_lt _))
  · simp only [F.H_ILL_FRMA_I, F.H_ILL_FRMA_reg] at he
    omega
  · have := List.mem_range.1 hx
    simp only [F.H_ILL_FRMA_I, F.H_ILL_FRMA_reg]
    omega
  · have := List.mem_range.1 hx
    simp only [F.H_ILL_FRMW_I, F.H_ILL_FRMW_reg]
    omega

theorem Mach.frameCopied_step (m : Mach) (h : Fin 6) : m.HeadStep h (m.frameCopied h) :=
  (Mach.frameCopy_step (List.range 64) (fun _ => List.mem_range.1) (Mach.HeadStep.refl h m)).1

theorem Mach.frameCopied_head (m : Mach) (h : Fin 6) : (m.frameCopied h).head h = m.head h :=
  m.each_put_head (F.H_ILL_FRMA_I h) (fun x m => m.get (F.H_ILL_FRMW_I h x)) _ h

theorem Mach.frameCopied_lines (m : Mach) (h : Fin 6) (c : Fin 8) : m.SameLines (m.frameCopied h) c :=
  m.each_put_lines (F.H_ILL_FRMA_I h) (fun x m => m.get (F.H_ILL_FRMW_I h x)) _ _ fun x hx => by
    have := List.mem_range.1 hx
    simp only [F.H_ILL_FRMA_I, F.H_ILL_FRMA_reg]
    omega

theorem Mach.sameLines_setIll (m : Mach) (h : Fin 6) (x : IllSt) (c : Fin 8) : m.SameLines (m.setIll h x) c := ⟨rfl, rfl, rfl, rfl, rfl, rfl⟩

theorem not_headRegs_safe (h : Fin 6) : ¬ headRegs h F.SHR_STATUS_SAFE.addr := by
  simp only [headRegs, eventRegs, F.SHR_STATUS_SAFE, F.SHR_STATUS_reg, F.C_STAT_reg, F.C_EVT_PEND_reg, F.C_EVT_OVF_reg]
  omega

/-- The swap's field, and then the lamp's state. -/
def Mach.swapNoted (m : Mach) (h : Fin 6) : Mach :=
  (m.put (F.H_ILL_CTL_SWAP h) 0).setIll h { ((m.put (F.H_ILL_CTL_SWAP h) 0).head h).ill with frameNew := true }

theorem Mach.swapNoted_head (m : Mach) (h : Fin 6) :
    (m.swapNoted h).head h = { m.head h with ill := { (m.head h).ill with frameNew := true } } := by
  unfold Mach.swapNoted
  rw [Mach.setIll_head, Mach.put_head]

theorem Mach.swapNoted_get (m : Mach) (h : Fin 6) (g : Fld) : (m.swapNoted h).get g = (m.put (F.H_ILL_CTL_SWAP h) 0).get g := Mach.setIll_get _ _ _

theorem Mach.swapNoted_step (m : Mach) (h : Fin 6) : m.HeadStep h (m.swapNoted h) :=
  ((Mach.HeadStep.refl h m).putField F.H_ILL_CTL_SWAP 0 (by decide)).setIll _

theorem Mach.swapNoted_lines (m : Mach) (h : Fin 6) (c : Fin 8) : m.SameLines (m.swapNoted h) c :=
  (m.sameLines_put (F.H_ILL_CTL_SWAP h) 0 c (by simp only [F.H_ILL_CTL_SWAP, F.H_ILL_CTL_reg]; omega)).trans (Mach.sameLines_setIll _ h _ c)

theorem Mach.illSwapped_eq (m : Mach) (h : Fin 6) : m.illSwapped h = ((m.frameCopied h).swapNoted h).pulseHead h 6 := rfl

theorem Mach.illSwapped_spec (m : Mach) (hgoes : (m.head h).tpg.stopped = false) : m.SwapsFrame h (m.illSwapped h) := by
  have hcopy := m.frameCopied_step h
  have hframe := fun k (hk : k < 64) => m.frameCopied_get h hk
  have hhead := m.frameCopied_head h
  have hlines := m.frameCopied_lines h (coreOf h)
  rw [Mach.illSwapped_eq]
  generalize m.frameCopied h = n at hcopy hframe hhead hlines ⊢
  have hhead' : (n.swapNoted h).head h = { m.head h with ill := { (m.head h).ill with frameNew := true } } := by
    rw [n.swapNoted_head h, hhead]
  have hpulse : (n.swapNoted h).pulseHead h 6 = (n.swapNoted h).pulse (coreOf h) 6 := if_neg (by
    rw [hhead']
    simp [hgoes])
  have hstep : m.HeadStep h ((n.swapNoted h).pulseHead h 6) := (hcopy.trans (n.swapNoted_step h)).pulseHead 6
  refine ⟨hstep, ?_, ?_, ?_, hstep.within.get _ (not_headRegs_safe h), fun k hk => ?_, fun hrest => ?_⟩
  · refine (Mach.pulseHead_get _ h 6 _ ?_).trans ((n.swapNoted_get h _).trans (Mach.get_put_fits n F.H_ILL_CTL_SWAP 0 (by decide)))
    simp only [F.H_ILL_CTL_SWAP, F.H_ILL_CTL_reg]
    omega
  · rw [Mach.pulseHead_head, hhead']
  · rw [Mach.pulseHead_head, hhead']
  · refine (Mach.pulseHead_get _ h 6 _ ?_).trans ((n.swapNoted_get h _).trans ((n.get_put_ne _ _ _ ?_).trans (hframe k hk)))
    · simp only [F.H_ILL_FRMA_I, F.H_ILL_FRMA_reg]
      omega
    · simp only [F.H_ILL_FRMA_I, F.H_ILL_FRMA_reg, F.H_ILL_CTL_SWAP, F.H_ILL_CTL_reg]
      omega
  · rw [hpulse]
    exact ((hlines.trans (n.swapNoted_lines h _)).rests hrest).pulsed (by decide)

theorem le_foldl_max {α : Type} (g : α → Nat) (l : List α) (a : Nat) : a ≤ l.foldl (fun t x => max t (g x)) a := by
  induction l generalizing a with
  | nil => exact Nat.le_refl a
  | cons x l ih => exact (Nat.le_max_left a (g x)).trans (ih _)

theorem Mach.now_le_casFree (m : Mach) (h : Fin 6) : m.now ≤ m.casFree h := le_foldl_max CasAt.stop _ _

/-- A frame that goes out is the last one on LCAS. -/
theorem Mach.casStart_last (m : Mach) (h : Fin 6) (f : CasFrame) (t tb : Nat) :
    ((m.casStart h f t tb).head h).ill.cas.getLast? = some ⟨f, t, tb, f.cells⟩ := by
  unfold Mach.casStart
  dsimp only
  rw [Mach.setIll_head]
  exact List.getLast?_concat

theorem Mach.casStart_step {k : Mach} (hk : m.HeadStep h k) (f : CasFrame) (t tb : Nat) : m.HeadStep h (k.casStart h f t tb) := hk.setIll _

theorem Mach.casSend_goes (m : Mach) (h : Fin 6) (f : CasFrame) (hsafe : m.get F.SHR_STATUS_SAFE = 0) (hgoes : (m.head h).tpg.stopped = false) :
    m.casSend h f = m.casStart h f (m.casFree h) (m.casTB h) := if_neg (by
  rw [Mach.is_of_eq_zero hsafe, hgoes]
  decide)

/-- A frame for the cascade changes the lamp's list of frames only. -/
theorem Mach.casSend_keeps (m : Mach) (h : Fin 6) (f : CasFrame) : (∀ g, (m.casSend h f).get g = m.get g) ∧
    ((m.casSend h f).head h).ill.frameNew = (m.head h).ill.frameNew ∧ m.SameLines (m.casSend h f) (coreOf h) := by
  unfold Mach.casSend
  split
  · exact ⟨fun _ => rfl, rfl, Mach.SameLines.refl m _⟩
  · refine ⟨fun _ => rfl, ?_, rfl, rfl, rfl, rfl, rfl, rfl⟩
    unfold Mach.casStart
    dsimp only
    rw [Mach.setIll_head]

theorem Mach.frameSwap_eq (m : Mach) (h : Fin 6) (harmed : m.get (F.H_ILL_CTL_SWAP h) = 1) (hsrc : m.act (F.H_ILL_CFG_SWSRC h) = 0)
    (hidle : (m.head h).tpg.idle = true) (hgoes : (m.head h).tpg.stopped = false) :
    m.frameSwap h = (m.runTo (nextGrid 16 (max m.now ((m.head h).ill.armAt + 1)))).illSwap h :=
  if_pos (by
    rw [Mach.is_of_eq_one harmed, hsrc, hidle, hgoes]
    decide)

theorem does_frameSwap {s : State} (hlive : s.m.live = true) (harmed : s.m.get (F.H_ILL_CTL_SWAP h) = 1) (hsrc : s.m.act (F.H_ILL_CFG_SWSRC h) = 0)
    (hidle : (s.m.head h).tpg.idle = true) (hgoes : (s.m.head h).tpg.stopped = false) : Does (.frameSwap h) s (fun t =>
      t.m.get (F.H_ILL_CTL_SWAP h) = 0 ∧ (t.m.head h).ill.frameNew = true ∧ Pulsed s t (coreOf h) 6 ∧ (OtherHeads h s t ∧ Keeps s t) ∧
      (∀ k, k < 64 → t.m.get (F.H_ILL_FRMA_I h k) = s.m.get (F.H_ILL_FRMW_I h k)) ∧
      (s.m.act (F.H_ILL_CFG_CASEN h) = 1 → s.m.get F.SHR_STATUS_SAFE = 0 ∧ (s.m.head h).tpg.stopped = false →
        ∃ b, (t.m.head h).ill.cas.getLast? = some ⟨.apply, b, s.m.casTB h, 11⟩ ∧ t.m.now ≤ b)) := by
  have hexec : exec (.frameSwap h) s = .next { s with m := s.m.frameSwap h } := s.run_ifLive _ hlive
  obtain ⟨b, hb⟩ : ∃ b, b = nextGrid 16 (max s.m.now ((s.m.head h).ill.armAt + 1)) := ⟨_, rfl⟩
  obtain ⟨k, hk⟩ : ∃ k, k = (s.m.runTo b).illSwapped h := ⟨_, rfl⟩
  have hspec : (s.m.runTo b).SwapsFrame h k := hk ▸ Mach.illSwapped_spec _ (by rw [Mach.runTo_head, hgoes])
  have hact : ∀ f, k.act f = s.m.act f := fun f => (hspec.step.act f).trans (s.m.runTo_act b f)
  have hframe : ∀ j, j < 64 → k.get (F.H_ILL_FRMA_I h j) = s.m.get (F.H_ILL_FRMW_I h j) := fun j hj => (hspec.frame j hj).trans (s.m.runTo_get b _)
  have hsafe : k.get F.SHR_STATUS_SAFE = s.m.get F.SHR_STATUS_SAFE := hspec.safe.trans (s.m.runTo_get b _)
  have htpg : (k.head h).tpg = (s.m.head h).tpg := by rw [hspec.tpg, Mach.runTo_head]
  have hswap : s.m.frameSwap h = if k.act (F.H_ILL_CFG_CASEN h) = 1 then k.casSend h .apply else k := by
    rw [s.m.frameSwap_eq h harmed hsrc hidle hgoes, ← hb, Mach.illSwap_eq, hk]
  rw [hswap] at hexec
  refine ⟨_, hexec, ?_⟩
  by_cases hcas : k.act (F.H_ILL_CFG_CASEN h) = 1
  · rw [if_pos hcas]
    obtain ⟨hget, hnew, hlines⟩ := k.casSend_keeps h .apply
    have hstep := (Mach.casSend_step hspec.step .apply).1
    refine ⟨(hget _).trans hspec.done, hnew.trans hspec.new, pulsed_of_head hlive hstep.now fun hr => hlines.rung (hspec.rung hr), hstep.frame,
      fun j hj => (hget _).trans (hframe j hj), fun _ hsends => ⟨k.casFree h, ?_, ?_⟩⟩
    · have htb : k.casTB h = s.m.casTB h := congrArg casTBOf (hact _)
      show ((k.casSend h .apply).head h).ill.cas.getLast? = _
      rw [k.casSend_goes h .apply (hsafe.trans hsends.1) (by rw [htpg, hsends.2]), k.casStart_last, htb]
      rfl
    · exact (hstep.now.trans hspec.step.now.symm).trans_le (k.now_le_casFree h)
  · rw [if_neg hcas]
    exact ⟨hspec.done, hspec.new, pulsed_of_head hlive hspec.step.now hspec.rung, hspec.step.frame, hframe,
      fun hen => absurd ((hact _).trans hen) hcas⟩

end

/-! ## Shaping -/

section
variable {s : State} {h : Fin 6}

theorem exec_illShape (hlive : s.m.live = true) (hidle : s.m.get (F.H_ILL_CTL_SHAPE h) = 0) :
    exec (.illShape h) s = .next { s with m := s.m.atTick.illShape h } := by
  have hoff : s.m.atTick.is (F.H_ILL_CTL_SHAPE h) = false := (s.m.atTick_is _).trans (Mach.is_of_eq_zero hidle)
  have hgo : (!s.m.atTick.is (F.H_ILL_CTL_SHAPE h)) = true := by rw [hoff]; rfl
  exact (s.run_writeCmd _ _ hlive).trans (congrArg (fun n => Host.Outcome.next ({ s with m := n } : State)) (if_pos hgo))

theorem does_illShape (hlive : s.m.live = true) (hidle : s.m.get (F.H_ILL_CTL_SHAPE h) = 0) (hfree : ¬ s.m.get (F.H_ILL_CTL_SWAP h) = 1) :
    Does (.illShape h) s (fun t => t.m.get (F.H_ILL_CTL_SHAPE h) = 1 ∧ (OtherHeads h s t ∧ Keeps s t) ∧
      (t.m.head h).ill = { (s.m.head h).ill with shEnd := some (s.tick.m.headNow h + 1024) }) := by
  have hoff : s.m.atTick.is (F.H_ILL_CTL_SWAP h) = false := (s.m.atTick_is _).trans (s.m.is_of_ne_one _ rfl hfree)
  have hshape : s.m.atTick.illShape h = (s.m.atTick.put (F.H_ILL_CTL_SHAPE h) 1).setIll h
      { (s.m.atTick.head h).ill with shEnd := some (s.m.atTick.headNow h + 1024) } := if_neg (by simp [hoff])
  have hexec := exec_illShape hlive hidle
  rw [hshape] at hexec
  refine ⟨_, hexec, (Mach.setIll_get _ _ _).trans (Mach.get_put_fits _ F.H_ILL_CTL_SHAPE 1 (by decide)),
    (((Mach.HeadStep.refl h _).putField F.H_ILL_CTL_SHAPE 1 (by decide)).setIll _).frameTick, ?_⟩
  rw [Mach.setIll_head, Mach.atTick_head]
  rfl

theorem does_illShape_armed (hlive : s.m.live = true) (hidle : s.m.get (F.H_ILL_CTL_SHAPE h) = 0) (harmed : s.m.get (F.H_ILL_CTL_SWAP h) = 1) :
    Does (.illShape h) s (fun t => t.m.get (F.H_ILL_STAT_SHREF h) = 1 ∧ t.m.get (F.H_ILL_CTL_SHAPE h) = 0 ∧ OtherHeads h s t ∧ Keeps s t) := by
  have hon : s.m.atTick.is (F.H_ILL_CTL_SWAP h) = true := (s.m.atTick_is _).trans (Mach.is_of_eq_one harmed)
  have hflag : s.m.atTick.illShape h = s.m.atTick.illFlag h (F.H_ILL_STAT_SHREF h) := if_pos hon
  have hexec := exec_illShape hlive hidle
  rw [hflag] at hexec
  exact ⟨_, hexec, Mach.illFlag_set _ F.H_ILL_STAT_SHREF (by decide),
    (Mach.illFlag_apart _ (f := F.H_ILL_STAT_SHREF) (g := F.H_ILL_CTL_SHAPE) (by decide)).trans ((s.m.atTick_get _).trans hidle),
    ((Mach.HeadStep.refl h _).illFlag F.H_ILL_STAT_SHREF (by decide)).frameTick⟩

theorem clampInt_range {lo hi x : Int} (h : lo ≤ hi) : lo ≤ clampInt lo hi x ∧ clampInt lo hi x ≤ hi := by
  unfold clampInt
  split
  · exact ⟨Int.le_refl _, h⟩
  · split
    · exact ⟨h, Int.le_refl _⟩
    · omega

/-- A shaped plane holds sixteen words of twelve bits. -/
theorem Mach.shapePlane_words (m : Mach) (h : Fin 6) (p : Nat) : (m.shapePlane h p).1.length = 16 ∧ ∀ w ∈ (m.shapePlane h p).1, w < 4096 := by
  have ha : ∀ k, m.get (F.H_ILL_FRMA_I h k) < 4096 := fun k => m.get_lt _
  unfold Mach.shapePlane
  extract_lets vals a sum least useMin raw word
  split
  · refine ⟨by simp, fun x hx => ?_⟩
    obtain ⟨k, -, rfl⟩ := List.mem_map.1 hx
    exact ha _
  · refine ⟨by simp, fun x hx => ?_⟩
    obtain ⟨k, -, rfl⟩ := List.mem_map.1 hx
    show (if 0 < m.wprof h p k then (clampInt 0 4095 (raw k)).toNat else a k) < 4096
    split
    · have := clampInt_range (x := raw k) (show (0 : Int) ≤ 4095 by decide)
      omega
    · exact ha _

theorem getD_flatten (L : List (List Nat)) (hL : ∀ q ∈ L, q.length = 16) {p k : Nat} (hk : k < 16) (hp : p < L.length) :
    L.flatten.getD (16 * p + k) 0 = (L.getD p []).getD k 0 := by
  induction L generalizing p with
  | nil => exact absurd hp (Nat.not_lt_zero p)
  | cons q L ih =>
    have hq := hL q List.mem_cons_self
    rw [List.flatten_cons]
    cases p with
    | zero =>
      rw [Nat.mul_zero, Nat.zero_add, List.getD_append _ _ _ _ (by omega)]
      rfl
    | succ p =>
      rw [List.getD_append_right _ _ _ _ (by omega), hq, show 16 * (p + 1) + k - 16 = 16 * p + k by omega]
      exact ih (fun r hr => hL r (List.mem_cons_of_mem _ hr)) (Nat.lt_of_succ_lt_succ hp)

/-- The words of the four shaped planes in one list. -/
def Mach.shapeWords (m : Mach) (h : Fin 6) : List Nat := (((List.range 4).map (m.shapePlane h)).map (fun q => q.1)).flatten

theorem Mach.shapeWords_getD (m : Mach) (h : Fin 6) {p k : Nat} (hp : p < 4) (hk : k < 16) :
    (m.shapeWords h).getD (16 * p + k) 0 = (m.shapePlane h p).1.getD k 0 := by
  unfold Mach.shapeWords
  rw [getD_flatten _ (fun q hq => ?_) hk (by simpa using hp)]
  · congr 1
    simp [List.getD, hp]
  · rw [List.map_map] at hq
    obtain ⟨r, -, rfl⟩ := List.mem_map.1 hq
    exact (m.shapePlane_words h r).1

/-- The inactive frame has taken the shaped words. -/
def Mach.frameShaped (m n : Mach) (h : Fin 6) : Mach := n.each (List.range 64) (fun x m' => m'.put (F.H_ILL_FRMW_I h x) ((m.shapeWords h).getD x 0))

theorem Mach.frameShaped_get (m n : Mach) (h : Fin 6) {p k : Nat} (hp : p < 4) (hk : k < 16) :
    (m.frameShaped n h).get (F.H_ILL_FRMW_I h (16 * p + k)) = (m.shapePlane h p).1.getD k 0 := by
  obtain ⟨hlen, hlt⟩ := m.shapePlane_words h p
  refine ((n.each_put_get (p := fun _ => True) (F.H_ILL_FRMW_I h) (fun x _ => (m.shapeWords h).getD x 0) (fun x y he => ?_)
    (fun _ => ⟨Nat.zero_le _, by show 11 < 32; decide⟩) (List.range 64) (fun _ _ => trivial) (fun _ _ _ _ => rfl)).2 (16 * p + k)
    (List.mem_range.2 (by omega))).trans ?_
  · simp only [F.H_ILL_FRMW_I, F.H_ILL_FRMW_reg] at he
    omega
  · rw [m.shapeWords_getD h hp hk]
    refine Nat.mod_eq_of_lt (hlt _ ?_)
    rw [List.getD_eq_getElem _ _ (hlen.symm ▸ hk)]
    exact List.getElem_mem _

theorem Mach.frameShaped_step (m n : Mach) (h : Fin 6) : n.HeadStep h (m.frameShaped n h) :=
  (Mach.HeadStep.refl h n).each (F.H_ILL_FRMW_I h) (fun x _ => (m.shapeWords h).getD x 0) _ fun x hx => by
    have := List.mem_range.1 hx
    simp only [F.H_ILL_FRMW_I, F.H_ILL_FRMW_reg]
    omega

theorem Mach.frameShaped_head (m n : Mach) (h : Fin 6) : (m.frameShaped n h).head h = n.head h :=
  n.each_put_head (F.H_ILL_FRMW_I h) (fun x _ => (m.shapeWords h).getD x 0) _ h

/-- What ends shaping: the count of clamped words, then the field and the flag. -/
def Mach.shapeEnded (m : Mach) (h : Fin 6) (clipped : Nat) : Mach :=
  ((m.put (F.H_ILL_SHCLIP_N h) clipped).put (F.H_ILL_CTL_SHAPE h) 0).illFlag h (F.H_ILL_STAT_SHDONE h)

theorem Mach.shapeDone_eq (m : Mach) (h : Fin 6) {e : Nat} (hend : (m.head h).ill.shEnd = some e) (hgoes : (m.head h).tpg.stopped = false) :
    ∃ v, m.shapeDone h = Mach.shapeEnded (m.frameShaped (m.setIll h { (m.head h).ill with shEnd := none }) h) h v := by
  refine ⟨((((List.range 4).map (m.shapePlane h)).map (fun q => q.2)).foldl (· + ·) 0), ?_⟩
  unfold Mach.shapeDone
  rw [hend]
  dsimp only
  rw [hgoes]
  rfl

theorem Mach.shapeEnded_frmw (m : Mach) (h : Fin 6) (v : Nat) {k : Nat} (hk : k < 64) :
    (m.shapeEnded h v).get (F.H_ILL_FRMW_I h k) = m.get (F.H_ILL_FRMW_I h k) := by
  unfold Mach.shapeEnded
  have hlt : (F.H_ILL_FRMW_I h k).addr < 0x400000 ∧ (F.H_ILL_FRMW_I h k).addr ≠ F.H_ILL_STAT_reg h ∧ (F.H_ILL_FRMW_I h k).addr ≠ F.H_ILL_CTL_reg h ∧
      (F.H_ILL_FRMW_I h k).addr ≠ F.H_ILL_SHCLIP_reg h := by
    simp only [F.H_ILL_FRMW_I, F.H_ILL_FRMW_reg, F.H_ILL_STAT_reg, F.H_ILL_CTL_reg, F.H_ILL_SHCLIP_reg]
    omega
  obtain ⟨hlow, hstat, hctl, hclip⟩ := hlt
  rw [Mach.illFlag_get _ _ _ hlow, Mach.get_put_ne _ _ _ _ hstat, Mach.get_put_ne _ _ _ _ hctl, Mach.get_put_ne _ _ _ _ hclip]

theorem does_shapeDone (hlive : s.m.live = true) (hshapes : (s.m.head h).ill.shEnd.isSome = true) (hgoes : (s.m.head h).tpg.stopped = false) :
    Does (.shapeDone h) s (fun t => t.m.get (F.H_ILL_CTL_SHAPE h) = 0 ∧
      t.m.get (F.H_ILL_STAT_SHDONE h) = 1 ∧ (t.m.head h).ill = { (s.m.head h).ill with shEnd := none } ∧ (OtherHeads h s t ∧ Keeps s t) ∧
      ∀ p k, p < 4 → k < 16 → t.m.get (F.H_ILL_FRMW_I h (16 * p + k)) = (s.m.shapePlane h p).1.getD k 0) := by
  obtain ⟨e, hend⟩ := Option.isSome_iff_exists.1 hshapes
  obtain ⟨v, hdone⟩ := s.m.shapeDone_eq h hend hgoes
  have hexec : exec (.shapeDone h) s = .next { s with m := s.m.shapeDone h } := s.run_ifLive _ hlive
  have hstep := ((Mach.HeadStep.refl h s.m).setIll { (s.m.head h).ill with shEnd := none }).trans (s.m.frameShaped_step _ h)
  have hhead := s.m.frameShaped_head (s.m.setIll h { (s.m.head h).ill with shEnd := none }) h
  have hget := fun p k (hp : p < 4) (hk : k < 16) => s.m.frameShaped_get (s.m.setIll h { (s.m.head h).ill with shEnd := none }) h hp hk
  rw [Mach.setIll_head] at hhead
  rw [hdone] at hexec
  generalize s.m.frameShaped (s.m.setIll h { (s.m.head h).ill with shEnd := none }) h = n at hexec hstep hhead hget
  refine ⟨_, hexec, ?_, ?_, ?_, ?_, fun p k hp hk => (n.shapeEnded_frmw h v (by omega)).trans (hget p k hp hk)⟩
  · exact (Mach.illFlag_apart _ (f := F.H_ILL_STAT_SHDONE) (g := F.H_ILL_CTL_SHAPE) (by decide)).trans
      (Mach.get_put_fits _ F.H_ILL_CTL_SHAPE 0 (by decide))
  · exact Mach.illFlag_set _ F.H_ILL_STAT_SHDONE (by decide)
  · show ((n.shapeEnded h v).head h).ill = _
    rw [Mach.shapeEnded, Mach.illFlag_head, Mach.put_head, Mach.put_head, hhead]
  · exact (((hstep.putField F.H_ILL_SHCLIP_N v (by decide)).putField F.H_ILL_CTL_SHAPE 0 (by decide)).illFlag F.H_ILL_STAT_SHDONE (by decide)).frameHere

end

/-! ## The short test -/

section
variable {m : Mach} {h : Fin 6}

theorem Mach.illStat_get (m : Mach) {f g : Nat → Fld} (v : Nat) (hfg : ∀ j : Fin 6, (f j).apart (g j) = true) :
    (m.illStat h (f h) v).get (g h) = m.get (g h) := by
  unfold Mach.illStat
  split
  · rfl
  · exact (Mach.pulseHead_get _ h 7 _ (Fld.apart_lt (hfg h))).trans (m.get_put_apart v (hfg h))

theorem Mach.illStat_head (m : Mach) (f : Fld) (v : Nat) (j : Fin 6) : (m.illStat h f v).head j = m.head j := by
  unfold Mach.illStat
  split
  · rfl
  · exact (Mach.pulseHead_head _ h j 7).trans (m.put_head f v j)

theorem Mach.HeadStep.illStat {n : Mach} (hn : m.HeadStep h n) (f : Nat → Fld) (v : Nat)
    (hf : ∀ j : Fin 6, 0x100000 + 0x10000 * j.val ≤ (f j).addr ∧ (f j).addr < 0x110000 + 0x10000 * j.val) : m.HeadStep h (n.illStat h (f h) v) := by
  unfold Mach.illStat
  split
  · exact hn
  · exact (hn.putField f v hf).pulseHead 7

theorem Mach.vsetInit_step (m : Mach) (h : Fin 6) : m.HeadStep h (m.vsetInit h) :=
  (Mach.HeadStep.refl h m).each (F.H_ILL_VSET_V h) (fun r m => m.vinit h r) [0, 1, 2, 3] fun r hr => by
    have hlt : r < 4 := (by decide : ∀ r ∈ [0, 1, 2, 3], r < 4) r hr
    simp only [F.H_ILL_VSET_V, F.H_ILL_VSET_reg]
    omega

theorem Mach.vsetInit_head (m : Mach) (h : Fin 6) : (m.vsetInit h).head h = m.head h :=
  m.each_put_head (F.H_ILL_VSET_V h) (fun r m => m.vinit h r) [0, 1, 2, 3] h

theorem Mach.vsetInit_get (m : Mach) (h : Fin 6) (g : Fld) (hg : ∀ r, r < 4 → g.addr ≠ F.H_ILL_VSET_reg h r) : (m.vsetInit h).get g = m.get g := by
  unfold Mach.vsetInit
  simp only [Mach.each, List.foldl]
  rw [Mach.get_put_ne _ _ _ _ (hg 3 (by decide)), Mach.get_put_ne _ _ _ _ (hg 2 (by decide)), Mach.get_put_ne _ _ _ _ (hg 1 (by decide)),
    Mach.get_put_ne _ _ _ _ (hg 0 (by decide))]

/-- The lamp that EN enables (R430, R450, R451). -/
def Mach.illEnabled (m : Mach) (h : Fin 6) : Mach :=
  let m := ((m.put (F.H_ILL_CTL_EN h) 1).vsetInit h).illStat h (F.H_ILL_STAT_BRDY h) 0
  m.setIll h { (m.head h).ill with boost := true, boostHigh := false, target := m.act (F.H_TPG_FLD_EXPE_ROW h 0) }

theorem Mach.illEn_true (m : Mach) (h : Fin 6) (hidle : m.get (F.H_ILL_STAT_STBUSY h) = 0) :
    m.illEn h true = if m.is (F.H_ILL_CTL_EN h) then m else m.illEnabled h := by
  have hoff : m.is (F.H_ILL_STAT_STBUSY h) = false := Mach.is_of_eq_zero hidle
  unfold Mach.illEn
  dsimp only
  rw [hoff]
  rfl

/-- A field of ILL_CTL, ILL_STAT or ILL_SHORT that enabling the lamp leaves alone. -/
def keptByEn (g : Nat → Fld) : Prop := ∀ j : Fin 6, (F.H_ILL_CTL_EN j).apart (g j) = true ∧ (F.H_ILL_STAT_BRDY j).apart (g j) = true ∧
  (g j).addr ≠ F.H_ILL_VSET_reg j 0 ∧ (g j).addr ≠ F.H_ILL_VSET_reg j 1 ∧ (g j).addr ≠ F.H_ILL_VSET_reg j 2 ∧ (g j).addr ≠ F.H_ILL_VSET_reg j 3

theorem Mach.illEnabled_get (m : Mach) (g : Nat → Fld) (hg : keptByEn g) : (m.illEnabled h).get (g h) = m.get (g h) := by
  obtain ⟨hen, -, h0, h1, h2, h3⟩ := hg h
  have hvset : ∀ r, r < 4 → (g h).addr ≠ F.H_ILL_VSET_reg h r := fun r hr =>
    match r, hr with
    | 0, _ => h0
    | 1, _ => h1
    | 2, _ => h2
    | 3, _ => h3
  refine (Mach.setIll_get _ _ _).trans ((Mach.illStat_get _ (f := F.H_ILL_STAT_BRDY) 0 fun j => (hg j).2.1).trans ?_)
  exact (Mach.vsetInit_get _ h _ hvset).trans (m.get_put_apart 1 hen)

theorem Mach.illEnabled_en (m : Mach) : (m.illEnabled h).get (F.H_ILL_CTL_EN h) = 1 := by
  refine (Mach.setIll_get _ _ _).trans ((Mach.illStat_get _ (f := F.H_ILL_STAT_BRDY) (g := F.H_ILL_CTL_EN) 0 (by decide)).trans ?_)
  refine (Mach.vsetInit_get _ h _ fun r hr => ?_).trans (Mach.get_put_fits m F.H_ILL_CTL_EN 1 (by decide))
  simp only [F.H_ILL_CTL_EN, F.H_ILL_CTL_reg, F.H_ILL_VSET_reg]
  omega

theorem Mach.illEnabled_ill (m : Mach) : ((m.illEnabled h).head h).ill.stEnd = (m.head h).ill.stEnd ∧
    ((m.illEnabled h).head h).ill.enHeld = (m.head h).ill.enHeld := by
  obtain ⟨k, hk⟩ : ∃ k, k = ((m.put (F.H_ILL_CTL_EN h) 1).vsetInit h).illStat h (F.H_ILL_STAT_BRDY h) 0 := ⟨_, rfl⟩
  have hhead : k.head h = m.head h := by rw [hk, Mach.illStat_head, Mach.vsetInit_head, Mach.put_head]
  have hdef : m.illEnabled h = k.setIll h { (k.head h).ill with boost := true, boostHigh := false, target := k.act (F.H_TPG_FLD_EXPE_ROW h 0) } := by
    rw [hk]
    rfl
  rw [hdef, Mach.setIll_head, hhead]
  exact ⟨rfl, rfl⟩

theorem Mach.HeadStep.illEnabled {n : Mach} (hn : m.HeadStep h n) : m.HeadStep h (n.illEnabled h) :=
  (((hn.putField F.H_ILL_CTL_EN 1 (by decide)).trans (Mach.vsetInit_step _ h)).illStat F.H_ILL_STAT_BRDY 0 (by decide)).setIll _

/-- What enabling the lamp, or finding it enabled, leaves. -/
structure Mach.EnKeeps (h : Fin 6) (m n : Mach) : Prop where
  step : m.HeadStep h n
  on : n.get (F.H_ILL_CTL_EN h) = 1
  get : ∀ g, keptByEn g → n.get (g h) = m.get (g h)
  ill : (n.head h).ill.stEnd = (m.head h).ill.stEnd ∧ (n.head h).ill.enHeld = (m.head h).ill.enHeld

theorem Mach.illEn_true_spec (m : Mach) (h : Fin 6) (hidle : m.get (F.H_ILL_STAT_STBUSY h) = 0) : m.EnKeeps h (m.illEn h true) := by
  rw [m.illEn_true h hidle]
  split
  · next hon =>
    refine ⟨Mach.HeadStep.refl h m, ?_, fun _ _ => rfl, rfl, rfl⟩
    by_contra hne
    rw [m.is_of_ne_one _ rfl hne] at hon
    exact absurd hon Bool.false_ne_true
  · exact ⟨(Mach.HeadStep.refl h m).illEnabled, m.illEnabled_en, m.illEnabled_get, m.illEnabled_ill⟩

end

section
variable {s : State} {h : Fin 6}

theorem does_illStest (hlive : s.m.live = true) (hidle : s.m.get (F.H_ILL_STAT_STBUSY h) = 0) (hoff : s.m.get (F.H_ILL_CTL_EN h) = 0) :
    Does (.illStest h) s (fun t => t.m.get (F.H_ILL_CTL_STEST h) = 1 ∧ t.m.get (F.H_ILL_STAT_STBUSY h) = 1 ∧
      (t.m.head h).ill = { (s.m.head h).ill with stEnd := some (s.tick.m.headNow h + 570000) } ∧ OtherHeads h s t ∧ Keeps s t) := by
  have hen : s.m.atTick.is (F.H_ILL_CTL_EN h) = false := (s.m.atTick_is _).trans (Mach.is_of_eq_zero hoff)
  have hbusy : s.m.atTick.is (F.H_ILL_STAT_STBUSY h) = false := (s.m.atTick_is _).trans (Mach.is_of_eq_zero hidle)
  obtain ⟨k, hk⟩ : ∃ k, k = (s.m.atTick.put (F.H_ILL_CTL_STEST h) 1).put (F.H_ILL_STAT_STBUSY h) 1 := ⟨_, rfl⟩
  have hstart : s.m.atTick.illStest h = k.setIll h { (k.head h).ill with stEnd := some (k.headNow h + 570000) } := by
    unfold Mach.illStest
    rw [hen, hbusy, hk]
    rfl
  have hexec : exec (.illStest h) s = .next { s with m := s.m.atTick.illStest h } := s.run_writeCmd _ _ hlive
  rw [hstart] at hexec
  have hhead : k.head h = s.m.atTick.head h := by rw [hk, Mach.put_head, Mach.put_head]
  have hstep : s.m.atTick.HeadStep h k := hk ▸ ((Mach.HeadStep.refl h _).putField F.H_ILL_CTL_STEST 1 (by decide)).putField F.H_ILL_STAT_STBUSY 1 (by decide)
  have hnow : k.headNow h = s.m.atTick.headNow h := by rw [Mach.headNow, Mach.headNow, hhead, hstep.now]
  refine ⟨_, hexec, (Mach.setIll_get _ _ _).trans ?_, (Mach.setIll_get _ _ _).trans ?_, ?_, (hstep.setIll _).frameTick⟩
  · rw [hk]
    exact (Mach.get_put_head (f := F.H_ILL_STAT_STBUSY) (g := F.H_ILL_CTL_STEST) 1 (by decide)).trans (Mach.get_put_fits _ F.H_ILL_CTL_STEST 1 (by decide))
  · rw [hk]
    exact Mach.get_put_fits _ F.H_ILL_STAT_STBUSY 1 (by decide)
  · rw [Mach.setIll_head, hhead, Mach.atTick_head, hnow]
    rfl

theorem does_illStest_on (hlive : s.m.live = true) (hon : s.m.get (F.H_ILL_CTL_EN h) = 1) :
    Does (.illStest h) s (fun t => t.m.get (F.H_ILL_STAT_STREF h) = 1 ∧
      t.m.get (F.H_ILL_CTL_STEST h) = s.m.get (F.H_ILL_CTL_STEST h) ∧ OtherHeads h s t ∧ Keeps s t) := by
  have hen : s.m.atTick.is (F.H_ILL_CTL_EN h) = true := (s.m.atTick_is _).trans (Mach.is_of_eq_one hon)
  have hflag : s.m.atTick.illStest h = s.m.atTick.illFlag h (F.H_ILL_STAT_STREF h) := if_pos (by rw [hen]; rfl)
  have hexec : exec (.illStest h) s = .next { s with m := s.m.atTick.illStest h } := s.run_writeCmd _ _ hlive
  rw [hflag] at hexec
  exact ⟨_, hexec, Mach.illFlag_set _ F.H_ILL_STAT_STREF (by decide),
    (Mach.illFlag_apart _ (f := F.H_ILL_STAT_STREF) (g := F.H_ILL_CTL_STEST) (by decide)).trans (s.m.atTick_get _),
    ((Mach.HeadStep.refl h _).illFlag F.H_ILL_STAT_STREF (by decide)).frameTick⟩

/-- The short test has ended, before an EN held over it acts. -/
def Mach.testEnded (m : Mach) (h : Fin 6) (pairs : Nat) : Mach :=
  let m := m.setIll h { (m.head h).ill with stEnd := none, enHeld := false }
  let m := ((m.put (F.H_ILL_SHORT_PAIRS h) pairs).put (F.H_ILL_STAT_STBUSY h) 0).put (F.H_ILL_CTL_STEST h) 0
  m.illFlag h (F.H_ILL_STAT_STDONE h)

/-- What the end of the short test shows. -/
structure Mach.TestDone (h : Fin 6) (pairs : Nat) (n : Mach) : Prop where
  pairs : n.get (F.H_ILL_SHORT_PAIRS h) = pairs
  busy : n.get (F.H_ILL_STAT_STBUSY h) = 0
  test : n.get (F.H_ILL_CTL_STEST h) = 0
  done : n.get (F.H_ILL_STAT_STDONE h) = 1

theorem Mach.testEnded_done (m : Mach) (h : Fin 6) {pairs : Nat} (hp : pairs < 2 ^ 19) : Mach.TestDone h pairs (m.testEnded h pairs) := by
  unfold Mach.testEnded
  extract_lets x k
  clear_value k
  refine ⟨?_, ?_, ?_, Mach.illFlag_set _ F.H_ILL_STAT_STDONE (by decide)⟩
  · refine (Mach.illFlag_apart _ (f := F.H_ILL_STAT_STDONE) (g := F.H_ILL_SHORT_PAIRS) (by decide)).trans ?_
    refine (Mach.get_put_head (f := F.H_ILL_CTL_STEST) (g := F.H_ILL_SHORT_PAIRS) 0 (by decide)).trans ?_
    refine (Mach.get_put_head (f := F.H_ILL_STAT_STBUSY) (g := F.H_ILL_SHORT_PAIRS) 0 (by decide)).trans ?_
    exact (Mach.get_put_lamp k F.H_ILL_SHORT_PAIRS pairs (by decide)).trans (Nat.mod_eq_of_lt hp)
  · refine (Mach.illFlag_apart _ (f := F.H_ILL_STAT_STDONE) (g := F.H_ILL_STAT_STBUSY) (by decide)).trans ?_
    refine (Mach.get_put_head (f := F.H_ILL_CTL_STEST) (g := F.H_ILL_STAT_STBUSY) 0 (by decide)).trans ?_
    exact Mach.get_put_fits _ F.H_ILL_STAT_STBUSY 0 (by decide)
  · exact (Mach.illFlag_apart _ (f := F.H_ILL_STAT_STDONE) (g := F.H_ILL_CTL_STEST) (by decide)).trans
      (Mach.get_put_fits _ F.H_ILL_CTL_STEST 0 (by decide))

theorem Mach.testEnded_head (m : Mach) (h : Fin 6) (pairs : Nat) :
    ((m.testEnded h pairs).head h).ill = { (m.head h).ill with stEnd := none, enHeld := false } := by
  unfold Mach.testEnded
  dsimp only
  rw [Mach.illFlag_head, Mach.put_head, Mach.put_head, Mach.put_head, Mach.setIll_head]

theorem Mach.testEnded_step (m : Mach) (h : Fin 6) (pairs : Nat) : m.HeadStep h (m.testEnded h pairs) :=
  (((((Mach.HeadStep.refl h m).setIll _).putField F.H_ILL_SHORT_PAIRS pairs (by decide)).putField F.H_ILL_STAT_STBUSY 0 (by decide)).putField
    F.H_ILL_CTL_STEST 0 (by decide)).illFlag F.H_ILL_STAT_STDONE (by decide)

/-- The end of the short test at its beat, before the clock gets there. -/
def Mach.testEnds (m : Mach) (h : Fin 6) (pairs : Nat) : Mach :=
  if (m.head h).ill.enHeld then (m.testEnded h pairs).illEn h true else m.testEnded h pairs

theorem Mach.shortTestDone_eq (m : Mach) (h : Fin 6) (pairs : Nat) {due : Nat} (hend : (m.head h).ill.stEnd = some due)
    (hgoes : (m.head h).tpg.stopped = false) : m.shortTestDone h pairs = (m.runTo due).testEnds h pairs := by
  unfold Mach.shortTestDone
  rw [hend]
  dsimp -zeta only
  rw [if_neg (by rw [hgoes]; exact Bool.false_ne_true)]
  generalize m.runTo due = k
  rfl

theorem exec_shortTestDone (pairs : BitVec 19) {due : Nat} (hlive : s.m.live = true) (hend : (s.m.head h).ill.stEnd = some due)
    (hgoes : (s.m.head h).tpg.stopped = false) : exec (.shortTestDone h pairs) s = .next { s with
      m := (if (s.m.head h).ill.enHeld then ((s.m.runTo due).testEnded h pairs.toNat).illEn h true
        else (s.m.runTo due).testEnded h pairs.toNat) } := by
  refine (s.run_ifLive _ hlive).trans (congrArg (fun n => Host.Outcome.next ({ s with m := n } : State)) ?_)
  rw [s.m.shortTestDone_eq h pairs.toNat hend hgoes, Mach.testEnds, Mach.runTo_head]

theorem does_shortTestDone (pairs : BitVec 19) (hlive : s.m.live = true) (hends : (s.m.head h).ill.stEnd.isSome = true)
    (hgoes : (s.m.head h).tpg.stopped = false) (hheld : (s.m.head h).ill.enHeld = false) : Does (.shortTestDone h pairs) s (fun t =>
      (t.m.get (F.H_ILL_SHORT_PAIRS h) = pairs.toNat ∧ t.m.get (F.H_ILL_STAT_STBUSY h) = 0 ∧ t.m.get (F.H_ILL_CTL_STEST h) = 0 ∧
        t.m.get (F.H_ILL_STAT_STDONE h) = 1 ∧ OtherHeads h s t ∧ Keeps s t) ∧ (t.m.head h).ill = { (s.m.head h).ill with stEnd := none }) := by
  obtain ⟨due, hend⟩ := Option.isSome_iff_exists.1 hends
  have hexec := exec_shortTestDone pairs hlive hend hgoes
  rw [hheld, if_neg Bool.false_ne_true] at hexec
  obtain ⟨hpairs, hbusy, htest, hdone⟩ := (s.m.runTo due).testEnded_done h pairs.isLt
  refine ⟨_, hexec, ⟨hpairs, hbusy, htest, hdone, ((s.m.runTo due).testEnded_step h pairs.toNat).frame⟩, ?_⟩
  show (((s.m.runTo due).testEnded h pairs.toNat).head h).ill = _
  rw [Mach.testEnded_head, Mach.runTo_head, ← hheld]

theorem does_shortTestDone_held (pairs : BitVec 19) (hlive : s.m.live = true) (hends : (s.m.head h).ill.stEnd.isSome = true)
    (hgoes : (s.m.head h).tpg.stopped = false) (hheld : (s.m.head h).ill.enHeld = true) : Does (.shortTestDone h pairs) s (fun t =>
      (t.m.get (F.H_ILL_SHORT_PAIRS h) = pairs.toNat ∧ t.m.get (F.H_ILL_STAT_STBUSY h) = 0 ∧ t.m.get (F.H_ILL_CTL_STEST h) = 0 ∧
        t.m.get (F.H_ILL_STAT_STDONE h) = 1 ∧ OtherHeads h s t ∧ Keeps s t) ∧ t.m.get (F.H_ILL_CTL_EN h) = 1 ∧
        (t.m.head h).ill.stEnd = none ∧ (t.m.head h).ill.enHeld = false) := by
  obtain ⟨due, hend⟩ := Option.isSome_iff_exists.1 hends
  have hexec := exec_shortTestDone pairs hlive hend hgoes
  rw [hheld, if_pos rfl] at hexec
  obtain ⟨hpairs, hbusy, htest, hdone⟩ := (s.m.runTo due).testEnded_done h pairs.isLt
  have hill := (s.m.runTo due).testEnded_head h pairs.toNat
  have hstep := (s.m.runTo due).testEnded_step h pairs.toNat
  generalize (s.m.runTo due).testEnded h pairs.toNat = n at *
  obtain ⟨henstep, hon, hget, hst, hheld'⟩ := n.illEn_true_spec h hbusy
  rw [hill] at hst hheld'
  exact ⟨_, hexec, ⟨(hget F.H_ILL_SHORT_PAIRS (by unfold keptByEn; decide)).trans hpairs, (hget F.H_ILL_STAT_STBUSY (by unfold keptByEn; decide)).trans hbusy,
    (hget F.H_ILL_CTL_STEST (by unfold keptByEn; decide)).trans htest, (hget F.H_ILL_STAT_STDONE (by unfold keptByEn; decide)).trans hdone,
    (hstep.trans henstep).frame⟩, hon, hst, hheld'⟩

end

/-! ## The cascade's DATA frame -/

section
variable {s : State} {h : Fin 6}

theorem exec_illCasgo (hlive : s.m.live = true) : exec (.illCasgo h) s = .next { s with m := s.m.atTick.casGo h } := s.run_writeCmd _ _ hlive

theorem Mach.casRaw_of_regs {m n : Mach} (hget : ∀ f, n.get f = m.get f) : n.casRaw h = m.casRaw h := by
  funext c
  rw [Mach.casRaw, Mach.casRaw, hget, hget]

theorem Mach.Within.setIll {p : Nat → Prop} {m n : Mach} (hn : m.Within p n) (h : Fin 6) (x : IllSt) : m.Within p (n.setIll h x) := hn.other rfl rfl

theorem does_illCasgo (hlive : s.m.live = true) (hidle : s.m.get (F.H_ILL_CTL_CASGO h) = 0) : Does (.illCasgo h) s (fun t =>
    t.m.get (F.H_ILL_CTL_CASGO h) = 1 ∧ (OtherHeads h s t ∧ Keeps s t) ∧ SameRegs (· = F.H_ILL_CTL_reg h) s t ∧ (t.m.head h).ill =
      { (s.m.head h).ill with casReq := some ((List.range (s.m.get (F.H_ILL_CTL_CASN h) + 1)).map (s.m.casRaw h)) }) := by
  have hoff : s.m.atTick.is (F.H_ILL_CTL_CASGO h) = false := (s.m.atTick_is _).trans (Mach.is_of_eq_zero hidle)
  obtain ⟨k, hk⟩ : ∃ k, k = s.m.atTick.put (F.H_ILL_CTL_CASGO h) 1 := ⟨_, rfl⟩
  have hgo : s.m.atTick.casGo h = k.setIll h { (k.head h).ill with
      casReq := some ((List.range (s.m.atTick.get (F.H_ILL_CTL_CASN h) + 1)).map (s.m.atTick.casRaw h)) } := by
    rw [hk, Mach.put_head]
    unfold Mach.casGo
    rw [if_neg (by simp [hoff])]
  have hexec := exec_illCasgo (h := h) hlive
  rw [hgo] at hexec
  refine ⟨_, hexec, (Mach.setIll_get _ _ _).trans ?_, ?_, ?_, ?_⟩
  · rw [hk]
    exact Mach.get_put_fits _ F.H_ILL_CTL_CASGO 1 (by decide)
  · rw [hk]
    exact (((Mach.HeadStep.refl h _).putField F.H_ILL_CTL_CASGO 1 (by decide)).setIll _).frameTick
  · have hk' : s.m.Within (· = F.H_ILL_CTL_reg h) k := hk ▸ s.m.within_atTick_put (F.H_ILL_CTL_CASGO h) 1
    exact (hk'.setIll _ _).sameRegs
  · rw [Mach.setIll_head, hk, Mach.put_head, Mach.atTick_head, s.m.atTick_get, Mach.casRaw_of_regs s.m.atTick_get]

theorem exec_illCasgo_busy (hlive : s.m.live = true) (hbusy : s.m.get (F.H_ILL_CTL_CASGO h) = 1) : exec (.illCasgo h) s = .next s.tick := by
  have hon : s.m.atTick.is (F.H_ILL_CTL_CASGO h) = true := (s.m.atTick_is _).trans (Mach.is_of_eq_one hbusy)
  exact (exec_illCasgo hlive).trans (congrArg (fun n => Host.Outcome.next ({ s with m := n } : State)) (if_pos hon))

theorem exec_cascadeDataSend (hlive : s.m.live = true) : exec (.cascadeDataSend h) s = .next { s with m := s.m.casData h } := s.run_ifLive _ hlive

theorem exec_cascadeDataSend_idle (hlive : s.m.live = true) (hoff : ¬ (s.m.get F.SHR_STATUS_SAFE = 0 ∧ (s.m.head h).tpg.stopped = false)) :
    exec (.cascadeDataSend h) s = .next s := by
  have hidle : (s.m.is F.SHR_STATUS_SAFE || (s.m.head h).tpg.stopped) = true := by
    by_contra hne
    simp only [Bool.or_eq_true, not_or, Bool.not_eq_true] at hne
    refine hoff ⟨?_, hne.2⟩
    have hsafe := hne.1
    rw [Mach.is] at hsafe
    simpa using hsafe
  exact (exec_cascadeDataSend hlive).trans (congrArg (fun n => Host.Outcome.next ({ s with m := n } : State)) (if_pos hidle))

/-- LCAS may carry frames: no safe state, and the head goes on (R50, R93). -/
theorem Mach.casSends {m : Mach} (hsafe : m.get F.SHR_STATUS_SAFE = 0) (hgoes : (m.head h).tpg.stopped = false) :
    ¬ (m.is F.SHR_STATUS_SAFE || (m.head h).tpg.stopped) = true := by
  rw [Mach.is_of_eq_zero hsafe, hgoes]
  decide

/-- The DATA frame that starts at this beat. -/
def Mach.dataStarted (m : Mach) (h : Fin 6) (req : List (BitVec 48)) (tb : Nat) : Mach :=
  let m := m.setIll h { (m.head h).ill with casReq := none, casEnd := some (m.now + (11 + 56 * req.length) * tb) }
  m.casStart h (.data (req.map (m.casScale h))) m.now tb

theorem Mach.casData_start (m : Mach) (h : Fin 6) {req : List (BitVec 48)} (hsafe : m.get F.SHR_STATUS_SAFE = 0)
    (hgoes : (m.head h).tpg.stopped = false) (hend : (m.head h).ill.casEnd = none) (hreq : (m.head h).ill.casReq = some req) :
    ∃ b, m.casData h = (m.runTo b).dataStarted h req (m.casTB h) := by
  refine ⟨casFit ((11 + 56 * req.length) * m.casTB h) (11 * m.casTB h) (m.casFree h) (m.casAims h), ?_⟩
  unfold Mach.casData
  rw [if_neg (Mach.casSends hsafe hgoes), hend, hreq]
  dsimp -zeta only
  generalize m.casTB h = tb
  extract_lets len
  generalize m.runTo (casFit len (11 * tb) (m.casFree h) (m.casAims h)) = n
  rfl

theorem Mach.casScale_of_regs {m n : Mach} (hget : ∀ f, n.get f = m.get f) : n.casScale h = m.casScale h := by
  funext v
  simp only [Mach.casScale, hget]

theorem Mach.dataStarted_step (m : Mach) (h : Fin 6) (req : List (BitVec 48)) (tb : Nat) : m.HeadStep h (m.dataStarted h req tb) :=
  Mach.casStart_step ((Mach.HeadStep.refl h m).setIll _) _ _ _

theorem Mach.dataStarted_within (m : Mach) (h : Fin 6) (req : List (BitVec 48)) (tb : Nat) (p : Nat → Prop) : m.Within p (m.dataStarted h req tb) :=
  (Mach.Within.refl p m).other rfl rfl

theorem Mach.dataStarted_ill (m : Mach) (h : Fin 6) (req : List (BitVec 48)) (tb : Nat) :
    ((m.dataStarted h req tb).head h).ill.cas.getLast? = some ⟨.data (req.map (m.casScale h)), m.now, tb, 11 + 56 * req.length⟩ ∧
    ((m.dataStarted h req tb).head h).ill.casEnd = some (m.now + (11 + 56 * req.length) * tb) ∧ ((m.dataStarted h req tb).head h).ill.casReq = none := by
  unfold Mach.dataStarted
  extract_lets x k
  have hhead : k.head h = { m.head h with ill := { x with casReq := none, casEnd := some (m.now + (11 + 56 * req.length) * tb) } } := m.setIll_head h _
  have hscale : k.casScale h = m.casScale h := Mach.casScale_of_regs (Mach.setIll_get m _)
  have hnow : k.now = m.now := ((Mach.HeadStep.refl h m).setIll _).now
  clear_value k
  refine ⟨?_, ?_, ?_⟩
  · rw [k.casStart_last, hscale, hnow, CasFrame.cells, List.length_map]
  · unfold Mach.casStart
    dsimp only
    rw [Mach.setIll_head, hhead]
  · unfold Mach.casStart
    dsimp only
    rw [Mach.setIll_head, hhead]

theorem does_cascadeDataSend_start {req : List (BitVec 48)} (hlive : s.m.live = true) (hsafe : s.m.get F.SHR_STATUS_SAFE = 0)
    (hgoes : (s.m.head h).tpg.stopped = false) (hreq : (s.m.head h).ill.casReq = some req) (hend : (s.m.head h).ill.casEnd = none) :
    Does (.cascadeDataSend h) s (fun t => (t.m.head h).ill.cas.getLast? =
        some ⟨.data (req.map (s.m.casScale h)), t.m.now, s.m.casTB h, 11 + 56 * req.length⟩ ∧
      (t.m.head h).ill.casEnd = some (t.m.now + (11 + 56 * req.length) * s.m.casTB h) ∧ (t.m.head h).ill.casReq = none ∧
      (OtherHeads h s t ∧ Keeps s t) ∧ SameRegs (fun _ => False) s t) := by
  obtain ⟨b, hb⟩ := s.m.casData_start h hsafe hgoes hend hreq
  have hexec := exec_cascadeDataSend (h := h) hlive
  rw [hb] at hexec
  have hstep := (s.m.runTo b).dataStarted_step h req (s.m.casTB h)
  obtain ⟨hlast, hdue, hnone⟩ := (s.m.runTo b).dataStarted_ill h req (s.m.casTB h)
  rw [← hstep.now, Mach.casScale_of_regs (s.m.runTo_get b)] at hlast
  rw [← hstep.now] at hdue
  exact ⟨_, hexec, hlast, hdue, hnone, hstep.frame, ((s.m.within_runTo _ b).trans (Mach.dataStarted_within _ h req _ _)).sameRegs⟩

/-- The DATA frame that ends at this beat. -/
def Mach.dataEnded (m : Mach) (h : Fin 6) : Mach := (m.setIll h { (m.head h).ill with casEnd := none }).put (F.H_ILL_CTL_CASGO h) 0

theorem Mach.casData_end (m : Mach) (h : Fin 6) {e : Nat} (hsafe : m.get F.SHR_STATUS_SAFE = 0)
    (hgoes : (m.head h).tpg.stopped = false) (hend : (m.head h).ill.casEnd = some e) : m.casData h = ((m.runTo e).dataEnded h).pulseHead h 8 := by
  unfold Mach.casData
  rw [if_neg (Mach.casSends hsafe hgoes), hend]
  dsimp -zeta only
  generalize m.runTo e = n
  rfl

theorem does_cascadeDataSend_end {e : Nat} (hlive : s.m.live = true) (hsafe : s.m.get F.SHR_STATUS_SAFE = 0)
    (hgoes : (s.m.head h).tpg.stopped = false) (hend : (s.m.head h).ill.casEnd = some e) :
    Does (.cascadeDataSend h) s (fun t => t.m.get (F.H_ILL_CTL_CASGO h) = 0 ∧
      (t.m.head h).ill = { (s.m.head h).ill with casEnd := none } ∧ Pulsed s t (coreOf h) 8 ∧ OtherHeads h s t ∧ Keeps s t) := by
  have hexec := exec_cascadeDataSend (h := h) hlive
  rw [s.m.casData_end h hsafe hgoes hend] at hexec
  obtain ⟨k, hk⟩ : ∃ k, k = (s.m.runTo e).dataEnded h := ⟨_, rfl⟩
  rw [← hk] at hexec
  have hstep : (s.m.runTo e).HeadStep h k := hk ▸ ((Mach.HeadStep.refl h _).setIll _).putField F.H_ILL_CTL_CASGO 0 (by decide)
  have hhead : k.head h = { s.m.head h with ill := { (s.m.head h).ill with casEnd := none } } := by
    rw [hk, Mach.dataEnded, Mach.put_head, Mach.setIll_head, Mach.runTo_head]
  have hget : k.get (F.H_ILL_CTL_CASGO h) = 0 := hk ▸ Mach.get_put_fits _ F.H_ILL_CTL_CASGO 0 (by decide)
  have hlines : (s.m.runTo e).SameLines k (coreOf h) := hk ▸ (Mach.sameLines_setIll _ h _ _).trans (Mach.sameLines_put _ _ _ _ (by
    simp only [F.H_ILL_CTL_CASGO, F.H_ILL_CTL_reg]
    omega))
  have hpulse : k.pulseHead h 8 = k.pulse (coreOf h) 8 := if_neg (by
    rw [hhead]
    simp [hgoes])
  refine ⟨_, hexec, ?_, ?_, pulsed_of_head hlive (hstep.pulseHead 8).now fun hr => ?_, (hstep.pulseHead 8).frame⟩
  · exact (Mach.pulseHead_get _ h 8 _ (by simp only [F.H_ILL_CTL_CASGO, F.H_ILL_CTL_reg]; omega)).trans hget
  · show ((k.pulseHead h 8).head h).ill = _
    rw [Mach.pulseHead_head, hhead]
  · rw [hpulse]
    exact (hlines.rests hr).pulsed (by decide)

/-! ## The cascade's other frames -/

theorem exec_cascadeMark (k : CasMark) (hlive : s.m.live = true) : exec (.cascadeMark h k) s = .next { s with m := s.m.casMark h k } := s.run_ifLive _ hlive

theorem exec_cascadeMark_none (hlive : s.m.live = true) (hfind : ((s.m.head h).ill.cas.find? (fun y => y.frame = .apply)) = none) :
    exec (.cascadeMark h .apply) s = .next s := by
  refine (exec_cascadeMark .apply hlive).trans (congrArg (fun n => Host.Outcome.next ({ s with m := n } : State)) ?_)
  unfold Mach.casMark
  dsimp only
  rw [hfind]

theorem exec_cascadeMark_apply (hlive : s.m.live = true) {y : CasAt} (hfind : ((s.m.head h).ill.cas.find? (fun y => y.frame = .apply)) = some y) :
    exec (.cascadeMark h .apply) s = .next { s with m := s.m.runTo y.start } := by
  refine (exec_cascadeMark .apply hlive).trans (congrArg (fun n => Host.Outcome.next ({ s with m := n } : State)) ?_)
  unfold Mach.casMark
  dsimp only
  rw [hfind]

/-- An ON or OFF frame and its mark, at the beat that the frame goes out. -/
def Mach.markSent (m : Mach) (h : Fin 6) (mark : Nat × Bool) (f : CasFrame) (t tb : Nat) : Mach :=
  let m := m.setIll h { (m.head h).ill with casMarks := (mark :: (m.head h).ill.casMarks).take 16 }
  m.casStart h f (max t m.now) tb

theorem Mach.markSent_step (m : Mach) (h : Fin 6) (mark : Nat × Bool) (f : CasFrame) (t tb : Nat) : m.HeadStep h (m.markSent h mark f t tb) :=
  Mach.casStart_step ((Mach.HeadStep.refl h m).setIll _) _ _ _

theorem Mach.markSent_ill (m : Mach) (h : Fin 6) (mark : Nat × Bool) (f : CasFrame) (t tb : Nat) :
    ((m.markSent h mark f t tb).head h).ill.casMarks = (mark :: (m.head h).ill.casMarks).take 16 ∧
    ((m.markSent h mark f t tb).head h).ill.cas.getLast? = some ⟨f, max t m.now, tb, f.cells⟩ := by
  unfold Mach.markSent
  extract_lets x k
  have hhead : k.head h = { m.head h with ill := { x with casMarks := (mark :: (m.head h).ill.casMarks).take 16 } } := m.setIll_head h _
  have hnow : k.now = m.now := ((Mach.HeadStep.refl h m).setIll _).now
  clear_value k
  refine ⟨?_, ?_⟩
  · unfold Mach.casStart
    dsimp only
    rw [Mach.setIll_head, hhead]
  · rw [k.casStart_last, hnow]

/-- Whether a frame comes late shows in CASLATE before it goes out (R475). -/
theorem Mach.casAligned_sends (m : Mach) (h : Fin 6) {f : Nat} {l : LineCtx} (on : Bool) (hrun : m.runField h f = some l) (hon : m.casOn h l = true)
    (hlit : l.lit h f = true) (hnew : (m.head h).ill.casMarks.contains (l.casAim h f on, on) = false) :
    ∃ n t, m.HeadStep h n ∧ n.head h = m.head h ∧ l.casAim h f on - 74 * casTBOf (setGet l.set (F.H_ILL_CFG_CASTB h)) ≤ t ∧
      m.casAligned h f on = (n.runTo t).markSent h (l.casAim h f on, on) (if on then .on (l.row h f) else .off) t
        (casTBOf (setGet l.set (F.H_ILL_CFG_CASTB h))) := by
  obtain ⟨tb, htb⟩ : ∃ tb, tb = casTBOf (setGet l.set (F.H_ILL_CFG_CASTB h)) := ⟨_, rfl⟩
  obtain ⟨t, ht⟩ : ∃ t, t = max (max l.sync ((m.head h).ill.cas.foldl (fun t x => max t x.stop) 0)) (l.casAim h f on - 74 * tb) := ⟨_, rfl⟩
  refine ⟨if l.casAim h f on < t + 74 * tb then m.illFlag h (F.H_ILL_STAT_CASLATE h) else m, t, ?_, ?_, ?_, ?_⟩
  · split
    · exact (Mach.HeadStep.refl h m).illFlag F.H_ILL_STAT_CASLATE (by decide)
    · exact Mach.HeadStep.refl h m
  · split
    · exact m.illFlag_head _ h
    · rfl
  · rw [← htb, ht]
    exact Nat.le_max_right _ _
  · have hgo : ¬ (!m.casOn h l || !l.lit h f || (m.head h).ill.casMarks.contains (l.casAim h f on, on)) = true := by
      rw [hon, hlit, hnew]
      decide
    unfold Mach.casAligned
    rw [hrun]
    dsimp -zeta only
    extract_lets aim tb' busy t' k x
    rw [if_neg hgo, ← htb]
    subst ht
    subst htb
    rfl

theorem does_cascadeMark {f : Nat} {l : LineCtx} (k : CasMark) (on : Bool) (hk : s.m.casMark h k = s.m.casAligned h f on) (hlive : s.m.live = true)
    (hrun : s.m.runField h f = some l) (hon : s.m.casOn h l = true)
    (hlit : l.lit h f = true) (hnew : (s.m.head h).ill.casMarks.contains (l.casAim h f on, on) = false) :
    Does (.cascadeMark h k) s (fun t => (OtherHeads h s t ∧ Keeps s t) ∧
      (t.m.head h).ill.casMarks = ((l.casAim h f on, on) :: (s.m.head h).ill.casMarks).take 16 ∧
      ∃ b, (t.m.head h).ill.cas.getLast? = some ⟨if on then .on (l.row h f) else .off, b, casTBOf (setGet l.set (F.H_ILL_CFG_CASTB h)), 11⟩ ∧
        l.casAim h f on - 74 * casTBOf (setGet l.set (F.H_ILL_CFG_CASTB h)) ≤ b) := by
  obtain ⟨n, t, hstep, hhead, hle, heq⟩ := s.m.casAligned_sends h on hrun hon hlit hnew
  have hexec := exec_cascadeMark (h := h) k hlive
  rw [hk, heq] at hexec
  have hsent := (n.runTo t).markSent_step h (l.casAim h f on, on) (if on then .on (l.row h f) else .off) t (casTBOf (setGet l.set (F.H_ILL_CFG_CASTB h)))
  obtain ⟨hmarks, hlast⟩ := (n.runTo t).markSent_ill h (l.casAim h f on, on) (if on then .on (l.row h f) else .off) t
    (casTBOf (setGet l.set (F.H_ILL_CFG_CASTB h)))
  rw [Mach.runTo_head, hhead] at hmarks
  have hcells : (if on then CasFrame.on (l.row h f) else .off).cells = 11 := by cases on <;> rfl
  rw [hcells] at hlast
  refine ⟨_, hexec, ⟨fun j hj => ?_, fun a => ?_, rfl, rfl, rfl⟩, hmarks, _, hlast, hle.trans (Nat.le_max_left _ _)⟩
  · exact (hsent.others j hj).trans ((n.runTo_head t j).trans (hstep.others j hj))
  · exact (hsent.within.2 a).trans (((n.within_runTo (fun _ => True) t).2 a).trans (hstep.within.2 a))

end

/-! ## The obligation -/

/-- Settles O41: each row by its own lemma, over what a lamp's step may change. -/
theorem lampFrames : Obligations.LampFrames := by
  unfold Obligations.LampFrames
  intro h s hlive
  refine ⟨does_illSwap hlive, does_frameSwap hlive, does_illSwcan hlive,
    fun k v => ⟨does_illFrmwWrite_free k v hlive, does_illFrmwWrite_armed k v hlive⟩,
    fun hidle => ⟨does_illShape hlive hidle, does_illShape_armed hlive hidle⟩, does_shapeDone hlive,
    fun hidle => ⟨does_illStest hlive hidle, does_illStest_on hlive⟩,
    fun pairs hend hgoes => ⟨does_shortTestDone pairs hlive hend hgoes, does_shortTestDone_held pairs hlive hend hgoes⟩,
    does_illCasgo hlive, exec_illCasgo_busy hlive, exec_cascadeDataSend_idle hlive,
    fun req hreq hend hsends => does_cascadeDataSend_start hlive hsends.1 hsends.2 hreq hend,
    fun e hend hsends => does_cascadeDataSend_end hlive hsends.1 hsends.2 hend,
    exec_cascadeMark_none hlive, fun y => exec_cascadeMark_apply hlive, fun f l hrun hon hlit => ⟨?_, ?_⟩⟩
  · exact does_cascadeMark (.on f) true rfl hlive hrun hon hlit
  · exact does_cascadeMark (.off f) false rfl hlive hrun hon hlit

end Sys2Proof.Machine
end
section
/-!
Settles Training: link training from DETECT to ACTIVE (R773-R776, R778, R781, R782, R784).
-/

namespace Sys2Proof.Machine

/-! ## Steps that ring no line -/

/-- `n` holds what `m` holds in memory and of C7's lines, at the same beat of the same clock. -/
structure Mach.Hushed (m n : Mach) : Prop where
  lines : m.SameLines n 7
  byte : ∀ a, n.byte a = m.byte a
  now : n.now = m.now
  clk : n.clk = m.clk

section
variable {m n : Mach}

theorem Mach.Hushed.refl (m : Mach) : m.Hushed m := ⟨Mach.SameLines.refl m 7, fun _ => rfl, rfl, rfl⟩

theorem Mach.Hushed.trans {k : Mach} (h : m.Hushed n) (h' : n.Hushed k) : m.Hushed k :=
  ⟨h.lines.trans h'.lines, fun a => (h'.byte a).trans (h.byte a), h'.now.trans h.now, h'.clk.trans h.clk⟩

theorem Mach.Hushed.put (h : m.Hushed n) (f : Fld) (v : Nat) (hf : f.addr < 0x400000) : m.Hushed (n.put f v) :=
  h.trans ⟨n.sameLines_put f v 7 hf, fun a => n.put_byte f v a, n.now_put f v, n.put_clk f v⟩

theorem Mach.hushed_setLn (m : Mach) (x : LnSt) : m.Hushed { m with ln := x } := ⟨⟨rfl, rfl, rfl, rfl, rfl, rfl⟩, fun _ => rfl, rfl, rfl⟩

theorem Mach.Hushed.setLn (h : m.Hushed n) (x : LnSt) : m.Hushed { n with ln := x } := h.trans (n.hushed_setLn x)

theorem Mach.Hushed.setLane (h : m.Hushed n) (l : Fin 4) (x : LaneSt) : m.Hushed (n.setLane l x) := h.setLn _

theorem Mach.Hushed.each {α : Type} (h : m.Hushed n) (l : List α) (f : α → Mach → Mach) (hf : ∀ x (k : Mach), k.Hushed (f x k)) : m.Hushed (n.each l f) :=
  Mach.each_keeps (fun k => m.Hushed k) l f (fun x k hk => hk.trans (hf x k)) n h

end

/-! ## Entering a state -/

/-- What the lanes note on entry to a state (R774). -/
def LnSt.entering (x : LnSt) (now : Nat) : LnSt :=
  { x with entered := now, peerRun := 0, ackRun := 0, ackFrom := none, bursts := [], rxIn := [], rxDrop := false, lmcnt := 0,
           lane := (x.lane.map (fun (y : LaneSt) => { y with run := 0 })).map (fun (y : LaneSt) => { y with rxq := [] }) }

/-- `n` is `m` once the lanes have entered state `k`. -/
structure Mach.Enters (k : Nat) (m n : Mach) : Prop where
  state : n.get F.LN_STAT_STATE = k
  get : ∀ g, F.LN_STAT_STATE.apart g = true → n.get g = m.get g
  ln : n.ln = m.ln.entering m.now
  now : n.now = m.now
  byte : ∀ a, n.byte a = m.byte a
  rung : m.Rests 7 11 → n.Rung 7 11

theorem Mach.lnEnter_spec (m : Mach) {k : Nat} (hrun : m.clk.running = true) (hne : m.lnState ≠ k) (hk : k < 16) : m.Enters k (m.lnEnter k) := by
  obtain ⟨u, hu⟩ : ∃ u : Mach, u = { m with ln := m.ln.entering m.now, boot := { m.boot with laneUp := m.boot.laneUp || k = 7 } } := ⟨_, rfl⟩
  have hlines : m.SameLines u 7 := by
    subst hu
    exact ⟨rfl, rfl, rfl, rfl, rfl, rfl⟩
  have hget : ∀ g, u.get g = m.get g := by
    subst hu
    exact fun _ => rfl
  have hbyte : ∀ a, u.byte a = m.byte a := by
    subst hu
    exact fun _ => rfl
  have hln : u.ln = m.ln.entering m.now := by rw [hu]
  have hclk : u.clk = m.clk := by rw [hu]
  have hnow : u.now = m.now := by
    subst hu
    rfl
  have heq : m.lnEnter k = (u.put F.LN_STAT_STATE k).pulse 7 11 := by
    have hne' : ¬ u.lnState = k := fun he => hne ((hget F.LN_STAT_STATE).symm.trans he)
    have hdef : m.lnEnter k = if u.lnState = k then u else (u.put F.LN_STAT_STATE k).lnEvent := by
      subst hu
      rfl
    have hrun' : (u.put F.LN_STAT_STATE k).clk.running = true := by rw [Mach.put_clk, hclk, hrun]
    rw [hdef, if_neg hne', Mach.lnEvent, if_pos hrun']
  rw [heq]
  have hstate : (u.put F.LN_STAT_STATE k).get F.LN_STAT_STATE = k :=
    (u.get_put_self F.LN_STAT_STATE k (by decide) (by decide)).trans (Nat.mod_eq_of_lt hk)
  obtain ⟨r, x, b, hpulse⟩ := (u.put F.LN_STAT_STATE k).pulse_changes 7 11
  refine ⟨(Mach.get_pulse _ 7 11 (by decide)).trans hstate, fun g hg => ?_, ?_, ?_, fun a => ?_, fun hrest => ?_⟩
  · exact (Mach.get_pulse _ 7 11 (Fld.apart_lt hg)).trans ((u.get_put_apart k hg).trans (hget g))
  · rw [hpulse, ← hln]
    exact u.put_ln _ _
  · rw [Mach.pulse_now, Mach.now_put, hnow]
  · rw [← hbyte a, ← u.put_byte F.LN_STAT_STATE k a, hpulse]
    rfl
  · exact ((hlines.trans (u.sameLines_put _ _ 7 (by decide))).rests hrest).pulsed (by decide)

/-- A step of the lanes that rings no line but that of the state it enters. -/
theorem goes_of {s : State} {b e : Nat} {k n : Mach} (hlive : s.m.live = true) (hhush : (s.m.runTo b).Hushed k) (hent : k.Enters e n) :
    n.get F.LN_STAT_STATE = e ∧ Pulsed s { s with m := n } 7 11 ∧ n.ln.entered = n.now ∧ Keeps s { s with m := n } := by
  refine ⟨hent.state, ?_, ?_, fun a => ?_, rfl, rfl, rfl⟩
  · exact pulsed_of_bwl (s.m.runTo_changes b) hlive (hent.now.trans hhush.now) fun hr => hent.rung (hhush.lines.rests hr)
  · rw [hent.ln, hent.now]
    rfl
  · exact (hent.byte a).trans ((hhush.byte a).trans ((s.m.within_runTo (fun _ => True) b).2 a))

theorem Mach.Hushed.running {s : State} {b : Nat} {k : Mach} (hhush : (s.m.runTo b).Hushed k) (hlive : s.m.live = true) : k.clk.running = true := by
  obtain ⟨n, w, hr⟩ := s.m.runTo_changes b
  rw [hhush.clk, hr]
  exact (s.m.live_iff.1 hlive).1

/-! ## Taps -/

section
variable {m : Mach} {l : Fin 4}

theorem Mach.setTaps_hushed (m : Mach) (l : Fin 4) (pre post : Nat) : m.Hushed (m.setTaps l pre post) := by
  have hlt : F.LNL_TXEQ_reg l < 0x400000 := by
    simp only [F.LNL_TXEQ_reg]
    omega
  exact (((Mach.Hushed.refl m).put (F.LNL_TXEQ_PRE l) pre hlt).put (F.LNL_TXEQ_POST l) post hlt).put (F.LNL_TXEQ_MAIN l) _ hlt

theorem Mach.setTaps_ln (m : Mach) (l : Fin 4) (pre post : Nat) : (m.setTaps l pre post).ln = m.ln := by
  unfold Mach.setTaps
  rw [Mach.put_ln, Mach.put_ln, Mach.put_ln]

theorem Mach.setTaps_reg_ne (m : Mach) (l : Fin 4) (pre post : Nat) {a : Nat} (ha : a ≠ F.LNL_TXEQ_reg l) : (m.setTaps l pre post).reg a = m.reg a := by
  unfold Mach.setTaps
  rw [Mach.reg_put_ne _ _ _ ha, Mach.reg_put_ne _ _ _ ha, Mach.reg_put_ne _ _ _ ha]

theorem Mach.setTaps_get_ne (m : Mach) (l : Fin 4) (pre post : Nat) (g : Fld) (hg : g.addr ≠ F.LNL_TXEQ_reg l) : (m.setTaps l pre post).get g = m.get g := by
  rw [Mach.get, Mach.setTaps_reg_ne _ _ _ _ hg]
  rfl

/-- The taps of lane `l` show `pre` and `post`, and MAIN what they leave (R782). -/
def Mach.tapped (l : Fin 4) (pre post : Nat) (m : Mach) : Prop :=
  m.get (F.LNL_TXEQ_PRE l) = pre % 16 ∧ m.get (F.LNL_TXEQ_POST l) = post % 32 ∧ m.get (F.LNL_TXEQ_MAIN l) = (64 - pre - post) % 64

theorem lane_apart {f g : Nat → Fld} (h : ∀ j : Fin 4, (f j).apart (g j) = true) (m : Mach) (v : Nat) : (m.put (f l) v).get (g l) = m.get (g l) :=
  m.get_put_apart v (h l)

theorem lane_put (m : Mach) (f : Nat → Fld) (v : Nat) (h : ∀ j : Fin 4, (f j).lo ≤ (f j).hi ∧ (f j).hi < 32) :
    (m.put (f l) v).get (f l) = v % 2 ^ ((f l).hi + 1 - (f l).lo) := m.get_put_self _ v (h l).1 (h l).2

theorem Mach.setTaps_tapped (m : Mach) (l : Fin 4) (pre post : Nat) : (m.setTaps l pre post).tapped l pre post := by
  unfold Mach.setTaps
  refine ⟨?_, ?_, lane_put _ F.LNL_TXEQ_MAIN _ (by decide)⟩
  · refine (lane_apart (f := F.LNL_TXEQ_MAIN) (g := F.LNL_TXEQ_PRE) (by decide) _ _).trans ?_
    exact (lane_apart (f := F.LNL_TXEQ_POST) (g := F.LNL_TXEQ_PRE) (by decide) _ _).trans (lane_put m F.LNL_TXEQ_PRE pre (by decide))
  · exact (lane_apart (f := F.LNL_TXEQ_MAIN) (g := F.LNL_TXEQ_POST) (by decide) _ _).trans (lane_put _ F.LNL_TXEQ_POST post (by decide))

/-- What each lane's own write leaves, when no other lane's write takes it, every lane has at the end. -/
theorem Mach.each_lane (P : Fin 4 → Mach → Prop) (f : Fin 4 → Mach → Mach) (hself : ∀ l k, P l (f l k)) (hother : ∀ l j k, j ≠ l → P l k → P l (f j k))
    (ls : List (Fin 4)) (m : Mach) : ∀ l ∈ ls, P l (m.each ls f) := by
  induction ls using List.reverseRecOn with
  | nil => exact fun l hl => absurd hl List.not_mem_nil
  | append_singleton ls j ih =>
    intro l hl
    have hsnoc : m.each (ls ++ [j]) f = f j (m.each ls f) := List.foldl_concat _ _ _ _
    rw [hsnoc]
    by_cases hj : j = l
    · subst hj
      exact hself j _
    · exact hother l j _ hj (ih l ((List.mem_append.1 hl).resolve_right fun h => hj (List.mem_singleton.1 h).symm))

theorem mem_allLanes (l : Fin 4) : l ∈ allLanes := by
  revert l
  decide

theorem Mach.allTaps_tapped (m : Mach) (l : Fin 4) (pre post : Nat) : (m.each allLanes fun l m => m.setTaps l pre post).tapped l pre post := by
  refine m.each_lane (fun l => Mach.tapped l pre post) _ (fun l k => k.setTaps_tapped l pre post) (fun l j k hj hk => ?_) allLanes l (mem_allLanes l)
  have hne : F.LNL_TXEQ_reg l ≠ F.LNL_TXEQ_reg j := by
    simp only [F.LNL_TXEQ_reg]
    have : j.val ≠ l.val := fun he => hj (Fin.ext he)
    omega
  exact ⟨(k.setTaps_get_ne j pre post _ hne).trans hk.1, (k.setTaps_get_ne j pre post _ hne).trans hk.2.1, (k.setTaps_get_ne j pre post _ hne).trans hk.2.2⟩

theorem Mach.allTaps_hushed (m : Mach) (pre post : Nat) : m.Hushed (m.each allLanes fun l m => m.setTaps l pre post) :=
  (Mach.Hushed.refl m).each allLanes _ fun l k => k.setTaps_hushed l pre post

theorem Mach.allTaps_ln (m : Mach) (pre post : Nat) : (m.each allLanes fun l m => m.setTaps l pre post).ln = m.ln :=
  Mach.each_keeps (fun k => k.ln = m.ln) allLanes _ (fun l k hk => (k.setTaps_ln l pre post).trans hk) m rfl

theorem Mach.allTaps_get (m : Mach) (pre post : Nat) (g : Fld) (hg : ∀ l : Fin 4, g.addr ≠ F.LNL_TXEQ_reg l) :
    (m.each allLanes fun l m => m.setTaps l pre post).get g = m.get g :=
  Mach.each_keeps (fun k => k.get g = m.get g) allLanes _ (fun l k hk => (k.setTaps_get_ne l pre post g (hg l)).trans hk) m rfl

/-- The taps outlive what is put elsewhere. -/
theorem Mach.tapped_of_get {n : Mach} {pre post : Nat} (h : m.tapped l pre post) (hget : ∀ g, g.addr = F.LNL_TXEQ_reg l → n.get g = m.get g) : n.tapped l pre post :=
  ⟨(hget _ rfl).trans h.1, (hget _ rfl).trans h.2.1, (hget _ rfl).trans h.2.2⟩

theorem Mach.Enters.tapped {n : Mach} {k pre post : Nat} (h : m.Enters k n) (ht : m.tapped l pre post) : n.tapped l pre post :=
  ⟨(h.get _ ((by decide : ∀ j : Fin 4, F.LN_STAT_STATE.apart (F.LNL_TXEQ_PRE j) = true) l)).trans ht.1,
    (h.get _ ((by decide : ∀ j : Fin 4, F.LN_STAT_STATE.apart (F.LNL_TXEQ_POST j) = true) l)).trans ht.2.1,
    (h.get _ ((by decide : ∀ j : Fin 4, F.LN_STAT_STATE.apart (F.LNL_TXEQ_MAIN j) = true) l)).trans ht.2.2⟩

end

/-! ## Attempts -/

section
variable {s : State}

theorem Mach.attemptAt_state {m : Mach} {b : Nat} (h : m.attemptAt = some b) : m.lnState = 1 := by
  unfold Mach.attemptAt at h
  split at h
  · exact absurd h (by simp)
  · next hne =>
    simp only [Bool.or_eq_true, bne_iff_ne, not_or, ne_eq, Decidable.not_not] at hne
    exact hne.1.1.1.2

/-- The lanes at the beat at which an attempt begins. -/
def Mach.attempting (m : Mach) : Mach :=
  let m := { m with ln := { m.ln with attempt := some m.now, fresh := false, fellBack := false, rate := 0, width := 1 } }
  let m := m.each allLanes (fun l m => m.setTaps l 0 0)
  m.put F.LN_STAT_RATE 0

theorem Mach.attemptGo_eq {m : Mach} {b : Nat} (h : m.attemptAt = some b) : m.attemptGo = ((m.runTo b).attempting).lnEnter 2 := by
  unfold Mach.attemptGo
  rw [h]
  dsimp -zeta only
  generalize m.runTo b = k
  rfl

/-- What an attempt shows when it begins. -/
structure Mach.Attempts (m n : Mach) : Prop where
  hushed : m.Hushed n
  state : n.lnState = m.lnState
  rate : n.get F.LN_STAT_RATE = 0
  attempt : n.ln.attempt = some m.now
  fresh : n.ln.fresh = false
  taps : ∀ l, n.tapped l 0 0

theorem Mach.attempting_spec (m : Mach) : m.Attempts m.attempting := by
  unfold Mach.attempting
  extract_lets x k1 k2
  have hln2 : k2.ln = k1.ln := k1.allTaps_ln 0 0
  have htaps2 : ∀ l, k2.tapped l 0 0 := fun l => k1.allTaps_tapped l 0 0
  have hhush2 : m.Hushed k2 := (m.hushed_setLn _).trans (k1.allTaps_hushed 0 0)
  have hstate2 : k2.get F.LN_STAT_STATE = m.get F.LN_STAT_STATE := k1.allTaps_get 0 0 _ (by decide)
  have hln1 : k1.ln.attempt = some m.now ∧ k1.ln.fresh = false := ⟨rfl, rfl⟩
  clear_value k2 k1
  refine ⟨hhush2.put _ _ (by decide), (k2.get_put_apart 0 (by decide)).trans hstate2, k2.get_put_self _ _ (by decide) (by decide), ?_, ?_, fun l => ?_⟩
  · rw [Mach.put_ln, hln2]
    exact hln1.1
  · rw [Mach.put_ln, hln2]
    exact hln1.2
  · refine Mach.tapped_of_get (htaps2 l) fun g hg => k2.get_put_ne _ _ _ ?_
    rw [hg]
    simp only [F.LNL_TXEQ_reg, F.LN_STAT_RATE, F.LN_STAT_reg]
    omega

/-- The lanes are in ALIGN: an attempt has begun (R774, R781). -/
def Aligns (s t : State) : Prop :=
  (t.m.get F.LN_STAT_STATE = 2 ∧ Pulsed s t 7 11 ∧ t.m.ln.entered = t.m.now ∧ Keeps s t) ∧
    t.m.get F.LN_STAT_RATE = 0 ∧ t.m.ln.attempt = some t.m.now ∧ t.m.ln.fresh = false ∧
    ∀ l : Fin 4, t.m.get (F.LNL_TXEQ_PRE l) = 0 ∧ t.m.get (F.LNL_TXEQ_POST l) = 0

theorem Mach.runTo_setLn (m : Mach) (x : LnSt) (b : Nat) : Mach.runTo { m with ln := x } b = { m.runTo b with ln := x } := by
  unfold Mach.runTo
  have hcond : (({ m with ln := x } : Mach).clk.running && decide (({ m with ln := x } : Mach).now < b)) = (m.clk.running && decide (m.now < b)) := rfl
  rw [hcond]
  split <;> rfl

theorem aligns_of {b : Nat} {k : Mach} (hlive : s.m.live = true) (hhush : (s.m.runTo b).Hushed k) (hstate : k.lnState = 1) :
    Aligns s { s with m := k.attempting.lnEnter 2 } := by
  have hatt := k.attempting_spec
  have hhush' := hhush.trans hatt.hushed
  have hent := k.attempting.lnEnter_spec (k := 2) (hhush'.running hlive) (by rw [hatt.state, hstate]; decide) (by decide)
  refine ⟨goes_of hlive hhush' hent, (hent.get _ (by decide)).trans hatt.rate, ?_, ?_, fun l => ?_⟩
  · show (k.attempting.lnEnter 2).ln.attempt = some (k.attempting.lnEnter 2).now
    rw [hent.ln, hent.now, hatt.hushed.now]
    exact hatt.attempt
  · show (k.attempting.lnEnter 2).ln.fresh = false
    rw [hent.ln]
    exact hatt.fresh
  · obtain ⟨hpre, hpost, -⟩ := hent.tapped (hatt.taps l)
    exact ⟨hpre, hpost⟩

theorem exec_linkAttempt_stays (h : s.m.ln.field F.LN_CTL_INIT = 1 ∨ s.m.attemptAt = none) : exec .linkAttempt s = .next s := by
  have hstays : s.m.linkAttempt = s.m := by
    unfold Mach.linkAttempt
    split
    · rfl
    · next hinit =>
      unfold Mach.attemptGo
      rw [h.resolve_left hinit]
  exact congrArg (fun n => Host.Outcome.next ({ s with m := n } : State)) hstays

theorem does_linkAttempt (hlive : s.m.live = true) (hinit : s.m.ln.field F.LN_CTL_INIT = 0) (hsome : s.m.attemptAt.isSome = true) :
    Does .linkAttempt s (Aligns s) := by
  obtain ⟨b, hb⟩ := Option.isSome_iff_exists.1 hsome
  have heq : s.m.linkAttempt = (s.m.runTo b).attempting.lnEnter 2 := by
    rw [Mach.linkAttempt, if_neg (by rw [hinit]; decide), Mach.attemptGo_eq hb]
  refine ⟨_, congrArg (fun n => Host.Outcome.next ({ s with m := n } : State)) heq, ?_⟩
  exact aligns_of hlive (Mach.Hushed.refl _) ((s.m.runTo_get b _).trans (Mach.attemptAt_state hb))

end

/-! ## Timeouts -/

section
variable {s : State}

theorem Mach.runTo_ln (m : Mach) (b : Nat) : (m.runTo b).ln = m.ln := by
  obtain ⟨n, w, h⟩ := m.runTo_changes b
  rw [h]

theorem Mach.anyTest_of_get {m n : Mach} (h : ∀ f, n.get f = m.get f) : n.anyTest = m.anyTest := by
  simp only [Mach.anyTest, Mach.laneTest, Mach.is, h]

theorem Mach.lnRest_eq {m : Mach} (htest : m.anyTest = false) (hen : m.get F.LN_CTL_EN = 1) : m.lnRest = m.lnDetect := by
  rw [Mach.lnRest, if_neg (by rw [htest]; exact Bool.false_ne_true), if_pos (Mach.is_of_eq_one hen)]

/-- The lanes that take up their settings, before DETECT shows. -/
def Mach.detecting (m : Mach) : Mach :=
  let m := { m with ln := { m.ln with cfg := m.reg F.LN_CTL_reg, fellBack := false } }
  let m := m.each allLanes (fun l m => m.put (F.LNL_STAT_RXINV l) 0)
  m.put F.LN_CTL_RETRAIN 0

theorem Mach.lnDetect_eq (m : Mach) : m.lnDetect = m.detecting.lnEnter 1 := rfl

theorem Mach.detecting_spec (m : Mach) : m.Hushed m.detecting ∧ m.detecting.lnState = m.lnState := by
  unfold Mach.detecting
  extract_lets x k1 k2
  have hhush2 : m.Hushed k2 := (m.hushed_setLn _).trans ((Mach.Hushed.refl k1).each allLanes _ fun l k =>
    (Mach.Hushed.refl k).put (F.LNL_STAT_RXINV l) 0 (by
      simp only [F.LNL_STAT_RXINV, F.LNL_STAT_reg]
      omega))
  have hstate2 : k2.get F.LN_STAT_STATE = m.get F.LN_STAT_STATE :=
    Mach.each_keeps (fun k => k.get F.LN_STAT_STATE = m.get F.LN_STAT_STATE) allLanes _ (fun l k hk => (k.get_put_ne _ _ _ (by
      simp only [F.LNL_STAT_RXINV, F.LNL_STAT_reg, F.LN_STAT_STATE, F.LN_STAT_reg]
      omega)).trans hk) k1 rfl
  clear_value k2
  exact ⟨hhush2.put _ _ (by decide), (k2.get_put_apart 0 (by decide)).trans hstate2⟩

theorem detects_of {b : Nat} {k : Mach} (hlive : s.m.live = true) (hhush : (s.m.runTo b).Hushed k) (hstate : k.lnState ≠ 1) :
    k.lnDetect.get F.LN_STAT_STATE = 1 ∧ Pulsed s { s with m := k.lnDetect } 7 11 ∧ k.lnDetect.ln.entered = k.lnDetect.now ∧
      Keeps s { s with m := k.lnDetect } := by
  obtain ⟨hdet, hst⟩ := k.detecting_spec
  have hhush' := hhush.trans hdet
  rw [Mach.lnDetect_eq]
  exact goes_of hlive hhush' (k.detecting.lnEnter_spec (hhush'.running hlive) (by rw [hst]; exact hstate) (by decide))

theorem Mach.lnTimeout_early {m : Mach} (hup : m.lnUp = true) (hstate : m.lnState = 2 ∨ m.lnState = 3) :
    ∃ b, m.lnTimeout = (m.runTo b).lnRest := by
  unfold Mach.lnTimeout
  rw [hup]
  rcases hstate with h | h
  · rw [h]
    exact ⟨_, rfl⟩
  · rw [h]
    exact ⟨_, rfl⟩

theorem Mach.lnTimeout_late {m : Mach} (hup : m.lnUp = true) (hstate : m.lnState = 5 ∨ m.lnState = 6) :
    ∃ b, m.lnTimeout = (m.runTo b).lnFallback := by
  unfold Mach.lnTimeout
  rw [hup]
  rcases hstate with h | h
  · rw [h]
    exact ⟨_, rfl⟩
  · rw [h]
    exact ⟨_, rfl⟩

theorem exec_trainingTimeout : exec .trainingTimeout s = .next { s with m := s.m.lnTimeout } := rfl

theorem exec_trainingTimeout_stays (hup : s.m.lnUp = true)
    (hstate : s.m.lnState = 0 ∨ s.m.lnState = 1 ∨ s.m.lnState = 4 ∨ s.m.lnState = 7) : exec .trainingTimeout s = .next s := by
  have hstays : s.m.lnTimeout = s.m := by
    unfold Mach.lnTimeout
    rw [hup]
    rcases hstate with h | h | h | h <;> rw [h] <;> rfl
  exact exec_trainingTimeout.trans (congrArg (fun n => Host.Outcome.next ({ s with m := n } : State)) hstays)

theorem does_trainingTimeout_detect (hlive : s.m.live = true) (hup : s.m.lnUp = true) (htest : s.m.anyTest = false) (hen : s.m.get F.LN_CTL_EN = 1)
    (hstate : s.m.lnState = 2 ∨ s.m.lnState = 3) : Does .trainingTimeout s (fun t =>
      t.m.get F.LN_STAT_STATE = 1 ∧ Pulsed s t 7 11 ∧ t.m.ln.entered = t.m.now ∧ Keeps s t) := by
  obtain ⟨b, hb⟩ := Mach.lnTimeout_early hup hstate
  have hrest : (s.m.runTo b).lnRest = (s.m.runTo b).lnDetect :=
    Mach.lnRest_eq ((Mach.anyTest_of_get (s.m.runTo_get b)).trans htest) ((s.m.runTo_get b _).trans hen)
  refine ⟨_, exec_trainingTimeout.trans (congrArg (fun n => Host.Outcome.next ({ s with m := n } : State)) (hb.trans hrest)), ?_⟩
  refine detects_of hlive (Mach.Hushed.refl _) ?_
  rw [show (s.m.runTo b).lnState = s.m.lnState from s.m.runTo_get b _]
  omega

/-- The lanes that have fallen back, before ALIGN shows (R778). -/
def Mach.fallingBack (m : Mach) : Mach :=
  let m := { m with ln := { m.ln with ceil := m.ln.rate - 1, fellBack := true, rate := 0, width := 1 } }
  m.each allLanes (fun l m => m.setTaps l 0 0)

theorem Mach.lnFallback_eq (m : Mach) : m.lnFallback = m.fallingBack.lnEnter 2 := rfl

theorem Mach.fallingBack_spec (m : Mach) : m.Hushed m.fallingBack ∧ m.fallingBack.lnState = m.lnState ∧
    m.fallingBack.ln = { m.ln with ceil := m.ln.rate - 1, fellBack := true, rate := 0, width := 1 } := by
  unfold Mach.fallingBack
  extract_lets x k
  exact ⟨(m.hushed_setLn _).trans (k.allTaps_hushed 0 0), k.allTaps_get 0 0 F.LN_STAT_STATE (by decide), k.allTaps_ln 0 0⟩

theorem does_trainingTimeout_fallback (hlive : s.m.live = true) (hup : s.m.lnUp = true) (hstate : s.m.lnState = 5 ∨ s.m.lnState = 6) :
    Does .trainingTimeout s (fun t => (t.m.get F.LN_STAT_STATE = 2 ∧ Pulsed s t 7 11 ∧ t.m.ln.entered = t.m.now ∧ Keeps s t) ∧
      t.m.ln.ceil = s.m.ln.rate - 1 ∧ t.m.ln.rate = 0 ∧ t.m.ln.fellBack = true) := by
  obtain ⟨b, hb⟩ := Mach.lnTimeout_late hup hstate
  obtain ⟨hhush, hst, hln⟩ := (s.m.runTo b).fallingBack_spec
  have hne : (s.m.runTo b).fallingBack.lnState ≠ 2 := by
    rw [hst, show (s.m.runTo b).lnState = s.m.lnState from s.m.runTo_get b _]
    omega
  have hent := Mach.lnEnter_spec _ (hhush.running hlive) hne (by decide)
  rw [Mach.lnFallback_eq] at hb
  rw [s.m.runTo_ln] at hln
  refine ⟨_, exec_trainingTimeout.trans (congrArg (fun n => Host.Outcome.next ({ s with m := n } : State)) hb), goes_of hlive hhush hent, ?_⟩
  show ((s.m.runTo b).fallingBack.lnEnter 2).ln.ceil = _ ∧ ((s.m.runTo b).fallingBack.lnEnter 2).ln.rate = 0 ∧
    ((s.m.runTo b).fallingBack.lnEnter 2).ln.fellBack = true
  rw [hent.ln, hln]
  exact ⟨rfl, rfl, rfl⟩

/-! ## The lane PLL -/

theorem exec_lanePllLock_lost (href : s.m.ln.ref = false) : exec .lanePllLock s = .next s := by
  have hstays : s.m.lanePllLock = s.m := if_pos (by rw [href, Bool.not_false, Bool.or_true])
  exact congrArg (fun n => Host.Outcome.next ({ s with m := n } : State)) hstays

theorem Mach.lanePllLock_eq {m : Mach} (hup : m.lnUp = true) (href : m.ln.ref = true) : m.lanePllLock =
    if m.lnState = 4 then ((Mach.runTo { m with ln := { m.ln with pllLock := true } } (m.ln.entered + 12000)).each allLanes
      (fun l m => m.lockTaps l)).lnEnter 5 else { m with ln := { m.ln with pllLock := true } } := by
  unfold Mach.lanePllLock
  rw [if_neg (by rw [hup, href]; decide)]
  rfl

theorem exec_lanePllLock (hup : s.m.lnUp = true) (href : s.m.ln.ref = true) (hstate : s.m.lnState ≠ 4) :
    exec .lanePllLock s = .next { s with m := { s.m with ln := { s.m.ln with pllLock := true } } } :=
  congrArg (fun n => Host.Outcome.next ({ s with m := n } : State)) ((Mach.lanePllLock_eq hup href).trans (if_neg hstate))

theorem Mach.lockTaps_cases (m : Mach) (l : Fin 4) : ∃ pre post, m.lockTaps l = m.setTaps l pre post ∧
    (m.ln.eqTable = false → pre = 0 ∧ post = 6) := by
  unfold Mach.lockTaps
  split
  · next h => exact ⟨_, _, rfl, fun hno => absurd (hno.symm.trans h) Bool.false_ne_true⟩
  · exact ⟨0, 6, rfl, fun _ => ⟨rfl, rfl⟩⟩

theorem Mach.lockTaps_spec (m : Mach) (l : Fin 4) : m.Hushed (m.lockTaps l) ∧ (m.lockTaps l).ln = m.ln ∧
    (m.lockTaps l).get F.LN_STAT_STATE = m.get F.LN_STAT_STATE := by
  obtain ⟨pre, post, heq, -⟩ := m.lockTaps_cases l
  rw [heq]
  exact ⟨m.setTaps_hushed l pre post, m.setTaps_ln l pre post, m.setTaps_get_ne l pre post _ (by
    simp only [F.LNL_TXEQ_reg, F.LN_STAT_STATE, F.LN_STAT_reg]
    omega)⟩

/-- Every lane has its taps of LOCK. -/
def Mach.lockTapped (m : Mach) : Mach := m.each allLanes fun l m => m.lockTaps l

theorem Mach.lockTapped_spec (m : Mach) : m.Hushed m.lockTapped ∧ m.lockTapped.ln = m.ln ∧ m.lockTapped.get F.LN_STAT_STATE = m.get F.LN_STAT_STATE :=
  ⟨(Mach.Hushed.refl m).each allLanes _ fun l k => (k.lockTaps_spec l).1,
    Mach.each_keeps (fun k => k.ln = m.ln) allLanes _ (fun l k hk => (k.lockTaps_spec l).2.1.trans hk) m rfl,
    Mach.each_keeps (fun k => k.get F.LN_STAT_STATE = m.get F.LN_STAT_STATE) allLanes _ (fun l k hk => (k.lockTaps_spec l).2.2.trans hk) m rfl⟩

theorem Mach.lockTaps_preset {m : Mach} (heq : m.ln.eqTable = false) (l : Fin 4) : m.lockTaps l = m.setTaps l 0 6 := by
  obtain ⟨pre, post, hdef, hval⟩ := m.lockTaps_cases l
  obtain ⟨rfl, rfl⟩ := hval heq
  exact hdef

theorem Mach.each_cons {α : Type} (m : Mach) (x : α) (l : List α) (f : α → Mach → Mach) : m.each (x :: l) f = (f x m).each l f := rfl

/-- Without a table every lane takes the same taps. -/
theorem Mach.each_lockTaps (ls : List (Fin 4)) (m : Mach) (heq : m.ln.eqTable = false) :
    (m.each ls fun l m => m.lockTaps l) = m.each ls fun l m => m.setTaps l 0 6 := by
  induction ls generalizing m with
  | nil => exact (show m = m from rfl)
  | cons j ls ih =>
    rw [Mach.each_cons, Mach.each_cons, Mach.lockTaps_preset heq]
    exact ih _ (by rw [Mach.setTaps_ln, heq])

theorem Mach.lockTapped_taps (m : Mach) (heq : m.ln.eqTable = false) (l : Fin 4) : m.lockTapped.tapped l 0 6 := by
  rw [Mach.lockTapped, Mach.each_lockTaps _ _ heq]
  exact m.allTaps_tapped l 0 6

theorem does_lanePllLock (hlive : s.m.live = true) (hup : s.m.lnUp = true) (href : s.m.ln.ref = true) (hstate : s.m.lnState = 4) :
    Does .lanePllLock s (fun t => (t.m.get F.LN_STAT_STATE = 5 ∧ Pulsed s t 7 11 ∧ t.m.ln.entered = t.m.now ∧ Keeps s t) ∧
      t.m.ln.pllLock = true ∧ (s.m.ln.eqTable = false → ∀ l : Fin 4, t.m.get (F.LNL_TXEQ_PRE l) = 0 ∧ t.m.get (F.LNL_TXEQ_POST l) = 6 ∧
        t.m.get (F.LNL_TXEQ_MAIN l) = 58)) := by
  obtain ⟨b, hb⟩ : ∃ b, b = s.m.ln.entered + 12000 := ⟨_, rfl⟩
  obtain ⟨k, hk⟩ : ∃ k : Mach, k = { s.m.runTo b with ln := { s.m.ln with pllLock := true } } := ⟨_, rfl⟩
  have heq : s.m.lanePllLock = k.lockTapped.lnEnter 5 := by
    rw [Mach.lanePllLock_eq hup href, if_pos hstate, ← hb, Mach.runTo_setLn, hk]
    rfl
  have hhush : (s.m.runTo b).Hushed k := hk ▸ (s.m.runTo b).hushed_setLn _
  have hkst : k.lnState = 4 := by
    rw [hk]
    exact (s.m.runTo_get b F.LN_STAT_STATE).trans hstate
  have hkln : k.ln = { s.m.ln with pllLock := true } := by rw [hk]
  obtain ⟨hhush', hln', hst'⟩ := k.lockTapped_spec
  have hent := k.lockTapped.lnEnter_spec (k := 5) ((hhush.trans hhush').running hlive) (fun he => absurd (hkst.symm.trans (hst'.symm.trans he)) (by decide)) (by decide)
  refine ⟨_, congrArg (fun n => Host.Outcome.next ({ s with m := n } : State)) heq, goes_of hlive (hhush.trans hhush') hent, ?_, fun hno l => ?_⟩
  · show (k.lockTapped.lnEnter 5).ln.pllLock = true
    rw [hent.ln, hln', hkln]
    rfl
  · exact hent.tapped (k.lockTapped_taps (by rw [hkln]; exact hno) l)

end

/-! ## Training sets -/

section
variable {m : Mach} {l : Fin 4}

theorem Mach.lane_setLane_self (m : Mach) (l : Fin 4) (x : LaneSt) : (m.setLane l x).lane l = x := by simp [Mach.lane, Mach.setLane]

theorem Mach.lane_setLane_ne (m : Mach) {l k : Fin 4} (x : LaneSt) (h : k ≠ l) : (m.setLane l x).lane k = m.lane k := by
  simp only [Mach.lane, Mach.setLane]
  exact Vector.getElem_set_ne l.isLt k.isLt fun he => h (Fin.ext he).symm

theorem Mach.setLane_get (m : Mach) (l : Fin 4) (x : LaneSt) (f : Fld) : (m.setLane l x).get f = m.get f := rfl

/-- `n` differs from `m` in the lanes' state and in registers only. -/
def Mach.LnOnly (m n : Mach) : Prop := n = { m.regsFrom n with ln := n.ln }

theorem Mach.LnOnly.of_changes {n : Mach} (h : ∃ r b x, n = { m with regs := r, beat := b, ln := x }) : m.LnOnly n := by
  obtain ⟨r, b, x, rfl⟩ := h
  rfl

theorem Mach.countHold_changes (m : Mach) (f : Fld) (n : Nat) : ∃ r b, m.countHold f n = { m with regs := r, beat := b } := m.put_changes _ _

/-- What errors on a lane show (R764). -/
structure Mach.Errs (l : Fin 4) (e : Nat) (m n : Mach) : Prop where
  changes : ∃ r b, n = { m with regs := r, beat := b }
  within : m.Within (fun a => 0 < e ∧ (a = F.LNL_STAT_reg l ∨ a = F.LNL_ERR_reg l)) n
  shown : 0 < e → n.get (F.LNL_STAT_HDRERR l) = 1

theorem Mach.laneErrs_spec (m : Mach) (l : Fin 4) (e : Nat) : Mach.Errs l e m (m.laneErrs l e) := by
  have hset : (m.put (F.LNL_STAT_HDRERR l) 1).get (F.LNL_STAT_HDRERR l) = 1 := m.get_put_self _ 1 (Nat.le_refl _) (by show 4 < 32; decide)
  obtain ⟨r, b, hput⟩ := m.put_changes (F.LNL_STAT_HDRERR l) 1
  unfold Mach.laneErrs
  split
  · next hzero => exact ⟨⟨m.regs, m.beat, rfl⟩, Mach.Within.refl _ m, fun hpos => absurd hzero (by omega)⟩
  · next hpos =>
    have hwithin : m.Within (fun a => 0 < e ∧ (a = F.LNL_STAT_reg l ∨ a = F.LNL_ERR_reg l)) (m.put (F.LNL_STAT_HDRERR l) 1) :=
      (Mach.Within.refl _ m).put _ _ ⟨by omega, Or.inl rfl⟩
    dsimp only
    split
    · exact ⟨⟨r, b, hput⟩, hwithin, fun _ => hset⟩
    · refine ⟨?_, hwithin.put _ _ ⟨by omega, Or.inr rfl⟩, fun _ => ?_⟩
      · obtain ⟨r', b', hcount⟩ := (m.put (F.LNL_STAT_HDRERR l) 1).countHold_changes (F.LNL_ERR_N l) e
        exact ⟨r', b', by rw [hcount, hput]⟩
      · refine (Mach.get_put_ne _ (F.LNL_ERR_N l) _ _ ?_).trans hset
        simp only [F.LNL_STAT_HDRERR, F.LNL_STAT_reg, F.LNL_ERR_N, F.LNL_ERR_reg]
        omega

theorem Mach.laneErrs_zero (m : Mach) (l : Fin 4) : m.laneErrs l 0 = m := if_pos rfl

/-- The training set that the words hold, when none of them carries an error. -/
def Mach.setIn (m : Mach) (l : Fin 4) (code : LineCode) (words : List LineWord) : Option TsFields :=
  if (m.laneWords l code words).2 = 0 then parseTs (tsBytes (m.laneWords l code words).1) else none

/-- The lane whose words have broken its row of sets (R773, R775). -/
def Mach.laneBroken (m : Mach) (l : Fin 4) : Mach :=
  let m := m.setLane l { m.lane l with run := 0 }
  if l = 0 then { m with ln := { m.ln with peerRun := 0, ackRun := 0 } } else m

theorem Mach.tsReceived_none {code : LineCode} {words : List LineWord} {skew : Nat} (hup : m.lnUp = true) (hset : m.setIn l code words = none) :
    m.tsReceived l code words skew = (m.laneErrs l (m.laneWords l code words).2).laneBroken l := by
  unfold Mach.setIn at hset
  unfold Mach.tsReceived
  rw [if_neg (by rw [hup]; decide)]
  generalize m.laneWords l code words = r at hset ⊢
  obtain ⟨w, e⟩ := r
  dsimp only at hset ⊢
  rw [hset]
  rfl

/-- The lane that has taken one more set in a row. -/
def Mach.laneRan (m : Mach) (l : Fin 4) : Mach := m.setLane l { m.lane l with run := (m.lane l).run + 1 }

/-- What a set in time does in each state (R773-R777). -/
structure Mach.TakesSet (m : Mach) (l : Fin 4) (f : TsFields) (skew : Nat) (n : Mach) : Prop where
  detect : m.lnState = 1 → n = if l = 0 && (m.laneRan l).ln.field F.LN_CTL_INIT = 1 then (m.laneRan l).attemptGo else m.laneRan l
  align : m.lnState = 2 → n = if l = 0 && decide (8 ≤ ((m.laneRan l).lane 0).run) then (m.laneRan l).lnEnter 3 else m.laneRan l
  config : m.lnState = 3 → n = if l = 0 then (m.laneRan l).tsConfig f else m.laneRan l
  lock : m.lnState = 5 → n = if ((m.laneRan l).put (F.LNL_SKEW_SKEW l) skew).locked then ((m.laneRan l).put (F.LNL_SKEW_SKEW l) skew).equaliseGo
    else (m.laneRan l).put (F.LNL_SKEW_SKEW l) skew
  equalise : m.lnState = 6 → n = (m.laneRan l).tsEqualise l f

theorem Mach.tsReceived_set {code : LineCode} {words : List LineWord} {skew : Nat} {f : TsFields} (hup : m.lnUp = true)
    (hset : m.setIn l code words = some f) (hnear : m.lnState = 5 → skew ≤ 8) : m.TakesSet l f skew (m.tsReceived l code words skew) := by
  have hzero : (m.laneWords l code words).2 = 0 := by
    unfold Mach.setIn at hset
    by_contra hne
    rw [if_neg hne] at hset
    exact absurd hset (by simp)
  have hfar : (decide (m.lnState = 5) && decide (8 < skew)) = false := by
    by_contra hyes
    simp only [Bool.not_eq_false, Bool.and_eq_true, decide_eq_true_eq] at hyes
    have := hnear hyes.1
    omega
  have hran : (m.setLane l { m.lane l with run := if (decide (m.lnState = 5) && decide (8 < skew)) = true then 0 else (m.lane l).run + 1 }) = m.laneRan l := by
    rw [hfar]
    rfl
  unfold Mach.setIn at hset
  unfold Mach.tsReceived
  rw [if_neg (by rw [hup]; decide)]
  generalize m.laneWords l code words = r at hset hzero ⊢
  obtain ⟨w, e⟩ := r
  dsimp only at hset hzero ⊢
  rw [hset, hzero, m.laneErrs_zero]
  dsimp only
  rw [hran, hfar]
  have hst : (m.laneRan l).lnState = m.lnState := rfl
  refine ⟨fun h => ?_, fun h => ?_, fun h => ?_, fun h => ?_, fun h => ?_⟩ <;> rw [hst, h] <;> rfl

end

/-! ## What a set does -/

section
variable {s : State} {l : Fin 4} {code : LineCode} {words : List LineWord} {skew : Nat} {f : TsFields}

theorem exec_trainingSetReceived {n : Mach} (h : s.m.tsReceived l code words skew = n) :
    exec (.trainingSetReceived l code words skew) s = .next { s with m := n } :=
  congrArg (fun n => Host.Outcome.next ({ s with m := n } : State)) h

/-- Of the lanes, only `l` is other than before, and of the registers only those that its errors show in. -/
def Counted (l : Fin 4) (e : Nat) (s t : State) : Prop := t = { s with m := { s.m.regsFrom t.m with ln := t.m.ln } } ∧
  (∀ k, k ≠ l → t.m.lane k = s.m.lane k) ∧ SameRegs (fun a => 0 < e ∧ (a = F.LNL_STAT_reg l ∨ a = F.LNL_ERR_reg l)) s t

theorem Mach.LnOnly.state {n : Mach} (h : s.m.LnOnly n) : ({ s with m := n } : State) = { s with m := { s.m.regsFrom n with ln := n.ln } } :=
  congrArg (fun n => ({ s with m := n } : State)) h

theorem Mach.laneBroken_changes (m : Mach) (l : Fin 4) : ∃ x, m.laneBroken l = { m with ln := x } := by
  unfold Mach.laneBroken
  dsimp only
  split
  · exact ⟨_, rfl⟩
  · exact ⟨_, rfl⟩

theorem Mach.laneBroken_lane (m : Mach) (l k : Fin 4) : (m.laneBroken l).lane k = (m.setLane l { m.lane l with run := 0 }).lane k := by
  unfold Mach.laneBroken
  dsimp only
  split <;> rfl

theorem does_trainingSetReceived_none (hup : s.m.lnUp = true) (hset : s.m.setIn l code words = none) :
    Does (.trainingSetReceived l code words skew) s (fun t => Counted l (s.m.laneWords l code words).2 s t ∧
      t.m.lane l = { s.m.lane l with run := 0 } ∧ (l = 0 → t.m.ln.peerRun = 0 ∧ t.m.ln.ackRun = 0) ∧
      (0 < (s.m.laneWords l code words).2 → t.m.get (F.LNL_STAT_HDRERR l) = 1)) := by
  have hexec := exec_trainingSetReceived (Mach.tsReceived_none (skew := skew) hup hset)
  generalize (s.m.laneWords l code words).2 = e at *
  obtain ⟨⟨r, b, hchanges⟩, hwithin, hshown⟩ := s.m.laneErrs_spec l e
  generalize s.m.laneErrs l e = k at *
  have hlane : ∀ j, k.lane j = s.m.lane j := fun j => by rw [hchanges]; rfl
  obtain ⟨x, hx⟩ := k.laneBroken_changes l
  have hbroken : s.m.Within (fun a => 0 < e ∧ (a = F.LNL_STAT_reg l ∨ a = F.LNL_ERR_reg l)) (k.laneBroken l) := by
    rw [hx]
    exact hwithin.other rfl rfl
  have honly : s.m.LnOnly (k.laneBroken l) := Mach.LnOnly.of_changes ⟨r, b, x, by rw [hx, hchanges]⟩
  refine ⟨_, hexec, ⟨honly.state, fun j hj => ?_, hbroken.sameRegs⟩, ?_, fun hl => ?_, fun hpos => ?_⟩
  · show (k.laneBroken l).lane j = _
    rw [Mach.laneBroken_lane, Mach.lane_setLane_ne _ _ hj, hlane]
  · show (k.laneBroken l).lane l = _
    rw [Mach.laneBroken_lane, Mach.lane_setLane_self, hlane]
  · subst hl
    exact ⟨rfl, rfl⟩
  · show (k.laneBroken l).get _ = 1
    rw [hx]
    exact hshown hpos

theorem Mach.laneRan_lane (m : Mach) (l : Fin 4) : (m.laneRan l).lane l = { m.lane l with run := (m.lane l).run + 1 } := m.lane_setLane_self l _

theorem Mach.laneRan_hushed (m : Mach) (l : Fin 4) : m.Hushed (m.laneRan l) := m.hushed_setLn _

theorem counted_laneRan (s : State) (l : Fin 4) (e : Nat) : Counted l e s { s with m := s.m.laneRan l } :=
  ⟨rfl, fun _ hj => s.m.lane_setLane_ne _ hj, fun _ _ => rfl⟩

theorem does_trainingSetReceived_attempt (hlive : s.m.live = true) (hup : s.m.lnUp = true) (hset : s.m.setIn l code words = some f)
    (hstate : s.m.lnState = 1) (hl : l = 0) (hinit : s.m.ln.field F.LN_CTL_INIT = 1) (hsome : s.m.attemptAt.isSome = true) :
    Does (.trainingSetReceived l code words skew) s (Aligns s) := by
  have hset' := Mach.tsReceived_set (skew := skew) hup hset (fun h => absurd (hstate.symm.trans h) (by decide))
  obtain ⟨b, hb⟩ := Option.isSome_iff_exists.1 hsome
  have hat : (s.m.laneRan l).attemptAt = some b := hb
  have hgo : (decide (l = 0) && decide ((s.m.laneRan l).ln.field F.LN_CTL_INIT = 1)) = true := by
    rw [hl]
    exact decide_eq_true hinit
  have heq := (hset'.detect hstate).trans (if_pos hgo)
  rw [Mach.attemptGo_eq hat] at heq
  have hrun : (s.m.laneRan l).runTo b = { s.m.runTo b with ln := (s.m.laneRan l).ln } := s.m.runTo_setLn _ b
  rw [hrun] at heq
  exact ⟨_, exec_trainingSetReceived heq, aligns_of hlive ((s.m.runTo b).hushed_setLn _) ((s.m.runTo_get b F.LN_STAT_STATE).trans hstate)⟩

theorem does_trainingSetReceived_align (hup : s.m.lnUp = true) (hset : s.m.setIn l code words = some f)
    (hstate : s.m.lnState = 2) (hwaits : l ≠ 0 ∨ (s.m.lane l).run < 7) (e : Nat) :
    Does (.trainingSetReceived l code words skew) s (fun t => Counted l e s t ∧ t.m.lane l = { s.m.lane l with run := (s.m.lane l).run + 1 }) := by
  have hset' := Mach.tsReceived_set (skew := skew) hup hset (fun h => absurd (hstate.symm.trans h) (by decide))
  have hno : ¬ (decide (l = 0) && decide (8 ≤ ((s.m.laneRan l).lane 0).run)) = true := by
    rw [Bool.and_eq_true, decide_eq_true_eq, decide_eq_true_eq]
    rintro ⟨rfl, hrun⟩
    rw [Mach.laneRan_lane] at hrun
    have : 8 ≤ (s.m.lane 0).run + 1 := hrun
    omega
  exact ⟨_, exec_trainingSetReceived ((hset'.align hstate).trans (if_neg hno)), counted_laneRan s l e, s.m.laneRan_lane l⟩

theorem goes_of_here {e : Nat} {k n : Mach} (hlive : s.m.live = true) (hhush : s.m.Hushed k) (hent : k.Enters e n) :
    n.get F.LN_STAT_STATE = e ∧ Pulsed s { s with m := n } 7 11 ∧ n.ln.entered = n.now ∧ Keeps s { s with m := n } := by
  rw [← s.m.runTo_zero] at hhush
  exact goes_of hlive hhush hent

theorem does_trainingSetReceived_config (hlive : s.m.live = true) (hup : s.m.lnUp = true) (hset : s.m.setIn l code words = some f)
    (hstate : s.m.lnState = 2) (hl : l = 0) (hrun : 7 ≤ (s.m.lane l).run) : Does (.trainingSetReceived l code words skew) s (fun t =>
      t.m.get F.LN_STAT_STATE = 3 ∧ Pulsed s t 7 11 ∧ t.m.ln.entered = t.m.now ∧ Keeps s t) := by
  have hset' := Mach.tsReceived_set (skew := skew) hup hset (fun h => absurd (hstate.symm.trans h) (by decide))
  have hgo : (decide (l = 0) && decide (8 ≤ ((s.m.laneRan l).lane 0).run)) = true := by
    subst hl
    rw [Mach.laneRan_lane]
    exact decide_eq_true (show 8 ≤ (s.m.lane 0).run + 1 by omega)
  have hne : (s.m.laneRan l).lnState ≠ 3 := fun h => absurd (hstate.symm.trans h) (by decide)
  have hclk : (s.m.laneRan l).clk.running = true := (s.m.live_iff.1 hlive).1
  exact ⟨_, exec_trainingSetReceived ((hset'.align hstate).trans (if_pos hgo)),
    goes_of_here hlive (s.m.laneRan_hushed l) (Mach.lnEnter_spec _ hclk hne (by decide))⟩

theorem locked_of_unblocked {m : Mach} (l : Fin 4) (v : Nat) (hunlocked : m.locked = false) (hblock : m.get (F.LNL_STAT_BLOCK l) = 0) :
    ((m.laneRan l).put (F.LNL_SKEW_SKEW l) v).locked = false := by
  unfold Mach.locked at hunlocked ⊢
  obtain ⟨j, hj, hno⟩ := List.all_eq_false.1 hunlocked
  have hln : ((m.laneRan l).put (F.LNL_SKEW_SKEW l) v).ln = (m.laneRan l).ln := Mach.put_ln _ _ _
  have hget : ((m.laneRan l).put (F.LNL_SKEW_SKEW l) v).get (F.LNL_STAT_BLOCK j) = m.get (F.LNL_STAT_BLOCK j) := by
    refine (Mach.get_put_ne _ _ _ _ ?_).trans (m.setLane_get l _ _)
    simp only [F.LNL_STAT_BLOCK, F.LNL_STAT_reg, F.LNL_SKEW_SKEW, F.LNL_SKEW_reg]
    omega
  rw [List.all_eq_false]
  refine ⟨j, ?_, fun hyes => ?_⟩
  · rw [hln]
    exact hj
  · rw [Mach.is, hget] at hyes
    by_cases hjl : j = l
    · subst hjl
      rw [hblock] at hyes
      exact absurd hyes (by simp)
    · refine hno ?_
      have hlane : ((m.laneRan l).put (F.LNL_SKEW_SKEW l) v).lane j = m.lane j := by
        rw [Mach.lane, hln]
        exact m.lane_setLane_ne _ hjl
      rw [hlane] at hyes
      exact hyes

theorem does_trainingSetReceived_lock (hup : s.m.lnUp = true) (hset : s.m.setIn l code words = some f)
    (hstate : s.m.lnState = 5) (hnear : skew ≤ 8) (hunlocked : s.m.locked = false) (hblock : s.m.get (F.LNL_STAT_BLOCK l) = 0) :
    Does (.trainingSetReceived l code words skew) s (fun t => t.m.get (F.LNL_SKEW_SKEW l) = skew ∧
      t.m.lane l = { s.m.lane l with run := (s.m.lane l).run + 1 } ∧ SameRegs (· = F.LNL_SKEW_reg l) s t ∧ Keeps s t) := by
  have hset' := Mach.tsReceived_set (skew := skew) hup hset (fun _ => hnear)
  have hno := locked_of_unblocked l skew hunlocked hblock
  have heq := (hset'.lock hstate).trans (if_neg (by rw [hno]; exact Bool.false_ne_true))
  have hwithin : s.m.Within (· = F.LNL_SKEW_reg l) ((s.m.laneRan l).put (F.LNL_SKEW_SKEW l) skew) :=
    ((Mach.Within.refl (· = F.LNL_SKEW_reg l) s.m).other (k := s.m.laneRan l) rfl rfl).put (F.LNL_SKEW_SKEW l) skew rfl
  refine ⟨_, exec_trainingSetReceived heq, ?_, ?_, hwithin.sameRegs, hwithin.keeps⟩
  · refine (lane_put _ F.LNL_SKEW_SKEW skew (by decide)).trans (Nat.mod_eq_of_lt ?_)
    show skew < 16
    omega
  · show ((s.m.laneRan l).put (F.LNL_SKEW_SKEW l) skew).lane l = _
    rw [Mach.lane, Mach.put_ln]
    exact s.m.laneRan_lane l

end

/-! ## CONFIG complete -/

section
variable {s : State} {l : Fin 4} {code : LineCode} {words : List LineWord} {skew : Nat} {f : TsFields}

/-- The link that becomes ACTIVE, before the state shows it (R774, R789, R791). -/
def Mach.activating (m : Mach) : Mach :=
  let m := m.each m.ln.link (fun l m => m.put (F.LNL_STAT_INLINK l) 1)
  let m := (m.put F.LN_STAT_WIDTH m.ln.width).countHold F.LN_CNT_TRAINS 1
  { m with ln := { m.ln with gone := none } }

theorem Mach.lnActive_eq (m : Mach) : m.lnActive = m.activating.lnEnter 7 := rfl

/-- What becoming ACTIVE shows before the state does. -/
structure Mach.Activates (m n : Mach) : Prop where
  hushed : m.Hushed n
  get : ∀ g, g.addr = F.LN_STAT_reg → g.hi < 8 → n.get g = m.get g
  width : n.get F.LN_STAT_WIDTH = m.ln.width % 8
  inlink : ∀ l : Fin 4, l.val < m.ln.width → n.get (F.LNL_STAT_INLINK l) = 1
  ln : n.ln = { m.ln with gone := none }

theorem inlink_lt (l : Fin 4) : (F.LNL_STAT_INLINK l).addr < 0x400000 := by
  simp only [F.LNL_STAT_INLINK, F.LNL_STAT_reg]
  omega

theorem Mach.activating_spec (m : Mach) : m.Activates m.activating := by
  unfold Mach.activating
  extract_lets k1 k2
  have hhush1 : m.Hushed k1 := (Mach.Hushed.refl m).each _ _ fun l k => (Mach.Hushed.refl k).put (F.LNL_STAT_INLINK l) 1 (inlink_lt l)
  have hln1 : k1.ln = m.ln := Mach.each_keeps (fun k => k.ln = m.ln) _ _ (fun l k hk => (k.put_ln _ _).trans hk) m rfl
  have hget1 : ∀ g, g.addr = F.LN_STAT_reg → k1.get g = m.get g := fun g hg =>
    Mach.each_keeps (fun k => k.get g = m.get g) _ _ (fun l k hk => (k.get_put_ne _ _ _ (by
      rw [hg]
      simp only [F.LNL_STAT_INLINK, F.LNL_STAT_reg, F.LN_STAT_reg]
      omega)).trans hk) m rfl
  have hin1 : ∀ l : Fin 4, l.val < m.ln.width → k1.get (F.LNL_STAT_INLINK l) = 1 := fun l hl => by
    refine Mach.each_lane (fun l k => k.get (F.LNL_STAT_INLINK l) = 1) _ (fun l k => lane_put k F.LNL_STAT_INLINK 1 (by decide))
      (fun l j k hj hk => (k.get_put_ne _ _ _ ?_).trans hk) m.ln.link m l (List.mem_filter.2 ⟨mem_allLanes l, decide_eq_true hl⟩)
    have : j.val ≠ l.val := fun he => hj (Fin.ext he)
    simp only [F.LNL_STAT_INLINK, F.LNL_STAT_reg]
    omega
  clear_value k1
  have hhush2 : k1.Hushed k2 := ((Mach.Hushed.refl k1).put _ _ (by decide)).put _ _ (by decide)
  have hln2 : k2.ln = k1.ln := (Mach.put_ln _ _ _).trans (Mach.put_ln _ _ _)
  have hget2 : ∀ g, g.addr = F.LN_STAT_reg → g.hi < 8 → k2.get g = k1.get g := fun g hg hlo => by
    refine (Mach.get_put_ne _ F.LN_CNT_TRAINS g _ (by rw [hg]; decide)).trans ?_
    exact Mach.get_put_of_lt _ F.LN_STAT_WIDTH g _ hg hlo (by decide) (by decide)
  have hwidth2 : k2.get F.LN_STAT_WIDTH = k1.ln.width % 8 :=
    (Mach.get_put_ne _ F.LN_CNT_TRAINS F.LN_STAT_WIDTH _ (by decide)).trans (k1.get_put_self F.LN_STAT_WIDTH _ (by decide) (by decide))
  have hin2 : ∀ l : Fin 4, k2.get (F.LNL_STAT_INLINK l) = k1.get (F.LNL_STAT_INLINK l) := fun l =>
    (Mach.get_put_apart _ _ ((by decide : ∀ j : Fin 4, F.LN_CNT_TRAINS.apart (F.LNL_STAT_INLINK j) = true) l)).trans
      (Mach.get_put_apart _ _ ((by decide : ∀ j : Fin 4, F.LN_STAT_WIDTH.apart (F.LNL_STAT_INLINK j) = true) l))
  clear_value k2
  refine ⟨(hhush1.trans hhush2).setLn _, fun g hg hlo => (hget2 g hg hlo).trans (hget1 g hg), ?_, fun l hl => (hin2 l).trans (hin1 l hl), ?_⟩
  · rw [← hln1]
    exact hwidth2
  · show { k2.ln with gone := none } = _
    rw [hln2, hln1]

/-- CONFIG ends when sixteen sets have gone out with ACK and eight have come in (R774, R775). -/
theorem Mach.tryComplete_config {m : Mach} {t0 : Nat} (hstate : m.lnState = 3) (hack : m.ln.ackFrom = some t0) (hacks : 8 ≤ m.ln.ackRun) :
    m.tryComplete = if m.ln.rate = 0 then ((m.runTo (t0 + 12288)).put F.LN_STAT_RATE m.ln.rate).lnActive
      else ((m.runTo (t0 + 12288)).put F.LN_STAT_RATE m.ln.rate).lnEnter 4 := by
  have hwait : t0 + ceilDiv (16 * tsTime 0) 100 = t0 + 12288 := rfl
  have hst : (m.runTo (t0 + 12288)).lnState = 3 := (m.runTo_get _ F.LN_STAT_STATE).trans hstate
  have hln : (m.runTo (t0 + 12288)).ln = m.ln := m.runTo_ln _
  have hrate : ((m.runTo (t0 + 12288)).put F.LN_STAT_RATE m.ln.rate).ln.rate = m.ln.rate := by rw [Mach.put_ln, hln]
  unfold Mach.tryComplete
  rw [hack]
  dsimp -zeta only
  rw [if_neg (by omega)]
  extract_lets rate k k'
  have hk : k = m.runTo (t0 + 12288) := by
    show m.runTo (t0 + ceilDiv (16 * tsTime (if m.lnState = 3 then 0 else m.ln.rate)) 100) = _
    rw [if_pos hstate, hwait]
  have hk' : k' = (m.runTo (t0 + 12288)).put F.LN_STAT_RATE m.ln.rate := by
    show k.put F.LN_STAT_RATE k.ln.rate = _
    rw [hk, hln]
  clear_value k' k rate
  rw [hk, if_pos hst, hk', hrate]

/-- What the lanes note of a set that completes CONFIG (R775, R776). -/
def LnSt.configured (x : LnSt) (f : TsFields) (t0 : Nat) : LnSt :=
  { x with peer := (f.maxRate, f.mask), peerRun := x.peerRun + 1, rate := f.rate, width := f.width, ackFrom := some t0,
           ackRun := x.ackRun + 1 }

/-- What a set of CONFIG that completes it leaves before the state changes (R775, R776). -/
theorem Mach.tsConfig_done {m : Mach} {t0 : Nat} (hstate : m.lnState = 3) (hack : m.ln.ackFrom = some t0)
    (hall : m.lnAligned = m.ln.mask) (hpeerst : f.state = 3) (hpeer : (f.maxRate, f.mask) = m.ln.peer) (hpeers : 7 ≤ m.ln.peerRun)
    (hacks : 7 ≤ m.ln.ackRun) (hfack : f.ack = true) (hrate : f.rate = min m.ln.maxRate f.maxRate) (hwidth : f.width = widthOf (m.lnAligned &&& f.mask)) :
    ∃ y : LnSt, y.rate = f.rate ∧ y.width = f.width ∧ m.tsConfig f =
      if y.rate = 0 then ((Mach.runTo { m with ln := y } (t0 + 12288)).put F.LN_STAT_RATE y.rate).lnActive
      else ((Mach.runTo { m with ln := y } (t0 + 12288)).put F.LN_STAT_RATE y.rate).lnEnter 4 := by
  refine ⟨m.ln.configured f t0, rfl, rfl, ?_⟩
  have hpeers' : (if f.state != 3 then 0 else if (f.maxRate, f.mask) = m.ln.peer then m.ln.peerRun + 1 else 1) = m.ln.peerRun + 1 := by
    rw [hpeerst, if_neg (by decide), if_pos hpeer]
  have hok : (decide (8 ≤ m.ln.peerRun + 1) && (decide (m.lnAligned = m.ln.mask) || decide (m.ln.entered + 3000000 ≤ m.now))) = true := by
    rw [decide_eq_true hall, Bool.true_or, Bool.and_true]
    exact decide_eq_true (by omega)
  have hcounts : m.tsConfig f = Mach.tryComplete { m with ln := m.ln.configured f t0 } := by
    unfold Mach.tsConfig
    dsimp only
    rw [hpeers', hok, if_pos rfl, hack, ← hrate, ← hwidth]
    unfold Mach.countAck
    dsimp only
    rw [if_pos (by simp [hfack])]
    rfl
  have hacks' : 8 ≤ ({ m with ln := m.ln.configured f t0 } : Mach).ln.ackRun := Nat.succ_le_succ hacks
  rw [hcounts, Mach.tryComplete_config (m := { m with ln := m.ln.configured f t0 }) hstate rfl hacks']

theorem widthOf_lt (mask : Nat) : widthOf mask < 8 := by
  unfold widthOf
  split
  · decide
  · split <;> decide

theorem does_trainingSetReceived_done {t0 : Nat} (hlive : s.m.live = true) (hup : s.m.lnUp = true) (hset : s.m.setIn l code words = some f)
    (hstate : s.m.lnState = 3) (hl : l = 0) (hack : s.m.ln.ackFrom = some t0)
    (hall : s.m.lnAligned = s.m.ln.mask) (hpeerst : f.state = 3) (hpeer : (f.maxRate, f.mask) = s.m.ln.peer) (hpeers : 7 ≤ s.m.ln.peerRun)
    (hacks : 7 ≤ s.m.ln.ackRun) (hfack : f.ack = true) (hrate : f.rate = min s.m.ln.maxRate f.maxRate)
    (hwidth : f.width = widthOf (s.m.lnAligned &&& f.mask)) : Does (.trainingSetReceived l code words skew) s (fun t =>
      (t.m.get F.LN_STAT_STATE = (if f.rate = 0 then 7 else 4) ∧ Pulsed s t 7 11 ∧ t.m.ln.entered = t.m.now ∧ Keeps s t) ∧ t.m.ln.rate = f.rate ∧
      t.m.ln.width = f.width ∧ t.m.get F.LN_STAT_RATE = f.rate % 4 ∧ t.m.now = (s.m.runTo (t0 + 12288)).now ∧
      (f.rate = 0 → t.m.get F.LN_STAT_WIDTH = f.width ∧ ∀ k : Fin 4, k.val < f.width → t.m.get (F.LNL_STAT_INLINK k) = 1)) := by
  have hset' := Mach.tsReceived_set (skew := skew) hup hset (fun h => absurd (hstate.symm.trans h) (by decide))
  obtain ⟨y, hyrate, hywidth, hy⟩ := Mach.tsConfig_done (m := s.m.laneRan l) hstate hack hall hpeerst hpeer hpeers hacks hfack hrate hwidth
  have heq := ((hset'.config hstate).trans (if_pos hl)).trans hy
  have hran : ({ s.m.laneRan l with ln := y } : Mach) = { s.m with ln := y } := rfl
  rw [hran, Mach.runTo_setLn] at heq
  generalize t0 + 12288 = b at heq ⊢
  obtain ⟨k, hk⟩ : ∃ k : Mach, k = Mach.put { s.m.runTo b with ln := y } F.LN_STAT_RATE y.rate := ⟨_, rfl⟩
  rw [← hk] at heq
  have hhush : (s.m.runTo b).Hushed k := hk ▸ ((s.m.runTo b).hushed_setLn y).put _ _ (by decide)
  have hkln : k.ln = y := by rw [hk, Mach.put_ln]
  have hkst : k.lnState = 3 := by
    rw [hk]
    exact (Mach.get_put_apart _ _ (by decide)).trans ((s.m.runTo_get b F.LN_STAT_STATE).trans hstate)
  have hkrate : k.get F.LN_STAT_RATE = f.rate % 4 := by
    rw [hk, hyrate]
    exact Mach.get_put_self _ F.LN_STAT_RATE _ (by decide) (by decide)
  by_cases hzero : f.rate = 0
  · have hact := k.activating_spec
    have hhush' := hhush.trans hact.hushed
    have hne : k.activating.lnState ≠ 7 := fun he => absurd (hkst.symm.trans ((hact.get F.LN_STAT_STATE rfl (by decide)).symm.trans he)) (by decide)
    have hent := k.activating.lnEnter_spec (k := 7) (hhush'.running hlive) hne (by decide)
    have hgoes := goes_of hlive hhush' hent
    rw [if_pos (hyrate.trans hzero), Mach.lnActive_eq] at heq
    generalize k.activating.lnEnter 7 = n at hent hgoes heq
    rw [if_pos hzero]
    refine ⟨{ s with m := n }, exec_trainingSetReceived heq, hgoes, ?_, ?_, ?_, hent.now.trans hhush'.now, fun _ => ⟨?_, fun j hj => ?_⟩⟩
    · show n.ln.rate = _
      rw [hent.ln, hact.ln, hkln]
      exact hyrate
    · show n.ln.width = _
      rw [hent.ln, hact.ln, hkln]
      exact hywidth
    · exact (hent.get _ (by decide)).trans ((hact.get _ rfl (by decide)).trans hkrate)
    · refine (hent.get _ (by decide)).trans (hact.width.trans ?_)
      rw [hkln, hywidth, hwidth]
      exact Nat.mod_eq_of_lt (widthOf_lt _)
    · refine (hent.get _ ((by decide : ∀ j : Fin 4, F.LN_STAT_STATE.apart (F.LNL_STAT_INLINK j) = true) j)).trans (hact.inlink j ?_)
      rw [hkln, hywidth]
      exact hj
  · have hne : k.lnState ≠ 4 := fun he => absurd (hkst.symm.trans he) (by decide)
    have hent := k.lnEnter_spec (k := 4) (hhush.running hlive) hne (by decide)
    have hgoes := goes_of hlive hhush hent
    rw [if_neg (fun h => hzero (hyrate.symm.trans h))] at heq
    generalize k.lnEnter 4 = n at hent hgoes heq
    rw [if_neg hzero]
    refine ⟨{ s with m := n }, exec_trainingSetReceived heq, hgoes, ?_, ?_, (hent.get _ (by decide)).trans hkrate, hent.now.trans hhush.now, fun h => absurd h hzero⟩
    · show n.ln.rate = _
      rw [hent.ln, hkln]
      exact hyrate
    · show n.ln.width = _
      rw [hent.ln, hkln]
      exact hywidth

end

/-! ## EQUALISE -/

/-- What a lane shows its partner of the request it has acted on (R784). -/
def LaneSt.answers (x : LaneSt) : Bool × Nat × Nat := (x.ackTog, x.preStat, x.postStat)

theorem LaneSt.request_answers (x : LaneSt) (phase : Nat) : (x.request phase).answers = x.answers := by
  unfold LaneSt.request
  split <;> rfl

theorem LaneSt.tapDone_answers (x : LaneSt) : x.tapDone.answers = x.answers := by
  unfold LaneSt.tapDone
  split
  · exact x.request_answers 10
  · split
    · exact LaneSt.request_answers _ 6
    · rfl

/-- The search of R785 leaves what the lane answers. -/
theorem LaneSt.echo_answers (x : LaneSt) (pre post : Nat) : (x.echo pre post).answers = x.answers := by
  unfold LaneSt.echo
  extract_lets stat
  split
  · rfl
  · exact x.request_answers 8
  · exact x.request_answers 12
  · exact x.tapDone_answers
  · exact x.tapDone_answers
  · split
    · rfl
    · exact x.request_answers 8
  · split
    · rfl
    · exact x.request_answers 12
  · split
    · rfl
    · exact x.tapDone_answers
  · split
    · rfl
    · exact x.tapDone_answers
  · rfl

section
variable {s : State} {l : Fin 4} {code : LineCode} {words : List LineWord} {skew : Nat} {f : TsFields}

theorem Mach.actRequest_preset {m : Mach} {pre post preset : Nat} {tog : Bool} (htable : m.ln.eqTable = false) (htog : tog ≠ (m.lane l).ackTog)
    (hlo : 1 ≤ preset) (hhi : preset ≤ 4) : m.actRequest l pre post preset tog =
      (m.setTaps l (presetTaps preset).1 (presetTaps preset).2).setLane l { m.lane l with ackTog := tog, preStat := 0, postStat := 0 } := by
  have hrefuse : ¬ (m.ln.eqTable || decide (4 < preset) || (decide (preset = 0) && (decide (pre = 3) || decide (post = 3)))) = true := by
    rw [htable, decide_eq_false (by omega : ¬ 4 < preset), decide_eq_false (by omega : ¬ preset = 0), Bool.false_and]
    decide
  unfold Mach.actRequest
  dsimp only
  rw [if_neg htog, if_neg hrefuse, if_pos (by simp; omega)]

/-- A set of EQUALISE on a lane other than 0 whose request the lane takes. -/
theorem Mach.tsEqualise_preset {m : Mach} (hl : l ≠ 0) (hlink : l.val < m.ln.width) (htable : m.ln.eqTable = false)
    (htog : f.reqTog ≠ (m.lane l).ackTog) (hlo : 1 ≤ f.preset) (hhi : f.preset ≤ 4) : ∃ x : LnSt,
      m.tsEqualise l f = { m.setTaps l (presetTaps f.preset).1 (presetTaps f.preset).2 with ln := x } ∧ x.lane[l].answers = (f.reqTog, 0, 0) := by
  obtain ⟨y, hy⟩ : ∃ y : LaneSt, y = { m.lane l with ackTog := f.reqTog, preStat := 0, postStat := 0 } := ⟨_, rfl⟩
  obtain ⟨k, hk⟩ : ∃ k, k = m.setTaps l (presetTaps f.preset).1 (presetTaps f.preset).2 := ⟨_, rfl⟩
  have hact : m.actRequest l f.preCmd f.postCmd f.preset f.reqTog = k.setLane l y := by
    rw [hk, hy]
    exact Mach.actRequest_preset htable htog hlo hhi
  have hans : y.answers = (f.reqTog, 0, 0) := by rw [hy]; rfl
  have hlane : (k.setLane l y).lane l = y := k.lane_setLane_self l y
  rw [← hk]
  unfold Mach.tsEqualise
  rw [if_neg (by omega), hact]
  extract_lets m0 x k1 ended src k2
  have hk1 : ∃ z : LaneSt, k1 = k.setLane l z ∧ z.answers = (f.reqTog, 0, 0) := by
    have hsame : ∀ z w : LaneSt, (k.setLane l z).setLane l w = k.setLane l w := fun z w => by
      simp only [Mach.setLane, Vector.set_set]
    show ∃ z : LaneSt, (if x.wait = 1 && f.ackTog = x.reqTog then (k.setLane l y).setLane l (x.echo f.preStat f.postStat) else k.setLane l y) =
      k.setLane l z ∧ z.answers = (f.reqTog, 0, 0)
    have hx : x = y := hlane
    split
    · exact ⟨_, hsame _ _, by rw [LaneSt.echo_answers, hx, hans]⟩
    · exact ⟨y, rfl, hans⟩
  obtain ⟨z, hz, hzans⟩ := hk1
  rw [if_neg hl]
  refine ⟨k2.ln, ?_, ?_⟩
  · show ({ k1 with ln := k2.ln } : Mach) = { k with ln := k2.ln }
    rw [hz]
    rfl
  show k1.ln.lane[l].answers = _
  have hlz : k1.ln.lane[l] = z := by
    rw [hz]
    exact k.lane_setLane_self l z
  rw [hlz, hzans]

theorem presetTaps_lt {p : Nat} : (presetTaps p).1 < 16 ∧ (presetTaps p).2 < 32 := by
  unfold presetTaps
  split
  · decide
  · split
    · decide
    · split <;> decide

theorem does_trainingSetReceived_equalise (hup : s.m.lnUp = true) (hset : s.m.setIn l code words = some f)
    (hstate : s.m.lnState = 6) (hl : l ≠ 0) (hlink : l.val < s.m.ln.width) (htable : s.m.ln.eqTable = false)
    (htog : f.reqTog ≠ (s.m.lane l).ackTog) (hlo : 1 ≤ f.preset) (hhi : f.preset ≤ 4) :
    Does (.trainingSetReceived l code words skew) s (fun t =>
      (t.m.get (F.LNL_TXEQ_PRE l), t.m.get (F.LNL_TXEQ_POST l)) = presetTaps f.preset ∧ (t.m.lane l).ackTog = f.reqTog ∧
      (t.m.lane l).preStat = 0 ∧ (t.m.lane l).postStat = 0 ∧ SameRegs (· = F.LNL_TXEQ_reg l) s t ∧ Keeps s t) := by
  have hset' := Mach.tsReceived_set (skew := skew) hup hset (fun h => absurd (hstate.symm.trans h) (by decide))
  have htog' : f.reqTog ≠ ((s.m.laneRan l).lane l).ackTog := by rw [Mach.laneRan_lane]; exact htog
  obtain ⟨x, hx, hans⟩ := Mach.tsEqualise_preset (m := s.m.laneRan l) hl hlink htable htog' hlo hhi
  obtain ⟨hpre, hpost⟩ := presetTaps_lt (p := f.preset)
  have htaps := (s.m.laneRan l).setTaps_tapped l (presetTaps f.preset).1 (presetTaps f.preset).2
  have hhush := (s.m.laneRan_hushed l).trans ((s.m.laneRan l).setTaps_hushed l (presetTaps f.preset).1 (presetTaps f.preset).2)
  have hreg : ∀ a, a ≠ F.LNL_TXEQ_reg l → ((s.m.laneRan l).setTaps l (presetTaps f.preset).1 (presetTaps f.preset).2).reg a = s.m.reg a :=
    fun a ha => (s.m.laneRan l).setTaps_reg_ne l _ _ ha
  generalize (s.m.laneRan l).setTaps l (presetTaps f.preset).1 (presetTaps f.preset).2 = k at *
  obtain ⟨htog'', hst⟩ := Prod.mk.inj hans
  obtain ⟨hprest, hpostst⟩ := Prod.mk.inj hst
  refine ⟨{ s with m := { k with ln := x } }, exec_trainingSetReceived ((hset'.equalise hstate).trans hx), ?_, htog'', hprest, hpostst, hreg,
    hhush.byte, rfl, rfl, rfl⟩
  exact Prod.ext (htaps.1.trans (Nat.mod_eq_of_lt hpre)) (htaps.2.1.trans (Nat.mod_eq_of_lt hpost))

end

/-! ## The obligation -/

/-- Settles O52: each row by the state that it finds, over what entering a state does. -/
theorem training : Obligations.Training := by
  unfold Obligations.Training
  intro s hlive hup htest hen
  refine ⟨exec_linkAttempt_stays, does_linkAttempt hlive, does_trainingTimeout_detect hlive hup htest hen,
    does_trainingTimeout_fallback hlive hup, exec_trainingTimeout_stays hup, does_lanePllLock hlive hup, exec_lanePllLock hup,
    exec_lanePllLock_lost, fun l code words skew => ⟨does_trainingSetReceived_none hup, fun f hset => ⟨?_, ?_, ?_, ?_, ?_, ?_⟩⟩⟩
  · exact does_trainingSetReceived_attempt hlive hup hset
  · exact fun hstate hwaits => does_trainingSetReceived_align hup hset hstate hwaits _
  · exact does_trainingSetReceived_config hlive hup hset
  · exact fun t0 => does_trainingSetReceived_done hlive hup hset
  · exact does_trainingSetReceived_lock hup hset
  · exact does_trainingSetReceived_equalise hup hset

end Sys2Proof.Machine
end
section
/-!
Settles FramesSent: the frames that ST sends (R808, R813, R814, R817, R819-R822, R826, R829, R831, R832, R845).
-/

namespace Sys2Proof.Machine

/-! ## Bringing the line store up -/

theorem Mach.putPixels_changes (m : Mach) (a : Nat) (l : List Byte) : ∃ x y z, m.putPixels a l = { m with mem := x, eccBad := y, eccOne := z } := by
  obtain ⟨x, hx⟩ := m.storeBytes_changes a l
  unfold Mach.putPixels
  rw [hx]
  exact ⟨_, _, _, rfl⟩

/-- `n` differs from `m` in memory and heads only. -/
def Mach.CaughtUp (m n : Mach) : Prop := ∃ x y z h, n = { m with mem := x, eccBad := y, eccOne := z, heads := h }

theorem Mach.CaughtUp.refl (m : Mach) : m.CaughtUp m := ⟨m.mem, m.eccBad, m.eccOne, m.heads, rfl⟩

theorem Mach.CaughtUp.trans {m n k : Mach} (h : m.CaughtUp n) (h' : n.CaughtUp k) : m.CaughtUp k := by
  obtain ⟨x, y, z, w, rfl⟩ := h
  obtain ⟨x', y', z', w', rfl⟩ := h'
  exact ⟨x', y', z', w', rfl⟩

theorem Mach.caughtUp_foldl {α : Type} (l : List α) (f : Mach → α → Mach) (hf : ∀ k x, Mach.CaughtUp k (f k x)) (m : Mach) :
    m.CaughtUp (l.foldl f m) := by
  induction l generalizing m with
  | nil => exact Mach.CaughtUp.refl m
  | cons x l ih => exact (hf m x).trans (ih (f m x))

theorem Mach.caughtUp_linePixels (m : Mach) (h : Fin 6) (l : LineCtx) : m.CaughtUp (m.linePixels h l) := by
  unfold Mach.linePixels
  split
  · exact Mach.CaughtUp.refl m
  · refine Mach.caughtUp_foldl _ _ (fun k f => ?_) m
    dsimp only
    split
    · obtain ⟨x, y, z, hput⟩ := Mach.putPixels_changes k _ _
      exact ⟨x, y, z, k.heads, hput⟩
    · exact Mach.CaughtUp.refl k

theorem Mach.caughtUp_setTpg {m n : Mach} (h : m.CaughtUp n) (i : Fin 6) (t : TpgSt) : m.CaughtUp (n.setTpg i t) := by
  obtain ⟨x, y, z, w, rfl⟩ := h
  exact ⟨x, y, z, _, rfl⟩

theorem Mach.caughtUp_catchHead (m : Mach) (h : Fin 6) : m.CaughtUp (m.catchHead h) := by
  unfold Mach.catchHead
  extract_lets due
  split
  · exact Mach.CaughtUp.refl m
  · exact Mach.caughtUp_setTpg (Mach.caughtUp_foldl _ _ (fun k l => k.caughtUp_linePixels h l) m) h _

theorem Mach.caughtUp (m : Mach) : m.CaughtUp m.catchUp := Mach.caughtUp_foldl allHeads _ (fun k h => k.caughtUp_catchHead h) m

/-! ## What a send keeps -/

/-- What the frames that go out next turn on, and what they spend, is the same in `m` and `n`. -/
structure Mach.SameTx (m n : Mach) : Prop where
  tx : n.st.tx = m.st.tx
  seq : n.st.txSeq = m.st.txSeq
  held : n.st.held = m.st.held
  rx : n.st.rxSeq = m.st.rxSeq
  sess : n.sess = m.sess
  avail : ∀ c, n.availOf c = m.availOf c

section
variable {m n : Mach}

theorem Mach.SameTx.refl (m : Mach) : m.SameTx m := ⟨rfl, rfl, rfl, rfl, rfl, fun _ => rfl⟩

theorem Mach.SameTx.trans {k : Mach} (h : m.SameTx n) (h' : n.SameTx k) : m.SameTx k :=
  ⟨h'.tx.trans h.tx, h'.seq.trans h.seq, h'.held.trans h.held, h'.rx.trans h.rx, h'.sess.trans h.sess, fun c => (h'.avail c).trans (h.avail c)⟩

theorem Mach.SameTx.ackSeq (h : m.SameTx n) : n.ackSeq = m.ackSeq := by rw [Mach.ackSeq, Mach.ackSeq, h.sess, h.rx]

/-- The registers that a send turns on: SESS and the credits. -/
def txReg (a : Nat) : Prop := a = F.ST_STAT_reg ∨ a = F.ST_CRDIMG_reg ∨ a = F.ST_CRDCTL_reg

theorem Mach.availOf_of_get (hget : ∀ g, txReg g.addr → n.get g = m.get g) (c : Bool) : n.availOf c = m.availOf c := by
  unfold Mach.availOf
  rw [hget F.ST_CRDCTL_AVAIL (Or.inr (Or.inr rfl)), hget F.ST_CRDIMG_AVAIL (Or.inr (Or.inl rfl))]

theorem Mach.SameTx.put (h : m.SameTx n) (f : Fld) (v : Nat) (hf : ¬ txReg f.addr) : m.SameTx (n.put f v) := by
  have hget : ∀ g, txReg g.addr → (n.put f v).get g = n.get g := fun g hg => n.get_put_ne f g v fun he => hf (he ▸ hg)
  refine h.trans ⟨?_, ?_, ?_, ?_, hget F.ST_STAT_SESS (Or.inl rfl), Mach.availOf_of_get hget⟩ <;> rw [Mach.put_st]

theorem Mach.sameTx_pulse (m : Mach) (c : Fin 8) (e : Nat) : m.SameTx (m.pulse c e) := by
  have hget : ∀ g, txReg g.addr → (m.pulse c e).get g = m.get g := fun g hg => m.get_pulse c e (by
    rcases hg with h | h | h <;> rw [h] <;> decide)
  refine ⟨?_, ?_, ?_, ?_, hget F.ST_STAT_SESS (Or.inl rfl), Mach.availOf_of_get hget⟩ <;> rw [Mach.pulse_st]

/-- The notes of starving, and the line of C7 that tells of them (R643, R812). -/
structure Mach.Noted (m n : Mach) : Prop where
  within : m.Within (eventRegs 7) n
  now : n.now = m.now
  st : ∃ a b c d, n.st = { m.st with starved := a, starveFrom := b, starveAcc := c, ctlOk := d }

theorem Mach.stSync_noted (m : Mach) : m.Noted m.stSync := by
  unfold Mach.stSync
  extract_lets s c x pulse y n
  have hy : ∃ a b e, y = { m.st with starved := a, starveFrom := b, starveAcc := e } := by
    simp only [y]
    split
    · exact ⟨_, _, _, rfl⟩
    · exact ⟨_, _, _, rfl⟩
  obtain ⟨a, b, e, hy⟩ := hy
  have hst : n.st = { m.st with starved := a, starveFrom := b, starveAcc := e, ctlOk := c } := by
    show { y with ctlOk := c } = _
    rw [hy]
  have hn : m.Within (eventRegs 7) n := (Mach.Within.refl _ m).other rfl rfl
  have hnow : n.now = m.now := rfl
  clear_value n
  split
  · exact ⟨hn.pulse 7 13 fun _ h => h, (Mach.pulse_now _ 7 13).trans hnow, a, b, e, c, (Mach.pulse_st _ 7 13).trans hst⟩
  · exact ⟨hn, hnow, a, b, e, c, hst⟩

theorem Mach.Noted.get (h : m.Noted n) (f : Fld) (hf : f.addr < 0x400000) : n.get f = m.get f := h.within.get f (not_eventRegs_of_lt hf)

theorem Mach.Noted.sameTx (h : m.Noted n) : m.SameTx n := by
  obtain ⟨a, b, c, d, hst⟩ := h.st
  have hget : ∀ g, txReg g.addr → n.get g = m.get g := fun g hg => h.get g (by
    rcases hg with h | h | h <;> rw [h] <;> decide)
  refine ⟨?_, ?_, ?_, ?_, hget F.ST_STAT_SESS (Or.inl rfl), Mach.availOf_of_get hget⟩ <;> rw [hst]

/-! ## A new frame -/

/-- The registers that a new frame changes: the credits of its class and the bytes held for replay. -/
def sendRegs (a : Nat) : Prop := a = F.ST_CRDIMG_reg ∨ a = F.ST_CRDCTL_reg ∨ a = F.ST_RPLY_reg

theorem Mach.setAvail_st (m : Mach) (c : Bool) (v : Nat) : (m.setAvail c v).st = m.st := by
  unfold Mach.setAvail
  split <;> rw [Mach.put_st, Mach.put_st]

theorem Mach.setAvail_within (m : Mach) (c : Bool) (v : Nat) : m.Within sendRegs (m.setAvail c v) := by
  unfold Mach.setAvail
  split
  · exact ((Mach.Within.refl _ m).put _ _ (Or.inr (Or.inl rfl))).put _ _ (Or.inr (Or.inl rfl))
  · exact ((Mach.Within.refl _ m).put _ _ (Or.inl rfl)).put _ _ (Or.inl rfl)

theorem Mach.setAvail_now (m : Mach) (c : Bool) (v : Nat) : (m.setAvail c v).now = m.now := by
  unfold Mach.setAvail
  split <;> rw [Mach.now_put, Mach.now_put]

theorem Mach.setAvail_self (m : Mach) (c : Bool) (v : Nat) : (m.setAvail c v).availOf c = v % 2 ^ 13 := by
  cases c
  · show ((m.put F.ST_CRDIMG_AVAIL v).put F.ST_CRDIMG_OUTST _).get F.ST_CRDIMG_AVAIL = _
    exact (Mach.get_put_apart _ _ (by decide)).trans (m.get_put_self F.ST_CRDIMG_AVAIL v (by decide) (by decide))
  · show ((m.put F.ST_CRDCTL_AVAIL v).put F.ST_CRDCTL_OUTST _).get F.ST_CRDCTL_AVAIL = _
    exact (Mach.get_put_apart _ _ (by decide)).trans (m.get_put_self F.ST_CRDCTL_AVAIL v (by decide) (by decide))

theorem Mach.setAvail_other (m : Mach) (c : Bool) (v : Nat) : (m.setAvail c v).availOf (!c) = m.availOf (!c) := by
  cases c
  · show ((m.put F.ST_CRDIMG_AVAIL v).put F.ST_CRDIMG_OUTST _).get F.ST_CRDCTL_AVAIL = m.get F.ST_CRDCTL_AVAIL
    exact (Mach.get_put_apart _ _ (by decide)).trans (m.get_put_apart v (by decide))
  · show ((m.put F.ST_CRDCTL_AVAIL v).put F.ST_CRDCTL_OUTST _).get F.ST_CRDIMG_AVAIL = m.get F.ST_CRDIMG_AVAIL
    exact (Mach.get_put_apart _ _ (by decide)).trans (m.get_put_apart v (by decide))

theorem Mach.availOf_lt (m : Mach) (c : Bool) : m.availOf c < 2 ^ 13 := by
  cases c
  · exact m.get_lt F.ST_CRDIMG_AVAIL
  · exact m.get_lt F.ST_CRDCTL_AVAIL

theorem Mach.setHeld_st (m : Mach) (l : List StHeld) : (m.setHeld l).st = { m.st with held := l } := by
  unfold Mach.setHeld
  rw [Mach.put_st]

theorem Mach.setHeld_within (m : Mach) (l : List StHeld) : m.Within sendRegs (m.setHeld l) :=
  ((Mach.Within.refl sendRegs m).other (k := { m with st := { m.st with held := l } }) rfl rfl).put _ _ (Or.inr (Or.inr rfl))

theorem Mach.setHeld_now (m : Mach) (l : List StHeld) : (m.setHeld l).now = m.now := Mach.now_put _ _ _

theorem Mach.setHeld_avail (m : Mach) (l : List StHeld) (c : Bool) : (m.setHeld l).availOf c = m.availOf c := by
  cases c
  · show (Mach.put { m with st := { m.st with held := l } } F.ST_RPLY_N _).get F.ST_CRDIMG_AVAIL = m.get F.ST_CRDIMG_AVAIL
    exact Mach.get_put_apart _ _ (by decide)
  · show (Mach.put { m with st := { m.st with held := l } } F.ST_RPLY_N _).get F.ST_CRDCTL_AVAIL = m.get F.ST_CRDCTL_AVAIL
    exact Mach.get_put_apart _ _ (by decide)

theorem Mach.txFrame_within (m : Mach) (f : Frame) (p : Nat → Prop) : m.Within p (m.txFrame f) := by
  obtain ⟨l, c, h⟩ := m.txFrame_changes f
  rw [h]
  exact (Mach.Within.refl p m).other rfl rfl

theorem Mach.txFrame_st (m : Mach) (f : Frame) : (m.txFrame f).st = { m.st with tx := (f :: m.st.tx).take 16 } := by
  obtain ⟨l, c, h⟩ := m.txFrame_changes f
  rw [h]

theorem Mach.txFrame_now (m : Mach) (f : Frame) : (m.txFrame f).now = m.now := by
  obtain ⟨l, c, h⟩ := m.txFrame_changes f
  rw [h]
  rfl

theorem Mach.txFrame_get (m : Mach) (f : Frame) (g : Fld) : (m.txFrame f).get g = m.get g := by
  obtain ⟨l, c, h⟩ := m.txFrame_changes f
  rw [h]
  rfl

theorem head?_take_cons {α : Type} (x : α) (l : List α) : ((x :: l).take 16).head? = some x := rfl

/-- The frame that `txNew` sends. -/
def Mach.newFrame (m : Mach) (ty flags a b : Nat) (payload : List Byte) : Frame :=
  { ty := ty, flags := flags, seq := m.st.txSeq, ack := m.ackSeq, a := a, b := b, payload := payload }

/-- What a new frame changes (R808, R814, R817). -/
structure Mach.SendsNew (c : Bool) (f : Frame) (m n : Mach) : Prop where
  within : m.Within sendRegs n
  now : n.now = m.now
  st : ∃ t, n.st = { m.st with txSeq := (m.st.txSeq + 1) % 65536, ackAt := t, held := m.st.held ++ [{ f := f, ctl := c, owe := false }],
                               tx := (f :: m.st.tx).take 16 }
  spent : n.availOf c = m.availOf c - f.cost
  other : n.availOf (!c) = m.availOf (!c)

theorem Mach.txNew_spec (m : Mach) (c : Bool) (ty flags a b : Nat) (payload : List Byte) :
    Mach.SendsNew c (m.newFrame ty flags a b payload) m (m.txNew c ty flags a b payload) := by
  unfold Mach.txNew
  extract_lets f k1 x k2
  have hspent1 : k1.availOf c = m.availOf c - f.cost :=
    (m.setAvail_self c _).trans (Nat.mod_eq_of_lt ((Nat.sub_le _ _).trans_lt (m.availOf_lt c)))
  have hother1 : k1.availOf (!c) = m.availOf (!c) := m.setAvail_other c _
  have hst1 : k1.st = m.st := m.setAvail_st c _
  have hwithin1 : m.Within sendRegs k1 := m.setAvail_within c _
  have hnow1 : k1.now = m.now := m.setAvail_now c _
  have hf : f = m.newFrame ty flags a b payload := rfl
  clear_value k1 f
  have hst2 : ∃ t, k2.st = { m.st with txSeq := (m.st.txSeq + 1) % 65536, ackAt := t } := by
    rw [← hst1]
    exact ⟨if k1.st.held.isEmpty then k1.now else k1.st.ackAt, rfl⟩
  have hwithin2 : m.Within sendRegs k2 := hwithin1.other rfl rfl
  have havail2 : ∀ d, k2.availOf d = k1.availOf d := fun _ => rfl
  have hnow2 : k2.now = m.now := hnow1
  obtain ⟨t, hst2⟩ := hst2
  clear_value k2
  have hget : ∀ d, ((k2.setHeld (k2.st.held ++ [{ f := f, ctl := c, owe := false }])).txFrame f).availOf d = k1.availOf d := fun d => by
    exact (Mach.availOf_of_get (fun g _ => Mach.txFrame_get _ f g) d).trans ((Mach.setHeld_avail k2 _ d).trans (havail2 d))
  rw [← hf]
  refine ⟨(hwithin2.trans (k2.setHeld_within _)).trans (Mach.txFrame_within _ f _), ?_, ⟨t, ?_⟩, (hget c).trans hspent1, (hget _).trans hother1⟩
  · rw [Mach.txFrame_now, Mach.setHeld_now, hnow2]
  · rw [Mach.txFrame_st, Mach.setHeld_st, hst2]

end

/-- A new frame has gone out at `t` (R808, R813, R814, R817). -/
def NewFrame (s : State) (c : Bool) (t : State) (f : Frame) : Prop := (t.m.st.tx.head? = some f ∧ f.ack = s.m.ackSeq) ∧ f.seq = s.m.st.txSeq ∧
  t.m.st.txSeq = (s.m.st.txSeq + 1) % 65536 ∧ t.m.st.held = s.m.st.held ++ [{ f := f, ctl := c, owe := false }] ∧
  t.m.availOf c = s.m.availOf c - f.cost ∧ t.m.availOf (!c) = s.m.availOf (!c)

theorem newFrame_of {s : State} {c : Bool} {ty flags a b : Nat} {payload : List Byte} {k n t : Mach} (hbefore : s.m.SameTx k)
    (hnew : Mach.SendsNew c (k.newFrame ty flags a b payload) k n) (hafter : n.SameTx t) :
    NewFrame s c { s with m := t } (k.newFrame ty flags a b payload) := by
  obtain ⟨t0, hst⟩ := hnew.st
  refine ⟨⟨?_, hbefore.ackSeq⟩, hbefore.seq, ?_, ?_, ?_, ?_⟩
  · rw [hafter.tx, hst]
    rfl
  · rw [hafter.seq, hst, hbefore.seq]
  · rw [hafter.held, hst, hbefore.held]
  · rw [hafter.avail, hnew.spent, hbefore.avail]
  · rw [hafter.avail, hnew.other, hbefore.avail]

end Sys2Proof.Machine
end
section
/-!
Settles FramesSent, second part: what an entry's frame leaves of the queue, and the rows that send (R808, R819-R822, R826).
-/

namespace Sys2Proof.Machine

/-! ## An entry is done -/

/-- The registers that follow an entry that is done: the read pointers of the codec and the counts of a stream (R733, R822). -/
def doneRegs (a : Nat) : Prop := (∃ c : Fin 16, a = F.BC_CTX_RP_reg c) ∨ 0x310100 ≤ a

/-- What an entry that is done leaves: of ST, only the queue and the ledger are other than before (R822). -/
structure Mach.EntryWork (m n : Mach) : Prop where
  within : m.Within doneRegs n
  now : n.now = m.now
  st : ∃ q l, n.st = { m.st with queue := q, ledger := l }

section
variable {m n : Mach}

theorem Mach.EntryWork.refl (m : Mach) : m.EntryWork m := ⟨Mach.Within.refl _ m, rfl, _, _, rfl⟩

theorem Mach.EntryWork.trans {k : Mach} (h : m.EntryWork n) (h' : n.EntryWork k) : m.EntryWork k := by
  obtain ⟨q, l, hst⟩ := h.st
  obtain ⟨q', l', hst'⟩ := h'.st
  exact ⟨h.within.trans h'.within, h'.now.trans h.now, q', l', by rw [hst', hst]⟩

theorem Mach.EntryWork.put (h : m.EntryWork n) (f : Fld) (v : Nat) (hf : doneRegs f.addr) : m.EntryWork (n.put f v) :=
  h.trans ⟨(Mach.Within.refl _ n).put f v hf, n.now_put f v, _, _, n.put_st f v⟩

theorem Mach.entryWork_setQueue (m : Mach) (q : List StEntry) : m.EntryWork { m with st := { m.st with queue := q } } :=
  ⟨(Mach.Within.refl _ m).other rfl rfl, rfl, _, _, rfl⟩

theorem Mach.entryWork_bcReap (m : Mach) (c : Fin 16) : m.EntryWork (m.bcReap c) ∧ (m.bcReap c).st = m.st := by
  unfold Mach.bcReap
  extract_lets x keep k
  split
  · exact ⟨Mach.EntryWork.refl m, rfl⟩
  · have hk : m.EntryWork k := ⟨(Mach.Within.refl _ m).other rfl rfl, rfl, _, _, rfl⟩
    exact ⟨hk.put _ _ (Or.inl ⟨c, rfl⟩), k.put_st _ _⟩

theorem Mach.entryWork_ledgerStep (m : Mach) (l keep : List StAcc) : m.EntryWork (m.ledgerStep l keep) ∧ (m.ledgerStep l keep).st.queue = m.st.queue := by
  induction l generalizing m keep with
  | nil => exact ⟨⟨(Mach.Within.refl _ m).other rfl rfl, rfl, _, _, rfl⟩, rfl⟩
  | cons e l ih =>
    rw [Mach.ledgerStep]
    split
    · extract_lets k n
      have hk : m.EntryWork k ∧ k.st = m.st := ⟨(Mach.EntryWork.refl m).put _ _ (Or.inr (by simp only [F.ST_DONE_N, F.ST_DONE_reg]; omega)), m.put_st _ _⟩
      have hn : m.EntryWork n ∧ n.st = m.st := by
        simp only [n]
        split
        · exact ⟨hk.1.put _ _ (Or.inr (by simp only [F.ST_LOST_N, F.ST_LOST_reg]; omega)), (k.put_st _ _).trans hk.2⟩
        · exact hk
      obtain ⟨hwork, hqueue⟩ := ih n keep
      exact ⟨hn.1.trans hwork, hqueue.trans (by rw [hn.2])⟩
    · exact ih m (e :: keep)

theorem Mach.entryDone_spec (m : Mach) (id : Nat) (lost : Bool) :
    m.EntryWork (m.entryDone id lost) ∧ (m.entryDone id lost).st.queue = m.st.queue.filter (fun e => e.id != id) := by
  unfold Mach.entryDone
  extract_lets y k n
  have hk : m.EntryWork k := m.entryWork_setQueue _
  have hn : k.EntryWork n ∧ n.st = k.st := Mach.each_keeps (fun x => k.EntryWork x ∧ x.st = k.st) allCtx _ (fun c x hx =>
    ⟨hx.1.trans (x.entryWork_bcReap c).1, ((x.entryWork_bcReap c).2).trans hx.2⟩) k ⟨Mach.EntryWork.refl k, rfl⟩
  obtain ⟨hwork, hqueue⟩ := n.entryWork_ledgerStep (n.st.ledger.map (fun (e : StAcc) => if e.id = id then { e with done := true, lost := lost } else e)) []
  exact ⟨(hk.trans hn.1).trans hwork, hqueue.trans (by rw [hn.2])⟩

theorem Mach.entryAfter_spec (m : Mach) (e : StEntry) (n : Nat) :
    m.EntryWork (m.entryAfter e n) ∧ (e.body ≤ e.pos + n → ∀ q ∈ (m.entryAfter e n).st.queue, q.id ≠ e.id) := by
  unfold Mach.entryAfter
  split
  · next hdone =>
    obtain ⟨hwork, hqueue⟩ := m.entryDone_spec e.id false
    refine ⟨hwork, fun _ q hq => ?_⟩
    rw [hqueue, List.mem_filter] at hq
    exact fun h => absurd hq.2 (by rw [h]; simp)
  · next hmore => exact ⟨m.entryWork_setQueue _, fun h => absurd h hmore⟩

theorem Mach.EntryWork.get (h : m.EntryWork n) (f : Fld) (hf : ¬ doneRegs f.addr) : n.get f = m.get f := h.within.get f hf

theorem not_doneRegs {a : Nat} (hlo : 0x310000 ≤ a) (hhi : a < 0x310100) : ¬ doneRegs a := by
  rintro (⟨c, hc⟩ | h)
  · simp only [F.BC_CTX_RP_reg] at hc
    omega
  · omega

theorem Mach.EntryWork.sameTx (h : m.EntryWork n) : m.SameTx n := by
  obtain ⟨q, l, hst⟩ := h.st
  have hget : ∀ g, txReg g.addr → n.get g = m.get g := fun g hg => h.get g (by
    rcases hg with hg | hg | hg <;> rw [hg] <;> exact not_doneRegs (by decide) (by decide))
  refine ⟨?_, ?_, ?_, ?_, hget F.ST_STAT_SESS (Or.inl rfl), Mach.availOf_of_get hget⟩ <;> rw [hst]

theorem Mach.CaughtUp.sameTx (h : m.CaughtUp n) : m.SameTx n := by
  obtain ⟨x, y, z, w, rfl⟩ := h
  exact ⟨rfl, rfl, rfl, rfl, rfl, fun _ => rfl⟩

end

/-! ## The rows that send -/

section
variable {s : State} (hlive : s.m.live = true)

theorem Mach.withEcc_none (m : Mach) : Mach.withEcc (none, m) = m := rfl

theorem imgSend_none (m : Mach) (hmay : m.mayTx = false) : m.imgSend = (none, m) := by
  unfold Mach.imgSend
  rw [hmay]
  split <;> rfl

theorem ctlSend_none (m : Mach) (hmay : m.mayTx = false) : m.ctlSend = (none, m) := by
  rw [Mach.ctlSend, hmay]
  rfl

theorem rdreqSend_none (m : Mach) (hmay : m.mayTx = false) : m.rdreqSend = m := by
  unfold Mach.rdreqSend
  rw [hmay]
  split <;> rfl

theorem Mach.CaughtUp.mayTx {m n : Mach} (h : m.CaughtUp n) : n.mayTx = m.mayTx := by
  obtain ⟨x, y, z, w, rfl⟩ := h
  rfl

theorem Mach.CaughtUp.sends {m n : Mach} (h : m.CaughtUp n) : n.st = m.st ∧ (∀ f, n.get f = m.get f) ∧ n.ctlCan = m.ctlCan ∧
    ∀ c k, n.sendable c k = m.sendable c k := by
  obtain ⟨x, y, z, w, rfl⟩ := h
  exact ⟨rfl, fun _ => rfl, rfl, fun _ _ => rfl⟩

include hlive in
theorem exec_imgSend : exec .imgSend s = .next { s with m := Mach.withEcc s.m.catchUp.imgSend } := s.run_ifLive _ hlive

include hlive in
theorem exec_ctlSend : exec .ctlSend s = .next { s with m := Mach.withEcc s.m.ctlSend } := s.run_ifLive _ hlive

include hlive in
theorem exec_rdreqSend : exec .rdreqSend s = .next { s with m := s.m.rdreqSend } := s.run_ifLive _ hlive

include hlive in
/-- While no new frame may leave, none does (R817, R819). -/
theorem sends_none (hmay : s.m.mayTx = false) : exec .imgSend s = .next { s with m := s.m.catchUp } ∧ exec .ctlSend s = .next s ∧
    exec .rdreqSend s = .next s := by
  refine ⟨?_, ?_, ?_⟩
  · rw [exec_imgSend hlive, imgSend_none _ (s.m.caughtUp.mayTx.trans hmay)]
    rfl
  · rw [exec_ctlSend hlive, ctlSend_none _ hmay]
    rfl
  · rw [exec_rdreqSend hlive, rdreqSend_none _ hmay]

/-- The machine after the frame of an entry: the rest of the entry, and the notes that follow (R812, R820, R821). -/
def Mach.sentEntry (m : Mach) (e : StEntry) (n : Nat) : Mach := (m.entryAfter e n).stSync

/-- The machine after an image frame (R820). -/
def Mach.sentImage (m : Mach) (e : StEntry) (n : Nat) (data : List Byte) : Mach :=
  let k := m.txNew false 0x01 (e.flags n) e.eseq e.pos data
  Mach.sentEntry { k with st := { k.st with rr := e.stream } } e n

theorem imgSend_eq (m : Mach) (e : StEntry) (hpick : m.st.imgPick = some e) (hmay : m.mayTx = true) (hrun : m.get F.ST_CTL_IMGRUN = 1)
    (hctl : m.ctlCan = false) (hsend : m.sendable false e.nextLen = true) (hclean : ∀ a ∈ segAddrs e.segs e.pos e.nextLen, m.clean a = true) :
    m.imgSend = (none, m.sentImage e e.nextLen ((segAddrs e.segs e.pos e.nextLen).map m.byte)) := by
  have hguard : (m.mayTx && m.is F.ST_CTL_IMGRUN && !m.ctlCan && m.sendable false e.nextLen) = true := by
    rw [hmay, m.is_of_eq_one hrun, hctl, hsend]
    rfl
  unfold Mach.imgSend
  rw [hpick]
  dsimp only
  rw [if_pos hguard, Mach.fetchBytes_of_clean m _ hclean]
  rfl

end

section
variable {s : State} (hlive : s.m.live = true)

/-- What follows an entry's frame (R812, R822): no frame of its own, no byte and no register of ST but the counts of a stream. -/
structure Mach.EntrySent (e : StEntry) (n : Nat) (m t : Mach) : Prop where
  sameTx : m.SameTx t
  byte : ∀ a, t.byte a = m.byte a
  rr : t.st.rr = m.st.rr
  queue : e.body ≤ e.pos + n → ∀ q ∈ t.st.queue, q.id ≠ e.id
  get : ∀ f : Fld, 0x310000 ≤ f.addr → f.addr < 0x310100 → t.get f = m.get f

theorem Mach.sentEntry_spec (m : Mach) (e : StEntry) (n : Nat) : Mach.EntrySent e n m (m.sentEntry e n) := by
  obtain ⟨hwork, hqueue⟩ := m.entryAfter_spec e n
  obtain ⟨q, l, hst⟩ := hwork.st
  have hnoted := (m.entryAfter e n).stSync_noted
  obtain ⟨a, b, c, d, hst'⟩ := hnoted.st
  refine ⟨hwork.sameTx.trans hnoted.sameTx, fun a => (hnoted.within.2 a).trans (hwork.within.2 a), ?_, ?_, fun f hlo hhi => ?_⟩
  · rw [Mach.sentEntry, hst', hst]
  · rw [Mach.sentEntry, hst']
    exact hqueue
  · exact (hnoted.get f (hhi.trans (by decide))).trans (hwork.get f (not_doneRegs hlo hhi))

include hlive in
theorem does_imgSend {e : StEntry} (hpick : s.m.st.imgPick = some e) (hmay : s.m.mayTx = true) (hrun : s.m.get F.ST_CTL_IMGRUN = 1)
    (hctl : s.m.ctlCan = false) (hsend : s.m.sendable false e.nextLen = true)
    (hclean : ∀ a ∈ segAddrs e.segs e.pos e.nextLen, s.m.catchUp.clean a = true) :
    Does .imgSend s (fun t => ∃ f, NewFrame s false t f ∧ f.ty = 1 ∧ f.flags = e.flags e.nextLen ∧ f.a = e.eseq ∧ f.b = e.pos ∧
      f.payload = (segAddrs e.segs e.pos e.nextLen).map s.m.catchUp.byte ∧ t.m.st.rr = e.stream ∧
      (e.body ≤ e.pos + e.nextLen → ∀ q ∈ t.m.st.queue, q.id ≠ e.id) ∧ Keeps { s with m := s.m.catchUp } t) := by
  have hcaught := s.m.caughtUp
  have hexec := exec_imgSend hlive
  obtain ⟨hst, hget, hcan, hsendable⟩ := hcaught.sends
  have heq : s.m.catchUp.imgSend = (none, s.m.catchUp.sentImage e e.nextLen ((segAddrs e.segs e.pos e.nextLen).map s.m.catchUp.byte)) := by
    exact imgSend_eq _ e (hst.symm ▸ hpick) (hcaught.mayTx.trans hmay) ((hget _).trans hrun) (hcan.trans hctl) ((hsendable _ _).trans hsend) hclean
  rw [heq] at hexec
  have hsame := hcaught.sameTx
  generalize s.m.catchUp = u at *
  generalize (segAddrs e.segs e.pos e.nextLen).map u.byte = data at *
  have hnew := u.txNew_spec false 1 (e.flags e.nextLen) e.eseq e.pos data
  refine ⟨_, hexec, u.newFrame 1 (e.flags e.nextLen) e.eseq e.pos data, ?_⟩
  rw [Mach.withEcc_none, Mach.sentImage]
  generalize u.txNew false 1 (e.flags e.nextLen) e.eseq e.pos data = k at *
  have hrr : k.SameTx { k with st := { k.st with rr := e.stream } } := ⟨rfl, rfl, rfl, rfl, rfl, fun _ => rfl⟩
  have hsent := Mach.sentEntry_spec { k with st := { k.st with rr := e.stream } } e e.nextLen
  exact ⟨newFrame_of hsame hnew (hrr.trans hsent.sameTx), rfl, rfl, rfl, rfl, rfl, hsent.rr, hsent.queue,
    fun a => (hsent.byte a).trans (hnew.within.2 a), rfl, rfl, rfl⟩

/-! ### Ctl-class frames -/

/-- The machine after a ctl-class frame of the boot ROM or of BC (R808, R843). -/
def Mach.sentCpl (m : Mach) (g : Frame) (rest : List Frame) : Mach :=
  (Mach.txNew { m with st := { m.st with hcpl := rest } } true g.ty g.flags g.a g.b g.payload).stSync

theorem ctlSend_cpl (m : Mach) (g : Frame) (rest : List Frame) (hcpl : m.st.hcpl = g :: rest) (hmay : m.mayTx = true)
    (hsend : m.sendable true g.payload.length = true) : m.ctlSend = (none, m.sentCpl g rest) := by
  unfold Mach.ctlSend
  rw [hmay, hcpl]
  dsimp only
  rw [if_neg (by decide), if_pos hsend, Mach.sentCpl]

include hlive in
theorem does_ctlSend_cpl {g : Frame} {rest : List Frame} (hcpl : s.m.st.hcpl = g :: rest) (hmay : s.m.mayTx = true)
    (hsend : s.m.sendable true g.payload.length = true) :
    Does .ctlSend s (fun t => ∃ f, NewFrame s true t f ∧ f.ty = g.ty ∧ f.flags = g.flags ∧ f.a = g.a ∧ f.b = g.b ∧
      f.payload = g.payload ∧ t.m.st.hcpl = rest ∧ Keeps s t) := by
  have hexec := exec_ctlSend hlive
  rw [ctlSend_cpl s.m g rest hcpl hmay hsend, Mach.withEcc_none, Mach.sentCpl] at hexec
  obtain ⟨u, hu⟩ : ∃ u, u = { s.m with st := { s.m.st with hcpl := rest } } := ⟨_, rfl⟩
  have hsame : s.m.SameTx u := by rw [hu]; exact ⟨rfl, rfl, rfl, rfl, rfl, fun _ => rfl⟩
  have hbyte : ∀ a, u.byte a = s.m.byte a := by rw [hu]; exact fun _ => rfl
  have hrest : u.st.hcpl = rest := by rw [hu]
  rw [← hu] at hexec
  have hnew := u.txNew_spec true g.ty g.flags g.a g.b g.payload
  refine ⟨_, hexec, u.newFrame g.ty g.flags g.a g.b g.payload, ?_⟩
  generalize u.txNew true g.ty g.flags g.a g.b g.payload = k at *
  have hnoted := k.stSync_noted
  obtain ⟨a, b, c, d, hst⟩ := hnoted.st
  obtain ⟨t0, hst0⟩ := hnew.st
  refine ⟨newFrame_of hsame hnew hnoted.sameTx, rfl, rfl, rfl, rfl, rfl, ?_, fun a => ?_, rfl, rfl, rfl⟩
  · rw [hst, hst0]
    exact hrest
  · exact (hnoted.within.2 a).trans ((hnew.within.2 a).trans (hbyte a))

/-- What the template of a ctl-class entry makes of it (R821). -/
def StEntry.templated (e : StEntry) (T : List Byte) : StEntry :=
  { e with ty := if leNat (T.take 1) = 2 ∨ leNat (T.take 1) = 3 then leNat (T.take 1) else 2, a := leNat ((T.drop 8).take 4),
           b := leNat ((T.drop 12).take 3) }

/-- The machine once a template has been read (R821). -/
def Mach.templateRead (m : Mach) (T : List Byte) : Mach := if leNat (T.take 1) = 2 ∨ leNat (T.take 1) = 3 then m else m.put F.ST_STAT_TMPLERR 1

theorem template_eq (m : Mach) (e : StEntry) (hstarted : e.started = false) (hlen : 16 ≤ e.len) (hclean : ∀ a ∈ segAddrs e.segs 0 16, m.clean a = true) :
    m.template e = (e.templated ((segAddrs e.segs 0 16).map m.byte), none, m.templateRead ((segAddrs e.segs 0 16).map m.byte)) := by
  unfold Mach.template
  rw [hstarted, Nat.min_eq_left hlen, Mach.fetchBytes_of_clean m _ hclean]
  generalize (segAddrs e.segs 0 16).map m.byte = T
  dsimp only
  rw [if_neg (by decide), StEntry.templated, Mach.templateRead]
  simp only [Bool.or_eq_true, decide_eq_true_eq, hstarted]

theorem Mach.templateRead_spec (m : Mach) (T : List Byte) : m.SameTx (m.templateRead T) ∧ (∀ a, (m.templateRead T).byte a = m.byte a) ∧
    (∀ l : List Nat, (∀ a ∈ l, m.clean a = true) → ∀ a ∈ l, (m.templateRead T).clean a = true) ∧
    (¬ (leNat (T.take 1) = 2 ∨ leNat (T.take 1) = 3) → (m.templateRead T).get F.ST_STAT_TMPLERR = 1) := by
  unfold Mach.templateRead
  split
  · next hok => exact ⟨Mach.SameTx.refl m, fun _ => rfl, fun _ h => h, fun h => absurd hok h⟩
  · obtain ⟨r, b, hput⟩ := m.put_changes F.ST_STAT_TMPLERR 1
    have hsess : (m.put F.ST_STAT_TMPLERR 1).sess = m.sess := m.get_put_apart (f := F.ST_STAT_TMPLERR) (g := F.ST_STAT_SESS) 1 (by decide)
    have hone : (m.put F.ST_STAT_TMPLERR 1).get F.ST_STAT_TMPLERR = 1 := m.get_put_self F.ST_STAT_TMPLERR 1 (by decide) (by decide)
    have havail : ∀ c, (m.put F.ST_STAT_TMPLERR 1).availOf c = m.availOf c := fun c => by
      cases c
      · exact m.get_put_apart (f := F.ST_STAT_TMPLERR) (g := F.ST_CRDIMG_AVAIL) 1 (by decide)
      · exact m.get_put_apart (f := F.ST_STAT_TMPLERR) (g := F.ST_CRDCTL_AVAIL) 1 (by decide)
    refine ⟨⟨?_, ?_, ?_, ?_, hsess, havail⟩, fun a => m.put_byte _ _ a, fun l h a ha => ?_, fun _ => hone⟩
    iterate 4 rw [Mach.put_st]
    rw [hput]
    exact h a ha

theorem ctlSend_entry (m : Mach) (e : StEntry) (hcpl : m.st.hcpl = []) (hfind : m.st.queue.find? (fun e => e.ctl) = some e)
    (hstarted : e.started = false) (hlen : 16 ≤ e.len) (hmay : m.mayTx = true) (hsend : m.sendable true e.nextLen = true)
    (hclean : ∀ a ∈ segAddrs e.segs 0 16, m.clean a = true) (hbody : ∀ a ∈ segAddrs e.segs (16 + e.pos) e.nextLen, m.clean a = true)
    {T data : List Byte} (hT : T = (segAddrs e.segs 0 16).map m.byte) (hdata : data = (segAddrs e.segs (16 + e.pos) e.nextLen).map m.byte) :
    m.ctlSend = (none, Mach.sentEntry ((m.templateRead T).txNew true (e.templated T).ty (e.flags e.nextLen) (e.templated T).a (e.templated T).b data)
      (e.templated T) e.nextLen) := by
  obtain ⟨-, hbyte, hkeep, -⟩ := m.templateRead_spec T
  have hfetch : (m.templateRead T).fetchBytes (segAddrs (e.templated T).segs (16 + (e.templated T).pos) (e.templated T).nextLen) =
      (data, none, m.templateRead T) := by
    refine (Mach.fetchBytes_of_clean _ _ (hkeep _ hbody)).trans ?_
    rw [hdata]
    exact congrArg (fun l => (l, none, m.templateRead T)) (List.map_congr_left fun a _ => hbyte a)
  unfold Mach.ctlSend
  rw [hmay, hcpl, hfind, if_neg (by decide)]
  dsimp only
  rw [if_pos hsend, template_eq m e hstarted hlen hclean, ← hT]
  dsimp only
  rw [hfetch]
  rfl

include hlive in
theorem does_ctlSend_entry {e : StEntry} (hcpl : s.m.st.hcpl = []) (hfind : s.m.st.queue.find? (fun e => e.ctl) = some e)
    (hstarted : e.started = false) (hlen : 16 ≤ e.len) (hmay : s.m.mayTx = true) (hsend : s.m.sendable true e.nextLen = true)
    (hclean : ∀ a ∈ segAddrs e.segs 0 16, s.m.clean a = true) (hbody : ∀ a ∈ segAddrs e.segs (16 + e.pos) e.nextLen, s.m.clean a = true)
    {T data : List Byte} (hT : T = (segAddrs e.segs 0 16).map s.m.byte) (hdata : data = (segAddrs e.segs (16 + e.pos) e.nextLen).map s.m.byte) :
    Does .ctlSend s (fun t => ∃ f, NewFrame s true t f ∧ (leNat (T.take 1) = 2 ∨ leNat (T.take 1) = 3 → f.ty = leNat (T.take 1)) ∧
      (¬ (leNat (T.take 1) = 2 ∨ leNat (T.take 1) = 3) → f.ty = 2 ∧ t.m.get F.ST_STAT_TMPLERR = 1) ∧ f.a = leNat ((T.drop 8).take 4) ∧
      f.b = leNat ((T.drop 12).take 3) ∧ f.flags = e.flags e.nextLen ∧ f.payload = data ∧ Keeps s t) := by
  have hexec := exec_ctlSend hlive
  rw [ctlSend_entry s.m e hcpl hfind hstarted hlen hmay hsend hclean hbody hT hdata, Mach.withEcc_none] at hexec
  obtain ⟨hsame, hbyte, -, herr⟩ := s.m.templateRead_spec T
  have hnew := (s.m.templateRead T).txNew_spec true (e.templated T).ty (e.flags e.nextLen) (e.templated T).a (e.templated T).b data
  refine ⟨_, hexec, (s.m.templateRead T).newFrame (e.templated T).ty (e.flags e.nextLen) (e.templated T).a (e.templated T).b data, ?_⟩
  generalize (s.m.templateRead T).txNew true (e.templated T).ty (e.flags e.nextLen) (e.templated T).a (e.templated T).b data = k at *
  have hsent := k.sentEntry_spec (e.templated T) e.nextLen
  refine ⟨newFrame_of hsame hnew hsent.sameTx, fun hok => if_pos hok, fun hbad => ⟨if_neg hbad, ?_⟩, rfl, rfl, rfl, rfl,
    fun a => (hsent.byte a).trans ((hnew.within.2 a).trans (hbyte a)), rfl, rfl, rfl⟩
  exact (hsent.get F.ST_STAT_TMPLERR (by decide) (by decide)).trans
    ((hnew.within.get F.ST_STAT_TMPLERR (by simp only [sendRegs]; decide)).trans (herr hbad))

/-! ### Read requests -/

/-- The machine after the read request of tag `k` (R826, R829). -/
def Mach.sentRead (m : Mach) (i : Fin 64) (k : Nat) (rest : List Nat) : Mach :=
  let g := m.st.tags[i]
  let n := Mach.txNew { m with st := { m.st with rdreq := rest } } true 4 0 k 0 (leBytes 8 g.host ++ leBytes 4 g.len ++ leBytes 4 0)
  (n.setTag i { g with sent := some n.now, time := 3000 * n.get F.ST_RDTO_T }).stSync

theorem rdreqSend_eq (m : Mach) (k : Fin 64) (rest : List Nat) (hreq : m.st.rdreq = k.val :: rest) (hmay : m.mayTx = true)
    (hsend : m.sendable true 16 = true) : m.rdreqSend = m.sentRead k k.val rest := by
  have hk : Fin.ofNat 64 k.val = k := Fin.ext (Nat.mod_eq_of_lt k.isLt)
  unfold Mach.rdreqSend
  rw [hreq, hmay, hsend]
  dsimp only
  rw [if_pos (by decide)]
  exact congrArg (fun i => m.sentRead i k.val rest) hk

include hlive in
theorem does_rdreqSend {k : Fin 64} {rest : List Nat} (hreq : s.m.st.rdreq = k.val :: rest) (hmay : s.m.mayTx = true)
    (hsend : s.m.sendable true 16 = true) :
    Does .rdreqSend s (fun t => ∃ f, NewFrame s true t f ∧ f.ty = 4 ∧ f.flags = 0 ∧ f.a = k.val ∧ f.b = 0 ∧
      f.payload = leBytes 8 s.m.st.tags[k].host ++ leBytes 4 s.m.st.tags[k].len ++ leBytes 4 0 ∧ t.m.st.rdreq = rest ∧
      t.m.st.tags[k] = { s.m.st.tags[k] with sent := some s.m.now, time := 3000 * s.m.get F.ST_RDTO_T } ∧ Keeps s t) := by
  have hexec := exec_rdreqSend hlive
  rw [rdreqSend_eq s.m k rest hreq hmay hsend, Mach.sentRead] at hexec
  obtain ⟨u, hu⟩ : ∃ u, u = { s.m with st := { s.m.st with rdreq := rest } } := ⟨_, rfl⟩
  have hsame : s.m.SameTx u := by rw [hu]; exact ⟨rfl, rfl, rfl, rfl, rfl, fun _ => rfl⟩
  have hbyte : ∀ a, u.byte a = s.m.byte a := by rw [hu]; exact fun _ => rfl
  have hst : u.st = { s.m.st with rdreq := rest } := by rw [hu]
  have hnow : u.now = s.m.now := by rw [hu]; rfl
  have htime : u.get F.ST_RDTO_T = s.m.get F.ST_RDTO_T := by rw [hu]; rfl
  rw [← hu] at hexec
  clear hu
  generalize s.m.st.tags[k] = g at *
  generalize leBytes 8 g.host ++ leBytes 4 g.len ++ leBytes 4 0 = payload at *
  have hnew := u.txNew_spec true 4 0 k 0 payload
  refine ⟨_, hexec, u.newFrame 4 0 k 0 payload, ?_⟩
  generalize u.txNew true 4 0 k 0 payload = n at *
  have hnnow : n.now = s.m.now := hnew.now.trans hnow
  have hntime : n.get F.ST_RDTO_T = s.m.get F.ST_RDTO_T := (hnew.within.get F.ST_RDTO_T (by simp only [sendRegs]; decide)).trans htime
  rw [hnnow, hntime]
  generalize ({ g with sent := some s.m.now, time := 3000 * s.m.get F.ST_RDTO_T } : RdTag) = g'
  obtain ⟨t0, hst0⟩ := hnew.st
  have hset := n.setTag_st k g'
  have hsetTx : n.SameTx (n.setTag k g') := by
    have hget : ∀ f, txReg f.addr → (n.setTag k g').get f = n.get f := fun f hf => congrArg (fun w : Word => bits w.toNat f.hi f.lo)
      (n.setTag_reg_ne k g' (by rcases hf with h | h | h <;> rw [h] <;> decide))
    refine ⟨?_, ?_, ?_, ?_, hget F.ST_STAT_SESS (Or.inl rfl), Mach.availOf_of_get hget⟩ <;> rw [hset]
  have hsetByte := n.setTag_byte k g'
  generalize n.setTag k g' = j at *
  have hnoted := j.stSync_noted
  obtain ⟨htags, hrest⟩ := j.stSync_tags
  refine ⟨newFrame_of hsame hnew (hsetTx.trans hnoted.sameTx), rfl, rfl, rfl, rfl, rfl, ?_, ?_, fun a => ?_, rfl, rfl, rfl⟩
  · rw [hrest, hset, hst0, hst]
  · rw [htags, hset]
    exact Vector.getElem_set_self _
  · exact (hnoted.within.2 a).trans ((hsetByte a).trans ((hnew.within.2 a).trans (hbyte a)))

end

end Sys2Proof.Machine
end
section
/-!
Settles FramesSent, last part: rounds of the replay buffer, offers and fault notices (R817, R831, R832, R836, R845).
-/

namespace Sys2Proof.Machine

/-! ## A round of the replay buffer -/

/-- A held frame as it leaves again (R813, R817). -/
def StHeld.again (ack : Nat) (h : StHeld) : StHeld := { h with f := { h.f with ack := ack } }

/-- What the link stream shows of frames that leave one after the other. -/
def resent (l : List StHeld) (tx : List Frame) : List Frame := l.foldl (fun tx h => (h.f :: tx).take 16) tx

theorem take_append_take {α : Type} (a b : List α) (n : Nat) : (a ++ b.take n).take n = (a ++ b).take n := by
  rw [List.take_append, List.take_append, List.take_take, Nat.min_eq_left (Nat.sub_le n _)]

theorem resent_eq (l : List StHeld) (tx : List Frame) (hne : l ≠ []) : resent l tx = ((l.map (·.f)).reverse ++ tx).take 16 := by
  induction l generalizing tx with
  | nil => exact absurd rfl hne
  | cons h l ih =>
    by_cases hl : l = []
    · rw [hl]
      rfl
    · rw [resent, List.foldl_cons, ← resent, ih _ hl]
      rw [take_append_take, List.map_cons, List.reverse_cons, List.append_assoc]
      rfl

/-- What a round of frames that owe nothing leaves (R817). -/
structure Mach.Resends (l done : List StHeld) (m n : Mach) : Prop where
  within : m.Within sendRegs n
  avail : ∀ c, n.availOf c = m.availOf c
  held : n.st.held = done.reverse ++ l.map (StHeld.again m.st.rxSeq)
  replay : n.st.replay = false
  tx : n.st.tx = resent (l.map (StHeld.again m.st.rxSeq)) m.st.tx

theorem Mach.resend_spec (m : Mach) (l done : List StHeld) (hsess : m.sess = 2) (howe : ∀ h ∈ l, h.owe = false) :
    Mach.Resends l done m (m.resend l done) := by
  induction l generalizing m done with
  | nil =>
    have hst := m.setHeld_st done.reverse
    rw [Mach.resend]
    refine ⟨(m.setHeld_within _).other rfl rfl, fun c => m.setHeld_avail _ c, ?_, rfl, ?_⟩
    · show (m.setHeld done.reverse).st.held = _
      rw [hst, List.map_nil, List.append_nil]
    · show (m.setHeld done.reverse).st.tx = _
      rw [hst]
      rfl
  | cons h l ih =>
    have hpaid : h.owe = false := howe h (List.mem_cons_self ..)
    have hack : m.ackSeq = m.st.rxSeq := if_pos hsess
    have hst := m.txFrame_st (StHeld.again m.st.rxSeq h).f
    have hsess' : (m.txFrame (StHeld.again m.st.rxSeq h).f).sess = 2 := (m.txFrame_get _ _).trans hsess
    have hrec := ih (m.txFrame (StHeld.again m.st.rxSeq h).f) (StHeld.again m.st.rxSeq h :: done) hsess'
      fun k hk => howe k (List.mem_cons_of_mem _ hk)
    have heq : m.resend (h :: l) done = (m.txFrame (StHeld.again m.st.rxSeq h).f).resend l (StHeld.again m.st.rxSeq h :: done) := by
      rw [Mach.resend, hpaid, Bool.false_and, if_neg Bool.false_ne_true]
      dsimp only
      rw [if_neg Bool.false_ne_true, hack, StHeld.again, hpaid]
    have hwithin : m.Within sendRegs (m.txFrame (StHeld.again m.st.rxSeq h).f) := m.txFrame_within _ _
    have havail : ∀ c, (m.txFrame (StHeld.again m.st.rxSeq h).f).availOf c = m.availOf c := fun c =>
      Mach.availOf_of_get (fun g _ => m.txFrame_get _ g) c
    rw [heq]
    generalize m.txFrame (StHeld.again m.st.rxSeq h).f = k at *
    have hrx : k.st.rxSeq = m.st.rxSeq := by rw [hst]
    obtain ⟨hw, ha, hheld, hreplay, htx⟩ := hrec
    refine ⟨hwithin.trans hw, fun c => (ha c).trans (havail c), ?_, hreplay, ?_⟩
    · rw [hheld, hrx, List.map_cons, List.reverse_cons, List.append_assoc]
      rfl
    · rw [htx, hrx, hst]
      rfl

theorem replayGo_eq (m : Mach) (hlive : m.live = true) (hsess : m.sess = 2) (hlink : m.linkUp = true) (hreplay : m.st.replay = true) :
    m.replayGo = (m.resend m.st.held []).stSync := by
  rw [Mach.replayGo, hlive, hlink, hreplay, hsess]
  rfl

section
variable {s : State} (hlive : s.m.live = true)

include hlive in
theorem does_replay (hsess : s.m.sess = 2) (hlink : s.m.linkUp = true) (hheld : s.m.st.held ≠ []) (hreplay : s.m.st.replay = true)
    (howe : ∀ h ∈ s.m.st.held, h.owe = false) :
    Does .replay s (fun t =>
      t.m.st.held = s.m.st.held.map (StHeld.again s.m.st.rxSeq) ∧ t.m.st.replay = false ∧
      t.m.st.tx = (((s.m.st.held.map (StHeld.again s.m.st.rxSeq)).map (·.f)).reverse ++ s.m.st.tx).take 16 ∧
      t.m.availOf true = s.m.availOf true ∧ t.m.availOf false = s.m.availOf false ∧ Keeps s t) := by
  have hexec : exec .replay s = .next { s with m := s.m.replayGo } := s.run_ifLive _ hlive
  rw [replayGo_eq s.m hlive hsess hlink hreplay] at hexec
  obtain ⟨hwithin, havail, hheld', hreplay', htx⟩ := s.m.resend_spec s.m.st.held [] hsess howe
  refine ⟨_, hexec, ?_⟩
  generalize s.m.resend s.m.st.held [] = k at *
  have hnoted := k.stSync_noted
  obtain ⟨a, b, c, d, hst⟩ := hnoted.st
  refine ⟨?_, ?_, ?_, ?_, ?_, fun a => (hnoted.within.2 a).trans (hwithin.2 a), rfl, rfl, rfl⟩
  · exact hnoted.sameTx.held.trans hheld'
  · exact (congrArg StSt.replay hst).trans hreplay'
  · rw [← resent_eq _ _ (by simpa using hheld)]
    exact hnoted.sameTx.tx.trans htx
  · exact (hnoted.sameTx.avail _).trans (havail _)
  · exact (hnoted.sameTx.avail _).trans (havail _)

/-! ## The timer of the replay buffer -/

/-- The machine once a round has been asked for (R817). -/
def Mach.roundAsked (m : Mach) : Mach :=
  let n := m.countHold F.ST_RPLCNT_ROUNDS 1
  { n with st := { n.st with rounds := n.st.rounds + 1, replay := true, ackAt := n.now } }

theorem askRound_eq (m : Mach) (hheld : m.st.held ≠ []) (hsess : m.sess = 2) (hrounds : m.st.rounds < 4) : m.askRound = (false, m.roundAsked) := by
  have hsome : m.st.held.isEmpty = false := by simpa using hheld
  rw [Mach.askRound, hsome, hsess, if_neg (by decide), if_neg (by omega)]
  rfl

theorem askRound_lost (m : Mach) (hheld : m.st.held ≠ []) (hsess : m.sess = 2) (hrounds : 4 ≤ m.st.rounds) : m.askRound = (true, m) := by
  have hsome : m.st.held.isEmpty = false := by simpa using hheld
  rw [Mach.askRound, hsome, hsess, if_neg (by decide), if_pos hrounds]

/-- What a round that has been asked for shows (R817). -/
structure Mach.Asked (m n : Mach) : Prop where
  replay : n.st.replay = true
  rounds : n.st.rounds = m.st.rounds + 1
  now : n.now = m.now
  ackAt : n.st.ackAt = m.now
  held : n.st.held = m.st.held
  byte : ∀ a, n.byte a = m.byte a
  count : m.get F.ST_RPLCNT_ROUNDS < 0xFFFF → n.get F.ST_RPLCNT_ROUNDS = m.get F.ST_RPLCNT_ROUNDS + 1
  get : ∀ f, F.ST_RPLCNT_ROUNDS.apart f = true → n.get f = m.get f

theorem Mach.countHold_get (m : Mach) (f : Fld) (hf : f.lo ≤ f.hi ∧ f.hi < 32) (hm : m.get f + 1 < 2 ^ (f.hi + 1 - f.lo)) :
    (m.countHold f 1).get f = m.get f + 1 := by
  have hadd : addHold (2 ^ (f.hi + 1 - f.lo) - 1) (m.get f) 1 = m.get f + 1 := by
    rw [addHold]
    split <;> omega
  rw [Mach.countHold, hadd, m.get_put_self f _ hf.1 hf.2, Nat.mod_eq_of_lt hm]

theorem Mach.roundAsked_spec (m : Mach) : m.Asked m.roundAsked.stSync := by
  have hnoted := m.roundAsked.stSync_noted
  obtain ⟨a, b, c, d, hst⟩ := hnoted.st
  obtain ⟨n, hn⟩ : ∃ n, n = m.countHold F.ST_RPLCNT_ROUNDS 1 := ⟨_, rfl⟩
  have hasked : m.roundAsked = { n with st := { n.st with rounds := n.st.rounds + 1, replay := true, ackAt := n.now } } := by
    rw [hn]
    rfl
  have hnst : n.st = m.st := by rw [hn]; exact m.put_st _ _
  have hnow : n.now = m.now := by rw [hn]; exact m.now_put _ _
  have hbyte : ∀ a, n.byte a = m.byte a := by rw [hn]; exact fun a => m.put_byte _ _ a
  have hcount : m.get F.ST_RPLCNT_ROUNDS < 0xFFFF → n.get F.ST_RPLCNT_ROUNDS = m.get F.ST_RPLCNT_ROUNDS + 1 := fun h => by
    rw [hn]
    exact m.countHold_get F.ST_RPLCNT_ROUNDS (by decide) (Nat.succ_lt_succ h)
  have hget : ∀ f, F.ST_RPLCNT_ROUNDS.apart f = true → n.get f = m.get f := fun f hf => by
    rw [hn]
    exact m.get_put_apart _ hf
  have hkeep : ∀ f, m.roundAsked.get f = n.get f := fun f => by
    rw [hasked]
    rfl
  have hbyte' : ∀ a, m.roundAsked.byte a = n.byte a := fun a => by
    rw [hasked]
    rfl
  have hst' : m.roundAsked.st = { n.st with rounds := n.st.rounds + 1, replay := true, ackAt := n.now } := by rw [hasked]
  have hnow' : m.roundAsked.now = n.now := by rw [hasked]; rfl
  refine ⟨?_, ?_, ?_, ?_, ?_, fun a => (hnoted.within.2 a).trans ((hbyte' a).trans (hbyte a)), fun h => ?_, fun f hf => ?_⟩
  · rw [hst, hst']
  · rw [hst, hst', hnst]
  · rw [hnoted.now, hnow', hnow]
  · rw [hst, hst', hnow]
  · rw [hst, hst', hnst]
  · exact (hnoted.get F.ST_RPLCNT_ROUNDS (by decide)).trans ((hkeep _).trans (hcount h))
  · exact (hnoted.get f (Fld.apart_lt hf)).trans ((hkeep f).trans (hget f hf))

theorem replayTimeout_eq (m : Mach) (hlive : m.live = true) (hsess : m.sess = 2) (hlink : m.linkUp = true) (hheld : m.st.held ≠ [])
    (hreplay : m.st.replay = false) : m.replayTimeout = (m.runTo (m.st.ackAt + 3000 * m.get F.ST_RPLYT_T)).askRound := by
  have hsome : m.st.held.isEmpty = false := by simpa using hheld
  rw [Mach.replayTimeout, hlive, hsess, hlink, hsome, hreplay]
  rfl

theorem Mach.runTo_st (m : Mach) (b : Nat) : (m.runTo b).st = m.st := by
  obtain ⟨n, w, h⟩ := m.runTo_changes b
  rw [h]

theorem Mach.runTo_sess (m : Mach) (b : Nat) : (m.runTo b).sess = m.sess := m.runTo_get b _

theorem Mach.roundOrLoss_true (m : Mach) : Mach.roundOrLoss (true, m) = m.linkLost := if_pos rfl

theorem Mach.roundOrLoss_false (m : Mach) : Mach.roundOrLoss (false, m) = m.stSync := if_neg Bool.false_ne_true

include hlive in
theorem exec_replayTimeout (hsess : s.m.sess = 2) (hlink : s.m.linkUp = true) (hheld : s.m.st.held ≠ []) (hreplay : s.m.st.replay = false) :
    exec .replayTimeout s = .next { s with m := Mach.roundOrLoss (s.m.runTo (s.m.st.ackAt + 3000 * s.m.get F.ST_RPLYT_T)).askRound } :=
  (s.run_ifLive _ hlive).trans (congrArg (fun n => Host.Outcome.next ({ s with m := n } : State))
    (congrArg Mach.roundOrLoss (replayTimeout_eq s.m hlive hsess hlink hheld hreplay)))

include hlive in
theorem does_replayTimeout (hsess : s.m.sess = 2) (hlink : s.m.linkUp = true) (hheld : s.m.st.held ≠ []) (hreplay : s.m.st.replay = false)
    (hrounds : s.m.st.rounds < 4) {due : Nat} (hdue : due = (s.m.runTo (s.m.st.ackAt + 3000 * s.m.get F.ST_RPLYT_T)).now) :
    Does .replayTimeout s (fun t => t.m.st.replay = true ∧ t.m.st.rounds = s.m.st.rounds + 1 ∧
      t.m.now = due ∧ t.m.st.ackAt = due ∧ t.m.st.held = s.m.st.held ∧ Keeps s t ∧ (s.m.get F.ST_RPLCNT_ROUNDS < 0xFFFF →
        t.m.get F.ST_RPLCNT_ROUNDS = s.m.get F.ST_RPLCNT_ROUNDS + 1)) := by
  have hexec := exec_replayTimeout hlive hsess hlink hheld hreplay
  generalize s.m.st.ackAt + 3000 * s.m.get F.ST_RPLYT_T = b at *
  have hst := s.m.runTo_st b
  have hask := askRound_eq (s.m.runTo b) (by rw [hst]; exact hheld) ((s.m.runTo_sess b).trans hsess) (by rw [hst]; exact hrounds)
  have hbyte := (s.m.within_runTo (fun _ => True) b).2
  have hget := s.m.runTo_get b F.ST_RPLCNT_ROUNDS
  rw [hask, Mach.roundOrLoss_false] at hexec
  generalize s.m.runTo b = k at *
  obtain ⟨hrep, hrnd, hnow, hack, hheld', hbyte', hcount, -⟩ := k.roundAsked_spec
  refine ⟨_, hexec, hrep, ?_, hnow.trans hdue.symm, hack.trans hdue.symm, ?_, ⟨fun a => (hbyte' a).trans (hbyte a), rfl, rfl, rfl⟩, fun h => ?_⟩
  · rw [← hst]
    exact hrnd
  · rw [← hst]
    exact hheld'
  · rw [← hget] at h ⊢
    exact hcount h

end

/-! ## Offers -/

/-- The payload of an offer (R831). -/
def Mach.offerPayload (m : Mach) : List Byte :=
  let sus := m.sess = 3
  let boot := m.get F.BOOT_STATUS_PHASE != 4
  let adv := if boot then 16 else m.get F.ST_RXADV_ADV
  leBytes 4 (m.reg F.SYS_ID_reg).toNat ++ leBytes 4 (if sus then m.get F.ST_SID_SID else 0) ++
    leBytes 2 (if sus then m.st.rxSeq else 0) ++ leBytes 2 adv ++ leBytes 2 (adv - m.st.ringHeld) ++
    leBytes 1 m.retryOf ++ leBytes 1 (b2n boot + 16)

theorem Mach.offerPayload_spec (m : Mach) : m.offerPayload.length = 16 ∧ m.offerPayload.take 4 = leBytes 4 (m.reg F.SYS_ID_reg).toNat := by
  unfold Mach.offerPayload
  extract_lets sus boot adv
  refine ⟨?_, ?_⟩
  · simp only [List.length_append, leBytes_length]
  · simp only [List.append_assoc]
    rw [List.take_append_of_le_length (by rw [leBytes_length]), List.take_of_length_le (by rw [leBytes_length])]

/-- The machine once an offer has left (R832). -/
def Mach.offered (m : Mach) : Mach :=
  let n := m.txPlain 0x38 0 0 m.offerPayload
  let n := { n with st := { n.st with offerAt := some n.now } }
  if n.sess = 0 then n.put F.ST_STAT_SESS 1 else n

theorem Mach.ackSeq_runTo (m : Mach) (b : Nat) : (m.runTo b).ackSeq = m.ackSeq := by
  rw [Mach.ackSeq, Mach.ackSeq, Mach.runTo_sess, Mach.runTo_st]

/-- The machine at the time of its next offer (R832). -/
def Mach.offerDue (m : Mach) : Mach :=
  match m.st.offerAt with
  | some t => m.runTo (t + 300000)
  | none => m

theorem Mach.offerDue_spec (m : Mach) : m.offerDue.ackSeq = m.ackSeq ∧ m.offerDue.reg F.SYS_ID_reg = m.reg F.SYS_ID_reg ∧
    m.offerDue.sess = m.sess ∧ m.Within (· = F.ST_STAT_reg) m.offerDue := by
  unfold Mach.offerDue
  split
  · exact ⟨m.ackSeq_runTo _, m.runTo_reg _ _, m.runTo_sess _, m.within_runTo _ _⟩
  · exact ⟨rfl, rfl, rfl, Mach.Within.refl _ m⟩

theorem offer_eq (m : Mach) (hlive : m.live = true) (hoff : m.offering = true) :
    m.offer = m.offerDue.offered := by
  unfold Mach.offer Mach.offerDue
  rw [hlive, hoff, if_pos (by rfl)]
  cases m.st.offerAt with
  | none => rfl
  | some t => rfl

/-- What an offer leaves (R831, R832). -/
structure Mach.Offered (m n : Mach) : Prop where
  tx : ∃ f, n.st.tx.head? = some f ∧ f.ack = m.ackSeq ∧ f.ty = 0x38 ∧ f.payload = m.offerPayload
  now : n.now = m.now
  at' : n.st.offerAt = some m.now
  sess : n.sess = if m.sess = 0 then 1 else m.sess
  within : m.Within (· = F.ST_STAT_reg) n

theorem Mach.offered_spec (m : Mach) : m.Offered m.offered := by
  unfold Mach.offered
  rw [Mach.txPlain]
  generalize hf : ({ ty := 0x38, flags := 0, seq := 0, ack := m.ackSeq, a := 0, b := 0, payload := m.offerPayload } : Frame) = f
  have hwithin := m.txFrame_within f (· = F.ST_STAT_reg)
  have hst := m.txFrame_st f
  have hnow := m.txFrame_now f
  have hget := m.txFrame_get f
  generalize m.txFrame f = k at *
  obtain ⟨u, hu⟩ : ∃ u, u = { k with st := { k.st with offerAt := some k.now } } := ⟨_, rfl⟩
  have hutx : u.st.tx.head? = some f := by
    rw [hu, hst]
    rfl
  have hunow : u.now = m.now := by
    rw [← hnow, hu]
    rfl
  have huat : u.st.offerAt = some m.now := by rw [hu, hnow]
  have husess : u.sess = m.sess := by
    rw [hu]
    exact hget _
  have huwithin : m.Within (· = F.ST_STAT_reg) u := by
    rw [hu]
    exact hwithin.other rfl rfl
  have hfields : f.ack = m.ackSeq ∧ f.ty = 0x38 ∧ f.payload = m.offerPayload := by
    rw [← hf]
    exact ⟨rfl, rfl, rfl⟩
  dsimp only
  rw [← hu, husess]
  clear hu
  split
  · next hidle =>
    refine ⟨⟨f, ?_, hfields⟩, (u.now_put _ _).trans hunow, ?_, ?_, huwithin.put _ _ rfl⟩
    · rw [Mach.put_st]
      exact hutx
    · rw [Mach.put_st]
      exact huat
    · exact (u.get_put_self F.ST_STAT_SESS 1 (by decide) (by decide)).trans (if_pos hidle).symm
  · next hbusy => exact ⟨⟨f, hutx, hfields⟩, hunow, huat, husess.trans (if_neg hbusy).symm, huwithin⟩

section
variable {s : State} (hlive : s.m.live = true)

include hlive in
theorem exec_sessionOffer_off (hoff : s.m.offering = false) : exec .sessionOffer s = .next s := by
  refine (s.run_ifLive _ hlive).trans (congrArg (fun n => Host.Outcome.next ({ s with m := n } : State)) (?_ : s.m.offer = s.m))
  rw [Mach.offer, hoff, Bool.and_false, if_neg Bool.false_ne_true]

include hlive in
theorem does_sessionOffer (hoff : s.m.offering = true) :
    Does .sessionOffer s (fun t =>
      (∃ f, (t.m.st.tx.head? = some f ∧ f.ack = s.m.ackSeq) ∧ f.ty = 0x38 ∧ f.payload.length = 16 ∧
        f.payload.take 4 = leBytes 4 (s.m.reg F.SYS_ID_reg).toNat) ∧
      t.m.now = (match s.m.st.offerAt with | some t0 => (s.m.runTo (t0 + 300000)).now | none => s.m.now) ∧
      t.m.st.offerAt = some t.m.now ∧ t.m.sess = (if s.m.sess = 0 then 1 else s.m.sess) ∧ SameRegs (· = F.ST_STAT_reg) s t ∧
      Keeps s t) := by
  obtain ⟨hack, hid, hsess, hwithin⟩ := s.m.offerDue_spec
  have hnow : s.m.offerDue.now = (match s.m.st.offerAt with | some t0 => (s.m.runTo (t0 + 300000)).now | none => s.m.now) := by
    unfold Mach.offerDue
    split <;> rfl
  have hexec : exec .sessionOffer s = .next { s with m := s.m.offer } := s.run_ifLive _ hlive
  rw [offer_eq s.m hlive hoff] at hexec
  generalize s.m.offerDue = k at *
  obtain ⟨⟨f, htx, hfack, hty, hpay⟩, hnow', hat, hsess', hwithin'⟩ := k.offered_spec
  obtain ⟨hlen, htake⟩ := k.offerPayload_spec
  refine ⟨_, hexec, ⟨f, ⟨htx, hfack.trans hack⟩, hty, ?_, ?_⟩, hnow'.trans hnow, hat.trans (congrArg some hnow'.symm), ?_,
    (hwithin.trans hwithin').sameRegs, (hwithin.trans hwithin').keeps⟩
  · rw [hpay, hlen]
  · rw [hpay, htake, hid]
  · rw [← hsess]
    exact hsess'

/-! ## Fault notices -/

include hlive in
theorem exec_faultNoticeRepeat_none (hnone : s.m.st.noticeAt = none) : exec .faultNoticeRepeat s = .next s := by
  refine (s.run_ifLive _ hlive).trans (congrArg (fun n => Host.Outcome.next ({ s with m := n } : State)) (?_ : s.m.noticeRepeat = s.m))
  rw [Mach.noticeRepeat, hnone]

theorem Mach.runTo_noticeBytes (m : Mach) (b : Nat) : (m.runTo b).noticeBytes = m.noticeBytes := by
  unfold Mach.noticeBytes
  simp only [Mach.runTo_get, Mach.runTo_reg]

/-- The machine once a fault notice has left (R845). -/
def Mach.noticed (m : Mach) : Mach :=
  let n := m.txPlain 0x08 0 0 m.noticeBytes
  { n with st := { n.st with noticeAt := some n.now, noticeDue := false } }

theorem notice_eq (m : Mach) (hsess : m.sess = 2) (hlink : m.linkUp = true) : m.notice = m.noticed := by
  rw [Mach.notice, hsess, hlink, if_pos (by rfl)]
  rfl

theorem Mach.noticed_spec (m : Mach) : (∃ f, m.noticed.st.tx.head? = some f ∧ f.ack = m.ackSeq ∧ f.ty = 8 ∧ f.payload = m.noticeBytes) ∧
    m.noticed.now = m.now ∧ m.noticed.st.noticeAt = some m.now ∧ m.Within (fun _ => False) m.noticed := by
  unfold Mach.noticed
  rw [Mach.txPlain]
  generalize hf : ({ ty := 8, flags := 0, seq := 0, ack := m.ackSeq, a := 0, b := 0, payload := m.noticeBytes } : Frame) = f
  have hwithin := m.txFrame_within f (fun _ => False)
  have hst := m.txFrame_st f
  have hnow := m.txFrame_now f
  generalize m.txFrame f = k at *
  refine ⟨⟨f, ?_, ?_⟩, hnow, congrArg some hnow, hwithin.other rfl rfl⟩
  · show k.st.tx.head? = some f
    rw [hst]
    rfl
  · rw [← hf]
    exact ⟨rfl, rfl, rfl⟩

include hlive in
theorem does_faultNoticeRepeat {t0 : Nat} (hat : s.m.st.noticeAt = some t0) (hheld : s.m.get F.SHR_STATUS_HELD = 1) (hsess : s.m.sess = 2)
    (hlink : s.m.linkUp = true) :
    Does .faultNoticeRepeat s (fun t => (∃ f, (t.m.st.tx.head? = some f ∧ f.ack = s.m.ackSeq) ∧ f.ty = 8 ∧ f.payload = s.m.noticeBytes) ∧
      t.m.now = (s.m.runTo (t0 + 30000000)).now ∧ t.m.st.noticeAt = some t.m.now ∧ SameRegs (fun _ => False) s t ∧ Keeps s t) := by
  have hrep : s.m.noticeRepeat = (s.m.runTo (t0 + 30000000)).notice := by
    rw [Mach.noticeRepeat, hat, hlive, Mach.is_of_eq_one hheld, hsess, hlink]
    rfl
  have hexec : exec .faultNoticeRepeat s = .next { s with m := s.m.noticeRepeat } := s.run_ifLive _ hlive
  rw [hrep] at hexec
  generalize t0 + 30000000 = b at *
  have hup : (s.m.runTo b).linkUp = true := by
    rw [Mach.linkUp, Mach.runTo_get]
    exact hlink
  rw [notice_eq _ ((s.m.runTo_sess b).trans hsess) hup] at hexec
  obtain ⟨⟨f, htx, hack, hty, hpay⟩, hnow, hat', hwithin⟩ := (s.m.runTo b).noticed_spec
  have hrun := s.m.within_runTo (fun _ => False) b
  exact ⟨_, hexec, ⟨f, ⟨htx, hack.trans (s.m.ackSeq_runTo b)⟩, hty, hpay.trans (s.m.runTo_noticeBytes b)⟩, hnow,
    hat'.trans (congrArg some hnow.symm), (hrun.trans hwithin).sameRegs, (hrun.trans hwithin).keeps⟩

end

/-! ## A lost link -/

/-- The registers that ST's own work changes: those of ST, the lines of C7 and the codec's read pointers. -/
def stRegs (a : Nat) : Prop := 0x310000 ≤ a ∨ ∃ c : Fin 16, a = F.BC_CTX_RP_reg c

/-- Outside ST's own registers `n` holds what `m` holds. -/
def Mach.StWork (m n : Mach) : Prop := ∀ a, ¬ stRegs a → n.reg a = m.reg a

section
variable {m n : Mach}

theorem Mach.StWork.refl (m : Mach) : m.StWork m := fun _ _ => rfl

theorem Mach.StWork.trans {k : Mach} (h : m.StWork n) (h' : n.StWork k) : m.StWork k := fun a ha => (h' a ha).trans (h a ha)

theorem Mach.StWork.other {k : Mach} (h : m.StWork n) (hregs : k.regs = n.regs) : m.StWork k := h.trans fun a _ => by
  rw [Mach.reg, hregs]
  rfl

theorem Mach.Within.stWork {p : Nat → Prop} (h : m.Within p n) (hp : ∀ a, p a → stRegs a) : m.StWork n := fun a ha => h.1 a fun hpa => ha (hp a hpa)

theorem Mach.StWork.put (h : m.StWork n) (f : Fld) (v : Nat) (hf : 0x310000 ≤ f.addr) : m.StWork (n.put f v) :=
  h.trans (((Mach.Within.refl (· = f.addr) n).put f v rfl).stWork fun _ ha => Or.inl (ha ▸ hf))

theorem stRegs_of_eventRegs {a : Nat} (h : eventRegs 7 a) : stRegs a := by
  rcases h with h | h | h <;> rw [h] <;> exact Or.inl (by decide)

theorem Mach.StWork.pulse (h : m.StWork n) (e : Nat) : m.StWork (n.pulse 7 e) :=
  h.trans (((Mach.Within.refl (eventRegs 7) n).pulse 7 e fun _ h => h).stWork fun _ => stRegs_of_eventRegs)

theorem Mach.StWork.stSync (h : m.StWork n) : m.StWork n.stSync :=
  h.trans (n.stSync_noted.within.stWork fun _ => stRegs_of_eventRegs)

theorem Mach.StWork.get (h : m.StWork n) (f : Fld) (hf : ¬ stRegs f.addr) : n.get f = m.get f :=
  congrArg (fun w : Word => bits w.toNat f.hi f.lo) (h _ hf)

theorem sendRegs_stRegs {a : Nat} (h : sendRegs a) : stRegs a := by
  rcases h with h | h | h <;> rw [h] <;> exact Or.inl (by decide)

theorem doneRegs_stRegs {a : Nat} (h : doneRegs a) : stRegs a := by
  rcases h with h | h
  · exact Or.inr h
  · exact Or.inl (by omega)

theorem Mach.stWork_ringWrite (m : Mach) (bytes : List Byte) (len cost : Nat) : m.StWork (m.ringWrite bytes len cost) := by
  unfold Mach.ringWrite
  extract_lets pos k x y
  have hk : k.regs = m.regs := by
    obtain ⟨a, b, c, h⟩ := m.putBytes_changes (mbxBase + (m.get F.ST_RXBASE_OFS + pos) % 0x4000) bytes
    have hk : k = _ := h
    rw [hk]
  have hy : m.StWork y := (Mach.StWork.refl m).other hk
  exact (hy.put F.ST_RXWP_OFS _ (by decide)).pulse 12

theorem Mach.stWork_ringPut (m : Mach) (bytes : List Byte) (cost reserve : Nat) : m.StWork (m.ringPut bytes cost reserve).2 := by
  unfold Mach.ringPut
  extract_lets size need rest wrap k
  split
  · exact Mach.StWork.refl m
  · have hk : m.StWork k := by
      simp only [k]
      split
      · exact Mach.StWork.refl m
      · exact (m.stWork_ringWrite _ _ _).put F.ST_RXWP_OFS 0 (by decide)
    exact hk.trans (k.stWork_ringWrite _ _ _)

theorem Mach.ownRecord_cases (m : Mach) (ty a b : Nat) : ∃ k, (∃ ok, m.ringPut (ownHeader ty a b) 0 0 = (ok, k)) ∧
    (m.ownRecord ty a b = k ∨ m.ownRecord ty a b = k.put F.ST_STAT_RXDROP 1) := by
  unfold Mach.ownRecord
  generalize m.ringPut (ownHeader ty a b) 0 0 = r
  obtain ⟨ok, k⟩ := r
  refine ⟨k, ⟨ok, rfl⟩, ?_⟩
  cases ok
  · exact Or.inr rfl
  · exact Or.inl rfl

theorem Mach.stWork_ownRecord (m : Mach) (ty a b : Nat) : m.StWork (m.ownRecord ty a b) := by
  have hput := m.stWork_ringPut (ownHeader ty a b) 0 0
  obtain ⟨k, ⟨ok, hk⟩, h | h⟩ := m.ownRecord_cases ty a b <;> rw [h] <;> rw [hk] at hput
  · exact hput
  · exact hput.put _ _ (by decide)

/-! What a record of ST's own leaves of the other fields. -/

theorem Mach.ringWrite_get (m : Mach) (bytes : List Byte) (len cost : Nat) (g : Fld) (hg : g.addr < 0x400000 ∧ g.addr ≠ F.ST_RXWP_reg) :
    (m.ringWrite bytes len cost).get g = m.get g := by
  unfold Mach.ringWrite
  extract_lets pos k x y
  have hk : ∀ g, k.get g = m.get g := by
    obtain ⟨a, b, c, h⟩ := m.putBytes_changes (mbxBase + (m.get F.ST_RXBASE_OFS + pos) % 0x4000) bytes
    have hk : k = _ := h
    rw [hk]
    exact fun _ => rfl
  have hy : ∀ g, y.get g = k.get g := fun _ => rfl
  clear_value k y
  exact (Mach.get_pulse _ 7 12 hg.1).trans ((y.get_put_ne F.ST_RXWP_OFS g _ hg.2).trans ((hy g).trans (hk g)))

theorem Mach.ringPut_get (m : Mach) (bytes : List Byte) (cost reserve : Nat) (g : Fld) (hg : g.addr < 0x400000 ∧ g.addr ≠ F.ST_RXWP_reg) :
    (m.ringPut bytes cost reserve).2.get g = m.get g := by
  unfold Mach.ringPut
  extract_lets size need rest wrap k
  split
  · rfl
  · have hk : k.get g = m.get g := by
      simp only [k]
      split
      · rfl
      · exact (Mach.get_put_ne _ F.ST_RXWP_OFS g 0 hg.2).trans (m.ringWrite_get _ _ _ g hg)
    exact (k.ringWrite_get _ _ _ g hg).trans hk

theorem Mach.ownRecord_get (m : Mach) (ty a b : Nat) (g : Fld) (hg : g.addr ≠ F.ST_RXWP_reg) (hdrop : F.ST_STAT_RXDROP.apart g = true) :
    (m.ownRecord ty a b).get g = m.get g := by
  have hput := m.ringPut_get (ownHeader ty a b) 0 0 g ⟨Fld.apart_lt hdrop, hg⟩
  obtain ⟨k, ⟨ok, hk⟩, h | h⟩ := m.ownRecord_cases ty a b <;> rw [h] <;> rw [hk] at hput
  · exact hput
  · exact (k.get_put_apart 1 hdrop).trans hput

theorem Mach.setSess_spec (m : Mach) (k why : Nat) (hk : k < 8) : (m.setSess k why).sess = k ∧ m.StWork (m.setSess k why) := by
  refine ⟨?_, ((Mach.StWork.refl m).put F.ST_STAT_SESS k (by decide)).trans (Mach.stWork_ownRecord _ _ _ _)⟩
  exact (Mach.ownRecord_get _ _ _ _ F.ST_STAT_SESS (by decide) (by decide)).trans
    ((m.get_put_self F.ST_STAT_SESS k (by decide) (by decide)).trans (Nat.mod_eq_of_lt hk))

theorem Mach.stWork_setTag (m : Mach) (i : Fin 64) (t : RdTag) : m.StWork (m.setTag i t) := fun _ ha =>
  m.setTag_reg_ne i t fun he => ha (he ▸ Or.inl (by decide))

theorem Mach.stWork_endReads (m : Mach) : m.StWork m.endReads := by
  refine Mach.each_keeps (fun k => m.StWork k) (List.finRange 64) _ (fun i k hk => ?_) m (Mach.StWork.refl m)
  extract_lets g u
  split
  · exact hk
  · have hu : k.StWork u := by
      simp only [u]
      split
      · exact k.stWork_ownRecord _ _ _
      · exact Mach.StWork.refl k
    exact (hk.trans hu).trans (u.stWork_setTag i {})

theorem Mach.stWork_entriesDone (m : Mach) (l : List Nat) : m.StWork (m.each l (fun id m => m.entryDone id true)) :=
  Mach.each_keeps (fun k => m.StWork k) l _ (fun id k hk => hk.trans ((k.entryDone_spec id true).1.within.stWork fun _ => doneRegs_stRegs)) m
    (Mach.StWork.refl m)

theorem Mach.closeSess_spec (m : Mach) (why : Nat) (hhas : m.hasSess = true) : (m.closeSess why).sess = 0 ∧ m.StWork (m.closeSess why) := by
  have hhas' : ¬ ((!m.hasSess) = true) := by rw [hhas]; exact Bool.false_ne_true
  unfold Mach.closeSess
  rw [if_neg hhas']
  extract_lets k1 k2 k3 y k4 k5 k6
  have h1 : m.StWork k1 := by
    simp only [k1]
    split
    · exact (m.txFrame_within _ sendRegs).stWork fun _ => sendRegs_stRegs
    · exact Mach.StWork.refl m
  have h2 : k1.StWork k2 := (k1.setHeld_within []).stWork fun _ => sendRegs_stRegs
  have h3 : k2.StWork k3 := k2.stWork_entriesDone _
  have h4 : k3.StWork k4 := (Mach.StWork.refl k3).other rfl
  have h5 : k4.StWork k5 := k4.stWork_endReads
  have h6 : k5.StWork k6 := ((Mach.StWork.refl k5).put F.ST_STAT_CLOSEWHY why (by decide)).put F.ST_SID_SID 0 (by decide)
  clear_value k1 k2 k3 y k4 k5 k6
  obtain ⟨hsess, hwork⟩ := k6.setSess_spec 0 why (by decide)
  refine ⟨(Mach.get_pulse _ 7 13 (by decide)).trans ((Mach.stSync_get _ _ (by decide)).trans hsess), ?_⟩
  exact ((((((h1.trans h2).trans h3).trans h4).trans h5).trans h6).trans hwork).stSync.pulse 13

theorem Mach.stLinkLost_spec (m : Mach) (hsess : m.sess = 2) : m.stLinkLost.sess = (if m.get F.ST_CTL_RESUMEEN = 1 then 3 else 0) ∧
    m.StWork m.stLinkLost := by
  obtain ⟨k, hdef⟩ : ∃ k : Mach, k = { m with st := { m.st with offerAt := none } } := ⟨_, rfl⟩
  have heq : m.stLinkLost = if k.sess = 2 then
      if k.is F.ST_CTL_RESUMEEN then (Mach.setSess { k with st := { k.st with suspendAt := k.now } } 3 0).stSync else k.closeSess 1
      else if k.sess = 1 then k.put F.ST_STAT_SESS 0 else k := by
    rw [hdef]
    rfl
  have hk : m.StWork k := (Mach.StWork.refl m).other (by rw [hdef])
  have hsess' : k.sess = 2 := by
    rw [hdef]
    exact hsess
  have hres : k.get F.ST_CTL_RESUMEEN = m.get F.ST_CTL_RESUMEEN := by
    rw [hdef]
    rfl
  rw [heq, if_pos hsess', ← hres]
  by_cases hon : k.get F.ST_CTL_RESUMEEN = 1
  · rw [if_pos (Mach.is_of_eq_one hon), if_pos hon]
    obtain ⟨u, hu⟩ : ∃ u : Mach, u = { k with st := { k.st with suspendAt := k.now } } := ⟨_, rfl⟩
    rw [← hu]
    have hu' : m.StWork u := by
      rw [hu]
      exact hk.other rfl
    obtain ⟨hset, hwork⟩ := u.setSess_spec 3 0 (by decide)
    exact ⟨(Mach.stSync_get _ _ (by decide)).trans hset, (hu'.trans hwork).stSync⟩
  · have hlt : k.get F.ST_CTL_RESUMEEN < 2 := k.get_lt F.ST_CTL_RESUMEEN
    have hoff : k.is F.ST_CTL_RESUMEEN = false := Mach.is_of_eq_zero (by omega)
    rw [hoff, if_neg Bool.false_ne_true, if_neg hon]
    obtain ⟨hclose, hwork⟩ := k.closeSess_spec 1 (by rw [Mach.hasSess, hsess']; rfl)
    exact ⟨hclose, hk.trans hwork⟩

end

/-! ### The lanes let go of the link -/

/-- A field that the lanes leave when the link goes: the flag of a loss, and what belongs to ST. -/
def staysAtLoss (g : Fld) : Prop := g = F.LN_STAT_LOSS ∨ (0x310000 ≤ g.addr ∧ g.addr < 0x400000)

theorem staysAtLoss_apart {g : Fld} (hg : staysAtLoss g) : F.LN_STAT_STATE.apart g = true ∧ F.LN_STAT_WIDTH.apart g = true ∧
    F.LN_CTL_RETRAIN.apart g = true ∧ (∀ l : Fin 4, g.addr ≠ F.LNL_STAT_reg l) ∧ g.addr ≠ F.LN_CNT_reg := by
  rcases hg with rfl | ⟨hlo, hhi⟩
  · decide
  · refine ⟨?_, ?_, ?_, fun l => ?_, ?_⟩
    · simp [Fld.apart, F.LN_STAT_STATE, F.LN_STAT_reg, hhi]
      omega
    · simp [Fld.apart, F.LN_STAT_WIDTH, F.LN_STAT_reg, hhi]
      omega
    · simp [Fld.apart, F.LN_CTL_RETRAIN, F.LN_CTL_reg, hhi]
      omega
    · simp only [F.LNL_STAT_reg]
      omega
    · simp only [F.LN_CNT_reg]
      omega

/-- `n` is `m` once the lanes are in state `k`. -/
structure Mach.LetsGo (k : Nat) (m n : Mach) : Prop where
  state : n.get F.LN_STAT_STATE = k
  get : ∀ g, staysAtLoss g → n.get g = m.get g

theorem Mach.lnEnter_letsGo (m : Mach) {k : Nat} (hrun : m.clk.running = true) (hk : k < 16) : m.LetsGo k (m.lnEnter k) := by
  by_cases hne : m.lnState = k
  · unfold Mach.lnEnter
    extract_lets x y z w n
    have hget : ∀ g, n.get g = m.get g := fun _ => rfl
    have hn : n.lnState = k := hne
    rw [if_pos hn]
    exact ⟨hn, fun g _ => hget g⟩
  · have hent := m.lnEnter_spec hrun hne hk
    exact ⟨hent.state, fun g hg => hent.get g (staysAtLoss_apart hg).1⟩

theorem Mach.detecting_stays (m : Mach) (g : Fld) (hg : staysAtLoss g) : m.detecting.get g = m.get g := by
  obtain ⟨-, -, hctl, hstat, -⟩ := staysAtLoss_apart hg
  unfold Mach.detecting
  extract_lets x k1 k2
  have hk2 : k2.get g = m.get g := Mach.each_keeps (fun k => k.get g = m.get g) allLanes _
    (fun l k hk => (k.get_put_ne (F.LNL_STAT_RXINV l) g 0 (hstat l)).trans hk) k1 rfl
  exact (k2.get_put_apart 0 hctl).trans hk2

theorem Mach.lnRest_letsGo (m : Mach) (hrun : m.clk.running = true) : ∃ k, k ≠ 7 ∧ m.LetsGo k m.lnRest := by
  unfold Mach.lnRest
  split
  · exact ⟨8, by decide, m.lnEnter_letsGo hrun (by decide)⟩
  · split
    · have hclk : m.detecting.clk.running = true := by rw [m.detecting_spec.1.clk, hrun]
      have hgo := m.detecting.lnEnter_letsGo (k := 1) hclk (by decide)
      exact ⟨1, by decide, hgo.state, fun g hg => (hgo.get g hg).trans (m.detecting_stays g hg)⟩
    · exact ⟨0, by decide, m.lnEnter_letsGo hrun (by decide)⟩

theorem Mach.lnLeave_stays (m : Mach) : m.Hushed m.lnLeave ∧ ∀ g, staysAtLoss g → m.lnLeave.get g = m.get g := by
  unfold Mach.lnLeave
  refine ⟨((Mach.Hushed.refl m).each allLanes _ fun l k => (Mach.Hushed.refl k).put (F.LNL_STAT_INLINK l) 0 ?_).put _ _ (by decide), fun g hg => ?_⟩
  · simp only [F.LNL_STAT_INLINK, F.LNL_STAT_reg]
    omega
  · obtain ⟨-, hwidth, -, hstat, -⟩ := staysAtLoss_apart hg
    have heach : (m.each allLanes (fun l m => m.put (F.LNL_STAT_INLINK l) 0)).get g = m.get g :=
      Mach.each_keeps (fun k => k.get g = m.get g) allLanes _
        (fun l k hk => (k.get_put_ne (F.LNL_STAT_INLINK l) g 0 (hstat l)).trans hk) m rfl
    generalize m.each allLanes (fun l m => m.put (F.LNL_STAT_INLINK l) 0) = k at *
    exact (k.get_put_apart 0 hwidth).trans heach

theorem Mach.countHold_get_ne (m : Mach) (f : Fld) (n : Nat) (g : Fld) (h : g.addr ≠ f.addr) : (m.countHold f n).get g = m.get g :=
  m.get_put_ne f g _ h

/-- The machine once a loss has been noted (R780). -/
def Mach.lossNoted (m : Mach) : Mach :=
  let m := (m.put F.LN_STAT_LOSS 1).countHold F.LN_CNT_LOSSES 1
  { m with ln := { m.ln with idleTo := m.now + 30000, ceil := 3, fresh := true, gone := none } }

theorem Mach.lossNoted_eq (m : Mach) : ∃ k x, k = (m.put F.LN_STAT_LOSS 1).countHold F.LN_CNT_LOSSES 1 ∧ m.lossNoted = { k with ln := x } :=
  ⟨_, _, rfl, rfl⟩

theorem Mach.lossNoted_spec (m : Mach) : m.lossNoted.clk = m.clk ∧ m.lossNoted.get F.LN_STAT_LOSS = 1 ∧
    ∀ g : Fld, 0x310000 ≤ g.addr → m.lossNoted.get g = m.get g := by
  obtain ⟨k, x, hk, hx⟩ := m.lossNoted_eq
  have hkeep : ∀ g, Mach.get { k with ln := x } g = k.get g := fun _ => rfl
  have hget : ∀ g : Fld, g.addr ≠ F.LN_CNT_reg → m.lossNoted.get g = (m.put F.LN_STAT_LOSS 1).get g := fun g hg => by
    rw [hx, hkeep, hk]
    exact Mach.countHold_get_ne _ F.LN_CNT_LOSSES 1 g hg
  refine ⟨?_, (hget F.LN_STAT_LOSS (by decide)).trans (m.get_put_self F.LN_STAT_LOSS 1 (by decide) (by decide)), fun g hg => ?_⟩
  · have hclk : k.clk = m.clk := by
      rw [hk]
      exact (Mach.put_clk _ _ _).trans (m.put_clk _ _)
    rw [hx, ← hclk]
  · refine (hget g ?_).trans (m.get_put_ne F.LN_STAT_LOSS g 1 ?_)
    · simp only [F.LN_CNT_reg]
      omega
    · simp only [F.LN_STAT_LOSS, F.LN_STAT_reg]
      omega

theorem linkLost_eq (m : Mach) (hup : m.linkUp = true) : m.linkLost = m.lossNoted.lnLeave.lnRest.stLinkLost := by
  have hstate : ¬ ((m.lnState != 7) = true) := by
    have h7 : m.get F.LN_STAT_STATE = 7 := by simpa [Mach.linkUp] using hup
    rw [Mach.lnState, h7]
    decide
  exact if_neg hstate

theorem Mach.linkLost_spec (m : Mach) (hrun : m.clk.running = true) (hup : m.linkUp = true) (hsess : m.sess = 2) :
    m.linkLost.get F.LN_STAT_LOSS = 1 ∧ m.linkLost.get F.LN_STAT_STATE ≠ 7 ∧
    m.linkLost.get F.ST_STAT_SESS = (if m.get F.ST_CTL_RESUMEEN = 1 then 3 else 0) := by
  rw [linkLost_eq m hup]
  obtain ⟨hclk, hloss1, hst1⟩ := m.lossNoted_spec
  generalize m.lossNoted = k at *
  obtain ⟨hhush, hleave⟩ := k.lnLeave_stays
  obtain ⟨j, hj, hrest⟩ := k.lnLeave.lnRest_letsGo (by rw [hhush.clk, hclk, hrun])
  have hstays : ∀ g, staysAtLoss g → k.lnLeave.lnRest.get g = k.get g := fun g hg => (hrest.get g hg).trans (hleave g hg)
  have hsess' : k.lnLeave.lnRest.sess = 2 := (hstays F.ST_STAT_SESS (Or.inr (by decide))).trans ((hst1 F.ST_STAT_SESS (by decide)).trans hsess)
  have hres : k.lnLeave.lnRest.get F.ST_CTL_RESUMEEN = m.get F.ST_CTL_RESUMEEN :=
    (hstays _ (Or.inr (by decide))).trans (hst1 _ (by decide))
  have hloss : k.lnLeave.lnRest.get F.LN_STAT_LOSS = 1 := (hstays _ (Or.inl rfl)).trans hloss1
  have hstate' := hrest.state
  generalize k.lnLeave.lnRest = n at *
  obtain ⟨hlost, hwork⟩ := n.stLinkLost_spec hsess'
  have hout : ¬ stRegs F.LN_STAT_reg := by
    rintro (h | ⟨c, h⟩)
    · exact absurd h (by decide)
    · simp only [F.LN_STAT_reg, F.BC_CTX_RP_reg] at h
      omega
  refine ⟨(hwork.get F.LN_STAT_LOSS hout).trans hloss, ?_, ?_⟩
  · rw [hwork.get F.LN_STAT_STATE hout, hstate']
    exact hj
  · rw [← hres]
    exact hlost

section
variable {s : State} (hlive : s.m.live = true)

include hlive in
theorem does_replayTimeout_lost (hsess : s.m.sess = 2) (hlink : s.m.linkUp = true) (hheld : s.m.st.held ≠ []) (hreplay : s.m.st.replay = false)
    (hrounds : 4 ≤ s.m.st.rounds) :
    Does .replayTimeout s (fun t => t.m.get F.LN_STAT_LOSS = 1 ∧ t.m.get F.LN_STAT_STATE ≠ 7 ∧
      t.m.get F.ST_STAT_SESS = (if s.m.get F.ST_CTL_RESUMEEN = 1 then 3 else 0) ∧ SameStores s t) := by
  have hexec := exec_replayTimeout hlive hsess hlink hheld hreplay
  generalize s.m.st.ackAt + 3000 * s.m.get F.ST_RPLYT_T = b at *
  have hst := s.m.runTo_st b
  rw [askRound_lost (s.m.runTo b) (by rw [hst]; exact hheld) ((s.m.runTo_sess b).trans hsess) (by rw [hst]; exact hrounds), Mach.roundOrLoss_true] at hexec
  have hrun : (s.m.runTo b).clk.running = true := by
    rw [Mach.runTo_clk]
    exact (s.m.live_iff.1 hlive).1
  have hup : (s.m.runTo b).linkUp = true := by
    rw [Mach.linkUp, Mach.runTo_get]
    exact hlink
  obtain ⟨hloss, hstate, hsess'⟩ := (s.m.runTo b).linkLost_spec hrun hup ((s.m.runTo_sess b).trans hsess)
  rw [Mach.runTo_get] at hsess'
  exact ⟨_, hexec, hloss, hstate, hsess', rfl, rfl, rfl⟩

end

/-- Settles O54: each row sends one frame through `newFrame_of`, `resend_spec` or a plain frame; a fifth round is a lost link. -/
theorem framesSent : Obligations.FramesSent := by
  intro s hlive
  dsimp only
  refine ⟨sends_none hlive, ?_, ?_, exec_sessionOffer_off hlive, does_sessionOffer hlive, exec_faultNoticeRepeat_none hlive,
    fun t0 => does_faultNoticeRepeat hlive⟩
  · intro hmay
    refine ⟨fun e hpick hrun hctl hsend hclean => ?_, fun g rest hcpl hsend => ?_, fun e hcpl hfind hstarted hlen hsend hclean hbody => ?_,
      fun k rest hreq hsend => ?_⟩
    · exact does_imgSend hlive hpick hmay hrun hctl hsend hclean
    · exact does_ctlSend_cpl hlive hcpl hmay hsend
    · exact does_ctlSend_entry hlive hcpl hfind hstarted hlen hmay hsend hclean hbody rfl rfl
    · exact does_rdreqSend hlive hreq hmay hsend
  · intro hsess hlink hheld
    refine ⟨fun hreplay howe => does_replay hlive hsess hlink hheld hreplay howe, fun hreplay => ⟨fun hrounds => ?_, fun hrounds => ?_⟩⟩
    · exact does_replayTimeout hlive hsess hlink hheld hreplay hrounds rfl
    · exact does_replayTimeout_lost hlive hsess hlink hheld hreplay hrounds

end Sys2Proof.Machine
end
section
/-!
Settles FramesReceived, first part: the words of the link that come in, and the next frame in them (R764, R765, R770, R804).
-/

namespace Sys2Proof.Machine

/-! ## Words come in -/

/-- Reading the link changes the lanes only: their status and error counts, and what has arrived (R764, R770). -/
structure Mach.LaneWork (m n : Mach) : Prop where
  same : ∃ r b x, n = { m with regs := r, beat := b, ln := x }
  within : m.Within laneRegs n

section
variable {m n : Mach}

theorem Mach.LaneWork.refl (m : Mach) : m.LaneWork m := ⟨⟨_, _, _, rfl⟩, Mach.Within.refl _ m⟩

theorem Mach.LaneWork.trans {k : Mach} (h : m.LaneWork n) (h' : n.LaneWork k) : m.LaneWork k := by
  obtain ⟨r, b, x, hn⟩ := h.same
  obtain ⟨r', b', x', hk⟩ := h'.same
  exact ⟨⟨r', b', x', by rw [hk, hn]⟩, h.within.trans h'.within⟩

theorem Mach.laneWork_setLn (m : Mach) (x : LnSt) : m.LaneWork { m with ln := x } := ⟨⟨_, _, _, rfl⟩, (Mach.Within.refl _ m).other rfl rfl⟩

theorem Mach.laneWork_laneErrs (m : Mach) (l : Fin 4) (e : Nat) : m.LaneWork (m.laneErrs l e) := by
  obtain ⟨⟨r, b, h⟩, hwithin, -⟩ := m.laneErrs_spec l e
  exact ⟨⟨r, b, m.ln, h⟩, hwithin.mono fun a ha => ⟨l, ha.2⟩⟩

theorem Mach.laneWork_each {α : Type} (m : Mach) (l : List α) (f : α → Mach → Mach) (hf : ∀ x (k : Mach), k.LaneWork (f x k)) :
    m.LaneWork (m.each l f) :=
  Mach.each_keeps (fun k => m.LaneWork k) l f (fun x k hk => hk.trans (hf x k)) m (Mach.LaneWork.refl m)

theorem Mach.laneWork_rxCross (m : Mach) (ws : List (Fin 4 × LaneWord)) : m.LaneWork (m.rxCross ws).2 :=
  (m.laneWork_each ws _ fun _ k => k.laneWork_setLn _).trans (Mach.laneWork_each _ ws _ fun _ k => k.laneWork_setLn _)

theorem Mach.LaneWork.clk (h : m.LaneWork n) : n.clk = m.clk := by
  obtain ⟨r, b, x, hn⟩ := h.same
  rw [hn]

end

theorem Mach.stWork_stLinkLost (m : Mach) : m.StWork m.stLinkLost := by
  by_cases hsess : m.sess = 2
  · exact (m.stLinkLost_spec hsess).2
  · unfold Mach.stLinkLost
    extract_lets x k y
    have hk : m.StWork k := (Mach.StWork.refl m).other rfl
    have hne : ¬ k.sess = 2 := hsess
    rw [if_neg hne]
    split
    · exact hk.put F.ST_STAT_SESS 0 (by decide)
    · exact hk

theorem not_stRegs_lnStat : ¬ stRegs F.LN_STAT_reg := by
  rintro (h | ⟨c, h⟩)
  · exact absurd h (by decide)
  · simp only [F.LN_STAT_reg, F.BC_CTX_RP_reg] at h
    omega

/-- A lost link is down (R780). -/
theorem Mach.linkUp_linkLost (m : Mach) (hrun : m.clk.running = true) : m.linkLost.linkUp = false := by
  by_cases hup : m.linkUp = true
  · rw [linkLost_eq m hup]
    obtain ⟨hclk, -, -⟩ := m.lossNoted_spec
    obtain ⟨hhush, -⟩ := m.lossNoted.lnLeave_stays
    obtain ⟨j, hj, hrest⟩ := m.lossNoted.lnLeave.lnRest_letsGo (by rw [hhush.clk, hclk, hrun])
    have hstate := ((m.lossNoted.lnLeave.lnRest).stWork_stLinkLost.get F.LN_STAT_STATE not_stRegs_lnStat).trans hrest.state
    rw [Mach.linkUp, hstate]
    exact decide_eq_false hj
  · have hdown : m.linkUp = false := by simpa using hup
    have hstate : (m.lnState != 7) = true := by simpa [Mach.linkUp, Mach.lnState] using hdown
    have hsame : m.linkLost = m := if_pos hstate
    rw [hsame, hdown]

/-- A slot of the link that is received changes the lanes only, or the link is lost (R769-R771). -/
theorem Mach.rxSlot_spec (m : Mach) (code : List LineCode) (slot : List LineWord) (hrun : m.clk.running = true) :
    m.LaneWork (m.rxSlot code slot).2 ∨ (m.rxSlot code slot).2.linkUp = false := by
  unfold Mach.rxSlot
  extract_lets rs k1
  have h1 : m.LaneWork k1 := m.laneWork_each rs _ fun r k => k.laneWork_laneErrs _ _
  have hcross := k1.laneWork_rxCross (rs.map (fun r => (r.1, r.2.1)))
  generalize k1.rxCross (rs.map (fun r => (r.1, r.2.1))) = p at *
  obtain ⟨ws, k2⟩ := p
  have h2 : m.LaneWork k2 := h1.trans hcross
  dsimp only
  split
  · split
    · exact Or.inl h2
    · exact Or.inr (k2.linkUp_linkLost (by rw [h2.clk, hrun]))
  · exact Or.inl (h2.trans (k2.laneWork_setLn _))

theorem Mach.rxSlots_spec (l : List (List LineWord)) (m : Mach) (code : List LineCode) (hrun : m.clk.running = true)
    (hup : (m.rxSlots code l).linkUp = true) : m.LaneWork (m.rxSlots code l) := by
  induction l generalizing m code with
  | nil => exact Mach.LaneWork.refl m
  | cons w t ih =>
    rw [Mach.rxSlots] at hup ⊢
    split at hup
    · next hlink =>
      rw [if_pos hlink]
      have hslot := m.rxSlot_spec code w hrun
      generalize m.rxSlot code w = p at *
      obtain ⟨c, k⟩ := p
      dsimp only at *
      rcases hslot with h | h
      · exact h.trans (ih k c (by rw [h.clk, hrun]) hup)
      · have hstop : k.rxSlots c t = k := by
          cases t with
          | nil => rfl
          | cons v t => rw [Mach.rxSlots, if_neg (by rw [h]; exact Bool.false_ne_true)]
        rw [hstop, h] at hup
        exact absurd hup Bool.false_ne_true
    · next hlink => exact absurd hup hlink

theorem Mach.rxUp_iff (m : Mach) : m.rxUp = true ↔ m.live = true ∧ m.linkUp = true ∧ m.stOn = true := by
  rw [Mach.rxUp, Bool.and_eq_true, Bool.and_eq_true, and_assoc]

theorem Mach.rxLines_down (m : Mach) (x : RxLines) (h : m.rxUp = false) : m.rxLines x = m := by
  rw [Mach.rxLines, h]
  rfl

/-- Once the words have come in over a link that stands, the lanes and the count alone are other than before (R764, R801). -/
theorem Mach.rxLines_spec (m : Mach) (x : RxLines) (hup : (m.rxLines x).rxUp = true) : ∃ b, (m.runTo b).LaneWork (m.rxLines x) := by
  have hm : m.rxUp = true := by
    cases h : m.rxUp
    · rw [m.rxLines_down x h, h] at hup
      exact hup
    · rfl
  have heq : m.rxLines x = Mach.rxSlots { m.runTo (m.ln.rxAt + 4 * x.slots.length) with
      ln := { (m.runTo (m.ln.rxAt + 4 * x.slots.length)).ln with rxAt := (m.runTo (m.ln.rxAt + 4 * x.slots.length)).now } } x.code x.slots := by
    rw [Mach.rxLines, hm]
    rfl
  rw [heq] at hup ⊢
  refine ⟨m.ln.rxAt + 4 * x.slots.length, ?_⟩
  have hclk := m.runTo_clk (m.ln.rxAt + 4 * x.slots.length)
  generalize m.runTo (m.ln.rxAt + 4 * x.slots.length) = k at *
  have hrun : k.clk.running = true := by
    rw [hclk]
    exact (m.live_iff.1 (m.rxUp_iff.1 hm).1).1
  exact (k.laneWork_setLn _).trans (Mach.rxSlots_spec x.slots _ x.code hrun (Mach.rxUp_iff _ |>.1 hup).2.1)

end Sys2Proof.Machine
end
section
/-!
Settles FramesReceived, second part: what the next frame of the link does to the sequence, and what is answered (R804, R805, R813-R816).
-/

namespace Sys2Proof.Machine

/-! ## Steps of ST -/

/-- `n` is `m` after work of ST's that keeps the count, the heads and every line of C7 but ST_CREDIT. -/
structure Mach.RxStep (p : Nat → Prop) (m n : Mach) : Prop where
  within : m.Within p n
  now : n.now = m.now
  heads : n.heads = m.heads
  rests : ∀ e, e ≠ 13 → m.Rests 7 e → n.Rests 7 e

section
variable {p : Nat → Prop} {m n : Mach}

theorem Mach.RxStep.refl (p : Nat → Prop) (m : Mach) : m.RxStep p m := ⟨Mach.Within.refl p m, rfl, rfl, fun _ _ h => h⟩

theorem Mach.RxStep.trans {k : Mach} (h : m.RxStep p n) (h' : n.RxStep p k) : m.RxStep p k :=
  ⟨h.within.trans h'.within, h'.now.trans h.now, h'.heads.trans h.heads, fun e he hm => h'.rests e he (h.rests e he hm)⟩

theorem Mach.RxStep.mono {q : Nat → Prop} (h : m.RxStep p n) (hpq : ∀ a, p a → q a) : m.RxStep q n :=
  ⟨h.within.mono hpq, h.now, h.heads, h.rests⟩

theorem Mach.rxStep_other (p : Nat → Prop) (m : Mach) (x : StSt) (l : LnSt) (c : Nat) : m.RxStep p { m with st := x, ln := l, freeCtr := c } :=
  ⟨(Mach.Within.refl p m).other rfl rfl, rfl, rfl, fun _ _ h =>
    (show m.SameLines { m with st := x, ln := l, freeCtr := c } 7 from ⟨rfl, rfl, rfl, rfl, rfl, rfl⟩).rests h⟩

theorem Mach.RxStep.put (h : m.RxStep p n) (f : Fld) (v : Nat) (hp : p f.addr) (hf : f.addr < 0x400000) : m.RxStep p (n.put f v) :=
  h.trans ⟨(Mach.Within.refl p n).put f v hp, n.now_put f v, n.put_heads f v, fun _ _ => (n.sameLines_put f v 7 hf).rests⟩

theorem Mach.rxStep_stSync (m : Mach) : m.RxStep (eventRegs 7) m.stSync := by
  have hnoted := m.stSync_noted
  obtain ⟨x, -, h | h⟩ := m.stSync_eq
  · rw [h]
    exact m.rxStep_other _ x m.ln m.freeCtr
  · refine ⟨hnoted.within, hnoted.now, ?_, fun e he hm => ?_⟩
    · obtain ⟨r, y, b, hpulse⟩ := Mach.pulse_changes { m with st := x } 7 13
      rw [h, hpulse]
    · rw [h]
      exact ((m.rxStep_other (fun _ => True) x m.ln m.freeCtr).rests e he hm).pulse_other (Or.inr he.symm)

end

/-! ## Plain frames -/

/-- An unsequenced frame sent now. -/
def Mach.plain (m : Mach) (ty a b : Nat) (payload : List Byte) : Frame :=
  { ty := ty, flags := 0, seq := 0, ack := m.ackSeq, a := a, b := b, payload := payload }

theorem Mach.handOver_rxIn (m : Mach) (f : List Byte) : (m.handOver f).ln.rxIn = m.ln.rxIn := by
  unfold Mach.handOver
  extract_lets ln n fresh
  split
  · next b t hb =>
    extract_lets e
    split
    · dsimp only
      split <;> rfl
    · rfl
  · rfl

/-- What a plain frame changes: the link stream. -/
theorem Mach.txPlain_changes (m : Mach) (ty a b : Nat) (payload : List Byte) : ∃ l c, l.rxIn = m.ln.rxIn ∧ m.txPlain ty a b payload =
    { m with st := { m.st with tx := (m.plain ty a b payload :: m.st.tx).take 16 }, ln := l, freeCtr := c } := by
  have hin := Mach.handOver_rxIn { m with st := { m.st with tx := (m.plain ty a b payload :: m.st.tx).take 16 } } (m.plain ty a b payload).bytes
  obtain ⟨l, c, h⟩ := Mach.handOver_changes { m with st := { m.st with tx := (m.plain ty a b payload :: m.st.tx).take 16 } } (m.plain ty a b payload).bytes
  rw [h] at hin
  exact ⟨l, c, hin, h⟩

/-- What a NAK changes: the link stream, and since when it has been sent (R815; log entry 38). -/
theorem Mach.txNak_changes (m : Mach) (hsess : m.sess = 2) (hnak : m.st.nakAt = none) : ∃ l c, l.rxIn = m.ln.rxIn ∧ m.txNak =
    { m with st := { m.st with tx := (m.plain 0x30 1 0 [] :: m.st.tx).take 16, nakAt := some m.now }, ln := l, freeCtr := c } := by
  obtain ⟨l, c, hin, h⟩ := m.txPlain_changes 0x30 1 0 []
  have heq : m.txNak = { m.txPlain 0x30 1 0 [] with st := { (m.txPlain 0x30 1 0 []).st with nakAt := some (m.txPlain 0x30 1 0 []).now } } := by
    rw [Mach.txNak, hsess, hnak]
    rfl
  refine ⟨l, c, hin, ?_⟩
  rw [heq, h]
  rfl

/-- ST has answered `m` with LINK (R815, R816): 1 for a NAK, 0 for an acknowledgement. -/
structure Mach.Links (nak : Nat) (m n : Mach) : Prop where
  head : ∃ g, n.st.tx.head? = some g ∧ g.ty = 0x30 ∧ g.a = nak
  st : ∃ l x, n.st = { m.st with tx := l, nakAt := x }
  step : ∀ p, m.RxStep p n
  rxIn : n.ln.rxIn = m.ln.rxIn

theorem Mach.txAck_links (m : Mach) : m.Links 0 m.txAck := by
  obtain ⟨l, c, hin, h⟩ := m.txPlain_changes 0x30 0 0 []
  rw [Mach.txAck, h]
  exact ⟨⟨_, rfl, rfl, rfl⟩, ⟨_, _, rfl⟩, fun p => m.rxStep_other p _ l c, hin⟩

theorem Mach.txNak_links (m : Mach) (hsess : m.sess = 2) (hnak : m.st.nakAt = none) : m.Links 1 m.txNak := by
  obtain ⟨l, c, hin, h⟩ := m.txNak_changes hsess hnak
  rw [h]
  exact ⟨⟨_, rfl, rfl, rfl⟩, ⟨_, _, rfl⟩, fun p => m.rxStep_other p _ l c, hin⟩

/-! ## The next frame of the link -/

theorem take_two_eq {raw l : List Byte} (hraw : l.take raw.length = raw) (hlen : 4 ≤ raw.length) : (l.drop 2).take 2 = (raw.drop 2).take 2 := by
  obtain ⟨t, ht⟩ : ∃ t, l = raw ++ t := ⟨l.drop raw.length, by
    conv_lhs => rw [← List.take_append_drop raw.length l, hraw]⟩
  rw [ht, List.drop_append_of_le_length (by omega), List.take_append_of_le_length (by rw [List.length_drop]; omega)]

/-- A frame that is read is as long as its LEN says (R803, R804). -/
theorem parseFrame_size {raw : List Byte} (h : parseFrame raw ≠ .framing) :
    20 ≤ raw.length ∧ raw.length = 20 + lenP (leNat ((raw.drop 2).take 2)) := by
  have hn : ((raw.take 16).drop 2).take 2 = (raw.drop 2).take 2 := by
    rw [List.drop_take, List.take_take]
    rfl
  unfold parseFrame at h
  extract_lets hd n at h
  split at h
  · exact absurd rfl h
  · next hok =>
    simp only [Bool.or_eq_true, decide_eq_true_eq, bne_iff_ne, not_or, not_lt, ne_eq, not_not] at hok
    obtain ⟨⟨⟨hshort, -⟩, -⟩, hlen⟩ := hok
    refine ⟨hshort, ?_⟩
    rw [← hn]
    exact hlen

/-- What the reader makes of a whole frame at the front of the stream (R804, R805). -/
def Mach.rxParsed (m : Mach) (ty n : Nat) (b : RxBurst) (t : List RxBurst) (size : Nat) : RxParse → Option Frame × Mach
  | .framing => ((m.dropBurst b t).rxBad true).rxNext ty n
  | .badCrc => ((m.cutBurst b t size).rxBad false).rxNext ty n
  | .good f pad =>
    if f.ty = ty then (m.cutBurst b t size).rxFrame f pad
    else if hostTypes.contains f.ty then (none, m)
    else ((m.cutBurst b t size).rxFrame f pad).2.rxNext ty n

theorem Mach.rxNext_parsed (m : Mach) (ty n : Nat) {b : RxBurst} {t : List RxBurst} {raw : List Byte} (hin : m.ln.rxIn = b :: t)
    (hraw : b.bytes.take raw.length = raw) (hparse : parseFrame raw ≠ .framing) :
    m.rxNext ty (n + 1) = m.rxParsed ty n b t raw.length (parseFrame raw) := by
  obtain ⟨h20, hsize⟩ := parseFrame_size hparse
  have htwo := take_two_eq hraw (by omega)
  have hle : raw.length ≤ b.bytes.length := by
    have hlen := congrArg List.length hraw
    rw [List.length_take] at hlen
    omega
  have hempty : ¬ ((b.bytes = [] && !b.broken : Bool) = true) := by
    have hne : b.bytes ≠ [] := fun he => by rw [he, List.length_nil] at hle; omega
    simp [hne]
  have hwhole : (20 ≤ b.bytes.length && (4116 < raw.length || raw.length ≤ b.bytes.length) : Bool) = true := by
    simp
    omega
  rw [Mach.rxNext, hin]
  dsimp only
  rw [if_neg hempty, htwo, ← hsize, hwhole, if_neg (by decide), hraw]
  rfl

/-- A burst with nothing left is taken off the stream. -/
theorem Mach.rxNext_empty (m : Mach) (ty n : Nat) {b : RxBurst} (hin : m.ln.rxIn = [b]) (hbytes : b.bytes = []) (hbroken : b.broken = false)
    (hended : b.ended = true) : m.rxNext ty (n + 2) = (none, { m with ln := { m.ln with rxIn := [] } }) := by
  have hempty : (b.bytes = [] && !b.broken : Bool) = true := by rw [hbytes, hbroken]; rfl
  rw [Mach.rxNext, hin]
  dsimp only
  rw [if_pos hempty, if_pos hended, Mach.rxNext]

theorem Mach.rxNext_none (m : Mach) (ty n : Nat) (hin : m.ln.rxIn = []) : m.rxNext ty n = (none, m) := by
  cases n with
  | zero => rfl
  | succ n => rw [Mach.rxNext, hin]

/-- A burst that is no frame is a framing loss (R804). -/
theorem Mach.rxNext_framing (m : Mach) (ty n : Nat) {b : RxBurst} (hin : m.ln.rxIn = [b]) (hne : b.bytes ≠ []) (hended : b.ended = true)
    (hparse : parseFrame (b.bytes.take (20 + lenP (leNat ((b.bytes.drop 2).take 2)))) = .framing) :
    m.rxNext ty (n + 1) = ((m.dropBurst b []).rxBad true).rxNext ty n := by
  have hempty : ¬ ((b.bytes = [] && !b.broken : Bool) = true) := by simp [hne]
  rw [Mach.rxNext, hin]
  dsimp only
  rw [if_neg hempty, hparse, if_pos hended]
  split <;> rfl

/-! ## A frame in its order -/

theorem Mach.stSync_st (m : Mach) : m.stSync.sess = m.sess ∧ m.stSync.st.rxSeq = m.st.rxSeq ∧ m.stSync.st.nakAt = m.st.nakAt := by
  have hnoted := m.stSync_noted
  obtain ⟨a, b, c, d, hst⟩ := hnoted.st
  refine ⟨hnoted.sameTx.sess, hnoted.sameTx.rx, ?_⟩
  rw [hst]

/-- The number of the next frame moves on (R814). -/
def Mach.seqTaken (m : Mach) : Mach := { m with st := { m.st with rxSeq := (m.st.rxSeq + 1) % 65536, nakAt := none } }

/-- What ST makes of a frame once its acknowledgement has been taken (R805, R814, R815). -/
def Mach.rxOrdered (m : Mach) (f : Frame) (bad : Bool) : Option Frame × Mach :=
  if 0x11 ≤ f.ty && f.ty ≤ 0x14 then
    if m.sess != 2 then (none, m)
    else
      let d := seqDist f.seq m.st.rxSeq
      if d = 0 then
        if bad then (none, m.seqTaken.txAck.protErr) else (some f, m.seqTaken.txAck)
      else if d ≤ 32768 then (none, m.txAck)
      else (none, m.txNak)
  else if bad then (none, m.protErr)
  else (some f, m)

theorem Mach.rxFrame_eq (m : Mach) (f : Frame) (pad : Bool) :
    m.rxFrame f pad = Mach.rxOrdered (if m.sess = 2 && !f.broken pad then (m.takeAck f.ack).stSync else m) f (f.broken pad) := rfl

theorem Mach.rxFrame_good {m : Mach} {f : Frame} {pad : Bool} (hsess : m.sess = 2) (hgood : f.broken pad = false) :
    m.rxFrame f pad = (m.takeAck f.ack).stSync.rxOrdered f false := by
  rw [m.rxFrame_eq, hgood, hsess, if_pos (by decide)]

theorem Mach.rxFrame_bad {m : Mach} {f : Frame} {pad : Bool} (hbad : f.broken pad = true) : m.rxFrame f pad = m.rxOrdered f true := by
  rw [m.rxFrame_eq, hbad, if_neg (by simp)]

section
variable {m : Mach} {f : Frame}

theorem Mach.rxOrdered_other {bad : Bool} (hty : f.ty < 0x11 ∨ 0x14 < f.ty) : m.rxOrdered f bad = if bad then (none, m.protErr) else (some f, m) := by
  have hno : ¬ ((decide (0x11 ≤ f.ty) && decide (f.ty ≤ 0x14)) = true) := by
    simp
    omega
  rw [Mach.rxOrdered, if_neg hno]

theorem Mach.rxOrdered_seq (hsess : m.sess = 2) (hlo : 0x11 ≤ f.ty) (hhi : f.ty ≤ 0x14) : m.rxOrdered f false =
    if seqDist f.seq m.st.rxSeq = 0 then (some f, m.seqTaken.txAck)
    else if seqDist f.seq m.st.rxSeq ≤ 32768 then (none, m.txAck) else (none, m.txNak) := by
  have hyes : (decide (0x11 ≤ f.ty) && decide (f.ty ≤ 0x14)) = true := by simp [hlo, hhi]
  rw [Mach.rxOrdered, if_pos hyes, hsess, if_neg (by decide)]
  dsimp only
  rw [if_neg Bool.false_ne_true]

variable {pad : Bool} (hsess : m.sess = 2) (hgood : f.broken pad = false) (hack : m.takeAck f.ack = m) (hlo : 0x11 ≤ f.ty) (hhi : f.ty ≤ 0x14)
include hsess hgood hack hlo hhi

theorem Mach.rxFrame_seq : m.rxFrame f pad =
    if seqDist f.seq m.st.rxSeq = 0 then (some f, m.stSync.seqTaken.txAck)
    else if seqDist f.seq m.st.rxSeq ≤ 32768 then (none, m.stSync.txAck) else (none, m.stSync.txNak) := by
  obtain ⟨hs, hr, -⟩ := m.stSync_st
  rw [Mach.rxFrame_good hsess hgood, hack, Mach.rxOrdered_seq (hs.trans hsess) hlo hhi, hr]

end

/-- `n` frames of the replay buffer are acknowledged (R813, R817). -/
def Mach.ackTaken (m : Mach) (n : Nat) : Mach :=
  let m := m.setHeld (m.st.held.drop n)
  { m with st := { m.st with rounds := 0, ackAt := m.now, replay := m.st.replay && !m.st.held.isEmpty } }

theorem Mach.takeAck_cons {m : Mach} {h : StHeld} {t : List StHeld} (hheld : m.st.held = h :: t) (a : Nat) :
    m.takeAck a = if seqDist h.f.seq a = 0 || m.st.held.length < seqDist h.f.seq a then m else m.ackTaken (seqDist h.f.seq a) := by
  rw [Mach.takeAck, hheld]
  dsimp only
  rw [Mach.ackTaken, hheld]

theorem Mach.ackTaken_spec (m : Mach) (n : Nat) : (m.ackTaken n).st.held = m.st.held.drop n ∧ (m.ackTaken n).st.rounds = 0 ∧
    (m.ackTaken n).st.ackAt = m.now ∧ m.Within sendRegs (m.ackTaken n) ∧ (m.ackTaken n).sess = m.sess ∧ (m.ackTaken n).now = m.now := by
  unfold Mach.ackTaken
  have hst := m.setHeld_st (m.st.held.drop n)
  have hwithin := m.setHeld_within (m.st.held.drop n)
  have hnow := m.setHeld_now (m.st.held.drop n)
  have hsess : (m.setHeld (m.st.held.drop n)).sess = m.sess := hwithin.get F.ST_STAT_SESS (by simp only [sendRegs]; decide)
  generalize m.setHeld (m.st.held.drop n) = k at *
  refine ⟨?_, rfl, hnow, hwithin.other rfl rfl, hsess, hnow⟩
  show k.st.held = _
  rw [hst]

/-- An acknowledgement that takes nothing does so wherever the replay buffer is the same (R813). -/
theorem Mach.takeAck_id {m n : Mach} {a : Nat} (hst : n.st.held = m.st.held) (h : m.takeAck a = m) : n.takeAck a = n := by
  cases hheld : m.st.held with
  | nil => rw [Mach.takeAck, hst, hheld]
  | cons x l =>
    rw [Mach.takeAck_cons hheld] at h
    rw [Mach.takeAck_cons (hst.trans hheld), hst]
    split
    · rfl
    · next hfar =>
      rw [if_neg hfar] at h
      simp only [Bool.or_eq_true, decide_eq_true_eq, not_or, not_lt] at hfar
      have hlen : (m.st.held.drop (seqDist x.f.seq a)).length = m.st.held.length := by
        rw [← (m.ackTaken_spec (seqDist x.f.seq a)).1, h]
      rw [List.length_drop] at hlen
      omega

end Sys2Proof.Machine
end
section
/-!
Settles FramesReceived, third part: the receive rows with bad frames, frames of another type and frames out of order (R804, R805,
R814, R815).
-/

namespace Sys2Proof.Machine

/-! ## The receive rows -/

/-- What a row does with the frame that it is given. -/
def Mach.rxDone (F : Mach → Frame → Mach) : Option Frame × Mach → Mach
  | (some f, m) => (F m f).stSync
  | (none, m) => m

/-- Frames that the reader looks at, at most. -/
def Mach.rxFuel (m : Mach) : Nat := m.ln.rxIn.foldl (fun n b => n + b.bytes.length + 2) 1

/-- The machine once a row for frames of type `ty` has read the stream. -/
def Mach.received (ty : Nat) (F : Mach → Frame → Mach) (m : Mach) : Mach :=
  if !m.rxUp then m else Mach.rxDone F (m.rxNext ty m.rxFuel)

/-- The rows that receive, with the type of the frames that each acts on (R806). -/
noncomputable def rxRows (lines : RxLines) : List (Instr × Nat) :=
  [(.rxOpen lines, 0x39), (.rxClose lines, 0x3C), (.rxMsg lines, 0x11), (.rxWr lines, 0x12),
    (.rxRd lines, 0x13), (.rxCpl lines, 0x14), (.rxLink lines, 0x30), (.rxCredit lines, 0x31)]

section
variable {s : State} {lines : RxLines} (hlive : s.m.live = true)

include hlive in
theorem State.receive_eq (ty : Nat) (F : Mach → Frame → Mach) :
    s.receive ty lines F = .next { s with m := (s.m.rxLines lines).received ty F } := by
  refine (s.run_ifLive _ hlive).trans (congrArg (fun n => Host.Outcome.next ({ s with m := n } : State)) ?_)
  dsimp only
  generalize s.m.rxLines lines = r
  unfold Mach.received
  split
  · rfl
  · unfold Mach.rxFuel
    generalize r.rxNext ty _ = o
    obtain ⟨f, k⟩ := o
    cases f <;> rfl

/-- Every row of the list receives frames of its type. -/
theorem exec_rxRows (s : State) : ∀ i ∈ rxRows lines, ∃ F, exec i.1 s = s.receive i.2 lines F := by
  intro i hi
  simp only [rxRows, List.mem_cons, List.not_mem_nil, or_false] at hi
  rcases hi with rfl | rfl | rfl | rfl | rfl | rfl | rfl | rfl
  iterate 8 exact ⟨_, rfl⟩

include hlive in
theorem exec_rxRow {i : Instr × Nat} (hi : i ∈ rxRows lines) : ∃ F, exec i.1 s = .next { s with m := (s.m.rxLines lines).received i.2 F } := by
  obtain ⟨F, h⟩ := exec_rxRows s i hi
  exact ⟨F, h.trans (State.receive_eq hlive i.2 F)⟩

include hlive in
/-- While ST does not run, or over a link that is down, nothing is received (R801). -/
theorem exec_rxRow_down (hup : s.m.rxUp = false) {i : Instr × Nat} (hi : i ∈ rxRows lines) : exec i.1 s = .next s := by
  obtain ⟨F, h⟩ := exec_rxRow hlive hi
  rw [h, s.m.rxLines_down lines hup, Mach.received, hup]
  rfl

theorem Mach.received_up {m : Mach} (hup : m.rxUp = true) (ty : Nat) (F : Mach → Frame → Mach) :
    m.received ty F = Mach.rxDone F (m.rxNext ty m.rxFuel) := by
  rw [Mach.received, hup]
  rfl

theorem Mach.LaneWork.rxStep {m n : Mach} (h : m.LaneWork n) : m.RxStep laneRegs n ∧ n.st = m.st := by
  obtain ⟨r, b, x, hn⟩ := h.same
  have hout : ∀ a, 0x400000 ≤ a → n.reg a = m.reg a := fun a ha => h.within.1 a fun ⟨l, hl⟩ => by
    rcases hl with hl | hl
    · simp only [F.LNL_STAT_reg] at hl
      omega
    · simp only [F.LNL_ERR_reg] at hl
      omega
  have hlines : m.SameLines n 7 := by
    refine ⟨?_, ?_, hout _ (by decide), hout _ (by decide), ?_, ?_⟩ <;> rw [hn] <;> rfl
  refine ⟨⟨h.within, ?_, ?_, fun _ _ => hlines.rests⟩, ?_⟩
  · rw [hn]
    rfl
  · rw [hn]
  · rw [hn]

/-- What the row starts from: the words have come in, and ST stands as before. -/
theorem rxLines_step (m : Mach) (x : RxLines) (hup : (m.rxLines x).rxUp = true) :
    ∃ b, (m.runTo b).RxStep laneRegs (m.rxLines x) ∧ (m.rxLines x).st = m.st := by
  obtain ⟨b, h⟩ := m.rxLines_spec x hup
  obtain ⟨hstep, hst⟩ := h.rxStep
  exact ⟨b, hstep, hst.trans (m.runTo_st b)⟩

/-- The words that have come in show in the lanes' registers and in the lanes only (R764). -/
theorem rxLines_only (hup : (s.m.rxLines lines).rxUp = true) : SameRegs laneRegs s { s with m := s.m.rxLines lines } ∧
    (s.m.rxLines lines).st = s.m.st ∧ s.m.rxLines lines = { s.m.regsFrom (s.m.rxLines lines) with ln := (s.m.rxLines lines).ln } := by
  obtain ⟨b, h⟩ := s.m.rxLines_spec lines hup
  obtain ⟨⟨hwithin, -⟩, hst⟩ := h.rxStep
  obtain ⟨r, c, x, hn⟩ := h.same
  obtain ⟨y, w, hrun⟩ := s.m.runTo_changes b
  refine ⟨((s.m.within_runTo laneRegs b).trans hwithin).sameRegs, hst.trans (s.m.runTo_st b), ?_⟩
  rw [hn, hrun]
  rfl

end

/-! ## Bad frames -/

theorem Mach.rxParsed_badCrc (m : Mach) (ty n : Nat) (b : RxBurst) (t : List RxBurst) (size : Nat) :
    m.rxParsed ty n b t size .badCrc = ((m.cutBurst b t size).rxBad false).rxNext ty n := rfl

/-- What a burst that is no frame does: it is counted, and answered with a NAK (R804, R815). -/
structure Mach.BadSeen (p : Nat → Prop) (m n : Mach) : Prop where
  link : ∃ g, n.st.tx.head? = some g ∧ g.ty = 0x30 ∧ g.a = 1
  rxSeq : n.st.rxSeq = m.st.rxSeq
  step : m.RxStep p n
  rxIn : n.ln.rxIn = m.ln.rxIn

/-- The registers that a failed FCRC counts in (R804; class 13 of R44). -/
def crcRegs (a : Nat) : Prop := a = F.ST_ERRS_reg ∨ a = F.SHR_C13_reg

theorem Mach.countMod_get (m : Mach) (f : Fld) (hf : f.lo ≤ f.hi ∧ f.hi < 32) : (m.countMod f 1).get f = (m.get f + 1) % 2 ^ (f.hi + 1 - f.lo) :=
  m.get_put_self f _ hf.1 hf.2

/-- The machine once a bad burst has been counted. -/
def Mach.badCounted (m : Mach) (framing : Bool) : Mach :=
  if framing then m.countHold F.ST_ERRS_LOSSES 1 else (m.countHold F.ST_ERRS_FCRC 1).countMod F.SHR_C13_N 1

theorem Mach.rxBad_eq (m : Mach) (framing : Bool) : m.rxBad framing = (m.badCounted framing).txNak := rfl

theorem Mach.badCounted_crc (m : Mach) : m.RxStep crcRegs (m.badCounted false) ∧ (m.badCounted false).st = m.st ∧ (m.badCounted false).ln = m.ln ∧
    (m.badCounted false).get F.SHR_C13_N = (m.get F.SHR_C13_N + 1) % 2 ^ 32 ∧
    (m.get F.ST_ERRS_FCRC < 0xFFFF → (m.badCounted false).get F.ST_ERRS_FCRC = m.get F.ST_ERRS_FCRC + 1) := by
  have hstep : m.RxStep crcRegs (m.countHold F.ST_ERRS_FCRC 1) := (Mach.RxStep.refl _ m).put F.ST_ERRS_FCRC _ (Or.inl rfl) (by decide)
  have hst : (m.countHold F.ST_ERRS_FCRC 1).st = m.st := m.put_st _ _
  have hln : (m.countHold F.ST_ERRS_FCRC 1).ln = m.ln := m.put_ln _ _
  have hc13 : (m.countHold F.ST_ERRS_FCRC 1).get F.SHR_C13_N = m.get F.SHR_C13_N := m.countHold_get_ne F.ST_ERRS_FCRC 1 F.SHR_C13_N (by decide)
  have hcount : m.get F.ST_ERRS_FCRC < 0xFFFF → (m.countHold F.ST_ERRS_FCRC 1).get F.ST_ERRS_FCRC = m.get F.ST_ERRS_FCRC + 1 := fun h =>
    m.countHold_get F.ST_ERRS_FCRC (by decide) (Nat.succ_lt_succ h)
  have heq : m.badCounted false = (m.countHold F.ST_ERRS_FCRC 1).countMod F.SHR_C13_N 1 := if_neg Bool.false_ne_true
  rw [heq]
  generalize m.countHold F.ST_ERRS_FCRC 1 = k at *
  refine ⟨hstep.put F.SHR_C13_N _ (Or.inr rfl) (by decide), (k.put_st _ _).trans hst, (k.put_ln _ _).trans hln, ?_, fun h => ?_⟩
  · rw [← hc13]
    exact k.countMod_get F.SHR_C13_N (by decide)
  · exact (k.get_put_ne F.SHR_C13_N F.ST_ERRS_FCRC _ (by decide)).trans (hcount h)

theorem Mach.badCounted_framing (m : Mach) : m.RxStep (· = F.ST_ERRS_reg) (m.badCounted true) ∧ (m.badCounted true).st = m.st ∧
    (m.badCounted true).ln = m.ln ∧
    (m.get F.ST_ERRS_LOSSES < 0xFFFF → (m.badCounted true).get F.ST_ERRS_LOSSES = m.get F.ST_ERRS_LOSSES + 1) := by
  have heq : m.badCounted true = m.countHold F.ST_ERRS_LOSSES 1 := if_pos rfl
  rw [heq]
  exact ⟨(Mach.RxStep.refl _ m).put F.ST_ERRS_LOSSES _ rfl (by decide), m.put_st F.ST_ERRS_LOSSES _, m.put_ln F.ST_ERRS_LOSSES _,
    fun h => m.countHold_get F.ST_ERRS_LOSSES (by decide) (Nat.succ_lt_succ h)⟩

theorem Mach.Links.get {nak : Nat} {m n : Mach} (h : m.Links nak n) (f : Fld) : n.get f = m.get f := (h.step (fun _ => False)).within.get f fun hf => hf

theorem Mach.Links.rxSeq {nak : Nat} {m n : Mach} (h : m.Links nak n) : n.st.rxSeq = m.st.rxSeq := by
  obtain ⟨l, x, hst⟩ := h.st
  rw [hst]

/-- A burst's bytes that have been counted as bad are answered with a NAK. -/
theorem Mach.badSeen {p : Nat → Prop} {m k : Mach} (hsess : m.sess = 2) (hnak : m.st.nakAt = none) (hstep : m.RxStep p k) (hst : k.st = m.st)
    (hln : k.ln = m.ln) (hp : ¬ p F.ST_STAT_reg) : m.BadSeen p k.txNak ∧ ∀ f, k.txNak.get f = k.get f := by
  have hlink := k.txNak_links ((hstep.within.get F.ST_STAT_SESS hp).trans hsess) (by rw [hst]; exact hnak)
  refine ⟨⟨hlink.head, ?_, hstep.trans (hlink.step p), ?_⟩, hlink.get⟩
  · rw [hlink.rxSeq, hst]
  · rw [hlink.rxIn, hln]

/-- The stream is empty once its one burst has been dealt with. -/
def Mach.rxEmptied (m : Mach) : Mach := { m with ln := { m.ln with rxIn := [] } }

section
variable {s : State} {lines : RxLines} {raw : List Byte} (hlive : s.m.live = true) (hup : (s.m.rxLines lines).rxUp = true)
  (hin : (s.m.rxLines lines).ln.rxIn = [{ bytes := raw, ended := true }])

theorem Mach.rxFuel_one {m : Mach} {b : RxBurst} (h : m.ln.rxIn = [b]) : m.rxFuel = b.bytes.length + 3 := by
  rw [Mach.rxFuel, h]
  show 1 + b.bytes.length + 2 = _
  omega

theorem Mach.Within.trans_get {p : Nat → Prop} {m n k : Mach} (h : m.Within p n) (h' : n.Within p k) (f : Fld) (hf : ¬ p f.addr) : k.get f = m.get f :=
  (h.trans h').get f hf

theorem not_laneRegs {a : Nat} (ha : a < 0x300100 ∨ 0x300200 ≤ a) : ¬ laneRegs a := by
  rintro ⟨l, h | h⟩
  · simp only [F.LNL_STAT_reg] at h
    omega
  · simp only [F.LNL_ERR_reg] at h
    omega

include hlive hup hin in
theorem does_rxRow_badCrc (hsess : s.m.sess = 2) (hnak : s.m.st.nakAt = none) (hparse : parseFrame raw = .badCrc) {i : Instr × Nat}
    (hi : i ∈ rxRows lines) : Does i.1 s (fun t =>
      (∃ g, t.m.st.tx.head? = some g ∧ g.ty = 0x30 ∧ g.a = 1) ∧ t.m.st.rxSeq = s.m.st.rxSeq ∧ t.m.ln.rxIn = [] ∧
      t.m.get F.SHR_C13_N = (s.m.get F.SHR_C13_N + 1) % 2 ^ 32 ∧
      (s.m.get F.ST_ERRS_FCRC < 0xFFFF → t.m.get F.ST_ERRS_FCRC = s.m.get F.ST_ERRS_FCRC + 1) ∧
      SameRegs (fun a => a = F.ST_ERRS_reg ∨ a = F.SHR_C13_reg ∨ laneRegs a) s t ∧ Keeps s t) := by
  obtain ⟨F', hexec⟩ := exec_rxRow hlive hi
  obtain ⟨b, hstep, hst⟩ := rxLines_step s.m lines hup
  have hrun := s.m.within_runTo laneRegs b
  have hget : ∀ f : Fld, ¬ laneRegs f.addr → (s.m.rxLines lines).get f = s.m.get f := hrun.trans_get hstep.within
  rw [Mach.received_up hup, Mach.rxFuel_one hin] at hexec
  generalize s.m.rxLines lines = r at *
  obtain ⟨c, hc⟩ : ∃ c, c = r.cutBurst { bytes := raw, ended := true } [] raw.length := ⟨_, rfl⟩
  have hcst : c.st = r.st := by rw [hc]; rfl
  have hcget : ∀ f, c.get f = r.get f := by rw [hc]; exact fun _ => rfl
  have hcin : c.ln.rxIn = [{ bytes := raw.drop raw.length, ended := true }] := by rw [hc]; rfl
  have hcstep : r.RxStep laneRegs c := by rw [hc]; exact r.rxStep_other laneRegs r.st _ r.freeCtr
  obtain ⟨hbadStep, hbadSt, hbadLn, hc13, hfcrc⟩ := c.badCounted_crc
  have hcsess : c.sess = 2 := (hcget F.ST_STAT_SESS).trans ((hget F.ST_STAT_SESS (not_laneRegs (by decide))).trans hsess)
  obtain ⟨hbad, hbadGet⟩ := Mach.badSeen hcsess (by rw [hcst, hst]; exact hnak) hbadStep hbadSt hbadLn (by simp only [crcRegs]; decide)
  have hnext : r.rxNext i.2 (raw.length + 3) = (none, ((c.badCounted false).txNak).rxEmptied) := by
    rw [r.rxNext_parsed i.2 (raw.length + 2) hin (List.take_length ..) (by rw [hparse]; decide), hparse,
      Mach.rxParsed_badCrc, ← hc, Mach.rxBad_eq]
    exact Mach.rxNext_empty _ _ _ (hbad.rxIn.trans hcin) (List.drop_length ..) rfl rfl
  rw [hnext] at hexec
  generalize (c.badCounted false).txNak = k at *
  have hk : k.RxStep laneRegs k.rxEmptied := k.rxStep_other laneRegs k.st _ k.freeCtr
  have hempty : k.rxEmptied.st = k.st ∧ k.rxEmptied.ln.rxIn = [] ∧ ∀ f, k.rxEmptied.get f = k.get f := ⟨rfl, rfl, fun _ => rfl⟩
  obtain ⟨hest, hein, heget⟩ := hempty
  rw [Mach.rxDone] at hexec
  generalize k.rxEmptied = e at *
  have hall : (s.m.runTo b).RxStep (fun a => a = F.ST_ERRS_reg ∨ a = F.SHR_C13_reg ∨ laneRegs a) e :=
    (((hstep.trans hcstep).mono fun _ ha => Or.inr (Or.inr ha)).trans (hbad.step.mono fun a ha => ha.elim Or.inl fun h => Or.inr (Or.inl h))).trans
      (hk.mono fun _ ha => Or.inr (Or.inr ha))
  have htotal := (s.m.within_runTo _ b).trans hall.within
  have hfrom : ∀ f : Fld, ¬ laneRegs f.addr → c.get f = s.m.get f := fun f hf => (hcget f).trans (hget f hf)
  refine ⟨_, hexec, ?_, ?_, hein, ?_, fun h => ?_, htotal.sameRegs, htotal.keeps⟩
  · rw [hest]
    exact hbad.link
  · rw [hest, hbad.rxSeq, hcst, hst]
  · rw [← hfrom F.SHR_C13_N (not_laneRegs (by decide))]
    exact ((heget _).trans (hbadGet F.SHR_C13_N)).trans hc13
  · rw [← hfrom F.ST_ERRS_FCRC (not_laneRegs (by decide))] at h ⊢
    exact ((heget _).trans (hbadGet F.ST_ERRS_FCRC)).trans (hfcrc h)

include hlive hup hin in
theorem does_rxRow_framing (hsess : s.m.sess = 2) (hnak : s.m.st.nakAt = none) (hne : raw ≠ [])
    (hparse : parseFrame (raw.take (20 + lenP (leNat ((raw.drop 2).take 2)))) = .framing) {i : Instr × Nat} (hi : i ∈ rxRows lines) :
    Does i.1 s (fun t =>
      (∃ g, t.m.st.tx.head? = some g ∧ g.ty = 0x30 ∧ g.a = 1) ∧ t.m.st.rxSeq = s.m.st.rxSeq ∧ t.m.ln.rxIn = [] ∧
      (s.m.get F.ST_ERRS_LOSSES < 0xFFFF → t.m.get F.ST_ERRS_LOSSES = s.m.get F.ST_ERRS_LOSSES + 1) ∧
      SameRegs (fun a => a = F.ST_ERRS_reg ∨ laneRegs a) s t ∧ Keeps s t) := by
  obtain ⟨F', hexec⟩ := exec_rxRow hlive hi
  obtain ⟨b, hstep, hst⟩ := rxLines_step s.m lines hup
  have hrun := s.m.within_runTo laneRegs b
  have hget : ∀ f : Fld, ¬ laneRegs f.addr → (s.m.rxLines lines).get f = s.m.get f := hrun.trans_get hstep.within
  rw [Mach.received_up hup, Mach.rxFuel_one hin] at hexec
  generalize s.m.rxLines lines = r at *
  obtain ⟨c, hc⟩ : ∃ c, c = r.dropBurst { bytes := raw, ended := true } [] := ⟨_, rfl⟩
  have hcst : c.st = r.st := by rw [hc]; rfl
  have hcget : ∀ f, c.get f = r.get f := by rw [hc]; exact fun _ => rfl
  have hcin : c.ln.rxIn = [] := by rw [hc]; rfl
  have hcstep : r.RxStep laneRegs c := by rw [hc]; exact r.rxStep_other laneRegs r.st _ r.freeCtr
  obtain ⟨hbadStep, hbadSt, hbadLn, hloss⟩ := c.badCounted_framing
  have hcsess : c.sess = 2 := (hcget F.ST_STAT_SESS).trans ((hget F.ST_STAT_SESS (not_laneRegs (by decide))).trans hsess)
  obtain ⟨hbad, hbadGet⟩ := Mach.badSeen hcsess (by rw [hcst, hst]; exact hnak) hbadStep hbadSt hbadLn (by decide)
  have hnext : r.rxNext i.2 (raw.length + 3) = (none, (c.badCounted true).txNak) := by
    rw [r.rxNext_framing i.2 (raw.length + 2) hin hne rfl hparse, ← hc, Mach.rxBad_eq]
    exact Mach.rxNext_none _ _ _ (hbad.rxIn.trans hcin)
  rw [hnext, Mach.rxDone] at hexec
  generalize (c.badCounted true).txNak = k at *
  have hall : (s.m.runTo b).RxStep (fun a => a = F.ST_ERRS_reg ∨ laneRegs a) k :=
    ((hstep.trans hcstep).mono fun _ ha => Or.inr ha).trans (hbad.step.mono fun a ha => Or.inl ha)
  have htotal := (s.m.within_runTo _ b).trans hall.within
  refine ⟨_, hexec, hbad.link, hbad.rxSeq.trans (by rw [hcst, hst]), hbad.rxIn.trans hcin, fun h => ?_, htotal.sameRegs, htotal.keeps⟩
  have hfrom := (hcget F.ST_ERRS_LOSSES).trans (hget F.ST_ERRS_LOSSES (not_laneRegs (by decide)))
  rw [← hfrom] at h ⊢
  exact (hbadGet F.ST_ERRS_LOSSES).trans (hloss h)

end

end Sys2Proof.Machine
end
section
/-!
Settles FramesReceived, fourth part: a good frame that acts, is of another row's type, is broken or is out of order (R805, R814, R815).
-/

namespace Sys2Proof.Machine

/-! ## The frame at the front of the stream -/

/-- `c` is `m` once the words of the link have come in, as in `r`, and the frame at the front of the stream has been taken off it. -/
structure Mach.Came (m r c : Mach) (b : Nat) : Prop where
  step : (m.runTo b).RxStep laneRegs c
  st : c.st = m.st
  cut : r.RxStep (fun _ => False) c

theorem carries_iff {m : Mach} {lines : RxLines} {raw : List Byte} (h : m.carries lines raw = true) : (m.rxLines lines).rxUp = true ∧
    ∃ b t, (m.rxLines lines).ln.rxIn = b :: t ∧ b.bytes.take raw.length = raw := by
  unfold Mach.carries at h
  generalize m.rxLines lines = r at *
  dsimp only at h
  rw [Bool.and_eq_true] at h
  obtain ⟨hup, hfront⟩ := h
  refine ⟨hup, ?_⟩
  cases hin : r.ln.rxIn with
  | nil =>
    rw [hin] at hfront
    exact absurd hfront Bool.false_ne_true
  | cons b t =>
    rw [hin] at hfront
    dsimp only at hfront
    rw [Bool.and_eq_true, decide_eq_true_eq] at hfront
    exact ⟨b, t, rfl, hfront.1⟩

theorem le_foldl_bursts (l : List RxBurst) (n : Nat) : n ≤ l.foldl (fun n b => n + b.bytes.length + 2) n := by
  induction l generalizing n with
  | nil => exact Nat.le_refl n
  | cons b l ih => exact (by omega : n ≤ n + b.bytes.length + 2).trans (ih _)

theorem Mach.rxFuel_pos (m : Mach) : ∃ n, m.rxFuel = n + 1 := ⟨m.rxFuel - 1, by
  have h : 1 ≤ m.rxFuel := le_foldl_bursts _ _
  omega⟩

theorem Mach.cutBurst_spec (m : Mach) (b : RxBurst) (t : List RxBurst) (n : Nat) :
    (m.cutBurst b t n).st = m.st ∧ ∀ p, m.RxStep p (m.cutBurst b t n) := ⟨rfl, fun p => m.rxStep_other p m.st _ m.freeCtr⟩

theorem Mach.rxParsed_good (m : Mach) (ty n : Nat) (b : RxBurst) (t : List RxBurst) (size : Nat) (f : Frame) (pad : Bool) :
    m.rxParsed ty n b t size (.good f pad) = if f.ty = ty then (m.cutBurst b t size).rxFrame f pad
      else if hostTypes.contains f.ty then (none, m) else ((m.cutBurst b t size).rxFrame f pad).2.rxNext ty n := rfl

section
variable {s : State} {lines : RxLines} {raw : List Byte} {f : Frame} {pad : Bool} (hcar : s.m.carries lines raw = true)
  (hparse : parseFrame raw = .good f pad)
include hcar hparse

theorem came_of_carries : ∃ c b, s.m.Came (s.m.rxLines lines) c b ∧
    ∀ F, (s.m.rxLines lines).received f.ty F = Mach.rxDone F (c.rxFrame f pad) := by
  obtain ⟨hup, b, t, hin, hraw⟩ := carries_iff hcar
  obtain ⟨d, hstep, hst⟩ := rxLines_step s.m lines hup
  obtain ⟨n, hfuel⟩ := (s.m.rxLines lines).rxFuel_pos
  obtain ⟨hcst, hcstep⟩ := (s.m.rxLines lines).cutBurst_spec b t raw.length
  refine ⟨_, d, ⟨hstep.trans (hcstep _), hcst.trans hst, hcstep _⟩, fun F => ?_⟩
  rw [Mach.received_up hup, hfuel, Mach.rxNext_parsed _ _ _ hin hraw (by rw [hparse]; exact RxParse.noConfusion), hparse, Mach.rxParsed_good,
    if_pos rfl]

theorem exec_rxRow_other (hlive : s.m.live = true) (hhost : f.ty ∈ hostTypes) {i : Instr × Nat} (hi : i ∈ rxRows lines) (hne : i.2 ≠ f.ty) :
    exec i.1 s = .next { s with m := s.m.rxLines lines } := by
  obtain ⟨F, hexec⟩ := exec_rxRow hlive hi
  obtain ⟨hup, b, t, hin, hraw⟩ := carries_iff hcar
  obtain ⟨n, hfuel⟩ := (s.m.rxLines lines).rxFuel_pos
  rw [hexec, Mach.received_up hup, hfuel, Mach.rxNext_parsed _ _ _ hin hraw (by rw [hparse]; exact RxParse.noConfusion), hparse,
    Mach.rxParsed_good, if_neg hne.symm, if_pos (List.contains_iff_mem.2 hhost), Mach.rxDone]

end

section
variable {s : State} {r c : Mach} {b : Nat} (hc : s.m.Came r c b)
include hc

theorem Mach.Came.get (f : Fld) (hf : ¬ laneRegs f.addr) : c.get f = s.m.get f :=
  ((s.m.within_runTo laneRegs b).trans hc.step.within).get f hf

theorem Mach.Came.sess (hsess : s.m.sess = 2) : c.sess = 2 := (hc.get F.ST_STAT_SESS (not_laneRegs (by decide))).trans hsess

theorem Mach.Came.avail (d : Bool) : c.availOf d = s.m.availOf d :=
  Mach.availOf_of_get (fun g hg => hc.get g (by rcases hg with h | h | h <;> rw [h] <;> exact not_laneRegs (by decide))) d

/-- The whole step of a row whose work on the frame is `k`. -/
theorem Mach.Came.total {p : Nat → Prop} {k : Mach} (hk : c.RxStep p k) : (s.m.runTo b).RxStep (fun a => p a ∨ laneRegs a) k :=
  (hc.step.mono fun _ ha => Or.inr ha).trans (hk.mono fun _ ha => Or.inl ha)

theorem Mach.Came.sameRegs {p : Nat → Prop} {k : Mach} (hk : c.Within p k) : SameRegs (fun a => p a ∨ laneRegs a) s { s with m := k } :=
  ((s.m.within_runTo _ b).trans ((hc.step.within.mono fun _ ha => Or.inr ha).trans (hk.mono fun _ ha => Or.inl ha))).sameRegs

theorem Mach.Came.keeps {k : Mach} (hk : ∀ a, k.byte a = c.byte a) : Keeps s { s with m := k } :=
  ⟨fun a => (hk a).trans ((hc.step.within.2 a).trans ((s.m.within_runTo laneRegs b).2 a)), rfl, rfl, rfl⟩

end

/-! ## Broken frames, duplicates and gaps -/

/-- The registers of a protocol error (R805). -/
def protRegs (a : Nat) : Prop := a = F.ST_STAT_reg ∨ a = F.ST_PROTERR_reg

theorem Mach.protErr_spec (m : Mach) : m.protErr.get F.ST_STAT_PROTERR = 1 ∧ m.protErr.get F.ST_PROTERR_N = (m.get F.ST_PROTERR_N + 1) % 2 ^ 32 ∧
    m.protErr.st = m.st ∧ m.Within protRegs m.protErr := by
  have hone : (m.put F.ST_STAT_PROTERR 1).get F.ST_STAT_PROTERR = 1 := m.get_put_self F.ST_STAT_PROTERR 1 (by decide) (by decide)
  have hcount : (m.put F.ST_STAT_PROTERR 1).get F.ST_PROTERR_N = m.get F.ST_PROTERR_N := m.get_put_ne F.ST_STAT_PROTERR F.ST_PROTERR_N 1 (by decide)
  have hst : (m.put F.ST_STAT_PROTERR 1).st = m.st := m.put_st _ _
  have hwithin : m.Within protRegs (m.put F.ST_STAT_PROTERR 1) := (Mach.Within.refl _ m).put F.ST_STAT_PROTERR 1 (Or.inl rfl)
  rw [Mach.protErr]
  generalize m.put F.ST_STAT_PROTERR 1 = k at *
  refine ⟨(k.get_put_ne F.ST_PROTERR_N F.ST_STAT_PROTERR _ (by decide)).trans hone, ?_, (k.put_st F.ST_PROTERR_N _).trans hst,
    hwithin.put F.ST_PROTERR_N _ (Or.inr rfl)⟩
  rw [← hcount]
  exact k.countMod_get F.ST_PROTERR_N (by decide)

section
variable {s : State} {lines : RxLines} {raw : List Byte} {f : Frame} {pad : Bool} (hlive : s.m.live = true) (hcar : s.m.carries lines raw = true)
  (hparse : parseFrame raw = .good f pad)
include hlive hcar hparse

theorem does_rxRow_broken (hbad : f.broken pad = true) (hty : f.ty < 0x11 ∨ 0x14 < f.ty) {i : Instr × Nat} (hi : i ∈ rxRows lines) (heq : i.2 = f.ty) :
    Does i.1 s (fun t => t.m.get F.ST_STAT_PROTERR = 1 ∧ t.m.get F.ST_PROTERR_N = (s.m.get F.ST_PROTERR_N + 1) % 2 ^ 32 ∧ t.m.st = s.m.st ∧
      SameRegs (fun a => a = F.ST_STAT_reg ∨ a = F.ST_PROTERR_reg ∨ laneRegs a) s t ∧ Keeps s t) := by
  obtain ⟨F', hexec⟩ := exec_rxRow hlive hi
  obtain ⟨c, b, hc, hrec⟩ := came_of_carries hcar hparse
  rw [heq, hrec, Mach.rxFrame_bad hbad, Mach.rxOrdered_other hty, if_pos rfl, Mach.rxDone] at hexec
  obtain ⟨hone, hcount, hst, hwithin⟩ := c.protErr_spec
  rw [hc.get F.ST_PROTERR_N (not_laneRegs (by decide))] at hcount
  refine ⟨_, hexec, hone, hcount, hst.trans hc.st, fun a ha => ?_, hc.keeps hwithin.2⟩
  exact hc.sameRegs hwithin a fun h => ha (by
    rcases h with (h | h) | h
    · exact Or.inl h
    · exact Or.inr (Or.inl h)
    · exact Or.inr (Or.inr h))

variable (hsess : s.m.sess = 2) (hgood : f.broken pad = false) (hack : s.m.takeAck f.ack = s.m)
include hsess hgood hack

/-- A frame that has been received already is acknowledged again (R815). -/
theorem does_rxRow_again (hpos : 0 < seqDist f.seq s.m.st.rxSeq) (hold : seqDist f.seq s.m.st.rxSeq ≤ 32768) {i : Instr × Nat} (hi : i ∈ rxRows lines)
    (heq : i.2 = f.ty) (hlo : 0x11 ≤ f.ty) (hhi : f.ty ≤ 0x14) :
    Does i.1 s (fun t => (∃ g, t.m.st.tx.head? = some g ∧ g.ty = 0x30 ∧ g.a = 0) ∧ t.m.st.rxSeq = s.m.st.rxSeq ∧
      SameRegs (fun a => eventRegs 7 a ∨ laneRegs a) s t ∧ Keeps s t) := by
  obtain ⟨F', hexec⟩ := exec_rxRow hlive hi
  obtain ⟨c, b, hc, hrec⟩ := came_of_carries hcar hparse
  rw [heq, hrec, Mach.rxFrame_seq (hc.sess hsess) hgood (Mach.takeAck_id (by rw [hc.st]) hack) hlo hhi, hc.st, if_neg (by omega), if_pos hold,
    Mach.rxDone] at hexec
  have hlink := c.stSync.txAck_links
  have hstep := c.rxStep_stSync.trans (hlink.step (eventRegs 7))
  refine ⟨_, hexec, hlink.head, ?_, hc.sameRegs hstep.within, hc.keeps hstep.within.2⟩
  exact hlink.rxSeq.trans ((c.stSync_st.2.1).trans (by rw [hc.st]))

/-- A frame behind a gap is answered with a NAK (R815). -/
theorem does_rxRow_gap (hnew : 32768 < seqDist f.seq s.m.st.rxSeq) (hnak : s.m.st.nakAt = none) {i : Instr × Nat} (hi : i ∈ rxRows lines)
    (heq : i.2 = f.ty) (hlo : 0x11 ≤ f.ty) (hhi : f.ty ≤ 0x14) :
    Does i.1 s (fun t => (∃ g, t.m.st.tx.head? = some g ∧ g.ty = 0x30 ∧ g.a = 1) ∧ t.m.st.rxSeq = s.m.st.rxSeq ∧
      SameRegs (fun a => eventRegs 7 a ∨ laneRegs a) s t ∧ Keeps s t) := by
  obtain ⟨F', hexec⟩ := exec_rxRow hlive hi
  obtain ⟨c, b, hc, hrec⟩ := came_of_carries hcar hparse
  rw [heq, hrec, Mach.rxFrame_seq (hc.sess hsess) hgood (Mach.takeAck_id (by rw [hc.st]) hack) hlo hhi, hc.st, if_neg (by omega),
    if_neg (by omega), Mach.rxDone] at hexec
  obtain ⟨hs, hr, hn⟩ := c.stSync_st
  have hlink := c.stSync.txNak_links (hs.trans (hc.sess hsess)) (hn.trans (by rw [hc.st]; exact hnak))
  have hstep := c.rxStep_stSync.trans (hlink.step (eventRegs 7))
  refine ⟨_, hexec, hlink.head, ?_, hc.sameRegs hstep.within, hc.keeps hstep.within.2⟩
  exact hlink.rxSeq.trans (hr.trans (by rw [hc.st]))

end

/-! ## The next frame in order -/

/-- The next frame has been taken and acknowledged (R814, R815); the rest of ST but what it notes of starving is as before. -/
structure Mach.NextTaken (m k : Mach) : Prop where
  link : ∃ g, k.st.tx.head? = some g ∧ g.ty = 0x30 ∧ g.a = 0
  st : ∃ x y a b d e, k.st = { m.st with rxSeq := (m.st.rxSeq + 1) % 65536, tx := x, nakAt := y, starved := a, starveFrom := b, starveAcc := d, ctlOk := e }
  step : m.RxStep (eventRegs 7) k

theorem Mach.nextTaken (m : Mach) : m.NextTaken m.stSync.seqTaken.txAck := by
  have hlink := m.stSync.seqTaken.txAck_links
  obtain ⟨l, x, hst⟩ := hlink.st
  obtain ⟨a, b, d, e, hsync⟩ := m.stSync_noted.st
  have htaken : ∀ k : Mach, k.RxStep (eventRegs 7) k.seqTaken := fun k => k.rxStep_other _ _ k.ln k.freeCtr
  refine ⟨hlink.head, ⟨l, x, a, b, d, e, ?_⟩, (m.rxStep_stSync.trans (htaken _)).trans (hlink.step _)⟩
  rw [hst, Mach.seqTaken, hsync]

section
variable {s : State} {r c k : Mach} {b : Nat} (hc : s.m.Came r c b) (hk : c.NextTaken k)
include hc hk

theorem next_get (f : Fld) (hlt : f.addr < 0x400000) (hlane : f.addr < 0x300100 ∨ 0x300200 ≤ f.addr) : k.get f = s.m.get f :=
  (hk.step.within.get f (not_eventRegs_of_lt hlt)).trans (hc.get f (not_laneRegs hlane))

theorem next_rxSeq : k.st.rxSeq = (s.m.st.rxSeq + 1) % 65536 := by
  obtain ⟨x, y, a, b, d, e, hst⟩ := hk.st
  rw [hst, ← hc.st]

end

/-- The row has taken the frame `f`, next in order, and its own work remains (R814). -/
theorem next_of_carries {s : State} {lines : RxLines} {raw : List Byte} {f : Frame} {pad : Bool} (hcar : s.m.carries lines raw = true)
    (hparse : parseFrame raw = .good f pad) (hsess : s.m.sess = 2) (hgood : f.broken pad = false) (hack : s.m.takeAck f.ack = s.m)
    (hnext : seqDist f.seq s.m.st.rxSeq = 0) (hlo : 0x11 ≤ f.ty) (hhi : f.ty ≤ 0x14) : ∃ c b k, s.m.Came (s.m.rxLines lines) c b ∧ c.NextTaken k ∧
    ∀ F, (s.m.rxLines lines).received f.ty F = (F k f).stSync := by
  obtain ⟨c, b, hc, hrec⟩ := came_of_carries hcar hparse
  refine ⟨c, b, _, hc, c.nextTaken, fun F => ?_⟩
  rw [hrec, Mach.rxFrame_seq (hc.sess hsess) hgood (Mach.takeAck_id (by rw [hc.st]) hack) hlo hhi, hc.st, if_pos hnext, Mach.rxDone]

end Sys2Proof.Machine
end
section
/-!
Settles FramesReceived, fifth part: the records of the receive ring, and the boot ROM's answer (R841, R843).
-/

namespace Sys2Proof.Machine

/-! ## Records of the receive ring -/

/-- A line of C7 is pending, and the unit is up. -/
def Mach.RungUp (m : Mach) (e : Nat) : Prop := m.Rung 7 e ∧ m.inReset = false ∧ m.pwr.thermal = false

theorem Mach.RungUp.stSync {m : Mach} {e : Nat} (h : m.RungUp e) : m.stSync.Rung 7 e := by
  obtain ⟨x, -, hsync | hsync⟩ := m.stSync_eq
  · rw [hsync]
    exact (show m.SameLines { m with st := x } 7 from ⟨rfl, rfl, rfl, rfl, rfl, rfl⟩).rung h.1
  · rw [hsync]
    exact ((show m.SameLines { m with st := x } 7 from ⟨rfl, rfl, rfl, rfl, rfl, rfl⟩).rung h.1).pulse 7 13 h.2 (by decide)

theorem Mach.rungUp_pulse {m : Mach} {e : Nat} (h : m.Rests 7 e) (he : e < 32) : (m.pulse 7 e).RungUp e := by
  obtain ⟨r, x, b, hpulse⟩ := m.pulse_changes 7 e
  refine ⟨h.pulsed he, ?_⟩
  rw [hpulse]
  exact h.up

/-- What one record of the receive ring leaves (R841). -/
structure Mach.RingWritten (bytes : List Byte) (len cost : Nat) (m n : Mach) : Prop where
  st : n.st = { m.st with linW := m.st.linW + len, recs := m.st.recs ++ [(m.st.linW + len, cost)] }
  load : n.loadBytes (mbxBase + (m.get F.ST_RXBASE_OFS + m.get F.ST_RXWP_OFS) % 0x4000) bytes.length = bytes
  wp : n.get F.ST_RXWP_OFS = (m.get F.ST_RXWP_OFS + len) % max 16 m.rxSize
  now : n.now = m.now
  rung : m.Rests 7 12 → n.RungUp 12

theorem Mach.rxSize_lt (m : Mach) : max 16 m.rxSize < 2 ^ 32 := by
  have h : m.get F.ST_RXSIZE_SIZE < 2 ^ 32 := m.get_lt F.ST_RXSIZE_SIZE
  rw [Mach.rxSize]
  omega

theorem Mach.ringWritten (m : Mach) (bytes : List Byte) (len cost : Nat) : Mach.RingWritten bytes len cost m (m.ringWrite bytes len cost) := by
  unfold Mach.ringWrite
  extract_lets pos k x y
  obtain ⟨a, b, c, hput⟩ := m.putBytes_changes (mbxBase + (m.get F.ST_RXBASE_OFS + pos) % 0x4000) bytes
  have hload : k.loadBytes (mbxBase + (m.get F.ST_RXBASE_OFS + pos) % 0x4000) bytes.length = bytes := m.loadBytes_putBytes _ bytes
  have hk : k = { m with mem := a, eccBad := b, eccOne := c } := hput
  have hy : y.st = { m.st with linW := m.st.linW + len, recs := m.st.recs ++ [(m.st.linW + len, cost)] } := by
    simp only [y, x, hk]
  have hyload : y.loadBytes (mbxBase + (m.get F.ST_RXBASE_OFS + pos) % 0x4000) bytes.length = bytes :=
    (Mach.loadBytes_congr (m := k) (n := y) _ _ fun _ _ _ => rfl).trans hload
  have hysize : y.rxSize = m.rxSize := by
    simp only [y, hk]
    rfl
  have hynow : y.now = m.now := by
    simp only [y, hk]
    rfl
  have hlines : m.SameLines y 7 := by
    simp only [y, hk]
    exact ⟨rfl, rfl, rfl, rfl, rfl, rfl⟩
  have hwp : y.get F.ST_RXWP_OFS = m.get F.ST_RXWP_OFS := by
    simp only [y, hk]
    rfl
  have hpos : pos = m.get F.ST_RXWP_OFS := rfl
  clear_value y k pos
  rw [hysize, hpos]
  have hput := Mach.get_put_self y F.ST_RXWP_OFS ((m.get F.ST_RXWP_OFS + len) % max 16 m.rxSize) (by decide) (by decide)
  rw [hpos] at hyload
  generalize hv : (m.get F.ST_RXWP_OFS + len) % max 16 m.rxSize = v at *
  have hlt : v < 2 ^ 32 := by
    rw [← hv]
    exact (Nat.mod_lt _ (by omega)).trans m.rxSize_lt
  have hgot : (y.put F.ST_RXWP_OFS v).get F.ST_RXWP_OFS = v := hput.trans (Nat.mod_eq_of_lt hlt)
  refine ⟨?_, ?_, (Mach.get_pulse _ 7 12 (by decide)).trans (hgot.trans hv.symm), ?_, fun hrest => ?_⟩
  · rw [Mach.pulse_st, Mach.put_st, hy]
  · refine (Mach.loadBytes_congr _ _ fun i _ _ => ?_).trans hyload
    exact ((((Mach.Within.refl (fun _ => True) y).put F.ST_RXWP_OFS v trivial).pulse 7 12 fun _ _ => trivial).2 i)
  · rw [Mach.pulse_now, Mach.now_put, hynow]
  · exact Mach.rungUp_pulse ((hlines.trans (y.sameLines_put _ _ 7 (by decide))).rests hrest) (by decide)

theorem ringPut_room (m : Mach) (bytes : List Byte) (cost reserve : Nat) (h16 : 16 ≤ m.rxSize)
    (hroom : m.st.linW - m.st.linR + bytes.length + reserve ≤ m.rxSize - 16) (hfits : bytes.length ≤ m.rxSize - m.get F.ST_RXWP_OFS) :
    m.ringPut bytes cost reserve = (true, m.ringWrite bytes bytes.length cost) := by
  unfold Mach.ringPut
  extract_lets size need rest wrap k
  have hwrap : wrap = 0 := if_neg (by simp only [rest, need, size]; omega)
  have hk : k = m := if_pos hwrap
  have hno : ¬ ((size < 16 || size - 16 < m.st.linW - m.st.linR + wrap + need + reserve : Bool) = true) := by
    rw [hwrap]
    simp only [size, need, Bool.or_eq_true, decide_eq_true_eq]
    omega
  rw [if_neg hno, hk]

theorem ringPut_full (m : Mach) (bytes : List Byte) (cost reserve : Nat) (hfull : m.rxSize - 16 < m.st.linW - m.st.linR + bytes.length + reserve) :
    m.ringPut bytes cost reserve = (false, m) := by
  unfold Mach.ringPut
  extract_lets size need rest wrap k
  have hyes : (size < 16 || size - 16 < m.st.linW - m.st.linR + wrap + need + reserve : Bool) = true := by
    simp only [size, need, Bool.or_eq_true, decide_eq_true_eq]
    omega
  rw [if_pos hyes]

/-- The bytes of a frame's record (R841). -/
def Frame.record (f : Frame) : List Byte := padTo 16 (f.header ++ f.payload)

theorem frameRecord_room {m : Mach} {f : Frame} (h16 : 16 ≤ m.rxSize) (hroom : m.st.linW - m.st.linR + f.record.length + 2048 ≤ m.rxSize - 16)
    (hfits : f.record.length ≤ m.rxSize - m.get F.ST_RXWP_OFS) : m.frameRecord f = m.ringWrite f.record f.record.length f.cost := by
  have hput := ringPut_room m f.record f.cost 2048 h16 hroom hfits
  unfold Frame.record at *
  rw [Mach.frameRecord, hput]
  rfl

theorem frameRecord_full {m : Mach} {f : Frame} (hfull : m.rxSize - 16 < m.st.linW - m.st.linR + f.record.length + 2048) :
    m.frameRecord f = m.put F.ST_STAT_RXDROP 1 := by
  have hput := ringPut_full m f.record f.cost 2048 hfull
  unfold Frame.record at *
  rw [Mach.frameRecord, hput]
  rfl

/-- The rows whose frames become records (R841). -/
noncomputable def recordRows (lines : RxLines) : List (Instr × Nat) := [(.rxMsg lines, 0x11), (.rxWr lines, 0x12), (.rxRd lines, 0x13)]

theorem exec_recordRows (s : State) {lines : RxLines} : ∀ i ∈ recordRows lines, (0x11 ≤ i.2 ∧ i.2 ≤ 0x14) ∧
    ∃ G : Mach → Frame → Mach, exec i.1 s = s.receive i.2 lines (fun m f => if m.inBoot then G m f else m.frameRecord f) := by
  intro i hi
  simp only [recordRows, List.mem_cons, List.not_mem_nil, or_false] at hi
  rcases hi with rfl | rfl | rfl
  · exact ⟨by show 0x11 ≤ 0x11 ∧ 0x11 ≤ 0x14; decide, fun m f => (m.bootFreed f).bootAnswer f 2 [], rfl⟩
  · exact ⟨by show 0x11 ≤ 0x12 ∧ 0x12 ≤ 0x14; decide, fun m f => m.bootWr s.fuses f, rfl⟩
  · exact ⟨by show 0x11 ≤ 0x13 ∧ 0x13 ≤ 0x14; decide, fun m f => m.bootRd s.fuses f, rfl⟩

theorem Mach.inBoot_of_get {m : Mach} (h : m.get F.BOOT_STATUS_PHASE = 4) : m.inBoot = false := by
  rw [Mach.inBoot, Mach.phase, h]
  rfl

theorem Mach.inBoot_of_ne {m : Mach} (h : m.get F.BOOT_STATUS_PHASE ≠ 4) : m.inBoot = true := by
  rw [Mach.inBoot, Mach.phase]
  exact bne_iff_ne.2 h

theorem Mach.NextTaken.ring {c k : Mach} (hk : c.NextTaken k) : k.st.linW = c.st.linW ∧ k.st.linR = c.st.linR ∧ k.st.recs = c.st.recs ∧
    k.st.tags = c.st.tags ∧ k.st.crRet = c.st.crRet ∧ k.st.hcpl = c.st.hcpl := by
  obtain ⟨x, y, a, b, d, e, hst⟩ := hk.st
  rw [hst]
  exact ⟨rfl, rfl, rfl, rfl, rfl, rfl⟩

theorem Mach.stSync_rest (m : Mach) : m.stSync.st.tx = m.st.tx ∧ m.stSync.st.recs = m.st.recs ∧ m.stSync.st.crRet = m.st.crRet ∧
    m.stSync.st.hcpl = m.st.hcpl := by
  obtain ⟨a, b, c, d, hst⟩ := m.stSync_noted.st
  rw [hst]
  exact ⟨rfl, rfl, rfl, rfl⟩

section
variable {s : State} {lines : RxLines} {raw : List Byte} {f : Frame} {pad : Bool} (hlive : s.m.live = true) (hcar : s.m.carries lines raw = true)
  (hparse : parseFrame raw = .good f pad) (hsess : s.m.sess = 2) (hgood : f.broken pad = false) (hack : s.m.takeAck f.ack = s.m)
  (hnext : seqDist f.seq s.m.st.rxSeq = 0)
include hlive hcar hparse hsess hgood hack hnext

theorem exec_recordRow (hphase : s.m.get F.BOOT_STATUS_PHASE = 4) {i : Instr × Nat} (hi : i ∈ recordRows lines) (heq : i.2 = f.ty) :
    ∃ c b k, s.m.Came (s.m.rxLines lines) c b ∧ c.NextTaken k ∧ exec i.1 s = .next { s with m := (k.frameRecord f).stSync } := by
  obtain ⟨⟨hlo, hhi⟩, G, hexec⟩ := exec_recordRows s i hi
  obtain ⟨c, b, k, hc, hk, hrec⟩ := next_of_carries hcar hparse hsess hgood hack hnext (heq ▸ hlo) (heq ▸ hhi)
  have hboot : k.inBoot = false := Mach.inBoot_of_get ((next_get hc hk F.BOOT_STATUS_PHASE (by decide) (by decide)).trans hphase)
  refine ⟨c, b, k, hc, hk, ?_⟩
  rw [hexec, State.receive_eq hlive, heq, hrec, hboot, if_neg Bool.false_ne_true]

/-- A frame for firmware becomes a record of the ring where it has room (R841). -/
theorem does_recordRow_room (hphase : s.m.get F.BOOT_STATUS_PHASE = 4) {i : Instr × Nat} (hi : i ∈ recordRows lines) (heq : i.2 = f.ty)
    (h16 : 16 ≤ s.m.rxSize) (hroom : s.m.st.linW - s.m.st.linR + f.record.length + 2048 ≤ s.m.rxSize - 16)
    (hfits : f.record.length ≤ s.m.rxSize - s.m.get F.ST_RXWP_OFS) :
    Does i.1 s (fun t => ((∃ g, t.m.st.tx.head? = some g ∧ g.ty = 0x30 ∧ g.a = 0) ∧ t.m.st.rxSeq = (s.m.st.rxSeq + 1) % 65536) ∧
      Pulsed s t 7 12 ∧ SameStores s t ∧
      t.m.loadBytes (mbxBase + (s.m.get F.ST_RXBASE_OFS + s.m.get F.ST_RXWP_OFS) % 0x4000) f.record.length = f.record ∧
      t.m.get F.ST_RXWP_OFS = (s.m.get F.ST_RXWP_OFS + f.record.length) % s.m.rxSize ∧
      t.m.st.recs = s.m.st.recs ++ [(s.m.st.linW + f.record.length, f.cost)]) := by
  obtain ⟨c, b, k, hc, hk, hexec⟩ := exec_recordRow hlive hcar hparse hsess hgood hack hnext hphase hi heq
  obtain ⟨hlinW, hlinR, hrecs, -⟩ := hk.ring
  rw [hc.st] at hlinW hlinR hrecs
  have hwp := next_get hc hk F.ST_RXWP_OFS (by decide) (by decide)
  have hbase := next_get hc hk F.ST_RXBASE_OFS (by decide) (by decide)
  have hsize : k.rxSize = s.m.rxSize := by
    rw [Mach.rxSize, next_get hc hk F.ST_RXSIZE_SIZE (by decide) (by decide)]
    rfl
  rw [frameRecord_room (by rw [hsize]; exact h16) (by rw [hlinW, hlinR, hsize]; exact hroom) (by rw [hsize, hwp]; exact hfits)] at hexec
  have hring := k.ringWritten f.record f.record.length f.cost
  have hseq := next_rxSeq hc hk
  generalize k.ringWrite f.record f.record.length f.cost = n at *
  obtain ⟨hst, hload, hnwp, hnow, hrung⟩ := hring
  obtain ⟨htx, hrecs', -, -⟩ := n.stSync_rest
  have hnoted := n.stSync_noted
  refine ⟨_, hexec, ⟨?_, ?_⟩, ?_, ⟨rfl, rfl, rfl⟩, ?_, ?_, ?_⟩
  · rw [htx, hst]
    exact hk.link
  · rw [n.stSync_st.2.1, hst]
    exact hseq
  · refine pulsed_of_bwl (s.m.runTo_changes b) hlive (hnoted.now.trans (hnow.trans (hk.step.now.trans hc.step.now))) fun hrest => ?_
    exact (hrung (hk.step.rests 12 (by decide) (hc.step.rests 12 (by decide) hrest))).stSync
  · rw [← hbase, ← hwp]
    exact (Mach.loadBytes_congr _ _ fun a _ _ => hnoted.within.2 a).trans hload
  · rw [n.stSync_get _ (by decide), hnwp, hwp, hsize, Nat.max_eq_right h16]
  · rw [hrecs', hst, hlinW, hrecs]

/-- A frame that finds no room is dropped (R841). -/
theorem does_recordRow_full (hphase : s.m.get F.BOOT_STATUS_PHASE = 4) {i : Instr × Nat} (hi : i ∈ recordRows lines) (heq : i.2 = f.ty)
    (hfull : s.m.rxSize - 16 < s.m.st.linW - s.m.st.linR + f.record.length + 2048) :
    Does i.1 s (fun t => ((∃ g, t.m.st.tx.head? = some g ∧ g.ty = 0x30 ∧ g.a = 0) ∧ t.m.st.rxSeq = (s.m.st.rxSeq + 1) % 65536) ∧
      t.m.get F.ST_STAT_RXDROP = 1 ∧ t.m.st.recs = s.m.st.recs ∧ Keeps s t) := by
  obtain ⟨c, b, k, hc, hk, hexec⟩ := exec_recordRow hlive hcar hparse hsess hgood hack hnext hphase hi heq
  obtain ⟨hlinW, hlinR, hrecs, -⟩ := hk.ring
  rw [hc.st] at hlinW hlinR hrecs
  have hsize : k.rxSize = s.m.rxSize := by
    rw [Mach.rxSize, next_get hc hk F.ST_RXSIZE_SIZE (by decide) (by decide)]
    rfl
  rw [frameRecord_full (by rw [hlinW, hlinR, hsize]; exact hfull)] at hexec
  have hseq := next_rxSeq hc hk
  have hst := k.put_st F.ST_STAT_RXDROP 1
  have hdrop : (k.put F.ST_STAT_RXDROP 1).get F.ST_STAT_RXDROP = 1 := k.get_put_self F.ST_STAT_RXDROP 1 (by decide) (by decide)
  have hbyte := k.put_byte F.ST_STAT_RXDROP 1
  generalize k.put F.ST_STAT_RXDROP 1 = n at *
  obtain ⟨htx, hrecs', -, -⟩ := n.stSync_rest
  refine ⟨_, hexec, ⟨?_, ?_⟩, (n.stSync_get _ (by decide)).trans hdrop, ?_, hc.keeps fun a => ?_⟩
  · rw [htx, hst]
    exact hk.link
  · rw [n.stSync_st.2.1, hst]
    exact hseq
  · rw [hrecs', hst, hrecs]
  · exact (n.stSync_byte a).trans ((hbyte a).trans (hk.step.within.2 a))

/-! ## The boot ROM's answer -/

omit hlive hcar hparse hsess hgood hack hnext in
theorem bootFreed_spec (m : Mach) (f : Frame) : ∃ x, (m.bootFreed f).st = { m.st with crRet := (m.st.crRet + f.cost) % 2 ^ 24, tx := x } ∧
    ∀ a, (m.bootFreed f).byte a = m.byte a := by
  unfold Mach.bootFreed
  generalize hu : ({ m with st := { m.st with crRet := (m.st.crRet + f.cost) % 2 ^ 24 } } : Mach) = u
  have hst : u.st = { m.st with crRet := (m.st.crRet + f.cost) % 2 ^ 24 } := by rw [← hu]
  have hbyte : ∀ a, u.byte a = m.byte a := by
    rw [← hu]
    exact fun _ => rfl
  unfold Mach.txCredit
  split
  · obtain ⟨l, c, -, h⟩ := u.txPlain_changes 0x31 0 u.st.crRet []
    refine ⟨(u.plain 0x31 0 u.st.crRet [] :: u.st.tx).take 16, ?_, fun a => ?_⟩
    · rw [h, hst]
    · rw [h]
      exact hbyte a
  · exact ⟨u.st.tx, by rw [hst], hbyte⟩

omit hlive hcar hparse hsess hgood hack hnext in
theorem bootAnswer_spec (m : Mach) (f : Frame) (status : Nat) (data : List Byte) :
    (m.bootAnswer f status data).st.rxSeq = m.st.rxSeq ∧ (m.bootAnswer f status data).st.crRet = m.st.crRet ∧
    (m.bootAnswer f status data).st.recs = m.st.recs ∧ (m.bootAnswer f status data).st.hcpl = m.st.hcpl ++
      [{ ty := 0x03, flags := 3, seq := 0, ack := 0, a := f.seq + 65536 * status, b := 0, payload := data }] ∧
    ∀ a, (m.bootAnswer f status data).byte a = m.byte a := by
  unfold Mach.bootAnswer
  extract_lets h y
  generalize hu : ({ m with st := { y with hcpl := y.hcpl ++ [h] } } : Mach) = u
  have hst : u.st = { m.st with hcpl := m.st.hcpl ++ [h] } := by rw [← hu]
  have hbyte : ∀ a, u.byte a = m.byte a := by
    rw [← hu]
    exact fun _ => rfl
  obtain ⟨-, hrecs, hcr, hcpl⟩ := u.stSync_rest
  refine ⟨?_, ?_, ?_, ?_, fun a => (u.stSync_byte a).trans (hbyte a)⟩
  · rw [u.stSync_st.2.1, hst]
  · rw [hcr, hst]
  · rw [hrecs, hst]
  · rw [hcpl, hst]

/-- While the boot ROM runs C7, it frees a message's credits and answers it with status 2 (R843; log entry 66). -/
theorem does_rxMsg_boot (hphase : s.m.get F.BOOT_STATUS_PHASE ≠ 4) (hty : f.ty = 0x11) :
    Does (.rxMsg lines) s (fun t => t.m.st.rxSeq = (s.m.st.rxSeq + 1) % 65536 ∧ t.m.st.crRet = (s.m.st.crRet + f.cost) % 2 ^ 24 ∧
      t.m.st.recs = s.m.st.recs ∧
      t.m.st.hcpl = s.m.st.hcpl ++ [{ ty := 0x03, flags := 3, seq := 0, ack := 0, a := f.seq + 0x20000, b := 0, payload := [] }] ∧ Keeps s t) := by
  obtain ⟨c, b, k, hc, hk, hrec⟩ := next_of_carries hcar hparse hsess hgood hack hnext (by omega) (by omega)
  have hboot : k.inBoot = true := Mach.inBoot_of_ne (by
    rw [next_get hc hk F.BOOT_STATUS_PHASE (by decide) (by decide)]
    exact hphase)
  have hexec : exec (.rxMsg lines) s = .next { s with m := ((k.bootFreed f).bootAnswer f 2 []).stSync } := by
    refine (State.receive_eq hlive 0x11 (fun m f => if m.inBoot then (m.bootFreed f).bootAnswer f 2 [] else m.frameRecord f)).trans ?_
    rw [← hty, hrec, hboot, if_pos rfl]
  obtain ⟨-, -, hrecs, -, hcr, hcpl⟩ := hk.ring
  rw [hc.st] at hrecs hcr hcpl
  have hseq := next_rxSeq hc hk
  obtain ⟨x, hst, hbyte⟩ := bootFreed_spec k f
  obtain ⟨hseq', hcr', hrecs', hcpl', hbyte'⟩ := bootAnswer_spec (k.bootFreed f) f 2 []
  generalize (k.bootFreed f).bootAnswer f 2 [] = n at *
  obtain ⟨-, hrecs'', hcr'', hcpl''⟩ := n.stSync_rest
  refine ⟨_, hexec, ?_, ?_, ?_, ?_, hc.keeps fun a => (n.stSync_byte a).trans ((hbyte' a).trans ((hbyte a).trans (hk.step.within.2 a)))⟩
  · rw [n.stSync_st.2.1, hseq', hst]
    exact hseq
  · rw [hcr'', hcr', hst, hcr]
  · rw [hrecs'', hrecs', hst, hrecs]
  · rw [hcpl'', hcpl', hst, hcpl]

end

end Sys2Proof.Machine
end
section
/-!
Settles FramesReceived, last part: completions, LINK and CREDIT (R809, R810, R813, R817, R828, R830).
-/

namespace Sys2Proof.Machine

/-! ## The line store brought up from equal heads and bytes -/

/-- What the pixels of captured lines turn on is the same in `m` and `n` (R24). -/
structure Mach.SamePix (m n : Mach) : Prop where
  byte : ∀ a, n.byte a = m.byte a
  heads : n.heads = m.heads
  now : n.now = m.now
  base : ∀ h : Fin 6, n.get (F.TRG_R_BASE_BASE h) = m.get (F.TRG_R_BASE_BASE h)
  slot : ∀ h : Fin 6, n.get (F.TRG_R_SLOT_SLOT h) = m.get (F.TRG_R_SLOT_SLOT h)

section
variable {m n : Mach}

theorem Mach.SamePix.head (h : m.SamePix n) (i : Fin 6) : n.head i = m.head i := by
  rw [Mach.head, h.heads]
  rfl

theorem Mach.SamePix.slotAddr (h : m.SamePix n) (i : Fin 6) (k : Nat) : n.slotAddr i k = m.slotAddr i k := by
  rw [Mach.slotAddr, h.base, h.slot]
  rfl

theorem Mach.SamePix.putPixels (h : m.SamePix n) (a : Nat) (l : List Byte) : (m.putPixels a l).SamePix (n.putPixels a l) := by
  have hbyte : ∀ b, (n.putPixels a l).byte b = (m.putPixels a l).byte b := Mach.storeBytes_byte_congr a l h.byte
  obtain ⟨x, y, z, hm⟩ := m.putPixels_changes a l
  obtain ⟨x', y', z', hn⟩ := n.putPixels_changes a l
  refine ⟨hbyte, ?_, ?_, fun i => ?_, fun i => ?_⟩ <;> rw [hm, hn]
  · exact h.heads
  · exact h.now
  · exact h.base i
  · exact h.slot i

theorem Mach.SamePix.linePixels (h : m.SamePix n) (i : Fin 6) (l : LineCtx) : (m.linePixels i l).SamePix (n.linePixels i l) := by
  unfold Mach.linePixels
  split
  · exact h
  · refine List.foldl_rel h fun f _ k k' hk => ?_
    dsimp only
    rw [hk.now, hk.head, h.slotAddr]
    split
    · exact hk.putPixels _ _
    · exact hk

/-- A line that is still being captured. -/
def dueLine (l : LineCtx) : Bool := !l.done && !l.gone

/-- The lines in capture note that they have been written up to this beat. -/
def Mach.wroteLines (m : Mach) (h : Fin 6) : Mach :=
  m.setTpg h { (m.head h).tpg with lines := (m.head h).tpg.lines.map (fun (l : LineCtx) => if dueLine l then { l with wrote := m.now } else l) }

theorem Mach.catchHead_eq (m : Mach) (h : Fin 6) : m.catchHead h =
    if ((m.head h).tpg.lines.filter dueLine).isEmpty then m
    else (((m.head h).tpg.lines.filter dueLine).foldl (fun m l => m.linePixels h l) m).wroteLines h := by
  have hdef : m.catchHead h = match (m.head h).tpg.lines.filter dueLine with
    | [] => m
    | ls => (ls.foldl (fun m l => m.linePixels h l) m).wroteLines h := rfl
  rw [hdef]
  cases (m.head h).tpg.lines.filter dueLine <;> rfl

theorem Mach.SamePix.setTpg (h : m.SamePix n) (i : Fin 6) (t : TpgSt) : (m.setTpg i t).SamePix (n.setTpg i t) := by
  refine ⟨h.byte, ?_, h.now, h.base, h.slot⟩
  show n.heads.set i { n.head i with tpg := t } = m.heads.set i { m.head i with tpg := t }
  rw [h.head, h.heads]

theorem Mach.SamePix.wroteLines (h : m.SamePix n) (i : Fin 6) : (m.wroteLines i).SamePix (n.wroteLines i) := by
  unfold Mach.wroteLines
  rw [h.head, h.now]
  exact h.setTpg i _

theorem Mach.SamePix.catchHead (h : m.SamePix n) (i : Fin 6) : (m.catchHead i).SamePix (n.catchHead i) := by
  rw [m.catchHead_eq, n.catchHead_eq, h.head]
  split
  · exact h
  · exact Mach.SamePix.wroteLines (List.foldl_rel h fun l _ k k' hk => hk.linePixels i l) i

theorem Mach.SamePix.catchUp (h : m.SamePix n) : m.catchUp.SamePix n.catchUp :=
  List.foldl_rel h fun i _ _ _ hk => hk.catchHead i

end

theorem Mach.RxStep.samePix {m n : Mach} (h : m.RxStep (eventRegs 7) n) : m.SamePix n :=
  ⟨h.within.2, h.heads, h.now,
    fun i => h.within.get _ (not_eventRegs_of_lt (by simp only [F.TRG_R_BASE_BASE, F.TRG_R_BASE_reg]; omega)),
    fun i => h.within.get _ (not_eventRegs_of_lt (by simp only [F.TRG_R_SLOT_SLOT, F.TRG_R_SLOT_reg]; omega))⟩

/-! ## Completions -/

/-- What a completion of tag `i` does (R827-R830; log entry 45). -/
def Mach.rxCplTag (m : Mach) (f : Frame) (k : Nat) (i : Fin 64) : Mach :=
  let status := bits f.a 15 8
  let n := f.payload.length
  let g := m.st.tags[i]
  if g.st = 2 then m.countMod F.ST_LATE_N 1
  else if g.st = 0 then m.countMod F.ST_BADCPL_N 1
  else
    let broken : Bool := if status = 0 then n = 0 || f.b != g.got || g.len < g.got + n else n != 0
    if broken then ((m.protErr).setTag i {}).ownRecord 0x82 (k + 0xFF * 256) g.got
    else
      let m := m.putBytes (g.dest + g.got) f.payload
      if status != 0 || g.got + n = g.len then (m.setTag i {}).ownRecord 0x82 (k + status * 256) (g.got + n)
      else m.setTag i { g with got := g.got + n }

/-- The bytes of a completion reach the read's destination (R828). -/
def Mach.cplStored (m : Mach) (i : Fin 64) (f : Frame) : Mach := m.putBytes (m.st.tags[i].dest + m.st.tags[i].got) f.payload

theorem Mach.rxCpl_eq (m : Mach) (f : Frame) : m.rxCpl f =
    if 64 ≤ f.a % 256 then m.countMod F.ST_BADCPL_N 1 else m.rxCplTag f (f.a % 256) (Fin.ofNat 64 (f.a % 256)) := rfl

section
variable {m : Mach} {f : Frame} {i : Fin 64} (hk : f.a % 256 = i.val)
include hk

theorem rxCpl_tag : m.rxCpl f = m.rxCplTag f i.val i := by
  have hi : Fin.ofNat 64 i.val = i := Fin.ext (Nat.mod_eq_of_lt i.isLt)
  rw [Mach.rxCpl_eq, hk, if_neg (by omega), hi]

theorem rxCpl_late (hst : m.st.tags[i].st = 2) : m.rxCpl f = m.countMod F.ST_LATE_N 1 := by
  rw [rxCpl_tag hk, Mach.rxCplTag]
  dsimp only
  rw [if_pos hst]

theorem rxCpl_free (hst : m.st.tags[i].st = 0) : m.rxCpl f = m.countMod F.ST_BADCPL_N 1 := by
  rw [rxCpl_tag hk, Mach.rxCplTag]
  dsimp only
  rw [if_neg (by omega), if_pos hst]

variable (hst : m.st.tags[i].st = 1) (hstatus : bits f.a 15 8 = 0) (hofs : f.b = m.st.tags[i].got) (hpos : 0 < f.payload.length)
include hst hstatus hofs hpos

theorem rxCpl_part (hmore : m.st.tags[i].got + f.payload.length < m.st.tags[i].len) :
    m.rxCpl f = (m.cplStored i f).setTag i { m.st.tags[i] with got := m.st.tags[i].got + f.payload.length } := by
  have hgood : ¬ ((f.payload.length = 0 || f.b != m.st.tags[i].got || m.st.tags[i].len < m.st.tags[i].got + f.payload.length : Bool) = true) := by
    simp only [Bool.or_eq_true, decide_eq_true_eq, bne_iff_ne, ne_eq]
    omega
  have hend : ¬ ((0 != 0 || m.st.tags[i].got + f.payload.length = m.st.tags[i].len : Bool) = true) := by
    simp only [Bool.or_eq_true, decide_eq_true_eq, bne_iff_ne, ne_eq, not_true_eq_false, false_or]
    omega
  rw [rxCpl_tag hk, Mach.rxCplTag, hstatus]
  dsimp only
  rw [if_neg (by omega), if_neg (by omega), if_pos rfl, if_neg hgood, if_neg hend, Mach.cplStored]

theorem rxCpl_whole (hend : m.st.tags[i].got + f.payload.length = m.st.tags[i].len) :
    m.rxCpl f = ((m.cplStored i f).setTag i {}).ownRecord 0x82 (i.val + 0 * 256) (m.st.tags[i].got + f.payload.length) := by
  have hgood : ¬ ((f.payload.length = 0 || f.b != m.st.tags[i].got || m.st.tags[i].len < m.st.tags[i].got + f.payload.length : Bool) = true) := by
    simp only [Bool.or_eq_true, decide_eq_true_eq, bne_iff_ne, ne_eq]
    omega
  have hdone : (0 != 0 || m.st.tags[i].got + f.payload.length = m.st.tags[i].len : Bool) = true := by
    rw [hend, decide_eq_true rfl, Bool.or_true]
  rw [rxCpl_tag hk, Mach.rxCplTag, hstatus]
  dsimp only
  rw [if_neg (by omega), if_neg (by omega), if_pos rfl, if_neg hgood, if_pos hdone, Mach.cplStored]

end

theorem Mach.ringPut_st (m : Mach) (bytes : List Byte) (cost reserve : Nat) : ∃ x y, (m.ringPut bytes cost reserve).2.st = { m.st with linW := x, recs := y } := by
  unfold Mach.ringPut
  extract_lets size need rest wrap k
  split
  · exact ⟨_, _, rfl⟩
  · have hk : ∃ x y, k.st = { m.st with linW := x, recs := y } := by
      simp only [k]
      split
      · exact ⟨_, _, rfl⟩
      · rw [Mach.put_st, (m.ringWritten _ _ _).st]
        exact ⟨_, _, rfl⟩
    obtain ⟨x, y, hk⟩ := hk
    show ∃ x y, (k.ringWrite bytes need cost).st = _
    rw [(k.ringWritten _ _ _).st, hk]
    exact ⟨_, _, rfl⟩

theorem Mach.ownRecord_st (m : Mach) (ty a b : Nat) : ∃ x y, (m.ownRecord ty a b).st = { m.st with linW := x, recs := y } := by
  obtain ⟨x, y, hput⟩ := m.ringPut_st (ownHeader ty a b) 0 0
  obtain ⟨k, ⟨ok, hk⟩, h | h⟩ := m.ownRecord_cases ty a b <;> rw [hk] at hput <;> rw [h]
  · exact ⟨x, y, hput⟩
  · exact ⟨x, y, (k.put_st _ _).trans hput⟩

theorem Mach.cplStored_spec (m : Mach) (i : Fin 64) (f : Frame) : (m.cplStored i f).st = m.st ∧
    (m.cplStored i f).loadBytes (m.st.tags[i].dest + m.st.tags[i].got) f.payload.length = f.payload ∧
    ∀ a, a < m.st.tags[i].dest + m.st.tags[i].got ∨ m.st.tags[i].dest + m.st.tags[i].got + f.payload.length ≤ a →
      (m.cplStored i f).byte a = m.byte a := by
  obtain ⟨x, y, z, h⟩ := m.putBytes_changes (m.st.tags[i].dest + m.st.tags[i].got) f.payload
  refine ⟨?_, m.loadBytes_putBytes _ _, fun a ha => (m.putBytes_byte _ _ a).trans (m.byte_storeBytes _ _ a ha)⟩
  rw [Mach.cplStored, h]

section
variable {s : State} {lines : RxLines} {raw : List Byte} {f : Frame} {pad : Bool} (hlive : s.m.live = true) (hcar : s.m.carries lines raw = true)
  (hparse : parseFrame raw = .good f pad) (hsess : s.m.sess = 2) (hgood : f.broken pad = false) (hack : s.m.takeAck f.ack = s.m)
include hlive hcar hparse hsess hgood hack

/-- What a completion finds: the frame has been taken, and the line store stands as the words of the link have found it. -/
structure CplSeen (s : State) (w u : Mach) : Prop where
  link : ∃ g, u.st.tx.head? = some g ∧ g.ty = 0x30 ∧ g.a = 0
  rxSeq : u.st.rxSeq = (s.m.st.rxSeq + 1) % 65536
  tags : u.st.tags = s.m.st.tags
  byte : ∀ a, u.byte a = w.byte a
  get : ∀ f : Fld, 0x310000 ≤ f.addr → f.addr < 0x400000 → u.get f = s.m.get f

theorem exec_rxCpl (hnext : seqDist f.seq s.m.st.rxSeq = 0) (hty : f.ty = 0x14) : ∃ u, CplSeen s (s.m.rxLines lines).catchUp u ∧
    exec (.rxCpl lines) s = .next { s with m := (u.rxCpl f).stSync } := by
  obtain ⟨c, b, k, hc, hk, hrec⟩ := next_of_carries hcar hparse hsess hgood hack hnext (by omega) (by omega)
  obtain ⟨-, -, -, htags, -, -⟩ := hk.ring
  obtain ⟨hst, hget, -, -⟩ := k.caughtUp.sends
  have hpix := ((hc.cut.mono fun _ h => h.elim).trans hk.step).samePix.catchUp
  refine ⟨k.catchUp, ⟨?_, ?_, ?_, hpix.byte, fun g hlo hhi => (hget g).trans (next_get hc hk g hhi (Or.inr (by omega)))⟩, ?_⟩
  · rw [hst]
    exact hk.link
  · rw [hst]
    exact next_rxSeq hc hk
  · rw [hst, htags, hc.st]
  · refine (State.receive_eq hlive 0x14 (fun m f => m.catchUp.rxCpl f)).trans ?_
    rw [← hty, hrec]

end

section
variable {s : State} {w u n : Mach} {f : Frame} {i : Fin 64} (hu : CplSeen s w u)
include hu

/-- What every completion in order shows at its end. -/
theorem cpl_next (hst : n.st.tx = u.st.tx ∧ n.st.rxSeq = u.st.rxSeq) :
    ((∃ g, n.stSync.st.tx.head? = some g ∧ g.ty = 0x30 ∧ g.a = 0) ∧ n.stSync.st.rxSeq = (s.m.st.rxSeq + 1) % 65536) ∧
    SameStores s { s with m := n.stSync } := by
  refine ⟨⟨?_, ?_⟩, rfl, rfl, rfl⟩
  · rw [n.stSync_rest.1, hst.1]
    exact hu.link
  · rw [n.stSync_st.2.1, hst.2]
    exact hu.rxSeq

/-- A completion of a tag with no read outstanding is counted (R828, R830). -/
theorem cpl_counted {c : Fld} (hc : (0x310000 ≤ c.addr ∧ c.addr < 0x400000) ∧ c.lo = 0 ∧ c.hi = 31) :
    (((∃ g, (u.countMod c 1).stSync.st.tx.head? = some g ∧ g.ty = 0x30 ∧ g.a = 0) ∧
      (u.countMod c 1).stSync.st.rxSeq = (s.m.st.rxSeq + 1) % 65536) ∧ SameStores s { s with m := (u.countMod c 1).stSync }) ∧
    (u.countMod c 1).stSync.get c = (s.m.get c + 1) % 2 ^ 32 ∧ (u.countMod c 1).stSync.st.tags = s.m.st.tags ∧
    Keeps { s with m := w } { s with m := (u.countMod c 1).stSync } := by
  obtain ⟨⟨hlo, hhi⟩, hzero, htop⟩ := hc
  have hst : (u.countMod c 1).st = u.st := u.put_st _ _
  have hget := u.countMod_get c (by omega)
  rw [hu.get c hlo hhi, hzero, htop] at hget
  have hbyte : ∀ a, (u.countMod c 1).byte a = u.byte a := u.put_byte _ _
  generalize u.countMod c 1 = n at *
  refine ⟨cpl_next hu (by rw [hst]; exact ⟨rfl, rfl⟩), (n.stSync_get _ hhi).trans hget, ?_,
    fun a => (n.stSync_byte a).trans ((hbyte a).trans (hu.byte a)), rfl, rfl, rfl⟩
  rw [n.stSync_tags.1, hst, hu.tags]

end

section
variable {s : State} {lines : RxLines} {raw : List Byte} {f : Frame} {pad : Bool} {i : Fin 64} (hlive : s.m.live = true)
  (hcar : s.m.carries lines raw = true) (hparse : parseFrame raw = .good f pad) (hsess : s.m.sess = 2) (hgood : f.broken pad = false)
  (hack : s.m.takeAck f.ack = s.m) (hnext : seqDist f.seq s.m.st.rxSeq = 0) (hty : f.ty = 0x14) (hk : f.a % 256 = i.val)
include hlive hcar hparse hsess hgood hack hnext hty hk

theorem does_rxCpl_late (hst : s.m.st.tags[i].st = 2) : Does (.rxCpl lines) s (fun t =>
    (((∃ g, t.m.st.tx.head? = some g ∧ g.ty = 0x30 ∧ g.a = 0) ∧ t.m.st.rxSeq = (s.m.st.rxSeq + 1) % 65536) ∧ SameStores s t) ∧
    t.m.get F.ST_LATE_N = (s.m.get F.ST_LATE_N + 1) % 2 ^ 32 ∧ t.m.st.tags = s.m.st.tags ∧
    Keeps { s with m := (s.m.rxLines lines).catchUp } t) := by
  obtain ⟨u, hu, hexec⟩ := exec_rxCpl hlive hcar hparse hsess hgood hack hnext hty
  rw [rxCpl_late hk (by rw [hu.tags]; exact hst)] at hexec
  exact ⟨_, hexec, cpl_counted hu (by decide)⟩

theorem does_rxCpl_free (hst : s.m.st.tags[i].st = 0) : Does (.rxCpl lines) s (fun t =>
    (((∃ g, t.m.st.tx.head? = some g ∧ g.ty = 0x30 ∧ g.a = 0) ∧ t.m.st.rxSeq = (s.m.st.rxSeq + 1) % 65536) ∧ SameStores s t) ∧
    t.m.get F.ST_BADCPL_N = (s.m.get F.ST_BADCPL_N + 1) % 2 ^ 32 ∧ t.m.st.tags = s.m.st.tags ∧
    Keeps { s with m := (s.m.rxLines lines).catchUp } t) := by
  obtain ⟨u, hu, hexec⟩ := exec_rxCpl hlive hcar hparse hsess hgood hack hnext hty
  rw [rxCpl_free hk (by rw [hu.tags]; exact hst)] at hexec
  exact ⟨_, hexec, cpl_counted hu (by decide)⟩

variable (hst : s.m.st.tags[i].st = 1) (hstatus : bits f.a 15 8 = 0) (hofs : f.b = s.m.st.tags[i].got) (hpos : 0 < f.payload.length)
include hst hstatus hofs hpos

/-- A completion that leaves bytes to come fills its part of the destination (R828). -/
theorem does_rxCpl_part (hmore : s.m.st.tags[i].got + f.payload.length < s.m.st.tags[i].len) : Does (.rxCpl lines) s (fun t =>
    (((∃ g, t.m.st.tx.head? = some g ∧ g.ty = 0x30 ∧ g.a = 0) ∧ t.m.st.rxSeq = (s.m.st.rxSeq + 1) % 65536) ∧ SameStores s t) ∧
    t.m.st.tags = s.m.st.tags.set i { s.m.st.tags[i] with got := s.m.st.tags[i].got + f.payload.length } ∧
    t.m.loadBytes (s.m.st.tags[i].dest + s.m.st.tags[i].got) f.payload.length = f.payload ∧
    ∀ a, a < s.m.st.tags[i].dest + s.m.st.tags[i].got ∨ s.m.st.tags[i].dest + s.m.st.tags[i].got + f.payload.length ≤ a →
      t.m.byte a = (s.m.rxLines lines).catchUp.byte a) := by
  obtain ⟨u, hu, hexec⟩ := exec_rxCpl hlive hcar hparse hsess hgood hack hnext hty
  have htags := hu.tags
  rw [rxCpl_part hk (by rw [htags]; exact hst) hstatus (by rw [htags]; exact hofs) hpos (by rw [htags]; exact hmore)] at hexec
  obtain ⟨hstored, hload, hout⟩ := u.cplStored_spec i f
  rw [htags] at hexec hload hout
  generalize s.m.st.tags[i] = g at *
  generalize ({ g with got := g.got + f.payload.length } : RdTag) = g' at *
  generalize u.cplStored i f = v at *
  have hset := v.setTag_st i g'
  have hbyte := v.setTag_byte i g'
  generalize v.setTag i g' = n at *
  refine ⟨_, hexec, cpl_next hu (by rw [hset, hstored]; exact ⟨rfl, rfl⟩), ?_, ?_, fun a ha => ?_⟩
  · rw [n.stSync_tags.1, hset, hstored, htags]
  · exact (Mach.loadBytes_congr _ _ fun a _ _ => (n.stSync_byte a).trans (hbyte a)).trans hload
  · exact ((n.stSync_byte a).trans (hbyte a)).trans ((hout a ha).trans (hu.byte a))

/-- The last completion of a read frees its tag (R828). -/
theorem does_rxCpl_whole (hend : s.m.st.tags[i].got + f.payload.length = s.m.st.tags[i].len) : Does (.rxCpl lines) s (fun t =>
    (((∃ g, t.m.st.tx.head? = some g ∧ g.ty = 0x30 ∧ g.a = 0) ∧ t.m.st.rxSeq = (s.m.st.rxSeq + 1) % 65536) ∧ SameStores s t) ∧
    t.m.st.tags = s.m.st.tags.set i {}) := by
  obtain ⟨u, hu, hexec⟩ := exec_rxCpl hlive hcar hparse hsess hgood hack hnext hty
  have htags := hu.tags
  rw [rxCpl_whole hk (by rw [htags]; exact hst) hstatus (by rw [htags]; exact hofs) hpos (by rw [htags]; exact hend)] at hexec
  obtain ⟨hstored, -, -⟩ := u.cplStored_spec i f
  generalize u.cplStored i f = v at *
  have hset := v.setTag_st i {}
  generalize v.setTag i {} = n at *
  obtain ⟨x, y, hrec⟩ := n.ownRecord_st 0x82 (i.val + 0 * 256) (u.st.tags[i].got + f.payload.length)
  generalize n.ownRecord 0x82 (i.val + 0 * 256) (u.st.tags[i].got + f.payload.length) = k at *
  refine ⟨_, hexec, cpl_next hu (by rw [hrec, hset, hstored]; exact ⟨rfl, rfl⟩), ?_⟩
  rw [k.stSync_tags.1, hrec, hset, hstored, htags]

end

end Sys2Proof.Machine
end
section
/-!
Settles FramesReceived: LINK frames and their acknowledgements, CREDIT frames, and the statement itself (R809, R810, R813, R817).
-/

namespace Sys2Proof.Machine

/-! ## LINK -/

/-- A NAK is counted and asks for a round; an acknowledgement has been taken already (R815, R817). -/
def Mach.linkAct (m : Mach) (f : Frame) : Mach :=
  if f.a = 1 then Mach.roundOrLoss (m.countHold F.ST_RPLCNT_NAKS 1).askRound else m

section
variable {s : State} {lines : RxLines} {raw : List Byte} {f : Frame} {pad : Bool} (hlive : s.m.live = true) (hcar : s.m.carries lines raw = true)
  (hparse : parseFrame raw = .good f pad) (hsess : s.m.sess = 2) (hgood : f.broken pad = false)
include hcar hparse hsess hgood

/-- The row has taken the acknowledgement of an unsequenced frame, and its own work remains (R813). -/
theorem plain_of_carries (hty : 0x14 < f.ty) : ∃ c b, s.m.Came (s.m.rxLines lines) c b ∧
    ∀ F, (s.m.rxLines lines).received f.ty F = (F (c.takeAck f.ack).stSync f).stSync := by
  obtain ⟨c, b, hc, hrec⟩ := came_of_carries hcar hparse
  refine ⟨c, b, hc, fun F => ?_⟩
  rw [hrec, Mach.rxFrame_good (hc.sess hsess) hgood, Mach.rxOrdered_other (Or.inr hty), if_neg Bool.false_ne_true, Mach.rxDone]

include hlive

theorem does_rxLink_nak (hack : s.m.takeAck f.ack = s.m) (hty : f.ty = 0x30) (hnak : f.a = 1) (hheld : s.m.st.held ≠ []) (hrounds : s.m.st.rounds < 4) :
    Does (.rxLink lines) s (fun t => t.m.st.replay = true ∧ t.m.st.rounds = s.m.st.rounds + 1 ∧ t.m.st.held = s.m.st.held ∧ Keeps s t ∧
      (s.m.get F.ST_RPLCNT_NAKS < 0xFFFF → t.m.get F.ST_RPLCNT_NAKS = s.m.get F.ST_RPLCNT_NAKS + 1)) := by
  obtain ⟨c, b, hc, hrec⟩ := plain_of_carries hcar hparse hsess hgood (by omega)
  have hexec : exec (.rxLink lines) s = .next { s with m := (((c.takeAck f.ack).stSync).linkAct f).stSync } := by
    refine (State.receive_eq hlive 0x30 Mach.linkAct).trans ?_
    rw [← hty, hrec]
  rw [Mach.takeAck_id (by rw [hc.st]) hack, Mach.linkAct, if_pos hnak] at hexec
  have hnaks : c.stSync.get F.ST_RPLCNT_NAKS = s.m.get F.ST_RPLCNT_NAKS :=
    (c.stSync_get _ (by decide)).trans (hc.get F.ST_RPLCNT_NAKS (not_laneRegs (by decide)))
  have hsame := c.stSync_noted.sameTx
  obtain ⟨x, y, z, v, hsync⟩ := c.stSync_noted.st
  have hcheld : c.stSync.st.held = s.m.st.held := hsame.held.trans (by rw [hc.st])
  have hcrounds : c.stSync.st.rounds = s.m.st.rounds := by rw [hsync, hc.st]
  have hcsess : c.stSync.sess = 2 := hsame.sess.trans (hc.sess hsess)
  have hcbyte := c.stSync_byte
  generalize c.stSync = k at *
  have hkst : (k.countHold F.ST_RPLCNT_NAKS 1).st = k.st := k.put_st _ _
  have hksess : (k.countHold F.ST_RPLCNT_NAKS 1).sess = k.sess := k.countHold_get_ne F.ST_RPLCNT_NAKS 1 F.ST_STAT_SESS (by decide)
  have hkbyte : ∀ a, (k.countHold F.ST_RPLCNT_NAKS 1).byte a = k.byte a := k.put_byte _ _
  have hkcount : k.get F.ST_RPLCNT_NAKS < 0xFFFF → (k.countHold F.ST_RPLCNT_NAKS 1).get F.ST_RPLCNT_NAKS = k.get F.ST_RPLCNT_NAKS + 1 := fun h =>
    k.countHold_get F.ST_RPLCNT_NAKS (by decide) (Nat.succ_lt_succ h)
  generalize k.countHold F.ST_RPLCNT_NAKS 1 = j at *
  rw [askRound_eq j (by rw [hkst, hcheld]; exact hheld) (hksess.trans hcsess) (by rw [hkst, hcrounds]; exact hrounds), Mach.roundOrLoss_false] at hexec
  obtain ⟨hreplay, hround, -, -, hheld', hbyte, -, hget⟩ := j.roundAsked_spec
  generalize j.roundAsked.stSync = q at *
  obtain ⟨x', y', z', v', hqsync⟩ := q.stSync_noted.st
  refine ⟨_, hexec, ?_, ?_, ?_, hc.keeps fun a => ?_, fun h => ?_⟩
  · rw [hqsync]
    exact hreplay
  · rw [hqsync, ← hcrounds, ← hkst]
    exact hround
  · rw [hqsync, ← hcheld, ← hkst]
    exact hheld'
  · exact (q.stSync_byte a).trans ((hbyte a).trans ((hkbyte a).trans (hcbyte a)))
  · rw [← hnaks] at h ⊢
    exact (q.stSync_get _ (by decide)).trans ((hget _ (by decide)).trans (hkcount h))

/-- An acknowledgement frees the frames before it (R813, R817). -/
theorem does_rxLink_ack (hty : f.ty = 0x30) (hzero : f.a = 0) {h : StHeld} {rest : List StHeld} (hheld : s.m.st.held = h :: rest)
    (hpos : 0 < seqDist h.f.seq f.ack) (hle : seqDist h.f.seq f.ack ≤ s.m.st.held.length) :
    Does (.rxLink lines) s (fun t => t.m.st.held = s.m.st.held.drop (seqDist h.f.seq f.ack) ∧ t.m.st.rounds = 0 ∧
      t.m.st.ackAt = (s.m.rxLines lines).now ∧ Keeps s t) := by
  obtain ⟨c, b, hc, hrec⟩ := plain_of_carries hcar hparse hsess hgood (by omega)
  have hexec : exec (.rxLink lines) s = .next { s with m := (((c.takeAck f.ack).stSync).linkAct f).stSync } := by
    refine (State.receive_eq hlive 0x30 Mach.linkAct).trans ?_
    rw [← hty, hrec]
  have hcheld : c.st.held = h :: rest := by rw [hc.st, hheld]
  have hfar : ¬ ((seqDist h.f.seq f.ack = 0 || c.st.held.length < seqDist h.f.seq f.ack : Bool) = true) := by
    rw [hc.st]
    simp only [Bool.or_eq_true, decide_eq_true_eq]
    omega
  rw [Mach.takeAck_cons hcheld, if_neg hfar, Mach.linkAct, if_neg (by omega)] at hexec
  obtain ⟨hdrop, hrounds, hat, hwithin, -, -⟩ := c.ackTaken_spec (seqDist h.f.seq f.ack)
  generalize c.ackTaken (seqDist h.f.seq f.ack) = k at *
  obtain ⟨x, y, z, v, hsync⟩ := k.stSync_noted.st
  have hbyte := k.stSync_byte
  generalize k.stSync = j at *
  obtain ⟨x', y', z', v', hsync'⟩ := j.stSync_noted.st
  refine ⟨_, hexec, ?_, ?_, ?_, hc.keeps fun a => (j.stSync_byte a).trans ((hbyte a).trans (hwithin.2 a))⟩
  · rw [hsync', hsync, ← hc.st]
    exact hdrop
  · rw [hsync', hsync]
    exact hrounds
  · rw [hsync', hsync]
    exact hat.trans hc.cut.now

end

/-! ## CREDIT -/

/-- The count of credits that was last told (R809). -/
def Mach.crOf (m : Mach) (ctl : Bool) : Nat := if ctl then m.st.crCtl else m.st.crImg

/-- The registers that a CREDIT frame changes (R809, R810). -/
def creditRegs (a : Nat) : Prop := sendRegs a ∨ protRegs a

/-- `n` is `m` once `d` credits of a class have come back, `v` of them in all. -/
structure Mach.Credited (ctl : Bool) (v : Nat) (m n : Mach) : Prop where
  self : n.availOf ctl = v
  other : n.availOf (!ctl) = m.availOf (!ctl)
  adv : ∀ c, n.advOf c = m.advOf c
  last : n.crOf (!ctl) = m.crOf (!ctl)
  byte : ∀ a, n.byte a = m.byte a
  sess : n.sess = m.sess

theorem Mach.advOf_of_get {m n : Mach} (h : ∀ f : Fld, f.addr = F.ST_ADV_reg → n.get f = m.get f) (c : Bool) : n.advOf c = m.advOf c := by
  unfold Mach.advOf
  rw [h F.ST_ADV_CTL rfl, h F.ST_ADV_IMG rfl]

theorem Mach.advOf_lt (m : Mach) (c : Bool) : m.advOf c < 2 ^ 13 := by
  cases c
  · exact m.get_lt F.ST_ADV_IMG
  · exact m.get_lt F.ST_ADV_CTL

theorem Mach.setAvail_credited (m : Mach) (ctl : Bool) {v : Nat} (hv : v < 2 ^ 13) : Mach.Credited ctl v m (m.setAvail ctl v) := by
  have hwithin := m.setAvail_within ctl v
  refine ⟨(m.setAvail_self ctl v).trans (Nat.mod_eq_of_lt hv), m.setAvail_other ctl v, fun c => Mach.advOf_of_get (fun f hf => ?_) c, ?_, hwithin.2, ?_⟩
  · exact hwithin.get f (by rw [hf]; simp only [sendRegs]; decide)
  · rw [Mach.crOf, m.setAvail_st]
    rfl
  · exact hwithin.get F.ST_STAT_SESS (by simp only [sendRegs]; decide)

theorem Mach.Credited.protErr {ctl : Bool} {v : Nat} {m n : Mach} (h : Mach.Credited ctl v m n) : Mach.Credited ctl v m n.protErr := by
  obtain ⟨-, -, hst, hwithin⟩ := n.protErr_spec
  have havail : ∀ c, n.protErr.availOf c = n.availOf c := fun c => by
    cases c
    · exact hwithin.get F.ST_CRDIMG_AVAIL (by simp only [protRegs]; decide)
    · exact hwithin.get F.ST_CRDCTL_AVAIL (by simp only [protRegs]; decide)
  have hsess : n.protErr.sess = n.sess := by
    have hput : (n.put F.ST_STAT_PROTERR 1).sess = n.sess := n.get_put_apart (f := F.ST_STAT_PROTERR) (g := F.ST_STAT_SESS) 1 (by decide)
    rw [← hput]
    exact Mach.get_put_ne _ F.ST_PROTERR_N F.ST_STAT_SESS _ (by decide)
  refine ⟨(havail _).trans h.self, (havail _).trans h.other, fun c => (Mach.advOf_of_get (fun f hf => ?_) c).trans (h.adv c), ?_,
    fun a => (hwithin.2 a).trans (h.byte a), hsess.trans h.sess⟩
  · exact hwithin.get f (by rw [hf]; simp only [protRegs]; decide)
  · rw [← h.last, Mach.crOf, hst]
    rfl

/-- The count of credits last told moves on. -/
def Mach.crTold (m : Mach) (ctl : Bool) (v : Nat) : Mach := { m with st := if ctl then { m.st with crCtl := v } else { m.st with crImg := v } }

theorem Mach.crTold_spec (m : Mach) (ctl : Bool) (v : Nat) : (∀ f, (m.crTold ctl v).get f = m.get f) ∧ (∀ a, (m.crTold ctl v).byte a = m.byte a) ∧
    (m.crTold ctl v).crOf (!ctl) = m.crOf (!ctl) := by
  refine ⟨fun _ => rfl, fun _ => rfl, ?_⟩
  cases ctl <;> rfl

theorem Mach.addCredits_eq (m : Mach) (ctl : Bool) (v : Nat) : m.addCredits ctl v =
    if (v + 2 ^ 24 - m.crOf ctl) % 2 ^ 24 = 0 || 2 ^ 23 < (v + 2 ^ 24 - m.crOf ctl) % 2 ^ 24 then m
    else if (m.crTold ctl v).advOf ctl < (m.crTold ctl v).availOf ctl + (v + 2 ^ 24 - m.crOf ctl) % 2 ^ 24 then
      ((m.crTold ctl v).setAvail ctl ((m.crTold ctl v).advOf ctl)).protErr
    else (m.crTold ctl v).setAvail ctl ((m.crTold ctl v).availOf ctl + (v + 2 ^ 24 - m.crOf ctl) % 2 ^ 24) := rfl

theorem credit_dist {last d : Nat} (hlast : last < 2 ^ 24) (hd : d ≤ 2 ^ 23) : ((last + d) % 2 ^ 24 + 2 ^ 24 - last) % 2 ^ 24 = d := by omega

theorem Mach.Credited.of_told {ctl : Bool} {v w : Nat} {m n : Mach} (h : Mach.Credited ctl v (m.crTold ctl w) n) : Mach.Credited ctl v m n := by
  obtain ⟨hget, hbyte, hcr⟩ := m.crTold_spec ctl w
  exact ⟨h.self, h.other.trans (Mach.availOf_of_get (fun g _ => hget g) _), fun c => (h.adv c).trans (Mach.advOf_of_get (fun g _ => hget g) c),
    h.last.trans hcr, fun a => (h.byte a).trans (hbyte a), h.sess.trans (hget F.ST_STAT_SESS)⟩

section
variable {m : Mach} {ctl : Bool} {d : Nat} (hlast : m.crOf ctl < 2 ^ 24) (hd : d ≤ 2 ^ 23)
include hlast hd

/-- Credits that come back within what the host granted add up (R809). -/
theorem addCredits_fits (hfits : m.availOf ctl + d ≤ m.advOf ctl) : Mach.Credited ctl (m.availOf ctl + d) m (m.addCredits ctl ((m.crOf ctl + d) % 2 ^ 24)) ∧
    (m.addCredits ctl ((m.crOf ctl + d) % 2 ^ 24)).get F.ST_STAT_PROTERR = m.get F.ST_STAT_PROTERR := by
  obtain ⟨hget, -, -⟩ := m.crTold_spec ctl ((m.crOf ctl + d) % 2 ^ 24)
  have havail : (m.crTold ctl ((m.crOf ctl + d) % 2 ^ 24)).availOf ctl = m.availOf ctl := Mach.availOf_of_get (fun g _ => hget g) ctl
  have hadv : (m.crTold ctl ((m.crOf ctl + d) % 2 ^ 24)).advOf ctl = m.advOf ctl := Mach.advOf_of_get (fun g _ => hget g) ctl
  rw [Mach.addCredits_eq, credit_dist hlast hd, havail, hadv]
  by_cases hzero : d = 0
  · rw [if_pos (by simp [hzero]), hzero]
    exact ⟨⟨rfl, rfl, fun _ => rfl, rfl, fun _ => rfl, rfl⟩, rfl⟩
  · have hsome : ¬ ((d = 0 || 2 ^ 23 < d : Bool) = true) := by
      simp only [Bool.or_eq_true, decide_eq_true_eq]
      omega
    have hlt : m.availOf ctl + d < 2 ^ 13 := hfits.trans_lt (m.advOf_lt ctl)
    rw [if_neg hsome, if_neg (by omega)]
    refine ⟨Mach.Credited.of_told (Mach.setAvail_credited _ ctl hlt), ?_⟩
    exact ((Mach.setAvail_within _ ctl _).get F.ST_STAT_PROTERR (by simp only [sendRegs]; decide)).trans (hget _)

/-- Credits that the host never granted are a protocol error (R810). -/
theorem addCredits_over (hpos : 0 < d) (hover : m.advOf ctl < m.availOf ctl + d) :
    Mach.Credited ctl (m.advOf ctl) m (m.addCredits ctl ((m.crOf ctl + d) % 2 ^ 24)) ∧
    (m.addCredits ctl ((m.crOf ctl + d) % 2 ^ 24)).get F.ST_STAT_PROTERR = 1 := by
  obtain ⟨hget, -, -⟩ := m.crTold_spec ctl ((m.crOf ctl + d) % 2 ^ 24)
  have havail : (m.crTold ctl ((m.crOf ctl + d) % 2 ^ 24)).availOf ctl = m.availOf ctl := Mach.availOf_of_get (fun g _ => hget g) ctl
  have hadv : (m.crTold ctl ((m.crOf ctl + d) % 2 ^ 24)).advOf ctl = m.advOf ctl := Mach.advOf_of_get (fun g _ => hget g) ctl
  have hsome : ¬ ((d = 0 || 2 ^ 23 < d : Bool) = true) := by
    simp only [Bool.or_eq_true, decide_eq_true_eq]
    omega
  rw [Mach.addCredits_eq, credit_dist hlast hd, havail, hadv, if_neg hsome, if_pos hover]
  exact ⟨Mach.Credited.of_told (Mach.setAvail_credited _ ctl (m.advOf_lt ctl)).protErr, (Mach.protErr_spec _).1⟩

end

section
variable {s : State} {lines : RxLines} {raw : List Byte} {f : Frame} {pad : Bool} (hlive : s.m.live = true) (hcar : s.m.carries lines raw = true)
  (hparse : parseFrame raw = .good f pad) (hsess : s.m.sess = 2) (hgood : f.broken pad = false) (hack : s.m.takeAck f.ack = s.m)
  (hty : f.ty = 0x31) {d e : Nat} (ha : f.a = (s.m.st.crImg + d) % 2 ^ 24) (hb : f.b = (s.m.st.crCtl + e) % 2 ^ 24)
  (himg : s.m.st.crImg < 2 ^ 24) (hctl : s.m.st.crCtl < 2 ^ 24) (hd : d ≤ 2 ^ 23) (he : e ≤ 2 ^ 23)
  (hfits : s.m.availOf true + e ≤ s.m.advOf true)
include hlive hcar hparse hsess hgood hack hty

/-- What a CREDIT frame finds. -/
theorem exec_rxCredit : ∃ k : Mach, (∀ c, k.availOf c = s.m.availOf c) ∧ (∀ c, k.advOf c = s.m.advOf c) ∧ (∀ c, k.crOf c = s.m.crOf c) ∧
    k.sess = 2 ∧ (∀ a, k.byte a = s.m.byte a) ∧ exec (.rxCredit lines) s = .next { s with m := (k.rxCredit f).stSync } := by
  obtain ⟨c, b, hc, hrec⟩ := plain_of_carries hcar hparse hsess hgood (by omega)
  have hsame := c.stSync_noted.sameTx
  obtain ⟨x, y, z, v, hsync⟩ := c.stSync_noted.st
  refine ⟨c.stSync, fun d => (hsame.avail d).trans (hc.avail d), fun d => Mach.advOf_of_get (fun g hg => ?_) d, fun d => ?_,
    hsame.sess.trans (hc.sess hsess), fun a => (c.stSync_byte a).trans ((hc.keeps (k := c) fun _ => rfl).1 a), ?_⟩
  · exact (c.stSync_get g (by rw [hg]; decide)).trans (hc.get g (by rw [hg]; exact not_laneRegs (by decide)))
  · rw [Mach.crOf, hsync, hc.st]
    rfl
  · refine (State.receive_eq hlive 0x31 Mach.rxCredit).trans ?_
    rw [← hty, hrec, Mach.takeAck_id (by rw [hc.st]) hack]

/-- Both classes of a CREDIT frame, one after the other. -/
theorem does_rxCredit_of {v : Nat} {P : Nat → Prop} (hb : f.b = (s.m.st.crCtl + e) % 2 ^ 24) (hctl : s.m.st.crCtl < 2 ^ 24) (he : e ≤ 2 ^ 23)
    (hfits : s.m.availOf true + e ≤ s.m.advOf true)
    (hfirst : ∀ k : Mach, (∀ c, k.availOf c = s.m.availOf c) → (∀ c, k.advOf c = s.m.advOf c) → (∀ c, k.crOf c = s.m.crOf c) →
      Mach.Credited false v k (k.addCredits false f.a) ∧ P ((k.addCredits false f.a).get F.ST_STAT_PROTERR)) :
    Does (.rxCredit lines) s (fun t => t.m.availOf false = v ∧ t.m.availOf true = s.m.availOf true + e ∧ P (t.m.get F.ST_STAT_PROTERR) ∧ Keeps s t) := by
  obtain ⟨k, havail, hadv, hcr, hksess, hbyte, hexec⟩ := exec_rxCredit hlive hcar hparse hsess hgood hack hty
  obtain ⟨h1, hprot1⟩ := hfirst k havail hadv hcr
  rw [Mach.rxCredit, if_pos hksess] at hexec
  generalize k.addCredits false f.a = k1 at *
  have hlast : k1.crOf true = s.m.st.crCtl := h1.last.trans (hcr true)
  have havail1 : k1.availOf true = s.m.availOf true := h1.other.trans (havail true)
  have hadv1 : k1.advOf true = s.m.advOf true := (h1.adv true).trans (hadv true)
  obtain ⟨h2, hprot2⟩ := addCredits_fits (m := k1) (ctl := true) (d := e) (by rw [hlast]; exact hctl) he (by rw [havail1, hadv1]; exact hfits)
  rw [hlast, ← hb] at h2 hprot2
  generalize k1.addCredits true f.b = k2 at *
  have hsame := k2.stSync_noted.sameTx.trans (k2.stSync).stSync_noted.sameTx
  have hget : ∀ g : Fld, g.addr < 0x400000 → k2.stSync.stSync.get g = k2.get g := fun g hg => (Mach.stSync_get _ g hg).trans (k2.stSync_get g hg)
  refine ⟨_, hexec, ?_, ?_, ?_, fun a => ?_, rfl, rfl, rfl⟩
  · exact (hsame.avail false).trans (h2.other.trans h1.self)
  · exact (hsame.avail true).trans (h2.self.trans (by rw [havail1]))
  · rw [hget F.ST_STAT_PROTERR (by decide), hprot2]
    exact hprot1
  · exact (Mach.stSync_byte _ a).trans ((k2.stSync_byte a).trans ((h2.byte a).trans ((h1.byte a).trans (hbyte a))))

include ha hb himg hctl hd he hfits

theorem does_rxCredit_fits (hin : s.m.availOf false + d ≤ s.m.advOf false) : Does (.rxCredit lines) s (fun t =>
    t.m.availOf false = s.m.availOf false + d ∧ t.m.availOf true = s.m.availOf true + e ∧ Keeps s t) := by
  obtain ⟨t, hexec, h1, h2, -, h3⟩ := does_rxCredit_of (v := s.m.availOf false + d) (P := fun _ => True) hlive hcar hparse hsess hgood hack hty
    hb hctl he hfits fun k havail hadv hcr => by
      have hlast : k.crOf false = s.m.st.crImg := hcr false
      obtain ⟨h, -⟩ := addCredits_fits (m := k) (ctl := false) (d := d) (by rw [hlast]; exact himg) hd (by rw [havail, hadv]; exact hin)
      rw [hlast, ← ha, havail] at h
      exact ⟨h, trivial⟩
  exact ⟨t, hexec, h1, h2, h3⟩

theorem does_rxCredit_over (hpos : 0 < d) (hover : s.m.advOf false < s.m.availOf false + d) : Does (.rxCredit lines) s (fun t =>
    t.m.availOf false = s.m.advOf false ∧ t.m.get F.ST_STAT_PROTERR = 1 ∧ Keeps s t) := by
  obtain ⟨t, hexec, h1, -, h2, h3⟩ := does_rxCredit_of (v := s.m.advOf false) (P := fun x => x = 1) hlive hcar hparse hsess hgood hack hty
    hb hctl he hfits fun k havail hadv hcr => by
      have hlast : k.crOf false = s.m.st.crImg := hcr false
      obtain ⟨h, hprot⟩ := addCredits_over (m := k) (ctl := false) (d := d) (by rw [hlast]; exact himg) hd hpos (by rw [havail, hadv]; exact hover)
      rw [hlast, ← ha] at h hprot
      rw [hadv] at h
      exact ⟨h, hprot⟩
  exact ⟨t, hexec, h1, h2, h3⟩

end

/-- Settles O56: every row reads the stream as `rxNext` does, and acts on the frame that `came_of_carries` or `next_of_carries` gives it. -/
theorem framesReceived : Obligations.FramesReceived := by
  intro s lines raw hlive
  dsimp only
  refine ⟨?_, rxLines_only, ?_, ?_, ?_, ?_⟩
  · intro hup i hi
    exact exec_rxRow_down hlive hup hi
  · intro hup hin hsess hnak
    refine ⟨fun hparse i hi => ?_, fun hne hparse i hi => ?_⟩
    · exact does_rxRow_badCrc hlive hup hin hsess hnak hparse hi
    · exact does_rxRow_framing hlive hup hin hsess hnak hne hparse hi
  · intro f pad hcar hsess hparse hhost
    refine ⟨fun i hi hne => ?_, fun hbad hty i hi heq => ?_⟩
    · exact exec_rxRow_other hcar hparse hlive hhost hi hne
    · exact does_rxRow_broken hlive hcar hparse hbad hty hi heq
  · intro f pad hcar hsess hparse hgood hack
    refine ⟨fun hpos hold i hi heq hlo hhi => ?_, fun hnew hnak i hi heq hlo hhi => ?_, fun hnext hphase i hi heq => ⟨fun h16 hroom hfits => ?_, fun hfull => ?_⟩,
      fun hnext hphase hty => ?_, fun hnext hty k hk => ⟨fun hst => ?_, fun hst => ?_, fun hst hstatus hofs hpos hmore => ?_,
        fun hst hstatus hofs hpos hend => ?_⟩, fun hty hnak hheld hrounds => ?_,
      fun hty d e ha hb himg hctl hd he hfits => ⟨fun hin => ?_, fun hpos hover => ?_⟩⟩
    · exact does_rxRow_again hlive hcar hparse hsess hgood hack hpos hold hi heq hlo hhi
    · exact does_rxRow_gap hlive hcar hparse hsess hgood hack hnew hnak hi heq hlo hhi
    · exact does_recordRow_room hlive hcar hparse hsess hgood hack hnext hphase hi heq h16 hroom hfits
    · exact does_recordRow_full hlive hcar hparse hsess hgood hack hnext hphase hi heq hfull
    · exact does_rxMsg_boot hlive hcar hparse hsess hgood hack hnext hphase hty
    · exact does_rxCpl_late hlive hcar hparse hsess hgood hack hnext hty hk hst
    · exact does_rxCpl_free hlive hcar hparse hsess hgood hack hnext hty hk hst
    · exact does_rxCpl_part hlive hcar hparse hsess hgood hack hnext hty hk hst hstatus hofs hpos hmore
    · exact does_rxCpl_whole hlive hcar hparse hsess hgood hack hnext hty hk hst hstatus hofs hpos hend
    · exact does_rxLink_nak hlive hcar hparse hsess hgood hack hty hnak hheld hrounds
    · exact does_rxCredit_fits hlive hcar hparse hsess hgood hack hty ha hb himg hctl hd he hfits hin
    · exact does_rxCredit_over hlive hcar hparse hsess hgood hack hty ha hb himg hctl hd he hfits hpos hover
  · intro f pad h rest hcar hsess hparse hgood hty hzero hheld hpos hle
    exact does_rxLink_ack hlive hcar hparse hsess hgood hty hzero hheld hpos hle

end Sys2Proof.Machine
end
